-- ==== Sys2Proof/Word.lean ====
section
/-! DEFINITION. The word types of the HFX7436 and the plainest arithmetic on them (rules R8 to R14).

A Tarn word is 36 bits (R10); NT32 is network time in nanoseconds modulo two to the 32 (R13); a register holds 32 or
64 bits and is kept in a 64-bit container, zero above its width (R12, R16). -/
namespace Sys2Proof

/-- A 36-bit Tarn or Basin word (R10). -/
abbrev Word := BitVec 36
/-- A 32-bit register or field. -/
abbrev W32 := BitVec 32
/-- A 64-bit register value; a 32-bit register occupies the low half. -/
abbrev W64 := BitVec 64
/-- A network time stamp, nanoseconds modulo two to the 32 (R13). -/
abbrev NT32 := BitVec 32
/-- A byte of DRAM or of a payload. -/
abbrev Byte := BitVec 8

/-- Bit `n` of a value as a Bool (R8: bit 0 is least significant). -/
abbrev bit {w : Nat} (v : BitVec w) (n : Nat) : Bool := v.getLsbD n

/-- Field `[hi:lo]` of a value, as a natural number (R8). -/
def fld {w : Nat} (v : BitVec w) (hi lo : Nat) : Nat := (v.toNat >>> lo) % 2 ^ (hi + 1 - lo)

/-- A value with field `[hi:lo]` replaced (R8). -/
def setFld {w : Nat} (v : BitVec w) (hi lo n : Nat) : BitVec w :=
  let m := (2 ^ (hi + 1 - lo) - 1) <<< lo
  BitVec.ofNat w ((v.toNat &&& ((2 ^ w - 1) ^^^ m)) ||| ((n % 2 ^ (hi + 1 - lo)) <<< lo))

/-- A Bool as a 0 or 1. -/
def b2n (b : Bool) : Nat := if b then 1 else 0

/-- The signed 32-bit difference `a − b` that every comparison of instants uses (R22). -/
def sdiff (a b : NT32) : Int := (a - b).toInt

/-- Add one to a counter that saturates at the largest value of its width. -/
def satInc {w : Nat} (v : BitVec w) : BitVec w := if v = BitVec.allOnes w then v else v + 1

/-- Round an instant up to the next multiple of `g` ns, on the exact NT64 value (R117). -/
def roundUpTo (g n : Nat) : Nat := if n % g = 0 then n else n + (g - n % g)

/-- Ceiling division. -/
def ceilDiv (a b : Nat) : Nat := (a + b - 1) / b

/-- Clamp an integer into `[lo, hi]`. -/
def clampInt (lo hi x : Int) : Int := if x < lo then lo else if hi < x then hi else x

end Sys2Proof
end

