-- ==== Sys2Proof/Syntax.lean ====
section
/-! DEFINITION. The commands of the block: one constructor per row of spec/opcode_table.json, with the operands that the
rules give the command (log entry 4: the table gives rows no operand fields).

A command is what reaches the device from outside (a host access, a frame, a pin, a message of a peer) or an internal
step that the spec gives an instant or a condition of its own. -/
namespace Sys2Proof

/-- One 802.1Q tag of a received frame (R147). -/
structure VTag where
  tpid : BitVec 16
  vid : BitVec 12
  deriving DecidableEq, Repr

/-- The RTP or RTCP packet in a UDP payload as the parser sees it (R147). `inHead`: the whole RTP header lies within the
first 256 bytes; `padBad`: the payload length is negative after padding is removed (R148). Of an RTCP packet, `marker` and `pt`
are the second byte, `ssrc` the sender's and `payload` the bytes from byte 8 on. `head` holds the header's bytes as received, CSRC list
and extension included, and `tag` the authentication tag. -/
structure RtpPkt where
  version : Nat
  inHead : Bool
  padBad : Bool
  marker : Bool
  pt : Nat
  seq : BitVec 16
  ts : W32
  ssrc : W32
  mki : BitVec 32
  srtcpIndex : Nat
  srtcpE : Bool
  payload : List Byte
  head : List Byte
  tag : List Byte
  deriving DecidableEq, Repr

/-- The IP and UDP headers of a received frame as the parser sees them (R147, R148). IPv4 addresses lie in the low 32
bits. `sumBad`: IPv4 header checksum error; `lenBad`: a length disagrees with the frame. -/
structure IpPkt where
  v6 : Bool
  src : BitVec 128
  dst : BitVec 128
  options : Bool
  fragment : Bool
  udp : Bool
  sumBad : Bool
  lenBad : Bool
  udpSumBad : Bool
  udpSumZero : Bool
  sport : BitVec 16
  dport : BitVec 16
  rtp : RtpPkt
  deriving DecidableEq, Repr

/-- A frame received on a media port or the management port (R145): its stamp is the start-of-frame delimiter's NT32 and
a fraction in 1/16 ns before the corrections of R85; `len` counts bytes with FCS; `head` holds its leading bytes. -/
structure RxFrame where
  port : Nat
  stamp : NT32
  frac : BitVec 4
  len : Nat
  fcsOk : Bool
  aligned : Bool
  dst : BitVec 48
  src : BitVec 48
  tags : List VTag
  pcp : Nat
  etherType : BitVec 16
  ip : Option IpPkt
  head : List Byte
  deriving DecidableEq, Repr

/-- The header of a received PTP message (R87, R88): message fields the rules read, the transport it came on (0 Ethernet, 1
UDP/IPv4, 2 UDP/IPv6) under how many 802.1Q tags, and its stamp with the fraction in 1/16 ns (R85). Times are in ns, corrections
in 2⁻¹⁶ ns. -/
structure PtpMsg where
  port : Nat
  stamp : NT32
  frac : BitVec 4
  transport : Nat
  tags : Nat
  version : Nat
  domain : Nat
  truncated : Bool
  authTlv : Bool
  management : Bool
  source : W64
  sourcePort : Nat
  seq : BitVec 16
  twoStep : Bool
  origin : W64
  correction : W64
  requester : W64
  requesterPort : Nat
  deriving DecidableEq, Repr

/-- The dataset of an Announce message (R87). -/
structure PtpAnnounce where
  gm : W64
  prio1 : Nat
  clockClass : Nat
  accuracy : Nat
  variance : Nat
  prio2 : Nat
  steps : Nat
  traceable : Bool
  ptpScale : Bool
  utcOffset : Nat
  path : List W64
  deriving DecidableEq, Repr

/-- A unicast-negotiation TLV of a Signaling message (R87): 4 REQUEST, 5 GRANT, 6 CANCEL, 7 ACKNOWLEDGE_CANCEL; the type of the
message it speaks of, the logarithm of its interval in s, and for how many seconds. -/
structure PtpTlv where
  kind : Nat
  msgType : Nat
  logPeriod : Int
  duration : Nat
  deriving DecidableEq, Repr

/-- What a configuration write to the PF sets beside capturing its bus and device number (R37, R58, R63, R366). -/
inductive ConfigItem where
  | other
  | vfEnable (on : Bool) (num : Nat)
  | busMaster (on : Bool)
  | vfBusMaster (p : Nat) (on : Bool)
  | msixMask (fn : Nat) (on : Bool)
  deriving DecidableEq, Repr

/-- An entry of a trunk bundle (R424). -/
structure TrunkEntry where
  remote : W32
  leg : Nat
  conceal : Bool
  payload : List Byte
  deriving DecidableEq, Repr

/-- A TRUNK frame: the fields of its header (R420), its entries (R424) and its length in bytes with FCS. -/
structure TrunkFrame where
  hops : Nat
  dst : Nat
  src : Nat
  part : Nat
  last : Bool
  pass : NT32
  launch : NT32
  entries : List TrunkEntry
  len : Nat
  deriving DecidableEq, Repr

/-- An operation the active of a twin forwards (R336, R340): CHW operations with the slot, handle and boundary, flow, key
and program operations, bindings, policers, partition registers and state, the boundary-applied registers, shedding steps
and the switchover boundary. -/
inductive TwinOp where
  | chw (op : Nat) (handle : W32) (at_ : NT32) (desc : List W32)
  | flow (part op idx : Nat) (words : List W32)
  | key (part op : Nat) (handle ctrl mki roc : W32) (master salt : List W32)
  | prgLoad (part id code : Nat) (image : List Word)
  | prgUnload (part id : Nat)
  | binding (idx : Nat) (ctrl ports : W32) (ip : List W32)
  | policer (part : Nat) (pkt byte burst : W32)
  | quota (part off : Nat) (v : W32)
  | partState (part : Nat) (open_ : Bool)
  | shedCfg (part : Nat) (v : W32) (at_ : NT32)
  | weirReg (off : Nat) (v : W32) (at_ : NT32)
  | jbCtrl (v : W32) (at_ : NT32)
  | shed (part step : Nat) (at_ : NT32)
  | switchover (x : NT32)
  deriving DecidableEq, Repr

/-- An INGRESS record (R336): the packet's identity, its flow and stamp, its digest and, in cross-feed mode, the frame. Of a TRUNK frame
(R428) `flow` is its port. -/
structure IngressRec where
  handle : W32
  leg : Nat
  flow : Nat
  index : Nat
  stamp : NT32
  frac : BitVec 4
  digest : W64
  frame : Option RxFrame
  trunk : Option TrunkFrame
  deriving DecidableEq, Repr

/-- A HEARTBEAT (R337): state and FENCE_N of the sender, LAUNCHED and WRITTEN of an active, and the time exchange of R344:
the offset measured and the one-way delay, 1/16 ns. -/
structure TwinHb where
  seq : BitVec 16
  instant : NT32
  role : Nat
  fence : Bool
  launched : Option NT32
  written : Option NT32
  offset : Int
  delay : Nat
  deriving DecidableEq, Repr

/-- Pairing data of the peer (R331, R332): its pair ID, side, priority and state, whether its certificate and the key
agreement hold, and the pair ID this device reads from its own EEPROM. -/
structure TwinPeer where
  pairId : W64
  ownId : W64
  side : Bool
  prio : Nat
  active : Bool
  certOk : Bool
  deriving DecidableEq, Repr

/-- A payload held in a leg's DRAM ring (R168): sequence number, payload type, marker, timestamp and arrival
NT64; its playout instant follows from the anchor. -/
structure Held where
  seq : BitVec 16
  pt : Nat
  marker : Bool
  ts : W32
  arr : W64
  payload : List Byte
  deriving DecidableEq, Repr

/-- An operand of a pass: none yet, silence, CONTINUE (R168), codewords or a codec frame, or samples with the LINE status
word of R400. -/
inductive Oper where
  | none
  | silence
  | cont
  | bytes (b : List Byte)
  | pcm (x : List (BitVec 18)) (status : Nat)
  deriving DecidableEq, Repr

/-- An operand read from a leg's ring for a pass (R27, R168), and whether it has reached the Basin. -/
structure PreOp where
  pass : NT32
  op : Oper
  there : Bool
  deriving DecidableEq, Repr

/-- An RFC 4733 event received on a leg (R208): its code, volume, timestamp and the duration its last update stated; whether its E
bit came, whether the rest of it is not played (R206), and whether its end has been recorded. -/
structure RxEvent where
  code : Nat
  vol : Nat
  ts : W32
  dur : Nat
  fin : Bool
  cut : Bool
  done : Bool
  deriving DecidableEq, Repr

/-- An event a leg is to send (R207): its code and volume, and whether it still lasts. -/
structure TxEvent where
  code : Nat
  vol : Nat
  live : Bool
  deriving DecidableEq, Repr

/-- The event a leg is sending (R207): its timestamp, the final packets still to send once it has ended, and the duration those
carry. -/
structure TxRun where
  ts : W32
  left : Option Nat
  dur : Nat
  deriving DecidableEq, Repr

/-- A DTMF digit in progress on a leg's input: digit, level, passes since it began. -/
structure Digit where
  digit : Nat
  level : Nat
  ran : Nat
  deriving DecidableEq, Repr

/-- One call-progress tone being matched (R203): segments of its cadence matched, whether the tone is there and for how many passes
that has stood, passes since it matched if it has, and passes it has been absent. -/
structure ToneRun where
  stage : Nat
  on : Bool
  run : Nat
  hit : Option Nat
  absent : Nat
  deriving DecidableEq, Repr

/-- The tone detectors of a leg (R202 to R204, R207): a digit not yet recognised (digit, level, passes, passes absent), the digit in
progress and its present break, the silence still owed after a digit's end, the four call-progress tones, the runs of CED and of its
amplitude modulation, passes since its last phase reversal and whether reversals were reported, the run of CNG and passes since its
last burst began, and the V.21 flags in a row. -/
structure Detect where
  cand : Option (Nat × Nat × Nat × Nat)
  digit : Option Digit
  gap : Nat
  tail : Nat
  tones : List ToneRun
  ced : Nat
  am : Nat
  rev : Option Nat
  revTold : Bool
  cng : Nat
  cngAgo : Option Nat
  flags : Nat
  deriving DecidableEq, Repr

/-- The echo canceller (R199, R201): its coefficients by name and how many taps of each band that name gives (the others are zero),
and its far-end history by name. -/
structure EchoCan where
  coef : Nat
  valid : Nat
  hist : Nat
  deriving DecidableEq, Repr

/-- The tone generator (R206): GEN of the command it runs, 0 when idle, passes played, and once its end has come the sample of the
next pass at which it stops. -/
structure ToneGen where
  kind : Nat
  played : Nat
  ending : Option Nat
  deriving DecidableEq, Repr

/-- The part of a channel's context whose meaning the spec gives (R199 to R208, R215, R222): pass-through and the canceller
disabled in it (R205), the echo canceller, the generator, the detectors of both legs, the AGC gains in 10⁻³ dB and the noise
estimates by name. -/
structure Media where
  passThrough : Bool
  ecOff : Bool
  ec : EchoCan
  gen : ToneGen
  detA : Detect
  detB : Detect
  agcA : Int
  agcB : Int
  noiseA : Nat
  noiseB : Nat
  deriving DecidableEq, Repr

/-- A channel's context as the twins exchange it (R336, R342): the name of the rest, and the part whose meaning the spec gives. -/
structure ChanCtx where
  name : Nat
  media : Media
  deriving DecidableEq, Repr

/-- A core that takes an interrupt (R242), and whether its debug unit asks for one. -/
structure IrqAt where
  core : Nat
  debug : Bool
  deriving DecidableEq, Repr

/-- A leg: the jitter buffer's anchor and window (R169 to R172), the payloads held, the operand brought into the Basin for
a pass (R168), the egress frame in progress and counters (R174), RTCP statistics (R164), event transmission and reception
(R207, R208); key use and SSRC learning are in the flow and key stores. `ops` are the operands read for passes to come, oldest
first; `lostTo` ends the frame whose operand was lost (R168);
`heard` says that a packet has been accepted since activation (R167); `evtUnsup` are the event codes recorded as unsupported and `evtNew` those
the next job records. -/
structure Leg where
  anchor : Option (W64 × W32)
  window : List (W64 × Int)
  winFrom : W64
  heard : Bool
  rejRun : Nat
  ovrRun : Nat
  grow : Nat
  shrink : Nat
  shrinkWait : Nat
  lastShrink : Nat
  held : List Held
  ops : List PreOp
  lostTo : Int
  muted : Option NT32
  concealRun : Nat
  badSecs : Option W64
  txSeq : BitVec 16
  frame : List Byte
  framePasses : Nat
  frameStart : W64
  frameFill : Bool
  frameMarker : Bool
  txCount : Nat
  sinceReport : Bool
  rxCount : Nat
  rxHighest : BitVec 16
  rxCycles : Nat
  rxSsrc : W32
  rxJitter : Nat
  rxTransit : Int
  reports : Nat
  evtQ : List TxEvent
  evtRun : Option TxRun
  evts : List RxEvent
  evtUnsup : List Nat
  evtNew : List Nat
  jbCtrl : W32
  txOctets : Nat
  rxBase : BitVec 16
  lsr : W32
  lsrAt : NT32
  expPrior : Nat
  rcvPrior : Nat
  deriving DecidableEq, Repr

/-- One item of the bulk transfer's tables (R351): a flow entry, a key slot with its state, a binding, a policer, a loaded
program, a register of a partition or of the boundary-applied set, a partition's state, a channel slot's lease with its descriptor and the changes
that wait: the kind of the pending one, 0 for none, its boundary and its descriptor. -/
inductive BulkItem where
  | flow (idx : Nat) (words : List W32)
  | key (idx : Nat) (key salt : List W32) (mki : W32) (mkiLen roc : Nat) (top : Option Nat) (seen : List Nat) (rtcpTop : Option Nat)
    (rtcpSeen : List Nat) (sent rtcpSent : Nat)
  | binding (idx : Nat) (ctrl ports : W32) (ip : List W32)
  | policer (part : Nat) (pkt byte burst : W32)
  | prog (part id code : Nat) (image : List Word)
  | reg (key : Nat) (v : W64)
  | channel (slot : Nat) (handle : W32) (active : Bool) (act : W64) (desc : List W32) (write : List (NT32 × List W32)) (pend at_ : Nat)
    (next : List W32)
  | shed (part : Nat) (cfg : W32)
  deriving DecidableEq, Repr

/-- A boot image as read (R439): whether its signature verifies, its image version and its security version. -/
structure BootImage where
  ok : Bool
  ver : Nat
  sec : Nat
  deriving DecidableEq, Repr

/-- What mounting the flash finds (R369, R374, R376, R384): whether a part is mounted, FLASH_CFG, FLASH_BAD, FLASH_LIFE,
FLASH_FLUSH_US, the SPOOL capacity in MiB, and the transactions rolled back and forward. -/
structure FlashMount where
  mounted : Bool
  cfg : W32
  bad : W32
  life : W32
  flushUs : Nat
  spoolMib : Nat
  back : Nat
  forward : Nat
  deriving DecidableEq, Repr

/-- What a step of boot finds (R438): PWR_FAIL_N high for 10 ms; the images of the slots; whether the step's work succeeds;
the OTP counter; the fitted DRAM in GiB and its channels that train, bit c for channel c; the flash; the seed drawn; the settings of the CONFIG region by register key, the
partitions it names, and its SCE program; and of the firmware that runs, the words of PM and CS of a media core, those of PM of
a control core, and the protection regions it programs: base and limit in 4 KiB units, and 1 read, 2 write, 4 enable, 8 lock. -/
structure BootIn where
  powerOk : Bool
  imageA : BootImage
  imageB : BootImage
  ok : Bool
  rollback : Nat
  gib : Nat
  trained : BitVec 2
  flash : FlashMount
  seed : W64
  config : List (Nat × W64)
  parts : List Nat
  sce : List W32
  pm : List Word
  cs : List Word
  ctl : List Word
  mpu : List (Nat × Nat × Nat)
  deriving DecidableEq, Repr

/-- The commands: one constructor per row of the opcode table. -/
inductive Instr where
  /-- PASS_BOUNDARY (R115). -/
  | passBoundary
  /-- DISPATCH_DEADLINE (R108). -/
  | dispatchDeadline
  /-- OPERAND_VISIBLE (R291). -/
  | operandVisible (handle : W32) (leg : Nat)
  /-- QUIESCE_END (R165). -/
  | quiesceEnd (slot : Nat)
  /-- PARTITION_CLOSED (R283). -/
  | partitionClosed (p : Nat)
  /-- PREFETCH (R27): ue is the byte address of an uncorrectable DRAM transfer of the operand, where one was read. -/
  | prefetch (handle : W32) (leg : Nat) (ue : Option W64)
  /-- PREFETCH_ARRIVE (R127). -/
  | prefetchArrive (handle : W32) (leg : Nat)
  /-- PLAYOUT_EVENT (R116). -/
  | playoutEvent (handle : W32) (leg : Nat)
  /-- RTCP_REPORT (R164). -/
  | rtcpReport (handle : W32) (leg : Nat)
  /-- TONE_EVENT_END (R116). -/
  | toneEventEnd (handle : W32)
  /-- INACTIVITY_TIMEOUT (R116). -/
  | inactivityTimeout (handle : W32)
  /-- FIRMWARE_TIMER (R116). -/
  | firmwareTimer (tag : Nat)
  /-- CHANNEL_JOB (R191). -/
  | channelJob (core : Nat)
  /-- BUS_JOB (R217). -/
  | busJob (core : Nat)
  /-- STREAM_IN_COMPLETE (R242). -/
  | streamInComplete (core : Nat)
  /-- JOB_COMPLETE (R121). -/
  | jobComplete (core : Nat)
  /-- STREAM_OUT_COMPLETE (R121): ue is the Basin address of an uncorrectable word met. -/
  | streamOutComplete (core : Nat) (ue : Option Nat)
  /-- CORE_FAULT (R128): src is TARN_FAULT.SOURCE, cs its CS bit (R258). -/
  | coreFault (core src : Nat) (cs : Bool)
  /-- WATCHDOG_EXPIRY (R251). -/
  | watchdogExpiry (core : Nat)
  /-- CORE_RETURN (R129): the value written to WEIR_CORE_RETURN. -/
  | coreReturn (v : W64)
  /-- SELFTEST_DONE (R129). -/
  | selftestDone (core : Nat) (pass : Bool)
  /-- BASIN_SCRUB (R123): err 0 none, 1 corrected, 2 uncorrectable. -/
  | basinScrub (addr err : Nat)
  /-- DRAM_SCRUB (R124): a byte address; err as for BASIN_SCRUB. -/
  | dramScrub (addr err : Nat)
  /-- WRITE_FAIL (R61): originating page, partition, DRAM byte address, channel whose context the write served (0 none). -/
  | writeFail (page part addr : Nat) (handle : W32)
  /-- VF_FLR (R38). -/
  | vfFlr (p : Nat)
  /-- PF_FLR (R38). -/
  | pfFlr
  /-- REGISTER_WRITE (R46): a BAR0 write of a function. -/
  | registerWrite (fn off size : Nat) (v : W64)
  /-- UNALIGNED_READ (R46). -/
  | unalignedRead (fn bar off size : Nat)
  /-- WRITE_LATCH_LOW (R471). -/
  | writeLatchLow (fn off : Nat) (v : W32)
  /-- WRITE_HIGH_HALF (R471). -/
  | writeHighHalf (fn off : Nat) (v : W32)
  /-- BAR2_WRITE (R42). -/
  | bar2Write (off size : Nat) (v : W64)
  /-- BAR2_READ (R42). -/
  | bar2Read (off size : Nat)
  /-- PERR_POP (R63). -/
  | perrPop
  /-- PERR_OVF_CLEAR (R63). -/
  | perrOvfClear
  /-- SOFT_RESET (R43): a PG_CTRL write with SOFT_RESET set; the other fields are taken from v. -/
  | softReset (fn page : Nat) (v : W32)
  /-- CAUSE_CLEAR (R60). -/
  | causeClear (fn page : Nat) (v : W32)
  /-- CAUSE_FORCE (R44). -/
  | causeForce (fn page : Nat) (v : W32)
  /-- PG_FIRST_CLEAR (R44). -/
  | pgFirstClear (fn page : Nat)
  /-- PG_FOLD_CLEAR (R43). -/
  | pgFoldClear (fn page : Nat) (v : W32)
  /-- PAGE_LOCK (R45). -/
  | pageLock (fn page : Nat)
  /-- MSIX_MESSAGE (R58). -/
  | msixMessage (fn : Nat)
  /-- EOI (R58). -/
  | eoi (fn : Nat) (v : W32)
  /-- RING_RECORD_OFFER (R52). -/
  | ringRecordOffer (part r typ : Nat) (handle : W32) (body : BitVec 416)
  /-- RING_ENABLE (R51): through the function's own page or, for the operator, the PART or HIF page. -/
  | ringEnable (fn part r : Nat)
  /-- RING_DISABLE (R51). -/
  | ringDisable (fn part r : Nat)
  /-- RING_CONS_WRITE (R51). -/
  | ringConsWrite (fn part r : Nat) (v : W32)
  /-- CHW_READ (R66). -/
  | chwRead (fn part : Nat)
  /-- CHW_WRITE (R66). -/
  | chwWrite (fn part : Nat)
  /-- ACTIVATE (R66). -/
  | activate (fn part : Nat) (at_ : Bool)
  /-- CHW_RELEASE (R66). -/
  | chwRelease (fn part : Nat) (at_ : Bool)
  /-- MODIFY_AT (R66). -/
  | modifyAt (fn part : Nat)
  /-- CHW_OP_COMPLETE (R68). -/
  | chwOpComplete (part : Nat)
  /-- TB_TICK_INC (R72). -/
  | tbTickInc
  /-- TB_INC_WRITE (R73): the value written. -/
  | tbIncWrite (v : W64)
  /-- TB_STEP_WRITE (R79): the signed step in ns. -/
  | tbStepWrite (s : W64)
  /-- STEP_APPLY (R79). -/
  | stepApply
  /-- REARM (R78): the value written to TB_STEP_ARM. -/
  | rearm (v : W32)
  /-- TB_EXT_NEXT_WRITE (R76). -/
  | tbExtNextWrite (v : W32)
  /-- TB_SRC_WRITE (R98). -/
  | tbSrcWrite (v : W32)
  /-- REFCLK_LOSS (R75). -/
  | refclkLoss
  /-- REFCLK_HOLD_EXPIRY (R75). -/
  | refclkHoldExpiry
  /-- SERVO_MEASUREMENT (R81): offset and mean path delay, signed, in 2⁻¹⁶ ns. -/
  | servoMeasurement (off mpd : W64)
  /-- SOURCE_QUALIFIED (R81). -/
  | sourceQualified
  /-- SOURCE_LOST (R81). -/
  | sourceLost
  /-- INTEGER_SECOND (R92): tj is the die temperature in 0.1 °C (R448). -/
  | integerSecond (tj : Nat)
  /-- PPS_OUT_PULSE_END (R90). -/
  | ppsOutPulseEnd
  /-- PTP_SYNC (R87). -/
  | ptpSync (m : PtpMsg)
  /-- PTP_FOLLOW_UP (R87). -/
  | ptpFollowUp (m : PtpMsg)
  /-- PTP_DELAY_REQ (R87). -/
  | ptpDelayReq (m : PtpMsg)
  /-- PTP_DELAY_RESP (R87). -/
  | ptpDelayResp (m : PtpMsg)
  /-- PTP_PDELAY_REQ (R87). -/
  | ptpPdelayReq (m : PtpMsg)
  /-- PTP_PDELAY_RESP (R87). -/
  | ptpPdelayResp (m : PtpMsg)
  /-- PTP_PDELAY_RESP_FOLLOW_UP (R87). -/
  | ptpPdelayRespFollowUp (m : PtpMsg)
  /-- PTP_ANNOUNCE (R87). -/
  | ptpAnnounce (m : PtpMsg) (a : PtpAnnounce)
  /-- PTP_SIGNALING (R87): the unicast TLV's kind. -/
  | ptpSignaling (m : PtpMsg) (tlv : PtpTlv)
  /-- PTP_MESSAGE_TX (R87): kind is the messageType of IEEE 1588-2019. -/
  | ptpMessageTx (port kind : Nat)
  /-- PPS_IN_EDGE (R91). -/
  | ppsInEdge (stamp : NT32)
  /-- PPS_IN_MISSING (R91). -/
  | ppsInMissing
  /-- ZDA_SENTENCE (R91): the UTC second named and whether the checksum is good. -/
  | zdaSentence (utc : W64) (ok : Bool)
  /-- TOD_ERROR (R91). -/
  | todError
  /-- FRAME_RX (R145): bytes already in the frame's receive queue and in the shared buffer. -/
  | frameRx (f : RxFrame) (held shared : Nat)
  /-- PAUSE_FRAME (R308). -/
  | pauseFrame (port quanta : Nat)
  /-- PFC_FRAME (R308): the priority enable vector and the quanta by priority. -/
  | pfcFrame (port vec : Nat) (quanta : List Nat)
  /-- PAUSE_EXPIRY (R308). -/
  | pauseExpiry (port q : Nat)
  /-- LLDP_RX (R313): the Receive Tw of the EEE TLV, where present. -/
  | lldpRx (port : Nat) (tw : Option Nat)
  /-- LLDP_TX (R313). -/
  | lldpTx
  /-- EEE_NEGOTIATION_EXPIRY (R313). -/
  | eeeNegotiationExpiry (port : Nat)
  /-- FLW_READ (R156). -/
  | flwRead (fn part : Nat)
  /-- FLW_ADD (R156). -/
  | flwAdd (fn part : Nat)
  /-- FLW_REMOVE (R156). -/
  | flwRemove (fn part : Nat)
  /-- FLW_MODIFY (R156). -/
  | flwModify (fn part : Nat)
  /-- KEY_INSTALL (R163). -/
  | keyInstall (fn part : Nat)
  /-- KEY_ERASE (R163). -/
  | keyErase (fn part : Nat)
  /-- BINDING_WRITE (R151). -/
  | bindingWrite (v : W32)
  /-- CLS_SEED_WRITE (R182). -/
  | clsSeedWrite (v : W64)
  /-- JB_CTRL_WRITE (R186). -/
  | jbCtrlWrite (v : W32)
  /-- EGRESS_LAUNCH (R175). -/
  | egressLaunch (port : Nat)
  /-- TX_RING_PROD_WRITE (R311): port 4 is the management port. -/
  | txRingProdWrite (port : Nat) (v : W32)
  /-- TX_DESCRIPTOR_DONE (R311): the descriptor's fields as fetched; lost: the management port discarded the frame, which its collisions decide
  (R321). -/
  | txDescriptorDone (port len queue : Nat) (ts : Bool) (stamp : NT32) (lost : Bool)
  /-- LINK_UP (R319). -/
  | linkUp (port trained : Nat) (fec an : Bool)
  /-- LINK_DOWN (R319). -/
  | linkDown (port : Nat)
  /-- AN_FAIL (R303). -/
  | anFail (port : Nat)
  /-- LPI_ENTER (R314). -/
  | lpiEnter (port : Nat)
  /-- LPI_WAKE (R314). -/
  | lpiWake (port : Nat)
  /-- MGMT_FRAME_RX (R322). -/
  | mgmtFrameRx (f : RxFrame)
  /-- MGMT_COLLISION (R321). -/
  | mgmtCollision (late : Bool)
  /-- MGMT_BACKOFF_EXPIRY (R321). -/
  | mgmtBackoffExpiry
  /-- MDIO_ADDRESS (R322). -/
  | mdioAddress (v : W32)
  /-- MDIO_WRITE (R322). -/
  | mdioWrite (v : W32)
  /-- MDIO_READ (R322). -/
  | mdioRead (v : W32)
  /-- MDIO_DONE (R322). -/
  | mdioDone (data : BitVec 16)
  /-- BMB_CMD (R325). -/
  | bmbCmd (c : Nat) (v : W32)
  /-- BMB_DONE (R325). -/
  | bmbDone (c n : Nat) (nack arb : Bool) (data : List Byte)
  /-- BUS_RECOVERY (R324): SCL pulses clocked and whether SDA came free. -/
  | busRecovery (c pulses : Nat) (free : Bool)
  /-- SCL_STUCK (R324). -/
  | sclStuck (c : Nat)
  /-- MODULE_PRESENCE_CHANGE (R325). -/
  | modulePresenceChange (cage : Nat) (present : Bool)
  /-- MOD_INT (R325). -/
  | modInt (cage : Nat) (asserted : Bool)
  /-- TWIN_LINK_UP (R330). -/
  | twinLinkUp (lanes : Nat)
  /-- TWIN_LINK_DOWN (R330). -/
  | twinLinkDown
  /-- PAIRING (R331). -/
  | pairing (peer : TwinPeer)
  /-- PAIR_RETRY (R331). -/
  | pairRetry (peer : TwinPeer)
  /-- HEARTBEAT_TX (R336). -/
  | heartbeatTx
  /-- HEARTBEAT (R337). -/
  | heartbeat (h : TwinHb)
  /-- HEARTBEAT_MISS (R337). -/
  | heartbeatMiss
  /-- INGRESS (R338). -/
  | ingress (r : IngressRec)
  /-- PAYLOAD_REQ (R338). -/
  | payloadReq (digest : W64)
  /-- PAYLOAD (R338). -/
  | payload (r : IngressRec) (f : RxFrame)
  /-- TWIN_ORPHAN (R181). -/
  | twinOrphan
  /-- HORIZON (R339). -/
  | horizon (t : NT32)
  /-- HORIZON_TIMEOUT (R339). -/
  | horizonTimeout (t : NT32)
  /-- LINE (R336). -/
  | line (handle : W32) (leg : Nat) (samples : List (BitVec 18)) (status : Nat)
  /-- DIGEST (R342). -/
  | digest (handle : W32) (pass : NT32) (d : W32)
  /-- CONTEXT_REQUEST (R342). -/
  | contextRequest (handle : W32)
  /-- CONTEXT (R342): the name of the context's contents, its media state and the legs' state. -/
  | context (handle : W32) (pass : NT32) (ctx : ChanCtx) (legA legB : Leg)
  /-- OP (R336). -/
  | op (o : TwinOp)
  /-- OP_ACK (R71). -/
  | opAck
  /-- STEP (R345). -/
  | step (s : W64) (tick : NT32)
  /-- STEP_ACK (R345). -/
  | stepAck
  /-- BULK (R351). -/
  | bulk (b : BulkItem)
  /-- BULK_COMPLETE (R335). -/
  | bulkComplete
  /-- FENCE_ASSERT (R334). -/
  | fenceAssert
  /-- FENCE_RELEASE (R334). -/
  | fenceRelease
  /-- PEER_ACT_FALL (R346). -/
  | peerActFall
  /-- PEER_ACT_RISE (R347). -/
  | peerActRise
  /-- FENCE_CONFLICT (R347). -/
  | fenceConflict
  /-- SWITCHOVER (R350). -/
  | switchover
  /-- SWITCHOVER_BOUNDARY (R350). -/
  | switchoverBoundary
  /-- DETACH (R351). -/
  | detach
  /-- ATTACH (R351). -/
  | attach
  /-- SPOOL_DRAIN (R366). -/
  | spoolDrain (p : Nat)
  /-- SPOOL_DISCARD (R367). -/
  | spoolDiscard
  /-- FLASH_READ (R382). -/
  | flashRead
  /-- FLASH_WRITE (R382): a name for the host bytes the DMA read finds. -/
  | flashWrite (data : Nat)
  /-- FLASH_ERASE (R382). -/
  | flashErase
  /-- CAL_STORE (R375). -/
  | calStore (data : Nat)
  /-- FORMAT (R371). -/
  | format
  /-- XF_DONE (R382): 0, 3 DMA_ERROR, 4 MEDIA. -/
  | xfDone (err : Nat)
  /-- FLASH_PATROL (R373): corrected bits of the worst codeword read and the age of the block. -/
  | flashPatrol (bits days : Nat)
  /-- GROWN_BAD (R372). -/
  | grownBad
  /-- WEAR_LEVEL (R372): the spread of erase counts, the share of rated cycles used and the days remaining. -/
  | wearLevel (spread percent days : Nat)
  /-- RING_ON (R394). -/
  | ringOn (n : Nat)
  /-- RING_OFF (R394). -/
  | ringOff (n : Nat)
  /-- RING_STOP (R394). -/
  | ringStop (n : Nat)
  /-- SUPERVISION_SAMPLE (R395, R396): sinc outputs, tip and ring voltage Q1.17 and loop current in 0.01 mA, signed, and the coarse currents of
  the millisecond that ends, each with the range in force when it was taken. -/
  | supervisionSample (n : Nat) (tip ring : BitVec 18) (cur : BitVec 16) (coarse : List (Nat × BitVec 8))
  /-- RANGE_CHANGE (R388): the coarse samples, Q1.7, and for how many µs the current has stayed below 20 %. -/
  | rangeChange (n : Nat) (cur vt vr : BitVec 8) (run : Nat)
  /-- LINE_BLANK_CHANGE (R391). -/
  | lineBlankChange (high : Bool)
  /-- SETTLE_END (R392). -/
  | settleEnd (n : Nat)
  /-- RESET_NEXT (R393). -/
  | resetNext
  /-- RESET_AT (R393). -/
  | resetAt
  /-- SYNC_CLU (R393). -/
  | syncClu
  /-- DECIMATOR_RESET (R393). -/
  | decimatorReset
  /-- LINE_OPERAND_WRITE (R400): the samples of the pass, oldest first, and how many saturated. -/
  | lineOperandWrite (n : Nat) (samples : List (BitVec 18)) (sats : Nat)
  /-- LINE_BIND (R399). -/
  | lineBind (n : Nat) (v : W32)
  /-- LINE_MODE_WRITE (R397): a write of LFE_LN_CFG. -/
  | lineModeWrite (n : Nat) (v : W32)
  /-- SCE_RUN (R407). -/
  | sceRun
  /-- SCE_HALT (R407). -/
  | sceHalt
  /-- SCE_TXQ_PUSH (R405). -/
  | sceTxqPush (v : W32)
  /-- SCE_RXQ_POP (R405). -/
  | sceRxqPop
  /-- SCE_PM_WRITE (R407). -/
  | scePmWrite (v : W32)
  /-- SCE_NOP (R405). -/
  | sceNop
  /-- SCE_POP (R405). -/
  | scePop
  /-- SCE_LDI (R405). -/
  | sceLdi
  /-- SCE_SHIFT (R405): the bits the driver returns on SDI. -/
  | sceShift (sdi : W32)
  /-- SCE_PUSH (R405). -/
  | scePush
  /-- SCE_GAP (R405). -/
  | sceGap
  /-- SCE_JMP (R405). -/
  | sceJmp
  /-- SCE_JQE (R405). -/
  | sceJqe
  /-- SCE_HALT_INSTR (R405). -/
  | sceHaltInstr
  /-- DRV_READY_LOW (R406): bits of the word already shifted. -/
  | drvReadyLow (bits : Nat)
  /-- DRV_READY_RISE (R406). -/
  | drvReadyRise (sdi : W32)
  /-- STALL_TIMEOUT (R406). -/
  | stallTimeout
  /-- CLUSTER_SYNC_PULSE (R416). -/
  | clusterSyncPulse (stamp : NT32) (frac : BitVec 4)
  /-- PULSE_MISS (R416). -/
  | pulseMiss
  /-- SYNC (R415). -/
  | sync (nt : W64) (servo cls : Nat) (trace : Bool) (seq : BitVec 16)
  /-- POLL (R415). -/
  | poll (w : Nat)
  /-- STATUS (R415). -/
  | status (w servo role : Nat) (offset : BitVec 16) (fault : Bool)
  /-- CLU_STEP (R418). -/
  | cluStep (s : W64) (q : NT32)
  /-- CLU_MESSAGE_TX (R415). -/
  | cluMessageTx
  /-- HELLO_TX (R421). -/
  | helloTx
  /-- HELLO (R421). -/
  | hello (port addr : Nat) (id : W64)
  /-- NEIGHBOUR_LOSS (R421). -/
  | neighbourLoss (port addr : Nat)
  /-- ROUTE_TX (R422). -/
  | routeTx
  /-- ROUTE (R422): destination and metric pairs of the frame. -/
  | route (port src : Nat) (entries : List (Nat × Nat))
  /-- ROUTE_EXPIRY (R422). -/
  | routeExpiry (dst : Nat)
  /-- TRUNK (R426). -/
  | trunk (port : Nat) (stamp : NT32) (t : TrunkFrame)
  /-- TRUNK_BIND (R423). -/
  | trunkBind (v : W32)
  /-- PARTITION_OPEN (R283). -/
  | partitionOpen (p : Nat) (v : W32)
  /-- PARTITION_CLOSE (R283). -/
  | partitionClose (p : Nat) (v : W32)
  /-- QUOTA_WRITE (R285). -/
  | quotaWrite (p off : Nat) (v : W32)
  /-- EGRESS_WINDOW_WRITE (R286). -/
  | egressWindowWrite (p port : Nat) (v : W32)
  /-- PRG_LOAD (R295). -/
  | prgLoad (fn part : Nat)
  /-- PRG_LOAD_COMPLETE (R295): the image words read, whether PRG_CRC matches and the reads succeeded. -/
  | prgLoadComplete (part id : Nat) (image : List Word) (crcOk dmaOk : Bool)
  /-- PRG_UNLOAD (R295). -/
  | prgUnload (fn part : Nat)
  /-- PRG_QUERY (R295). -/
  | prgQuery (fn part : Nat)
  /-- IMAGE_RESTORE (R297): ue: the byte address of an uncorrectable transfer of the DRAM copy, where one was read. -/
  | imageRestore (part id : Nat) (ue : Option W64)
  /-- POR (R435). -/
  | por (straps : BitVec 3)
  /-- WARM_RESET (R435). -/
  | warmReset (straps : BitVec 3)
  /-- PERST_ASSERT (R435). -/
  | perstAssert
  /-- PERST_DEASSERT (R435). -/
  | perstDeassert
  /-- PF_READY (R435). -/
  | pfReady
  /-- BOOT (R438): one step of R438. -/
  | boot (b : BootIn)
  /-- RECOVERY_GO (R440): the value written to PWR_RECOV_CTRL and the image in the Basin. -/
  | recoveryGo (v : W32) (img : BootImage)
  /-- ROLLBACK_COMMIT (R441). -/
  | rollbackCommit (v : W32)
  /-- PWR_SERVICE (R449). -/
  | pwrService
  /-- PWR_DORMANT (R444). -/
  | pwrDormant
  /-- PWR_WAKE (R444): the wake patterns matched; 0 for PWR_CMD WAKE. -/
  | pwrWake (pat : BitVec 8)
  /-- PWR_RESET (R435). -/
  | pwrReset
  /-- RELEASE_MEM (R437). -/
  | releaseMem
  /-- POWER_FAIL (R446). -/
  | powerFail
  /-- FLUSH_COMPLETE (R376). -/
  | flushComplete
  /-- DEBUG_SUBMIT (R447): the value written to PWR_DBG_CTRL and whether the response verifies. -/
  | debugSubmit (v : W32) (valid : Bool)
  /-- AGING_READ (R448). -/
  | agingRead (percent : Nat)
  /-- INTERRUPT_ENTRY (R243). -/
  | interruptEntry (core : IrqAt)
  /-- BUDGET_ABORT (R254). -/
  | budgetAbort (core : Nat)
  /-- DMA_COMPLETE (R278). -/
  | dmaComplete (core : Nat)
  /-- NOP (R273). -/
  | nop (core : Nat)
  /-- ADD (R273). -/
  | add (core : Nat)
  /-- SUB (R273). -/
  | sub (core : Nat)
  /-- CMP (R273). -/
  | cmp (core : Nat)
  /-- AND (R273). -/
  | andI (core : Nat)
  /-- OR (R273). -/
  | orI (core : Nat)
  /-- XOR (R273). -/
  | xor (core : Nat)
  /-- NOT (R273). -/
  | notI (core : Nat)
  /-- NEG (R273). -/
  | neg (core : Nat)
  /-- ABS (R273). -/
  | abs (core : Nat)
  /-- MIN (R273). -/
  | min (core : Nat)
  /-- MAX (R273). -/
  | max (core : Nat)
  /-- ASH (R273). -/
  | ash (core : Nat)
  /-- LSH (R273). -/
  | lsh (core : Nat)
  /-- DIV (R273). -/
  | div (core : Nat)
  /-- MOV (R273). -/
  | mov (core : Nat)
  /-- MVA (R273). -/
  | mva (core : Nat)
  /-- ACRD (R273). -/
  | acrd (core : Nat)
  /-- ACWR (R273). -/
  | acwr (core : Nat)
  /-- ACSET (R273). -/
  | acset (core : Nat)
  /-- ACCLR (R273). -/
  | acclr (core : Nat)
  /-- ACSH (R273). -/
  | acsh (core : Nat)
  /-- ACRND (R273). -/
  | acrnd (core : Nat)
  /-- MPYL (R273). -/
  | mpyl (core : Nat)
  /-- FLD (R273). -/
  | fld (core : Nat)
  /-- FST (R273). -/
  | fst (core : Nat)
  /-- LDI (R274). -/
  | ldi (core : Nat)
  /-- LDIH (R274). -/
  | ldih (core : Nat)
  /-- ADDI (R274). -/
  | addi (core : Nat)
  /-- SUBI (R274). -/
  | subi (core : Nat)
  /-- CMPI (R274). -/
  | cmpi (core : Nat)
  /-- ANDI (R274). -/
  | andi (core : Nat)
  /-- ORI (R274). -/
  | ori (core : Nat)
  /-- XORI (R274). -/
  | xori (core : Nat)
  /-- ASHI (R274). -/
  | ashi (core : Nat)
  /-- LSHI (R274). -/
  | lshi (core : Nat)
  /-- LD (R275). -/
  | ld (core : Nat)
  /-- ST (R275). -/
  | st (core : Nat)
  /-- LDH (R275). -/
  | ldh (core : Nat)
  /-- STH (R275). -/
  | sth (core : Nat)
  /-- LDD (R275). -/
  | ldd (core : Nat)
  /-- STD (R275). -/
  | std (core : Nat)
  /-- STA (R275). -/
  | sta (core : Nat)
  /-- CMAC (R276). -/
  | cmac (core : Nat)
  /-- CMACJ (R276). -/
  | cmacj (core : Nat)
  /-- DMAC (R276). -/
  | dmac (core : Nat)
  /-- PMOV (R276). -/
  | pmov (core : Nat)
  /-- BR (R277). -/
  | br (core : Nat)
  /-- BRI (R277). -/
  | bri (core : Nat)
  /-- CALL (R277). -/
  | call (core : Nat)
  /-- CALLI (R277). -/
  | calli (core : Nat)
  /-- RETI (R277). -/
  | reti (core : Nat)
  /-- CALLU (R252). -/
  | callu (core : Nat)
  /-- RETU (R254). -/
  | retu (core : Nat)
  /-- LOOP (R241). -/
  | loop (core : Nat)
  /-- LOOPR (R241). -/
  | loopr (core : Nat)
  /-- RPT (R240). -/
  | rpt (core : Nat)
  /-- RPTR (R240). -/
  | rptr (core : Nat)
  /-- DONE (R278). -/
  | done (core : Nat)
  /-- WAIT (R278). -/
  | wait (core : Nat)
  /-- MBOX (R278). -/
  | mbox (core : Nat)
  /-- STRM (R278). -/
  | strm (core : Nat)
  /-- DMA (R278). -/
  | dma (core : Nat)
  /-- TARN_SCRUB (R250): corrected words of the interval by memory. -/
  | tarnScrub (core dm cs pm : Nat)
  /-- UNIT_FAILURE (R445). -/
  | unitFailure (page : Nat)
  /-- CONTROL_CORE_RESTART (R257). -/
  | controlCoreRestart (core : Nat)
  /-- PCIE_LINK_DOWN (R366). -/
  | pcieLinkDown
  /-- PCIE_LINK_UP (R366). -/
  | pcieLinkUp (speed width : Nat)
  /-- CONFIG_WRITE (R37): a Type 0 configuration write to the PF. -/
  | configWrite (busDev : BitVec 16) (item : ConfigItem)
  /-- READ_LOW_HALF (R46). -/
  | readLowHalf (fn off : Nat)
  /-- CHALLENGE_READ (R447). -/
  | challengeRead
  /-- LATE_MAX_READ (R187). -/
  | lateMaxRead
  /-- MGMT_LINK_CHANGE (R322). -/
  | mgmtLinkChange (up : Bool) (speed : Nat) (half : Bool)
  /-- LANE_FALLBACK (R330). -/
  | laneFallback (lanes : Nat)
  /-- LINK_FRAME_ERROR (R330). -/
  | linkFrameError
  /-- CLU_MESSAGE_ERROR (R415). -/
  | cluMessageError
  /-- SPOOL_COMMIT (R374). -/
  | spoolCommit
  /-- BLANK_GUARD_END (R391). -/
  | blankGuardEnd (n : Nat)
  deriving DecidableEq, Repr

end Sys2Proof
end

