-- ==== Sys2Proof/Decode.lean ====
section
/-! DEFINITION. The command a word of the opcode table spells. No row of spec/opcode_table.json gives bits: a command is a host
access, a frame, a pin, a message or an internal event, and no word of the table spells it. (The instruction words of the Tarn
cores and of the Serial Control Engine are decoded where they are fetched, in Machine/TarnDecode.lean and Machine/Sce.lean.) -/
namespace Sys2Proof

/-- The command a word spells by the table's bits: none, as the table gives its rows no bits. -/
def decodeTableWord (nbits w : Nat) : Option Instr :=
  match nbits, w with
  | _, _ => none

end Sys2Proof
end

