-- ==== Sys2Proof/Config.lean ====
section
/-! DEFINITION. The values the spec leaves open, as constants without a body (log entry 3): nothing in Lean can evaluate
them or prove a value of them, so whatever is proved holds for every value they may have.

A function of operands is a value that depends on those operands alone (R30: a job's outputs depend only on its context,
operands, configuration, program images and the NT32 of its pass); a function of a plain number is a fresh value each
time, applied to the counter `fresh` of the device state. -/
namespace Sys2Proof.Config

/-- A fresh free value. -/
opaque freeNat : Nat → Nat

/-- An audio sample in Q1.17 (R11). -/
abbrev Sample := BitVec 18

/-- Word `i` of the context a name stands for: the context layout is the firmware's (R120). -/
opaque ctxWord (ctx i : Nat) : BitVec 36
/-- The name of a context after its word `i` is overwritten from outside its jobs. -/
opaque ctxPoke (ctx i : Nat) (w : BitVec 36) : Nat
/-- The output of a line's interpolator some nanoseconds after the release of the last samples it was given (R400). -/
opaque lineVoice (x : List Sample) (ns : Nat) : Sample
/-- The name of the context after a job (R28, R30): from the context before, the configuration, the legs' inputs, what leaves toward them
and the pass time. -/
opaque ctxNext (ctx : Nat) (cfg : List (BitVec 32)) (a b ya yb : List Sample) (nt : BitVec 32) : Nat
/-- Decoded samples of an operand: codec word, context, payload bytes, pass time (R191 step 1). -/
opaque decode (codec ctx : Nat) (payload : List (BitVec 8)) (nt : BitVec 32) (n : Nat) : List Sample
/-- Concealed samples of a lost operand (R109, R209). -/
opaque conceal (codec ctx : Nat) (nt : BitVec 32) (n : Nat) : List Sample
/-- A leg's input brought to RATE, `n` samples a pass (R191 step 2). -/
opaque convert (ctx leg n : Nat) (x : List Sample) : List Sample
/-- The codewords of one pass of a leg's output, or of a frame codec its share of the frame's work (R191 step 15, R209). -/
opaque encode (codec ctx : Nat) (x : List Sample) : List (BitVec 8)
/-- Bit `i` of the coded speech of a frame, from the shares of its passes (R198). -/
opaque speechBit (codec : Nat) (frame : List (BitVec 8)) (i : Nat) : Bool
/-- What VAD and DTX make of a frame: 0 speech, 1 a comfort noise or SID frame, 2 nothing to send (R174, R195). -/
opaque vadKind (codec : Nat) (frame : List (BitVec 8)) : Nat
/-- Which of the encodings that RFC 6716 gives a bandwidth and a frame length the Opus encoder uses (R198). -/
opaque opusSilk (bandwidth ms : Nat) : Bool
/-- Is a received Opus payload valid (R211, RFC 6716)? -/
opaque payloadValid (codec : Nat) (payload : List (BitVec 8)) : Bool
/-- Is a gain's product, which lies between two samples, taken upward (R215: the rounding is not stated)? -/
opaque gainUp (g : Int) (x : Sample) : Bool
/-- The near-end signal after the echo estimate of a canceller is taken away: coefficients by name with the taps that count, far-end
history, tail (R199). -/
opaque echoCancel (coef valid hist tail : Nat) (x : List Sample) : List Sample
/-- The coefficients after one pass of adaptation, which halts in the bands in double talk (R199). -/
opaque adapt (coef valid hist tail thresh : Nat) (x y : List Sample) : Nat
/-- The far-end history after the signal toward EC_SIDE of a pass (R199). -/
opaque farHistory (hist : Nat) (y : List Sample) : Nat
/-- Is there double talk in a pass (R199, R215)? -/
opaque doubleTalk (coef hist thresh : Nat) (x : List Sample) : Bool
/-- Does the residual echo of a pass lie below the near-end speech threshold (R199)? -/
opaque residual (ctx hist : Nat) (x y : List Sample) : Bool
/-- Comfort noise tracking the near-end background (R199). -/
opaque comfortNoise (ctx n : Nat) : List Sample
/-- Does a pass of a leg hold speech (R215)? -/
opaque speech (ctx leg : Nat) (x : List Sample) : Bool
/-- The noise estimate after a pass without speech (R215). -/
opaque noiseNext (noise : Nat) (x : List Sample) : Nat
/-- The suppression each band of the noise suppressor asks for, in dB (R215). -/
opaque nsWant (noise : Nat) (x : List Sample) : List Nat
/-- A signal with its bands attenuated by so many dB (R215). -/
opaque bandGain (att : List Nat) (x : List Sample) : List Sample
/-- The change of gain the AGC asks for to bring the speech level to its target, in 10⁻³ dB (R215). -/
opaque agcWant (gain : Int) (target : Nat) (x : List Sample) : Int
/-- A sample after the AGC's gain in 10⁻³ dB (R215). -/
opaque agcScale (g : Int) (x : Sample) : Sample
/-- Sample `i` of a tone from phase 0: frequencies, level in −dBm0 each, samples a pass (R206). -/
opaque toneSample (f1 f2 level n i : Nat) : Sample
/-- How many samples after the end of pass `played` both frequencies next have zero phase (R206). -/
opaque zeroSample (f1 f2 n played : Nat) : Nat
/-- The tones measured on a leg in a pass: frequency in 0.1 Hz and level in 0.1 dBm0 (R202 to R204). -/
opaque spectrum (ctx leg n : Nat) (x : List Sample) : List (Nat × Int)
/-- Is the signal modulated in amplitude at 15 Hz, and does its phase reverse in the pass (R204)? -/
opaque am15 (ctx leg : Nat) (x : List Sample) : Bool
/-- A phase reversal. -/
opaque reversal (ctx leg : Nat) (x : List Sample) : Bool
/-- Does an octet of the V.21 channel 2 end in the pass, and is it a flag (R204)? -/
opaque v21Octet (ctx leg : Nat) (x : List Sample) : Option Bool
/-- What a detector decides between the limits the spec gives: which limit, and the quantities. -/
opaque toneChoice (q : List Int) : Bool
/-- How a tenant program ends: 0 by RETU, 1 budget, 2 illegal instruction, 3 window (R219); its image, the tenant data, the signals of both
legs, NT32, flags, samples a pass, BUDGET. -/
opaque tenantEnd (image data : List (BitVec 36)) (a b : List Sample) (nt : BitVec 32) (flags n budget : Nat) : Nat
/-- The signal words of leg `leg` after a run that ends by RETU (R218). -/
opaque tenantSignal (leg : Nat) (image data : List (BitVec 36)) (a b : List Sample) (nt : BitVec 32) (flags n : Nat) : List Sample
/-- Word `i` of the tenant data after such a run (R218). -/
opaque tenantWord (i : Nat) (image data : List (BitVec 36)) (a b : List Sample) (nt : BitVec 32) (flags n : Nat) : BitVec 36
/-- The session keystream of SRTP or SRTCP (RFC 3711, RFC 7714): suite, master key and salt, SSRC and packet index; `n` bytes (R159). -/
opaque keyStream (suite : Nat) (key salt : List (BitVec 32)) (rtcp : Bool) (ssrc : BitVec 32) (index n : Nat) : List (BitVec 8)
/-- The authentication tag of a protected packet (RFC 3711, RFC 7714): over its header and protected payload, under the session key of the
suite, master key and salt (R159). -/
opaque authTag (suite : Nat) (key salt : List (BitVec 32)) (rtcp : Bool) (ssrc : BitVec 32) (index : Nat) (head body : List (BitVec 8)) :
    List (BitVec 8)
/-- The comfort noise payload of a frame that VAD and DTX send in place of speech (R195, R198). -/
opaque noisePayload (codec : Nat) (frame : List (BitVec 8)) : List (BitVec 8)
/-- The two hash buckets of a key under the seed (R152). -/
opaque hash (seed : BitVec 64) (which : Nat) (key : List Nat) : BitVec 12
/-- A cyclic redundancy code or digest whose computation the spec leaves to a named standard. -/
opaque crc (kind : Nat) (bytes : List (BitVec 8)) : BitVec 32
/-- The digest of a channel's pass (R342): a CRC-32C of the released entry, the committed context and the state of the legs, whose
layout the spec does not state. -/
opaque stateDigest (ctx : Nat) (x : List Sample) (state : List Nat) : BitVec 32
/-- The servo's correction after a measurement, in TB_INC units beyond its frequency estimate (R80, R81). -/
opaque servo (n : Nat) (offset : Int) : Int
/-- The servo's frequency estimate after a measurement, in TB_INC units from nominal (R80). -/
opaque freqEstimate (n : Nat) (offset : Int) : Int
/-- Word `word` of the `n`-th debug challenge (R447). -/
opaque challenge (n word : Nat) : BitVec 32
/-- The predictor (0 to 3, 4 for LPC), Rice parameter, LPC shift and coefficients the Recorder chooses for a unit: a
deterministic function of its samples alone that the spec does not state (R363). -/
opaque nougatChoice (samples : List (BitVec 16)) : Nat × Nat × Nat × List Int
/-- Has the `n`-th spooled unit read at a drain a codeword that is uncorrectable (R370; log entry 211)? -/
opaque codewordLost (n : Nat) : Bool
/-- The control core, of four, that takes the message a media core posts at an instant (R278; log entry 206). -/
opaque mailCore (core : Nat) (at_ : Nat) : Nat
/-- Has the `n`-th instruction a core fetched from its repeat cache a parity error (R225; log entry 207)? -/
opaque cacheParity (core n : Nat) : Bool
/-- Length in bytes with FCS of a ROUTE frame of `n` destinations, whose entries the spec does not lay out (R422; log entry 209). -/
opaque routeOctets (n : Nat) : Nat
/-- How many operands of dispatched jobs the queue region of the Basin retains (R122: its capacity is not stated). -/
opaque retainedCap : Nat
/-- Which item a DRAM transfer belongs to, of those whose place in the DRAM the spec does not state (R122, R124). -/
opaque dramHolds : Nat → Nat
/-- Which item a word of a Basin region of unstated layout belongs to: the prefetch region's operands, the queues' entries
(R33, R119 give the regions, not what lies where in them). -/
opaque basinHolds : Nat → Nat

end Sys2Proof.Config
end

