-- ==== Sys2Proof/Machine/Regs.lean ====
section
/-! DEFINITION. The register pages as the spec lays them out: for every register its offset, width, access code, reset
value and implemented bits (rules R16 to R18, R43, R47 to R51 and the register tables of every chapter).

A register's key is its page number times 0x1000 plus its offset. PF pages keep their BAR0 page number; page `k` of the
virtual function of partition `p` is page `0x1000 + 16 * p + k`. The names below are the spec's: a register of a page
that exists once is named by its key, a register of a page that exists several times by its offset in the page. -/
namespace Sys2Proof.Machine

/-- The access codes of R17. -/
inductive Acc where
  | rw | ro | w1c | w1s | wo | rwl
  deriving DecidableEq, Repr

/-- One row of an offset table (R16): `count` registers from `off` on, `stride` bytes apart; `mask` holds the bits that
are not reserved; `cnt` marks a counter or snapshot that PG_CTRL.FREEZE holds (R43). -/
structure RegRow where
  off : Nat
  count : Nat
  stride : Nat
  width : Nat
  acc : Acc
  reset : Nat
  mask : Nat
  cnt : Bool
  deriving DecidableEq, Repr

/-- Does the row hold a register at offset `o`? -/
def RegRow.has (r : RegRow) (o : Nat) : Bool :=
  decide (r.off ≤ o) && decide (o < r.off + r.count * r.stride) && decide ((o - r.off) % r.stride = 0)

/- hif (R49, R51). -/
/-- Key of HIF_FUSE_CAP (R49). -/
def rHIF_FUSE_CAP : Nat := 0x40
/-- Key of HIF_LINK (R49). -/
def rHIF_LINK : Nat := 0x44
/-- Key of HIF_DRAM_WIN (R49). -/
def rHIF_DRAM_WIN : Nat := 0x48
/-- Key of HIF_IRQN_CTRL (R49). -/
def rHIF_IRQN_CTRL : Nat := 0x4C
/-- Key of HIF_PERR_LEVEL (R49). -/
def rHIF_PERR_LEVEL : Nat := 0x50
/-- Key of HIF_PERR_POP (R49). -/
def rHIF_PERR_POP : Nat := 0x54
/-- Key of HIF_PERR_RID (R49). -/
def rHIF_PERR_RID : Nat := 0x58
/-- Key of HIF_PERR_INFO (R49). -/
def rHIF_PERR_INFO : Nat := 0x5C
/-- Key of HIF_PERR_ADDR (R49). -/
def rHIF_PERR_ADDR : Nat := 0x60
/-- Key of HIF_PERR_TIME (R49). -/
def rHIF_PERR_TIME : Nat := 0x68
/-- Key of HIF_RING_BASE (R49). -/
def rHIF_RING_BASE : Nat := 0x100
/-- Key of HIF_RING_SIZE_LOG2 (R49). -/
def rHIF_RING_SIZE_LOG2 : Nat := 0x108
/-- Key of HIF_RING_CTRL (R49). -/
def rHIF_RING_CTRL : Nat := 0x10C
/-- Key of HIF_RING_PROD (R49). -/
def rHIF_RING_PROD : Nat := 0x110
/-- Key of HIF_RING_CONS (R49). -/
def rHIF_RING_CONS : Nat := 0x114
/-- Key of HIF_RING_DROP (R49). -/
def rHIF_RING_DROP : Nat := 0x118
/-- Key of HIF_RING_DATA_BASE1 (R49). -/
def rHIF_RING_DATA_BASE1 : Nat := 0x160
/-- Key of HIF_RING_DATA_BASE2 (R49). -/
def rHIF_RING_DATA_BASE2 : Nat := 0x1A0
/-- The registers of this page (R49, R51). -/
def rows_hif : List RegRow := [
  ⟨0x40, 1, 4, 32, .ro, 0x0, 0xF7, false⟩,
  ⟨0x44, 1, 4, 32, .ro, 0x0, 0x1FF, false⟩,
  ⟨0x48, 1, 4, 32, .rwl, 0x0, 0x1F, false⟩,
  ⟨0x4C, 1, 4, 32, .rwl, 0x0, 0x1, false⟩,
  ⟨0x50, 1, 4, 32, .ro, 0x0, 0xFFFF000F, true⟩,
  ⟨0x54, 1, 4, 32, .wo, 0x0, 0x3, false⟩,
  ⟨0x58, 1, 4, 32, .ro, 0x0, 0xFFFF, false⟩,
  ⟨0x5C, 1, 4, 32, .ro, 0x0, 0xFF0000FF, false⟩,
  ⟨0x60, 1, 4, 64, .ro, 0x0, 0xFFFFFFFFFFFFFFFF, false⟩,
  ⟨0x68, 1, 4, 32, .ro, 0x0, 0xFFFFFFFF, false⟩,
  ⟨0x100, 4, 64, 64, .rw, 0x0, 0xFFFFFFFFFFFFF000, false⟩,
  ⟨0x108, 4, 64, 32, .rw, 0x0, 0xF, false⟩,
  ⟨0x10C, 4, 64, 32, .rw, 0x0, 0x1, false⟩,
  ⟨0x110, 4, 64, 32, .ro, 0x0, 0xFFFFFFFF, false⟩,
  ⟨0x114, 4, 64, 32, .rw, 0x0, 0xFFFFFFFF, false⟩,
  ⟨0x118, 4, 64, 32, .ro, 0x0, 0xFFFFFFFF, true⟩,
  ⟨0x160, 1, 4, 64, .rw, 0x0, 0xFFFFFFFFFFFFF000, false⟩,
  ⟨0x1A0, 1, 4, 64, .rw, 0x0, 0xFFFFFFFFFFFFF000, false⟩]

/- chw (R65). -/
/-- Offset of CHW_SEL (R65). -/
def oCHW_SEL : Nat := 0x40
/-- Offset of CHW_OP (R65). -/
def oCHW_OP : Nat := 0x44
/-- Offset of CHW_AT (R65). -/
def oCHW_AT : Nat := 0x48
/-- Offset of CHW_STATUS (R65). -/
def oCHW_STATUS : Nat := 0x4C
/-- Offset of CHW_STALE (R65). -/
def oCHW_STALE : Nat := 0x50
/-- Offset of CHW_PEND_AT (R65). -/
def oCHW_PEND_AT : Nat := 0x54
/-- Offset of CHW_NEXT_P (R65). -/
def oCHW_NEXT_P : Nat := 0x58
/-- Offset of CHW_DESC (R65). -/
def oCHW_DESC : Nat := 0x100
/-- The registers of this page (R65). -/
def rows_chw : List RegRow := [
  ⟨0x40, 1, 4, 32, .rw, 0x0, 0xFFFFFFFF, false⟩,
  ⟨0x44, 1, 4, 32, .wo, 0x0, 0x107, false⟩,
  ⟨0x48, 1, 4, 32, .rw, 0x0, 0xFFFFFFFF, false⟩,
  ⟨0x4C, 1, 4, 32, .ro, 0x0, 0xE0000FFF, false⟩,
  ⟨0x50, 1, 4, 32, .ro, 0x0, 0xFFFFFFFF, true⟩,
  ⟨0x54, 1, 4, 32, .ro, 0x0, 0xFFFFFFFF, false⟩,
  ⟨0x58, 1, 4, 32, .ro, 0x0, 0xFFFFFFFF, false⟩,
  ⟨0x100, 64, 4, 32, .rw, 0x0, 0xFFFFFFFF, false⟩]

/- tb0 (R96). -/
/-- Key of TB_NT32 (R96). -/
def rTB_NT32 : Nat := 0x10040
/-- Key of TB_NT64 (R96). -/
def rTB_NT64 : Nat := 0x10048
/-- Key of TB_INC (R96). -/
def rTB_INC : Nat := 0x10050
/-- Key of TB_STEP (R96). -/
def rTB_STEP : Nat := 0x10058
/-- Key of TB_STEP_ARM (R96). -/
def rTB_STEP_ARM : Nat := 0x10060
/-- Key of TB_EXT_HI (R96). -/
def rTB_EXT_HI : Nat := 0x10064
/-- Key of TB_EXT_NEXT (R96). -/
def rTB_EXT_NEXT : Nat := 0x10068
/-- Key of TB_MEDIA_REBASE (R96). -/
def rTB_MEDIA_REBASE : Nat := 0x1006C
/-- Key of TB_LAST_STEP_AT (R96). -/
def rTB_LAST_STEP_AT : Nat := 0x10070
/-- Key of TB_STEP_MAX_ACTIVE (R96). -/
def rTB_STEP_MAX_ACTIVE : Nat := 0x10074
/-- The registers of this page (R96). -/
def rows_tb0 : List RegRow := [
  ⟨0x40, 1, 4, 32, .ro, 0x0, 0xFFFFFFFF, false⟩,
  ⟨0x48, 1, 4, 64, .ro, 0x0, 0xFFFFFFFFFFFFFFFF, false⟩,
  ⟨0x50, 1, 4, 64, .rw, 0x140000000, 0xFFFFFFFFFF, false⟩,
  ⟨0x58, 1, 4, 64, .wo, 0x0, 0xFFFFFFFFFFFFFFFF, false⟩,
  ⟨0x60, 1, 4, 32, .rw, 0x80000000, 0x800000FF, false⟩,
  ⟨0x64, 1, 4, 32, .ro, 0x0, 0xFFFFFFFF, false⟩,
  ⟨0x68, 1, 4, 32, .rw, 0x1, 0xFFFFFFFF, false⟩,
  ⟨0x6C, 1, 4, 32, .ro, 0x0, 0xFFFFFFFF, true⟩,
  ⟨0x70, 1, 4, 32, .ro, 0x0, 0xFFFFFFFF, false⟩,
  ⟨0x74, 1, 4, 32, .rwl, 0x3B9ACA00, 0xFFFFFFFF, false⟩]

/- tb1 (R98). -/
/-- Key of TB_SRC (R98). -/
def rTB_SRC : Nat := 0x11040
/-- Key of TB_SERVO (R98). -/
def rTB_SERVO : Nat := 0x11044
/-- Key of TB_JUMP_LIMIT (R98). -/
def rTB_JUMP_LIMIT : Nat := 0x11048
/-- Key of TB_LOCK_LIMIT (R98). -/
def rTB_LOCK_LIMIT : Nat := 0x1104C
/-- Key of TB_SLEW_MAX (R98). -/
def rTB_SLEW_MAX : Nat := 0x11050
/-- Key of TB_OFFSET (R98). -/
def rTB_OFFSET : Nat := 0x11054
/-- Key of TB_MPD (R98). -/
def rTB_MPD : Nat := 0x11058
/-- Key of TB_HOLD_SEC (R98). -/
def rTB_HOLD_SEC : Nat := 0x1105C
/-- Key of TB_GM_ID (R98). -/
def rTB_GM_ID : Nat := 0x11060
/-- Key of TB_UTC_OFFSET (R98). -/
def rTB_UTC_OFFSET : Nat := 0x11068
/-- Key of TB_FREQ_PPB (R98). -/
def rTB_FREQ_PPB : Nat := 0x1106C
/-- Key of TB_HOLD_SPEC (R98). -/
def rTB_HOLD_SPEC : Nat := 0x11070
/-- Key of TB_PTP_DROP (R98). -/
def rTB_PTP_DROP : Nat := 0x11074
/-- The registers of this page (R98). -/
def rows_tb1 : List RegRow := [
  ⟨0x40, 1, 4, 32, .rw, 0x1, 0x7, false⟩,
  ⟨0x44, 1, 4, 32, .ro, 0xF800, 0xFFFFFF0F, false⟩,
  ⟨0x48, 1, 4, 32, .rwl, 0x3E8, 0xFFFFFFFF, false⟩,
  ⟨0x4C, 1, 4, 32, .rwl, 0x64, 0xFFFFFFFF, false⟩,
  ⟨0x50, 1, 4, 32, .rwl, 0xC350, 0xFFFFFFFF, false⟩,
  ⟨0x54, 1, 4, 32, .ro, 0x0, 0xFFFFFFFF, false⟩,
  ⟨0x58, 1, 4, 32, .ro, 0x0, 0xFFFFFFFF, false⟩,
  ⟨0x5C, 1, 4, 32, .ro, 0x0, 0xFFFFFFFF, true⟩,
  ⟨0x60, 1, 4, 64, .ro, 0x0, 0xFFFFFFFFFFFFFFFF, false⟩,
  ⟨0x68, 1, 4, 32, .rw, 0x25, 0xFFFFFFFF, false⟩,
  ⟨0x6C, 1, 4, 32, .ro, 0x0, 0xFFFFFFFF, false⟩,
  ⟨0x70, 1, 4, 32, .rwl, 0x12C, 0xFFFFFFFF, false⟩,
  ⟨0x74, 1, 4, 32, .ro, 0x0, 0xFFFFFFFF, true⟩]

/- tb2 (R99). -/
/-- Key of TB_TSC_RX (R99). -/
def rTB_TSC_RX : Nat := 0x12040
/-- Key of TB_TSC_TX (R99). -/
def rTB_TSC_TX : Nat := 0x12044
/-- Key of TB_TSC_TBL_RX (R99). -/
def rTB_TSC_TBL_RX : Nat := 0x12060
/-- Key of TB_TSC_TBL_TX (R99). -/
def rTB_TSC_TBL_TX : Nat := 0x12064
/-- The registers of this page (R99). -/
def rows_tb2 : List RegRow := [
  ⟨0x40, 4, 8, 32, .rw, 0x0, 0xFFFF, false⟩,
  ⟨0x44, 4, 8, 32, .rw, 0x0, 0xFFFF, false⟩,
  ⟨0x60, 4, 8, 32, .ro, 0x0, 0xFFFF, false⟩,
  ⟨0x64, 4, 8, 32, .ro, 0x0, 0xFFFF, false⟩]

/- tb3 (R100). -/
/-- Key of TB_PTP_CTRL (R100). -/
def rTB_PTP_CTRL : Nat := 0x13040
/-- Key of TB_PTP_PORT (R100). -/
def rTB_PTP_PORT : Nat := 0x13050
/-- The registers of this page (R100). -/
def rows_tb3 : List RegRow := [
  ⟨0x40, 1, 4, 32, .rwl, 0x0, 0xFF3F, false⟩,
  ⟨0x50, 4, 4, 32, .rwl, 0x8000, 0xFF00FF07, false⟩]

/- tb4 (R101). -/
/-- Key of TB_PPS_OUT_CTRL (R101). -/
def rTB_PPS_OUT_CTRL : Nat := 0x14040
/-- Key of TB_PPS_OUT_ADJ (R101). -/
def rTB_PPS_OUT_ADJ : Nat := 0x14044
/-- Key of TB_PPS_IN_CTRL (R101). -/
def rTB_PPS_IN_CTRL : Nat := 0x14048
/-- Key of TB_PPS_IN_TS (R101). -/
def rTB_PPS_IN_TS : Nat := 0x1404C
/-- The registers of this page (R101). -/
def rows_tb4 : List RegRow := [
  ⟨0x40, 1, 4, 32, .rw, 0x6400, 0xFFFFF03, false⟩,
  ⟨0x44, 1, 4, 32, .rw, 0x0, 0xFFFF, false⟩,
  ⟨0x48, 1, 4, 32, .rw, 0x0, 0x77, false⟩,
  ⟨0x4C, 1, 4, 32, .ro, 0x0, 0xFFFFFFFF, false⟩]

/- vtim (R102). -/
/-- Offset of VTIM_NT64 (R102). -/
def oVTIM_NT64 : Nat := 0x40
/-- Offset of VTIM_QUAL (R102). -/
def oVTIM_QUAL : Nat := 0x48
/-- Offset of VTIM_OFFSET (R102). -/
def oVTIM_OFFSET : Nat := 0x4C
/-- Offset of VTIM_GM_ID (R102). -/
def oVTIM_GM_ID : Nat := 0x50
/-- Offset of VTIM_HOLD_SEC (R102). -/
def oVTIM_HOLD_SEC : Nat := 0x58
/-- The registers of this page (R102). -/
def rows_vtim : List RegRow := [
  ⟨0x40, 1, 4, 64, .ro, 0x0, 0xFFFFFFFFFFFFFFFF, false⟩,
  ⟨0x48, 1, 4, 32, .ro, 0xF800, 0xFFFFFFFF, false⟩,
  ⟨0x4C, 1, 4, 32, .ro, 0x0, 0xFFFFFFFF, false⟩,
  ⟨0x50, 1, 4, 64, .ro, 0x0, 0xFFFFFFFFFFFFFFFF, false⟩,
  ⟨0x58, 1, 4, 32, .ro, 0x0, 0xFFFFFFFF, true⟩]

/- weir0 (R135). -/
/-- Key of WEIR_NEXT_P (R135). -/
def rWEIR_NEXT_P : Nat := 0x20040
/-- Key of WEIR_PASS_CNT (R135). -/
def rWEIR_PASS_CNT : Nat := 0x20044
/-- Key of WEIR_ADMIT_CEIL (R135). -/
def rWEIR_ADMIT_CEIL : Nat := 0x20048
/-- Key of WEIR_EFF_CEIL (R135). -/
def rWEIR_EFF_CEIL : Nat := 0x2004C
/-- Key of WEIR_ADMITTED (R135). -/
def rWEIR_ADMITTED : Nat := 0x20050
/-- Key of WEIR_DEADLINE (R135). -/
def rWEIR_DEADLINE : Nat := 0x20054
/-- Key of WEIR_JOB_MAX (R135). -/
def rWEIR_JOB_MAX : Nat := 0x20058
/-- Key of WEIR_STATUS (R135). -/
def rWEIR_STATUS : Nat := 0x2005C
/-- Key of WEIR_CORE_HEALTHY (R135). -/
def rWEIR_CORE_HEALTHY : Nat := 0x20060
/-- Key of WEIR_CORE_RETURN (R135). -/
def rWEIR_CORE_RETURN : Nat := 0x20068
/-- Key of WEIR_LAST_DONE (R135). -/
def rWEIR_LAST_DONE : Nat := 0x20070
/-- Key of WEIR_TOKENS (R135). -/
def rWEIR_TOKENS : Nat := 0x20074
/-- The registers of this page (R135). -/
def rows_weir0 : List RegRow := [
  ⟨0x40, 1, 4, 32, .ro, 0x0, 0xFFFFFFFF, false⟩,
  ⟨0x44, 1, 4, 32, .ro, 0x0, 0xFFFFFFFF, true⟩,
  ⟨0x48, 1, 4, 32, .rwl, 0x5573000, 0xFFFFFFFF, false⟩,
  ⟨0x4C, 1, 4, 32, .ro, 0x5573000, 0xFFFFFFFF, false⟩,
  ⟨0x50, 1, 4, 32, .ro, 0x0, 0xFFFFFFFF, false⟩,
  ⟨0x54, 1, 4, 32, .rwl, 0x4E20, 0xFFFFFFFF, false⟩,
  ⟨0x58, 1, 4, 32, .ro, 0xFA00, 0xFFFFFFFF, false⟩,
  ⟨0x5C, 1, 4, 32, .ro, 0x40, 0x17F, false⟩,
  ⟨0x60, 1, 4, 64, .ro, 0xFFFFFFFFFFFFFFFF, 0xFFFFFFFFFFFFFFFF, false⟩,
  ⟨0x68, 1, 4, 64, .w1s, 0x0, 0xFFFFFFFFFFFFFFFF, false⟩,
  ⟨0x70, 1, 4, 32, .ro, 0x0, 0xFFFFFFFF, false⟩,
  ⟨0x74, 1, 4, 32, .ro, 0x0, 0xFFFFFFFF, false⟩]

/- weir1 (R136). -/
/-- Key of WEIR_CNT_FIRED (R136). -/
def rWEIR_CNT_FIRED : Nat := 0x21040
/-- Key of WEIR_CNT_CONCEAL (R136). -/
def rWEIR_CNT_CONCEAL : Nat := 0x21044
/-- Key of WEIR_CNT_NOCTX (R136). -/
def rWEIR_CNT_NOCTX : Nat := 0x21048
/-- Key of WEIR_CNT_REPLAY (R136). -/
def rWEIR_CNT_REPLAY : Nat := 0x2104C
/-- Key of WEIR_CNT_REPLAY_FAIL (R136). -/
def rWEIR_CNT_REPLAY_FAIL : Nat := 0x21050
/-- Key of WEIR_CNT_OVERRUN (R136). -/
def rWEIR_CNT_OVERRUN : Nat := 0x21054
/-- Key of WEIR_CNT_STALE_TOKEN (R136). -/
def rWEIR_CNT_STALE_TOKEN : Nat := 0x21058
/-- Key of WEIR_CNT_STALE_EVENT (R136). -/
def rWEIR_CNT_STALE_EVENT : Nat := 0x2105C
/-- Key of WEIR_CNT_STALE_PREFETCH (R136). -/
def rWEIR_CNT_STALE_PREFETCH : Nat := 0x21060
/-- Key of WEIR_CNT_STALE_STREAM (R136). -/
def rWEIR_CNT_STALE_STREAM : Nat := 0x21064
/-- Key of WEIR_CNT_STALE_COMMIT (R136). -/
def rWEIR_CNT_STALE_COMMIT : Nat := 0x21068
/-- Key of WEIR_CNT_LATE_EVENT (R136). -/
def rWEIR_CNT_LATE_EVENT : Nat := 0x2106C
/-- Key of WEIR_CNT_REBASE_LATE (R136). -/
def rWEIR_CNT_REBASE_LATE : Nat := 0x21070
/-- Key of WEIR_CNT_REBASE_CLIP (R136). -/
def rWEIR_CNT_REBASE_CLIP : Nat := 0x21074
/-- The registers of this page (R136). -/
def rows_weir1 : List RegRow := [
  ⟨0x40, 1, 4, 32, .ro, 0x0, 0xFFFFFFFF, true⟩,
  ⟨0x44, 1, 4, 32, .ro, 0x0, 0xFFFFFFFF, true⟩,
  ⟨0x48, 1, 4, 32, .ro, 0x0, 0xFFFFFFFF, true⟩,
  ⟨0x4C, 1, 4, 32, .ro, 0x0, 0xFFFFFFFF, true⟩,
  ⟨0x50, 1, 4, 32, .ro, 0x0, 0xFFFFFFFF, true⟩,
  ⟨0x54, 1, 4, 32, .ro, 0x0, 0xFFFFFFFF, true⟩,
  ⟨0x58, 1, 4, 32, .ro, 0x0, 0xFFFFFFFF, true⟩,
  ⟨0x5C, 1, 4, 32, .ro, 0x0, 0xFFFFFFFF, true⟩,
  ⟨0x60, 1, 4, 32, .ro, 0x0, 0xFFFFFFFF, true⟩,
  ⟨0x64, 1, 4, 32, .ro, 0x0, 0xFFFFFFFF, true⟩,
  ⟨0x68, 1, 4, 32, .ro, 0x0, 0xFFFFFFFF, true⟩,
  ⟨0x6C, 1, 4, 32, .ro, 0x0, 0xFFFFFFFF, true⟩,
  ⟨0x70, 1, 4, 32, .ro, 0x0, 0xFFFFFFFF, true⟩,
  ⟨0x74, 1, 4, 32, .ro, 0x0, 0xFFFFFFFF, true⟩]

/- weir2 (R137). -/
/-- Key of WEIR_DL_COUNT (R137). -/
def rWEIR_DL_COUNT : Nat := 0x22040
/-- Key of WEIR_DL_CAP (R137). -/
def rWEIR_DL_CAP : Nat := 0x22044
/-- Key of WEIR_DL_HWM (R137). -/
def rWEIR_DL_HWM : Nat := 0x22048
/-- Key of WEIR_DL_FULL (R137). -/
def rWEIR_DL_FULL : Nat := 0x2204C
/-- The registers of this page (R137). -/
def rows_weir2 : List RegRow := [
  ⟨0x40, 8, 16, 32, .ro, 0x0, 0xFFFFFFFF, false⟩,
  ⟨0x44, 8, 16, 32, .ro, 0x4000, 0xFFFFFFFF, false⟩,
  ⟨0x48, 8, 16, 32, .ro, 0x0, 0xFFFFFFFF, true⟩,
  ⟨0x4C, 8, 16, 32, .ro, 0x0, 0xFFFFFFFF, true⟩]

/- weir3 (R138). -/
/-- Key of WEIR_SHED_SEL (R138). -/
def rWEIR_SHED_SEL : Nat := 0x23040
/-- Key of WEIR_SHED_CFG (R138). -/
def rWEIR_SHED_CFG : Nat := 0x23044
/-- Key of WEIR_SHED_STATE (R138). -/
def rWEIR_SHED_STATE : Nat := 0x23048
/-- The registers of this page (R138). -/
def rows_weir3 : List RegRow := [
  ⟨0x40, 1, 4, 32, .rw, 0x0, 0x3FF, false⟩,
  ⟨0x44, 1, 4, 32, .rw, 0x0, 0xFF03, false⟩,
  ⟨0x48, 1, 4, 32, .ro, 0x0, 0x7, false⟩]

/- basin0 (R139). -/
/-- Key of BASIN_POOL_TOTAL (R139). -/
def rBASIN_POOL_TOTAL : Nat := 0x90040
/-- Key of BASIN_POOL_FREE (R139). -/
def rBASIN_POOL_FREE : Nat := 0x90044
/-- Key of BASIN_SCRUB_CTRL (R139). -/
def rBASIN_SCRUB_CTRL : Nat := 0x90048
/-- Key of BASIN_SCRUB_PASS (R139). -/
def rBASIN_SCRUB_PASS : Nat := 0x9004C
/-- Key of BASIN_UE_CNT (R139). -/
def rBASIN_UE_CNT : Nat := 0x90050
/-- Key of BASIN_UE_ADDR (R139). -/
def rBASIN_UE_ADDR : Nat := 0x90054
/-- Key of BASIN_UE_TIME (R139). -/
def rBASIN_UE_TIME : Nat := 0x90058
/-- Key of BASIN_STRM_SHARE (R139). -/
def rBASIN_STRM_SHARE : Nat := 0x9005C
/-- Key of BASIN_STRM_WORDS (R139). -/
def rBASIN_STRM_WORDS : Nat := 0x90060
/-- Key of BASIN_CE_THRESH (R139). -/
def rBASIN_CE_THRESH : Nat := 0x90064
/-- The registers of this page (R139). -/
def rows_basin0 : List RegRow := [
  ⟨0x40, 1, 4, 32, .ro, 0xA000, 0xFFFFFFFF, false⟩,
  ⟨0x44, 1, 4, 32, .ro, 0xA000, 0xFFFFFFFF, false⟩,
  ⟨0x48, 1, 4, 32, .rwl, 0x80000258, 0x8000FFFF, false⟩,
  ⟨0x4C, 1, 4, 32, .ro, 0x0, 0xFFFFFFFF, true⟩,
  ⟨0x50, 1, 4, 32, .ro, 0x0, 0xFFFFFFFF, true⟩,
  ⟨0x54, 1, 4, 32, .ro, 0x0, 0x3FFFFFF, true⟩,
  ⟨0x58, 1, 4, 32, .ro, 0x0, 0xFFFFFFFF, true⟩,
  ⟨0x5C, 1, 4, 32, .ro, 0x0, 0x7FF, true⟩,
  ⟨0x60, 1, 4, 32, .ro, 0x0, 0xFFFFFFFF, true⟩,
  ⟨0x64, 1, 4, 32, .rwl, 0x40, 0xFFFFFFFF, false⟩]

/- dram0 (R140). -/
/-- Key of DRAM_CFG (R140). -/
def rDRAM_CFG : Nat := 0xA0040
/-- Key of DRAM_SCRUB_CTRL (R140). -/
def rDRAM_SCRUB_CTRL : Nat := 0xA0044
/-- Key of DRAM_WFAIL_CNT (R140). -/
def rDRAM_WFAIL_CNT : Nat := 0xA0048
/-- The registers of this page (R140). -/
def rows_dram0 : List RegRow := [
  ⟨0x40, 1, 4, 32, .ro, 0x0, 0x3FF, false⟩,
  ⟨0x44, 1, 4, 32, .rwl, 0x80000018, 0x8000FFFF, false⟩,
  ⟨0x48, 1, 4, 32, .ro, 0x0, 0xFFFFFFFF, true⟩]

/- dramCh (R140). -/
/-- Offset of DRAM_CE_CNT (R140). -/
def oDRAM_CE_CNT : Nat := 0x40
/-- Offset of DRAM_UE_CNT (R140). -/
def oDRAM_UE_CNT : Nat := 0x44
/-- Offset of DRAM_UE_ADDR (R140). -/
def oDRAM_UE_ADDR : Nat := 0x48
/-- Offset of DRAM_UE_TIME (R140). -/
def oDRAM_UE_TIME : Nat := 0x50
/-- The registers of this page (R140). -/
def rows_dramCh : List RegRow := [
  ⟨0x40, 1, 4, 32, .ro, 0x0, 0xFFFFFFFF, true⟩,
  ⟨0x44, 1, 4, 32, .ro, 0x0, 0xFFFFFFFF, true⟩,
  ⟨0x48, 1, 4, 64, .ro, 0x0, 0xFFFFFFFFFFFFFFFF, true⟩,
  ⟨0x50, 1, 4, 32, .ro, 0x0, 0xFFFFFFFF, true⟩]

/- flw (R155). -/
/-- Offset of FLW_IDX (R155). -/
def oFLW_IDX : Nat := 0x40
/-- Offset of FLW_OP (R155). -/
def oFLW_OP : Nat := 0x44
/-- Offset of FLW_STATUS (R155). -/
def oFLW_STATUS : Nat := 0x48
/-- Offset of FLW_COUNT (R155). -/
def oFLW_COUNT : Nat := 0x4C
/-- Offset of FLW_ENTRY (R155). -/
def oFLW_ENTRY : Nat := 0x100
/-- The registers of this page (R155). -/
def rows_flw : List RegRow := [
  ⟨0x40, 1, 4, 32, .rw, 0x0, 0x7FFF, false⟩,
  ⟨0x44, 1, 4, 32, .wo, 0x0, 0x7, false⟩,
  ⟨0x48, 1, 4, 32, .ro, 0x0, 0x800000FF, false⟩,
  ⟨0x4C, 1, 4, 32, .ro, 0x0, 0xFFFFFFFF, false⟩,
  ⟨0x100, 16, 4, 32, .rw, 0x0, 0xFFFFFFFF, false⟩]

/- key (R162). -/
/-- Offset of KEY_SEL (R162). -/
def oKEY_SEL : Nat := 0x40
/-- Offset of KEY_CTRL (R162). -/
def oKEY_CTRL : Nat := 0x44
/-- Offset of KEY_OP (R162). -/
def oKEY_OP : Nat := 0x48
/-- Offset of KEY_STATUS (R162). -/
def oKEY_STATUS : Nat := 0x4C
/-- Offset of KEY_MKI (R162). -/
def oKEY_MKI : Nat := 0x50
/-- Offset of KEY_ROC (R162). -/
def oKEY_ROC : Nat := 0x54
/-- Offset of KEY_MASTER (R162). -/
def oKEY_MASTER : Nat := 0x100
/-- Offset of KEY_SALT (R162). -/
def oKEY_SALT : Nat := 0x120
/-- The registers of this page (R162). -/
def rows_key : List RegRow := [
  ⟨0x40, 1, 4, 32, .rw, 0x0, 0xFFFFFFFF, false⟩,
  ⟨0x44, 1, 4, 32, .rw, 0x0, 0x3F, false⟩,
  ⟨0x48, 1, 4, 32, .wo, 0x0, 0x3, false⟩,
  ⟨0x4C, 1, 4, 32, .ro, 0x0, 0x800003FF, false⟩,
  ⟨0x50, 1, 4, 32, .wo, 0x0, 0xFFFFFFFF, false⟩,
  ⟨0x54, 1, 4, 32, .wo, 0x0, 0xFFFFFFFF, false⟩,
  ⟨0x100, 8, 4, 32, .wo, 0x0, 0xFFFFFFFF, false⟩,
  ⟨0x120, 4, 4, 32, .wo, 0x0, 0xFFFFFFFF, false⟩]

/- cls0 (R182). -/
/-- Key of CLS_EXC_DROP (R182). -/
def rCLS_EXC_DROP : Nat := 0xB0040
/-- Key of CLS_SEED (R182). -/
def rCLS_SEED : Nat := 0xB0048
/-- Key of CLS_FLOWS (R182). -/
def rCLS_FLOWS : Nat := 0xB0050
/-- Key of CLS_STASH (R182). -/
def rCLS_STASH : Nat := 0xB0054
/-- Key of CLS_BIND_SEL (R182). -/
def rCLS_BIND_SEL : Nat := 0xB0058
/-- Key of CLS_BIND_CTRL (R182). -/
def rCLS_BIND_CTRL : Nat := 0xB005C
/-- Key of CLS_BIND_PORTS (R182). -/
def rCLS_BIND_PORTS : Nat := 0xB0060
/-- Key of CLS_BIND_IP (R182). -/
def rCLS_BIND_IP : Nat := 0xB0064
/-- The registers of this page (R182). -/
def rows_cls0 : List RegRow := [
  ⟨0x40, 1, 4, 32, .rw, 0x0, 0xFFFFFFFF, false⟩,
  ⟨0x48, 1, 4, 64, .wo, 0x0, 0xFFFFFFFFFFFFFFFF, false⟩,
  ⟨0x50, 1, 4, 32, .ro, 0x0, 0xFFFFFFFF, false⟩,
  ⟨0x54, 1, 4, 32, .ro, 0x0, 0xFFFFFFFF, false⟩,
  ⟨0x58, 1, 4, 32, .rw, 0x0, 0x3FF, false⟩,
  ⟨0x5C, 1, 4, 32, .rwl, 0x0, 0xC3FF00FF, false⟩,
  ⟨0x60, 1, 4, 32, .rwl, 0x0, 0xFFFFFFFF, false⟩,
  ⟨0x64, 4, 4, 32, .rwl, 0x0, 0xFFFFFFFF, false⟩]

/- cls2 (R184). -/
/-- Key of CLS_POL_SEL (R184). -/
def rCLS_POL_SEL : Nat := 0xB2040
/-- Key of CLS_POL_PKT (R184). -/
def rCLS_POL_PKT : Nat := 0xB2044
/-- Key of CLS_POL_BYTE (R184). -/
def rCLS_POL_BYTE : Nat := 0xB2048
/-- Key of CLS_POL_BURST (R184). -/
def rCLS_POL_BURST : Nat := 0xB204C
/-- The registers of this page (R184). -/
def rows_cls2 : List RegRow := [
  ⟨0x40, 1, 4, 32, .rw, 0x0, 0x3FF, false⟩,
  ⟨0x44, 1, 4, 32, .rw, 0x0, 0xFFFFFFF, false⟩,
  ⟨0x48, 1, 4, 32, .rw, 0x0, 0x1FFFFF, false⟩,
  ⟨0x4C, 1, 4, 32, .rw, 0x0, 0xFFFFFFFF, false⟩]

/- jb (R186). -/
/-- Key of JB_CTRL (R186). -/
def rJB_CTRL : Nat := 0xD0040
/-- Key of JB_CNT_LATE (R186). -/
def rJB_CNT_LATE : Nat := 0xD0044
/-- Key of JB_CNT_OVERRUN (R186). -/
def rJB_CNT_OVERRUN : Nat := 0xD0048
/-- Key of JB_CNT_DUP (R186). -/
def rJB_CNT_DUP : Nat := 0xD004C
/-- Key of JB_CNT_TS_REJECT (R186). -/
def rJB_CNT_TS_REJECT : Nat := 0xD0050
/-- Key of JB_CNT_REANCHOR (R186). -/
def rJB_CNT_REANCHOR : Nat := 0xD0054
/-- Key of JB_CNT_GROW (R186). -/
def rJB_CNT_GROW : Nat := 0xD0058
/-- Key of JB_CNT_SHRINK (R186). -/
def rJB_CNT_SHRINK : Nat := 0xD005C
/-- Key of JB_CNT_STALE (R186). -/
def rJB_CNT_STALE : Nat := 0xD0060
/-- Key of JB_CNT_REBASE_DROP (R186). -/
def rJB_CNT_REBASE_DROP : Nat := 0xD0064
/-- Key of JB_CNT_TWIN_ORPHAN (R186). -/
def rJB_CNT_TWIN_ORPHAN : Nat := 0xD0068
/-- Key of JB_CNT_TWIN_FETCH (R186). -/
def rJB_CNT_TWIN_FETCH : Nat := 0xD006C
/-- The registers of this page (R186). -/
def rows_jb : List RegRow := [
  ⟨0x40, 1, 4, 32, .rwl, 0x640807D0, 0xFF0FFFFF, false⟩,
  ⟨0x44, 1, 4, 32, .ro, 0x0, 0xFFFFFFFF, true⟩,
  ⟨0x48, 1, 4, 32, .ro, 0x0, 0xFFFFFFFF, true⟩,
  ⟨0x4C, 1, 4, 32, .ro, 0x0, 0xFFFFFFFF, true⟩,
  ⟨0x50, 1, 4, 32, .ro, 0x0, 0xFFFFFFFF, true⟩,
  ⟨0x54, 1, 4, 32, .ro, 0x0, 0xFFFFFFFF, true⟩,
  ⟨0x58, 1, 4, 32, .ro, 0x0, 0xFFFFFFFF, true⟩,
  ⟨0x5C, 1, 4, 32, .ro, 0x0, 0xFFFFFFFF, true⟩,
  ⟨0x60, 1, 4, 32, .ro, 0x0, 0xFFFFFFFF, true⟩,
  ⟨0x64, 1, 4, 32, .ro, 0x0, 0xFFFFFFFF, true⟩,
  ⟨0x68, 1, 4, 32, .ro, 0x0, 0xFFFFFFFF, true⟩,
  ⟨0x6C, 1, 4, 32, .ro, 0x0, 0xFFFFFFFF, true⟩]

/- tarn (R258). -/
/-- Offset of TARN_STATE (R258). -/
def oTARN_STATE : Nat := 0x40
/-- Offset of TARN_JOB (R258). -/
def oTARN_JOB : Nat := 0x44
/-- Offset of TARN_FAULT (R258). -/
def oTARN_FAULT : Nat := 0x48
/-- Offset of TARN_FAULT_TIME (R258). -/
def oTARN_FAULT_TIME : Nat := 0x4C
/-- Offset of TARN_DM_CE (R258). -/
def oTARN_DM_CE : Nat := 0x50
/-- Offset of TARN_CS_CE (R258). -/
def oTARN_CS_CE : Nat := 0x54
/-- Offset of TARN_PM_CE (R258). -/
def oTARN_PM_CE : Nat := 0x58
/-- Offset of TARN_CE_THRESH (R258). -/
def oTARN_CE_THRESH : Nat := 0x5C
/-- Offset of TARN_CYC (R258). -/
def oTARN_CYC : Nat := 0x60
/-- Offset of TARN_STALL_3BUS (R258). -/
def oTARN_STALL_3BUS : Nat := 0x64
/-- Offset of TARN_STALL_SB (R258). -/
def oTARN_STALL_SB : Nat := 0x68
/-- Offset of TARN_JOBS (R258). -/
def oTARN_JOBS : Nat := 0x6C
/-- Offset of TARN_UEXC (R258). -/
def oTARN_UEXC : Nat := 0x70
/-- Offset of TARN_MPU_INFO (R258). -/
def oTARN_MPU_INFO : Nat := 0x74
/-- Offset of TARN_MPU_ADDR (R258). -/
def oTARN_MPU_ADDR : Nat := 0x78
/-- The registers of this page (R258). -/
def rows_tarn : List RegRow := [
  ⟨0x40, 1, 4, 32, .ro, 0x0, 0x8F, false⟩,
  ⟨0x44, 1, 4, 32, .ro, 0x0, 0xFFFFFFFF, false⟩,
  ⟨0x48, 1, 4, 32, .ro, 0x0, 0xF0007FFF, false⟩,
  ⟨0x4C, 1, 4, 32, .ro, 0x0, 0xFFFFFFFF, true⟩,
  ⟨0x50, 1, 4, 32, .ro, 0x0, 0xFFFFFFFF, true⟩,
  ⟨0x54, 1, 4, 32, .ro, 0x0, 0xFFFFFFFF, true⟩,
  ⟨0x58, 1, 4, 32, .ro, 0x0, 0xFFFFFFFF, true⟩,
  ⟨0x5C, 1, 4, 32, .rwl, 0x10, 0xFFFFFFFF, false⟩,
  ⟨0x60, 1, 4, 32, .ro, 0x0, 0xFFFFFFFF, true⟩,
  ⟨0x64, 1, 4, 32, .ro, 0x0, 0xFFFFFFFF, true⟩,
  ⟨0x68, 1, 4, 32, .ro, 0x0, 0xFFFFFFFF, true⟩,
  ⟨0x6C, 1, 4, 32, .ro, 0x0, 0xFFFFFFFF, true⟩,
  ⟨0x70, 1, 4, 32, .ro, 0x0, 0xFFFFFFFF, true⟩,
  ⟨0x74, 1, 4, 32, .ro, 0x0, 0x3, false⟩,
  ⟨0x78, 1, 4, 64, .ro, 0x0, 0xFFFFFFFFFFFFFFFF, false⟩]

/- prg (R294). -/
/-- Offset of PRG_ID (R294). -/
def oPRG_ID : Nat := 0x40
/-- Offset of PRG_OP (R294). -/
def oPRG_OP : Nat := 0x44
/-- Offset of PRG_STATUS (R294). -/
def oPRG_STATUS : Nat := 0x48
/-- Offset of PRG_LEN (R294). -/
def oPRG_LEN : Nat := 0x4C
/-- Offset of PRG_SRC (R294). -/
def oPRG_SRC : Nat := 0x50
/-- Offset of PRG_CRC (R294). -/
def oPRG_CRC : Nat := 0x58
/-- Offset of PRG_USE (R294). -/
def oPRG_USE : Nat := 0x5C
/-- Offset of PRG_LOADED (R294). -/
def oPRG_LOADED : Nat := 0x60
/-- Offset of PRG_FAIL_AT (R294). -/
def oPRG_FAIL_AT : Nat := 0x64
/-- The registers of this page (R294). -/
def rows_prg : List RegRow := [
  ⟨0x40, 1, 4, 32, .rw, 0x0, 0xFFFF, false⟩,
  ⟨0x44, 1, 4, 32, .wo, 0x0, 0x3, false⟩,
  ⟨0x48, 1, 4, 32, .ro, 0x0, 0x800300FF, false⟩,
  ⟨0x4C, 1, 4, 32, .rw, 0x0, 0xFFF0FFF, false⟩,
  ⟨0x50, 1, 4, 64, .rw, 0x0, 0xFFFFFFFFFFFFFFFF, false⟩,
  ⟨0x58, 1, 4, 32, .rw, 0x0, 0xFFFFFFFF, false⟩,
  ⟨0x5C, 1, 4, 32, .ro, 0x0, 0xFFFFFFFF, false⟩,
  ⟨0x60, 1, 4, 32, .ro, 0x0, 0xFFFFFFFF, false⟩,
  ⟨0x64, 1, 4, 32, .ro, 0x0, 0xFFF, false⟩]

/- vcnt (R298). -/
/-- Offset of VCNT_RX_PKT (R298). -/
def oVCNT_RX_PKT : Nat := 0x40
/-- Offset of VCNT_TX_PKT (R298). -/
def oVCNT_TX_PKT : Nat := 0x44
/-- Offset of VCNT_EXC (R298). -/
def oVCNT_EXC : Nat := 0x48
/-- Offset of VCNT_POL_FLOW (R298). -/
def oVCNT_POL_FLOW : Nat := 0x4C
/-- Offset of VCNT_POL_PART (R298). -/
def oVCNT_POL_PART : Nat := 0x50
/-- Offset of VCNT_SSRC_MISMATCH (R298). -/
def oVCNT_SSRC_MISMATCH : Nat := 0x54
/-- Offset of VCNT_AUTH_FAIL (R298). -/
def oVCNT_AUTH_FAIL : Nat := 0x58
/-- Offset of VCNT_REPLAY (R298). -/
def oVCNT_REPLAY : Nat := 0x5C
/-- Offset of VCNT_NO_KEY (R298). -/
def oVCNT_NO_KEY : Nat := 0x60
/-- Offset of VCNT_JB_LATE (R298). -/
def oVCNT_JB_LATE : Nat := 0x64
/-- Offset of VCNT_JB_OVERRUN (R298). -/
def oVCNT_JB_OVERRUN : Nat := 0x68
/-- Offset of VCNT_TS_REJECT (R298). -/
def oVCNT_TS_REJECT : Nat := 0x6C
/-- Offset of VCNT_EGR_LATE (R298). -/
def oVCNT_EGR_LATE : Nat := 0x70
/-- Offset of VCNT_EGR_WINDOW (R298). -/
def oVCNT_EGR_WINDOW : Nat := 0x74
/-- Offset of VCNT_JOB_REPLAY (R298). -/
def oVCNT_JOB_REPLAY : Nat := 0x78
/-- Offset of VCNT_JOB_OVERRUN (R298). -/
def oVCNT_JOB_OVERRUN : Nat := 0x7C
/-- Offset of VCNT_STALE (R298). -/
def oVCNT_STALE : Nat := 0x80
/-- Offset of VCNT_BUDGET_ABORT (R298). -/
def oVCNT_BUDGET_ABORT : Nat := 0x84
/-- Offset of VCNT_QUOTA (R298). -/
def oVCNT_QUOTA : Nat := 0x100
/-- The registers of this page (R298). -/
def rows_vcnt : List RegRow := [
  ⟨0x40, 1, 4, 32, .ro, 0x0, 0xFFFFFFFF, true⟩,
  ⟨0x44, 1, 4, 32, .ro, 0x0, 0xFFFFFFFF, true⟩,
  ⟨0x48, 1, 4, 32, .ro, 0x0, 0xFFFFFFFF, true⟩,
  ⟨0x4C, 1, 4, 32, .ro, 0x0, 0xFFFFFFFF, true⟩,
  ⟨0x50, 1, 4, 32, .ro, 0x0, 0xFFFFFFFF, true⟩,
  ⟨0x54, 1, 4, 32, .ro, 0x0, 0xFFFFFFFF, true⟩,
  ⟨0x58, 1, 4, 32, .ro, 0x0, 0xFFFFFFFF, true⟩,
  ⟨0x5C, 1, 4, 32, .ro, 0x0, 0xFFFFFFFF, true⟩,
  ⟨0x60, 1, 4, 32, .ro, 0x0, 0xFFFFFFFF, true⟩,
  ⟨0x64, 1, 4, 32, .ro, 0x0, 0xFFFFFFFF, true⟩,
  ⟨0x68, 1, 4, 32, .ro, 0x0, 0xFFFFFFFF, true⟩,
  ⟨0x6C, 1, 4, 32, .ro, 0x0, 0xFFFFFFFF, true⟩,
  ⟨0x70, 1, 4, 32, .ro, 0x0, 0xFFFFFFFF, true⟩,
  ⟨0x74, 1, 4, 32, .ro, 0x0, 0xFFFFFFFF, true⟩,
  ⟨0x78, 1, 4, 32, .ro, 0x0, 0xFFFFFFFF, true⟩,
  ⟨0x7C, 1, 4, 32, .ro, 0x0, 0xFFFFFFFF, true⟩,
  ⟨0x80, 1, 4, 32, .ro, 0x0, 0xFFFFFFFF, true⟩,
  ⟨0x84, 1, 4, 32, .ro, 0x0, 0xFFFFFFFF, true⟩,
  ⟨0x100, 18, 4, 32, .ro, 0x0, 0xFFFFFFFF, false⟩]

/- part (R300). -/
/-- Offset of PART_CTRL (R300). -/
def oPART_CTRL : Nat := 0x40
/-- Offset of PART_STATE (R300). -/
def oPART_STATE : Nat := 0x44
/-- Offset of PART_Q_CHANNELS (R300). -/
def oPART_Q_CHANNELS : Nat := 0x48
/-- Offset of PART_Q_FLOWS (R300). -/
def oPART_Q_FLOWS : Nat := 0x4C
/-- Offset of PART_Q_CYCLES (R300). -/
def oPART_Q_CYCLES : Nat := 0x50
/-- Offset of PART_Q_BASIN (R300). -/
def oPART_Q_BASIN : Nat := 0x54
/-- Offset of PART_Q_DRAM (R300). -/
def oPART_Q_DRAM : Nat := 0x58
/-- Offset of PART_Q_TENANT (R300). -/
def oPART_Q_TENANT : Nat := 0x5C
/-- Offset of PART_Q_REC (R300). -/
def oPART_Q_REC : Nat := 0x60
/-- Offset of PART_EGR (R300). -/
def oPART_EGR : Nat := 0x64
/-- Offset of PART_U_CHANNELS (R300). -/
def oPART_U_CHANNELS : Nat := 0x74
/-- Offset of PART_U_FLOWS (R300). -/
def oPART_U_FLOWS : Nat := 0x78
/-- Offset of PART_U_CYCLES (R300). -/
def oPART_U_CYCLES : Nat := 0x7C
/-- Offset of PART_U_BASIN (R300). -/
def oPART_U_BASIN : Nat := 0x80
/-- Offset of PART_U_DRAM (R300). -/
def oPART_U_DRAM : Nat := 0x84
/-- Offset of PART_U_TENANT (R300). -/
def oPART_U_TENANT : Nat := 0x88
/-- Offset of PART_U_REC (R300). -/
def oPART_U_REC : Nat := 0x8C
/-- Offset of PART_TAG_FAULT (R300). -/
def oPART_TAG_FAULT : Nat := 0x90
/-- Offset of PART_WR_DROP (R300). -/
def oPART_WR_DROP : Nat := 0x94
/-- The registers of this page (R300). -/
def rows_part : List RegRow := [
  ⟨0x40, 1, 4, 32, .rw, 0x0, 0x3, false⟩,
  ⟨0x44, 1, 4, 32, .ro, 0x0, 0x3, false⟩,
  ⟨0x48, 1, 4, 32, .rwl, 0x0, 0x7FFF, false⟩,
  ⟨0x4C, 1, 4, 32, .rwl, 0x0, 0xFFFF, false⟩,
  ⟨0x50, 1, 4, 32, .rwl, 0x0, 0x7FFFFFF, false⟩,
  ⟨0x54, 1, 4, 32, .rwl, 0x0, 0xFFFF, false⟩,
  ⟨0x58, 1, 4, 32, .rwl, 0x0, 0x1FFFF, false⟩,
  ⟨0x5C, 1, 4, 32, .rwl, 0x0, 0x7FF0FFF, false⟩,
  ⟨0x60, 1, 4, 32, .rwl, 0x0, 0xFF00FFFF, false⟩,
  ⟨0x64, 4, 4, 32, .rwl, 0x0, 0xFFFFFFFF, false⟩,
  ⟨0x74, 1, 4, 32, .ro, 0x0, 0xFFFFFFFF, false⟩,
  ⟨0x78, 1, 4, 32, .ro, 0x0, 0xFFFFFFFF, false⟩,
  ⟨0x7C, 1, 4, 32, .ro, 0x0, 0xFFFFFFFF, false⟩,
  ⟨0x80, 1, 4, 32, .ro, 0x0, 0xFFFFFFFF, false⟩,
  ⟨0x84, 1, 4, 32, .ro, 0x0, 0xFFFFFFFF, false⟩,
  ⟨0x88, 1, 4, 32, .ro, 0x0, 0xFFFFFFFF, false⟩,
  ⟨0x8C, 1, 4, 32, .ro, 0x0, 0xFFFFFFFF, false⟩,
  ⟨0x90, 1, 4, 32, .ro, 0x0, 0xFFFFFFFF, true⟩,
  ⟨0x94, 1, 4, 32, .ro, 0x0, 0xFFFFFFFF, true⟩]

/- mac0 (R316). -/
/-- Offset of MAC_CFG (R316). -/
def oMAC_CFG : Nat := 0x40
/-- Offset of MAC_STATUS (R316). -/
def oMAC_STATUS : Nat := 0x44
/-- Offset of MAC_ADDR (R316). -/
def oMAC_ADDR : Nat := 0x48
/-- Offset of MAC_LANES (R316). -/
def oMAC_LANES : Nat := 0x50
/-- Offset of MAC_RX_PRIMAP (R316). -/
def oMAC_RX_PRIMAP : Nat := 0x54
/-- Offset of MAC_OWN_ADDR (R316). -/
def oMAC_OWN_ADDR : Nat := 0x58
/-- Offset of MAC_FEC_CE (R316). -/
def oMAC_FEC_CE : Nat := 0x60
/-- Offset of MAC_FEC_UE (R316). -/
def oMAC_FEC_UE : Nat := 0x64
/-- Offset of MAC_FEC_THRESH (R316). -/
def oMAC_FEC_THRESH : Nat := 0x68
/-- Offset of MAC_PAUSE_STATE (R316). -/
def oMAC_PAUSE_STATE : Nat := 0x6C
/-- Offset of MAC_MC_SEL (R316). -/
def oMAC_MC_SEL : Nat := 0x70
/-- Offset of MAC_MC_ADDR (R316). -/
def oMAC_MC_ADDR : Nat := 0x78
/-- The registers of this page (R316). -/
def rows_mac0 : List RegRow := [
  ⟨0x40, 1, 4, 32, .rwl, 0x10600, 0x3F33FFF, false⟩,
  ⟨0x44, 1, 4, 32, .ro, 0x0, 0xFF, false⟩,
  ⟨0x48, 1, 4, 64, .rw, 0x0, 0xFFFFFFFFFFFF, false⟩,
  ⟨0x50, 1, 4, 32, .rwl, 0x0, 0x1, false⟩,
  ⟨0x54, 1, 4, 32, .rw, 0xFAC688, 0x7FFFFFF, false⟩,
  ⟨0x58, 1, 4, 64, .rw, 0x0, 0xFFFFFFFFFFFF, false⟩,
  ⟨0x60, 1, 4, 32, .ro, 0x0, 0xFFFFFFFF, true⟩,
  ⟨0x64, 1, 4, 32, .ro, 0x0, 0xFFFFFFFF, true⟩,
  ⟨0x68, 1, 4, 32, .rw, 0x10000, 0xFFFFFFFF, false⟩,
  ⟨0x6C, 1, 4, 32, .ro, 0x0, 0xFF, false⟩,
  ⟨0x70, 1, 4, 32, .rw, 0x0, 0x1F, false⟩,
  ⟨0x78, 1, 4, 64, .rw, 0x0, 0x1FFFFFFFFFFFF, false⟩]

/- mac3 (R318, R311). -/
/-- Offset of MAC_RXQ_LIMIT (R318). -/
def oMAC_RXQ_LIMIT : Nat := 0x40
/-- Offset of MAC_EEE (R318). -/
def oMAC_EEE : Nat := 0x60
/-- Offset of MAC_EEE_CFG (R318). -/
def oMAC_EEE_CFG : Nat := 0x64
/-- Offset of MAC_EEE_WAKE_LATE (R318). -/
def oMAC_EEE_WAKE_LATE : Nat := 0x68
/-- Offset of MAC_WAKE_MASK (R318). -/
def oMAC_WAKE_MASK : Nat := 0x200
/-- Offset of MAC_WAKE_MASK1 (R318). -/
def oMAC_WAKE_MASK1 : Nat := 0x204
/-- Offset of MAC_WAKE_MASK2 (R318). -/
def oMAC_WAKE_MASK2 : Nat := 0x208
/-- Offset of MAC_WAKE_MASK3 (R318). -/
def oMAC_WAKE_MASK3 : Nat := 0x20C
/-- Offset of MAC_WAKE_CTRL (R318). -/
def oMAC_WAKE_CTRL : Nat := 0x210
/-- Offset of MAC_TXR_BASE (R318). -/
def oMAC_TXR_BASE : Nat := 0x100
/-- Offset of MAC_TXR_SIZE_LOG2 (R318). -/
def oMAC_TXR_SIZE_LOG2 : Nat := 0x108
/-- Offset of MAC_TXR_CTRL (R318). -/
def oMAC_TXR_CTRL : Nat := 0x10C
/-- Offset of MAC_TXR_PROD (R318). -/
def oMAC_TXR_PROD : Nat := 0x110
/-- Offset of MAC_TXR_CONS (R318). -/
def oMAC_TXR_CONS : Nat := 0x114
/-- The registers of this page (R318, R311). -/
def rows_mac3 : List RegRow := [
  ⟨0x40, 8, 4, 32, .rw, 0x8, 0x7F, false⟩,
  ⟨0x60, 1, 4, 32, .ro, 0x0, 0x8000FFFF, false⟩,
  ⟨0x64, 1, 4, 32, .rw, 0x4E202710, 0xFFFFFFFF, false⟩,
  ⟨0x68, 1, 4, 32, .ro, 0x0, 0xFFFFFFFF, true⟩,
  ⟨0x200, 8, 32, 32, .rw, 0x0, 0xFFFFFFFF, false⟩,
  ⟨0x204, 8, 32, 32, .rw, 0x0, 0xFFFFFFFF, false⟩,
  ⟨0x208, 8, 32, 32, .rw, 0x0, 0xFFFFFFFF, false⟩,
  ⟨0x20C, 8, 32, 32, .rw, 0x0, 0xFFFFFFFF, false⟩,
  ⟨0x210, 8, 32, 32, .rw, 0x0, 0x801FFFFF, false⟩,
  ⟨0x100, 1, 64, 64, .rw, 0x0, 0xFFFFFFFFFFFFF000, false⟩,
  ⟨0x108, 1, 64, 32, .rw, 0x0, 0xF, false⟩,
  ⟨0x10C, 1, 64, 32, .rw, 0x0, 0x1, false⟩,
  ⟨0x110, 1, 64, 32, .rw, 0x0, 0xFFFFFFFF, false⟩,
  ⟨0x114, 1, 64, 32, .ro, 0x0, 0xFFFFFFFF, false⟩]

/- mgmt (R322). -/
/-- Key of MGMT_CFG (R322). -/
def rMGMT_CFG : Nat := 0x110040
/-- Key of MGMT_STATUS (R322). -/
def rMGMT_STATUS : Nat := 0x110044
/-- Key of MGMT_ADDR (R322). -/
def rMGMT_ADDR : Nat := 0x110048
/-- Key of MGMT_MDIO (R322). -/
def rMGMT_MDIO : Nat := 0x110050
/-- Key of MGMT_CNT (R322). -/
def rMGMT_CNT : Nat := 0x110080
/-- Key of MGMT_RXR_BASE (R322). -/
def rMGMT_RXR_BASE : Nat := 0x110100
/-- Key of MGMT_RXR_SIZE_LOG2 (R322). -/
def rMGMT_RXR_SIZE_LOG2 : Nat := 0x110108
/-- Key of MGMT_RXR_CTRL (R322). -/
def rMGMT_RXR_CTRL : Nat := 0x11010C
/-- Key of MGMT_RXR_PROD (R322). -/
def rMGMT_RXR_PROD : Nat := 0x110110
/-- Key of MGMT_RXR_CONS (R322). -/
def rMGMT_RXR_CONS : Nat := 0x110114
/-- Key of MGMT_RXR_DROP (R322). -/
def rMGMT_RXR_DROP : Nat := 0x110118
/-- Key of MGMT_RXR_DATA_BASE0 (R322). -/
def rMGMT_RXR_DATA_BASE0 : Nat := 0x110120
/-- Key of MGMT_TXR_BASE (R322). -/
def rMGMT_TXR_BASE : Nat := 0x110140
/-- Key of MGMT_TXR_SIZE_LOG2 (R322). -/
def rMGMT_TXR_SIZE_LOG2 : Nat := 0x110148
/-- Key of MGMT_TXR_CTRL (R322). -/
def rMGMT_TXR_CTRL : Nat := 0x11014C
/-- Key of MGMT_TXR_PROD (R322). -/
def rMGMT_TXR_PROD : Nat := 0x110150
/-- Key of MGMT_TXR_CONS (R322). -/
def rMGMT_TXR_CONS : Nat := 0x110154
/-- The registers of this page (R322). -/
def rows_mgmt : List RegRow := [
  ⟨0x40, 1, 4, 32, .rwl, 0x0, 0x1F, false⟩,
  ⟨0x44, 1, 4, 32, .ro, 0x0, 0xF, false⟩,
  ⟨0x48, 1, 4, 64, .rw, 0x0, 0xFFFFFFFFFFFF, false⟩,
  ⟨0x50, 1, 4, 32, .rw, 0x0, 0xFFFCFFFF, false⟩,
  ⟨0x80, 28, 4, 32, .ro, 0x0, 0xFFFFFFFF, true⟩,
  ⟨0x100, 1, 64, 64, .rw, 0x0, 0xFFFFFFFFFFFFF000, false⟩,
  ⟨0x108, 1, 64, 32, .rw, 0x0, 0xF, false⟩,
  ⟨0x10C, 1, 64, 32, .rw, 0x0, 0x1, false⟩,
  ⟨0x110, 1, 64, 32, .ro, 0x0, 0xFFFFFFFF, false⟩,
  ⟨0x114, 1, 64, 32, .rw, 0x0, 0xFFFFFFFF, false⟩,
  ⟨0x118, 1, 64, 32, .ro, 0x0, 0xFFFFFFFF, true⟩,
  ⟨0x120, 1, 4, 64, .rw, 0x0, 0xFFFFFFFFFFFFF000, false⟩,
  ⟨0x140, 1, 64, 64, .rw, 0x0, 0xFFFFFFFFFFFFF000, false⟩,
  ⟨0x148, 1, 64, 32, .rw, 0x0, 0xF, false⟩,
  ⟨0x14C, 1, 64, 32, .rw, 0x0, 0x1, false⟩,
  ⟨0x150, 1, 64, 32, .rw, 0x0, 0xFFFFFFFF, false⟩,
  ⟨0x154, 1, 64, 32, .ro, 0x0, 0xFFFFFFFF, false⟩]

/- bmb (R325). -/
/-- Key of BMB_CTRL (R325). -/
def rBMB_CTRL : Nat := 0x1B0040
/-- Key of BMB_CMD (R325). -/
def rBMB_CMD : Nat := 0x1B0044
/-- Key of BMB_STAT (R325). -/
def rBMB_STAT : Nat := 0x1B0048
/-- Key of BMB_DATA0 (R325). -/
def rBMB_DATA0 : Nat := 0x1B0050
/-- Key of BMB_DATA1 (R325). -/
def rBMB_DATA1 : Nat := 0x1B0054
/-- Key of BMB_DATA2 (R325). -/
def rBMB_DATA2 : Nat := 0x1B0058
/-- Key of BMB_DATA3 (R325). -/
def rBMB_DATA3 : Nat := 0x1B005C
/-- Key of BMB_DATA4 (R325). -/
def rBMB_DATA4 : Nat := 0x1B0060
/-- Key of BMB_DATA5 (R325). -/
def rBMB_DATA5 : Nat := 0x1B0064
/-- Key of BMB_DATA6 (R325). -/
def rBMB_DATA6 : Nat := 0x1B0068
/-- Key of BMB_DATA7 (R325). -/
def rBMB_DATA7 : Nat := 0x1B006C
/-- Key of BMB_MOD_STATE (R325). -/
def rBMB_MOD_STATE : Nat := 0x1B0100
/-- Key of BMB_MOD_CTRL (R325). -/
def rBMB_MOD_CTRL : Nat := 0x1B0104
/-- The registers of this page (R325). -/
def rows_bmb : List RegRow := [
  ⟨0x40, 2, 64, 32, .rw, 0x0, 0xF, false⟩,
  ⟨0x44, 2, 64, 32, .wo, 0x0, 0x73FFFF, false⟩,
  ⟨0x48, 2, 64, 32, .ro, 0x0, 0xFF0F7F, false⟩,
  ⟨0x50, 2, 64, 32, .rw, 0x0, 0xFFFFFFFF, false⟩,
  ⟨0x54, 2, 64, 32, .rw, 0x0, 0xFFFFFFFF, false⟩,
  ⟨0x58, 2, 64, 32, .rw, 0x0, 0xFFFFFFFF, false⟩,
  ⟨0x5C, 2, 64, 32, .rw, 0x0, 0xFFFFFFFF, false⟩,
  ⟨0x60, 2, 64, 32, .rw, 0x0, 0xFFFFFFFF, false⟩,
  ⟨0x64, 2, 64, 32, .rw, 0x0, 0xFFFFFFFF, false⟩,
  ⟨0x68, 2, 64, 32, .rw, 0x0, 0xFFFFFFFF, false⟩,
  ⟨0x6C, 2, 64, 32, .rw, 0x0, 0xFFFFFFFF, false⟩,
  ⟨0x100, 1, 4, 32, .ro, 0x0, 0xFF, false⟩,
  ⟨0x104, 1, 4, 32, .rw, 0xFF, 0xFF, false⟩]

/- twin0 (R354). -/
/-- Key of TWIN_CFG (R354). -/
def rTWIN_CFG : Nat := 0x120040
/-- Key of TWIN_STATE (R354). -/
def rTWIN_STATE : Nat := 0x120044
/-- Key of TWIN_CMD (R354). -/
def rTWIN_CMD : Nat := 0x120048
/-- Key of TWIN_CH_SHADOW (R354). -/
def rTWIN_CH_SHADOW : Nat := 0x12004C
/-- Key of TWIN_CH_COPYING (R354). -/
def rTWIN_CH_COPYING : Nat := 0x120050
/-- Key of TWIN_BULK_LEFT (R354). -/
def rTWIN_BULK_LEFT : Nat := 0x120054
/-- Key of TWIN_PAIR_ID (R354). -/
def rTWIN_PAIR_ID : Nat := 0x120058
/-- Key of TWIN_LAST_TAKEOVER (R354). -/
def rTWIN_LAST_TAKEOVER : Nat := 0x120060
/-- The registers of this page (R354). -/
def rows_twin0 : List RegRow := [
  ⟨0x40, 1, 4, 32, .rwl, 0x8004, 0xFF07, false⟩,
  ⟨0x44, 1, 4, 32, .ro, 0x0, 0x1FFF, false⟩,
  ⟨0x48, 1, 4, 32, .wo, 0x0, 0x3, false⟩,
  ⟨0x4C, 1, 4, 32, .ro, 0x0, 0xFFFFFFFF, false⟩,
  ⟨0x50, 1, 4, 32, .ro, 0x0, 0xFFFFFFFF, false⟩,
  ⟨0x54, 1, 4, 32, .ro, 0x0, 0xFFFFFFFF, false⟩,
  ⟨0x58, 1, 4, 64, .ro, 0x0, 0xFFFFFFFFFFFFFFFF, false⟩,
  ⟨0x60, 1, 4, 32, .ro, 0x0, 0xFFFFFFFF, false⟩]

/- twin1 (R355). -/
/-- Key of TWIN_CNT_HB_MISS (R355). -/
def rTWIN_CNT_HB_MISS : Nat := 0x121040
/-- Key of TWIN_CNT_RECORDS (R355). -/
def rTWIN_CNT_RECORDS : Nat := 0x121044
/-- Key of TWIN_CNT_DIGEST_MISMATCH (R355). -/
def rTWIN_CNT_DIGEST_MISMATCH : Nat := 0x121048
/-- Key of TWIN_CNT_RESYNC (R355). -/
def rTWIN_CNT_RESYNC : Nat := 0x12104C
/-- Key of TWIN_CNT_TAKEOVER (R355). -/
def rTWIN_CNT_TAKEOVER : Nat := 0x121050
/-- Key of TWIN_CNT_CATCHUP (R355). -/
def rTWIN_CNT_CATCHUP : Nat := 0x121054
/-- Key of TWIN_CNT_LINK_RETRY (R355). -/
def rTWIN_CNT_LINK_RETRY : Nat := 0x121058
/-- Key of TWIN_CNT_OP_FWD (R355). -/
def rTWIN_CNT_OP_FWD : Nat := 0x12105C
/-- The registers of this page (R355). -/
def rows_twin1 : List RegRow := [
  ⟨0x40, 1, 4, 32, .ro, 0x0, 0xFFFFFFFF, true⟩,
  ⟨0x44, 1, 4, 32, .ro, 0x0, 0xFFFFFFFF, true⟩,
  ⟨0x48, 1, 4, 32, .ro, 0x0, 0xFFFFFFFF, true⟩,
  ⟨0x4C, 1, 4, 32, .ro, 0x0, 0xFFFFFFFF, true⟩,
  ⟨0x50, 1, 4, 32, .ro, 0x0, 0xFFFFFFFF, true⟩,
  ⟨0x54, 1, 4, 32, .ro, 0x0, 0xFFFFFFFF, true⟩,
  ⟨0x58, 1, 4, 32, .ro, 0x0, 0xFFFFFFFF, true⟩,
  ⟨0x5C, 1, 4, 32, .ro, 0x0, 0xFFFFFFFF, true⟩]

/- twin2 (R356). -/
/-- Key of TWIN_TIME_OFFSET (R356). -/
def rTWIN_TIME_OFFSET : Nat := 0x122040
/-- Key of TWIN_LINK_DELAY (R356). -/
def rTWIN_LINK_DELAY : Nat := 0x122044
/-- Key of TWIN_LINK_ASYM (R356). -/
def rTWIN_LINK_ASYM : Nat := 0x122048
/-- Key of TWIN_LOCK_LIMIT (R356). -/
def rTWIN_LOCK_LIMIT : Nat := 0x12204C
/-- The registers of this page (R356). -/
def rows_twin2 : List RegRow := [
  ⟨0x40, 1, 4, 32, .ro, 0x0, 0xFFFFFFFF, false⟩,
  ⟨0x44, 1, 4, 32, .ro, 0x0, 0xFFFFFFFF, false⟩,
  ⟨0x48, 1, 4, 32, .rw, 0x0, 0xFFFF, false⟩,
  ⟨0x4C, 1, 4, 32, .rwl, 0x32, 0xFFFFFFFF, false⟩]

/- rec0 (R380). -/
/-- Key of REC_DRAIN (R380). -/
def rREC_DRAIN : Nat := 0x130040
/-- Key of REC_STREAMS (R380). -/
def rREC_STREAMS : Nat := 0x130044
/-- Key of REC_CNT_UNITS (R380). -/
def rREC_CNT_UNITS : Nat := 0x130048
/-- Key of REC_CNT_RAW (R380). -/
def rREC_CNT_RAW : Nat := 0x13004C
/-- Key of REC_CNT_SPILLED (R380). -/
def rREC_CNT_SPILLED : Nat := 0x130050
/-- Key of REC_CNT_DRAINED (R380). -/
def rREC_CNT_DRAINED : Nat := 0x130054
/-- Key of REC_CNT_LOST (R380). -/
def rREC_CNT_LOST : Nat := 0x130058
/-- Key of REC_STAGE_USED (R380). -/
def rREC_STAGE_USED : Nat := 0x13005C
/-- Key of REC_BYTES_IN (R380). -/
def rREC_BYTES_IN : Nat := 0x130060
/-- Key of REC_BYTES_OUT (R380). -/
def rREC_BYTES_OUT : Nat := 0x130064
/-- The registers of this page (R380). -/
def rows_rec0 : List RegRow := [
  ⟨0x40, 1, 4, 32, .rw, 0x30D40, 0xFFFFF, false⟩,
  ⟨0x44, 1, 4, 32, .ro, 0x0, 0xFFFFFFFF, false⟩,
  ⟨0x48, 1, 4, 32, .ro, 0x0, 0xFFFFFFFF, true⟩,
  ⟨0x4C, 1, 4, 32, .ro, 0x0, 0xFFFFFFFF, true⟩,
  ⟨0x50, 1, 4, 32, .ro, 0x0, 0xFFFFFFFF, true⟩,
  ⟨0x54, 1, 4, 32, .ro, 0x0, 0xFFFFFFFF, true⟩,
  ⟨0x58, 1, 4, 32, .ro, 0x0, 0xFFFFFFFF, true⟩,
  ⟨0x5C, 1, 4, 32, .ro, 0x0, 0xFFFFFFFF, false⟩,
  ⟨0x60, 1, 4, 32, .ro, 0x0, 0xFFFFFFFF, true⟩,
  ⟨0x64, 1, 4, 32, .ro, 0x0, 0xFFFFFFFF, true⟩]

/- rec1 (R380). -/
/-- Key of REC_SP_SEL (R380). -/
def rREC_SP_SEL : Nat := 0x131040
/-- Key of REC_SP_STATE (R380). -/
def rREC_SP_STATE : Nat := 0x131044
/-- Key of REC_SP_CAP (R380). -/
def rREC_SP_CAP : Nat := 0x131048
/-- Key of REC_SP_USED (R380). -/
def rREC_SP_USED : Nat := 0x13104C
/-- Key of REC_SP_UNITS (R380). -/
def rREC_SP_UNITS : Nat := 0x131050
/-- Key of REC_SP_CMD (R380). -/
def rREC_SP_CMD : Nat := 0x131054
/-- The registers of this page (R380). -/
def rows_rec1 : List RegRow := [
  ⟨0x40, 1, 4, 32, .rw, 0x0, 0x3FF, false⟩,
  ⟨0x44, 1, 4, 32, .ro, 0x0, 0x7, false⟩,
  ⟨0x48, 1, 4, 32, .ro, 0x0, 0xFFFFFFFF, false⟩,
  ⟨0x4C, 1, 4, 32, .ro, 0x0, 0xFFFFFFFF, false⟩,
  ⟨0x50, 1, 4, 32, .ro, 0x0, 0xFFFFFFFF, false⟩,
  ⟨0x54, 1, 4, 32, .wo, 0x0, 0x1, false⟩]

/- flash0 (R381). -/
/-- Key of FLASH_CFG (R381). -/
def rFLASH_CFG : Nat := 0x140040
/-- Key of FLASH_STATUS (R381). -/
def rFLASH_STATUS : Nat := 0x140044
/-- Key of FLASH_LIFE (R381). -/
def rFLASH_LIFE : Nat := 0x140048
/-- Key of FLASH_FLUSH_US (R381). -/
def rFLASH_FLUSH_US : Nat := 0x14004C
/-- Key of FLASH_BAD (R381). -/
def rFLASH_BAD : Nat := 0x140050
/-- Key of FLASH_SCRUB_CTRL (R381). -/
def rFLASH_SCRUB_CTRL : Nat := 0x140054
/-- Key of FLASH_WL_SPREAD (R381). -/
def rFLASH_WL_SPREAD : Nat := 0x140058
/-- Key of FLASH_RGN (R381). -/
def rFLASH_RGN : Nat := 0x14005C
/-- Key of FLASH_JRN (R381). -/
def rFLASH_JRN : Nat := 0x140060
/-- Key of FLASH_CAL (R381). -/
def rFLASH_CAL : Nat := 0x140064
/-- Key of FLASH_CAL_SEQ (R381). -/
def rFLASH_CAL_SEQ : Nat := 0x140068
/-- Key of FLASH_SPOOL_MIB (R381). -/
def rFLASH_SPOOL_MIB : Nat := 0x14006C
/-- The registers of this page (R381). -/
def rows_flash0 : List RegRow := [
  ⟨0x40, 1, 4, 32, .ro, 0x0, 0xFFFFFFFF, false⟩,
  ⟨0x44, 1, 4, 32, .ro, 0x0, 0xF, false⟩,
  ⟨0x48, 1, 4, 32, .ro, 0x0, 0xFFFF00FF, false⟩,
  ⟨0x4C, 1, 4, 32, .ro, 0x0, 0xFFFFFFFF, false⟩,
  ⟨0x50, 1, 4, 32, .ro, 0x0, 0xFFFFFFFF, false⟩,
  ⟨0x54, 1, 4, 32, .rwl, 0x2800005A, 0xFF00FFFF, false⟩,
  ⟨0x58, 1, 4, 32, .rwl, 0xC8, 0xFFFF, false⟩,
  ⟨0x5C, 1, 4, 32, .rwl, 0x80001000, 0x8000FFFF, false⟩,
  ⟨0x60, 1, 4, 32, .ro, 0x0, 0xFFFFFFFF, false⟩,
  ⟨0x64, 1, 4, 32, .ro, 0x0, 0x3, false⟩,
  ⟨0x68, 1, 4, 32, .ro, 0x0, 0xFFFFFFFF, false⟩,
  ⟨0x6C, 1, 4, 32, .ro, 0x0, 0xFFFFFFFF, false⟩]

/- flash1 (R382). -/
/-- Key of FLASH_XF_REGION (R382). -/
def rFLASH_XF_REGION : Nat := 0x141040
/-- Key of FLASH_XF_OFFSET (R382). -/
def rFLASH_XF_OFFSET : Nat := 0x141048
/-- Key of FLASH_XF_HOST (R382). -/
def rFLASH_XF_HOST : Nat := 0x141050
/-- Key of FLASH_XF_LEN (R382). -/
def rFLASH_XF_LEN : Nat := 0x141058
/-- Key of FLASH_XF_OP (R382). -/
def rFLASH_XF_OP : Nat := 0x14105C
/-- Key of FLASH_XF_STATUS (R382). -/
def rFLASH_XF_STATUS : Nat := 0x141060
/-- The registers of this page (R382). -/
def rows_flash1 : List RegRow := [
  ⟨0x40, 1, 4, 32, .rw, 0x0, 0x7, false⟩,
  ⟨0x48, 1, 4, 64, .rw, 0x0, 0xFFFFFFFFFFFFFFFF, false⟩,
  ⟨0x50, 1, 4, 64, .rw, 0x0, 0xFFFFFFFFFFFFFFFF, false⟩,
  ⟨0x58, 1, 4, 32, .rw, 0x0, 0xFFFFFFFF, false⟩,
  ⟨0x5C, 1, 4, 32, .wo, 0x0, 0x7, false⟩,
  ⟨0x60, 1, 4, 32, .ro, 0x0, 0x800000FF, false⟩]

/- lfe (R408). -/
/-- Key of LFE_COM_CTRL (R408). -/
def rLFE_COM_CTRL : Nat := 0x150040
/-- Key of LFE_COM_RESET_AT (R408). -/
def rLFE_COM_RESET_AT : Nat := 0x150044
/-- Key of LFE_COM_LAST_RESET (R408). -/
def rLFE_COM_LAST_RESET : Nat := 0x150048
/-- Key of LFE_COM_HOLD (R408). -/
def rLFE_COM_HOLD : Nat := 0x15004C
/-- Key of LFE_COM_BLANK (R408). -/
def rLFE_COM_BLANK : Nat := 0x150050
/-- Key of LFE_COM_CAL (R408). -/
def rLFE_COM_CAL : Nat := 0x150054
/-- Key of LFE_CNT_STALE (R408). -/
def rLFE_CNT_STALE : Nat := 0x150058
/-- The registers of this page (R408). -/
def rows_lfe : List RegRow := [
  ⟨0x40, 1, 4, 32, .rw, 0x0, 0x7, false⟩,
  ⟨0x44, 1, 4, 32, .rw, 0x0, 0xFFFFFFFF, false⟩,
  ⟨0x48, 1, 4, 32, .ro, 0x0, 0xFFFFFFFF, false⟩,
  ⟨0x4C, 1, 4, 32, .ro, 0xFFFFFFFF, 0xFFFFFFFF, false⟩,
  ⟨0x50, 1, 4, 32, .ro, 0x0, 0xFFFFFFFF, false⟩,
  ⟨0x54, 1, 4, 32, .ro, 0x0, 0x3, false⟩,
  ⟨0x58, 1, 4, 32, .ro, 0x0, 0xFFFFFFFF, true⟩]

/- lfeLine (R409). -/
/-- Offset of LFE_LN_CFG (R409). -/
def oLFE_LN_CFG : Nat := 0x40
/-- Offset of LFE_LN_BIND (R409). -/
def oLFE_LN_BIND : Nat := 0x44
/-- Offset of LFE_LN_BIND_CTRL (R409). -/
def oLFE_LN_BIND_CTRL : Nat := 0x48
/-- Offset of LFE_LN_DC (R409). -/
def oLFE_LN_DC : Nat := 0x4C
/-- Offset of LFE_LN_HOLD (R409). -/
def oLFE_LN_HOLD : Nat := 0x50
/-- Offset of LFE_LN_ICAP (R409). -/
def oLFE_LN_ICAP : Nat := 0x54
/-- Offset of LFE_LN_VOICE (R409). -/
def oLFE_LN_VOICE : Nat := 0x58
/-- Offset of LFE_LN_HR (R409). -/
def oLFE_LN_HR : Nat := 0x5C
/-- Offset of LFE_LN_RING (R409). -/
def oLFE_LN_RING : Nat := 0x60
/-- Offset of LFE_LN_RING_CTRL (R409). -/
def oLFE_LN_RING_CTRL : Nat := 0x64
/-- Offset of LFE_LN_RING_ON_CMD (R409). -/
def oLFE_LN_RING_ON_CMD : Nat := 0x68
/-- Offset of LFE_LN_RING_OFF_CMD (R409). -/
def oLFE_LN_RING_OFF_CMD : Nat := 0x6C
/-- Offset of LFE_LN_SW (R409). -/
def oLFE_LN_SW : Nat := 0x70
/-- Offset of LFE_LN_STATUS (R409). -/
def oLFE_LN_STATUS : Nat := 0x80
/-- Offset of LFE_LN_I_FINE (R409). -/
def oLFE_LN_I_FINE : Nat := 0x84
/-- Offset of LFE_LN_I_MEAS (R409). -/
def oLFE_LN_I_MEAS : Nat := 0x88
/-- Offset of LFE_LN_VT (R409). -/
def oLFE_LN_VT : Nat := 0x8C
/-- Offset of LFE_LN_VR (R409). -/
def oLFE_LN_VR : Nat := 0x90
/-- Offset of LFE_LN_COARSE (R409). -/
def oLFE_LN_COARSE : Nat := 0x94
/-- Offset of LFE_LN_ICMD (R409). -/
def oLFE_LN_ICMD : Nat := 0x98
/-- Offset of LFE_LN_CNT_SAT (R409). -/
def oLFE_LN_CNT_SAT : Nat := 0x9C
/-- Offset of LFE_LN_CNT_RANGE (R409). -/
def oLFE_LN_CNT_RANGE : Nat := 0xA0
/-- The registers of this page (R409). -/
def rows_lfeLine : List RegRow := [
  ⟨0x40, 1, 4, 32, .rw, 0x60800000, 0xFFFF03FF, false⟩,
  ⟨0x44, 1, 4, 32, .rw, 0x0, 0xFFFFFFFF, false⟩,
  ⟨0x48, 1, 4, 32, .rw, 0x0, 0x3, false⟩,
  ⟨0x4C, 1, 4, 32, .rw, 0x0, 0xFFFF, false⟩,
  ⟨0x50, 1, 4, 32, .rw, 0x0, 0xFFFF, false⟩,
  ⟨0x54, 1, 4, 32, .rwl, 0x2710, 0xFFFF, false⟩,
  ⟨0x58, 1, 4, 32, .rw, 0x7D0, 0xFFFF, false⟩,
  ⟨0x5C, 1, 4, 32, .rw, 0xC8, 0xFFFF, false⟩,
  ⟨0x60, 1, 4, 32, .rw, 0x3E80FA0, 0xFFFFFFFF, false⟩,
  ⟨0x64, 1, 4, 32, .rw, 0x40000528, 0xC000FFFF, false⟩,
  ⟨0x68, 1, 4, 32, .rw, 0x0, 0xFFFFFFFF, false⟩,
  ⟨0x6C, 1, 4, 32, .rw, 0x0, 0xFFFFFFFF, false⟩,
  ⟨0x70, 4, 4, 32, .rw, 0x0, 0xFFFFFFFF, false⟩,
  ⟨0x80, 1, 4, 32, .ro, 0x20000000, 0xFF0000FF, false⟩,
  ⟨0x84, 1, 4, 32, .ro, 0x0, 0xFFFFF, false⟩,
  ⟨0x88, 1, 4, 32, .ro, 0x0, 0xFFFF, false⟩,
  ⟨0x8C, 1, 4, 32, .ro, 0x0, 0x3FFFF, false⟩,
  ⟨0x90, 1, 4, 32, .ro, 0x0, 0x3FFFF, false⟩,
  ⟨0x94, 1, 4, 32, .ro, 0x0, 0x3FFFFFF, false⟩,
  ⟨0x98, 1, 4, 32, .ro, 0x0, 0xFFFF, false⟩,
  ⟨0x9C, 1, 4, 32, .ro, 0x0, 0xFFFFFFFF, true⟩,
  ⟨0xA0, 1, 4, 32, .ro, 0x0, 0xFFFFFFFF, true⟩]

/- sce (R410). -/
/-- Key of SCE_CTRL (R410). -/
def rSCE_CTRL : Nat := 0x180040
/-- Key of SCE_CMD (R410). -/
def rSCE_CMD : Nat := 0x180044
/-- Key of SCE_STATE (R410). -/
def rSCE_STATE : Nat := 0x180048
/-- Key of SCE_ABORT (R410). -/
def rSCE_ABORT : Nat := 0x18004C
/-- Key of SCE_STALL_MAX (R410). -/
def rSCE_STALL_MAX : Nat := 0x180050
/-- Key of SCE_START (R410). -/
def rSCE_START : Nat := 0x180054
/-- Key of SCE_TXQ (R410). -/
def rSCE_TXQ : Nat := 0x180058
/-- Key of SCE_RXQ (R410). -/
def rSCE_RXQ : Nat := 0x18005C
/-- Key of SCE_QSTAT (R410). -/
def rSCE_QSTAT : Nat := 0x180060
/-- Key of SCE_PM_ADDR (R410). -/
def rSCE_PM_ADDR : Nat := 0x180064
/-- Key of SCE_PM_DATA (R410). -/
def rSCE_PM_DATA : Nat := 0x180068
/-- The registers of this page (R410). -/
def rows_sce : List RegRow := [
  ⟨0x40, 1, 4, 32, .rwl, 0xF, 0x1FF, false⟩,
  ⟨0x44, 1, 4, 32, .wo, 0x0, 0x3, false⟩,
  ⟨0x48, 1, 4, 32, .ro, 0x0, 0x1FF0003, false⟩,
  ⟨0x4C, 1, 4, 32, .ro, 0x0, 0x80003F3F, false⟩,
  ⟨0x50, 1, 4, 32, .rw, 0x3E8, 0xFFFF, false⟩,
  ⟨0x54, 1, 4, 32, .rw, 0x0, 0x1FF, false⟩,
  ⟨0x58, 1, 4, 32, .wo, 0x0, 0xFFFFFFFF, false⟩,
  ⟨0x5C, 1, 4, 32, .ro, 0x0, 0xFFFFFFFF, false⟩,
  ⟨0x60, 1, 4, 32, .ro, 0x0, 0xFFFFFFFF, false⟩,
  ⟨0x64, 1, 4, 32, .rw, 0x0, 0x1FF, false⟩,
  ⟨0x68, 1, 4, 32, .rw, 0x0, 0xFFFFFFFF, false⟩]

/- clu0 (R429). -/
/-- Key of CLU_CFG (R429). -/
def rCLU_CFG : Nat := 0x190040
/-- Key of CLU_STATE (R429). -/
def rCLU_STATE : Nat := 0x190044
/-- Key of CLU_CABLE (R429). -/
def rCLU_CABLE : Nat := 0x190048
/-- Key of CLU_OFFSET (R429). -/
def rCLU_OFFSET : Nat := 0x19004C
/-- Key of CLU_LAST_PULSE (R429). -/
def rCLU_LAST_PULSE : Nat := 0x190050
/-- Key of CLU_PULSE_MISS (R429). -/
def rCLU_PULSE_MISS : Nat := 0x190054
/-- Key of CLU_MSG_ERR (R429). -/
def rCLU_MSG_ERR : Nat := 0x190058
/-- The registers of this page (R429). -/
def rows_clu0 : List RegRow := [
  ⟨0x40, 1, 4, 32, .rwl, 0x0, 0x8000000F, false⟩,
  ⟨0x44, 1, 4, 32, .ro, 0x0, 0xFFFF001B, false⟩,
  ⟨0x48, 1, 4, 32, .rw, 0x0, 0xFFFF, false⟩,
  ⟨0x4C, 1, 4, 32, .ro, 0x0, 0xFFFFFFFF, false⟩,
  ⟨0x50, 1, 4, 32, .ro, 0x0, 0xFFFFFFFF, false⟩,
  ⟨0x54, 1, 4, 32, .ro, 0x0, 0xFFFFFFFF, true⟩,
  ⟨0x58, 1, 4, 32, .ro, 0x0, 0xFFFFFFFF, true⟩]

/- clu1 (R429). -/
/-- CLU_WSTATw is 4w above this key, w from 1 to 15 (R429). -/
def rCLU_WSTAT : Nat := 0x191040
/-- The registers of this page (R429). -/
def rows_clu1 : List RegRow := [
  ⟨0x44, 15, 4, 32, .ro, 0x0, 0xFE00FFFF, false⟩]

/- fab0 (R430). -/
/-- Key of FAB_CFG (R430). -/
def rFAB_CFG : Nat := 0x1A0040
/-- Key of FAB_ADDR (R430). -/
def rFAB_ADDR : Nat := 0x1A0044
/-- Key of FAB_DEV_ID (R430). -/
def rFAB_DEV_ID : Nat := 0x1A0048
/-- Key of FAB_PORTS (R430). -/
def rFAB_PORTS : Nat := 0x1A0050
/-- Key of FAB_HOP_NS (R430). -/
def rFAB_HOP_NS : Nat := 0x1A0054
/-- Key of FAB_PEERS (R430). -/
def rFAB_PEERS : Nat := 0x1A0058
/-- The registers of this page (R430). -/
def rows_fab0 : List RegRow := [
  ⟨0x40, 1, 4, 32, .rwl, 0x0, 0xCFFF0FFF, false⟩,
  ⟨0x44, 1, 4, 32, .ro, 0x0, 0x80000FFF, false⟩,
  ⟨0x48, 1, 4, 64, .ro, 0x0, 0xFFFFFFFFFFFFFFFF, false⟩,
  ⟨0x50, 1, 4, 32, .rwl, 0x0, 0xF, false⟩,
  ⟨0x54, 1, 4, 32, .rwl, 0x2710, 0xFFFFF, false⟩,
  ⟨0x58, 1, 4, 32, .ro, 0x0, 0x1FFF00FF, false⟩]

/- fab1 (R430). -/
/-- Key of FAB_RT_SEL (R430). -/
def rFAB_RT_SEL : Nat := 0x1A1040
/-- Key of FAB_RT_INFO (R430). -/
def rFAB_RT_INFO : Nat := 0x1A1044
/-- The registers of this page (R430). -/
def rows_fab1 : List RegRow := [
  ⟨0x40, 1, 4, 32, .rw, 0x0, 0xFFF, false⟩,
  ⟨0x44, 1, 4, 32, .ro, 0x0, 0x800F3FFF, false⟩]

/- fab2 (R430). -/
/-- Key of FAB_TRK_SEL (R430). -/
def rFAB_TRK_SEL : Nat := 0x1A2040
/-- Key of FAB_TRK_CTRL (R430). -/
def rFAB_TRK_CTRL : Nat := 0x1A2044
/-- Key of FAB_TRK_REMOTE (R430). -/
def rFAB_TRK_REMOTE : Nat := 0x1A2048
/-- The registers of this page (R430). -/
def rows_fab2 : List RegRow := [
  ⟨0x40, 1, 4, 32, .rw, 0x0, 0xFFFFFFFF, false⟩,
  ⟨0x44, 1, 4, 32, .rw, 0x0, 0x80030FFF, false⟩,
  ⟨0x48, 1, 4, 32, .rw, 0x0, 0xFFFFFFFF, false⟩]

/- fab3 (R430). -/
/-- Key of FAB_CNT_FOREIGN (R430). -/
def rFAB_CNT_FOREIGN : Nat := 0x1A3040
/-- Key of FAB_CNT_STALE (R430). -/
def rFAB_CNT_STALE : Nat := 0x1A3044
/-- Key of FAB_CNT_LATE (R430). -/
def rFAB_CNT_LATE : Nat := 0x1A3048
/-- Key of FAB_CNT_UNREACH (R430). -/
def rFAB_CNT_UNREACH : Nat := 0x1A304C
/-- Key of FAB_CNT_HOPS (R430). -/
def rFAB_CNT_HOPS : Nat := 0x1A3050
/-- The registers of this page (R430). -/
def rows_fab3 : List RegRow := [
  ⟨0x40, 1, 4, 32, .ro, 0x0, 0xFFFFFFFF, true⟩,
  ⟨0x44, 1, 4, 32, .ro, 0x0, 0xFFFFFFFF, true⟩,
  ⟨0x48, 1, 4, 32, .ro, 0x0, 0xFFFFFFFF, true⟩,
  ⟨0x4C, 1, 4, 32, .ro, 0x0, 0xFFFFFFFF, true⟩,
  ⟨0x50, 1, 4, 32, .ro, 0x0, 0xFFFFFFFF, true⟩]

/- pwr0 (R449). -/
/-- Key of PWR_STATE (R449). -/
def rPWR_STATE : Nat := 0x2040
/-- Key of PWR_CMD (R449). -/
def rPWR_CMD : Nat := 0x2044
/-- Key of PWR_CFG (R449). -/
def rPWR_CFG : Nat := 0x2048
/-- Key of PWR_FAULT (R449). -/
def rPWR_FAULT : Nat := 0x204C
/-- Key of PWR_STATE_TIME (R449). -/
def rPWR_STATE_TIME : Nat := 0x2050
/-- Key of PWR_WAKE_SRC (R449). -/
def rPWR_WAKE_SRC : Nat := 0x2054
/-- Key of PWR_STRAPS (R449). -/
def rPWR_STRAPS : Nat := 0x2058
/-- The registers of this page (R449). -/
def rows_pwr0 : List RegRow := [
  ⟨0x40, 1, 4, 32, .ro, 0x1, 0xF07, false⟩,
  ⟨0x44, 1, 4, 32, .wo, 0x0, 0x7, false⟩,
  ⟨0x48, 1, 4, 32, .rwl, 0x1, 0x3, false⟩,
  ⟨0x4C, 1, 4, 32, .ro, 0x0, 0xFFFF, false⟩,
  ⟨0x50, 1, 4, 32, .ro, 0x0, 0xFFFFFFFF, false⟩,
  ⟨0x54, 1, 4, 32, .ro, 0x0, 0x1FF, false⟩,
  ⟨0x58, 1, 4, 32, .ro, 0x0, 0x7, false⟩]

/- pwr1 (R450). -/
/-- Key of PWR_BOOT_SLOT (R450). -/
def rPWR_BOOT_SLOT : Nat := 0x3040
/-- Key of PWR_BOOT_VER (R450). -/
def rPWR_BOOT_VER : Nat := 0x3044
/-- Key of PWR_ROLLBACK (R450). -/
def rPWR_ROLLBACK : Nat := 0x3048
/-- Key of PWR_ROLLBACK_COMMIT (R450). -/
def rPWR_ROLLBACK_COMMIT : Nat := 0x304C
/-- Key of PWR_RECOV_CTRL (R450). -/
def rPWR_RECOV_CTRL : Nat := 0x3050
/-- Key of PWR_RECOV_LEN (R450). -/
def rPWR_RECOV_LEN : Nat := 0x3054
/-- The registers of this page (R450). -/
def rows_pwr1 : List RegRow := [
  ⟨0x40, 1, 4, 32, .ro, 0x0, 0x7, false⟩,
  ⟨0x44, 1, 4, 32, .ro, 0x0, 0xFFFFFFFF, false⟩,
  ⟨0x48, 1, 4, 32, .ro, 0x0, 0x7F, false⟩,
  ⟨0x4C, 1, 4, 32, .wo, 0x0, 0xFF, false⟩,
  ⟨0x50, 1, 4, 32, .rw, 0x0, 0x3, false⟩,
  ⟨0x54, 1, 4, 32, .rw, 0x0, 0xFFFFFFF, false⟩]

/- pwr2 (R451). -/
/-- Key of PWR_DBG_CHAL (R451). -/
def rPWR_DBG_CHAL : Nat := 0x4040
/-- Key of PWR_DBG_RESP (R451). -/
def rPWR_DBG_RESP : Nat := 0x4060
/-- Key of PWR_DBG_CTRL (R451). -/
def rPWR_DBG_CTRL : Nat := 0x40A0
/-- Key of PWR_DBG_FAIL (R451). -/
def rPWR_DBG_FAIL : Nat := 0x40A4
/-- Key of PWR_TJ_AVG (R451). -/
def rPWR_TJ_AVG : Nat := 0x40A8
/-- Key of PWR_AGE (R451). -/
def rPWR_AGE : Nat := 0x40AC
/-- The registers of this page (R451). -/
def rows_pwr2 : List RegRow := [
  ⟨0x40, 8, 4, 32, .ro, 0x0, 0xFFFFFFFF, false⟩,
  ⟨0x60, 16, 4, 32, .wo, 0x0, 0xFFFFFFFF, false⟩,
  ⟨0xA0, 1, 4, 32, .rw, 0x0, 0x1, false⟩,
  ⟨0xA4, 1, 4, 32, .ro, 0x0, 0xF, false⟩,
  ⟨0xA8, 1, 4, 32, .ro, 0x0, 0xFFFF, false⟩,
  ⟨0xAC, 1, 4, 32, .ro, 0x0, 0xFF, false⟩]

/- mac1 (R317). -/
/-- Offset of MAC_RX_OCTETS (R317). -/
def oMAC_RX_OCTETS : Nat := 0x40
/-- Offset of MAC_RX_FRAMES (R317). -/
def oMAC_RX_FRAMES : Nat := 0x44
/-- Offset of MAC_RX_SIZE0 (R317). -/
def oMAC_RX_SIZE0 : Nat := 0x48
/-- Offset of MAC_RX_SIZE1 (R317). -/
def oMAC_RX_SIZE1 : Nat := 0x4C
/-- Offset of MAC_RX_SIZE2 (R317). -/
def oMAC_RX_SIZE2 : Nat := 0x50
/-- Offset of MAC_RX_SIZE3 (R317). -/
def oMAC_RX_SIZE3 : Nat := 0x54
/-- Offset of MAC_RX_SIZE4 (R317). -/
def oMAC_RX_SIZE4 : Nat := 0x58
/-- Offset of MAC_RX_SIZE5 (R317). -/
def oMAC_RX_SIZE5 : Nat := 0x5C
/-- Offset of MAC_RX_SIZE6 (R317). -/
def oMAC_RX_SIZE6 : Nat := 0x60
/-- Offset of MAC_RX_UCAST (R317). -/
def oMAC_RX_UCAST : Nat := 0x64
/-- Offset of MAC_RX_MCAST (R317). -/
def oMAC_RX_MCAST : Nat := 0x68
/-- Offset of MAC_RX_BCAST (R317). -/
def oMAC_RX_BCAST : Nat := 0x6C
/-- Offset of MAC_RX_PTP (R317). -/
def oMAC_RX_PTP : Nat := 0x70
/-- Offset of MAC_RX_FCS (R317). -/
def oMAC_RX_FCS : Nat := 0x74
/-- Offset of MAC_RX_ALIGN (R317). -/
def oMAC_RX_ALIGN : Nat := 0x78
/-- Offset of MAC_RX_RUNT (R317). -/
def oMAC_RX_RUNT : Nat := 0x7C
/-- Offset of MAC_RX_JABBER (R317). -/
def oMAC_RX_JABBER : Nat := 0x80
/-- Offset of MAC_RX_PAUSE (R317). -/
def oMAC_RX_PAUSE : Nat := 0x84
/-- Offset of MAC_RX_PAUSE_IGN (R317). -/
def oMAC_RX_PAUSE_IGN : Nat := 0x88
/-- Offset of MAC_RX_FILTERED (R317). -/
def oMAC_RX_FILTERED : Nat := 0x8C
/-- Offset of MAC_RX_OVF (R317). -/
def oMAC_RX_OVF : Nat := 0xC0
/-- The registers of this page (R317). -/
def rows_mac1 : List RegRow := [
  ⟨0x40, 1, 4, 32, .ro, 0x0, 0xFFFFFFFF, true⟩,
  ⟨0x44, 1, 4, 32, .ro, 0x0, 0xFFFFFFFF, true⟩,
  ⟨0x48, 1, 4, 32, .ro, 0x0, 0xFFFFFFFF, true⟩,
  ⟨0x4C, 1, 4, 32, .ro, 0x0, 0xFFFFFFFF, true⟩,
  ⟨0x50, 1, 4, 32, .ro, 0x0, 0xFFFFFFFF, true⟩,
  ⟨0x54, 1, 4, 32, .ro, 0x0, 0xFFFFFFFF, true⟩,
  ⟨0x58, 1, 4, 32, .ro, 0x0, 0xFFFFFFFF, true⟩,
  ⟨0x5C, 1, 4, 32, .ro, 0x0, 0xFFFFFFFF, true⟩,
  ⟨0x60, 1, 4, 32, .ro, 0x0, 0xFFFFFFFF, true⟩,
  ⟨0x64, 1, 4, 32, .ro, 0x0, 0xFFFFFFFF, true⟩,
  ⟨0x68, 1, 4, 32, .ro, 0x0, 0xFFFFFFFF, true⟩,
  ⟨0x6C, 1, 4, 32, .ro, 0x0, 0xFFFFFFFF, true⟩,
  ⟨0x70, 1, 4, 32, .ro, 0x0, 0xFFFFFFFF, true⟩,
  ⟨0x74, 1, 4, 32, .ro, 0x0, 0xFFFFFFFF, true⟩,
  ⟨0x78, 1, 4, 32, .ro, 0x0, 0xFFFFFFFF, true⟩,
  ⟨0x7C, 1, 4, 32, .ro, 0x0, 0xFFFFFFFF, true⟩,
  ⟨0x80, 1, 4, 32, .ro, 0x0, 0xFFFFFFFF, true⟩,
  ⟨0x84, 1, 4, 32, .ro, 0x0, 0xFFFFFFFF, true⟩,
  ⟨0x88, 1, 4, 32, .ro, 0x0, 0xFFFFFFFF, true⟩,
  ⟨0x8C, 1, 4, 32, .ro, 0x0, 0xFFFFFFFF, true⟩,
  ⟨0xC0, 8, 4, 32, .ro, 0x0, 0xFFFFFFFF, true⟩]

/- mac2 (R317). -/
/-- Offset of MAC_TX_OCTETS (R317). -/
def oMAC_TX_OCTETS : Nat := 0x40
/-- Offset of MAC_TX_FRAMES (R317). -/
def oMAC_TX_FRAMES : Nat := 0x44
/-- Offset of MAC_TX_SIZE0 (R317). -/
def oMAC_TX_SIZE0 : Nat := 0x48
/-- Offset of MAC_TX_SIZE1 (R317). -/
def oMAC_TX_SIZE1 : Nat := 0x4C
/-- Offset of MAC_TX_SIZE2 (R317). -/
def oMAC_TX_SIZE2 : Nat := 0x50
/-- Offset of MAC_TX_SIZE3 (R317). -/
def oMAC_TX_SIZE3 : Nat := 0x54
/-- Offset of MAC_TX_SIZE4 (R317). -/
def oMAC_TX_SIZE4 : Nat := 0x58
/-- Offset of MAC_TX_SIZE5 (R317). -/
def oMAC_TX_SIZE5 : Nat := 0x5C
/-- Offset of MAC_TX_SIZE6 (R317). -/
def oMAC_TX_SIZE6 : Nat := 0x60
/-- Offset of MAC_TX_UCAST (R317). -/
def oMAC_TX_UCAST : Nat := 0x64
/-- Offset of MAC_TX_MCAST (R317). -/
def oMAC_TX_MCAST : Nat := 0x68
/-- Offset of MAC_TX_BCAST (R317). -/
def oMAC_TX_BCAST : Nat := 0x6C
/-- Offset of MAC_TX_PTP (R317). -/
def oMAC_TX_PTP : Nat := 0x70
/-- Offset of MAC_TX_LATE (R317). -/
def oMAC_TX_LATE : Nat := 0x74
/-- Offset of MAC_TX_DOWN (R317). -/
def oMAC_TX_DOWN : Nat := 0x78
/-- Offset of MAC_TX_FANOUT_DROP (R317). -/
def oMAC_TX_FANOUT_DROP : Nat := 0x7C
/-- Offset of MAC_TX_Q6_FULL (R317). -/
def oMAC_TX_Q6_FULL : Nat := 0x80
/-- The registers of this page (R317). -/
def rows_mac2 : List RegRow := [
  ⟨0x40, 1, 4, 32, .ro, 0x0, 0xFFFFFFFF, true⟩,
  ⟨0x44, 1, 4, 32, .ro, 0x0, 0xFFFFFFFF, true⟩,
  ⟨0x48, 1, 4, 32, .ro, 0x0, 0xFFFFFFFF, true⟩,
  ⟨0x4C, 1, 4, 32, .ro, 0x0, 0xFFFFFFFF, true⟩,
  ⟨0x50, 1, 4, 32, .ro, 0x0, 0xFFFFFFFF, true⟩,
  ⟨0x54, 1, 4, 32, .ro, 0x0, 0xFFFFFFFF, true⟩,
  ⟨0x58, 1, 4, 32, .ro, 0x0, 0xFFFFFFFF, true⟩,
  ⟨0x5C, 1, 4, 32, .ro, 0x0, 0xFFFFFFFF, true⟩,
  ⟨0x60, 1, 4, 32, .ro, 0x0, 0xFFFFFFFF, true⟩,
  ⟨0x64, 1, 4, 32, .ro, 0x0, 0xFFFFFFFF, true⟩,
  ⟨0x68, 1, 4, 32, .ro, 0x0, 0xFFFFFFFF, true⟩,
  ⟨0x6C, 1, 4, 32, .ro, 0x0, 0xFFFFFFFF, true⟩,
  ⟨0x70, 1, 4, 32, .ro, 0x0, 0xFFFFFFFF, true⟩,
  ⟨0x74, 1, 4, 32, .ro, 0x0, 0xFFFFFFFF, true⟩,
  ⟨0x78, 1, 4, 32, .ro, 0x0, 0xFFFFFFFF, true⟩,
  ⟨0x7C, 1, 4, 32, .ro, 0x0, 0xFFFFFFFF, true⟩,
  ⟨0x80, 1, 4, 32, .ro, 0x0, 0xFFFFFFFF, true⟩]

/- cls1 (R183). -/
/-- Key of CLS_CNT_RX (R183). -/
def rCLS_CNT_RX : Nat := 0xB1040
/-- Key of CLS_CNT_MATCH (R183). -/
def rCLS_CNT_MATCH : Nat := 0xB1044
/-- Key of CLS_CNT_UNMATCHED (R183). -/
def rCLS_CNT_UNMATCHED : Nat := 0xB1048
/-- Key of CLS_CNT_UNBOUND (R183). -/
def rCLS_CNT_UNBOUND : Nat := 0xB104C
/-- Key of CLS_CNT_EXC_DROP (R183). -/
def rCLS_CNT_EXC_DROP : Nat := 0xB1050
/-- Key of CLS_CNT_BAD_HDR (R183). -/
def rCLS_CNT_BAD_HDR : Nat := 0xB1054
/-- Key of CLS_CNT_POL_FLOW (R183). -/
def rCLS_CNT_POL_FLOW : Nat := 0xB1058
/-- Key of CLS_CNT_POL_PART (R183). -/
def rCLS_CNT_POL_PART : Nat := 0xB105C
/-- Key of CLS_SSRC_MISMATCH (R183). -/
def rCLS_SSRC_MISMATCH : Nat := 0xB1060
/-- The registers of this page (R183). -/
def rows_cls1 : List RegRow := [
  ⟨0x40, 1, 4, 32, .ro, 0x0, 0xFFFFFFFF, true⟩,
  ⟨0x44, 1, 4, 32, .ro, 0x0, 0xFFFFFFFF, true⟩,
  ⟨0x48, 1, 4, 32, .ro, 0x0, 0xFFFFFFFF, true⟩,
  ⟨0x4C, 1, 4, 32, .ro, 0x0, 0xFFFFFFFF, true⟩,
  ⟨0x50, 1, 4, 32, .ro, 0x0, 0xFFFFFFFF, true⟩,
  ⟨0x54, 1, 4, 32, .ro, 0x0, 0xFFFFFFFF, true⟩,
  ⟨0x58, 1, 4, 32, .ro, 0x0, 0xFFFFFFFF, true⟩,
  ⟨0x5C, 1, 4, 32, .ro, 0x0, 0xFFFFFFFF, true⟩,
  ⟨0x60, 1, 4, 32, .ro, 0x0, 0xFFFFFFFF, true⟩]

/- cry (R185). -/
/-- Key of CRY_CNT_AUTH_FAIL (R185). -/
def rCRY_CNT_AUTH_FAIL : Nat := 0xC0040
/-- Key of CRY_CNT_REPLAY (R185). -/
def rCRY_CNT_REPLAY : Nat := 0xC0044
/-- Key of CRY_CNT_NO_KEY (R185). -/
def rCRY_CNT_NO_KEY : Nat := 0xC0048
/-- Key of CRY_CNT_LIFETIME (R185). -/
def rCRY_CNT_LIFETIME : Nat := 0xC004C
/-- Key of CRY_LOAD (R185). -/
def rCRY_LOAD : Nat := 0xC0050
/-- The registers of this page (R185). -/
def rows_cry : List RegRow := [
  ⟨0x40, 1, 4, 32, .ro, 0x0, 0xFFFFFFFF, true⟩,
  ⟨0x44, 1, 4, 32, .ro, 0x0, 0xFFFFFFFF, true⟩,
  ⟨0x48, 1, 4, 32, .ro, 0x0, 0xFFFFFFFF, true⟩,
  ⟨0x4C, 1, 4, 32, .ro, 0x0, 0xFFFFFFFF, true⟩,
  ⟨0x50, 1, 4, 32, .ro, 0x0, 0xFFFFFFFF, false⟩]

/- egr (R187). -/
/-- Key of EGR_CNT_TX (R187). -/
def rEGR_CNT_TX : Nat := 0xE0040
/-- Key of EGR_CNT_LATE (R187). -/
def rEGR_CNT_LATE : Nat := 0xE0044
/-- Key of EGR_CNT_QUEUED (R187). -/
def rEGR_CNT_QUEUED : Nat := 0xE0048
/-- Key of EGR_CNT_FILL (R187). -/
def rEGR_CNT_FILL : Nat := 0xE004C
/-- Key of EGR_CNT_NOFLOW (R187). -/
def rEGR_CNT_NOFLOW : Nat := 0xE0050
/-- Key of EGR_LATE_MAX (R187). -/
def rEGR_LATE_MAX : Nat := 0xE0054
/-- The registers of this page (R187). -/
def rows_egr : List RegRow := [
  ⟨0x40, 1, 4, 32, .ro, 0x0, 0xFFFFFFFF, true⟩,
  ⟨0x44, 1, 4, 32, .ro, 0x0, 0xFFFFFFFF, true⟩,
  ⟨0x48, 1, 4, 32, .ro, 0x0, 0xFFFFFFFF, true⟩,
  ⟨0x4C, 1, 4, 32, .ro, 0x0, 0xFFFFFFFF, true⟩,
  ⟨0x50, 1, 4, 32, .ro, 0x0, 0xFFFFFFFF, true⟩,
  ⟨0x54, 1, 4, 32, .ro, 0x0, 0xFFFFFFFF, false⟩]

/- basin1 (R139). -/
/-- Key of BASIN_CE_BANK (R139). -/
def rBASIN_CE_BANK : Nat := 0x91040
/-- The registers of this page (R139). -/
def rows_basin1 : List RegRow := [
  ⟨0x40, 96, 4, 32, .ro, 0x0, 0xFFFFFFFF, true⟩]

/- atn (R56, R58). -/
/-- Key of ATN_SUMMARY (R56). -/
def rATN_SUMMARY : Nat := 0x1040
/-- Key of ATN_EOI (R56). -/
def rATN_EOI : Nat := 0x1044
/-- Key of ATN_GRP (R56). -/
def rATN_GRP : Nat := 0x1100
/-- Key of ATN_PART (R56). -/
def rATN_PART : Nat := 0x1200
/-- The registers of this page (R56, R58). -/
def rows_atn : List RegRow := [
  ⟨0x40, 1, 4, 32, .ro, 0x0, 0xFFFFFFFF, false⟩,
  ⟨0x44, 1, 4, 32, .wo, 0x0, 0x1, false⟩,
  ⟨0x100, 23, 8, 64, .ro, 0x0, 0xFFFFFFFFFFFFFFFF, false⟩,
  ⟨0x200, 16, 8, 64, .ro, 0x0, 0xFFFFFFFFFFFFFFFF, false⟩]

/- vfa (R57). -/
/-- Offset of VFA_SUMMARY (R57). -/
def oVFA_SUMMARY : Nat := 0x40
/-- Offset of VFA_EOI (R57). -/
def oVFA_EOI : Nat := 0x44
/-- Offset of VFA_WR_DROP (R57). -/
def oVFA_WR_DROP : Nat := 0x48
/-- Offset of VFA_PART (R57). -/
def oVFA_PART : Nat := 0x4C
/-- The registers of this page (R57). -/
def rows_vfa : List RegRow := [
  ⟨0x40, 1, 4, 32, .ro, 0x0, 0xFFFFFFFF, false⟩,
  ⟨0x44, 1, 4, 32, .wo, 0x0, 0x1, false⟩,
  ⟨0x48, 1, 4, 32, .ro, 0x0, 0xFFFFFFFF, true⟩,
  ⟨0x4C, 1, 4, 32, .ro, 0x0, 0xFFFFFFFF, false⟩]

/- vrng (R51). -/
/-- Offset of VRNG_BASE (R51). -/
def oVRNG_BASE : Nat := 0x40
/-- Offset of VRNG_SIZE_LOG2 (R51). -/
def oVRNG_SIZE_LOG2 : Nat := 0x48
/-- Offset of VRNG_CTRL (R51). -/
def oVRNG_CTRL : Nat := 0x4C
/-- Offset of VRNG_PROD (R51). -/
def oVRNG_PROD : Nat := 0x50
/-- Offset of VRNG_CONS (R51). -/
def oVRNG_CONS : Nat := 0x54
/-- Offset of VRNG_DROP (R51). -/
def oVRNG_DROP : Nat := 0x58
/-- Offset of VRNG_DATA_BASE1 (R51). -/
def oVRNG_DATA_BASE1 : Nat := 0xA0
/-- Offset of VRNG_DATA_BASE2 (R51). -/
def oVRNG_DATA_BASE2 : Nat := 0xE0
/-- The registers of this page (R51). -/
def rows_vrng : List RegRow := [
  ⟨0x40, 3, 64, 64, .rw, 0x0, 0xFFFFFFFFFFFFF000, false⟩,
  ⟨0x48, 3, 64, 32, .rw, 0x0, 0xF, false⟩,
  ⟨0x4C, 3, 64, 32, .rw, 0x0, 0x1, false⟩,
  ⟨0x50, 3, 64, 32, .ro, 0x0, 0xFFFFFFFF, false⟩,
  ⟨0x54, 3, 64, 32, .rw, 0x0, 0xFFFFFFFF, false⟩,
  ⟨0x58, 3, 64, 32, .ro, 0x0, 0xFFFFFFFF, true⟩,
  ⟨0xA0, 1, 4, 64, .rw, 0x0, 0xFFFFFFFFFFFFF000, false⟩,
  ⟨0xE0, 1, 4, 64, .rw, 0x0, 0xFFFFFFFFFFFFF000, false⟩]
/-- The bases of the VF windows in a PART page, for VF pages 1 to 7 in that order (R300, R48). -/
def winBase : Nat → Nat
  | 1 => 0x800 | 2 => 0x200 | 3 => 0x400 | 4 => 0x600 | 5 => 0xA00 | 6 => 0xC00 | 7 => 0xE00 | _ => 0

/-- The registers of VF page `k` (R48). -/
def rowsVf : Nat → List RegRow
  | 0 => rows_vfa | 1 => rows_chw | 2 => rows_flw | 3 => rows_key | 4 => rows_prg | 5 => rows_vrng
  | 6 => rows_vcnt | 7 => rows_vtim | _ => []

/-- Which VF page a PART offset's window shows, if it lies in one (R300). -/
def winOf (off : Nat) : Option Nat :=
  if off < 0x200 then none
  else if off < 0x400 then some 2 else if off < 0x600 then some 3 else if off < 0x800 then some 4
  else if off < 0xA00 then some 1 else if off < 0xC00 then some 5 else if off < 0xE00 then some 6
  else if off < 0x1000 then some 7 else none

/-- Drop the registers that only port 0's pages hold (R316, R318). -/
def notPort0 (rs : List RegRow) : List RegRow :=
  rs.filter fun r => !(decide (r.off = oMAC_LANES) || decide (0x200 ≤ r.off))

/-- The block registers of a PF page (R47); a reserved page has none. -/
def rowsPf (n : Nat) : List RegRow :=
  if n < 0x10 then (match n with | 0 => rows_hif | 1 => rows_atn | 2 => rows_pwr0 | 3 => rows_pwr1 | 4 => rows_pwr2 | _ => [])
  else if n < 0x20 then (match n with
    | 0x10 => rows_tb0 | 0x11 => rows_tb1 | 0x12 => rows_tb2 | 0x13 => rows_tb3 | 0x14 => rows_tb4 | _ => [])
  else if n < 0x40 then (match n with
    | 0x20 => rows_weir0 | 0x21 => rows_weir1 | 0x22 => rows_weir2 | 0x23 => rows_weir3 | _ => [])
  else if n < 0x84 then rows_tarn
  else if n < 0x100 then (match n with
    | 0x90 => rows_basin0 | 0x91 => rows_basin1 | 0xA0 => rows_dram0 | 0xA1 => rows_dramCh | 0xA2 => rows_dramCh
    | 0xB0 => rows_cls0 | 0xB1 => rows_cls1 | 0xB2 => rows_cls2 | 0xC0 => rows_cry | 0xD0 => rows_jb
    | 0xE0 => rows_egr | _ => [])
  else if n < 0x110 then (match (n - 0x100) % 4 with
    | 0 => if n = 0x100 then rows_mac0 else notPort0 rows_mac0
    | 1 => rows_mac1 | 2 => rows_mac2
    | _ => if n = 0x103 then rows_mac3 else notPort0 rows_mac3)
  else if n < 0x150 then (match n with
    | 0x110 => rows_mgmt | 0x120 => rows_twin0 | 0x121 => rows_twin1 | 0x122 => rows_twin2
    | 0x130 => rows_rec0 | 0x131 => rows_rec1 | 0x140 => rows_flash0 | 0x141 => rows_flash1 | _ => [])
  else if n < 0x1C0 then
    (if n = 0x150 then rows_lfe else if 0x160 ≤ n ∧ n < 0x180 then rows_lfeLine else (match n with
      | 0x180 => rows_sce | 0x190 => rows_clu0 | 0x191 => rows_clu1 | 0x1A0 => rows_fab0 | 0x1A1 => rows_fab1
      | 0x1A2 => rows_fab2 | 0x1A3 => rows_fab3 | 0x1B0 => rows_bmb | _ => []))
  else if 0x200 ≤ n ∧ n < 0x600 then rows_part
  else []

/-- The block registers of any page. -/
def pageRows (pg : Nat) : List RegRow := if pg < 0x1000 then rowsPf pg else rowsVf ((pg - 0x1000) % 16)

/-- Type code of a PF page's block, 0 for a reserved page (R47). -/
def pageType (n : Nat) : Nat :=
  if (pageRows n).isEmpty then 0
  else if 0x1000 ≤ n then 0x100 + (n - 0x1000) % 16
  else if n = 0 then 0x001 else if n = 1 then 0x002 else if n < 0x10 then 0x003 else if n < 0x20 then 0x010
  else if n < 0x30 then 0x020 else if n < 0x80 then 0x030 else if n < 0x84 then 0x031
  else if n < 0xA0 then 0x040 else if n < 0xA4 then 0x041 else if n < 0xC0 then 0x050 else if n < 0xC8 then 0x051
  else if n < 0xE0 then 0x060 else if n < 0xF0 then 0x061 else if n < 0x110 then 0x070 else if n = 0x110 then 0x071
  else if n < 0x130 then 0x080 else if n < 0x140 then 0x090 else if n < 0x150 then 0x091 else if n = 0x150 then 0x0A0
  else if n < 0x180 then 0x0A1 else if n = 0x180 then 0x0A2 else if n < 0x1A0 then 0x0B0 else if n < 0x1B0 then 0x0B1
  else if n = 0x1B0 then 0x0B2 else 0x0C0 + ((n - 0x200) >>> 8)

/-- Instance field of a page's PG_ID (R43, R47). -/
def pageInst (n : Nat) : Nat :=
  if 0x1000 ≤ n then 0 else if n < 2 then 0 else if n < 0x10 then n - 2 else if n < 0x20 then n - 0x10
  else if n < 0x30 then n - 0x20 else if n < 0x84 then n - 0x40 else if n < 0xA0 then n - 0x90
  else if n < 0xB0 then n - 0xA0 else if n < 0xC0 then n - 0xB0 else if n < 0xD0 then n - 0xC0
  else if n < 0xE0 then n - 0xD0 else if n < 0xF0 then n - 0xE0 else if n < 0x110 then n - 0x100 else if n < 0x120 then 0
  else if n < 0x130 then n - 0x120 else if n < 0x140 then n - 0x130 else if n < 0x150 then n - 0x140
  else if n < 0x160 then 0 else if n < 0x180 then n - 0x160 else if n < 0x190 then 0 else if n < 0x1A0 then n - 0x190
  else if n < 0x1B0 then n - 0x1A0 else if n = 0x1B0 then 0 else (n - 0x200) % 256

/-- The key under which a register is stored: the block registers of VF pages 1 to 7 are those of the PART window
(R300, "writes through both windows reach the same registers"). -/
def canonKey (pg off : Nat) : Nat :=
  if 0x1000 ≤ pg ∧ (pg - 0x1000) % 16 ≠ 0 ∧ 0x40 ≤ off
  then (0x200 + (pg - 0x1000) / 16) * 0x1000 + winBase ((pg - 0x1000) % 16) + off
  else pg * 0x1000 + off

/-- The row of the register at `off` of page `pg`, looking through the PART windows. The rings of partition 0 are in the
HIF page, so its VRNG window is reserved (R300). -/
def findRow (pg off : Nat) : Option RegRow :=
  if 0x200 ≤ pg ∧ pg < 0x600 then
    match winOf off with
    | none => (rows_part.find? (·.has off))
    | some k =>
      let o := off - winBase k
      if o < 0x40 then none
      else if k = 5 ∧ pg = 0x200 then none
      else ((rowsVf k).find? (·.has o))
  else (pageRows pg).find? (·.has off)

/-- PART page key of partition `p`, block offset `off`. -/
def kPart (p off : Nat) : Nat := (0x200 + p) * 0x1000 + off
/-- Key of a register of the window of VF page `k` of partition `p`. -/
def kWin (p k off : Nat) : Nat := (0x200 + p) * 0x1000 + winBase k + off
/-- Key of a register of the VFA page of VF `p`. -/
def kVfa (p off : Nat) : Nat := (0x1000 + 16 * p) * 0x1000 + off

/-- What a register holds at reset, by key (R18; a "—" or fuse value reads as the log entries 1 and 2 say): the table's
value, with the values that depend on the instance filled in (CHW_SEL, R65; PART_CTRL, R300; the switch registers, R409). -/
def regReset (key : Nat) : W64 :=
  let pg := key / 0x1000
  let off := key % 0x1000
  if 0x200 ≤ pg ∧ pg < 0x600 ∧ off = 0x840 then BitVec.ofNat 64 ((pg - 0x200) * 0x4000)
  else if 0x200 ≤ pg ∧ pg < 0x600 ∧ off = oPART_CTRL then (if pg = 0x200 then 0 else 2)
  else if 0x160 ≤ pg ∧ pg < 0x180 ∧ 0x70 ≤ off ∧ off < 0x80 then
    (match (off - 0x70) / 4 with | 0 => 0x03E8191A | 1 => 0x03E819B2 | 2 => 0xE666108A | _ => 0x0666106F)
  else if pg = 0x22 ∧ off % 0x10 = 4 ∧ 0x40 ≤ off then (if off = 0x54 ∨ off = 0x64 then 32768 else 16384)
  else if key = rHIF_FUSE_CAP then 0x17
  else match findRow pg off with
    | some r => BitVec.ofNat 64 r.reset
    | none => 0

end Sys2Proof.Machine
end

