-- ==== Sys2Proof/Machine/Tab.lean ====
section
/-! DEFINITION. Sparse tables: the one form in which the Basin, the DRAM, core memories, register storage and every
numbered resource (slots, cores, flows, keys …) are held.

A table is a list of (key, value) pairs with strictly rising keys and no entry equal to what an unlisted key reads as,
so that equal contents are equal lists. `dflt k` is what an unlisted key reads as. -/
namespace Sys2Proof.Machine

/-- A sparse table from natural keys to values. -/
abbrev Tab (α : Type) := List (Nat × α)

/-- Read key `k`; an unlisted key reads as `dflt k`. -/
def tabGet {α : Type} (dflt : Nat → α) : Tab α → Nat → α
  | [], k => dflt k
  | (j, v) :: t, k => if j = k then v else tabGet dflt t k

/-- Put an entry before the first one of a greater key. -/
def tabIns {α : Type} (k : Nat) (v : α) : Tab α → Tab α
  | [] => [(k, v)]
  | (j, w) :: t => if k < j then (k, v) :: (j, w) :: t else (j, w) :: tabIns k v t

/-- Write key `k`, keeping the canonical form: writing what an unlisted key reads as removes the entry. -/
def tabSet {α : Type} [DecidableEq α] (dflt : Nat → α) (t : Tab α) (k : Nat) (v : α) : Tab α :=
  let u := t.filter fun e => decide (e.1 ≠ k)
  if v = dflt k then u else tabIns k v u

/-- Change the value at key `k` by `f`. -/
def tabMod {α : Type} [DecidableEq α] (dflt : Nat → α) (t : Tab α) (k : Nat) (f : α → α) : Tab α :=
  tabSet dflt t k (f (tabGet dflt t k))

/-- Every listed key is above `lo` (when given), keys rise, and no entry equals its default: the canonical form. -/
def tabWfFrom {α : Type} [DecidableEq α] (dflt : Nat → α) : Option Nat → Tab α → Bool
  | _, [] => true
  | lo, (j, v) :: t =>
    (match lo with | none => true | some l => decide (l < j)) && !decide (v = dflt j) && tabWfFrom dflt (some j) t

/-- The canonical form of a table. -/
def tabWf {α : Type} [DecidableEq α] (dflt : Nat → α) (t : Tab α) : Bool := tabWfFrom dflt none t

/-- Keep only the entries a test accepts. -/
def tabFilter {α : Type} (p : Nat → α → Bool) (t : Tab α) : Tab α := t.filter fun e => p e.1 e.2

/-- Insert into a sorted list, before the first entry that `le` puts after it. -/
def sortIn {α : Type} (le : α → α → Bool) (x : α) : List α → List α
  | [] => [x]
  | y :: ys => if le x y then x :: y :: ys else y :: sortIn le x ys

/-- Sort a list. -/
def sortBy {α : Type} (le : α → α → Bool) (l : List α) : List α := l.foldr (sortIn le) []

end Sys2Proof.Machine
end

