-- ==== Sys2Proof/Machine/State.lean ====
section
/-! DEFINITION. The state of the device as plain data: every register, queue, table, mode and pin the spec gives it, unit
by unit, the queue of waiting commands, the reasons a command can stop, and the state after reset. -/
namespace Sys2Proof.Machine

/-! ### Outputs -/

/-- The lines the device drives (R5, R59, R90, R333 and the chapters' signals). -/
inductive Pin where
  | irqN | ppsOut | act | clusterSync | flashWpN | sceFrame | sdo | modSel (c : Nat) | modRst (c : Nat) | modLpm (c : Nat)
  deriving DecidableEq, Repr

/-- The control links a message may leave on. -/
inductive Link where
  | ptp | lldp | twin | cluster | fabric | mdio | i2c | sce | debug
  deriving DecidableEq, Repr

/-- An RTP or RTCP packet the device forms (R164, R174, R176): its addresses, next hop and VLAN tags are those of `flow`, reversed; `ttl`
is its TTL or hop limit. Of an RTCP packet `payload` is the whole compound packet and `pt` and `seq` are 0. `trailer` is what SRTP adds
behind the payload (R159, R161). -/
structure TxPkt where
  handle : W32
  leg : Nat
  flow : List W32
  srcMac : BitVec 48
  dscp : Nat
  ttl : Nat
  rtcp : Bool
  ssrc : W32
  pt : Nat
  marker : Bool
  seq : BitVec 16
  ts : W32
  index : Nat
  payload : List Byte
  trailer : List Byte
  deriving DecidableEq, Repr

/-- What leaves the device, in order (log entry 5): DMA writes and reads of host memory, MSI-X messages, pin levels,
frames and control messages. -/
inductive Output where
  | hostWrite (rid addr size val : Nat)
  | hostCopy (rid addr : Nat) (bytes : List Byte)
  | hostRead (rid addr len : Nat)
  | hostNames (rid addr : Nat) (sectors : List Nat)
  | msix (fn : Nat)
  | pin (p : Pin) (level : Bool)
  | packet (port queue : Nat) (start : NT32) (p : TxPkt)
  | frame (port queue : Nat) (start : NT32) (kind addr len : Nat)
  | msg (l : Link) (kind : Nat) (fields : List Nat)
  | readReply (fn bar addr size val : Nat)
  | twinOp (o : TwinOp)
  | bulk (b : BulkItem)
  | context (handle : W32) (pass : NT32) (ctx : Nat) (media : Media) (legA legB : Leg)
  | trunk (port : Nat) (start : NT32) (t : TrunkFrame)
  | unit (part slot : Nat) (bytes : List Byte)
  | ingress (r : IngressRec)
  | payload (r : IngressRec)
  deriving DecidableEq, Repr

/-! ### Host interface (R36 to R71) -/

/-- The common header of a page (R43). `fold` is PG_FOLD.COUNT; `faultAt` and `folded` are the instant the page's
UNIT_FAULT set and the causes folded under it, for the UNIT_FAULT_CLEAR record (R62); `firstTick` is the tick on which the first
cause was recorded (R44). -/
structure Hdr where
  ctrl : W32
  status : W32
  cause : W32
  mask : W32
  first : W32
  firstTime : NT32
  fold : W32
  locked : Bool
  faultAt : NT32
  folded : W32
  firstTick : Nat
  deriving DecidableEq, Repr

/-- A page header at reset (R43). -/
def Hdr.reset : Hdr := ⟨0, 0, 0, 0, 0, 0, 0, false, 0, 0, 0⟩

/-- A DMA ring (R51 to R55): its registers, the SEQ counter, the write count W of R55, and the drops not yet reported
with the NT32 of the first and the last of them (R53). -/
structure Ring where
  base : W64
  sizeLog2 : Nat
  enable : Bool
  prod : W32
  cons : W32
  drop : W32
  dataBase : W64
  seq : BitVec 16
  writes : Nat
  lost : W32
  lostFirst : NT32
  lostLast : NT32
  deriving DecidableEq, Repr

/-- A ring at reset (R51). -/
def Ring.reset : Ring := ⟨0, 0, false, 0, 0, 0, 0, 0, 0, 0, 0, 0⟩

/-- One entry of the HIF_POSTED_ERR FIFO (R63). -/
structure PErr where
  rid : BitVec 16
  reason : BitVec 4
  bar : BitVec 4
  be : BitVec 8
  addr : W64
  time : NT32
  deriving DecidableEq, Repr

/-- The state of the PCIe side: routing ID captured by Type 0 configuration writes (R63), VF Enable and NumVFs (R37),
Bus Master Enable and the link for the host path (R366), PERST_N and readiness (R435), the write and read latches of each
function (R46, R471), the posted-error FIFO and its overflow count (R63), the MSI-X mask and pending bits and the messages
owed with the instant that occasioned each (R58, R293), the function-level resets awaiting their boundary (R38), and each VF's Bus Master
Enable (R366). -/
structure Hif where
  pfRid : BitVec 16
  vfEnable : Bool
  numVFs : Nat
  busMaster : Bool
  linkUp : Bool
  perst : Bool
  pfReady : Bool
  wLatch : Tab (Option (Nat × W32))
  rLatch : Tab (Option (Nat × W32))
  perr : List PErr
  ovf : BitVec 16
  masked : Tab Bool
  pba : Tab Bool
  msgs : List (Nat × NT32)
  flr : List Nat
  vfBus : Tab Bool
  deriving DecidableEq, Repr

/-! ### Time Base (R72 to R104) -/

/-- The servo states of R81. -/
inductive Servo where
  | freerun | acquiring | locking | locked | holdover
  deriving DecidableEq, Repr

/-- The state code of R81. -/
def Servo.code : Servo → Nat
  | .freerun => 0 | .acquiring => 1 | .locking => 2 | .locked => 3 | .holdover => 4

/-- A step accepted and not yet applied (R79); `at` is a named tick (R345, R418). -/
structure StepPend where
  s : Int
  tick : Option NT32
  deriving DecidableEq, Repr

/-- A re-base between the step and its boundary Q' (R82, R83). -/
structure Rebase where
  s : Int
  k : Int
  q : NT32
  deriving DecidableEq, Repr

/-- What the servo reports of its source (R92): grandmaster data and the port it comes from. -/
structure GmInfo where
  steps : Nat
  clockClass : Nat
  accuracy : Nat
  variance : Nat
  traceable : Bool
  ptpScale : Bool
  utcOffset : Nat
  port : Nat
  deriving DecidableEq, Repr

/-- The dataset by which the best master is chosen (R87). -/
structure BestDs where
  prio1 : Nat
  clockClass : Nat
  accuracy : Nat
  variance : Nat
  prio2 : Nat
  gm : W64
  steps : Nat
  deriving DecidableEq, Repr

/-- A PTP stamp (R85): NT32 above a 4-bit fraction in 1/16 ns. -/
abbrev PtpStamp := BitVec 36

/-- A master heard on a port by its Announce messages (R87): its identity and port, and the last Announce. -/
structure Master where
  source : W64
  sourcePort : Nat
  ann : PtpAnnounce
  deriving DecidableEq, Repr

/-- The PTP state of a media port (R87): stamps of the exchange in progress, peer delay, sequence numbers, the masters heard
and the best of their datasets, and the unicast slaves granted, each with the types of message it is granted. -/
structure PtpPort where
  t1 : Option W64
  t2 : PtpStamp
  corr : W64
  syncSeq : BitVec 16
  waitFu : Bool
  t3 : PtpStamp
  delaySeq : BitVec 16
  delayOut : Bool
  delay : Int
  pT1 : PtpStamp
  pT2 : Option W64
  pT4 : PtpStamp
  pSeq : BitVec 16
  pOut : Bool
  peerDelay : Int
  txSeq : BitVec 16
  masters : List Master
  best : Option BestDs
  grants : List (W64 × Nat × List Nat)
  deriving DecidableEq, Repr

/-- A port's PTP state at reset. -/
def PtpPort.reset : PtpPort := ⟨none, 0, 0, 0, false, 0, 0, false, 0, 0, none, 0, 0, false, 0, 0, [], none, []⟩

/-- The Time Base and its servo. `acc` is the 64-bit accumulator of R72 (NT32 above, fraction below). `offs` are the
offsets of the current run of measurements, newest first; `lockRun`, `jumpRun` count consecutive measurements inside the
lock limit and beyond the unlock limit or inside the jump limit (R80, R81). `since` counts ticks since the last step,
`ticks` those since reset. `freqEst` is the servo's frequency estimate and `incRuns` its output over the last 60 s, as runs of
ticks at one increment, newest first (R80); `sinceLocked` is the time of NT since LOCKED was left, in 2⁻³² ns (R89). -/
structure TimeBase where
  acc : W64
  extHi : W32
  extNext : W32
  inc : BitVec 40
  incNext : Option (BitVec 40)
  armed : Bool
  step : Option StepPend
  rebase : Option Rebase
  since : Nat
  ticks : Nat
  refHold : Option NT32
  freqEst : BitVec 40
  incRuns : List (BitVec 40 × Nat)
  servo : Servo
  src : Nat
  everAcquired : List Nat
  qualified : Bool
  offs : List Int
  lockRun : Nat
  jumpRun : Nat
  rearmed : Bool
  jumpRefused : Bool
  sourceLost : Bool
  everLocked : Bool
  sinceLocked : Nat
  firstLocked : Bool
  stepped : Bool
  meas : Option (Int × Int × Nat)
  gm : GmInfo
  ptp : Tab PtpPort
  ppsOut : Bool
  ppsRise : NT32
  ppsMiss : Nat
  ppsEdges : Nat
  todSecs : Option W64
  todRun : Nat
  todThisEdge : Bool
  secIdx : Nat
  deriving DecidableEq, Repr

/-- The Time Base at reset (R104). -/
def TimeBase.reset : TimeBase :=
  ⟨0, 0, 1, 0x140000000, none, true, none, none, 0, 0, none, 0x140000000, [], .freerun, 1, [], false, [], 0, 0, false, false, false, false, 0,
   false, false, none, ⟨0, 0xF8, 0, 0, false, false, 0, 0xFF⟩, [], false, 0, 0, 0, none, 0, false, 0⟩

/-! ### Channels: slots, legs and media contexts (R64 to R71, R105 to R224) -/

/-- The slot states of CHW_STATUS.STATE (R65). -/
inductive SlotSt where
  | free | activating | active | releasing | quiesce
  deriving DecidableEq, Repr

/-- The state code of CHW_STATUS.STATE (R65). -/
def SlotSt.code : SlotSt → Nat
  | .free => 0 | .activating => 1 | .active => 2 | .releasing => 3 | .quiesce => 4

/-- The kinds of pending change (R70), with the codes of the PENDING_REBASED record (R69). -/
inductive PendKind where
  | activate | release | modifyAt | deferred
  deriving DecidableEq, Repr

/-- The kind byte of R69. -/
def PendKind.code : PendKind → Nat
  | .activate => 1 | .release => 2 | .modifyAt => 3 | .deferred => 4

/-- A channel's pending change (R70): the kind, its boundary, and the whole descriptor (a RELEASE has none). -/
structure Pend where
  kind : PendKind
  at_ : NT32
  desc : List W32
  deriving DecidableEq, Repr

/-- What a channel's reservation holds (R126, R212, R213, R288): cycles, context granules, tenant granules, DRAM
pages and recording streams (R359). -/
structure Charge where
  cycles : Nat
  gran : Nat
  tgran : Nat
  pages : Nat
  streams : Nat
  deriving DecidableEq, Repr

/-- A leg that has received and sent nothing. -/
def Leg.reset : Leg :=
  ⟨none, [], 0, false, 0, 0, 0, 0, 0, 255, [], [], 0, none, 0, none, 0, [], 0, 0, false, false, 0, false, 0, 0, 0, 0, 0, 0,
   0, [], none, [], [], [], 0x640807D0, 0, 0, 0, 0, 0, 0⟩

/-- Idle detectors (R222). -/
def Detect.reset : Detect := ⟨none, none, 0, 0, List.replicate 4 ⟨0, false, 0, none, 0⟩, 0, 0, none, false, 0, none, 0⟩

/-- The media state of an initialised context (R222): zero coefficients and history, idle detectors and generators, AGC at 0 dB,
empty noise estimates. -/
def Media.reset : Media := ⟨false, false, ⟨0, 0, 0⟩, ⟨0, 0, none⟩, Detect.reset, Detect.reset, 0, 0, 0, 0⟩

/-- A channel slot (R64 to R70, R107, R120): generation, holder, state, the descriptor in force, a WRITE awaiting the next
boundary, the pending change, boundaries of activation, release and the end of QUIESCE, the charge held, the granules of
its context, the contents of that context by name (`ctx`, 0 as initialised) with its media state, and the two legs. `freed` orders
free slots (R66). `resetAt`, `genAt` and `leaveAt` are the configuration epochs of a write of EC_CFG.RESET, of TONE_GEN and of
FAX_PT = 0 that no committed job has acted on yet, 0 for none (R197, R205, R206); `inits` counts the initialisations of its context. -/
structure Slot where
  gen : BitVec 8
  part : Nat
  st : SlotSt
  desc : List W32
  write : List (NT32 × List W32)
  pend : Option Pend
  actAt : W64
  quiesceAt : NT32
  freed : Nat
  charge : Charge
  granules : List Nat
  tgranules : List Nat
  ctx : Nat
  suspect : Bool
  initDone : Bool
  epoch : Nat
  media : Media
  resetAt : Nat
  genAt : Nat
  leaveAt : Nat
  inits : Nat
  rebased : Bool
  freezeFor : Nat
  legA : Leg
  legB : Leg
  deriving DecidableEq, Repr

/-- A free slot: GEN is 1 after a device reset (R64). -/
def Slot.reset : Slot :=
  ⟨1, 0, .free, [], [], none, 0, 0, 0, ⟨0, 0, 0, 0, 0⟩, [], [], 0, false, false, 0, Media.reset, 0, 0, 0, 0, false, 0,
   Leg.reset, Leg.reset⟩

/-- A conference bus (R216): owner, rate, members by slot, the boundary from which another partition may open it. -/
structure Bus where
  open_ : Bool
  part : Nat
  wb : Bool
  members : List Nat
  closedAt : Option W64
  deriving DecidableEq, Repr

/-- A bus that does not exist. -/
def Bus.reset : Bus := ⟨false, 0, false, [], none⟩

/-! ### The Weir (R105 to R144) -/

/-- A job token (R107); for a bus, `handle` is the bus number. `fillA` and `fillB` are A-in and B-in; a bus token's member
slots filled are `members` (R110). `elig` is set at the boundary after its creation (R108). -/
structure Token where
  bus : Bool
  handle : W32
  pass : NT32
  fillA : Bool
  fillB : Bool
  fillCtx : Bool
  fillProg : Bool
  inA : Oper
  inB : Oper
  members : List (Nat × List (BitVec 18))
  markA : Bool
  markB : Bool
  bypass : Bool
  elig : Bool
  resv : Nat
  epoch : Nat
  deriving DecidableEq, Repr

/-- A record a job's outputs carry: type, leg byte, byte 13, byte 14, byte 15, bytes 16 to 19 (R220). -/
structure JobRec where
  typ : Nat
  leg : Nat
  b13 : Nat
  b14 : Nat
  b15 : Nat
  w16 : Nat
  deriving DecidableEq, Repr

/-- The outputs of a job (R28, R114): the signal toward each leg, the taps, the records, or for a bus the mix-minus of
each member by slot; `ctx` and `media` are the context it commits and `data` the tenant data, where its tenant stage left any; `encA`
and `encB` are each leg's encoded pass, and for each leg the RFC 4733 event (digit, volume) it is to send, the received events whose
end it recorded and those it cut short, by timestamp, whether it recorded a bad payload, and the unsupported codes it recorded. -/
structure JobOut where
  toA : List (BitVec 18)
  toB : List (BitVec 18)
  tapA : List (BitVec 18)
  tapB : List (BitVec 18)
  postA : List (BitVec 18)
  postB : List (BitVec 18)
  recs : List JobRec
  mix : List (Nat × List (BitVec 18))
  ctx : Nat
  media : Media
  data : Option (List Word)
  encA : List Byte
  encB : List Byte
  evA : Option (Nat × Nat)
  evB : Option (Nat × Nat)
  rxDone : List (Nat × W32)
  rxCut : List (Nat × W32)
  bad : List Nat
  unsup : List (Nat × Nat)
  concA : Bool
  concB : Bool
  deriving DecidableEq, Repr

/-- Where a job stands (R111, R121): in a core's list, staged, staged with its context in, running, computed, its
stream-out in progress. -/
inductive JobSt where
  | listed | staging | ready | running | done | streamOut
  deriving DecidableEq, Repr

/-- How a tenant stage ended on the core that ran it (R218, R219): by RETU with the signal words of both legs and the tenant data, or
by 1 a budget abort, 2 an illegal instruction, 3 an access outside the window. -/
inductive TenEnd where
  | ran (a b : List (BitVec 18)) (data : List Word)
  | stopped (cause : Nat)
  deriving DecidableEq, Repr

/-- A dispatched job (R111 to R114, R122): its dispatch boundary and, captured then, all its outputs depend on (R30): the channel's
configuration, context and received events (`snap`), the NT64 of its pass, its operands, which are retained for replay, and for a bus
the members with their LISTEN and the rate; whether the program's image was absent; its context buffer, how its tenant stage ended where a core has run it, and its outputs once
computed. `replay` marks a job that already faulted once, on `faultCore` (R128); `lostOperand` one whose retained operand is lost and
`spill` how many of its operands it retains in DRAM (R122). -/
structure Job where
  bus : Bool
  handle : W32
  pass : NT32
  due : NT32
  resv : Nat
  markA : Bool
  markB : Bool
  bypass : Bool
  noProg : Bool
  epoch : Nat
  st : JobSt
  replay : Bool
  faultCore : Nat
  lostOperand : Bool
  spill : Nat
  inA : Oper
  inB : Oper
  contrib : List (Nat × List (BitVec 18))
  members : List (Nat × Bool)
  wb : Bool
  snap : Slot
  nt64 : W64
  buf : Nat
  ten : Option TenEnd
  out : Option JobOut
  deriving DecidableEq, Repr

/-- An entry of a release queue (R28, R114): the outputs of the job of a pass dispatched at boundary `due`; `late` marks the
entry of a shortened pass's job that had not committed by Q' (R133). -/
structure RelEntry where
  bus : Bool
  handle : W32
  pass : NT32
  due : NT32
  out : Option JobOut
  late : Bool
  deriving DecidableEq, Repr

/-- What a delay-list event asks for (R116). -/
inductive DKind where
  | change | prefetch (leg : Nat) | playout (leg : Nat) | rtcp (leg : Nat) | toneEnd (leg : Nat) | inactivity
  | ringOn (line : Nat) | ringOff (line : Nat) | blankEnd (line : Nat) | firmware (tag : Nat)
  deriving DecidableEq, Repr

/-- A delay-list event (R116, R117): its target on the 125 µs grid, its owner's handle, whether a step clipped it to Q'
(R132). -/
structure DEvent where
  target : NT32
  handle : W32
  kind : DKind
  clip : Bool
  deriving DecidableEq, Repr

/-- A partition's shedding state (R130, R138). -/
structure Shed where
  cfg : W32
  prog : Bool
  halvings : Nat
  deriving DecidableEq, Repr

/-- The Weir (R105 to R144). `lastP` is the boundary the Weir last worked at. `lists` are the dispatch lists of the 64 media
cores; `rel` holds the release entries; `dl` the eight delay lists; `lateFrom` is the Q' behind which jobs of a shortened pass
may still commit (R133) and `jump` marks that the next release is the first after it (R180, R378); `lastDone` is the largest
time from dispatch to commit of the pass in progress; `sweep` and `dramCe` count corrected words of the scrub sweep and period
in progress (R141); `strm` counts the words streamed to and from each core in the pass in progress (R139). -/
structure Weir where
  seeded : Bool
  nextP : NT32
  lastP : NT32
  tokens : List Token
  dl : Tab (List DEvent)
  lists : Tab (List Job)
  rel : List RelEntry
  healthy : W64
  rejoin : List Nat
  selftest : List Nat
  shed : Tab Shed
  shedStep : Option (Nat × Nat × NT32)
  lateFrom : Option NT32
  lateRaised : Bool
  jump : Bool
  lastDone : Nat
  sweep : Tab Nat
  dramCe : Nat
  strm : Tab Nat
  deriving DecidableEq, Repr

/-- The Weir at reset (R144). -/
def Weir.reset : Weir :=
  ⟨false, 0, 0, [], [], [], [], BitVec.allOnes 64, [], [], [], none, none, false, false, 0, [], 0, []⟩

/-! ### The packet path (R145 to R190) -/

/-- A flow entry (R153): its sixteen words as ADD placed them, whether it sits in the stash, the policer's tokens in
10⁻⁹ packets and the instant they were counted (R158), and the pass an index freed by REMOVE may be given out
again (R152). -/
structure Flow where
  held : Bool
  words : List W32
  stash : Bool
  bucket : Nat
  tok : Nat
  tokAt : W64
  freeAt : Option W64
  deriving DecidableEq, Repr

/-- An unused flow index. -/
def Flow.reset : Flow := ⟨false, [], false, 0, 0, 0, none⟩

/-- A key slot of the Crypto engine's store (R160 to R163): key, salt, MKI, ROC, the replay windows' highest index and the
indices seen within 128 of it, packets sent. -/
structure Key where
  loaded : Bool
  key : List W32
  salt : List W32
  mki : W32
  mkiLen : Nat
  roc : Nat
  top : Option Nat
  seen : List Nat
  rtcpTop : Option Nat
  rtcpSeen : List Nat
  sent : Nat
  rtcpSent : Nat
  lifeTold : Bool
  deriving DecidableEq, Repr

/-- An empty key slot. -/
def Key.reset : Key := ⟨false, [], [], 0, 0, 0, none, [], none, [], 0, 0, false⟩

/-- A binding (R151, R182). -/
structure Binding where
  ctrl : W32
  ports : W32
  ip : List W32
  deriving DecidableEq, Repr

/-- A partition policer (R158, R184): configuration and the tokens held (10⁻⁹ packets, 10⁻⁹ bytes). -/
structure Policer where
  pkt : W32
  byte : W32
  burst : W32
  tokP : Nat
  tokB : Nat
  at_ : W64
  deriving DecidableEq, Repr

/-- A packet the standby holds until its ingress record arrives (R181, R338). -/
structure WaitPkt where
  frame : RxFrame
  at_ : NT32
  digest : W64
  deriving DecidableEq, Repr

/-- A TRUNK frame the standby holds in the same way (R428), and the port it came on. -/
structure WaitTrunk where
  port : Nat
  stamp : NT32
  frame : TrunkFrame
  at_ : NT32
  digest : W64
  deriving DecidableEq, Repr

/-- A packet past stage 7's decision whose operand becomes visible at its deemed instant (R291), whether a standby fetched it
(R181), and of a trunk entry the port it came on (R431). -/
structure Visible where
  handle : W32
  leg : Nat
  at_ : NT32
  held : Held
  fetched : Bool
  trunk : Option Nat
  deriving DecidableEq, Repr

/-- The packet path's tables. -/
structure Path where
  flows : Tab Flow
  keys : Tab Key
  binds : Tab Binding
  pols : Tab Policer
  seed : W64
  visible : List Visible
  waiting : List WaitPkt
  trunkIn : List WaitTrunk
  nextJb : List (W64 × W32)
  lateMax : W32
  loadBits : Nat
  deriving DecidableEq, Repr

/-- The packet path at reset (R190). -/
def Path.reset : Path := ⟨[], [], [], [], 0, [], [], [], [], 0, 0⟩

/-! ### Partitions and programs (R281 to R302) -/

/-- A tenant program (R294 to R297): its image words, code length, granules and DRAM pages, whether loaded or loading. -/
structure Prog where
  loaded : Bool
  image : List Word
  code : Nat
  granules : List Nat
  pages : Nat
  restoring : Bool
  deriving DecidableEq, Repr

/-- A program that is absent. -/
def Prog.reset : Prog := ⟨false, [], 0, [], 0, false⟩

/-- A program LOAD in progress (R295): the registers it was written with. -/
structure PrgLoad where
  part : Nat
  id : Nat
  len : Nat
  code : Nat
  src : W64
  crc : W32
  deriving DecidableEq, Repr

/-- The last operation of a channel window (R65): BUSY, the operation and what it will do at completion; CHW_NEXT_P when it started
(R69), the activation boundary a WRITE begun on an ACTIVATING slot must keep (R68, R70), and, while OP_ACK is awaited, the slot as it was
and the boundary chosen (R68, R71). -/
structure ChwOp where
  op : Nat
  at_ : Bool
  startAt : NT32
  handle : W32
  desc : List W32
  target : Option NT32
  startP : NT32
  keep : Option NT32
  undo : Option (Slot × NT32)
  deriving DecidableEq, Repr

/-! ### Ethernet ports, management port, board management bus (R303 to R329) -/

/-- A scheduled frame of Q6 (R309): RTP (0), RTCP (1), trunk bundle (2) or forwarded trunk frame (3), with its launch
instant, owner and length with FCS. `retained` marks a frame a standby holds (R341). -/
structure Q6Ent where
  at_ : NT32
  handle : W32
  leg : Nat
  part : Nat
  octets : Nat
  kind : Nat
  pkt : Option TxPkt
  trunk : Option TrunkFrame
  deriving DecidableEq, Repr

/-- A frame the device itself sends that waits in a transmit queue other than Q6 (R309): the queue, its length with FCS, the link
and kind of message, and its fields. -/
structure CtlFrame where
  queue : Nat
  octets : Nat
  link : Link
  kind : Nat
  fields : List Nat
  deriving DecidableEq, Repr

/-- A media port: its Q6, the frames waiting in the other queues, the end of the frame in progress and the start of its busy run, the multicast list, the end of a wake from low-power idle, and
the last instant anything was sent, all NT64, and the quanta of the pause that stops each transmit queue (R308). -/
structure Port where
  q6 : List Q6Ent
  ctl : List CtlFrame
  busy : Option W64
  busyFrom : W64
  mc : Tab W64
  wakeAt : Option W64
  lastSent : W64
  pause : Tab Nat
  deriving DecidableEq, Repr

/-- A port with nothing queued. -/
def Port.reset : Port := ⟨[], [], none, 0, [], none, 0, []⟩

/-- The management port's transmit attempts at the frame in progress (16 once it is given up) and the backoff drawn, the MDIO frame in
progress, the I²C command each controller runs, and the controllers that recover their bus (R321 to R325). -/
structure Mgmt where
  attempts : Nat
  backoff : Nat
  mdio : W32
  cmd : Tab W32
  recovering : List Nat
  deriving DecidableEq, Repr

/-! ### Twin (R330 to R358) -/

/-- The device states of R335. -/
inductive Role where
  | alone | pairing | active | standby | detached
  deriving DecidableEq, Repr

/-- TWIN_STATE.ROLE (R354). -/
def Role.code : Role → Nat
  | .alone => 0 | .pairing => 1 | .active => 2 | .standby => 3 | .detached => 4

/-- The standby's channel states (R343). -/
inductive ChSt where
  | none | copying | shadow | resync | diverged
  deriving DecidableEq, Repr

/-- An output a standby retains until the active confirms it (R341): a ring record of a partition, with the boundary of
its release. -/
structure Retained where
  part : Nat
  ringNo : Nat
  typ : Nat
  nt : NT32
  handle : W32
  body : Nat
  at_ : NT32
  deriving DecidableEq, Repr

/-- The LINE operand of a leg that an active forwards at the next boundary (R336). -/
structure TwinLine where
  handle : W32
  leg : Nat
  samples : List (BitVec 18)
  status : Nat
  deriving DecidableEq, Repr

/-- A step named to the twin (R345): S, the tick, and whether STEP_ACK came. -/
structure TwinStep where
  s : Int
  tick : NT32
  acked : Bool
  deriving DecidableEq, Repr

/-- The digest of a channel's pass (R342). -/
structure PassDigest where
  handle : W32
  pass : NT32
  value : W32
  deriving DecidableEq, Repr

/-- The Twin Link: role, link and lanes, FENCE_N low, the device's own and its peer's ACT lines, whether pairing has succeeded,
whether an attach is asked for and whether its step is still to be taken; heartbeats sent and the grid instant of the last (R336), those missed in a row and beyond the lock limit
in a row, the peer's last report; on a standby the channels' states, those whose CONTEXT has been installed with the pass that committed it, its own digests, the
ingress records not yet served with the instants they came, digests served by a fetch, the last HORIZON, the records retained and the
takeover begun (instant, trigger); on an active the operations awaiting OP_ACK, the LINE operands to forward, the contexts asked
for (true while the job in progress is not to be sent) and the packets it told of, with the instants (log entry 226); on both the operations named for a boundary, the step, the switchover
boundary, the time source configured (R94), and on a standby each slot as it was before the last operation on it. -/
structure Twin where
  role : Role
  link : Bool
  lanes : Nat
  fence : Bool
  own : Bool
  peer : Bool
  seen : Bool
  attach : Bool
  attachStep : Bool
  hbSeq : BitVec 16
  hbAt : Option W64
  missRun : Nat
  unlockRun : Nat
  locked : Bool
  launched : NT32
  written : NT32
  peerRole : Nat
  ch : Tab ChSt
  installed : List (W32 × NT32)
  digests : List PassDigest
  ingress : List (IngressRec × NT32)
  fetched : List W64
  horizon : Option NT32
  retained : List Retained
  taking : Option (NT32 × Nat)
  acks : List TwinOp
  lines : List TwinLine
  want : List (W32 × Bool)
  atBoundary : List TwinOp
  step : Option TwinStep
  handover : Option NT32
  cfgSrc : Nat
  before : Tab (Option Slot)
  sent : List (IngressRec × NT32)
  deriving DecidableEq, Repr

/-- The twin state after a device reset (R358). -/
def Twin.reset : Twin :=
  ⟨.alone, false, 0, false, false, false, false, false, false, 0, none, 0, 0, false, 0, 0, 0, [], [], [], [], [], none, [], none, [], [],
   [], [], none, none, 1, [], []⟩

/-! ### Recorder and journal flash (R359 to R384) -/

/-- An open recording stream (R361): the unit in progress with the NT64 of its first sample, its PCM samples and flags. -/
structure Stream where
  handle : W32
  legB : Bool
  post : Bool
  noSpill : Bool
  recId : W32
  rate : Nat
  first : W64
  fill : Bool
  pcm : List (BitVec 16)
  conc : Bool
  filled : Bool
  gap : Bool
  rebase : Bool
  deriving DecidableEq, Repr

/-- A closed unit: its bytes with the fields its ring record needs (R362, R365). -/
structure RecUnit where
  part : Nat
  key : Nat
  handle : W32
  recId : W32
  legB : Bool
  post : Bool
  noSpill : Bool
  nt64 : W64
  bytes : List Byte
  at_ : NT32
  deriving DecidableEq, Repr

/-- A partition's spool (R366): state 0 LIVE, 1 SPILLING, 2 DRAINING; the units held oldest first with their spool
sequence and whether committed to flash; exported units whose space CONS has not yet freed; the count drained. -/
structure Spool where
  st : Nat
  units : List (Nat × RecUnit)
  exported : List (Nat × Nat × W32)
  next : Nat
  drained : Nat
  deriving DecidableEq, Repr

/-- An empty spool. -/
def Spool.reset : Spool := ⟨0, [], [], 1, 0⟩

/-- The Recorder: open streams by slot and leg, spools by partition, units in the flash write buffer not yet committed
(partition and sequence), units a standby retains, the latest time quality record; `staged` are the units in recording staging that wait
for their export (R365); `drains` is the last second of NT64 in which units were drained, and their number (R366). -/
structure Recorder where
  streams : Tab (Option Stream)
  spools : Tab Spool
  wbuf : List (Nat × Nat × Nat)
  retained : List RecUnit
  quality : Option (NT32 × Nat)
  inBytes : Nat
  outBytes : Nat
  flushing : Bool
  staged : List RecUnit
  drains : Nat × Nat
  deriving DecidableEq, Repr

/-- A recorder at reset. -/
def Recorder.reset : Recorder := ⟨[], [], [], [], none, 0, 0, false, [], (0, 0)⟩

/-- A calibration slot (R375): its SEQ when valid, and the name of its contents. -/
structure CalSlot where
  valid : Bool
  seq : Nat
  data : Nat
  deriving DecidableEq, Repr

/-- A transfer in progress (R382): operation, region, first sector, sectors, host address and the name of the host's bytes. -/
structure FlashXf where
  op : Nat
  region : Nat
  first : Nat
  count : Nat
  host : W64
  data : Nat
  deriving DecidableEq, Repr

/-- The journal flash: contents of the regions by 4 KiB sector (a name for the data, 0 erased), the calibration slots, the
transfer in progress, FLASH_RGN as the last format took it, the event log's records, newest first (R371), and how many blocks
have been moved (R372, R373). -/
structure Flash where
  sectors : Tab Nat
  calA : CalSlot
  calB : CalSlot
  xf : Option FlashXf
  rgn : W32
  log : List Nat
  moved : Nat
  deriving DecidableEq, Repr

/-- Flash at first power-up: erased, no valid calibration (log entry 1). -/
def Flash.reset : Flash := ⟨[], ⟨false, 0, 0⟩, ⟨false, 0, 0⟩, none, 0x80001000, [], 0⟩

/-! ### Line Front End and Serial Control Engine (R385 to R412) -/

/-- A line: the binding in force with the rate it last had; the registers of its page written since the last boundary, each
with the value in force until then (R397); the cadence: running, on, its next event and what is left after the list's event,
the instant a stop takes effect (R394); ends of the guard and of settling; the changes of its blanking, newest first (R391,
R392); the range and its last change; the last five supervision samples of tip, ring and current (R386), the
coarse currents of the milliseconds past, newest first, each with their number (R395), and the instant last sampled (R22); switch states and
debounce counts (R396); consecutive samples and states of OPEN_VT, OPEN_VR and HEADROOM (R390, R398); the measured current,
whether a sample of the last pass saturated, and the leg output released last with its boundary (R400). -/
structure Line where
  bound : Option (W32 × Nat)
  rate : Nat
  writes : List (Nat × W64)
  cadence : Bool
  ringOn : Bool
  left : Nat
  stopAt : Option NT32
  guardEnd : Option NT32
  settleEnd : Option NT32
  edges : List (NT32 × Bool)
  range : Nat
  rangedAt : Option W64
  wTip : List Int
  wRing : List Int
  wCur : List Int
  coarse : List (Int × Nat)
  sampled : Option W64
  sw : List Bool
  deb : List Nat
  openT : Nat
  openR : Nat
  openTOn : Bool
  openROn : Bool
  hr : Nat
  hrOn : Bool
  meas : Int
  sat : Bool
  out : List (BitVec 18)
  outAt : NT32
  deriving DecidableEq, Repr

/-- A line at reset (R412). -/
def Line.reset : Line :=
  ⟨none, 0, [], false, false, 0, none, none, none, [], 0, none, [], [], [], [], none, [false, false, false, false], [0, 0, 0, 0], 0, 0,
   false, false, 0, false, 0, false, [], 0⟩

/-- The LFE common part: the lines, the instants of decimator resets scheduled, whether the next CLUSTER_SYNC pulse resets,
the LINE_BLANK pin, and the end of the freeze after a re-base (R391, R393, R402). -/
structure Lfe where
  lines : Tab Line
  resets : List NT32
  syncClu : Bool
  blankPin : Bool
  rebaseEnd : Option NT32
  deriving DecidableEq, Repr

/-- The states of the Serial Control Engine (R405). -/
inductive SceSt where
  | halted | running | stalled
  deriving DecidableEq, Repr

/-- The SCE: state, program counter, program memory, registers, queues, the SCE_FRAME level, bits of the stalled word already
shifted and the instant the stall began, whether a HALT is pending, DRV_READY, and the words dropped. -/
structure Sce where
  st : SceSt
  pc : BitVec 9
  pm : Tab W32
  sr : W32
  rxsr : W32
  txq : List W32
  rxq : List W32
  frame : Bool
  shifted : Nat
  stalledAt : NT32
  haltPend : Bool
  ready : Bool
  dropped : BitVec 16
  deriving DecidableEq, Repr

/-- The SCE at reset (R412). -/
def Sce.reset : Sce := ⟨.halted, 0, [], 0, 0, [], [], false, 0, 0, false, true, 0⟩

/-! ### Cluster and Peer Fabric (R413 to R432) -/

/-- The cluster unit: the CLUSTER_ROLE strap, driving CLUSTER_SYNC, the NT64 named by the last SYNC and the last pulse,
missing pulses in a row, polls each worker has missed, sequence of SYNC, the boundary last pulsed before the seed, the instant of the last
SYNC or POLL (R415), joined. -/
structure Clu where
  manager : Bool
  driving : Bool
  named : Option W64
  lastT : Option W64
  missRun : Nat
  missed : Tab Nat
  members : BitVec 16
  polled : Option Nat
  seq : BitVec 16
  pulsed : Option W64
  sentAt : Option W64
  joined : Bool
  left : Bool
  deriving DecidableEq, Repr

/-- A route (R422): metric, next hop, port, last confirmation. -/
structure Route where
  metric : Nat
  hop : Nat
  port : Nat
  at_ : W64
  deriving DecidableEq, Repr

/-- A neighbour (R421). -/
structure Neighbour where
  port : Nat
  addr : Nat
  id : W64
  missed : Nat
  heard : Bool
  deriving DecidableEq, Repr

/-- A trunk binding (R423): the local handle, peer, remote handle and leg. -/
structure Trunk where
  handle : W32
  peer : Nat
  remote : W32
  rleg : Nat
  deriving DecidableEq, Repr

/-- The Peer Fabric: neighbours, routes by destination, bindings by slot and leg, addresses claimed by others, peers
reported down, the instant of the last HELLO and of the last ROUTE (NT64), and whether the table has changed since. -/
structure Fab where
  nbrs : List Neighbour
  routes : Tab (Option Route)
  trunks : Tab (Option Trunk)
  claimed : List Nat
  down : List Nat
  helloAt : Option W64
  routeAt : Option W64
  changed : Bool
  deriving DecidableEq, Repr
/-! ### Start-up, reset and power (R433 to R452) -/

/-- The device states of R442. -/
inductive DevSt where
  | cold | boot | timeAcquire | ready | service | dormant | fault
  deriving DecidableEq, Repr

/-- The code of PWR_STATE.STATE (R449). -/
def DevSt.code : DevSt → Nat
  | .cold => 0 | .boot => 1 | .timeAcquire => 2 | .ready => 3 | .service => 4 | .dormant => 5 | .fault => 6

/-- Power and boot: the device state, the source of the last reset, memory held for diagnosis (R437), debug unlocked
(R447), the boot step reached (R438) and recovery (R440), PWR_FAIL_N as it stands, the straps sampled, the versions of the
running image, the debug challenge's number, and the die temperature readings of the
last 30 days as runs of equal readings in 0.1 °C with their lengths in s, newest first (R448), and the partitions CONFIG names (R438). -/
structure Pwr where
  st : DevSt
  resetSrc : Nat
  memHeld : Bool
  debug : Bool
  bootStep : Nat
  recovery : Bool
  powerFail : Bool
  straps : BitVec 3
  secVersion : Nat
  challenge : Nat
  tjRuns : List (Nat × Nat)
  keepMem : Bool
  parts : List Nat
  deriving DecidableEq, Repr

/-- Power at reset: BOOT, from POR_N (R449). -/
def Pwr.reset : Pwr := ⟨.boot, 0, false, false, 0, false, false, 0, 0, 0, [], false, []⟩

/-! ### Tarn cores (R225 to R262) -/

/-- The states of TARN_STATE.STATE (R258). -/
inductive CoreSt where
  | held | idle | running | faulted | selftest | offline
  deriving DecidableEq, Repr

/-- The code of TARN_STATE.STATE (R258). -/
def CoreSt.code : CoreSt → Nat
  | .held => 0 | .idle => 1 | .running => 2 | .faulted => 3 | .selftest => 4 | .offline => 5

/-- A write that some consumers do not see yet (R229): the place written, what it held, how many instructions must lie
between, and how many have. -/
structure Past where
  place : Nat
  old : W64
  need : Nat
  age : Nat
  deriving DecidableEq, Repr

/-- A branch whose delay slots are still to run (R230, R277): 0 a plain target, 1 RETI, 2 CALLU, 3 RETU; the target or return
address; delay slots left. -/
structure Slots where
  kind : Nat
  target : BitVec 14
  left : Nat
  deriving DecidableEq, Repr

/-- A store buffer entry (R246): DM address, halves written (1 low, 2 high, 3 both), the word; the second word of a double-word
store. -/
structure PendStore where
  addr : Nat
  halves : Nat
  data : Word
  two : Option Word
  deriving DecidableEq, Repr

/-- A region of a control core's protection unit (R257): base and limit in 4 KiB units, permissions, enable, lock. -/
structure MpuRegion where
  base : Nat
  limit : Nat
  r : Bool
  w : Bool
  en : Bool
  lock : Bool
  deriving DecidableEq, Repr

/-- A disabled region. -/
def MpuRegion.reset : MpuRegion := ⟨0, 0, false, false, false, false⟩

/-- A copy a control core has queued (R278): the DM address of its block, its source and destination far addresses, its length. -/
structure DmaBlock where
  blk : Nat
  src : Nat
  dst : Nat
  len : Nat
  deriving DecidableEq, Repr

/-- A Tarn core (R225 to R262): its state; registers by the numbers of R265, accumulator components from 0x40; PC; the three
memories; the store buffer, oldest first; writes still hidden from some consumers; PM words replaced within the last fetches;
the branch in its delay slots; the repeat count; WAIT; the address range the repeat cache holds, whether the body
iteration in progress fills it, the instructions fetched from it and whether the RPT in progress has met a parity error; pending interrupts (DEBUG,
MAILBOX messages, JOB, STREAM_OUT) and the message last taken; protection regions; DMA blocks queued; the counts of the pass in
progress, and of the scrub interval. -/
structure Tarn where
  st : CoreSt
  r : Tab W64
  pc : BitVec 14
  dm : Tab Word
  cs : Tab Word
  pm : Tab Word
  sb : List PendStore
  past : List Past
  pmPast : List (Nat × Word × Nat)
  slots : Option Slots
  rpt : Option Nat
  waiting : Bool
  cache : Option (Nat × Nat)
  fill : Bool
  fetches : Nat
  refetched : Bool
  dbg : Bool
  mail : List Word
  job : Bool
  sout : Bool
  msg : Word
  mpu : Tab MpuRegion
  dmaq : List DmaBlock
  cyc : Nat
  stall3 : Nat
  stallSb : Nat
  jobs : Nat
  deriving DecidableEq, Repr

/-- A core register at reset (R261): ST has RND and SAT set; WLO and WHI keep bits [15:14]; the others are log entry 1. -/
def tarnRegReset (n : Nat) : W64 := if n = 0x30 then 0x180 else if n = 0x3A ∨ n = 0x3B then 0xC000 else 0

/-- A core at reset (R261): HELD, PC 0; its memories are log entry 1. -/
def Tarn.reset : Tarn :=
  ⟨.held, [], 0, [], [], [], [], [], [], none, none, false, none, false, 0, false, false, [], false, false, 0, [], [], 0, 0, 0, 0⟩
/-! ### The whole device -/

/-- The device: register storage by key, page headers, values held by FREEZE, and one substructure or table for each
unit. `raised` lists the dependent causes latched on the tick in progress (page, bit,
fold source, tick) for R60; `nextFree` orders freed slots; `poison` lists the Basin words written with poisoned check bits (R121); `fresh` is the model's own counter of free values (log entry 3); `outbox` holds what
left the device, newest first (log entry 5). -/
structure Dev where
  regs : Tab W64
  pages : Tab Hdr
  frozen : Tab W64
  raised : List (Nat × Nat × Nat × Nat)
  hif : Hif
  rings : Tab Ring
  tb : TimeBase
  weir : Weir
  slots : Tab Slot
  buses : Tab Bus
  path : Path
  ports : Tab Port
  mgmt : Mgmt
  twin : Twin
  recd : Recorder
  flash : Flash
  lfe : Lfe
  sce : Sce
  tarns : Tab Tarn
  clu : Clu
  fab : Fab
  chw : Tab (Option ChwOp)
  progs : Tab Prog
  load : List PrgLoad
  closing : List Nat
  nextFree : Nat
  basin : Tab Word
  poison : List Nat
  dram : Tab Byte
  pwr : Pwr
  fresh : Nat
  outbox : List Output
  deriving DecidableEq, Repr

/-- The reasons the device stops with a fault: none (log entry 6: every command of the table has an effect). -/
inductive Fault where
  /-- Raised by nothing; present so that the outcome type is inhabited by a named reason. Safe. -/
  | none
  deriving DecidableEq, Repr

/-- The reasons a command is refused. -/
inductive Refusal where
  /-- Raised by an arm of `exec` whose command has no meaning yet. Safe: the model stops. -/
  | notModelled (mnemonic : String)
  deriving DecidableEq, Repr

/-- The state: the device and the commands that wait, first in, first out. -/
structure State where
  dev : Dev
  pending : List Instr
  deriving DecidableEq, Repr

/-- The device right after a device reset (POR_N), every field at the value the spec states for reset or a log entry
names. -/
def Dev.reset : Dev where
  regs := []
  pages := []
  frozen := []
  raised := []
  hif := ⟨0, false, 0, false, false, true, false, [], [], [], 0, [], [], [], [], []⟩
  rings := []
  tb := TimeBase.reset
  weir := Weir.reset
  slots := []
  buses := []
  path := Path.reset
  ports := []
  mgmt := ⟨0, 0, 0, [], []⟩
  twin := Twin.reset
  recd := Recorder.reset
  flash := Flash.reset
  lfe := ⟨[], [], false, false, none⟩
  sce := Sce.reset
  tarns := []
  clu := ⟨false, false, none, none, 0, [], 0, none, 0, none, none, false, false⟩
  fab := ⟨[], [], [], [], [], none, none, false⟩
  chw := []
  progs := []
  load := []
  closing := []
  nextFree := 0
  basin := []
  poison := []
  dram := []
  pwr := Pwr.reset
  fresh := 0
  outbox := []

/-- The machine right after reset, with an empty queue. -/
def State.reset : State := ⟨Dev.reset, []⟩

end Sys2Proof.Machine
end

