-- ==== Sys2Proof/Machine/Ops.lean ====
section
/-! DEFINITION. The named operations over the device that every unit uses: time, register storage and counters, page
headers and causes, folding, attention and MSI-X, DMA rings, the posted-error FIFO, and entry into FAULT. -/
namespace Sys2Proof.Machine

/-- Lift a change of the device to a command's outcome: the queue is untouched. -/
def onDev (f : Dev → Dev) (s : State) : Host.Outcome State Fault Refusal := .next { s with dev := f s.dev }

/-! ### Time -/

/-- NT32 now (R72). -/
def now (d : Dev) : NT32 := d.tb.acc.extractLsb' 32 32
/-- NT64 now: the sum of TB_EXT_HI and NT32 (R76). -/
def now64 (d : Dev) : W64 := d.tb.extHi ++ now d
/-- The NT64 nearest a stamp that lies within 2.147 s of now (R22, R77). -/
def nt64Of (d : Dev) (t : NT32) : W64 := now64 d + (t - now d).signExtend 64
/-- Has instant `t` been reached (signed 32-bit comparison, R22)? -/
def reached (d : Dev) (t : NT32) : Bool := decide (0 ≤ sdiff (now d) t)

/-! ### Registers -/

/-- A register's stored value. -/
def rg (key : Nat) (d : Dev) : W64 := tabGet regReset d.regs key
/-- A register's stored value as a natural number. -/
def rgN (key : Nat) (d : Dev) : Nat := (rg key d).toNat
/-- Store a register. -/
def setRg (key : Nat) (v : W64) (d : Dev) : Dev := { d with regs := tabSet regReset d.regs key v }
/-- Store a register from a natural number. -/
def setRgN (key : Nat) (n : Nat) (d : Dev) : Dev := setRg key (BitVec.ofNat 64 n) d
/-- Advance a free-running 32-bit counter (R136). -/
def incRg (key : Nat) (d : Dev) : Dev := setRgN key ((rgN key d + 1) % 2 ^ 32) d
/-- Add to a free-running 32-bit counter. -/
def addRg (key n : Nat) (d : Dev) : Dev := setRgN key ((rgN key d + n) % 2 ^ 32) d

/-- Log what leaves the device. -/
def out (o : Output) (d : Dev) : Dev := { d with outbox := o :: d.outbox }
/-- Take the next number for a free value (log entry 3). -/
def spend (d : Dev) : Dev := { d with fresh := d.fresh + 1 }

/-! ### Units present, functions present -/

/-- Ordering code C lacks LFE and SCE, S lacks the Twin Link (R2, R49): read from HIF_FUSE_CAP. -/
def hasLfe (d : Dev) : Bool := bit (rg rHIF_FUSE_CAP d) 0
/-- Is the Serial Control Engine present (R2)? -/
def hasSce (d : Dev) : Bool := bit (rg rHIF_FUSE_CAP d) 1
/-- Is the Twin Link present (R2)? -/
def hasTwin (d : Dev) : Bool := bit (rg rHIF_FUSE_CAP d) 2

/-- Does VF `p` exist (R37)? -/
def vfExists (d : Dev) (p : Nat) : Bool := d.hif.vfEnable && decide (1 ≤ p) && decide (p ≤ d.hif.numVFs)
/-- Does the function exist? Function 0 is the PF. -/
def fnExists (d : Dev) (fn : Nat) : Bool := decide (fn = 0) || vfExists d fn

/-- Is a page present: described by the spec and its unit fitted (R3, R47, R48)? -/
def pagePresent (d : Dev) (pg : Nat) : Bool :=
  if (pageRows pg).isEmpty then false
  else if pg = 0x150 ∨ (0x160 ≤ pg ∧ pg < 0x180) then hasLfe d
  else if pg = 0x180 then hasSce d
  else if 0x120 ≤ pg ∧ pg < 0x130 then hasTwin d
  else true

/-- Routing ID of a function (R37, R63). -/
def ridOf (d : Dev) (fn : Nat) : Nat := (d.hif.pfRid.toNat + fn) % 2 ^ 16
/-- Routing ID under which the device moves data for a partition (R289). -/
def ridPart (d : Dev) (p : Nat) : Nat := if vfExists d p then ridOf d p else ridOf d 0

/-- The function a page belongs to. -/
def fnOfPage (pg : Nat) : Nat := if pg < 0x1000 then 0 else (pg - 0x1000) / 16
/-- VFA page of VF `p`. -/
def vfPage (p k : Nat) : Nat := 0x1000 + 16 * p + k

/-! ### Page headers, causes and attention (R43, R44, R56 to R60) -/

/-- The header of a page. -/
def hdr (pg : Nat) (d : Dev) : Hdr := tabGet (fun _ => Hdr.reset) d.pages pg
/-- Change the header of a page. -/
def modHdr (pg : Nat) (f : Hdr → Hdr) (d : Dev) : Dev := { d with pages := tabMod (fun _ => Hdr.reset) d.pages pg f }

/-- Does the page's UNIT_FAULT stand? Bit 0 of PG_CAUSE, masked or not (R60). -/
def faulted (pg : Nat) (d : Dev) : Bool := bit (hdr pg d).cause 0

/-- The summary of a function: is any page's cause unmasked (R56, R57)? -/
def attention (d : Dev) (fn : Nat) : Bool :=
  d.pages.any fun e => decide (fnOfPage e.1 = fn) && decide (e.2.cause &&& e.2.mask ≠ 0)

/-- Owe a function its MSI-X message when its summary went from zero to nonzero (R58). -/
def attend (before : Dev) (fn : Nat) (d : Dev) : Dev :=
  if !attention before fn && attention d fn && fnExists d fn
  then { d with hif := { d.hif with msgs := d.hif.msgs ++ [(fn, now d)] } } else d

/-- Drive IRQ_N after a change: low while the summary is nonzero and ENABLE is set (R59). -/
def driveIrq (before : Dev) (d : Dev) : Dev :=
  let lvl (x : Dev) : Bool := !(bit (rg rHIF_IRQN_CTRL x) 0 && attention x 0)
  if lvl before = lvl d then d else out (.pin .irqN (lvl d)) d

/-- The lowest set bit of a cause word. -/
def lowBit (v : W32) : Nat := ((List.range 32).find? fun i => bit v i).getD 0

/-- Latch cause bits in a header, recording the first cause (R44). When several set on one tick the lowest index is
recorded, so a lower index set on the tick of the record replaces it. -/
def Hdr.latch (h : Hdr) (bits : W32) (t : NT32) (tick : Nat) : Hdr :=
  let newly := bits &&& ~~~h.cause
  let i := lowBit newly
  let h1 := { h with cause := h.cause ||| bits }
  if newly = 0 then h1
  else if !bit h.first 31 || (decide (h.firstTick = tick) && decide (i < fld h.first 4 0))
  then { h1 with first := BitVec.ofNat 32 (0x80000000 + i), firstTime := t, firstTick := tick } else h1

/-- Latch causes of a page and give attention. -/
def setCause (pg : Nat) (bits : W32) (d : Dev) : Dev :=
  let d1 := modHdr pg (fun h => h.latch bits (now d) d.tb.ticks) d
  driveIrq d (attend d (fnOfPage pg) d1)

/-! ### DMA rings (R50 to R55) -/

/-- A record before it is offered: type, instant, handle, body (bytes 12 to 63, byte 12 lowest). -/
structure Rec where
  typ : Nat
  nt : NT32
  handle : W32
  body : Nat
  deriving DecidableEq, Repr

/-- A body from fields given as (first byte, bytes, value) (R50: little-endian). -/
def body (fs : List (Nat × Nat × Nat)) : Nat :=
  fs.foldl (fun a f => a ||| ((f.2.2 % 256 ^ f.2.1) <<< (8 * (f.1 - 12)))) 0

/-- Ring `r` of partition `p`: 0 event, 1 exception, 2 recording, and 3 fault for partition 0 (R51). -/
def ringKey (p r : Nat) : Nat := 4 * p + r
/-- The ring of the management port (R322). -/
def mgmtRing : Nat := 0x10000
/-- A transmit ring: media port `p`, or the management port as 4 (R311). -/
def txRing (p : Nat) : Nat := 0x10010 + p

/-- A ring. -/
def ring (k : Nat) (d : Dev) : Ring := tabGet (fun _ => Ring.reset) d.rings k
/-- Change a ring. -/
def modRing (k : Nat) (f : Ring → Ring) (d : Dev) : Dev := { d with rings := tabMod (fun _ => Ring.reset) d.rings k f }

/-- Records a ring holds (R51). -/
def Ring.size (r : Ring) : Nat := 2 ^ r.sizeLog2
/-- Slots free (R53). -/
def Ring.room (r : Ring) : Nat := r.size - (r.prod - r.cons).toNat

/-- The 64 bytes of a record as one number, byte 0 lowest (R50, R55). -/
def recBytes (seq : BitVec 16) (phase : Bool) (x : Rec) : Nat :=
  seq.toNat ||| (x.typ <<< 16) ||| (b2n phase <<< 24) ||| (x.nt.toNat <<< 32) ||| (x.handle.toNat <<< 64) ||| (x.body <<< 96)

/-- Write one record into a ring: slot PROD mod size, PHASE of R55, SEQ, PROD and the write count advance; the posted
write leaves before PROD and the cause change (R52). -/
def ringPut (k : Nat) (x : Rec) (d : Dev) : Dev :=
  let r := ring k d
  let phase := !(Nat.testBit r.writes r.sizeLog2)
  let slot := r.prod.toNat % r.size
  let d1 := out (.hostWrite (ridPart d (k / 4)) (r.base.toNat + 64 * slot) 64 (recBytes r.seq phase x)) d
  modRing k (fun r => { r with prod := r.prod + 1, seq := r.seq + 1, writes := r.writes + 1 }) d1

/-- The page and cause bit of a written record and of a drop, for each ring (R49, R299, R322). -/
def ringCause (k : Nat) (drop : Bool) : Nat × Nat :=
  if k = mgmtRing then (0x110, if drop then 4 else 3)
  else if k < 4 then (0, if drop then 7 else 3 + k)
  else (vfPage (k / 4) 5, if drop then 4 else 1 + k % 4)

/-- The LOSS record a ring owes (R53). -/
def lossRec (r : Ring) : Rec :=
  ⟨0x02, r.lostFirst, 0, body [(12, 4, r.lost.toNat), (16, 4, r.lostLast.toNat)]⟩

/-- Offer a record to a ring (R52, R53): written, with a LOSS record before it after drops, or dropped when the ring is
full or disabled. A standby, or a device that attaches to become one, retains what it would write to a partition's ring, with the boundary of its
release (R341). -/
def ringOffer (k : Nat) (x : Rec) (d : Dev) : Dev :=
  let r := ring k d
  if (d.twin.role = .standby ∨ d.twin.role = .pairing) ∧ 4 ≤ k ∧ k < 0x10000 then
    { d with twin := { d.twin with
             retained := d.twin.retained ++ [⟨k / 4, k % 4, x.typ, x.nt, x.handle, x.body, d.weir.lastP⟩] } }
  else
  let need := if r.lost = 0 then 1 else 2
  if r.enable && decide (need ≤ r.room) then
    let d1 := if r.lost = 0 then d
      else modRing k (fun r => { r with lost := 0, lostFirst := 0, lostLast := 0 }) (ringPut k (lossRec r) d)
    let c := ringCause k false
    setCause c.1 (1 <<< c.2) (ringPut k x d1)
  else
    let c := ringCause k true
    let d1 := modRing k (fun r =>
      let r1 := { r with seq := r.seq + 1, drop := r.drop + 1 }
      if r.enable then { r1 with lost := r.lost + 1, lostFirst := if r.lost = 0 then x.nt else r.lostFirst,
                                 lostLast := x.nt } else r1) d
    setCause c.1 (1 <<< c.2) d1

/-- A record enters the event log of the journal flash, while it is mounted (R371). -/
def logEvent (x : Rec) (d : Dev) : Dev :=
  if bit (rg rFLASH_STATUS d) 0 then { d with flash := { d.flash with log := recBytes 0 false x :: d.flash.log } } else d

/-- Write a fault-ring record: HIF ring 3, and the event log (R61, R62, R371). -/
def faultRec (x : Rec) (d : Dev) : Dev := ringOffer (ringKey 0 3) x (logEvent x d)

/-- Page and type code in bytes 16 to 19 of a fault record (R62). -/
def pageFields (pg : Nat) : List (Nat × Nat × Nat) := [(16, 2, pg), (18, 2, pageType pg)]

/-- Fold a cause into PG_FOLD.COUNT of the page where it would have latched, charged to its source (R43, R60). -/
def foldInto (pg src : Nat) (d : Dev) : Dev :=
  modHdr src (fun h => { h with folded := h.folded + 1 })
    (modHdr pg (fun h => { h with fold := if h.fold = 0x7FFFFFFF then h.fold else h.fold + 1 }) d)

/-- Take back a cause that was latched before its source's UNIT_FAULT on the same tick: it folds (R60). The first cause recorded for it
gives way to the lowest other cause latched on that tick (R44), and a message owed for it alone is not sent (R58). -/
def unlatch (pg b : Nat) (others : List Nat) (d : Dev) : Dev :=
  let d1 := modHdr pg (fun h =>
    let h1 := { h with cause := h.cause &&& ~~~(1#32 <<< b) }
    if bit h.first 31 ∧ h.firstTick = d.tb.ticks ∧ fld h.first 4 0 = b then
      match (List.range 32).find? fun i => others.contains i && bit h1.cause i with
      | some i => { h1 with first := BitVec.ofNat 32 (0x80000000 + i) }
      | none => { h1 with first := h1.first &&& 0x7FFFFFFF }
    else h1) d
  let fn := fnOfPage pg
  driveIrq d (if attention d1 fn then d1
    else { d1 with hif := { d1.hif with msgs := d1.hif.msgs.filter fun m => !(decide (m.1 = fn) && decide (m.2 = now d)) } })

/-- The dependents of a unit latched on the tick on which its UNIT_FAULT sets fold under it (R60). -/
def foldTick (src : Nat) (d : Dev) : Dev :=
  let same := d.raised.filter fun e => decide (e.2.2.2 = d.tb.ticks)
  let mine := same.filter fun e => decide (e.2.2.1 = src)
  mine.foldl (fun x e =>
    if bit (hdr e.1 x).cause e.2.1
    then foldInto e.1 src (unlatch e.1 e.2.1 ((same.filter fun y => decide (y.1 = e.1)).map (·.2.1)) x) else x)
    { d with raised := same.filter fun e => decide (e.2.2.1 ≠ src) }

/-- Raise a cause of a page. When a PF unit's UNIT_FAULT sets, the device records the instant and writes a UNIT_FAULT_SET
record (R60 to R62). -/
def raise (pg b : Nat) (d : Dev) : Dev :=
  if b = 0 ∧ pg < 0x200 ∧ !faulted pg d then
    let d1 := modHdr pg (fun h => { h with faultAt := now d, folded := 0 }) (setCause pg 1 d)
    foldTick pg (faultRec ⟨0xF0, now d, 0, body (pageFields pg)⟩ d1)
  else setCause pg (1 <<< b) d

/-- Raise a cause that names a fold source: folded while the source's UNIT_FAULT stands, latched otherwise (R60). -/
def raiseF (pg b src : Nat) (d : Dev) : Dev :=
  if faulted src d then foldInto pg src d
  else if bit (hdr pg d).cause b then raise pg b d
  else
    let d1 := raise pg b d
    { d1 with raised := (pg, b, src, d.tb.ticks) :: d1.raised.filter fun e => decide (e.2.2.2 = d.tb.ticks) }

/-- Raise a partition's cause in its PART page and, while the VF exists, in the VFA page of its VF (R142, R299). -/
def raisePart (p b : Nat) (d : Dev) : Dev :=
  let d1 := raise (0x200 + p) b d
  if vfExists d p ∧ b ≠ 3 then raise (vfPage p 0) b d1 else d1

/-- As `raisePart`, for a cause with a fold source (R142, R189). -/
def raisePartF (p b src : Nat) (d : Dev) : Dev :=
  let d1 := raiseF (0x200 + p) b src d
  if vfExists d p then raiseF (vfPage p 0) b src d1 else d1

/-- The partition a handle names (R64). -/
def hPart (h : W32) : Nat := fld h 23 14
/-- The slot a handle names (R64). -/
def hSlot (h : W32) : Nat := fld h 13 0
/-- The generation a handle names (R64). -/
def hGen (h : W32) : Nat := fld h 31 24
/-- The handle of a slot's current lease (R64). -/
def mkHandle (gen part slot : Nat) : W32 := BitVec.ofNat 32 (gen * 2 ^ 24 + part * 2 ^ 14 + slot)

/-- A tag mismatch (R287): the access is discarded, a TAG_FAULT record names the requesting unit and both partitions,
PART_TAG_FAULT advances and TAG_FAULT rises in the PART page of the requesting partition, folding under that unit. -/
def tagFault (unit owner req resource : Nat) (d : Dev) : Dev :=
  let d1 := faultRec ⟨0xF3, now d, 0, body ([(12, 4, owner * 65536 + req), (20, 8, resource)] ++ pageFields unit)⟩ d
  raiseF (0x200 + req) 3 unit (incRg (kPart req oPART_TAG_FAULT) d1)

/-- Offer a record to a partition's ring after the tag check of R287: a record on a ring of a partition from 1 to 1,023
whose handle is nonzero must name that partition. -/
def offer (p r : Nat) (x : Rec) (d : Dev) : Dev :=
  if p ≠ 0 ∧ x.handle ≠ 0 ∧ hPart x.handle ≠ p then tagFault 0 (hPart x.handle) p (ringKey p r) d
  else ringOffer (ringKey p r) x d

/-- Offer an event record to a partition's event ring. -/
def event (p : Nat) (x : Rec) (d : Dev) : Dev := offer p 0 x d

/-- An ANCHOR record (R50, R54). -/
def anchorRec (d : Dev) : Rec := ⟨0x01, now d, 0, body [(12, 8, (now64 d).toNat)]⟩

/-- Every enabled ring takes an ANCHOR record, the management port's receive ring included (R54, R322). -/
def anchorAll (d : Dev) : Dev :=
  (d.rings.filter fun e => e.2.enable && decide (e.1 ≤ mgmtRing)).foldl (fun x e => ringOffer e.1 (anchorRec x) x) d

/-! ### Rejected posted writes (R63) -/

/-- The reasons of R63. -/
inductive Reason where
  | locked | reserved | foreign | width | busy | range
  deriving DecidableEq, Repr

/-- The reason code of R63. -/
def Reason.code : Reason → Nat
  | .locked => 1 | .reserved => 2 | .foreign => 3 | .width => 4 | .busy => 5 | .range => 6

/-- Push an entry onto the posted-error FIFO, or count it lost (R63). -/
def pushPerr (e : PErr) (d : Dev) : Dev :=
  if d.hif.perr.length < 8
  then raise 0 1 { d with hif := { d.hif with perr := d.hif.perr ++ [e] } }
  else raise 0 2 { d with hif := { d.hif with ovf := satInc d.hif.ovf } }

/-- Byte enables of an access of `size` bytes at an address, by byte lane of the 8-byte word (log entry 7). -/
def byteEnables (addr size : Nat) : BitVec 8 := BitVec.ofNat 8 (((2 ^ size - 1) <<< (addr % 8)) % 256)

/-- Log an access as HIF_POSTED_ERR does (R63). -/
def logErr (fn : Nat) (r : Reason) (bar addr size : Nat) (d : Dev) : Dev :=
  pushPerr ⟨BitVec.ofNat 16 (ridOf d fn), BitVec.ofNat 4 r.code, BitVec.ofNat 4 bar, byteEnables addr size,
    BitVec.ofNat 64 addr, now d⟩ d

/-- A rejected posted write: discarded, counted for a VF, logged (R63). -/
def reject (fn : Nat) (r : Reason) (bar addr size : Nat) (d : Dev) : Dev :=
  let d1 := if fn = 0 then d else incRg (kVfa fn oVFA_WR_DROP) d
  logErr fn r bar addr size d1

/-! ### Device state and FAULT (R442, R445) -/

/-- Is the device in SERVICE? -/
def inService (d : Dev) : Bool := decide (d.pwr.st = .service)

/-- Change the device state: PWR.STATE and PWR_STATE_TIME (R442, R449, R452). -/
def setDevSt (st : DevSt) (d : Dev) : Dev :=
  if d.pwr.st = st then d
  else raise 2 1 (setRgN rPWR_STATE_TIME (now d).toNat { d with pwr := { d.pwr with st := st } })

/-- The ACT line falls; without a Twin Link no signal of it is driven (R5). -/
def actLow (d : Dev) : Dev := if hasTwin d then out (.pin .act false) d else d

/-- Enter FAULT (R445): the ACT line falls, CLUSTER_SYNC is released, the cause is recorded and a DEVICE_FAULT record
written (R62). Q6, dispatch, lines and fabric transmission look at the state. The first cause stands until a reset. -/
def enterFault (reason page : Nat) (d : Dev) : Dev :=
  if d.pwr.st = .fault then d
  else
    let pf := reason * 4096 + page
    let d1 := setDevSt .fault (setRgN rPWR_FAULT pf d)
    let d2 := out (.pin .clusterSync false) (actLow { d1 with twin := { d1.twin with own := false } })
    faultRec ⟨0xF4, now d, 0, body [(12, 4, pf)]⟩ d2

/-- A unit's UNIT_FAULT that its chapter names as placing the device in FAULT (R141, R188, R445). -/
def fatalPage (pg : Nat) : Bool :=
  decide (pg = 0x20 ∨ pg = 0x90 ∨ pg = 0xB0 ∨ pg = 0xC0 ∨ pg = 0xD0 ∨ pg = 0xE0)

/-- Raise a unit's UNIT_FAULT, and enter FAULT where the unit is fatal. -/
def unitFault (pg : Nat) (d : Dev) : Dev :=
  let d1 := raise pg 0 d
  if fatalPage pg then enterFault 1 pg d1 else d1

/-- Sum of a list of numbers. -/
def sumL (l : List Nat) : Nat := l.foldl (· + ·) 0

end Sys2Proof.Machine
end

