-- ==== Sys2Proof/Machine/TimeBase.lean ====
section
/-! DEFINITION. The Time Base: the counter and its increment, steps and the re-base boundary, the servo's states, PPS, time
of day and the time quality record (rules R72 to R104). -/
namespace Sys2Proof.Machine

/-- Change the Time Base. -/
def modTb (f : TimeBase → TimeBase) (d : Dev) : Dev := { d with tb := f d.tb }

/-- Is any channel ACTIVATING or ACTIVE (R79, R97)? -/
def anyChannel (d : Dev) : Bool := d.slots.any fun e => decide (e.2.st = .activating ∨ e.2.st = .active)
/-- Is any channel ACTIVE (R83)? -/
def anyActive (d : Dev) : Bool := d.slots.any fun e => decide (e.2.st = .active)

/-! ### The counter -/

/-- The NT32 wrap (R76): TB_EXT_HI loads from TB_EXT_NEXT, or loads TB_EXT_HI + 1 and raises EXT_MISMATCH. From the wrap
TB_EXT_NEXT reads the value loaded. -/
def ntWrap (d : Dev) : Dev :=
  let hi := d.tb.extHi + 1
  let d1 := modTb (fun t => { t with extHi := hi, extNext := hi }) d
  if d.tb.extNext = hi then d1 else raise 0x10 8 d1

/-- Keep the last `n` units of a list of runs, newest first. -/
def keepRuns {α : Type} : Nat → List (α × Nat) → List (α × Nat)
  | _, [] => []
  | n, (t, k) :: rest => if n ≤ k then (if n = 0 then [] else [(t, n)]) else (t, k) :: keepRuns (n - k) rest
/-- One more unit of a value at the front of a list of runs. -/
def noteRun {α : Type} [DecidableEq α] (x : α) : List (α × Nat) → List (α × Nat)
  | (t, k) :: rest => if t = x then (t, k + 1) :: rest else (x, 1) :: (t, k) :: rest
  | [] => [(x, 1)]

/-- The ticks of 60 s at the 800 MHz of R72, over which R80 takes its mean (log entry 184). -/
def meanTicks : Nat := 48000000000

/-- Does the servo's output set the rate (R74, R80, R81)? -/
def servoSteers (t : TimeBase) : Bool :=
  decide (t.src ≠ 0) && decide (t.servo = .locking ∨ t.servo = .locked ∨ t.servo = .holdover)

/-- One Time Base tick (R72): the increment is added to the accumulator. A written increment is used from the tick after
its write, or from the tick after that while a step awaits this tick (R73, R79), and not while the last frequency is held
(R75). The servo's output is noted for R80 and the time since LOCKED was left for R89. -/
def tbTick (d : Dev) : Dev :=
  let hold := d.tb.refHold.isSome || match d.tb.step with | some p => p.tick.isNone | none => false
  let inc := if hold then d.tb.inc else d.tb.incNext.getD d.tb.inc
  let rest := if hold then d.tb.incNext else none
  let sum := d.tb.acc.toNat + inc.toNat
  let d1 := modTb (fun t => { t with
    acc := BitVec.ofNat 64 sum, inc := inc, incNext := rest, since := t.since + 1, ticks := t.ticks + 1,
    incRuns := if servoSteers t then keepRuns meanTicks (noteRun inc t.incRuns) else t.incRuns,
    sinceLocked := if t.servo = .locked then 0 else t.sinceLocked + inc.toNat }) d
  if sum < 2 ^ 64 then d1 else ntWrap d1

/-- The accepted range of TB_INC: nominal ± 2,684,354 (R73). -/
def incOk (v : Nat) : Bool := decide (0x13FD70A3E ≤ v) && decide (v ≤ 0x14028F5C2)

/-- Set the increment from the servo or an accepted write. -/
def setInc (v : Nat) (d : Dev) : Dev := modTb (fun t => { t with incNext := some (BitVec.ofNat 40 v) }) d

/-- TB_FREQ_PPB: the rate from nominal in ppb (R98; rounding is log entry 8). -/
def freqPpb (d : Dev) : Int := ((d.tb.inc.toNat : Int) - 0x140000000) * 1000000000 / 0x140000000

/-! ### Steps and the re-base (R78 to R84) -/

/-- The outcome of a step request (R79). -/
inductive StepRes where
  | refusedBusy | refusedRange | busy | discarded | accepted
  deriving DecidableEq, Repr

/-- Which row of R79's table a step of `s` ns meets, in the order listed. -/
def stepCheck (s : Int) (d : Dev) : StepRes :=
  if !d.tb.armed then .refusedBusy
  else if anyChannel d ∧ (rgN rTB_STEP_MAX_ACTIVE d : Int) < s.natAbs then .refusedRange
  else if d.tb.step.isSome then .busy
  else if s < 0 ∧ ((now64 d).toNat : Int) + s < 0 then .refusedRange
  else if s = 0 then .discarded
  else .accepted

/-- Hold a step for its tick: the next, or a named one (R79, R345, R418). -/
def holdStep (s : Int) (tick : Option NT32) (d : Dev) : Dev := modTb (fun t => { t with step := some ⟨s, tick⟩ }) d

/-- K of R82. -/
def rebaseK (s : Int) : Int := (s + 499999).fdiv 1000000

/-- The re-base boundary Q' (R82): the old grid's boundary B moved by K passes, and one further when that leaves less than
20 µs after the step. `b` and `nt` are re-based NT64 values. -/
def rebaseQ (b : Int) (s nt : Int) : Int :=
  let q := b + rebaseK s * 1000000
  if q - nt < 20000 then q + 1000000 else q

/-- The distance rule of R132 for one delay-list event at a step of `s` from old time `t`: an event reached by the step keeps its target and is
due, one beyond the signed range is marked for Q'. A target so far back that 32 bits no longer show it as past moves by whole passes to
stand less than a pass before the new time (log entry 199). -/
def stepEvent (s : Int) (t new : NT32) (e : DEvent) : DEvent :=
  let dist := sdiff e.target t - s
  if dist ≤ -2147483648 then { e with target := new - BitVec.ofInt 32 ((-dist) % 1000000) }
  else if 2147483647 < dist then { e with clip := true } else e

/-- A port's own instants, of elapsed time, in the NT a step of `s` leaves (R326). -/
def Port.moved (s : Int) (x : Port) : Port :=
  let mv (t : W64) : W64 := t + BitVec.ofInt 64 s
  { x with busy := x.busy.map mv, busyFrom := mv x.busyFrom, wakeAt := x.wakeAt.map mv, lastSent := mv x.lastSent }

/-- The step itself (R79, R82, R132): NT64 moves by S, TB_EXT_NEXT is reloaded, ARMED clears, TB_LAST_STEP_AT and
STEP_APPLIED, and where the Weir is seeded its next boundary becomes Q'. A PPS_OUT pulse in progress keeps its length (R84). -/
def applyStep (s : Int) (d : Dev) : Dev :=
  let old64 : Int := (now64 d).toNat
  let b : Int := old64 + sdiff d.weir.nextP (now d)
  let new64 := BitVec.ofInt 64 (old64 + s)
  let newNt : NT32 := new64.extractLsb' 0 32
  let hi : W32 := new64.extractLsb' 32 32
  let frac : W32 := d.tb.acc.extractLsb' 0 32
  let q := rebaseQ b s (old64 + s)
  let d1 := modTb (fun t => { t with
    acc := newNt ++ frac, extHi := hi, extNext := hi + 1, armed := false, step := none,
    ppsRise := t.ppsRise + BitVec.ofInt 32 s, since := 0, stepped := true, secIdx := new64.toNat / 1000000000,
    rebase := if d.weir.seeded then some ⟨s, rebaseK s, BitVec.ofInt 32 q⟩ else none })
    { d with
      ports := d.ports.map fun e => (e.1, e.2.moved s)
      lfe := { d.lfe with lines := d.lfe.lines.map fun e => (e.1, { e.2 with rangedAt := e.2.rangedAt.map (· + BitVec.ofInt 64 s) }) } }
  let d2 := if d.weir.seeded then
      { d1 with weir := { d1.weir with
                          nextP := BitVec.ofInt 32 q,
                          dl := d1.weir.dl.map fun e => (e.1, e.2.map (stepEvent s (now d) newNt)) } } else d1
  raise 0x10 2 (setRgN rTB_LAST_STEP_AT newNt.toNat d2)

/-! ### The servo (R80, R81, R89) -/

/-- The MAC page that is the fold source of the PTP source's port (R103). -/
def macPage (p : Nat) : Nat := 0x100 + 4 * p

/-- Raise VTIM.TIME_STATE in every VF's VTIM page (R102). -/
def raiseTimeState (d : Dev) : Dev :=
  if d.hif.vfEnable then (List.range d.hif.numVFs).foldl (fun x p => raise (vfPage (p + 1) 7) 1 x) d else d

/-- Enter a servo state (R81, R103): the causes HOLDOVER and LOCKED, TIME_STATE, TB_HOLD_SEC back to 0 on leaving
HOLDOVER, and the run counters cleared. -/
def setServo (st : Servo) (d : Dev) : Dev :=
  if d.tb.servo = st then d else
  let was := d.tb.servo
  let d1 := modTb (fun t => { t with
    servo := st, offs := [], lockRun := 0, jumpRun := 0,
    incRuns := if st = .freerun then [] else t.incRuns,
    everLocked := t.everLocked || decide (st = .locked), firstLocked := t.firstLocked || decide (st = .locked),
    sinceLocked := if was = .locked then 0 else t.sinceLocked,
    rearmed := if st = .holdover then t.rearmed else false,
    jumpRefused := if st = .holdover then t.jumpRefused else false,
    sourceLost := if st = .holdover then t.sourceLost else false }) d
  let d2 := if was = .holdover then setRgN rTB_HOLD_SEC 0 d1 else d1
  let d3 := if st = .holdover then raise 0x10 5 d2 else if st = .locked then raise 0x10 6 d2 else d2
  raiseTimeState d3

/-- The mean of the servo's output over the preceding 60 s, or over what there is of it (R80; log entry 184); with none yet, the
increment in force. -/
def meanInc (t : TimeBase) : Nat :=
  let n := sumL (t.incRuns.map (·.2))
  if n = 0 then t.inc.toNat else sumL (t.incRuns.map fun e => e.1.toNat * e.2) / n

/-- HOLDOVER on a refused jump (R80): TB_INC holds the mean of its output over the preceding 60 s. -/
def jumpRefuse (d : Dev) : Dev :=
  raise 0x10 1 (setServo .holdover (modTb (fun t => { t with jumpRefused := true }) (setInc (meanInc d.tb) d)))

/-- HOLDOVER on a lost source (R81): TB_INC holds the same mean (log entry 185). -/
def holdSource (d : Dev) : Dev :=
  setServo .holdover (modTb (fun t => { t with sourceLost := true }) (setInc (meanInc d.tb) d))

/-- Steer (R80): the servo's frequency estimate is a free value, and the new increment one that lies no more than TB_SLEW_MAX
beyond it; both stay in the accepted range. -/
def steer (off : Int) (d : Dev) : Dev :=
  let slew : Int := (rgN rTB_SLEW_MAX d : Int) * 0x140000000 / 1000000000
  let est : Int := clampInt 0x13FD70A3E 0x14028F5C2 (0x140000000 + Config.freqEstimate d.fresh off)
  let inc : Int := est + clampInt (-slew) slew (Config.servo d.fresh off)
  setInc (clampInt 0x13FD70A3E 0x14028F5C2 inc).toNat (modTb (fun t => { t with freqEst := BitVec.ofInt 40 est }) (spend d))

/-- The servo's own step (R79 to R81): by the negated mean offset, so that NT moves onto the master's time (log entry 9);
R79's refusals hold for it too. -/
def servoStep (mean : Int) (d : Dev) : Dev :=
  match stepCheck (-mean) d with
  | .accepted => setServo .locking (holdStep (-mean) none d)
  | .discarded => setServo .locking d
  | .busy => d
  | _ => jumpRefuse (raise 0x10 3 d)

/-- The mean of a run of offsets. -/
def meanOf (l : List Int) : Int := l.foldl (· + ·) 0 / (l.length : Int)
/-- Do the offsets agree within a limit of each other (R80)? -/
def agree (l : List Int) (lim : Int) : Bool := l.all fun a => l.all fun b => decide (a - b ≤ lim)

/-- Remember that the present source has been acquired (R81). -/
def acquired (d : Dev) : Dev :=
  modTb (fun t => { t with everAcquired := if t.everAcquired.contains t.src then t.everAcquired else t.src :: t.everAcquired }) d

/-- A new offset measurement (R80, R81). `off` is in ns. -/
def measure (off : Int) (d : Dev) : Dev :=
  let jl : Int := rgN rTB_JUMP_LIMIT d
  let ll : Int := rgN rTB_LOCK_LIMIT d
  let mag : Int := off.natAbs
  match d.tb.servo with
  | .freerun => d
  | .acquiring =>
    let offs := off :: d.tb.offs
    let d1 := modTb (fun t => { t with offs := offs }) d
    if offs.length < 8 then d1
    else
      let m := meanOf offs
      if d.tb.armed then acquired (servoStep m d1)
      else if (m.natAbs : Int) ≤ jl then acquired (setServo .locking d1)
      else jumpRefuse d1
  | .locking =>
    if jl < mag then jumpRefuse d
    else
      let d1 := steer off d
      let run := if mag < ll then d.tb.lockRun + 1 else 0
      if 16 ≤ run then setServo .locked d1 else modTb (fun t => { t with lockRun := run }) d1
  | .locked =>
    if jl < mag then jumpRefuse d
    else
      let d1 := steer off d
      let run := if 4 * ll < mag then d.tb.jumpRun + 1 else 0
      if 4 ≤ run then setServo .locking d1 else modTb (fun t => { t with jumpRun := run }) d1
  | .holdover =>
    let offs := (off :: d.tb.offs).take 8
    let run := if mag ≤ jl then d.tb.jumpRun + 1 else 0
    let d1 := modTb (fun t => { t with offs := offs, jumpRun := run }) d
    if 8 ≤ run then setServo .locking d1
    else if d.tb.rearmed && decide (offs.length = 8) && agree offs jl then servoStep (meanOf offs) d1
    else d1

/-- 2⁻¹⁶ ns as the whole ns of TB_OFFSET and TB_MPD, toward minus infinity (log entry 186). -/
def wholeNs (x : Int) : Int := x.fdiv 65536

/-- A measurement reported in TB_OFFSET and TB_MPD. `off` and `mpd` are in 2⁻¹⁶ ns (R92, R98; log entry 186). -/
def reportOffset (off mpd : Int) (d : Dev) : Dev :=
  setRg rTB_MPD (BitVec.zeroExtend 64 (BitVec.ofInt 32 (wholeNs mpd)))
    (setRg rTB_OFFSET (BitVec.zeroExtend 64 (BitVec.ofInt 32 (clampInt (-2147483648) 2147483647 (wholeNs off))))
      (modTb (fun t => { t with meas := some (off, mpd, t.gm.port) }) d))

/-- A measurement: reported, then given to the servo. One taken before the source is qualified is discarded (R81). -/
def takeMeasurement (off mpd : Int) (d : Dev) : Dev :=
  if d.tb.servo = .freerun then d else measure (wholeNs off) (reportOffset off mpd d)

/-- The source is qualified: FREERUN goes to ACQUIRING (R81). -/
def sourceQualified (d : Dev) : Dev :=
  let d1 := modTb (fun t => { t with qualified := true }) d
  if d.tb.servo = .freerun then setServo .acquiring d1 else d1

/-- Raise SOURCE_LOST, folding under the MAC port of a PTP source (R103). -/
def raiseSourceLost (d : Dev) : Dev :=
  if d.tb.src = 1 ∧ d.tb.gm.port < 4 then raiseF 0x10 7 (macPage d.tb.gm.port) d else raise 0x10 7 d

/-- The source is lost (R81). -/
def sourceLost (d : Dev) : Dev :=
  let d1 := modTb (fun t => { t with qualified := false }) d
  match d.tb.servo with
  | .freerun => d1
  | .acquiring => raiseSourceLost (setServo .freerun d1)
  | .holdover => modTb (fun t => { t with sourceLost := true }) d1
  | _ => raiseSourceLost (holdSource d1)

/-- Change the source (R81, R98): a source never acquired returns the servo to FREERUN, one acquired before re-enters
LOCKING from a state that had media time. -/
def setSource (n : Nat) (d : Dev) : Dev :=
  let d1 := modTb (fun t => { t with src := n, qualified := false }) d
  if d.tb.src = n then d
  else if d.tb.everAcquired.contains n then
    (if d.tb.servo = .locked ∨ d.tb.servo = .locking ∨ d.tb.servo = .holdover then setServo .locking d1 else d1)
  else setServo .freerun d1

/-- Is the profile a telecom profile (R89)? -/
def telecom (d : Dev) : Bool := decide (2 ≤ fld (rg rTB_PTP_CTRL d) 1 0)

/-- The clockClass in force (R89). -/
def clockClass (d : Dev) : Nat :=
  let hold := if d.tb.sinceLocked < rgN rTB_HOLD_SPEC d * 1000000000 * 2 ^ 32 then 135 else 165
  if telecom d then
    match d.tb.servo with
    | .locked => d.tb.gm.clockClass
    | .locking => if d.tb.everLocked then hold else 248
    | .holdover => if d.tb.everLocked then hold else 248
    | _ => 248
  else if d.tb.servo = .locked ∧ d.tb.gm.traceable then d.tb.gm.clockClass else 248

/-- TB_SERVO (R98). -/
def servoReg (d : Dev) : Nat :=
  d.tb.gm.steps % 65536 * 65536 + clockClass d % 256 * 256 + b2n d.tb.gm.traceable * 8 + d.tb.servo.code

/-! ### The integer second, PPS and the time quality record (R90 to R92) -/

/-- The body of the time quality record (R92). -/
def qualityBody (sec : Nat) (d : Dev) : Nat :=
  let off : Int := match d.tb.meas with | some m => m.1 | none => 0
  let mpd : Int := match d.tb.meas with | some m => m.2.1 | none => 0
  let pps := decide (d.tb.src = 2)
  let flags := b2n d.tb.gm.traceable + 2 * b2n d.tb.gm.ptpScale + 4 * b2n pps + 8 * b2n d.tb.stepped + 16 * b2n d.tb.jumpRefused
  body [(12, 8, sec), (20, 8, (BitVec.ofInt 64 off).toNat), (28, 8, if pps then 0 else (BitVec.ofInt 64 mpd).toNat),
    (36, 8, if pps then 2 ^ 64 - 1 else rgN rTB_GM_ID d), (44, 2, d.tb.gm.steps), (46, 1, clockClass d),
    (47, 1, d.tb.gm.accuracy), (48, 2, d.tb.gm.variance), (50, 1, d.tb.servo.code), (51, 1, flags),
    (52, 4, rgN rTB_HOLD_SEC d), (56, 4, (BitVec.ofInt 32 (freqPpb d)).toNat),
    (60, 2, if pps then rgN rTB_UTC_OFFSET d else d.tb.gm.utcOffset), (62, 1, fld (rg rTB_PTP_CTRL d) 15 8),
    (63, 1, if d.tb.src = 1 then d.tb.gm.port else 0xFF)]

/-- The time quality record of a second (R92). -/
def qualityRec (sec : Nat) (d : Dev) : Rec := ⟨0x10, BitVec.ofNat 32 sec, 0, qualityBody sec d⟩

/-- May PPS_OUT rise now (R84, R90)? At least 500 ms of elapsed time, 400,000,000 ticks, must lie behind a step. -/
def ppsMayRise (d : Dev) : Bool :=
  let c := rg rTB_PPS_OUT_CTRL d
  bit c 0 && (bit c 1 || decide (d.tb.servo = .locking ∨ d.tb.servo = .locked ∨ d.tb.servo = .holdover)) &&
    (!d.tb.stepped || decide (400000000 ≤ d.tb.since))

/-- PPS_OUT rises (R90). -/
def ppsRise (d : Dev) : Dev :=
  if ppsMayRise d then out (.pin .ppsOut true) (modTb (fun t => { t with ppsOut := true, ppsRise := now d }) d) else d

/-- PPS_OUT falls after WIDTH_US (R90). -/
def ppsFall (d : Dev) : Dev :=
  let w := fld (rg rTB_PPS_OUT_CTRL d) 27 8
  if d.tb.ppsOut && decide ((w * 1000 : Int) ≤ sdiff (now d) d.tb.ppsRise)
  then out (.pin .ppsOut false) (modTb (fun t => { t with ppsOut := false }) d) else d

/-- TB_HOLD_SEC counts (R81). -/
def countSecond (d : Dev) : Dev := if d.tb.servo = .holdover then incRg rTB_HOLD_SEC d else d

/-! ### PPS_IN and time of day (R91) -/

/-- A PPS_IN edge: its stamp is recorded, and an edge whose second is known gives the servo an offset. Its second is known when a
sentence came since the edge before, and, LOCKED, also without one: the servo then counts that second (R91). -/
def ppsEdge (stamp : NT32) (d : Dev) : Dev :=
  if !bit (rg rTB_PPS_IN_CTRL d) 0 then d
  else
    let named := if d.tb.todThisEdge || decide (d.tb.servo = .locked) then d.tb.todSecs else none
    let d1 := setRgN rTB_PPS_IN_TS stamp.toNat
      (modTb (fun t => { t with
        ppsMiss := 0, ppsEdges := t.ppsEdges + 1, todThisEdge := false, todSecs := named.map (· + 1000000000) }) d)
    match named with
    | none => d1
    | some sec =>
      if d.tb.src ≠ 2 ∨ !d.tb.qualified then d1
      else takeMeasurement ((((nt64Of d stamp).toNat : Int) - (sec.toNat : Int)) * 65536) 0 d1

/-- An edge is missing (R91): the third in a row loses the source. -/
def ppsMissing (d : Dev) : Dev :=
  if !bit (rg rTB_PPS_IN_CTRL d) 0 then d
  else
    let d1 := raise 0x10 10 (modTb (fun t => { t with ppsMiss := t.ppsMiss + 1 }) d)
    if d.tb.src = 2 ∧ 3 ≤ d1.tb.ppsMiss then sourceLost d1 else d1

/-- A ZDA sentence with the UTC second it names (R91): accepted with a good checksum; it names the preceding edge, or the
following one with TOD_NAMES. Two consecutive consistent sentences qualify the source; once locked, a disagreement of 1 s
or more is an offset beyond TB_JUMP_LIMIT. -/
def zda (utc : W64) (ok : Bool) (d : Dev) : Dev :=
  let c := rg rTB_PPS_IN_CTRL d
  if !ok || !bit c 1 then d
  else
    let named := (utc + BitVec.ofNat 64 (rgN rTB_UTC_OFFSET d)) * 1000000000
    let nextEdge := if bit c 2 then named else named + 1000000000
    let consistent := decide (d.tb.todSecs = some nextEdge)
    let run := if consistent then d.tb.todRun + 1 else 1
    let d1 := modTb (fun t => { t with todSecs := some nextEdge, todRun := run, todThisEdge := true }) d
    let edge : Int := (nextEdge.toNat : Int) - 1000000000
    let here : Int := (nt64Of d (BitVec.ofNat 32 (rgN rTB_PPS_IN_TS d))).toNat
    if d.tb.src ≠ 2 then d1
    else if d.tb.servo = .locked ∧ 1000000000 ≤ (here - edge).natAbs then measure (here - edge) d1
    else if 2 ≤ run then sourceQualified d1 else d1

/-- No valid sentence by 900 ms after an edge (R91). -/
def todError (d : Dev) : Dev :=
  if bit (rg rTB_PPS_IN_CTRL d) 1 && !d.tb.todThisEdge then raise 0x10 11 d else d

/-! ### Loss of the reference (R75) -/

/-- TB_REFCLK or the synthesiser loses lock: UNIT_FAULT, and the last frequency is held. -/
def refLoss (d : Dev) : Dev :=
  if d.tb.refHold.isSome then d else raise 0x10 0 (modTb (fun t => { t with refHold := some (now d) }) d)

/-- Extend a stamp against a later full time (R77). -/
def extend (s : NT32) (f : W64) : W64 := f - ((f.extractLsb' 0 32 - s).zeroExtend 64)

/-- A soft reset of the Time Base's state beyond its registers (R97): NT returns to 0, ARMED is set, FREERUN. -/
def tbSoftReset (d : Dev) : Dev :=
  let d1 := setServo .freerun d
  let d2 := if d.tb.ppsOut then out (.pin .ppsOut false) d1 else d1
  modTb (fun _ => { TimeBase.reset with src := d.tb.src, ticks := d.tb.ticks }) d2

end Sys2Proof.Machine
end

