-- ==== Sys2Proof/Machine/Desc.lean ====
section
/-! DEFINITION. The channel descriptor: its fields, the ranges and rules a descriptor must meet, and what a channel
reserves (rules R168, R177, R178, R193 to R198, R209, R212, R213, R216, R288, R359). -/
namespace Sys2Proof.Machine

/-- Word `i` of a descriptor. -/
def dw (l : List W32) (i : Nat) : W32 := l.getD i 0
/-- First word of a leg's block: leg A at 4, leg B at 18 (R177). -/
def legBase (leg : Nat) : Nat := if leg = 0 then 4 else 18
/-- Word `+i` of a leg's block. -/
def lw (l : List W32) (leg i : Nat) : W32 := dw l (legBase leg + i)
/-- KIND: 0 NULL, 1 RTP, 2 LINE, 3 BUS (R178). -/
def kind (l : List W32) (leg : Nat) : Nat := fld (lw l leg 0) 1 0
/-- Is the leg an RTP leg? -/
def isRtp (l : List W32) (leg : Nat) : Bool := decide (kind l leg = 1)
/-- PORT (R178). -/
def legPort (l : List W32) (leg : Nat) : Nat := fld (lw l leg 0) 3 2
/-- SUITE (R178). -/
def legSuite (l : List W32) (leg : Nat) : Nat := fld (lw l leg 0) 7 5
/-- TX_FLOW (R177). -/
def txFlow (l : List W32) (leg : Nat) : Nat := fld (lw l leg 2) 14 0
/-- FRAME_MS (R177). -/
def frameMs (l : List W32) (leg : Nat) : Nat := fld (lw l leg 3) 31 24
/-- RTP_CLOCK, R in Hz (R177). -/
def rtpClock (l : List W32) (leg : Nat) : Nat := fld (lw l leg 3) 15 0
/-- MIN, TARGET and MAX in ms (R177). -/
def jbMin (l : List W32) (leg : Nat) : Nat := fld (lw l leg 4) 9 0
/-- TARGET. -/
def jbTarget (l : List W32) (leg : Nat) : Nat := fld (lw l leg 4) 19 10
/-- MAX. -/
def jbMax (l : List W32) (leg : Nat) : Nat := fld (lw l leg 4) 29 20
/-- EGR_OFFSET in ns (R177). -/
def egrOffset (l : List W32) (leg : Nat) : Nat := fld (lw l leg 7) 19 0
/-- The codec word of a leg (R195). -/
def codecWord (l : List W32) (leg : Nat) : W32 := dw l (1 + leg)
/-- CODEC (R195). -/
def codec (l : List W32) (leg : Nat) : Nat := fld (codecWord l leg) 4 0
/-- MODE (R195). -/
def cmode (l : List W32) (leg : Nat) : Nat := fld (codecWord l leg) 27 24
/-- VAD (R195). -/
def vad (l : List W32) (leg : Nat) : Bool := bit (codecWord l leg) 31
/-- EVT_PT (R195). -/
def evtPt (l : List W32) (leg : Nat) : Nat := fld (codecWord l leg) 14 8
/-- RX_PT (R195). -/
def rxPt (l : List W32) (leg : Nat) : Nat := fld (codecWord l leg) 22 16
/-- CH_CTRL (R194). -/
def chCtrl (l : List W32) : W32 := dw l 0
/-- RATE code (R194). -/
def rate (l : List W32) : Nat := fld (chCtrl l) 1 0
/-- Samples per pass at RATE (R105). -/
def samplesPerPass (l : List W32) : Nat := match rate l with | 0 => 8 | 1 => 16 | 2 => 32 | _ => 48
/-- EC_TAIL in ms (R194). -/
def ecTail (l : List W32) : Nat := match fld (chCtrl l) 3 2 with | 0 => 0 | 1 => 32 | 2 => 64 | _ => 128
/-- EC_SIDE (R194). -/
def ecSide (l : List W32) : Nat := fld (chCtrl l) 4 4
/-- PROG (R194). -/
def progOn (l : List W32) : Bool := bit (chCtrl l) 15
/-- PROG_ID (R197). -/
def progId (l : List W32) : Nat := fld (dw l 37) 15 0
/-- DATA_GRANULES (R197). -/
def dataGran (l : List W32) : Nat := fld (dw l 37) 23 16
/-- GEN of TONE_GEN (R197). -/
def genKind (l : List W32) : Nat := fld (dw l 36) 2 0
/-- Is the leg selected by TONE_DET, AGC_LEGS or NS_LEGS (R194)? -/
def toneDet (l : List W32) (leg : Nat) : Bool := bit (chCtrl l) (11 + leg)
/-- AGC_LEGS. -/
def agcOn (l : List W32) (leg : Nat) : Bool := bit (chCtrl l) (7 + leg)
/-- NS_LEGS. -/
def nsOn (l : List W32) (leg : Nat) : Bool := bit (chCtrl l) (9 + leg)
/-- The bus a descriptor names, if a leg is a BUS leg (R196). -/
def busOf (l : List W32) : Option Nat :=
  if kind l 0 = 3 ∨ kind l 1 = 3 then some (fld (dw l 3) 25 16) else none
/-- Which leg is the BUS leg. -/
def busLeg (l : List W32) : Nat := if kind l 0 = 3 then 0 else 1
/-- LISTEN (R196). -/
def listen (l : List W32) : Bool := bit (dw l 3) 26
/-- Is a leg's tap recorded (R359)? -/
def recOn (l : List W32) (leg : Nat) : Bool := bit (dw l (60 + leg)) 0

/-! ### Codecs (R168, R198, R209) -/

/-- The codec's RTP clock in Hz (R198). -/
def codecClock (c : Nat) : Nat := match c with | 7 => 16000 | 8 => 48000 | _ => 8000
/-- The codec's rate as a RATE code (R198). -/
def codecRate (c m : Nat) : Nat := match c with | 3 => 1 | 7 => 1 | 8 => m % 4 | _ => 0
/-- Is MODE in range for the codec (R198)? -/
def codecModeOk (c m : Nat) : Bool :=
  match c with
  | 1 => decide (m = 0) | 2 => decide (m = 0) | 3 => decide (m ≤ 2) | 4 => decide (m ≤ 3) | 5 => decide (m ≤ 1)
  | 6 => decide (m ≤ 7) | 7 => decide (m ≤ 8) | 8 => true | _ => false
/-- Does the codec accept the frame length (R198)? -/
def frameOk (c ms : Nat) : Bool :=
  match c with
  | 5 => decide (10 ≤ ms ∧ ms ≤ 120 ∧ ms % 10 = 0)
  | 6 => decide (20 ≤ ms ∧ ms ≤ 100 ∧ ms % 20 = 0)
  | 7 => decide (20 ≤ ms ∧ ms ≤ 100 ∧ ms % 20 = 0)
  | 8 => decide (ms = 10 ∨ ms = 20 ∨ ms = 40 ∨ ms = 60)
  | _ => decide (1 ≤ ms ∧ ms ≤ 120)
/-- Is the codec sample-sliced (R168)? -/
def sampleSliced (c : Nat) : Bool := decide (1 ≤ c ∧ c ≤ 4)
/-- The highest rate the leg's decoder accepts, bit/s (R168). -/
def highestRate (c : Nat) : Nat :=
  match c with
  | 1 => 64000 | 2 => 64000 | 3 => 64000 | 4 => 40000 | 5 => 8000 | 6 => 12200 | 7 => 23850 | _ => 510000
/-- Decode plus encode cycles per pass, with the VAD additions (R209). -/
def codecCycles (c m : Nat) (v : Bool) : Nat :=
  match c with
  | 1 => 75 + (if v then 170 else 0)
  | 2 => 75 + (if v then 170 else 0)
  | 3 => 1325
  | 4 => 1850
  | 5 => (if m = 1 then 2600 else 4100) + (if v then 380 else 0)
  | 6 => 4700
  | 7 => 8900
  | 8 => if m % 4 < 2 then 7300 else 10500
  | _ => 0
/-- Context words of the codec (R209). -/
def codecWords (c : Nat) : Nat := match c with | 4 => 128 | 5 => 768 | 6 => 1536 | 7 => 2048 | 8 => 3072 | _ => 0

/-! ### Reservation arithmetic (R212, R213) -/

/-- Sum of `f` over the two legs. -/
def overLegs (f : Nat → Nat) : Nat := f 0 + f 1
/-- One of four figures by RATE. -/
def byRate (r a b c e : Nat) : Nat := match r with | 0 => a | 1 => b | 2 => c | _ => e

/-- W of R212. -/
def ctxWords (l : List W32) : Nat :=
  1024 * (rate l + 1) + (if rate l = 0 then 32 else 64) * ecTail l
    + overLegs (fun k => if isRtp l k then codecWords (codec l k) else 0)
    + overLegs (fun k => if nsOn l k then 512 else 0)

/-- Context granules (R212). -/
def ctxGranules (l : List W32) : Nat := ceilDiv (ctxWords l) 1024

/-- S of R213; `i` is the granules of the tenant program's image. -/
def sumS (l : List W32) (i : Nat) : Nat :=
  let r := rate l
  let ec := ecTail l ≠ 0
  let det := overLegs fun k => b2n (toneDet l k)
  (if ec then byRate r 1380 1600 0 0 + (if r = 0 then 40 else 80) * ecTail l + byRate r 700 960 0 0
   else overLegs fun k => if kind l k = 0 then 0 else byRate r 100 150 250 350)
  + (if det = 0 then (if genKind l = 0 then 0 else 1) else det) * byRate r 450 500 550 600
  + overLegs (fun k => if agcOn l k then byRate r 150 250 400 550 else 0)
  + overLegs (fun k => if nsOn l k then byRate r 1200 2000 3400 4800 else 0)
  + overLegs (fun k => if isRtp l k then byRate r 250 350 500 650 + 125 + codecCycles (codec l k) (cmode l k) (vad l k)
      + (if codecRate (codec l k) (cmode l k) = r then 0 else byRate r 300 300 400 500) else 0)
  + (if progOn l then fld (dw l 38) 15 0 + 1024 + 80 * (i + dataGran l) else 0)
  + 80 * ctxGranules l

/-- M of R213: the larger of 1,500 and ⌈S ÷ 7⌉ rounded up to a multiple of 100. -/
def margin (s : Nat) : Nat := max 1500 (ceilDiv (ceilDiv s 7) 100 * 100)

/-- The reservation in cycles per pass (R213). -/
def cyclesOf (l : List W32) (i : Nat) : Nat := sumS l i + margin (sumS l i)

/-- DRAM pages of the leg rings: MAX plus two frames at the highest accepted rate, in 4 KiB pages (R168, R288). -/
def ringPages (l : List W32) : Nat :=
  overLegs fun k => if isRtp l k
    then ceilDiv (ceilDiv (highestRate (codec l k) * (jbMax l k + 2 * frameMs l k)) 8000) 4096 else 0

/-- Recording streams (R359). -/
def recStreams (l : List W32) : Nat := overLegs fun k => b2n (recOn l k)

/-- What a descriptor reserves. -/
def chargeOf (l : List W32) (i : Nat) : Charge :=
  ⟨cyclesOf l i, ctxGranules l, if progOn l then dataGran l else 0, ringPages l, recStreams l⟩

/-- The reservation of an open bus (R216). -/
def busCycles : Nat := 3260

/-! ### Validation (R177, R178, R193 to R198) -/

/-- Are all bits of a word outside `mask` zero? -/
def onlyBits (w : W32) (mask : Nat) : Bool := decide (w &&& ~~~(BitVec.ofNat 32 mask) = 0)
/-- Is a field within a range? -/
def within (n lo hi : Nat) : Bool := decide (lo ≤ n) && decide (n ≤ hi)
/-- A signed 8-bit gain in half decibels, −48 to +48 (R197). -/
def gainOk (w : W32) (lo : Nat) : Bool :=
  let g := (w.extractLsb' lo 8).toInt
  decide (-48 ≤ g) && decide (g ≤ 48)

/-- A leg block of an RTP leg (R177, R178, R198). `win` is the partition's egress window [START, END) in µs on the leg's
port (R286), `mode1` the 100 Gb/s mode. -/
def legOk (l : List W32) (leg : Nat) (win : Nat × Nat) (mode1 : Bool) : Bool :=
  let c := codec l leg
  onlyBits (lw l leg 0) 0xFFF && decide (legSuite l leg ≤ 4) && (!mode1 || decide (legPort l leg = 0))
  && onlyBits (lw l leg 2) 0x7FFF && onlyBits (lw l leg 3) 0xFF7FFFFF
  && within (frameMs l leg) 1 120 && decide (rtpClock l leg = codecClock c) && frameOk c (frameMs l leg)
  && onlyBits (lw l leg 4) 0x3FFFFFFF && decide (jbMin l leg ≤ jbTarget l leg) && decide (jbTarget l leg ≤ jbMax l leg)
  && decide (jbMax l leg ≤ 1000) && onlyBits (lw l leg 7) 0x03FFFFFF && within (egrOffset l leg) 40000 990000
  && decide (win.1 * 1000 ≤ egrOffset l leg) && decide (egrOffset l leg + 1 ≤ win.2 * 1000)
  && within (fld (lw l leg 8) 15 0) 20 10000 && onlyBits (lw l leg 9) 0xFFFF
  && (decide (fld (lw l leg 9) 15 0 = 0) || within (fld (lw l leg 9) 15 0) 500 60000)

/-- A codec word (R195, R198). -/
def codecOk (l : List W32) (leg : Nat) : Bool :=
  if isRtp l leg then
    onlyBits (codecWord l leg) 0xEF7F7F1F && within (codec l leg) 1 8 && codecModeOk (codec l leg) (cmode l leg)
    && (decide (evtPt l leg = 0) || within (evtPt l leg) 96 127)
    && !(vad l leg && decide (codec l leg = 3 ∨ codec l leg = 4))
    && decide (codecRate (codec l leg) (cmode l leg) ≤ rate l)
  else decide (codec l leg = 0)

/-- A tone definition's frequencies and identifier (R197, R203). -/
def toneDefOk (l : List W32) (i : Nat) : Bool :=
  let top := if rate l = 0 then 3400 else 7000
  let f1 := fld (dw l i) 31 16
  let f2 := fld (dw l i) 15 0
  within f1 200 top && (decide (f2 = 0) || within f2 200 top) && onlyBits (dw l (i + 1)) 0xFFFF0000
  && within (fld (dw l (i + 1)) 31 24) 1 255

/-- The words of the media functions (R193, R194, R197, R198). -/
def mediaOk (l : List W32) : Bool :=
  let tail := decide (ecTail l ≠ 0)
  let det := toneDet l 0 || toneDet l 1
  let ecKind := kind l (ecSide l)
  onlyBits (chCtrl l) 0xFFFF
  && !(tail && decide (2 ≤ rate l)) && !(tail && decide (ecKind = 3 ∨ ecKind = 0))
  && !(decide (kind l 0 = 3) && decide (kind l 1 = 3))
  && [0, 1].all (fun k => !(decide (kind l k = 0) && (toneDet l k || nsOn l k || agcOn l k)))
  && onlyBits (dw l 32) 0x00FF00C0 && (!tail || decide (fld (dw l 32) 23 16 ≤ 48))
  && [0, 8, 16, 24].all (gainOk (dw l 33))
  && onlyBits (dw l 34) 0x0003FFFF
  && (!(nsOn l 0 || nsOn l 1) || within (fld (dw l 34) 17 16) 1 3)
  && (!(agcOn l 0 || agcOn l 1) || (decide (fld (dw l 34) 15 8 ≤ 36) && within (fld (dw l 34) 7 0) 10 40))
  && onlyBits (dw l 35) 0x00FFFFFF
  && (!(decide (genKind l = 2) || [0, 1].any (fun k => isRtp l k && decide (evtPt l k ≠ 0))) || within (fld (dw l 35) 23 16) 3 30)
  && (!det || (within (fld (dw l 35) 15 8) 30 100 && within (fld (dw l 35) 7 0) 30 100))
  && onlyBits (dw l 36) 0x00FF0F1F && decide (genKind l ≤ 3)
  && onlyBits (dw l 37) 0x00FFFFFF && onlyBits (dw l 38) 0xFFFF
  && (!progOn l || (decide (dataGran l ≤ 15) && within (fld (dw l 38) 15 0) 1 32000))
  && [40, 44, 48, 52].all (fun i => !det || decide (fld (dw l i) 31 16 = 0) || toneDefOk l i)
  && (decide (genKind l ≠ 1) || toneDefOk l 56)
  && onlyBits (dw l 60) 7 && onlyBits (dw l 61) 7 && decide (dw l 63 = 0)
  && [0, 1].all (fun k => !(recOn l k && decide (kind l k = 0)))
  && decide (ctxGranules l ≤ 16)

/-- BUS_CTRL of a channel with a BUS leg (R196, R198): reserved bits, and BUS_WB equal to RATE. -/
def busWordOk (l : List W32) : Bool :=
  match busOf l with
  | none => true
  | some _ => onlyBits (dw l 3) 0x07FF0001 && decide (fld (dw l 3) 0 0 = rate l)

/-- The partition's egress window on a port: [START, END) in µs (R286). In 100 Gb/s mode only PART_EGR0 applies. -/
def egrWindow (p port : Nat) (d : Dev) : Nat × Nat :=
  let v := rg (kPart p (oPART_EGR + 4 * port)) d
  (fld v 9 0, fld v 25 16)

/-- Is the device in 100 Gb/s mode (R303)? -/
def mode1 (d : Dev) : Bool := bit (rg (0x100 * 0x1000 + oMAC_LANES) d) 0

/-- A tenant program of a partition; the key is partition × 2¹⁶ + program ID. -/
def prog (p id : Nat) (d : Dev) : Prog := tabGet (fun _ => Prog.reset) d.progs (p * 65536 + id)
/-- Granules of a program's image, I of R213. -/
def imageGran (p : Nat) (l : List W32) (d : Dev) : Nat := if progOn l then ceilDiv (prog p (progId l) d).image.length 1024 else 0

/-- The slot table. -/
def slot (k : Nat) (d : Dev) : Slot := tabGet (fun _ => Slot.reset) d.slots k
/-- Change a slot. -/
def modSlot (k : Nat) (f : Slot → Slot) (d : Dev) : Dev := { d with slots := tabMod (fun _ => Slot.reset) d.slots k f }

/-- Does the slot hold a channel that is or will be ACTIVE? -/
def Slot.live (s : Slot) : Bool := decide (s.st = .activating ∨ s.st = .active ∨ s.st = .releasing)

/-- Every descriptor a slot holds: in force, awaiting the next boundary, pending. -/
def Slot.descs (s : Slot) : List (List W32) :=
  s.desc :: (s.write.map (·.2) ++ (match s.pend with | some p => [p.desc] | none => []))

/-- Does a slot name bus `b` in any descriptor it holds? -/
def Slot.namesBus (s : Slot) (b : Nat) : Bool := s.live && s.descs.any fun l => decide (busOf l = some b)

/-- A bus. -/
def bus (b : Nat) (d : Dev) : Bus := tabGet (fun _ => Bus.reset) d.buses b
/-- Change a bus. -/
def modBus (b : Nat) (f : Bus → Bus) (d : Dev) : Dev := { d with buses := tabMod (fun _ => Bus.reset) d.buses b f }

/-- May a slot of partition `p` join the bus its descriptor names (R198, R216): no member of another partition or rate, at
most 32 members, and at the boundary `q` where the descriptor takes effect no less than 4 passes since another partition's bus closed? -/
def busOk (p k : Nat) (l : List W32) (q : W64) (d : Dev) : Bool :=
  match busOf l with
  | none => true
  | some b =>
    let others := d.slots.filter fun e => decide (e.1 ≠ k) && e.2.namesBus b
    let x := bus b d
    others.all (fun e => decide (e.2.part = p) && e.2.descs.all fun q => decide (busOf q ≠ some b ∨ rate q = rate l))
    && decide (others.length < 32)
    && (match x.closedAt with
        | some t => decide (x.part = p) || decide (t.toNat + 4000000 ≤ q.toNat)
        | none => true)

/-- Is a descriptor valid for slot `k` of partition `p`, to take effect at `q` (R6, R177, R193 to R198, R286, R359)? -/
def descOk (p k : Nat) (l : List W32) (q : W64) (d : Dev) : Bool :=
  [0, 1].all (fun g => codecOk l g && (!isRtp l g || legOk l g (egrWindow p (if mode1 d then 0 else legPort l g) d) (mode1 d))
    && (decide (kind l g ≠ 2) || hasLfe d))
  && mediaOk l && busWordOk l && busOk p k l q d
  && (!progOn l || (decide (progId l ≠ 0) && (prog p (progId l) d).loaded))

/-! ### Codec changes (R198) -/

/-- Does the change from `a` to `b` alter CODEC, MODE or FRAME_MS of a leg? -/
def codecChange (a b : List W32) : Bool :=
  [0, 1].any fun g => (isRtp a g || isRtp b g) &&
    (decide (codec a g ≠ codec b g) || decide (cmode a g ≠ cmode b g) || decide (frameMs a g ≠ frameMs b g)
      || decide (isRtp a g ≠ isRtp b g))

/-- Is boundary `t` (NT64) a multiple of both frame lengths of every leg the change touches? Only an RTP leg's frame
length counts. -/
def aligned (a b : List W32) (t : W64) : Bool :=
  [0, 1].all fun g =>
    let changed := decide (codec a g ≠ codec b g) || decide (cmode a g ≠ cmode b g) || decide (frameMs a g ≠ frameMs b g)
      || decide (isRtp a g ≠ isRtp b g)
    let ok (l : List W32) : Bool := !isRtp l g || decide (t.toNat % (frameMs l g * 1000000) = 0)
    !changed || (ok a && ok b)

/-- A field taken over from another word under a mask. -/
def mergeBits (new old : W32) (mask : Nat) : W32 :=
  (new &&& ~~~(BitVec.ofNat 32 mask)) ||| (old &&& BitVec.ofNat 32 mask)

/-- The interim descriptor of a deferring WRITE (R198): the staged fields with the old CODEC, MODE and FRAME_MS. -/
def interim (staged old : List W32) : List W32 :=
  (List.range 64).map fun i =>
    if i = 1 ∨ i = 2 then mergeBits (dw staged i) (dw old i) 0x0F00001F
    else if i = legBase 0 + 3 ∨ i = legBase 1 + 3 then mergeBits (dw staged i) (dw old i) 0xFF000000
    else dw staged i

end Sys2Proof.Machine
end

