-- ==== Sys2Proof/Machine/TwinBase.lean ====
section
/-! DEFINITION. What the other units ask of the twin: the role, the ACT line, whether Q6 may launch, and the forwarding of
operations to a standby (rules R71, R333 to R336, R340). -/
namespace Sys2Proof.Machine

/-- Change the twin state. -/
def modTwin (f : Twin → Twin) (d : Dev) : Dev := { d with twin := f d.twin }

/-- Is the device the standby of a twin (R335)? -/
def isStandby (d : Dev) : Bool := decide (d.twin.role = .standby)

/-- Is the device an ACTIVE whose peer attends (R335): the link up and the peer attaching or shadowing? -/
def paired (d : Dev) : Bool :=
  decide (d.twin.role = .active) && d.twin.link && decide (d.twin.peerRole = 1 ∨ d.twin.peerRole = 3)

/-- Does the device take its inputs from an active over the link: STANDBY or attaching (R336, R351)? -/
def shadowing (d : Dev) : Bool := d.twin.link && decide (d.twin.role = .standby ∨ d.twin.role = .pairing)
/-- May the tokens due at instant `t` fire: not on a standby before HORIZON for it (R339)? -/
def horizonAt (t : NT32) (d : Dev) : Bool :=
  !shadowing d || (match d.twin.horizon with | some h => decide (0 ≤ sdiff h t) | none => false)

/-- Tell the standby of what is written to a jitter buffer (R336): the whole frame goes with the record in cross-feed mode. What PAYLOAD may be asked
for is kept for 2 ms (log entry 226). -/
def sendIngress (r : IngressRec) (d : Dev) : Dev :=
  let kept := d.twin.sent.filter fun e => decide (sdiff (now d) e.2 < 2000000)
  let d1 := incRg rTWIN_CNT_RECORDS { d with twin := { d.twin with sent := kept ++ [(r, now d)] } }
  out (.ingress (if bit (rg rTWIN_CFG d) 1 then r else { r with frame := none, trunk := none })) d1

/-- Send a twin message (R336): kind 0 HEARTBEAT, 2 HORIZON, 3 PAYLOAD_REQ, 5 LINE, 6 DIGEST, 7 OP_ACK,
8 STEP, 9 STEP_ACK, 10 CONTEXT_REQUEST, 11 CONTEXT, 12 BULK, 13 pairing. -/
def tell (kind : Nat) (fields : List Nat) (d : Dev) : Dev := out (.msg .twin kind fields) d

/-- Forward an accepted operation to the standby and await its OP_ACK (R71, R336). -/
def forward (o : TwinOp) (d : Dev) : Dev :=
  if paired d then out (.twinOp o) (modTwin (fun t => { t with acks := t.acks ++ [o] }) d) else d

/-- A boundary at least 2 ms ahead, named by an operation that applies on both twins (R186, R340, R350). -/
def farBoundary (d : Dev) : NT32 :=
  let gap := sdiff d.weir.nextP (now d)
  d.weir.nextP + (if 2000000 ≤ gap then 0 else if 1000000 ≤ gap then 1000000 else 2000000)

/-- The level R333 gives the device's own ACT line. The HFX7436-S has no line and counts as having it high in SERVICE. -/
def actLevel (d : Dev) : Bool :=
  if !hasTwin d then inService d
  else match d.twin.role with
    | .active => !d.twin.fence && decide (d.pwr.st ≠ .fault)
    | .alone => inService d && !d.twin.fence && !d.twin.peer
    | _ => false

/-- Drive the ACT line to its level (R333). -/
def driveAct (d : Dev) : Dev :=
  let lvl := actLevel d
  if d.twin.own = lvl then d
  else
    let d1 := modTwin (fun t => { t with own := lvl }) d
    if hasTwin d then out (.pin .act lvl) d1 else d1

/-- May the device launch Q6 frames (R333, R445)? -/
def mayLaunch (d : Dev) : Bool := d.twin.own && !d.twin.peer && decide (d.pwr.st ≠ .fault)

/-- A channel's state on the standby (R343). -/
def chSt (k : Nat) (d : Dev) : ChSt := tabGet (fun _ => ChSt.none) d.twin.ch k
/-- Set a channel's state on the standby. -/
def setCh (k : Nat) (c : ChSt) (d : Dev) : Dev :=
  modTwin (fun t => { t with ch := tabSet (fun _ => ChSt.none) t.ch k c }) d

/-- Does a channel of a shadowing device await a CONTEXT, copied at an attach or asked for after a mismatch (R342, R351)? -/
def awaitsContext (h : W32) (d : Dev) : Bool :=
  shadowing d && decide (chSt (hSlot h) d = .copying ∨ chSt (hSlot h) d = .resync) && !(d.twin.installed.any fun e => decide (e.1 = h))
/-- Has the state that a pass is to run on been installed as one the same pass or a later one left (R342)? -/
def passInstalled (h : W32) (p : NT32) (d : Dev) : Bool :=
  d.twin.installed.any fun e => decide (e.1 = h) && decide (sdiff p e.2 ≤ 0)
/-- Slots that hold an ACTIVE channel. -/
def activeSlots (d : Dev) : List Nat := (d.slots.filter fun e => decide (e.2.st = .active)).map (·.1)

/-- Is every ACTIVE channel in SHADOW (R343)? -/
def allShadow (d : Dev) : Bool := (activeSlots d).all fun k => decide (chSt k d = .shadow)

/-- Every channel becomes DIVERGED (R343 to R345). -/
def diverge (d : Dev) : Dev := (activeSlots d).foldl (fun x k => setCh k .diverged x) d

end Sys2Proof.Machine
end

