-- ==== Sys2Proof/Machine/Admit.lean ====
section
/-! DEFINITION. Admission: what partitions and the device hold, the effective ceiling, and the checks of ACTIVATE, WRITE and
MODIFY_AT (rules R126, R213, R216, R284, R288, R359). -/
namespace Sys2Proof.Machine


/-- The slots of a partition (R65: held from ACTIVATE until it leaves QUIESCE). -/
def slotsOf (p : Nat) (d : Dev) : List (Nat × Slot) := d.slots.filter fun e => decide (e.2.part = p) && decide (e.2.st ≠ .free)

/-- The buses the live slots of a partition name, each once (R216). -/
def busesOf (p : Nat) (d : Dev) : List Nat :=
  (((slotsOf p d).filter (·.2.live)).flatMap fun e => e.2.descs.filterMap busOf).eraseDups

/-- All buses named. -/
def busesAll (d : Dev) : List Nat := ((d.slots.filter (·.2.live)).flatMap fun e => e.2.descs.filterMap busOf).eraseDups

/-- Cycles a partition reserves (R284). -/
def cyclesHeld (p : Nat) (d : Dev) : Nat := sumL ((slotsOf p d).map (·.2.charge.cycles)) + busCycles * (busesOf p d).length
/-- Context granules a partition holds, buses included. -/
def granHeld (p : Nat) (d : Dev) : Nat := sumL ((slotsOf p d).map (·.2.charge.gran)) + (busesOf p d).length
/-- The programs of a partition, present or loading. -/
def progsOf (p : Nat) (d : Dev) : List (Nat × Prog) := d.progs.filter fun e => decide (e.1 / 65536 = p)
/-- Tenant granules a partition holds: data and images. -/
def tgranHeld (p : Nat) (d : Dev) : Nat :=
  sumL ((slotsOf p d).map (·.2.charge.tgran)) + sumL ((progsOf p d).map (·.2.granules.length))
/-- DRAM pages a partition holds (R288). -/
def pagesHeld (p : Nat) (d : Dev) : Nat := sumL ((slotsOf p d).map (·.2.charge.pages)) + sumL ((progsOf p d).map (·.2.pages))
/-- MiB held, rounded up (R300). -/
def dramHeld (p : Nat) (d : Dev) : Nat := ceilDiv (pagesHeld p d) 256
/-- Recording streams a partition holds (R359). -/
def streamsHeld (p : Nat) (d : Dev) : Nat := sumL ((slotsOf p d).map (·.2.charge.streams))

/-- WEIR_ADMITTED: Σ reservations (R135). -/
def admitted (d : Dev) : Nat := sumL (d.slots.map (·.2.charge.cycles)) + busCycles * (busesAll d).length
/-- Context granules in use. -/
def granUsed (d : Dev) : Nat := sumL (d.slots.map (·.2.charge.gran)) + (busesAll d).length
/-- Tenant granules in use. -/
def tgranUsed (d : Dev) : Nat := sumL (d.slots.map (·.2.charge.tgran)) + sumL (d.progs.map (·.2.granules.length))
/-- DRAM pages in use. -/
def pagesUsed (d : Dev) : Nat := sumL (d.slots.map (·.2.charge.pages)) + sumL (d.progs.map (·.2.pages))

/-- H: healthy media cores. -/
def healthy (d : Dev) : Nat := ((List.range 64).filter fun i => bit d.weir.healthy i).length

/-- The ceiling term of R126 for a value of WEIR_DEADLINE. -/
def deadlineCeil (ns : Nat) : Nat := 89600000 - ceilDiv (1024 * (ns - 20000)) 10
/-- WEIR_EFF_CEIL for given WEIR_ADMIT_CEIL and WEIR_DEADLINE (R126). -/
def ceilWith (adm ns : Nat) (d : Dev) : Nat := min (min adm (healthy d * 1600000)) (deadlineCeil ns)
/-- WEIR_EFF_CEIL (R126). -/
def effCeil (d : Dev) : Nat := ceilWith (rgN rWEIR_ADMIT_CEIL d) (rgN rWEIR_DEADLINE d) d

/-- MiB the DRAM quotas share: the fitted size less 1,024 MiB (R284). -/
def dramTotal (d : Dev) : Nat := fld (rg rDRAM_CFG d) 7 0 * 1024 - 1024

/-- Result codes of R67. -/
def resOk : Nat := 0
/-- STALE. -/
def resStale : Nat := 1
/-- NO_SLOT. -/
def resNoSlot : Nat := 2
/-- NO_CYCLES. -/
def resNoCycles : Nat := 3
/-- NO_BASIN. -/
def resNoBasin : Nat := 4
/-- BAD_DESC. -/
def resBadDesc : Nat := 5
/-- LATE. -/
def resLate : Nat := 6
/-- RANGE. -/
def resRange : Nat := 7
/-- NOT_ACTIVE. -/
def resNotActive : Nat := 8
/-- TWIN_STANDBY. -/
def resStandby : Nat := 9
/-- NOT_SERVICE. -/
def resNotService : Nat := 10

/-- Does a change take more of a resource than before, beyond a limit (R285: a limit lowered below what is held refuses further charges
and takes nothing away)? -/
def outgrows (limit was is : Nat) : Bool := decide (limit < is) && decide (was < is)

/-- The quota checks of R126, R284 and R359 on a change to slot `k` of partition `p` that makes of the device `b` the device `d`: the first
refusal of the order of R472, or OK. -/
def admitCheck (p k : Nat) (b d : Dev) : Nat :=
  let c := (slot k d).charge
  if outgrows (rgN (kPart p oPART_Q_CHANNELS) d) (slotsOf p b).length (slotsOf p d).length then resNoSlot
  else if outgrows (fld (rg (kPart p oPART_Q_REC) d) 15 0) (streamsHeld p b) (streamsHeld p d) then resNoSlot
  else if rgN rWEIR_JOB_MAX d < c.cycles then resNoCycles
  else if outgrows (effCeil d) (admitted b) (admitted d) then resNoCycles
  else if outgrows (rgN (kPart p oPART_Q_CYCLES) d) (cyclesHeld p b) (cyclesHeld p d) then resNoCycles
  else if outgrows 40960 (granUsed b) (granUsed d) || outgrows (rgN (kPart p oPART_Q_BASIN) d) (granHeld p b) (granHeld p d) then resNoBasin
  else if outgrows 3072 (tgranUsed b) (tgranUsed d) || outgrows (fld (rg (kPart p oPART_Q_TENANT) d) 11 0) (tgranHeld p b) (tgranHeld p d) then resNoBasin
  else if outgrows (dramTotal d * 256) (pagesUsed b) (pagesUsed d) || outgrows (rgN (kPart p oPART_Q_DRAM) d) (dramHeld p b) (dramHeld p d) then resNoBasin
  else resOk

/-- The larger of two charges, element by element: what a channel holds until the boundary at which a reduction frees the
difference (R68). -/
def Charge.sup (a b : Charge) : Charge :=
  ⟨max a.cycles b.cycles, max a.gran b.gran, max a.tgran b.tgran, max a.pages b.pages, max a.streams b.streams⟩

/-- The charge of a descriptor of partition `p`. -/
def chargeIn (p : Nat) (l : List W32) (d : Dev) : Charge := chargeOf l (imageGran p l d)

/-- The charge of every descriptor a slot holds (R68, R284): the largest, element by element. -/
def Slot.charges (s : Slot) (d : Dev) : Charge :=
  s.descs.foldl (fun c l => c.sup (chargeIn s.part l d)) ⟨0, 0, 0, 0, 0⟩

/-- Granules of the context pool in use, by number. -/
def poolTaken (d : Dev) : List Nat := d.slots.flatMap (·.2.granules)
/-- Tenant granules in use, by number. -/
def tenantTaken (d : Dev) : List Nat := d.slots.flatMap (·.2.tgranules) ++ d.progs.flatMap (·.2.granules)

/-- The first `n` numbers from `g` on that are not in a list, looking at no more than `fuel`. -/
def lowestFrom : Nat → Nat → Nat → List Nat → List Nat
  | 0, _, _, _ => []
  | f + 1, g, n, used =>
    if n = 0 then [] else if used.contains g then lowestFrom f (g + 1) n used else g :: lowestFrom f (g + 1) (n - 1) used

/-- The lowest `n` numbers below `top` not in a list (log entry 14). -/
def lowestFree (n top : Nat) (used : List Nat) : List Nat :=
  (lowestFrom (n + used.length) 0 n used).filter fun g => decide (g < top)

/-- Tenant granules go from one holder to another: they are zeroed, so that nothing of the one is seen by the other (R281, R297). -/
def wipeTenant (gs : List Nat) (d : Dev) : Dev :=
  let own (a : Nat) : Bool := decide (0xA800 ≤ a / 1024) && gs.contains (a / 1024 - 0xA800)
  if gs = [] then d
  else { d with basin := tabFilter (fun a _ => !own a) d.basin, poison := d.poison.filter fun a => !own a }

/-- Give a slot the granules its charge needs, keeping those it has (R120). -/
def allot (k : Nat) (d : Dev) : Dev :=
  let s := slot k d
  let need := s.charge.gran - s.granules.length
  let ts := lowestFree (s.charge.tgran - s.tgranules.length) 3072 (tenantTaken d)
  wipeTenant ts (modSlot k (fun x => { x with
    granules := x.granules ++ lowestFree need 40960 (poolTaken d)
    tgranules := x.tgranules ++ ts }) d)

/-- Set a slot's charge from the descriptors it holds, and its granules. A reduction frees what is above the new figure. -/
def recharge (k : Nat) (d : Dev) : Dev :=
  let s := slot k d
  let c := s.charges d
  allot k (modSlot k (fun x => { x with charge := c, granules := x.granules.take c.gran,
                                        tgranules := x.tgranules.take c.tgran }) d)

/-! ### The Basin and the DRAM as storage (R12, R33, R119, R124) -/

/-- Read a Basin word (log entry 19: 0 where nothing was written). -/
def basinRead (a : Nat) (d : Dev) : Word := tabGet (fun _ => 0) d.basin a
/-- Store words at the addresses given: no name of a context changes with them. -/
def basinPut (ws : List (Nat × Word)) (d : Dev) : Dev :=
  { d with
    basin := ws.foldl (fun t e => tabSet (fun _ => 0) t e.1 e.2) d.basin
    poison := d.poison.filter fun a => !ws.any fun e => decide (e.1 = a) }
/-- The slot whose context holds a Basin address and the word of the context it is, if it is one (R33, R120). -/
def contextAt (a : Nat) (d : Dev) : Option (Nat × Nat) :=
  d.slots.findSome? fun e => (e.2.granules.findIdx? fun g => decide (g = a / 1024)).map fun i => (e.1, 1024 * i + a % 1024)
/-- Write a Basin word from outside the jobs. A context one of whose words is written is another context (log entry 19). -/
def basinWrite (a : Nat) (v : Word) (d : Dev) : Dev :=
  let d1 := basinPut [(a, v)] d
  match contextAt a d with
  | some x => modSlot x.1 (fun s => { s with ctx := Config.ctxPoke s.ctx x.2 v }) d1
  | none => d1
/-- The Basin addresses of a list of granules, in their order (R120). -/
def granWords (gs : List Nat) : List Nat := gs.flatMap fun g => (List.range 1024).map fun i => g * 1024 + i
/-- The words of the context that a name stands for, `n` of them. -/
def contextWords (ctx n : Nat) : List Word := (List.range n).map (Config.ctxWord ctx)
/-- The words of a named context stand in a slot's granules. -/
def putContext (k ctx : Nat) (d : Dev) : Dev :=
  let as := granWords (slot k d).granules
  basinPut (as.zip (contextWords ctx as.length)) d
/-- The tenant data of a slot, in the order of its granules (R218). -/
def tenantWords (k : Nat) (d : Dev) : List Word :=
  (granWords ((slot k d).tgranules.map (· + 0xA800))).map fun a => basinRead a d
/-- The Basin addresses of a program's image (R295). -/
def imageAddrs (p id : Nat) (d : Dev) : List Nat :=
  (granWords ((prog p id d).granules.map (· + 0xA800))).take (prog p id d).image.length
/-- The image of a program is copied into its granules of the tenant region (R295, R297). -/
def putImage (p id : Nat) (d : Dev) : Dev := basinPut ((imageAddrs p id d).zip (prog p id d).image) d
/-- A program is loaded with its image resident (R295). -/
def installProg (p id code : Nat) (image : List Word) (gs : List Nat) (pages : Nat) (d : Dev) : Dev :=
  putImage p id { d with progs := tabSet (fun _ => Prog.reset) d.progs (p * 65536 + id) ⟨true, image, code, gs, pages, false⟩ }
/-- Read a DRAM byte (log entry 21: 0 where nothing was written). -/
def dramRead (a : Nat) (d : Dev) : Byte := tabGet (fun _ => 0) d.dram a
/-- Write a DRAM byte. -/
def dramWrite (a : Nat) (b : Byte) (d : Dev) : Dev := { d with dram := tabSet (fun _ => 0) d.dram a b }

end Sys2Proof.Machine
end

