-- ==== Sys2Proof/Machine/Delay.lean ====
section
/-! DEFINITION. The eight delay lists of the Weir (rules R116 to R118, R127, R137, R292). -/
namespace Sys2Proof.Machine

/-- Change the Weir. -/
def modWeir (f : Weir → Weir) (d : Dev) : Dev := { d with weir := f d.weir }

/-- Capacity of list `n` (R116). -/
def dlCap (n : Nat) : Nat := if n = 1 ∨ n = 2 then 32768 else 16384
/-- Events of list `n`. -/
def dlist (n : Nat) (d : Dev) : List DEvent := tabGet (fun _ => []) d.weir.dl n
/-- Replace list `n`. -/
def setDl (n : Nat) (l : List DEvent) (d : Dev) : Dev :=
  modWeir (fun w => { w with dl := tabSet (fun _ => []) w.dl n l }) d

/-- Keys of the list registers of R137: the highest count and the refusals. -/
def kHwm (n : Nat) : Nat := 0x22048 + 0x10 * n
/-- WEIR_DLn_FULL. -/
def kFull (n : Nat) : Nat := 0x2204C + 0x10 * n

/-- Insert after every event that is not later, by signed distance from `t`. -/
def dlPut (t : NT32) (e : DEvent) : List DEvent → List DEvent
  | [] => [e]
  | x :: xs => if sdiff e.target t < sdiff x.target t then e :: x :: xs else x :: dlPut t e xs

/-- A target on the 125 µs grid: rounded up on the exact NT64 value (R117). -/
def gridUp (t : NT32) (d : Dev) : NT32 := BitVec.ofNat 32 (roundUpTo 125000 (nt64Of d t).toNat)

/-- Insert an event (R117, R118): refused when the list is full or the target lies more than 2 s ahead; a target already
past fires at the next grid instant. The Bool says whether it was taken. -/
def dlInsert (n : Nat) (e : DEvent) (d : Dev) : Bool × Dev :=
  let l := dlist n d
  if dlCap n ≤ l.length then (false, raise 0x20 3 (incRg (kFull n) d))
  else if 2000000000 < sdiff e.target (now d) then (false, d)
  else
    let past := decide (sdiff e.target (now d) < 0)
    let d1 := if past then incRg rWEIR_CNT_LATE_EVENT d else d
    let e1 := { e with target := gridUp (if past then now d else e.target) d }
    let l1 := dlPut (now d) e1 l
    let d2 := setDl n l1 d1
    (true, if rgN (kHwm n) d < l1.length then setRgN (kHwm n) l1.length d2 else d2)

/-- Insert, whatever the answer. -/
def dlAdd (n : Nat) (e : DEvent) (d : Dev) : Dev := (dlInsert n e d).2

/-- Remove the events of list `n` a test names. -/
def dlDrop (n : Nat) (p : DEvent → Bool) (d : Dev) : Dev := setDl n ((dlist n d).filter fun e => !p e) d

/-- Take the first event of list `n` that a test names, if one is due. -/
def dlTake (n : Nat) (p : DEvent → Bool) (d : Dev) : Option DEvent × Dev :=
  match (dlist n d).find? p with
  | none => (none, d)
  | some e => (some e, setDl n ((dlist n d).erase e) d)

/-- Is a handle the current lease of its slot (R127)? -/
def current (h : W32) (d : Dev) : Bool :=
  let s := slot (hSlot h) d
  decide (s.st ≠ .free) && decide (s.st ≠ .quiesce) && decide (s.gen.toNat = hGen h) && decide (s.part = hPart h)

/-- The handle of slot `k`'s lease. -/
def handleOf (k : Nat) (d : Dev) : W32 := mkHandle (slot k d).gen.toNat (slot k d).part k

/-- Advance a counter of the partition's VCNT page by `n`; HALF rises when bit 31 toggles (R298, R299). -/
def vcnt (p off n : Nat) (d : Dev) : Dev :=
  let key := kWin p 6 off
  let was := rgN key d
  let d1 := addRg key n d
  if was / 2 ^ 31 % 2 ≠ rgN key d1 / 2 ^ 31 % 2 ∧ vfExists d p then raise (vfPage p 6) 1 d1 else d1

/-- A stale item: counted for the device and for the partition its handle names (R127, R298). -/
def stale (cnt : Nat) (h : W32) (d : Dev) : Dev := vcnt (hPart h) 0x80 1 (incRg cnt d)

/-- Remove every event of an old lease at its release, counting each (R127). -/
def dlPurge (h : W32) (d : Dev) : Dev :=
  (List.range 8).foldl (fun x n =>
    let hit := (dlist n x).filter fun e => decide (e.handle = h)
    hit.foldl (fun y _ => stale rWEIR_CNT_STALE_EVENT h y) (dlDrop n (fun e => decide (e.handle = h)) x)) d

end Sys2Proof.Machine
end

