-- ==== Sys2Proof/Machine/Chw.lean ====
section
/-! DEFINITION. The channel window: the operations READ, WRITE, ACTIVATE, RELEASE and MODIFY_AT, their results and what
they leave pending (rules R64 to R71, R198, R472). -/
namespace Sys2Proof.Machine

/-- Key of a CHW register of a partition's window. -/
def kChw (p off : Nat) : Nat := kWin p 1 off

/-- The next boundary an operation completing now can meet (R68). -/
def nextFor (d : Dev) : NT32 := if 20000 < sdiff d.weir.nextP (now d) then d.weir.nextP else d.weir.nextP + 1000000

/-- Is CHW_AT a pass boundary no more than 2,000 passes ahead, against the CHW_NEXT_P `p` (R67, R69)? One already past is LATE, not RANGE
(R67). -/
def atOk (t p : NT32) : Bool :=
  let D := sdiff t p
  decide (D ≤ 2000000000) && decide (D % 1000000 = 0)

/-- The slot that has been FREE longest (R66); slots never used come first, in ascending order. -/
def freeSlot (d : Dev) : Option Nat :=
  match lowestFree 1 16384 (d.slots.map (·.1)) with
  | k :: _ => some k
  | [] =>
    let free := d.slots.filter fun e => decide (e.2.st = .free)
    (free.foldl (fun (best : Option (Nat × Slot)) e =>
      match best with
      | none => some e
      | some b => if e.2.freed < b.2.freed then some e else some b) none).map (·.1)

/-- The descriptor a change at a later boundary will meet: the last WRITE awaiting, else the one in force. -/
def Slot.latest (s : Slot) : List W32 := (s.write.getLast?.map (·.2)).getD s.desc

/-- Is the pending change an ACTIVATE? -/
def Slot.activating (s : Slot) : Bool := match s.pend with | some p => decide (p.kind = .activate) | none => false
/-- Is the pending change a MODIFY_AT or a deferred codec part? -/
def Slot.modifying (s : Slot) : Bool :=
  match s.pend with | some p => decide (p.kind = .modifyAt ∨ p.kind = .deferred) | none => false
/-- Boundary of the pending change. -/
def Slot.pendAt (s : Slot) : NT32 := match s.pend with | some p => p.at_ | none => 0
/-- Has the channel a descriptor in force: is it executing passes? -/
def Slot.running (s : Slot) : Bool := decide (s.st = .active ∨ s.st = .releasing) && !s.desc.isEmpty

/-- Set a slot's pending change and its delay-list event (R70, R116, R292). -/
def setPend (k : Nat) (p : Option Pend) (d : Dev) : Dev :=
  let h := handleOf k d
  let d1 := dlDrop 0 (fun e => decide (e.handle = h)) (modSlot k (fun s => { s with pend := p }) d)
  match p with
  | none => d1
  | some q => dlAdd 0 ⟨q.at_, h, .change, false⟩ d1

/-- Frame lengths in ms, of RTP sides only, that constrain a codec change (R198). -/
def changeGrid (a b : List W32) : Nat :=
  [0, 1].foldl (fun m g =>
    let changed := decide (codec a g ≠ codec b g) || decide (cmode a g ≠ cmode b g) || decide (frameMs a g ≠ frameMs b g)
      || decide (isRtp a g ≠ isRtp b g)
    let f (l : List W32) : Nat := if isRtp l g then max 1 (frameMs l g) else 1
    if changed then Nat.lcm m (Nat.lcm (f a) (f b)) else m) 1

/-- Does a WRITE at boundary `q` defer its codec part (R198)? -/
def defers (s : Slot) (l : List W32) (q : NT32) (d : Dev) : Bool :=
  !s.activating && codecChange s.latest l && !aligned s.latest l (nt64Of d q)

/-- The first boundary after `q` at which the codec change may apply. -/
def deferTo (s : Slot) (l : List W32) (q : NT32) (d : Dev) : NT32 :=
  BitVec.ofNat 32 (roundUpTo (changeGrid s.latest l * 1000000) ((nt64Of d q).toNat + 1))

/-- The effect of an accepted operation on slot `k` at boundary `q` (R66, R70), charges included. -/
def chwApply (op p k : Nat) (q : NT32) (l : List W32) (d : Dev) : Dev :=
  let s := slot k d
  if op = 2 then
    recharge k (match s.pend with
      | some pd =>
        if pd.kind = .activate then setPend k (some { pd with desc := l }) d
        else
          let df := defers s l q d
          let w := (s.write.filter fun e => decide (e.1 ≠ q)) ++ [(q, if df then interim l s.latest else l)]
          let d1 := modSlot k (fun x => { x with write := w }) d
          if df then setPend k (some ⟨.deferred, deferTo s l q d, l⟩) d1 else d1
      | none =>
        let df := defers s l q d
        let w := (s.write.filter fun e => decide (e.1 ≠ q)) ++ [(q, if df then interim l s.latest else l)]
        let d1 := modSlot k (fun x => { x with write := w }) d
        if df then setPend k (some ⟨.deferred, deferTo s l q d, l⟩) d1 else d1)
  else if op = 3 then
    let d1 := modSlot k (fun x => { Slot.reset with gen := x.gen, freed := x.freed, part := p, st := .activating, actAt := nt64Of d q }) d
    recharge k (setPend k (some ⟨.activate, q, l⟩) d1)
  else if op = 4 then
    match s.pend with
    | some pd =>
      if pd.kind = .release then (if sdiff q pd.at_ < 0 then setPend k (some { pd with at_ := q }) d else d)
      else setPend k (some ⟨.release, q, if s.activating then pd.desc else []⟩) (modSlot k (fun x => { x with st := .releasing }) d)
    | none => setPend k (some ⟨.release, q, []⟩) (modSlot k (fun x => { x with st := .releasing }) d)
  else if op = 5 then
    recharge k (match s.pend with
      | some pd => if pd.kind = .activate then setPend k (some { pd with desc := l }) d
                   else setPend k (some ⟨.modifyAt, q, l⟩) d
      | none => setPend k (some ⟨.modifyAt, q, l⟩) d)
  else d

/-- Does the operation set REPLACED (R66, R70)? -/
def replaces (op : Nat) (s : Slot) (l : List W32) (q : NT32) (d : Dev) : Bool :=
  if op = 5 then s.modifying
  else if op = 2 then s.modifying && defers s l q d
  else if op = 4 then decide (s.st = .releasing) && decide (sdiff q s.pendAt < 0)
  else false

/-- The refusals that need no arithmetic, in the order of R472 down to LATE; `none` when the operation may go on. The difference D of R69 is
taken against the CHW_NEXT_P of the operation's start, the instant at which R472 judges LATE (log entry 180). -/
def chwRefusal (p : Nat) (o : ChwOp) (d : Dev) : Option Nat :=
  let k := hSlot o.handle
  let s := slot k d
  let mine := decide (s.st = .free) || decide (s.part = p)
  let cur := mine && decide (s.gen.toNat = hGen o.handle)
  let scheduled := o.at_ || decide (o.op = 5)
  let t := o.target.getD 0
  if o.op ≠ 1 ∧ !inService d then some resNotService
  else if o.op ≠ 1 ∧ isStandby d then some resStandby
  else if o.op = 3 ∧ hGen o.handle ≠ 0 then some resRange
  else if o.op ≠ 1 ∧ scheduled ∧ !atOk t o.startP then some resRange
  else if o.op = 5 ∧ cur ∧ s.activating ∧ t ≠ s.pendAt then some resRange
  else if o.op ≠ 3 ∧ !cur then some resStale
  else if o.op ≠ 3 ∧ (s.st = .free ∨ s.st = .quiesce) then some resNotActive
  else if (o.op = 2 ∨ o.op = 5) ∧ s.st = .releasing then some resNotActive
  else if o.op ≠ 1 ∧ scheduled ∧ sdiff t o.startAt < 20000 then some resLate
  else if o.op = 2 ∧ o.keep.any (fun q => decide (sdiff q o.startAt < 20000)) then some resLate
  else none

/-- Is the staged descriptor refused BAD_DESC (R198)? -/
def descRefused (p k : Nat) (o : ChwOp) (q : NT32) (d : Dev) : Bool :=
  let s := slot k d
  if o.op = 2 ∨ o.op = 3 ∨ o.op = 5 then
    !descOk p k o.desc (nt64Of d q) d
    || (decide (o.op = 5) && !s.activating && codecChange s.latest o.desc && !aligned s.latest o.desc (nt64Of d q))
    || (decide (o.op = 2) && defers s o.desc q d && !descOk p k (interim o.desc s.latest) (nt64Of d q) d)
  else false

/-- Does the operation ask for an event on list 0 that a full list refuses (R118)? -/
def listFull (k : Nat) (d d1 : Dev) : Bool :=
  let h := handleOf k d1
  (slot k d1).pend.isSome && !((dlist 0 d).any fun e => decide (e.handle = h)) && decide (dlCap 0 ≤ (dlist 0 d).length)

/-- The result of an operation completing now and the device after it (R67, R68, R118, R472). A WRITE on an ACTIVATING slot that completes
exactly 20 µs before the activation boundary is in time by R70 (log entry 181). -/
def chwResult (p : Nat) (o : ChwOp) (d : Dev) : Nat × Nat × NT32 × Bool × Dev :=
  match chwRefusal p o d with
  | some r => (r, 0, 0, false, d)
  | none =>
    if o.op = 1 then (resOk, hSlot o.handle, 0, false, d)
    else
      let k := if o.op = 3 then (freeSlot d).getD 16384 else hSlot o.handle
      let s := slot k d
      let scheduled := o.at_ || decide (o.op = 5)
      let q := if scheduled then o.target.getD 0 else nextFor d
      let open_ := decide (fld (rg (kPart p oPART_STATE) d) 1 0 = 1)
      if descRefused p k o q d then (resBadDesc, 0, 0, false, d)
      else if o.op = 3 ∧ (!open_ ∨ k = 16384) then (resNoSlot, 0, 0, false, d)
      else
        let d1 := chwApply o.op p k q o.desc d
        let r := if o.op = 4 then resOk else admitCheck p k d d1
        if r ≠ resOk then (r, 0, 0, false, d)
        else if listFull k d d1 then (resNoSlot, 0, 0, false, (dlInsert 0 ⟨0, 0, .change, false⟩ d).2)
        else if scheduled ∧ sdiff q (now d) ≤ 20000 then (resLate, 0, 0, false, d)
        else if o.op = 2 ∧ o.keep.any (fun b => decide (sdiff b (now d) < 20000)) then (resLate, 0, 0, false, d)
        else (resOk, k, q, replaces o.op s o.desc q d, d1)

/-- Record RESULT and REPLACED of the window's last operation; a STALE result advances CHW_STALE (R65, R67). -/
def setResult (p r : Nat) (rep : Bool) (d : Dev) : Dev :=
  let d1 := setRgN (kChw p oCHW_STATUS) (r + (if rep then 0x20000000 else 0)) d
  if r = resStale then incRg (kChw p oCHW_STALE) d1 else d1

/-- Copy a descriptor into CHW_DESC, with RESV (word 39) filled from the admission figures (R66, R214). -/
def loadDesc (p k : Nat) (d : Dev) : Dev :=
  let s := slot k d
  let l := if s.desc.isEmpty then (match s.pend with | some pd => pd.desc | none => []) else s.desc
  let c := chargeIn p l d
  let word (i : Nat) : W32 := if i = 39 then BitVec.ofNat 32 (c.gran * 2 ^ 24 + c.cycles) else dw l i
  (List.range 64).foldl (fun x i => setRg (kChw p (oCHW_DESC + 4 * i)) ((word i).zeroExtend 64) x) d

/-- The staged descriptor of a window. RESV is ignored by WRITE (R193). -/
def staged (p : Nat) (d : Dev) : List W32 :=
  (List.range 64).map fun i => if i = 39 then 0 else (rg (kChw p (oCHW_DESC + 4 * i)) d).extractLsb' 0 32

/-- The operation of a window in progress. -/
def chwBusy (p : Nat) (d : Dev) : Option ChwOp := tabGet (fun _ => none) d.chw p
/-- Set or clear it. -/
def setChw (p : Nat) (o : Option ChwOp) (d : Dev) : Dev := { d with chw := tabSet (fun _ => none) d.chw p o }

/-- The partition whose window a function's access reaches: a VF its own, the PF the PART page it names (R48, R300). -/
def winPart (fn part : Nat) : Nat := if fn = 0 then part else fn
/-- The address of a window register as the posted-error FIFO records it: the BAR offset (R63). -/
def winAddr (fn part k off : Nat) : Nat := if fn = 0 then (0x200 + part) * 0x1000 + winBase k + off else k * 0x1000 + off

/-- A write of CHW_OP: the operation starts and BUSY reads 1, or the write is rejected while an operation is in progress
(R65). AT has a meaning for ACTIVATE and RELEASE alone. -/
def chwStart (fn part op : Nat) (at_ : Bool) (d : Dev) : Dev :=
  let p := winPart fn part
  match chwBusy p d with
  | some _ => reject fn .busy 0 (winAddr fn part 1 oCHW_OP) 4 d
  | none =>
    let t := (rg (kChw p oCHW_AT) d).extractLsb' 0 32
    let h := (rg (kChw p oCHW_SEL) d).extractLsb' 0 32
    let s := slot (hSlot h) d
    let a := at_ && decide (op = 3 ∨ op = 4)
    setChw p (some ⟨op, a, now d, h, staged p d, if a || decide (op = 5) then some t else none, d.weir.nextP,
      if s.activating && decide (s.part = p) && decide (s.gen.toNat = hGen h) then some s.pendAt else none, none⟩) d

/-- The operation of a window completes (R67, R68, R71): the result is reported, or on an active twin the accepted
operation is forwarded and reported at its OP_ACK (log entry 15). -/
def chwComplete (p : Nat) (d : Dev) : Dev :=
  match chwBusy p d with
  | none => d
  | some o =>
    if o.op = 0 then d
    else
      let r := chwResult p o d
      let d1 := r.2.2.2.2
      let k := r.2.1
      let d2 := setResult p r.1 r.2.2.2.1 d1
      if r.1 ≠ resOk then setChw p none d2
      else if o.op = 1 then setChw p none (loadDesc p k d2)
      else
        let h := handleOf k d1
        let d3 := if o.op = 3 then setRg (kChw p oCHW_SEL) (h.zeroExtend 64) d2 else d2
        if paired d then setChw p (some { o with op := 0, undo := some (slot k d, r.2.2.1) }) (forward (.chw o.op h r.2.2.1 o.desc) d3)
        else setChw p none d3

/-- Move the changes a slot awaits from boundary `q` to the next (R68). -/
def moveChange (k : Nat) (q : NT32) (d : Dev) : Dev :=
  let q1 := q + 1000000
  let d1 := modSlot k (fun s => { s with
    write := s.write.map fun w => if w.1 = q then (q1, w.2) else w, actAt := if s.st = .activating ∧ s.actAt.extractLsb' 0 32 = q then s.actAt + 1000000 else s.actAt }) d
  match (slot k d1).pend with
  | some p => if p.at_ = q ∧ p.kind ≠ .modifyAt ∧ p.kind ≠ .deferred then setPend k (some { p with at_ := q1 }) d1 else d1
  | none => d1

/-- Give a slot back what it held before an operation that changes nothing after all (R68). -/
def withdraw (k : Nat) (s : Slot) (d : Dev) : Dev :=
  setPend k s.pend (modSlot k (fun x => { x with
    gen := s.gen, part := s.part, st := s.st, desc := s.desc, write := s.write, actAt := s.actAt, charge := s.charge, granules := s.granules,
    tgranules := s.tgranules }) (setPend k none d))

/-- A forwarded operation completes at its acknowledgement (R68, R71). One that completes too late for its boundary is refused LATE where
it was scheduled, and applies one pass later where it was not; the standby is told by a further OP (log entry 182). -/
def chwAcked (h : W32) (q : NT32) (d : Dev) : Dev :=
  let p := hPart h
  let k := hSlot h
  match chwBusy p d with
  | some o =>
    match o.undo with
    | some u =>
      let late := decide (sdiff q (now d) ≤ 20000) && !u.1.activating
      if late && o.target.isSome then
        forward (.chw 7 h q []) (setChw p none (setResult p resLate false (setRg (kChw p oCHW_SEL) (o.handle.zeroExtend 64) (withdraw k u.1 d))))
      else if late then
        let d1 := moveChange k q d
        if paired d then forward (.chw 6 h (q + 1000000) []) (setChw p (some { o with undo := some (u.1, q + 1000000) }) d1) else setChw p none d1
      else setChw p none d
    | none => setChw p none d
  | none => d

end Sys2Proof.Machine
end

