-- ==== Sys2Proof/Machine/Jitter.lean ====
section
/-! DEFINITION. Jitter buffers: the mapping from RTP timestamps to playout, acceptance, adaptation, the operand of a pass and
the records of a leg (rules R167 to R173, R179, R291). -/
namespace Sys2Proof.Machine

/-- A leg of a slot. -/
def legOf (k leg : Nat) (d : Dev) : Leg := if leg = 0 then (slot k d).legA else (slot k d).legB
/-- Change a leg. -/
def modLeg (k leg : Nat) (f : Leg → Leg) (d : Dev) : Dev :=
  modSlot k (fun s => if leg = 0 then { s with legA := f s.legA } else { s with legB := f s.legB }) d

/-- The descriptor a packet or operand meets: in force, or to be activated. -/
def descNow (k : Nat) (d : Dev) : List W32 :=
  let s := slot k d
  if s.desc.isEmpty then (match s.pend with | some p => p.desc | none => []) else s.desc

/-- A record of R173: byte 12 the leg, byte 13, bytes 16 to 19. -/
def jbRecord (typ k leg b13 v : Nat) (d : Dev) : Dev :=
  let h := handleOf k d
  event (hPart h) ⟨typ, now d, h, body [(12, 1, leg), (13, 1, b13), (16, 4, v)]⟩ d

/-- X(u) of R169, or the playout of R172 nearest an arrival: NT64 as an integer. -/
def playAt (l : List W32) (leg : Nat) (g : Leg) (u : W32) (arr : W64) : Int :=
  let r := rtpClock l leg
  if bit (lw l leg 0) 4 then
    let k0 : Int := (arr.toNat * r / 1000000000 : Nat)
    let k := k0 + ((u - lw l leg 6) - BitVec.ofInt 32 k0).toInt
    k * 1000000000 / r + jbTarget l leg * 1000000
  else match g.anchor with
    | some (x, t) => x.toNat + (u - t).toInt * 1000000000 / r
    | none => 0

/-! ### Payloads (R168) -/

/-- Frames in an AMR or AMR-WB payload: entries of its table of contents (RFC 4867). -/
def amrToc : List Byte → Nat
  | [] => 0
  | b :: t => if bit b 7 then 1 + amrToc t else 1
/-- Entries of a bandwidth-efficient table of contents, read as bits after the 4-bit CMR. -/
def amrTocBits : Nat → List Bool → Nat
  | 0, _ => 0
  | n + 1, bs => match bs with
    | [] => 0
    | b :: _ => if b then 1 + amrTocBits n (bs.drop 6) else 1
/-- The bits of a payload, most significant first. -/
def bitsOf (p : List Byte) : List Bool := p.flatMap fun b => (List.range 8).map fun i => bit b (7 - i)
/-- Bits of speech in an AMR or AMR-WB frame by frame type (RFC 4867): the modes, SID, and no data. -/
def amrBits (wb : Bool) (ft : Nat) : Option Nat :=
  if ft = 15 then some 0
  else if wb then (if ft = 14 then some 0 else [132, 177, 253, 285, 317, 365, 397, 461, 477, 40][ft]?)
  else [95, 103, 118, 134, 148, 159, 204, 244, 39][ft]?
/-- The frame types of a table of contents: octet-aligned. -/
def amrTypes : List Byte → List Nat
  | [] => []
  | b :: t => fld b 6 3 :: (if bit b 7 then amrTypes t else [])
/-- A number from bits, the first most significant. -/
def ofBits (bs : List Bool) : Nat := bs.foldl (fun a b => 2 * a + b2n b) 0
/-- The frame types of a bandwidth-efficient table of contents. -/
def amrTypesBits : Nat → List Bool → List Nat
  | 0, _ => []
  | n + 1, bs => match bs with
    | [] => []
    | b :: t => ofBits (t.take 4) :: (if b then amrTypesBits n (bs.drop 6) else [])
/-- Does an AMR payload's table of contents agree with its length (R211)? -/
def amrValid (wb aligned : Bool) (p : List Byte) : Bool :=
  let ts := if aligned then amrTypes (p.drop 1) else amrTypesBits (p.length * 2) ((bitsOf p).drop 4)
  let sizes := ts.filterMap (amrBits wb)
  decide (sizes.length = ts.length) && decide (0 < ts.length) &&
    (if aligned then decide (p.length = 1 + ts.length + (sizes.map fun n => ceilDiv n 8).foldl (· + ·) 0)
     else decide (p.length = ceilDiv (4 + 6 * ts.length + sizes.foldl (· + ·) 0) 8))
/-- Bytes that a leg's encoder leaves for one pass: codewords, or one byte for a frame codec's share of the work (R168, R209). -/
def passBytes (l : List W32) (leg : Nat) : Nat := match codec l leg with | 4 => 2 + cmode l leg | 5 => 1 | 6 => 1 | 7 => 1 | 8 => 1 | _ => 8
/-- A list of bytes made `n` long. -/
def fitBytes (n : Nat) (b : List Byte) : List Byte := (b ++ List.replicate n 0).take n
/-- Duration of an Opus frame in µs, by configuration (RFC 6716). -/
def opusFrameUs (cfg : Nat) : Nat :=
  if cfg < 12 then (match cfg % 4 with | 0 => 10000 | 1 => 20000 | 2 => 40000 | _ => 60000)
  else if cfg < 16 then (if cfg % 2 = 0 then 10000 else 20000)
  else (match cfg % 4 with | 0 => 2500 | 1 => 5000 | 2 => 10000 | _ => 20000)
/-- Bits of a codeword of a sample-sliced codec. -/
def wordBits (c m : Nat) : Nat := if c = 4 then 2 + m else 8

/-- Number and length in µs of the units a payload holds: codewords of 125 µs, or codec frames. -/
def payloadUnits (l : List W32) (leg : Nat) (p : List Byte) : Nat × Nat :=
  let c := codec l leg
  if sampleSliced c then (p.length * 8 / wordBits c (cmode l leg), 125)
  else if c = 5 then (ceilDiv p.length 10, 10000)
  else if c = 6 ∨ c = 7 then
    (if bit (codecWord l leg) 29 then amrToc (p.drop 1) else amrTocBits (p.length * 2) ((bitsOf p).drop 4), 20000)
  else match p with
    | [] => (0, 20000)
    | b :: t => ((match fld b 1 0 with | 0 => 1 | 1 => 2 | 2 => 2 | _ => fld (t.headD 0) 5 0), opusFrameUs (fld b 7 3))

/-- Codeword `i` of a payload; G.726 codewords fill each octet from the least significant bit (RFC 3551). -/
def codeword (bw : Nat) (p : List Byte) (i : Nat) : Byte :=
  let n := (p.drop (i * bw / 8)).take 2
  BitVec.ofNat 8 ((((n.headD 0).toNat + ((n.drop 1).headD 0).toNat * 256) >>> (i * bw % 8)) % 2 ^ bw)

/-- Playout of a held payload's first sample. -/
def heldPlay (h : Held) (l : List W32) (leg : Nat) (g : Leg) : Int := playAt l leg g h.ts h.arr

/-- End of a held payload. Comfort noise lasts until the next payload (log entry 16). -/
def heldStop (h : Held) (l : List W32) (leg : Nat) (g : Leg) : Int :=
  let u := payloadUnits l leg h.payload
  if h.pt = 13 then 0x7FFFFFFFFFFFFFFF else heldPlay h l leg g + u.1 * u.2 * 1000

/-- The held payload that plays at an instant: the latest that has begun and not ended. -/
def heldAt (l : List W32) (leg : Nat) (g : Leg) (t : Int) : Option Held :=
  let c := g.held.filter fun h => decide (heldPlay h l leg g ≤ t) && decide (t < heldStop h l leg g)
  c.foldl (fun (b : Option Held) h => match b with
    | none => some h
    | some x => if heldPlay x l leg g < heldPlay h l leg g then some h else some x) none

/-- The codec frame whose first sample plays in pass `p`: its payload and number (R168). -/
def frameIn (l : List W32) (leg : Nat) (g : Leg) (p : Int) : Option (Nat × Held) :=
  g.held.reverse.findSome? fun h =>
    if h.pt = 13 then none
    else
      let u := payloadUnits l leg h.payload
      ((List.range u.1).find? fun i =>
        let t := heldPlay h l leg g + (i * u.2 * 1000 : Nat)
        decide (p ≤ t) && decide (t < p + 1000000)).map fun i => (i, h)

/-- The operand of pass `p` (NT64) from the payloads held (R168): the pass's codewords, or the frame that begins in it, or CONTINUE inside a
frame delivered before. -/
def collect (l : List W32) (leg : Nat) (g : Leg) (p : Int) : Oper :=
  if sampleSliced (codec l leg) then
    match heldAt l leg g p with
    | none => .none
    | some h0 =>
      if h0.pt = 13 then (if p ≤ heldPlay h0 l leg g ∧ heldPlay h0 l leg g < p + 1000000 then .bytes h0.payload else .cont)
      else
        let bw := wordBits (codec l leg) (cmode l leg)
        let ws := (List.range 8).map fun j =>
          let t := p + (j * 125000 : Nat)
          (heldAt l leg g t).bind fun h =>
            if h.pt = 13 then none else some (codeword bw h.payload ((t - heldPlay h l leg g) / 125000).toNat)
        if ws.all Option.isSome then .bytes (ws.filterMap id) else .none
  else match frameIn l leg g p, heldAt l leg g p with
    | some f, _ => .bytes (BitVec.ofNat 8 f.1 :: f.2.payload)
    | none, some h =>
      if h.pt = 13 ∧ p ≤ heldPlay h l leg g ∧ heldPlay h l leg g < p + 1000000 then .bytes h.payload else .cont
    | none, none => .none

/-- The end of the frame whose operand is that of pass `p`, which a lost operand conceals to (R123, R125, R168). -/
def frameEnd (l : List W32) (leg : Nat) (g : Leg) (p : Int) : Int :=
  if sampleSliced (codec l leg) then p + 1000000
  else match frameIn l leg g p with
    | some f => let u := payloadUnits l leg f.2.payload; heldPlay f.2 l leg g + ((f.1 + 1) * u.2 * 1000 : Nat)
    | none => p + 1000000

/-! ### Acceptance and adaptation (R167 to R172) -/

/-- JB_CTRL as it applies to a packet accepted with deemed instant `t` (R186): the value of the last boundary not after it. -/
def jbFor (t : W64) (d : Dev) : W32 :=
  match d.path.nextJb.find? fun e => decide (e.1.toNat ≤ t.toNat) with
  | some e => e.2
  | none => (rg rJB_CTRL d).extractLsb' 0 32

/-- Anchor a leg on a packet: X_a at the pass boundary at or before A + TARGET (R169). -/
def anchorOn (g : Leg) (l : List W32) (leg : Nat) (ts : W32) (arr : W64) : Leg :=
  let x := (arr.toNat + jbTarget l leg * 1000000) / 1000000 * 1000000
  { g with anchor := some (BitVec.ofNat 64 x, ts), window := [], winFrom := arr, rejRun := 0, ovrRun := 0, grow := 0,
           shrink := 0, shrinkWait := 0 }

/-- Re-anchor (R171): held payloads that no longer fit, those that would have ended by now, are discarded. -/
def reanchor (k leg : Nat) (ts : W32) (arr : W64) (d : Dev) : Dev :=
  let l := descNow k d
  let g := anchorOn (legOf k leg d) l leg ts arr
  let keep := g.held.filter fun h => decide (((now64 d).toNat : Int) < heldStop h l leg g)
    && decide (heldPlay h l leg g - arr.toNat ≤ jbMax l leg * 1000000)
  let x : W64 := match g.anchor with | some a => a.1 | none => 0
  jbRecord 0x34 k leg 0 (x.toNat % 2 ^ 32) (incRg rJB_CNT_REANCHOR (modLeg k leg (fun _ => { g with held := keep }) d))

/-- Adapt after an accepted packet (R170). Pass-through holds the anchor (R205). -/
def adaptLeg (g : Leg) (l : List W32) (leg : Nat) (arr : W64) (dly : Int) : Leg :=
  let win := fld g.jbCtrl 15 0
  let w := (arr, dly) :: g.window.filter fun e => decide (arr.toNat ≤ e.1.toNat + win * 1000000)
  let dmin := w.foldl (fun m e => min m e.2) dly
  let dmax := w.foldl (fun m e => max m e.2) dly
  let lo : Int := jbMin l leg * 1000000
  let g1 := { g with window := w }
  if dmin < lo then
    let need := ((lo - dmin + 999999) / 1000000).toNat
    let room := ((jbMax l leg * 1000000 - dmax) / 1000000).toNat
    { g1 with grow := min need room, shrink := 0 }
  else if lo + 2000000 ≤ dmin ∧ win * 1000000 ≤ arr.toNat - g.winFrom.toNat then
    { g1 with grow := 0, shrink := ((dmin - lo) / 1000000 - 1).toNat }
  else { g1 with grow := 0, shrink := 0 }

/-- Does a leg accept a packet whose delay is `dly` by the window of R167: within ±ACCEPT_WIN, or its first? -/
def inWindow (l : List W32) (leg : Nat) (g : Leg) (dly : Int) : Bool :=
  !g.heard || decide (dly.natAbs ≤ (fld (lw l leg 8) 15 0 * 1000000 : Nat))

/-- A packet outside the window: counted, and REANCHOR_N of them in a row re-anchor an adaptive leg on the last (R167). The Bool says that it
did. -/
def rejectPacket (k leg : Nat) (ts : W32) (arr : W64) (d : Dev) : Bool × Dev :=
  let g := legOf k leg d
  let d1 := vcnt (slot k d).part 0x6C 1 (incRg rJB_CNT_TS_REJECT (modLeg k leg (fun g => { g with rejRun := g.rejRun + 1 }) d))
  if fld g.jbCtrl 19 16 ≤ g.rejRun + 1 ∧ !bit (lw (descNow k d) leg 0) 4 then (true, reanchor k leg ts arr d1) else (false, d1)

/-- A packet beyond MAX (R171): counted and recorded, and REANCHOR_N of them in a row re-anchor an adaptive leg. -/
def overrunPacket (k leg : Nat) (h : Held) (d : Dev) : Bool × Dev :=
  let g := legOf k leg d
  let d1 := jbRecord 0x32 k leg 0 h.seq.toNat (vcnt (slot k d).part 0x68 1 (incRg rJB_CNT_OVERRUN
    (modLeg k leg (fun g => { g with ovrRun := g.ovrRun + 1 }) d)))
  if fld g.jbCtrl 19 16 ≤ g.ovrRun + 1 ∧ !bit (lw (descNow k d) leg 0) 4 then (true, reanchor k leg h.ts h.arr d1) else (false, d1)

/-- A packet is accepted with deemed instant `t`: the leg adapts and the payload waits for that instant (R169, R170, R186, R291). -/
def takePayload (k leg : Nat) (h : Held) (t : W64) (d : Dev) : Dev :=
  let l := descNow k d
  let g := { legOf k leg d with heard := true, jbCtrl := jbFor t d, rejRun := 0, ovrRun := 0 }
  let g1 := if bit (lw l leg 0) 4 || (slot k d).media.passThrough then g else adaptLeg g l leg h.arr (heldPlay h l leg g - h.arr.toNat)
  let d1 := modLeg k leg (fun _ => g1) d
  { d1 with path := { d1.path with visible := d1.path.visible ++ [⟨handleOf k d, leg, t.extractLsb' 0 32, h, false, none⟩] } }

/-- Anchor an adaptive leg that has no anchor on a packet (R169). -/
def firstAnchor (k leg : Nat) (ts : W32) (arr : W64) (d : Dev) : Dev :=
  let l := descNow k d
  if (legOf k leg d).anchor.isNone ∧ !bit (lw l leg 0) 4 then modLeg k leg (fun g => anchorOn g l leg ts arr) d else d

/-- Stage 7 of R145 for a packet of a leg, `b` ns of ingress bound: acceptance, anchor, duplicates, overrun; what is
accepted waits for its deemed instant (R291). -/
def jbAccept (k leg : Nat) (h : Held) (bound : Nat) (d0 : Dev) : Dev :=
  let l := descNow k d0
  let t := h.arr + BitVec.ofNat 64 bound
  let d := firstAnchor k leg h.ts h.arr d0
  let g := legOf k leg d
  let dly := heldPlay h l leg g - h.arr.toNat
  let on (r : Bool × Dev) : Dev := if r.1 then takePayload k leg h t r.2 else r.2
  if !inWindow l leg g dly then on (rejectPacket k leg h.ts h.arr d)
  else if (jbMax l leg * 1000000 : Int) < dly then on (overrunPacket k leg h d)
  else if g.held.any (fun x => decide (x.seq = h.seq))
      || d.path.visible.any (fun v => decide (v.handle = handleOf k d) && decide (v.leg = leg) && decide (v.held.seq = h.seq))
    then incRg rJB_CNT_DUP d
  else takePayload k leg h t d

/-! ### At a boundary: growth, shrinking, re-base (R170, R179) -/

/-- Is the payload that plays at an instant comfort noise or SID: payload type 13, the 2-byte frame of G.729, a SID frame of AMR (R170)? -/
def isSid (l : List W32) (leg : Nat) (g : Leg) (t : Int) : Bool :=
  match heldAt l leg g t with
  | none => false
  | some h =>
    let c := codec l leg
    let i := ((t - heldPlay h l leg g) / (max 1 (payloadUnits l leg h.payload).2 * 1000 : Nat)).toNat
    let ts := if bit (codecWord l leg) 29 then amrTypes (h.payload.drop 1)
      else amrTypesBits (h.payload.length * 2) ((bitsOf h.payload).drop 4)
    decide (h.pt = 13) || (decide (c = 5) && decide (h.payload.length % 10 = 2) && decide (i = h.payload.length / 10))
      || (decide (c = 6) && decide (ts[i]? = some 8)) || (decide (c = 7) && decide (ts[i]? = some 9))

/-- May a shrink step be taken before pass `p` (R170): a pass of comfort noise or SID, or the pass before a packet with the marker bit? -/
def silence (l : List W32) (leg : Nat) (g : Leg) (p : Int) : Bool :=
  isSid l leg g p
  || g.held.any fun h => h.marker && decide (p + 1000000 ≤ heldPlay h l leg g) && decide (heldPlay h l leg g < p + 2000000)

/-- Growth or shrinking of an adaptive leg at a boundary; `p` is the pass whose prefetch comes next. -/
def jbMove (k leg : Nat) (p : NT32) (d : Dev) : Dev :=
  let l := (slot k d).desc
  let g := legOf k leg d
  if !isRtp l leg || bit (lw l leg 0) 4 || (slot k d).media.passThrough then d
  else match g.anchor with
    | none => d
    | some (x, t) =>
      if 0 < g.grow then
        incRg rJB_CNT_GROW (modLeg k leg (fun g => { g with
          anchor := some (x + 1000000, t), grow := g.grow - 1, muted := some p, winFrom := now64 d,
          window := g.window.map fun e => (e.1, e.2 + 1000000) }) d)
      else if 0 < g.shrink then
        let hold := fld g.jbCtrl 31 24
        if hold ≤ g.lastShrink + 1 ∧ (silence l leg g (nt64Of d p).toNat ∨ 1000 ≤ g.shrinkWait) then
          incRg rJB_CNT_SHRINK (modLeg k leg (fun g => { g with
            anchor := some (x - 1000000, t), shrink := g.shrink - 1, lastShrink := 0, shrinkWait := 0,
            window := g.window.map fun e => (e.1, e.2 - 1000000) }) d)
        else modLeg k leg (fun g => { g with lastShrink := g.lastShrink + 1, shrinkWait := g.shrinkWait + 1 }) d
      else modLeg k leg (fun g => { g with lastShrink := g.lastShrink + 1 }) d

/-- The re-base of a leg (R179). -/
def jbRebase (k leg : Nat) (kk : Int) (q : W64) (d : Dev) : Dev :=
  let l := (slot k d).desc
  if !isRtp l leg then d
  else
    let abs := bit (lw l leg 0) 4
    let g := legOf k leg d
    let g1 := if abs then g else { g with
      anchor := g.anchor.map fun a => (BitVec.ofInt 64 ((a.1.toNat : Int) + kk * 1000000), a.2), window := [], grow := 0, shrink := 0,
      winFrom := q }
    let cut := g1.held.filter fun h => decide (heldPlay h l leg g1 < q.toNat)
    let keep := g1.held.filter fun h => decide ((q.toNat : Int) < heldStop h l leg g1)
    addRg rJB_CNT_REBASE_DROP cut.length (modLeg k leg (fun _ => { g1 with held := keep, ops := [], lostTo := 0 }) d)

/-- A concealed pass or a heard one of an RTP leg (R173): UNDERRUN begins a run, RECOVER ends it. -/
def jbRun (k leg : Nat) (marked : Bool) (d : Dev) : Dev :=
  let g := legOf k leg d
  if !isRtp (slot k d).desc leg then d
  else if marked then
    modLeg k leg (fun g => { g with concealRun := g.concealRun + 1 }) (if g.concealRun = 0 then jbRecord 0x30 k leg 0 0 d else d)
  else if g.concealRun = 0 then d
  else jbRecord 0x31 k leg 0 g.concealRun (modLeg k leg (fun g => { g with concealRun := 0 }) d)

/-- Keep one prefetch event for each RTP leg of a descriptor, the first for pass `p` (R116, R292). -/
def syncPrefetch (k : Nat) (l : List W32) (p : NT32) (d : Dev) : Dev :=
  let h := handleOf k d
  [0, 1].foldl (fun x leg =>
    let has := (dlist 1 x).any fun e => decide (e.handle = h ∧ e.kind = .prefetch leg)
    if isRtp l leg then (if has then x else dlAdd 1 ⟨p - 1000000, h, .prefetch leg, false⟩ x)
    else dlDrop 1 (fun e => decide (e.handle = h ∧ e.kind = .prefetch leg)) x) d

end Sys2Proof.Machine
end

