-- ==== Sys2Proof/Machine/Tones.lean ====
section
/-! DEFINITION. Tones: what a pass's input is measured to hold, the detectors of DTMF digits, call-progress tones and fax and modem
tones, and the generated tones (rules R197, R202 to R206, R223). The measurement is a free function of the detector's input (log entry
3); what is decided from it is the spec's. -/
namespace Sys2Proof.Machine

/-! ### Measurement (R202 to R204) -/

/-- Does a measured frequency count as nominal `f` Hz: within `acc` per mille it does, beyond `rej` it does not, and between the limits
the spec leaves it open (log entry 194)? Frequencies are measured in 0.1 Hz. -/
def freqIs (f acc rej : Nat) (m : Nat) : Bool :=
  let dev := ((m : Int) - 10 * f).natAbs * 1000
  if dev ≤ acc * (10 * f) then true else if rej * (10 * f) < dev then false else Config.toneChoice [1, f, m]

/-- Does a level in 0.1 dBm0 operate a DTMF detector (R202)? -/
def dtmfLevel (v : Int) : Bool :=
  if -260 ≤ v ∧ v ≤ -30 then true else if v < -350 then false else Config.toneChoice [2, v]

/-- Is a tone of `f` Hz, within `tol` 0.1 Hz and at no less than `level` in 0.1 dBm0, among the components? -/
def toneThere (f tol : Nat) (level : Int) (cs : List (Nat × Int)) : Bool :=
  cs.any fun c => decide (((c.1 : Int) - 10 * f).natAbs ≤ tol) && decide (level ≤ c.2)

/-- The row and column frequencies of DTMF, and the digits row by row (ITU-T Q.23): 10 is *, 11 #, 12 to 15 A to D (R197). -/
def dtmfRows : List Nat := [697, 770, 852, 941]
/-- The column frequencies. -/
def dtmfCols : List Nat := [1209, 1336, 1477, 1633]
/-- The keys, row by row. -/
def dtmfKeys : List Nat := [1, 2, 3, 12, 4, 5, 6, 13, 7, 8, 9, 14, 10, 0, 11, 15]
/-- The two frequencies of a digit. -/
def dtmfFreqs (dg : Nat) : Nat × Nat :=
  let i := (dtmfKeys.findIdx? fun x => decide (x = dg % 16)).getD 0
  (dtmfRows.getD (i / 4) 0, dtmfCols.getD (i % 4) 0)

/-- The digit a pass's components make, with the level of the weaker frequency in −dBm0 (R202, R207): frequencies, levels and twist
within their limits. -/
def dtmfNow (cs : List (Nat × Int)) : Option (Nat × Nat) :=
  let part (f : Nat) : Option Int := (cs.find? fun c => freqIs f 15 35 c.1 && dtmfLevel c.2).map (·.2)
  (List.range 16).findSome? fun i =>
    match part (dtmfRows.getD (i / 4) 0), part (dtmfCols.getD (i % 4) 0) with
    | some lo, some hi =>
      if decide (hi - lo ≤ 40 ∧ lo - hi ≤ 80) || Config.toneChoice [3, hi - lo]
      then some (dtmfKeys.getD i 0, (-(min lo hi) / 10).toNat) else none
    | _, _ => none

/-! ### DTMF digits (R202, R207) -/

/-- MIN_ON and MIN_OFF in ms (R197). -/
def minOn (l : List W32) : Nat := fld (dw l 35) 7 0
/-- MIN_OFF. -/
def minOff (l : List W32) : Nat := fld (dw l 35) 15 8

/-- The digit in progress after a pass in which `x` was measured, and the record of its end: a break of 10 ms or less is bridged, one of
MIN_OFF ends it, and between them the spec leaves it open. -/
def dtmfGoesOn (l : List W32) (leg : Nat) (x : Option (Nat × Nat)) (s : Detect) : Detect × List JobRec :=
  match s.digit with
  | none => ({ s with tail := s.tail - 1 }, [])
  | some g =>
    if x.map (·.1) = some g.digit then ({ s with digit := some { g with ran := g.ran + s.gap + 1 }, gap := 0 }, [])
    else if s.gap + 1 ≤ 10 ∨ (s.gap + 1 < minOff l ∧ !Config.toneChoice [4, (s.gap + 1 : Nat), minOff l])
      then ({ s with gap := s.gap + 1 }, [])
    else ({ s with digit := none, gap := 0, tail := 10 }, [⟨0x51, leg, g.digit, g.level, 0, g.ran⟩])

/-- The digit that is not yet recognised. -/
def dtmfCand (x : Option (Nat × Nat)) (s : Detect) : Option (Nat × Nat × Nat × Nat) :=
  match x with
  | some (dg, lv) =>
    if s.digit.map (·.digit) = some dg then none
    else match s.cand with
      | some (c, v, n, gap) => if c = dg then some (c, v, n + gap + 1, 0) else some (dg, lv, 1, 0)
      | none => some (dg, lv, 1, 0)
  | none => match s.cand with
    | some (c, v, n, gap) => if gap + 1 ≤ 10 then some (c, v, n, gap + 1) else none
    | none => none

/-- One pass of DTMF detection: a digit of MIN_ON is recognised, one below MIN_ON − 20 ms is not, and between them the spec leaves it
open. -/
def dtmfStep (l : List W32) (leg : Nat) (cs : List (Nat × Int)) (s : Detect) : Detect × List JobRec :=
  let x := dtmfNow cs
  let a := dtmfGoesOn l leg x s
  let s1 := { a.1 with cand := dtmfCand x a.1 }
  match s1.digit, s1.cand with
  | none, some (dg, lv, n, 0) =>
    if minOn l ≤ n ∨ (minOn l ≤ n + 20 ∧ Config.toneChoice [5, n, minOn l])
    then ({ s1 with digit := some ⟨dg, lv, n⟩, cand := none, gap := 0, tail := 0 }, a.2 ++ [⟨0x50, leg, dg, lv, 0, 0⟩])
    else (s1, a.2)
  | _, _ => (s1, a.2)

/-! ### Call-progress tones (R203) -/

/-- Word `i` of tone definition `n` of DET_TONE (R197). -/
def detWord (l : List W32) (n i : Nat) : W32 := dw l (40 + 4 * n + i)
/-- The on and off times of a tone definition in ms: one period, or two. -/
def cadence (w2 w3 : W32) : List Nat :=
  [fld w2 31 16, fld w2 15 0] ++ (if fld w3 31 16 = 0 then [] else [fld w3 31 16, fld w3 15 0])
/-- Does a run of passes match a time of the cadence: within 10 % or 20 ms, whichever is wider? -/
def runFits (run want : Nat) : Bool :=
  let dev := ((run : Int) - want).natAbs
  decide (dev ≤ 20) || decide (dev * 10 ≤ want)

/-- One pass of a tone definition: its records, and how it stands. -/
def toneStep (l : List W32) (leg n : Nat) (cs : List (Nat × Int)) (r : ToneRun) : ToneRun × List JobRec :=
  let f1 := fld (detWord l n 0) 31 16
  let f2 := fld (detWord l n 0) 15 0
  let lv : Int := -(10 * fld (detWord l n 1) 23 16 : Nat)
  let id := fld (detWord l n 1) 31 24
  let segs := cadence (detWord l n 2) (detWord l n 3)
  if f1 = 0 then (r, [])
  else
    let here := toneThere f1 (f1 / 5) lv cs && (decide (f2 = 0) || toneThere f2 (f2 / 5) lv cs)
    let flip := decide (here ≠ r.on)
    let stage :=
      if !flip then r.stage
      else if decide (r.on = decide (r.stage % 2 = 0)) && runFits r.run (segs.getD r.stage 0) then r.stage + 1
      else if r.on && runFits r.run (segs.getD 0 0) then 1 else 0
    let run := if flip then 1 else r.run + 1
    let full := if segs.getD 1 0 = 0 then here && decide (run = segs.getD 0 0) else decide (stage = segs.length)
    let absent := if here then 0 else r.absent + 1
    let r1 : ToneRun := ⟨if stage = segs.length then 0 else stage, here, run, r.hit.map (· + 1), absent⟩
    match r1.hit with
    | none => if full then ({ r1 with hit := some 0 }, [⟨0x52, leg, id, 0, 0, 0⟩]) else (r1, [])
    | some t =>
      let longest := max (segs.getD 1 0) (segs.getD 3 0)
      if longest + 50 ≤ absent then ({ r1 with hit := none, stage := 0 }, [⟨0x53, leg, id, 0, 0, t - absent⟩]) else (r1, [])

/-! ### Fax and modem tones (R204) -/

/-- One pass of the fax and modem detectors; `am` says that the level is modulated at 15 Hz, `rev` that the phase reversed and `octet` that
an octet of V.21 channel 2 ended, and whether it was a flag. -/
def faxStep (leg : Nat) (cs : List (Nat × Int)) (am rev : Bool) (octet : Option Bool) (s : Detect) : Detect × List JobRec :=
  let code (c : Nat) : JobRec := ⟨0x54, leg, c, 0, 0, 0⟩
  let ced := if toneThere 2100 150 (-10000) cs then s.ced + 1 else 0
  let amRun := if 0 < ced ∧ am then s.am + 1 else 0
  let ago := if ced = 0 then none else if rev then some 0 else s.rev.map (· + 1)
  let spaced := rev && (match s.rev with | some t => decide (425 ≤ t + 1 ∧ t + 1 ≤ 475) | none => false)
  let reversals := spaced && decide (400 ≤ amRun) && !(s.revTold && decide (0 < ced))
  let r1 := if ced = 400 ∧ amRun < 400 then [code 1] else if amRun = 400 then [code 2] else []
  let r2 := if reversals then [code 3] else []
  let cngHere := toneThere 1100 380 (-10000) cs
  let cng := if cngHere then s.cng + 1 else 0
  let ended := !cngHere && decide (400 ≤ s.cng ∧ s.cng ≤ 650)
  let since := s.cngAgo.map (· + 1)
  let spacing : Nat := since.getD 0 - s.cng
  let second : Bool := since.isSome && (decide (spacing = 3000) || Config.toneChoice [6, spacing])
  let r3 := if ended && second then [code 4] else []
  let flags := match octet with | none => s.flags | some true => s.flags + 1 | some false => 0
  let r4 := if flags = 3 ∧ s.flags = 2 then [code 5] else []
  ({ s with
     ced := ced, am := amRun, rev := ago, revTold := decide (0 < ced) && (s.revTold || reversals), cng := cng,
     cngAgo := if ended then some s.cng else since, flags := flags }, r1 ++ r2 ++ r3 ++ r4)

/-! ### One pass of a leg's detectors -/

/-- The detectors of a leg after a pass, and the records of what they decided (R202 to R204, R220). -/
def detectStep (l : List W32) (leg ctx : Nat) (x : List (BitVec 18)) (s : Detect) : Detect × List JobRec :=
  let cs := Config.spectrum ctx leg (samplesPerPass l) x
  let a := dtmfStep l leg cs s
  let t := (List.range 4).map fun n => toneStep l leg n cs (a.1.tones.getD n ⟨0, false, 0, none, 0⟩)
  let f := faxStep leg cs (Config.am15 ctx leg x) (Config.reversal ctx leg x) (Config.v21Octet ctx leg x) { a.1 with tones := t.map (·.1) }
  (f.1, a.2 ++ t.flatMap (·.2) ++ f.2)

/-- The records that end what a leg's detectors hold at a re-base, with byte 15 bit 0 set (R223): a digit and the tones in progress. -/
def detectCut (l : List W32) (leg : Nat) (s : Detect) : List JobRec :=
  (match s.digit with | some g => [⟨0x51, leg, g.digit, g.level, 1, g.ran⟩] | none => [])
  ++ (List.range 4).filterMap fun n => match (s.tones.getD n ⟨0, false, 0, none, 0⟩).hit with
    | some t => some ⟨0x53, leg, fld (detWord l n 1) 31 24, 0, 1, t⟩
    | none => none

/-! ### Generation (R206) -/

/-- DURATION of TONE_GEN in passes; 0 means continuous (R197, R206). -/
def genPasses (l : List W32) : Nat :=
  let u := fld (dw l 36) 23 16
  if u = 0 then (if genKind l = 1 then 0 else 100) else 10 * u
/-- LEG of TONE_GEN (R197). -/
def genLeg (l : List W32) : Nat := fld (dw l 36) 4 4
/-- DIGIT of TONE_GEN. -/
def genDigit (l : List W32) : Nat := fld (dw l 36) 11 8
/-- GEN_LEVEL (R197). -/
def genLevel (l : List W32) : Nat := fld (dw l 35) 23 16

/-- Is a cadence on, `t` ms after it began: ON1, OFF1, ON2, OFF2 in turn, always where OFF1 is 0 (R197)? -/
def cadenceOn (w2 w3 : W32) (t : Nat) : Bool :=
  let on1 := fld w2 31 16
  let off1 := fld w2 15 0
  let on2 := fld w3 31 16
  let off2 := if on2 = 0 then 0 else fld w3 15 0
  let x := t % max 1 (on1 + off1 + on2 + off2)
  decide (off1 = 0) || decide (x < on1) || (decide (on1 + off1 ≤ x) && decide (x < on1 + off1 + on2))

/-- The frequencies and level of the commanded tone (R206). -/
def genTone (kind : Nat) (l : List W32) : Nat × Nat × Nat :=
  if kind = 1 then (fld (dw l 56) 31 16, fld (dw l 56) 15 0, fld (dw l 57) 23 16)
  else let f := dtmfFreqs (genDigit l); (f.1, f.2, genLevel l)

/-- Sample `i` of pass `played` of the commanded tone, counted from phase 0 where it started. -/
def genSample (kind : Nat) (l : List W32) (played i : Nat) : BitVec 18 :=
  let g := genTone kind l
  let n := samplesPerPass l
  if kind = 1 ∧ !cadenceOn (dw l 58) (dw l 59) played then 0 else Config.toneSample g.1 g.2.1 g.2.2 n (played * n + i)

/-- The generator at the start of a pass: a TONE_GEN write that no job has acted on starts it (R206). -/
def genStart (l : List W32) (wrote : Bool) (g : ToneGen) : ToneGen :=
  if wrote ∧ genKind l ≠ 0 then ⟨genKind l, 0, none⟩ else g

/-- The sample of this pass at which the generator stops: none while it goes on. Its end comes after DURATION passes or with GEN = 0; it
stops at the next sample of zero phase, within 2 ms, events at once. -/
def genStop (l : List W32) (g : ToneGen) : Option Nat :=
  let n := samplesPerPass l
  if g.kind = 0 then none
  else match g.ending with
    | some z => some (z % n)
    | none =>
      if genKind l = 0 ∨ (genPasses l ≠ 0 ∧ genPasses l ≤ g.played) then
        (if g.kind = 3 then some 0
         else
           let t := genTone g.kind l
           let z := Config.zeroSample t.1 t.2.1 n g.played % (2 * n)
           if z < n then some z else none)
      else none

/-- Has the generator's end come in this pass, its stop lying in the next? -/
def genEnding (l : List W32) (g : ToneGen) : Option Nat :=
  let n := samplesPerPass l
  let t := genTone g.kind l
  if g.ending.isNone ∧ g.kind ≠ 0 ∧ g.kind ≠ 3 ∧ (genKind l = 0 ∨ (genPasses l ≠ 0 ∧ genPasses l ≤ g.played))
  then some (Config.zeroSample t.1 t.2.1 n g.played % (2 * n) - n) else none

/-- The generator after a pass. -/
def genNext (l : List W32) (g : ToneGen) : ToneGen :=
  if g.kind = 0 then g
  else if (genStop l g).isSome then ⟨0, 0, none⟩
  else ⟨g.kind, g.played + 1, genEnding l g⟩

end Sys2Proof.Machine
end

