-- ==== Sys2Proof/Machine/Media.lean ====
section
/-! DEFINITION. The media functions: what a channel job and a bus job compute from their operands (rules R109, R191 to R224,
R360). What the signal processing of a stage computes is a free function of its inputs (log entry 3); the order of the stages, what
enables each, fixed gains, the limits of AGC and noise suppression, what adapts and what is kept, generation, relay, mixing and the
records are the spec's. A job's outputs are a function of what the job holds and of the program's image and data alone (R30). -/
namespace Sys2Proof.Machine

/-- A sample limited to Q1.17 (R11). -/
def sat18 (x : Int) : BitVec 18 := BitVec.ofInt 18 (clampInt (-131072) 131071 x)
/-- Two signals added with saturation. -/
def mixAdd (a b : List (BitVec 18)) : List (BitVec 18) := List.zipWith (fun x y => sat18 (x.toInt + y.toInt)) a b
/-- Silence. -/
def quiet (n : Nat) : List (BitVec 18) := List.replicate n 0
/-- A pass's samples as exactly `n`. -/
def fit (n : Nat) (x : List (BitVec 18)) : List (BitVec 18) := (x ++ quiet n).take n

/-- 10^(1/40), the ratio of 0.5 dB, in 10⁻³⁶. -/
def halfDb : Nat := 1059253725177288878809280373278108619
/-- The ratio of a gain of `g` half decibels, as numerator and denominator (R197). -/
def gainRatio (g : Int) : Nat × Nat :=
  let k := g.natAbs
  let r : Nat × Nat := if k % 40 = 0 then (10 ^ (k / 40), 1) else (halfDb ^ k, 10 ^ (36 * k))
  if 0 ≤ g then r else (r.2, r.1)
/-- A sample after a fixed gain, with saturation (R215); which neighbour an inexact product takes is open (log entry 3). -/
def gainSample (g : Int) (x : BitVec 18) : BitVec 18 :=
  let r := gainRatio g
  let v := x.toInt * r.1
  sat18 (v / r.2 + (if v % r.2 ≠ 0 ∧ Config.gainUp g x then 1 else 0))
/-- A fixed gain in half decibels (R197, R215); 0 dB leaves the samples alone. -/
def applyGain (g : Int) (x : List (BitVec 18)) : List (BitVec 18) := if g = 0 then x else x.map (gainSample g)

/-- The input and output gains of a leg: A_IN, A_OUT, B_IN, B_OUT (R197). -/
def gainIn (l : List W32) (leg : Nat) : Int := ((dw l 33).extractLsb' (16 * leg) 8).toInt
/-- Output gain. -/
def gainOut (l : List W32) (leg : Nat) : Int := ((dw l 33).extractLsb' (16 * leg + 8) 8).toInt

/-! ### Leg input (steps 1 and 2) -/

/-- The codec word of a leg as the coders see it: VAD, CN_RX, OA, MODE and CODEC (R195). -/
def coder (l : List W32) (leg : Nat) : Nat := (codecWord l leg).toNat &&& 0xEF00001F

/-- Is a payload valid for its codec (R211)? Operands of frame codecs carry the frame's index in front. -/
def operandValid (l : List W32) (leg : Nat) (b : List Byte) : Bool :=
  let c := codec l leg
  let p := b.drop 1
  if sampleSliced c then true
  else if c = 5 then decide (p.length % 10 = 0) || decide (p.length = 2)
  else if c = 6 ∨ c = 7 then amrValid (decide (c = 7)) (bit (codecWord l leg) 29) p
  else Config.payloadValid c p

/-- Steps 1 and 2: a leg's input, and whether its payload was invalid. -/
def legInput (l : List W32) (leg ctx : Nat) (o : Oper) (marked : Bool) (nt : NT32) : List (BitVec 18) × Bool :=
  let n := samplesPerPass l
  let c := coder l leg
  let conv (x : List (BitVec 18)) : List (BitVec 18) :=
    if codecRate (codec l leg) (cmode l leg) = rate l then fit n x else fit n (Config.convert ctx leg n x)
  match kind l leg with
  | 0 => (quiet n, false)
  | 1 =>
    if marked then (conv (Config.conceal c ctx nt n), false)
    else match o with
      | .bytes b => if operandValid l leg b then (conv (Config.decode c ctx b nt n), false) else (conv (Config.conceal c ctx nt n), true)
      | .cont => (conv (Config.decode c ctx [] nt n), false)
      | _ => (conv (Config.conceal c ctx nt n), false)
  | _ =>
    if marked then (fit n (Config.conceal 0 ctx nt n), false)
    else match o with
      | .pcm x _ => (fit n x, false)
      | _ => (quiet n, false)

/-! ### Echo canceller, NLP, noise suppressor, AGC (steps 5, 6, 8, 9) -/

/-- The canceller as a job finds it (R197, R201): a RESET write or EC_TAIL = 0 clears coefficients and history; a change of EC_TAIL keeps
the taps both lengths have, the new ones being zero. -/
def ecStart (l : List W32) (reset : Bool) (e : EchoCan) : EchoCan :=
  if reset || decide (ecTail l = 0) then ⟨0, 0, 0⟩ else { e with valid := min e.valid (ecTail l) }

/-- DT_THRESH (R197). -/
def dtThresh (l : List W32) : Nat := fld (dw l 32) 23 16

/-- Steps 5 and 6 on the EC_SIDE leg: the canceller, then the NLP, which puts comfort noise or silence in place of residual echo. -/
def ecStages (l : List W32) (ctx : Nat) (e : EchoCan) (pt : Bool) (x : List (BitVec 18)) : List (BitVec 18) :=
  let n := samplesPerPass l
  let y := fit n (Config.echoCancel e.coef e.valid e.hist (ecTail l) x)
  if bit (chCtrl l) 5 && !pt && Config.residual ctx e.hist x y
  then (if bit (chCtrl l) 6 then fit n (Config.comfortNoise ctx n) else quiet n) else y

/-- The coefficients after a pass: adapted, unless adaptation is frozen (R199, R201, R205, R223). -/
def ecAdapt (l : List W32) (e : EchoCan) (frozen : Bool) (x y : List (BitVec 18)) : EchoCan :=
  if frozen then e
  else { e with coef := Config.adapt e.coef e.valid e.hist (ecTail l) (dtThresh l) x y, valid := ecTail l }

/-- NS_LEVEL in dB (R197). -/
def nsLimit (l : List W32) : Nat := 6 * fld (dw l 34) 17 16
/-- Step 8: every band is attenuated by what the estimate asks for, NS_LEVEL at most (R215). -/
def suppress (l : List W32) (noise : Nat) (x : List (BitVec 18)) : List (BitVec 18) :=
  fit (samplesPerPass l) (Config.bandGain ((Config.nsWant noise x).map (min (nsLimit l))) x)

/-- The AGC's gain of a pass in 10⁻³ dB (R215): between −12 dB and AGC_MAX, rising by at most 6 and falling by at most 24 in the 1 ms of a
pass, held in double talk and without speech. -/
def agcGain (l : List W32) (hold : Bool) (g : Int) (x : List (BitVec 18)) : Int :=
  clampInt (-12000) (500 * fld (dw l 34) 15 8 : Nat)
    (if hold then g else g + clampInt (-24) 6 (Config.agcWant g (fld (dw l 34) 7 0) x))
/-- Step 9. -/
def agcApply (g : Int) (x : List (BitVec 18)) : List (BitVec 18) := if g = 0 then x else x.map (Config.agcScale g)

/-! ### Received events (R208) -/

/-- When the received events of a leg play, NT64 in ns: from the instant the timestamp maps to until the E bit's end, or three frames after
the end the last update stated, or the start of the next event. -/
def evtSpans (l : List W32) (leg : Nat) (g : Leg) (p : Int) : List RxEvent → List (RxEvent × Int × Int)
  | [] => []
  | e :: t =>
    let x (u : RxEvent) : Int := playAt l leg g u.ts (BitVec.ofInt 64 p)
    let stop := x e + (e.dur : Int) * 1000000000 / max 1 (rtpClock l leg) + (if e.fin then 0 else 3 * frameMs l leg * 1000000)
    (e, x e, match t with | [] => stop | u :: _ => min stop (x u)) :: evtSpans l leg g p t

/-- The event of a leg that plays at instant `t` and is not cut short. -/
def evtAt (es : List (RxEvent × Int × Int)) (t : Int) : Option (RxEvent × Int × Int) :=
  es.find? fun e => !e.1.done && !e.1.cut && decide (e.2.1 ≤ t) && decide (t < e.2.2)
/-- The events of a leg whose end falls before instant `t` and is not recorded yet. -/
def evtEnded (es : List (RxEvent × Int × Int)) (t : Int) : List RxEvent :=
  (es.filter fun e => !e.1.done && decide (e.2.2 < t)).map (·.1)

/-- Window word 0x3F41 of a tenant stage (R218). -/
def windowFlags (markA markB rebased first : Bool) : Nat := b2n markA + 2 * b2n markB + 4 * b2n rebased + 8 * b2n first

/-- Has a LINE operand any BLANKED or SAT bit (R400)? The echo canceller then does not adapt. -/
def tagged (o : Oper) : Bool := match o with | .pcm _ st => decide (st % 2 ^ 17 ≠ 0) | _ => false

/-! ### The tenant stage (R218, R219) -/

/-- Does a job call its tenant program (R205, R218)? -/
def tenantRuns (j : Job) : Bool :=
  progOn j.snap.desc && !j.bypass && !(j.snap.media.passThrough && decide (j.snap.leaveAt = 0))

/-- How the tenant stage of a job ends, 0 by RETU, and what it leaves: by the core that ran the program, or else as the program's image makes
of the window. -/
def tenantStage (image data : List Word) (j : Job) (a b : List (BitVec 18)) : Nat × List (BitVec 18) × List (BitVec 18) × List Word :=
  let l := j.snap.desc
  let n := samplesPerPass l
  let wf := windowFlags j.markA j.markB j.snap.rebased (!j.snap.initDone)
  match j.ten with
  | some (.ran x y w) => (0, x, y, w)
  | some (.stopped c) => (c, a, b, data)
  | none =>
    let e := Config.tenantEnd image data a b j.pass wf n (fld (dw l 38) 15 0)
    if e % 4 = 0 then
      (0, Config.tenantSignal 0 image data a b j.pass wf n, Config.tenantSignal 1 image data a b j.pass wf n,
        (List.range (1024 * dataGran l)).map fun i => Config.tenantWord i image data a b j.pass wf n)
    else (e % 4, a, b, data)

/-- The record of a tenant stage's end (R219): BUDGET_ABORT, or PROG_FAULT with its reason. -/
def tenantRec (cause : Nat) : List JobRec :=
  match cause with
  | 0 => [] | 1 => [⟨0x25, 0xFF, 0, 0, 0, 0⟩] | 2 => [⟨0x59, 0xFF, 1, 0, 0, 0⟩] | _ => [⟨0x59, 0xFF, 2, 0, 0, 0⟩]

/-! ### The channel job -/

/-- The input side of a job, steps 1 to 10 of one leg: the signals at the taps PRE and POST, the input decoded, whether its payload was
invalid, the detectors and their records, the AGC's gain and the noise estimate it leaves. -/
structure LegWork where
  dec : List (BitVec 18)
  bad : Bool
  pre : List (BitVec 18)
  ecd : List (BitVec 18)
  post : List (BitVec 18)
  det : Detect
  recs : List JobRec
  agc : Int
  noise : Nat
  deriving DecidableEq, Repr

/-- Is a digit detected on a leg sent toward leg `dst` as events (R207)? -/
def relays (l : List W32) (dst : Nat) : Bool := bit (chCtrl l) 13 && isRtp l dst && decide (evtPt l dst ≠ 0)

/-- Steps 1 to 10 on a leg (R191): `pt` pass-through, `e` the canceller as the job finds it. -/
def legWork (j : Job) (leg : Nat) (pt ecOff : Bool) (e : EchoCan) : LegWork :=
  let s := j.snap
  let l := s.desc
  let n := samplesPerPass l
  let i := legInput l leg s.ctx (if leg = 0 then j.inA else j.inB) (if leg = 0 then j.markA else j.markB) j.pass
  let pre := if pt then i.1 else applyGain (gainIn l leg) i.1
  let ecd := if ecTail l ≠ 0 ∧ ecSide l = leg ∧ !ecOff then ecStages l s.ctx e pt pre else pre
  let d0 := if leg = 0 then s.media.detA else s.media.detB
  let cut := if s.rebased then detectCut l leg d0 else []
  let det := if toneDet l leg then detectStep l leg s.ctx ecd (if s.rebased then Detect.reset else d0) else (Detect.reset, [])
  let sup := if toneDet l leg && relays l (1 - leg) && (det.1.digit.isSome || decide (0 < det.1.tail)) then quiet n else ecd
  let talk := Config.speech s.ctx leg ecd
  let noise := if leg = 0 then s.media.noiseA else s.media.noiseB
  let ns := if nsOn l leg && !pt then suppress l noise sup else sup
  let g0 := if leg = 0 then s.media.agcA else s.media.agcB
  let hold := !talk || Config.doubleTalk e.coef e.hist (dtThresh l) ecd
  let g := if agcOn l leg && !pt then agcGain l hold g0 ns else g0
  { dec := i.1, bad := i.2, pre := pre, ecd := ecd, post := if agcOn l leg && !pt then agcApply g ns else ns,
    det := det.1, recs := cut ++ det.2, agc := g,
    noise := if nsOn l leg && !pt && !talk then Config.noiseNext noise sup else noise }

/-- Step 13 toward a leg: the commanded tone takes precedence over a regenerated relay digit (R206, R208). Sample `i` of the pass. -/
def genInto (l : List W32) (g : ToneGen) (dst : Nat) (es : List (RxEvent × Int × Int)) (p : Int) (x : List (BitVec 18)) :
    List (BitVec 18) :=
  let n := samplesPerPass l
  let ours := decide (genLeg l = dst) && decide (g.kind = 1 ∨ g.kind = 2)
  ((List.range n).zip x).map fun e =>
    let t := p + (e.1 * 1000000 / n : Nat)
    let y := match (if relays l dst then none else evtAt es t) with
      | some v =>
        let f := dtmfFreqs v.1.code
        Config.toneSample f.1 f.2 (genLevel l) n ((t - v.2.1).toNat * n / 1000000)
      | none => e.2
    if ours && decide (e.1 < (genStop l g).getD n) then
      let w := genSample g.kind l g.played e.1
      if bit (dw l 36) 3 then sat18 (e.2.toInt + w.toInt) else w
    else y

/-- What a channel job computes (R191 to R211, R218 to R223). -/
def channelOut (image data : List Word) (j : Job) : JobOut :=
  let s := j.snap
  let m := s.media
  let l := s.desc
  let n := samplesPerPass l
  let p : Int := j.nt64.toNat
  -- pass-through and the canceller as this pass finds them
  let pt := m.passThrough && decide (s.leaveAt = 0)
  let left : List JobRec := if m.passThrough && !pt then [⟨0x55, 0xFF, 0, 0, 0, 0⟩] else []
  let ecOff := pt && m.ecOff
  let e := ecStart l (decide (s.resetAt ≠ 0)) m.ec
  let a := legWork j 0 pt ecOff e
  let b := legWork j 1 pt ecOff e
  -- step 11
  let runs := tenantRuns j
  let ten := if runs then tenantStage image data j a.post b.post else (0, a.post, b.post, data)
  -- steps 12 to 14: the processed input of A goes toward B, that of B toward A
  let g := genStart l (decide (s.genAt ≠ 0)) m.gen
  let es (leg : Nat) : List (RxEvent × Int × Int) := let q := if leg = 0 then s.legA else s.legB; evtSpans l leg q p q.evts
  let toward (dst : Nat) (x : List (BitVec 18)) : List (BitVec 18) :=
    let y := genInto l g dst (es (1 - dst)) p (fit n x)
    if pt then y else applyGain (gainOut l dst) y
  let toA := toward 0 ten.2.2.1
  let toB := toward 1 ten.2.1
  -- step 15
  let enc (dst : Nat) (x : List (BitVec 18)) : List Byte :=
    if !isRtp l dst then [] else fitBytes (passBytes l dst) (Config.encode (coder l dst) s.ctx x)
  let genEv (dst : Nat) : Bool := decide (g.kind = 3) && (genStop l g).isNone && decide (genLeg l = dst) && isRtp l dst
  let rxNow (dst : Nat) : Option RxEvent := ((es (1 - dst)).find? fun v =>
    !v.1.done && !v.1.cut && decide (v.2.1 < p + 1000000) && decide (p < v.2.2)).map (·.1)
  let ev (dst : Nat) : Option (Nat × Nat) :=
    if genEv dst then some (genDigit l, genLevel l)
    else if !relays l dst then none
    else match (if dst = 0 then b.det.digit else a.det.digit), rxNow dst with
      | some x, _ => some (x.digit, x.level)
      | none, some v => some (v.code, v.vol)
      | none, none => none
  let commanded (dst : Nat) : Bool := genEv dst || (decide (genLeg l = dst) && decide (g.kind = 1 ∨ g.kind = 2)
    && decide (0 < (genStop l g).getD n))
  let rxRecs (leg : Nat) : List JobRec := (evtEnded (es leg) (p + 1000000)).map fun v =>
    ⟨0x56, leg, v.code, v.vol, 0, v.dur * 1000 / max 1 (rtpClock l leg)⟩
  let legS (leg : Nat) : Leg := if leg = 0 then s.legA else s.legB
  let badNow (leg : Nat) (x : Bool) : Bool := x && (match (legS leg).badSecs with
    | some t => decide (t.toNat + 1000000000 ≤ j.nt64.toNat) | none => true)
  let badRec (leg : Nat) (x : Bool) : List JobRec :=
    if badNow leg x
    then [⟨0x5A, leg, codec l leg, 0, 0, match heldAt l leg (legS leg) p with | some h => h.seq.toNat | none => 0⟩] else []
  let fax := (a.recs ++ b.recs).filter fun r => decide (r.typ = 0x54)
  let enter := bit (chCtrl l) 14 && !fax.isEmpty && !pt
  let frozen := pt || decide (0 < s.freezeFor) || bit (dw l 32) 7 || tagged j.inA || tagged j.inB
  let side := if ecSide l = 0 then a else b
  let e1 := if ecTail l ≠ 0 ∧ !ecOff then ecAdapt l e frozen side.pre side.ecd else e
  { toA := toA, toB := toB, tapA := a.pre, tapB := b.pre, postA := a.post, postB := b.post,
    recs := (if j.noProg then [⟨0x24, 0xFF, 0, 0, 0, 0⟩] else []) ++ left ++ a.recs ++ b.recs
      ++ (if enter then [⟨0x55, 0xFF, 1, 0, 0, 0⟩] else []) ++ tenantRec ten.1 ++ rxRecs 0 ++ rxRecs 1
      ++ s.legA.evtNew.map (fun c => ⟨0x57, 0, c, 0, 0, 0⟩) ++ s.legB.evtNew.map (fun c => ⟨0x57, 1, c, 0, 0, 0⟩)
      ++ badRec 0 a.bad ++ badRec 1 b.bad
      ++ (if (genStop l g).isSome then [⟨0x58, genLeg l, g.kind, 0, 0, g.played⟩] else []),
    mix := [], ctx := Config.ctxNext s.ctx l a.dec b.dec toA toB j.pass,
    media := {
      passThrough := pt || enter
      ecOff := (pt || enter) && (ecOff || (bit (chCtrl l) 14 && fax.any fun r => decide (r.b13 = 3)))
      ec := { e1 with hist := if ecTail l = 0 then 0 else Config.farHistory e.hist (if ecSide l = 0 then toA else toB) }
      gen := genNext l g
      detA := a.det, detB := b.det, agcA := a.agc, agcB := b.agc, noiseA := a.noise, noiseB := b.noise }
    data := if runs ∧ ten.1 = 0 then some ten.2.2.2 else none,
    encA := enc 0 toA, encB := enc 1 toB, evA := ev 0, evB := ev 1,
    rxDone := [0, 1].flatMap fun leg => (evtEnded (es leg) (p + 1000000)).map fun v => (leg, v.ts),
    rxCut := [0, 1].flatMap fun dst => match rxNow dst with
      | some v => if commanded dst then [(1 - dst, v.ts)] else []
      | none => [],
    bad := [0, 1].filter fun leg => badNow leg (if leg = 0 then a.bad else b.bad),
    unsup := s.legA.evtNew.map (fun c => (0, c)) ++ s.legB.evtNew.map (fun c => (1, c)),
    concA := j.markA, concB := j.markB }

/-- The outputs of a job that has none of a channel's: what a bus job leaves but its mixes. -/
def JobOut.bus (mix : List (Nat × List (BitVec 18))) : JobOut :=
  { toA := [], toB := [], tapA := [], tapB := [], postA := [], postB := [], recs := [], mix := mix, ctx := 0, media := Media.reset,
    data := none, encA := [], encB := [], evA := none, evB := none, rxDone := [], rxCut := [], bad := [], unsup := [],
    concA := false, concB := false }

/-- What a bus job computes (R217): the sum of all contributions but those of LISTEN members, and for each member that sum
less its own, saturated to Q1.17. A member without a contribution is mixed as silence (R110). -/
def busOut (j : Job) : JobOut :=
  let n := if j.wb then 16 else 8
  let own (k : Nat × Bool) : List (BitVec 18) :=
    if k.2 then quiet n
    else match j.contrib.find? fun c => decide (c.1 = k.1) with | some c => fit n c.2 | none => quiet n
  let sum : List Int := j.members.foldl (fun acc k => List.zipWith (fun (a : Int) (x : BitVec 18) => a + x.toInt) acc (own k))
    (List.replicate n (0 : Int))
  JobOut.bus (j.members.map fun k => (k.1, List.zipWith (fun (a : Int) (x : BitVec 18) => sat18 (a - x.toInt)) sum (own k)))

/-- A context initialised, at activation or after SUSPECT_REINIT (R222, R297): idle detectors, zero coefficients and tenant data; the generator
starts if TONE_GEN is set. -/
def initContext (k : Nat) (d : Dev) : Dev :=
  let s := slot k d
  let own (a : Nat) : Bool := s.granules.contains (a / 1024) || (decide (0xA800 ≤ a / 1024) && s.tgranules.contains (a / 1024 - 0xA800))
  let d1 := modSlot k (fun s => { s with
    ctx := 0, media := Media.reset, initDone := false, suspect := false, freezeFor := 0, resetAt := 0, leaveAt := 0,
    genAt := if genKind s.desc = 0 then 0 else s.epoch + 1, inits := s.inits + 1 }) d
  putContext k 0 { d1 with basin := tabFilter (fun a _ => !own a) d1.basin, poison := d1.poison.filter fun a => !own a }

end Sys2Proof.Machine
end

