-- ==== Sys2Proof/Machine/Egress.lean ====
section
/-! DEFINITION. Egress: the tables of flows and keys as the packet path reads them, frames and packets of a leg, Q6 and the
launch, and the counters of the media ports (rules R153, R161, R164, R174 to R176, R180, R207, R210, R286, R309, R315). -/
namespace Sys2Proof.Machine

/-! ### Ports and their counters (R315 to R317) -/

/-- A media port. -/
def port (p : Nat) (d : Dev) : Port := tabGet (fun _ => Port.reset) d.ports p
/-- Change a media port. -/
def modPort (p : Nat) (f : Port → Port) (d : Dev) : Dev := { d with ports := tabMod (fun _ => Port.reset) d.ports p f }
/-- Key of a register of page 0x100 + 4p + i. -/
def kMac (p i off : Nat) : Nat := (macPage p + i) * 0x1000 + off
/-- MAC_STATUS of a port. -/
def macStatus (p : Nat) (d : Dev) : W64 := rg (kMac p 0 oMAC_STATUS) d
/-- Is the port's link up? -/
def linkUp (p : Nat) (d : Dev) : Bool := bit (macStatus p d) 0

/-- Is a media port enabled with its link up (R316, R43)? Ports 1 to 3 do not exist in 100 Gb/s mode (R304). -/
def portOn (p : Nat) (d : Dev) : Bool :=
  decide (p < 4) && bit (hdr (macPage p) d).ctrl 0 && linkUp p d && (decide (p = 0) || !mode1 d)
/-- Set MAC_STATUS of a port. -/
def setMacStatus (p n : Nat) (d : Dev) : Dev := setRgN (kMac p 0 oMAC_STATUS) n d
/-- The port's transmitter leaves low-power idle (R314). -/
def leaveLpi (p : Nat) (d : Dev) : Dev := if bit (macStatus p d) 3 then setMacStatus p ((macStatus p d).toNat - 8) d else d

/-- Advance a port counter by `n`; HALF rises when bit 31 toggles (R315). -/
def macCount (p key n : Nat) (d : Dev) : Dev :=
  let was := rgN key d
  let d1 := addRg key n d
  if was / 2 ^ 31 % 2 ≠ rgN key d1 / 2 ^ 31 % 2 then raise (macPage p) 2 d1 else d1

/-- The size bucket of a frame (R315). -/
def sizeBucket (n : Nat) : Nat :=
  if n ≤ 64 then 0 else if n ≤ 127 then 1 else if n ≤ 255 then 2 else if n ≤ 511 then 3 else if n ≤ 1023 then 4
  else if n ≤ 1518 then 5 else 6

/-- The type of an address: 0 unicast, 1 multicast, 2 broadcast. -/
def addrType (a : BitVec 48) : Nat := if a = BitVec.allOnes 48 then 2 else if bit a 40 then 1 else 0

/-- Count a frame that passes stage 1 (`i` = 1) or is sent (`i` = 2) on a media port (R317). -/
def countFrame (p i len typ : Nat) (ptp : Bool) (d : Dev) : Dev :=
  let k (off : Nat) : Nat := kMac p i off
  let d1 := macCount p (k 0x44) 1 (macCount p (k 0x40) len d)
  let d2 := macCount p (k (0x64 + 4 * typ)) 1 (macCount p (k (0x48 + 4 * sizeBucket len)) 1 d1)
  if ptp then macCount p (k 0x70) 1 d2 else d2

/-- Bits per ns of a port as trained (R316). -/
def bitsPerNs (p : Nat) (d : Dev) : Nat := match fld (macStatus p d) 7 5 with | 1 => 10 | 2 => 25 | 3 => 100 | _ => 25
/-- Time a frame takes on the wire with preamble and gap, ns (R175). -/
def wireNs (p octets : Nat) (d : Dev) : Nat := ceilDiv ((octets + 20) * 8) (bitsPerNs p d)

/-- ns from now to an instant of a port, 0 once it is past. -/
def nsTo (t : Option W64) (d : Dev) : Nat := match t with | some x => ((x.toNat : Int) - (now64 d).toNat).toNat | none => 0
/-- ns until the frame in progress on a port ends. -/
def busyFor (p : Nat) (d : Dev) : Nat := nsTo (port p d).busy d
/-- ns until the port's transmitter has woken (R314). -/
def wakeFor (p : Nat) (d : Dev) : Nat :=
  if bit (macStatus p d) 3 then fld (rg (kMac p 3 oMAC_EEE) d) 15 0 * 1000 else nsTo (port p d).wakeAt d
/-- ns until a frame can start on a port: behind the frame in progress, or when the transmitter has woken, or now (R309, R314). -/
def readyFor (p : Nat) (d : Dev) : Nat := if busyFor p d = 0 then wakeFor p d else busyFor p d
/-- That instant. -/
def txReady (p : Nat) (d : Dev) : NT32 := now d + BitVec.ofNat 32 (readyFor p d)

/-- A frame of `octets` bytes goes onto a port's wire `n` ns from now. -/
def onWire (p octets n : Nat) (d : Dev) : Dev :=
  let at_ : W64 := now64 d + BitVec.ofNat 64 n
  let fin : W64 := at_ + BitVec.ofNat 64 (wireNs p octets d)
  leaveLpi p (modPort p (fun x => { x with
    busy := some fin, busyFrom := if busyFor p d = 0 then at_ else x.busyFrom, lastSent := fin, wakeAt := none }) d)

/-! ### The queues other than Q6 (R308 to R310) -/

/-- Must a waiting frame go on waiting? Its queue is stopped (R308), or, below Q6, it would not end 100 ns before the port's next
scheduled instant (R310). -/
def ctlWaits (p : Nat) (c : CtlFrame) (d : Dev) : Bool :=
  bit (rg (kMac p 0 oMAC_PAUSE_STATE) d) c.queue ||
    (decide (c.queue < 6) && match (port p d).q6 with
      | [] => false
      | e :: _ => decide (sdiff e.at_ (txReady p d) < (wireNs p c.octets d : Int) + 100))

/-- The frame that goes next: strict priority among the queues, first in first out within one (R309). -/
def nextCtl (p : Nat) (d : Dev) : Option CtlFrame :=
  [7, 5, 4, 3, 2, 1, 0].findSome? fun q =>
    match (port p d).ctl.find? fun c => decide (c.queue = q) with
    | some c => if ctlWaits p c d then none else some c
    | none => none

/-- A waiting frame goes out at the instant the port is ready: it is counted and keeps the port busy for its time on the wire. -/
def takeCtl (p : Nat) (c : CtlFrame) (d : Dev) : Dev :=
  countFrame p 2 c.octets 1 (decide (c.link = .ptp)) (onWire p c.octets (readyFor p d) (modPort p (fun x => { x with ctl := x.ctl.erase c }) d))

/-! ### Flows and keys (R153, R160 to R163) -/

/-- A flow entry by index. -/
def flow (i : Nat) (d : Dev) : Flow := tabGet (fun _ => Flow.reset) d.path.flows i
/-- Change a flow entry. -/
def modFlow (i : Nat) (f : Flow → Flow) (d : Dev) : Dev :=
  { d with path := { d.path with flows := tabMod (fun _ => Flow.reset) d.path.flows i f } }
/-- Word `i` of an entry. -/
def fw (f : Flow) (i : Nat) : W32 := f.words.getD i 0
/-- HANDLE of an entry. -/
def fHandle (f : Flow) : W32 := fw f 1
/-- LEG of an entry. -/
def fLeg (f : Flow) : Nat := fld (fw f 0) 6 6

/-- Key slot of a leg: direction 0 receive, 1 transmit; slot 0 or 1. -/
def keyIdx (k leg dir sl : Nat) : Nat := 8 * k + 4 * leg + 2 * dir + sl
/-- A key slot. -/
def keyOf (i : Nat) (d : Dev) : Key := tabGet (fun _ => Key.reset) d.path.keys i
/-- Change a key slot. -/
def modKey (i : Nat) (f : Key → Key) (d : Dev) : Dev :=
  { d with path := { d.path with keys := tabMod (fun _ => Key.reset) d.path.keys i f } }

/-- The transmit key slot of a leg (R178). -/
def txKey (l : List W32) (k leg : Nat) : Nat := keyIdx k leg 1 (fld (lw l leg 0) 10 10)
/-- Authentication tag bytes of a suite, for RTP and RTCP (R159). -/
def tagLen (suite : Nat) (rtcp : Bool) : Nat :=
  match suite with | 0 => 0 | 1 => 10 | 2 => if rtcp then 10 else 4 | _ => 16

/-! ### Q6 (R175, R309) -/

/-- Order of Q6: launch instant, then handle, then leg. -/
def q6Before (t : NT32) (a b : Q6Ent) : Bool :=
  let x := sdiff a.at_ t
  let y := sdiff b.at_ t
  decide (x < y) || (decide (x = y) && (decide (a.handle.toNat < b.handle.toNat)
    || (decide (a.handle = b.handle) && decide (a.leg < b.leg))))

/-- Insert in order. -/
def q6Put (t : NT32) (e : Q6Ent) : List Q6Ent → List Q6Ent
  | [] => [e]
  | x :: xs => if q6Before t e x then e :: x :: xs else x :: q6Put t e xs

/-- Offer a frame to a port's Q6; a full queue drops and counts it (R309). The Bool says whether it was queued. -/
def q6Offer (p : Nat) (e : Q6Ent) (d : Dev) : Bool × Dev :=
  if 16384 ≤ (port p d).q6.length then (false, macCount p (kMac p 2 0x80) 1 d)
  else (true, modPort p (fun x => { x with q6 := q6Put (now d) e x.q6 }) d)

/-- The media port of a leg: PORT, or 0 in 100 Gb/s mode (R178). -/
def portOf (l : List W32) (leg : Nat) (d : Dev) : Nat := if mode1 d then 0 else legPort l leg

/-! ### SRTP on transmit (R159, R161) -/

/-- A payload under the session keystream of a key slot: protecting and recovering are the same operation (R159). -/
def crypt (suite : Nat) (key : Key) (rtcp : Bool) (ssrc : W32) (index : Nat) (b : List Byte) : List Byte :=
  List.zipWith (· ^^^ ·) b (fitBytes b.length (Config.keyStream suite key.key key.salt rtcp ssrc index b.length))
/-- The authentication tag of a packet under a key slot, as long as its suite has it (R159). -/
def tagOf (suite : Nat) (key : Key) (rtcp : Bool) (ssrc : W32) (index : Nat) (head body : List Byte) : List Byte :=
  fitBytes (tagLen suite rtcp) (Config.authTag suite key.key key.salt rtcp ssrc index head body)
/-- `n` bytes of a number, most significant first. -/
def bigEnd (n v : Nat) : List Byte := (List.range n).map fun i => BitVec.ofNat 8 (v >>> (8 * (n - 1 - i)))
/-- What follows the protected part of a packet (RFC 3711, RFC 7714): the SRTCP index word if there is one, the MKI, and the tag, which a GCM suite
has before them. -/
def trailerOf (suite : Nat) (key : Key) (word tag : List Byte) : List Byte :=
  let rest := word ++ bigEnd key.mkiLen key.mki.toNat
  if 3 ≤ suite then tag ++ rest else rest ++ tag
/-- Bytes the Crypto engine processes, for CRY_LOAD (R185). -/
def cryptoLoad (n : Nat) (d : Dev) : Dev := { d with path := { d.path with loadBits := d.path.loadBits + 8 * n } }

/-- Has a slot's master key reached its lifetime, by SRTP or by SRTCP (R159, R161)? -/
def Key.spent (x : Key) : Bool := decide (2 ^ 48 ≤ x.sent) || decide (2 ^ 31 ≤ x.rtcpSent)

/-- A packet of a leg that is withheld, and what counts it (R161, R176): no flow of its own, no key, or a key at its lifetime, which is
recorded once. -/
def withheld (k leg : Nat) (d : Dev) : Option Dev :=
  let l := (slot k d).desc
  let h := handleOf k d
  let f := flow (txFlow l leg) d
  let ki := txKey l k leg
  let key := keyOf ki d
  if !f.held || decide (fHandle f ≠ h) || decide (fLeg f ≠ leg) || bit (fw f 0) 2 then some (incRg rEGR_CNT_NOFLOW d)
  else if legSuite l leg = 0 then none
  else if !key.loaded then some (vcnt (hPart h) 0x60 1 (incRg rCRY_CNT_NO_KEY d))
  else if key.spent then
    let d2 := raise 0xC0 1 (incRg rCRY_CNT_LIFETIME d)
    some (if key.lifeTold then d2 else jbRecord 0x36 k leg 1 0 (modKey ki (fun x => { x with lifeTold := true }) d2))
  else none

/-- A packet of a leg with addresses and fields that every packet of the leg carries (R176, R177). -/
def legPacket (k leg : Nat) (rtcp : Bool) (d : Dev) : TxPkt :=
  let l := (slot k d).desc
  ⟨handleOf k d, leg, (flow (txFlow l leg) d).words, (rg (kMac (portOf l leg d) 0 oMAC_ADDR) d).extractLsb' 0 48, fld (lw l leg 7) 25 20, 64,
    rtcp, lw l leg 1, 0, false, 0, 0, 0, [], []⟩

/-- Length of an RTP or RTCP frame on the wire, with FCS: tags, IP and UDP headers, `n` bytes of UDP payload. -/
def frameOctets (f : Flow) (n : Nat) : Nat :=
  14 + 4 * fld (fw f 0) 9 8 + (if bit (fw f 0) 0 then 40 else 20) + 8 + n + 4

/-- A packet of a leg waits in Q6 of its port for the instant `e` + EGR_OFFSET (R175): `n` bytes of UDP payload. -/
def queuePacket (k leg n : Nat) (e : NT32) (x : TxPkt) (d : Dev) : Dev :=
  let l := (slot k d).desc
  let h := handleOf k d
  (q6Offer (portOf l leg d) ⟨e + BitVec.ofNat 32 (egrOffset l leg), h, leg, hPart h, frameOctets (flow (txFlow l leg) d) n, b2n x.rtcp,
    some x, none⟩ d).2

/-! ### Forming packets (R174, R176, R180, R198, R207, R210, R223) -/

/-- Does the leg send through a trunk (R423)? -/
def trunkOf (k leg : Nat) (d : Dev) : Option Trunk :=
  match tabGet (fun _ => none) d.fab.trunks (2 * k + leg) with
  | some t => if current t.handle d then some t else none
  | none => none

/-- The codec's fill of a pass released as a concealment marker (R210), for sample-sliced codecs. -/
def fillPass (l : List W32) (leg : Nat) : List Byte :=
  match codec l leg with
  | 1 => List.replicate 8 0xFF
  | 2 => List.replicate 8 0xD5
  | 3 => List.replicate 8 0xFF
  | 4 => List.replicate (2 + cmode l leg) 0
  | _ => []

/-- The bytes of at most `n` octets of bits, the first bit of each the most significant, padded with 0 bits. -/
def packOctets : Nat → List Bool → List Byte
  | 0, _ => []
  | n + 1, bs =>
    if bs.isEmpty then [] else
      BitVec.ofNat 8 ((List.range 8).foldl (fun a i => 2 * a + b2n (bs.getD i false)) 0) :: packOctets n (bs.drop 8)
/-- Bits to bytes. -/
def packBits (b : List Bool) : List Byte := packOctets (b.length + 1) b

/-- The `n` low bits of a number, the highest first. -/
def toBits (n v : Nat) : List Bool := (List.range n).map fun i => v.testBit (n - 1 - i)
/-- The coded speech of a codec frame, `n` bits. -/
def coded (c n : Nat) (x : List Byte) : List Bool := (List.range n).map (Config.speechBit c x)
/-- A frame cut into codec frames of `ms` passes, whose shares are one byte each (R209). -/
def codecFrames (ms : Nat) (x : List Byte) : List (List Byte) := (List.range (x.length / ms)).map fun i => (x.drop (ms * i)).take ms

/-- An RFC 4867 payload with CMR = 15 (R198): `fs` the frame types with their speech bits. -/
def amrPayload (aligned : Bool) (fs : List (Nat × List Bool)) : List Byte :=
  let last := fs.length - 1
  let toc (i : Nat) (f : Nat × List Bool) : List Bool := [decide (i < last)] ++ toBits 4 f.1 ++ [true]
  let tocs := (List.range fs.length).zip fs
  if aligned then 0xF0 :: (tocs.flatMap fun e => packBits (toc e.1 e.2)) ++ fs.flatMap fun f => packBits f.2
  else packBits ([true, true, true, true] ++ (tocs.flatMap fun e => toc e.1 e.2) ++ fs.flatMap (·.2))

/-- Configuration number and frames of an Opus packet of a bandwidth and a length (RFC 6716, R198): a SILK frame where the encoder uses SILK, a
hybrid one of up to 20 ms, else CELT frames of up to 20 ms. -/
def opusForm (bw ms : Nat) : Nat × Nat :=
  let one := min ms 20
  let size (m : Nat) : Nat := if m = 10 then 0 else if m = 20 then 1 else if m = 40 then 2 else 3
  if bw < 2 ∧ Config.opusSilk bw ms then (8 * bw + size ms, 1)
  else if 2 ≤ bw ∧ Config.opusSilk bw ms then (12 + 2 * (bw - 2) + size one, ms / one)
  else (16 + 4 * bw + (if one = 10 then 2 else 3), ms / one)
/-- The TOC byte of a leg's Opus packets: mono, its bandwidth and frame length (R198, RFC 6716). -/
def opusToc (l : List W32) (leg : Nat) : Byte :=
  let f := opusForm (cmode l leg % 4) (frameMs l leg)
  BitVec.ofNat 8 (8 * f.1 + (match f.2 with | 1 => 0 | 2 => 1 | _ => 3))
/-- An Opus packet at its constant bit rate (R198). -/
def opusPayload (l : List W32) (leg : Nat) (x : List Byte) : List Byte :=
  let f := opusForm (cmode l leg % 4) (frameMs l leg)
  let rate := [16, 24, 32, 48].getD (cmode l leg / 4) 0
  let head := opusToc l leg :: (if 2 < f.2 then [BitVec.ofNat 8 f.2] else [])
  let n := (rate * frameMs l leg / 8 - head.length) / f.2 * f.2
  head ++ packBits (coded 8 (8 * n) x)

/-- The payload of a whole frame, from the shares of its passes (R174, R198), and its payload type; none where VAD and DTX suppress it. `voice` says
that VAD does not act on it. -/
def framePayload (l : List W32) (leg : Nat) (voice : Bool) (x : List Byte) : Option (Nat × List Byte) :=
  let c := codec l leg
  let pt := fld (lw l leg 3) 22 16
  let aligned := bit (codecWord l leg) 29
  let wb := decide (c = 7)
  match if voice then 0 else Config.vadKind c x % 3 with
  | 0 => some (pt,
      if sampleSliced c then x
      else if c = 5 then (codecFrames 10 x).flatMap fun f => packBits (coded 5 80 f)
      else if c = 8 then opusPayload l leg x
      else amrPayload aligned ((codecFrames 20 x).map fun f => (cmode l leg, coded c ((amrBits wb (cmode l leg)).getD 0) f)))
  | 1 =>
    if sampleSliced c then some (13, Config.noisePayload c x)
    else if c = 5 then some (pt, packBits (coded 5 15 x))
    else if c = 8 then some (pt, opusPayload l leg x)
    else
      let sid := if wb then 9 else 8
      some (pt, amrPayload aligned ((List.range (x.length / 20)).map fun i =>
        if i = 0 then (sid, coded c ((amrBits wb sid).getD 0) x) else (15, [])))
  | _ => none

/-- The payload of a frame of a frame codec that holds a filled pass (R210): none for G.729. -/
def fillFrame (l : List W32) (leg : Nat) : Option (List Byte) :=
  match codec l leg with
  | 5 => none
  | 8 => some [opusToc l leg &&& (if 2 < (opusForm (cmode l leg % 4) (frameMs l leg)).2 then 0xF8 else 0xFF)]
  | _ => some (amrPayload (bit (codecWord l leg) 29) (List.replicate (frameMs l leg / 20) (15, [])))

/-- The shares of `n` silent passes of a frame codec (R223). -/
def silentShares (l : List W32) (leg n : Nat) : List Byte :=
  (List.replicate n (fitBytes (passBytes l leg) (Config.encode (coder l leg) 0 (quiet (samplesPerPass l))))).flatten

/-- RTP timestamp of the instant T (R174). -/
def rtpTs (l : List W32) (leg : Nat) (t : W64) : W32 :=
  BitVec.ofNat 32 (t.toNat * rtpClock l leg / 1000000000) + lw l leg 5

/-- Send a packet of a leg: sequence number, key, flow and Q6 (R161, R174 to R176). `e` is the release instant. A packet that is withheld has
its sequence number, but counts in no report (R164). -/
def sendRtp (k leg : Nat) (pt : Nat) (marker : Bool) (ts : W32) (payload : List Byte) (e : NT32) (d : Dev) : Dev :=
  let l := (slot k d).desc
  let sq := (legOf k leg d).txSeq
  let ki := txKey l k leg
  let d0 := if sq = BitVec.allOnes 16 then modKey ki (fun x => { x with roc := x.roc + 1 }) d else d
  let d1 := modLeg k leg (fun g => { g with txSeq := g.txSeq + 1 }) d0
  match withheld k leg d1 with
  | some x => x
  | none =>
    let key := keyOf ki d
    let suite := legSuite l leg
    let idx := key.roc * 65536 + sq.toNat
    let ssrc := lw l leg 1
    let body := if suite = 0 then payload else crypt suite key false ssrc idx payload
    let head := [0x80, BitVec.ofNat 8 (128 * b2n marker + pt)] ++ bigEnd 2 sq.toNat ++ bigEnd 4 ts.toNat ++ bigEnd 4 ssrc.toNat
    let tail := if suite = 0 then [] else trailerOf suite key [] (tagOf suite key false ssrc idx head body)
    let n := 12 + body.length + tail.length
    let d2 := modLeg k leg (fun g => { g with txCount := g.txCount + 1, txOctets := g.txOctets + payload.length, sinceReport := true }) d1
    let d3 := if suite = 0 then d2 else cryptoLoad n (modKey ki (fun x => { x with sent := x.sent + 1 }) d2)
    queuePacket k leg n e { legPacket k leg false d with pt := pt, marker := marker, seq := sq, ts := ts, index := idx, payload := body,
                                                         trailer := tail } d3

/-! ### Events (R207, R223) -/

/-- The payload of an RFC 4733 event packet: event, E bit and volume, duration. -/
def evtPayload (code vol : Nat) (fin : Bool) (dur : Nat) : List Byte :=
  [BitVec.ofNat 8 code, BitVec.ofNat 8 ((if fin then 128 else 0) + vol % 64)] ++ bigEnd 2 dur

/-- An event that no longer lasts. -/
def TxEvent.ended (x : TxEvent) : TxEvent := { x with live := false }

/-- The events a leg is to send after a pass that sends `ev` (R207): the same digit lasts on, another begins, none ends it. -/
def evtNext (ev : Option (Nat × Nat)) (q : List TxEvent) : List TxEvent :=
  match ev with
  | none => q.map TxEvent.ended
  | some v => if q.getLast?.any fun x => x.live && decide (x.code = v.1) then q else q.map TxEvent.ended ++ [⟨v.1, v.2, true⟩]

/-- The packet of a frame slot for the event in progress (R207): E bit, timestamp, duration to the end `endTs` of the frame, and what remains to be
sent. A duration beyond 0xFFFF is reported as 0xFFFF and a new segment begins there (RFC 4733). -/
def evtSlot (live : Bool) (endTs : W32) (r : TxRun) : (Bool × W32 × Nat) × Option TxRun :=
  let dur := if r.left.isSome then r.dur else (endTs - r.ts).toNat
  let left := if live then r.left else some (r.left.getD 3)
  if 0xFFFF < dur then ((false, r.ts, 0xFFFF), some ⟨r.ts + 0xFFFF, left, dur - 0xFFFF⟩)
  else match left with
    | none => ((false, r.ts, dur), some ⟨r.ts, none, dur⟩)
    | some n => ((true, r.ts, dur), if n ≤ 1 then none else some ⟨r.ts, some (n - 1), dur⟩)

/-- What a leg's events become at a re-base (R223): the one in progress ends, with the duration its last packet stated where no frame is in
progress. -/
def evtJump (g : Leg) : Leg :=
  { g with
    evtQ := g.evtQ.map TxEvent.ended
    evtRun := if g.framePasses = 0 then g.evtRun.map fun r => { r with left := some (r.left.getD 3) } else g.evtRun }

/-- The end of a frame (R174, R207): an event packet while an event is to be sent, otherwise the voice frame unless suppressed. -/
def closeFrame (k leg : Nat) (endT : W64) (e : NT32) (d : Dev) : Dev :=
  let s := slot k d
  let l := s.desc
  let g := legOf k leg d
  let ts := rtpTs l leg g.frameStart
  let clear (g : Leg) : Leg := { g with frame := [], framePasses := 0, frameFill := false, frameMarker := false }
  match g.evtQ with
  | x :: rest =>
    let z := evtSlot x.live (rtpTs l leg endT) (g.evtRun.getD ⟨ts, none, 0⟩)
    let d1 := modLeg k leg (fun g => { clear g with evtQ := if z.2.isNone then rest else g.evtQ, evtRun := z.2 }) d
    sendRtp k leg (evtPt l leg) g.evtRun.isNone z.1.2.1 (evtPayload x.code x.vol z.1.1 z.1.2.2) e d1
  | [] =>
    let d1 := modLeg k leg clear d
    if g.frameFill ∧ !sampleSliced (codec l leg) then
      match fillFrame l leg with
      | none => d1
      | some b => sendRtp k leg (fld (lw l leg 3) 22 16) g.frameMarker ts b e d1
    else match framePayload l leg (!vad l leg || s.media.passThrough) g.frame with
      | none => d1
      | some b => sendRtp k leg b.1 g.frameMarker ts b.2 e d1

/-- Is frame `t` (NT64) a frame instant of the leg? -/
def frameInstant (l : List W32) (leg : Nat) (t : Nat) : Bool := decide (t % (max 1 (frameMs l leg) * 1000000) = 0)

/-- The frame in progress when the first release after a re-base comes (R180, R223): it closes with what it holds, a frame codec's completed
with silence, and the event in progress ends. -/
def jumpFrame (k leg : Nat) (e : NT32) (d : Dev) : Dev :=
  let l := (slot k d).desc
  let g := legOf k leg d
  let pad := if sampleSliced (codec l leg) then [] else silentShares l leg (frameMs l leg - g.framePasses)
  let d1 := modLeg k leg evtJump d
  if g.framePasses = 0 then d1
  else closeFrame k leg (g.frameStart + BitVec.ofNat 64 (g.framePasses * 1000000)) e
    (modLeg k leg (fun g => { g with frame := g.frame ++ pad }) d1)

/-- A leg's share of a release (R174, R176, R180): the pass's output joins the frame; the frame's last pass closes it. `p` is the NT64 of the pass
released at boundary `e`; `o` its output, `none` for a concealment marker, which neither begins nor ends an event (log entry 195); `jump` marks the
first release after a re-base, whose pass begins a frame: a frame codec's has leading silence (R223). -/
def egressLeg (k leg : Nat) (p : W64) (e : NT32) (o : Option JobOut) (jump : Bool) (d : Dev) : Dev :=
  let l := (slot k d).desc
  let d0 := if jump then jumpFrame k leg e d else d
  let d1 := modLeg k leg (fun g => { g with evtQ := match o with
    | some x => evtNext (if leg = 0 then x.evA else x.evB) g.evtQ | none => g.evtQ }) d0
  let starts := decide ((legOf k leg d1).framePasses = 0)
  if starts && !frameInstant l leg p.toNat && !jump then d1
  else
    let gone := p.toNat / 1000000 % max 1 (frameMs l leg)
    let lead := if starts && !sampleSliced (codec l leg) then silentShares l leg gone else []
    let bytes := match o with
      | some x => if leg = 0 then x.encA else x.encB
      | none => if sampleSliced (codec l leg) then fillPass l leg else silentShares l leg 1
    let d2 := if o.isNone then incRg rEGR_CNT_FILL d1 else d1
    let d3 := modLeg k leg (fun g => { g with
      frame := lead ++ g.frame ++ bytes, framePasses := g.framePasses + 1, frameStart := if starts then p else g.frameStart,
      frameFill := g.frameFill || o.isNone, frameMarker := g.frameMarker || jump }) d2
    if frameInstant l leg (p.toNat + 1000000) then closeFrame k leg (p + 1000000) e d3 else d3

/-- A leg sends RTP of its own: KIND RTP, TX_ENABLE, not bound to a trunk. -/
def sendsRtp (k leg : Nat) (d : Dev) : Bool :=
  isRtp (slot k d).desc leg && bit (lw (slot k d).desc leg 0) 9 && (trunkOf k leg d).isNone

/-! ### Launch (R175, R176, R286, R309, R310, R314) -/

/-- The boundary of the pass that holds instant `t`. -/
def passOf (t : NT32) (d : Dev) : NT32 :=
  t - BitVec.ofInt 32 ((sdiff t d.weir.nextP) % 1000000)

/-- The type of the destination address of a frame of Q6 (R315): the next hop of a packet's flow (R176). The spec gives the frames of the
fabric no destination address: their type is a free value (log entry 225). -/
def q6Type (e : Q6Ent) (d : Dev) : Nat :=
  match e.pkt with
  | some k => addrType (((k.flow.getD 14 0).extractLsb' 0 16) ++ k.flow.getD 13 0)
  | none => Config.freeNat d.fresh % 3

/-- Launch the head of a port's Q6, if its instant has come and the device may launch. -/
def launch (p : Nat) (d : Dev) : Dev :=
  match (port p d).q6 with
  | [] => d
  | e :: rest =>
    if !mayLaunch d || decide (20 < sdiff e.at_ (now d)) || bit (rg (kMac p 0 oMAC_PAUSE_STATE) d) 6 then d
    else
      let d1 := modPort p (fun x => { x with q6 := rest }) d
      let t := now d
      let isBusy := decide (busyFor p d ≠ 0)
      let waking := decide (wakeFor p d ≠ 0)
      let wait : Nat := if isBusy then busyFor p d else if waking then wakeFor p d else (sdiff e.at_ t).toNat
      let start : NT32 := t + BitVec.ofNat 32 wait
      let late := sdiff start e.at_
      let covered := isBusy && decide ((port p d).busyFrom.toNat ≤ (nt64Of d e.at_).toNat)
      let w := egrWindow e.part (if mode1 d then 0 else p) d
      let stopAt : NT32 := passOf e.at_ d + BitVec.ofNat 32 (w.2 * 1000)
      let dur := wireNs p e.octets d
      if !linkUp p d then
        raiseF (macPage p) 8 (macPage p) (macCount p (kMac p 2 0x78) 1 d1)
      else if sdiff stopAt start < dur then
        incRg rEGR_CNT_LATE (vcnt e.part 0x74 1 d1)
      else
        let d2 := if covered then incRg rEGR_CNT_QUEUED d1
          else if 20 < late then
            let d3 := vcnt e.part 0x70 1 (incRg rEGR_CNT_LATE d1)
            let d4 := if (rgN rEGR_LATE_MAX d3 : Int) < late then setRgN rEGR_LATE_MAX late.toNat d3 else d3
            raiseF 0xE0 1 (macPage p) d4
          else d1
        let d5 := if 20 < late then macCount p (kMac p 2 0x74) 1 d2 else d2
        let d6 := if waking && decide (20 < late) then raise (macPage p) 7 (macCount p (kMac p 3 oMAC_EEE_WAKE_LATE) 1 d5) else d5
        let d8 := onWire p e.octets wait d6
        let d9 := vcnt e.part 0x44 1 (incRg rEGR_CNT_TX (countFrame p 2 e.octets (q6Type e d) false d8))
        match e.pkt, e.trunk with
        | some k, _ => out (.packet p 6 start k) d9
        | none, some tr => out (.trunk p start tr) (spend d9)
        | none, none => d9

end Sys2Proof.Machine
end

