-- ==== Sys2Proof/Machine/Ptp.lean ====
section
/-! DEFINITION. Stamps and their corrections, the PTP messages the device receives and sends, and the best master (rules R85 to R89). -/
namespace Sys2Proof.Machine

/-! ### Stamps (R85) -/

/-- The fixed corrections of R85 in 1/16 ns, by trained mode (1 10GBASE-R, 2 25GBASE-R, 3 100GBASE-R) and RS-FEC:
receive and transmit. -/
def tscTable (mode : Nat) (fec : Bool) : Nat × Nat :=
  match mode, fec with
  | 1, _ => (770, 580)
  | 2, false => (440, 350)
  | 2, true => (3706, 934)
  | 3, false => (656, 490)
  | 3, true => (2756, 796)
  | _, _ => (0, 0)

/-- The table correction of a port as trained now (R85, R99). -/
def tscOf (p : Nat) (d : Dev) : Nat × Nat :=
  let st := rg (macPage p * 0x1000 + oMAC_STATUS) d
  tscTable (fld st 7 5) (bit st 2)

/-- A signed 16-bit trace delay register (R99). -/
def trace16 (key : Nat) (d : Dev) : Int := ((rg key d).extractLsb' 0 16).toInt

/-- A receive stamp in 1/16 ns after corrections: less the table and less TB_TSC_RXp (R85). -/
def rxStamp16 (p : Nat) (stamp : NT32) (frac : BitVec 4) (d : Dev) : Int :=
  (stamp.toNat * 16 + frac.toNat : Int) - (tscOf p d).1 - trace16 (rTB_TSC_RX + 8 * p) d

/-- A transmit stamp in 1/16 ns after corrections: plus the table and plus TB_TSC_TXp (R85). -/
def txStamp16 (p : Nat) (stamp : NT32) (frac : BitVec 4) (d : Dev) : Int :=
  (stamp.toNat * 16 + frac.toNat : Int) + (tscOf p d).2 + trace16 (rTB_TSC_TX + 8 * p) d

/-- NT32 of a stamp in 1/16 ns, rounded to the nearest nanosecond (R85). -/
def stampNt (x : Int) : NT32 := BitVec.ofInt 32 ((x + 8).fdiv 16)

/-- Corrected receive stamp of a port, rounded to a nanosecond. -/
def rxStamp (p : Nat) (stamp : NT32) (d : Dev) : NT32 := stampNt (rxStamp16 p stamp 0 d)
/-- Corrected transmit stamp of a port, rounded to a nanosecond. -/
def txStamp (p : Nat) (stamp : NT32) (d : Dev) : NT32 := stampNt (txStamp16 p stamp 0 d)

/-- The fraction of the counter in 1/16 ns at the present tick (R72, R85). -/
def nowFrac (d : Dev) : BitVec 4 := d.tb.acc.extractLsb' 28 4

/-- A PTP stamp as a time of NT64 in 1/16 ns (R76, R85). -/
def stamp64 (s : PtpStamp) (d : Dev) : Int := (nt64Of d (s.extractLsb' 4 32)).toNat * 16 + (s.extractLsb' 0 4).toNat

/-! ### Ports -/

/-- The PTP state of port `p`. -/
def ptpPort (p : Nat) (d : Dev) : PtpPort := tabGet (fun _ => PtpPort.reset) d.tb.ptp p
/-- Change the PTP state of port `p`. -/
def modPtp (p : Nat) (f : PtpPort → PtpPort) (d : Dev) : Dev :=
  modTb (fun t => { t with ptp := tabMod (fun _ => PtpPort.reset) t.ptp p f }) d

/-- Key of TB_PTP_PORTp (R100). -/
def kPtpPort (p : Nat) : Nat := rTB_PTP_PORT + 4 * p
/-- Is PTP enabled on the port? -/
def ptpOn (p : Nat) (d : Dev) : Bool := decide (p < 4) && bit (rg (kPtpPort p) d) 0 && (decide (p = 0) || !mode1 d)
/-- The profile: 0 default E2E, 1 default P2P, 2 G.8275.1, 3 G.8275.2 (R100). -/
def ptpProfile (d : Dev) : Nat := fld (rg rTB_PTP_CTRL d) 1 0
/-- The transport: 0 Ethernet, 1 UDP/IPv4, 2 UDP/IPv6 (R100). -/
def ptpTransport (d : Dev) : Nat := fld (rg rTB_PTP_CTRL d) 3 2
/-- One-step transmit (R100). -/
def ptpOneStep (d : Dev) : Bool := bit (rg rTB_PTP_CTRL d) 4
/-- A boundary clock, which only the mode of four ports has (R87, R100). -/
def ptpBc (d : Dev) : Bool := bit (rg rTB_PTP_CTRL d) 5 && !mode1 d
/-- Does the port measure delay peer to peer (R100)? -/
def ptpP2p (p : Nat) (d : Dev) : Bool := bit (rg (kPtpPort p) d) 2
/-- The portState of IEEE 1588-2019 (R100): 4 LISTENING, 6 MASTER, 7 PASSIVE, 9 SLAVE. -/
def ptpState (p : Nat) (d : Dev) : Nat := fld (rg (kPtpPort p) d) 31 24
/-- Set the portState. -/
def setPtpState (p n : Nat) (d : Dev) : Dev := setRg (kPtpPort p) (setFld (rg (kPtpPort p) d) 31 24 n) d

/-- Must a received message be discarded (R88)? Version 2 is the supported one. -/
def ptpBad (m : PtpMsg) (d : Dev) : Bool :=
  decide (m.domain ≠ fld (rg rTB_PTP_CTRL d) 15 8) || m.management || decide (m.version ≠ 2) || m.truncated || m.authTlv

/-- Discard a message: TB_PTP_DROP and PTP_DROP under the receiving port (R88). -/
def ptpDrop (p : Nat) (d : Dev) : Dev := raiseF 0x10 9 (macPage p) (incRg rTB_PTP_DROP d)

/-- The common start of every received message: an enabled port, the transport in use under at most two tags (R87; log entry 187), the
checks of R88, then the message's own effect. -/
def ptpRx (m : PtpMsg) (f : Dev → Dev) (d : Dev) : Dev :=
  if !ptpOn m.port d || decide (m.transport ≠ ptpTransport d) || decide (2 < m.tags) then d
  else if ptpBad m d then ptpDrop m.port d else f d

/-- The corrected stamp of a received message, with its fraction (R85). -/
def msgStamp (m : PtpMsg) (d : Dev) : PtpStamp := BitVec.ofInt 36 (rxStamp16 m.port m.stamp m.frac d)

/-! ### Transmission (R85 to R87, R309) -/

/-- Octets of a PTP message, FCS included, by messageType and the transport (the lengths of IEEE 1588-2019; log entry 188). -/
def ptpOctets (kind tr extra : Nat) : Nat :=
  let b := match kind with | 11 => 64 | 2 => 54 | 3 => 54 | 9 => 54 | 10 => 54 | 12 => 54 | _ => 44
  max 64 (b + extra + 18 + match tr with | 1 => 28 | 2 => 48 | _ => 0)

/-- Is it an event message (R87)? Sync, Delay_Req, Pdelay_Req and Pdelay_Resp. -/
def ptpEvent (kind : Nat) : Bool := decide (kind < 4)

/-- The multicast destination of R87's table, by transport and whether the message belongs to the peer delay. -/
def ptpGroup (tr : Nat) (peer : Bool) : Nat :=
  match tr, peer with
  | 0, false => 0x011B19000000 | 0, true => 0x0180C200000E
  | 1, _ => 0xE0000181
  | _, false => 0xFF0E * 2 ^ 112 + 0x181 | _, true => 0xFF02 * 2 ^ 112 + 0x6B

/-- A unicast destination: a clock's identity and port. -/
def ptpUni (id : W64) (pn : Nat) : Nat := id.toNat * 65536 + pn

/-- A PTP message as it waits in its port's queue: event messages in Q7, the others in Q4 (R309). Its fields begin with the port, the
transport, the destination, the domain and the sequence number. -/
def ptpFrame (p kind dst : Nat) (seq : BitVec 16) (rest : List Nat) (extra : Nat) (d : Dev) : CtlFrame :=
  ⟨if ptpEvent kind then 7 else 4, ptpOctets kind (ptpTransport d) extra, .ptp, kind,
    [p, ptpTransport d, dst, fld (rg rTB_PTP_CTRL d) 15 8, seq.toNat] ++ rest⟩

/-- The transmit stamp of a frame that starts at an instant: with the fraction of the counter where it starts at this tick (R85). -/
def sentStamp (p : Nat) (start : NT32) (d : Dev) : PtpStamp :=
  BitVec.ofInt 36 (txStamp16 p start (if start = now d then nowFrac d else 0) d)

/-- What leaves of a frame, and what its stamp is for (R85, R87): a one-step Sync has its origin rewritten and a one-step Pdelay_Resp
its turnaround corrected in hardware, a two-step one is followed by the message that carries the stamp, and requests keep theirs. -/
def ctlGoes (p : Nat) (c : CtlFrame) (start : NT32) (d : Dev) : Dev :=
  let s := sentStamp p start d
  let s64 := stamp64 s d
  let plain := out (.msg c.link c.kind c.fields) d
  let follow (kind : Nat) (x : Dev) : Dev := modPort p (fun q => { q with
    ctl := q.ctl ++ [⟨4, ptpOctets kind (ptpTransport x) 0, .ptp, kind, c.fields ++ [(BitVec.ofInt 68 s64).toNat]⟩] }) x
  if c.link ≠ .ptp then plain
  else if c.kind = 0 then
    if ptpOneStep d then out (.msg .ptp 0 (c.fields ++ [(BitVec.ofInt 68 s64).toNat])) d else follow 8 plain
  else if c.kind = 1 then modPtp p (fun q => { q with t3 := s, delayOut := true }) plain
  else if c.kind = 2 then modPtp p (fun q => { q with pT1 := s, pOut := true, pT2 := none }) plain
  else if c.kind = 3 then
    if ptpOneStep d then out (.msg .ptp 3 (c.fields ++ [(BitVec.ofInt 68 (s64 - (c.fields.getD 5 0 : Int))).toNat])) d else follow 10 plain
  else plain

/-- What may go of the frames waiting at a port goes; `n` bounds their number. -/
def ctlLoop : Nat → Nat → Dev → Dev
  | 0, _, d => d
  | n + 1, p, d =>
    match nextCtl p d with
    | none => d
    | some c => ctlLoop n p (ctlGoes p c (txReady p d) (takeCtl p c d))
/-- What may go of the frames waiting at a port goes; each may bring a follow-up. -/
def sendCtl (p : Nat) (d : Dev) : Dev := ctlLoop (2 * (port p d).ctl.length) p d

/-- A frame of the device's own enters its queue (R309); a port that is down takes none, and in DORMANT LLDP alone goes on (R328). -/
def queueCtl (p : Nat) (c : CtlFrame) (d : Dev) : Dev :=
  if portOn p d && (decide (d.pwr.st ≠ .dormant) || decide (c.link = .lldp))
  then sendCtl p (modPort p (fun x => { x with ctl := x.ctl ++ [c] }) d) else d

/-- Send a PTP message. -/
def ptpTx (p kind dst : Nat) (seq : BitVec 16) (rest : List Nat) (extra : Nat) (d : Dev) : Dev :=
  queueCtl p (ptpFrame p kind dst seq rest extra d) d

/-! ### Measurements (R81, R87) -/

/-- The offset of a completed Sync (R81, R87): t2 − t1 − correction − delay, in 2⁻¹⁶ ns, given to the servo on a port in SLAVE; with
the device steering to its twin or by hand it is only reported (R94). -/
def syncOffset (p : Nat) (t1 : W64) (corr : Int) (d : Dev) : Dev :=
  let q := ptpPort p d
  let delay := if ptpP2p p d then q.peerDelay else q.delay
  let off : Int := (stamp64 q.t2 d - (t1.toNat : Int) * 16) * 4096 - corr - delay
  if ptpState p d ≠ 9 then d
  else if d.tb.src = 1 then takeMeasurement off delay d
  else if d.tb.src = 4 ∨ d.tb.src = 0 then reportOffset off delay d
  else d

/-- Sync (R87): a one-step message completes the measurement, a two-step message waits for Follow_Up. -/
def ptpSync (m : PtpMsg) : Dev → Dev := ptpRx m fun d =>
  let d1 := modPtp m.port (fun q => { q with
    t2 := msgStamp m d, syncSeq := m.seq, waitFu := m.twoStep, corr := m.correction,
    t1 := if m.twoStep then none else some m.origin }) d
  if m.twoStep then d1 else syncOffset m.port m.origin m.correction.toInt d1

/-- Follow_Up (R87): the precise origin of the Sync with the same sequence number. -/
def ptpFollowUp (m : PtpMsg) : Dev → Dev := ptpRx m fun d =>
  let q := ptpPort m.port d
  if q.waitFu ∧ q.syncSeq = m.seq then
    syncOffset m.port m.origin (q.corr.toInt + m.correction.toInt) (modPtp m.port (fun q => { q with waitFu := false, t1 := some m.origin }) d)
  else d

/-- Delay_Req on a master port is answered with Delay_Resp carrying its receive stamp (R87). -/
def ptpDelayReq (m : PtpMsg) : Dev → Dev := ptpRx m fun d =>
  if ptpState m.port d = 6 ∧ !ptpP2p m.port d then
    let dst := if ptpProfile d = 3 then ptpUni m.source m.sourcePort else ptpGroup (ptpTransport d) false
    ptpTx m.port 9 dst m.seq [(BitVec.ofInt 68 (stamp64 (msgStamp m d) d)).toNat, m.source.toNat, m.sourcePort] 0 d
  else d

/-- TB_MPD shows a delay in 2⁻¹⁶ ns (R98). -/
def showDelay (dl : Int) (d : Dev) : Dev := setRg rTB_MPD (BitVec.zeroExtend 64 (BitVec.ofInt 32 (wholeNs dl))) d

/-- Delay_Resp completes the path delay: ((t2 − t1) + (t4 − t3)) ÷ 2 (R87). -/
def ptpDelayResp (m : PtpMsg) : Dev → Dev := ptpRx m fun d =>
  let q := ptpPort m.port d
  if q.delayOut ∧ q.delaySeq = m.seq then
    match q.t1 with
    | none => modPtp m.port (fun q => { q with delayOut := false }) d
    | some t1 =>
      let fwd : Int := stamp64 q.t2 d - (t1.toNat : Int) * 16
      let back : Int := (m.origin.toNat : Int) * 16 - stamp64 q.t3 d
      let dl := ((fwd + back) * 4096 - q.corr.toInt - m.correction.toInt) / 2
      showDelay dl (modPtp m.port (fun q => { q with delayOut := false, delay := dl }) d)
  else d

/-- Pdelay_Req is answered with Pdelay_Resp and, in two-step mode, its follow-up (R87). -/
def ptpPdelayReq (m : PtpMsg) : Dev → Dev := ptpRx m fun d =>
  if !ptpP2p m.port d then d
  else ptpTx m.port 3 (ptpGroup (ptpTransport d) true) m.seq
    [(BitVec.ofInt 68 (stamp64 (msgStamp m d) d)).toNat, m.source.toNat, m.sourcePort] 0 d

/-- The peer delay once all four stamps are known: ((t4 − t1) − (t3 − t2) − correction) ÷ 2 (R87). -/
def peerDone (p : Nat) (t3 : W64) (corr : Int) (d : Dev) : Dev :=
  let q := ptpPort p d
  match q.pT2 with
  | none => d
  | some t2 =>
    let turn : Int := (t3.toNat : Int) - t2.toNat
    let dl := ((stamp64 q.pT4 d - stamp64 q.pT1 d) * 4096 - turn * 65536 - corr) / 2
    let d1 := modPtp p (fun q => { q with pOut := false, peerDelay := dl }) d
    if ptpState p d = 9 then showDelay dl d1 else d1

/-- Pdelay_Resp gives the responder's receive stamp; a one-step response completes the measurement (R87). -/
def ptpPdelayResp (m : PtpMsg) : Dev → Dev := ptpRx m fun d =>
  let q := ptpPort m.port d
  if q.pOut ∧ q.pSeq = m.seq then
    let d1 := modPtp m.port (fun q => { q with pT2 := some m.origin, pT4 := msgStamp m d }) d
    if m.twoStep then d1 else peerDone m.port m.origin m.correction.toInt d1
  else d

/-- Pdelay_Resp_Follow_Up completes the peer delay (R87). -/
def ptpPdelayRespFu (m : PtpMsg) : Dev → Dev := ptpRx m fun d =>
  let q := ptpPort m.port d
  if q.pOut ∧ q.pSeq = m.seq then peerDone m.port m.origin m.correction.toInt d else d

/-! ### Announce and the best master (R87) -/

/-- The dataset of an Announce. -/
def dsOf (a : PtpAnnounce) : BestDs := ⟨a.prio1, a.clockClass, a.accuracy, a.variance, a.prio2, a.gm, a.steps⟩

/-- Is the first of two lists of numbers the lesser in dictionary order? -/
def lexLt : List Nat → List Nat → Bool
  | x :: xs, y :: ys => if x < y then true else if y < x then false else lexLt xs ys
  | _, _ => false

/-- The numbers by which datasets are compared, most significant first: the data set comparison of IEEE 1588-2019 in the default
profiles, the alternate one with localPriority in the telecom profiles (R87; log entry 62). -/
def dsKey (tele : Bool) (lp : Nat) (a : BestDs) : List Nat :=
  if tele then
    [a.clockClass, a.accuracy, a.variance, a.prio2, lp] ++ (if a.clockClass ≤ 127 then [a.steps, a.gm.toNat] else [a.gm.toNat, a.steps])
  else [a.prio1, a.clockClass, a.accuracy, a.variance, a.prio2, a.gm.toNat, a.steps]

/-- Is dataset `a`, heard on a port of local priority `la`, better than `b`? -/
def dsBetter (tele : Bool) (la lb : Nat) (a b : BestDs) : Bool := lexLt (dsKey tele la a) (dsKey tele lb b)

/-- The best of the masters heard on a port. -/
def bestMaster (tele : Bool) (l : List Master) : Option Master :=
  l.foldl (fun acc m => match acc with
    | none => some m
    | some b => if dsBetter tele 0 0 (dsOf m.ann) (dsOf b.ann) then some m else acc) none

/-- localPriority of a port (R100). -/
def localPriority (p : Nat) (d : Dev) : Nat := fld (rg (kPtpPort p) d) 15 8

/-- The port with the best Announce among enabled ports that may be SLAVE. -/
def bestPort (d : Dev) : Option Nat :=
  (List.range 4).foldl (fun acc p =>
    if ptpOn p d ∧ !bit (rg (kPtpPort p) d) 1 then
      match (ptpPort p d).best, acc with
      | none, _ => acc
      | some _, none => some p
      | some x, some q => match (ptpPort q d).best with
        | some y => if dsBetter (telecom d) (localPriority p d) (localPriority q d) x y then some p else acc
        | none => some p
    else acc) none

/-- Assign the port states (R87): the best port is SLAVE, a boundary clock's others MASTER, an ordinary clock's PASSIVE; 0 with PTP
off (log entry 189). -/
def assignRoles (d : Dev) : Dev :=
  let b := bestPort d
  (List.range 4).foldl (fun x p =>
    if !ptpOn p x then setPtpState p 0 x
    else if b = some p then setPtpState p 9 x
    else if bit (rg (kPtpPort p) x) 1 ∨ ptpBc d then setPtpState p 6 x
    else setPtpState p (if b.isNone then 4 else 7) x) d

/-- The grandmaster's data of the port in SLAVE come into force (R87, R92). -/
def adoptGm (d : Dev) : Dev :=
  match bestPort d with
  | none => d
  | some p =>
    match bestMaster (telecom d) (ptpPort p d).masters with
    | none => d
    | some m =>
      if d.tb.src ≠ 1 then d
      else setRg rTB_GM_ID m.ann.gm (modTb (fun t => { t with
        gm := ⟨m.ann.steps + 1, m.ann.clockClass, m.ann.accuracy, m.ann.variance, m.ann.traceable, m.ann.ptpScale, m.ann.utcOffset, p⟩ }) d)

/-- The best master of each port is chosen again, then the roles, then the grandmaster (R87). -/
def setRoles (d : Dev) : Dev :=
  adoptGm (assignRoles ((List.range 4).foldl (fun x p =>
    modPtp p (fun q => { q with best := (bestMaster (telecom d) q.masters).map fun m => dsOf m.ann }) x) d))

/-- Forget a master of a port. -/
def dropMaster (p : Nat) (id : W64) (pn : Nat) (d : Dev) : Dev :=
  setRoles (modPtp p (fun q => { q with masters := q.masters.filter fun m => !(decide (m.source = id) && decide (m.sourcePort = pn)) }) d)

/-- Announce (R87): PATH_TRACE naming the device's own identity is ignored (log entry 190), and with G.8275.2 a fifth master too;
otherwise the dataset is kept, the roles are assigned again, and the grandmaster's data of the port in SLAVE come into force. -/
def ptpAnnounce (m : PtpMsg) (a : PtpAnnounce) : Dev → Dev := ptpRx m fun d =>
  let same (x : Master) : Bool := decide (x.source = m.source) && decide (x.sourcePort = m.sourcePort)
  let others := (List.range 4).map fun p => ((ptpPort p d).masters.filter fun x => decide (p ≠ m.port) || !same x).length
  if a.path.contains (rg rFAB_DEV_ID d) ∨ (ptpProfile d = 3 ∧ 4 ≤ sumL others) then d
  else setRoles (modPtp m.port (fun q => { q with masters := q.masters.filter (fun x => !same x) ++ [⟨m.source, m.sourcePort, a⟩] }) d)

/-- The source is lost (R81); for PTP its master has not been heard for the announceReceiptTimeout, and is forgotten (R87). -/
def lostSource (d : Dev) : Dev :=
  let d1 := sourceLost d
  let p := d.tb.gm.port
  if d.tb.src = 1 ∧ p < 4 then
    match bestMaster (telecom d) (ptpPort p d).masters with
    | some m => dropMaster p m.source m.sourcePort d1
    | none => d1
  else d1

/-- May an interval be granted (R87)? Announce from 2⁻³ s to 2⁴ s, Sync and Delay_Resp from 2⁻⁷ s to 2⁴ s. -/
def grantable (t : PtpTlv) : Bool :=
  decide (t.logPeriod ≤ 4) && match t.msgType with
    | 11 => decide (-3 ≤ t.logPeriod) | 0 => decide (-7 ≤ t.logPeriod) | 9 => decide (-7 ≤ t.logPeriod) | _ => false

/-- Signaling (R87), with G.8275.2: a unicast request on a master port is granted to up to 64 slaves; a cancellation is
acknowledged, and takes the grant, or the master, away. -/
def ptpSignaling (m : PtpMsg) (t : PtpTlv) : Dev → Dev := ptpRx m fun d =>
  let q := ptpPort m.port d
  let dst := ptpUni m.source m.sourcePort
  let mine (g : W64 × Nat × List Nat) : Bool := decide (g.1 = m.source) && decide (g.2.1 = m.sourcePort)
  let had : List Nat := match q.grants.find? mine with | some g => g.2.2 | none => []
  let others := q.grants.filter fun g => !mine g
  let answer (kind dur : Nat) (x : Dev) : Dev :=
    ptpTx m.port 12 dst m.seq [kind, t.msgType, (BitVec.ofInt 8 t.logPeriod).toNat, dur] 0 x
  if ptpProfile d ≠ 3 then d
  else if t.kind = 4 ∧ ptpState m.port d = 6 then
    if grantable t && decide (others.length < 64)
    then answer 5 t.duration (modPtp m.port (fun q => { q with grants := others ++ [(m.source, m.sourcePort, t.msgType :: had.filter (· ≠ t.msgType))] }) d)
    else answer 5 0 d
  else if t.kind = 6 then
    let left := had.filter (· ≠ t.msgType)
    let d1 := modPtp m.port (fun q => { q with grants := if left.isEmpty then others else others ++ [(m.source, m.sourcePort, left)] }) d
    answer 7 0 (if t.msgType = 11 then dropMaster m.port m.source m.sourcePort d1 else d1)
  else d

/-- The destinations of a message a master port sends: the slaves granted it with G.8275.2, otherwise the multicast group (R87). -/
def ptpDests (p kind : Nat) (d : Dev) : List Nat :=
  if ptpProfile d = 3 then ((ptpPort p d).grants.filter fun g => g.2.2.contains kind).map fun g => ptpUni g.1 g.2.1
  else [ptpGroup (ptpTransport d) (decide (kind = 2))]

/-- The destination of a request of a slave port: its master with G.8275.2, otherwise the multicast group (R87). -/
def masterDest (p : Nat) (d : Dev) : Nat :=
  match ptpProfile d, bestMaster (telecom d) (ptpPort p d).masters with
  | 3, some m => ptpUni m.source m.sourcePort
  | _, _ => ptpGroup (ptpTransport d) false

/-- PATH_TRACE of an Announce: the path of the port in SLAVE with the device's own identity appended, on a boundary clock's master
ports (R87). -/
def pathTrace (d : Dev) : List Nat :=
  if ptpBc d then
    (match bestPort d with
      | some p => match bestMaster (telecom d) (ptpPort p d).masters with | some m => m.ann.path.map (·.toNat) | none => []
      | none => []) ++ [rgN rFAB_DEV_ID d]
  else []

/-- A message the device sends at its interval (R87, R89): Sync (0) and Announce (11) on a port in MASTER, Delay_Req (1)
on an E2E port in SLAVE, Pdelay_Req (2) on a P2P port. Announce advertises the clockClass of R89. -/
def ptpSend (p kind : Nat) (d : Dev) : Dev :=
  let q := ptpPort p d
  let st := ptpState p d
  let bump := modPtp p fun q => { q with txSeq := q.txSeq + 1 }
  if !ptpOn p d ∨ d.pwr.st = .fault then d
  else if kind = 0 ∧ st = 6 then bump ((ptpDests p 0 d).foldl (fun x a => ptpTx p 0 a q.txSeq [] 0 x) d)
  else if kind = 11 ∧ st = 6 then
    let path := pathTrace d
    bump ((ptpDests p 11 d).foldl (fun x a => ptpTx p 11 a q.txSeq
      ([rgN rTB_GM_ID x, clockClass x, x.tb.gm.accuracy, x.tb.gm.variance, x.tb.gm.steps] ++ path)
      (if path.isEmpty then 0 else 4 + 8 * path.length) x) d)
  else if kind = 1 ∧ st = 9 ∧ !ptpP2p p d then
    bump (ptpTx p 1 (masterDest p d) q.txSeq [] 0 (modPtp p (fun q => { q with delaySeq := q.txSeq, delayOut := false }) d))
  else if kind = 2 ∧ ptpP2p p d then
    bump (ptpTx p 2 (ptpGroup (ptpTransport d) true) q.txSeq [] 0 (modPtp p (fun q => { q with pSeq := q.txSeq, pOut := false }) d))
  else d

end Sys2Proof.Machine
end

