-- ==== Sys2Proof/Machine/Recorder.lean ====
section
/-! DEFINITION. The Recorder: Nougat units, their export and spill, and the spool of each partition (rules R359 to R368, R378
to R380). -/
namespace Sys2Proof.Machine

/-- Change the Recorder. -/
def modRec (f : Recorder → Recorder) (d : Dev) : Dev := { d with recd := f d.recd }

/-! ### Nougat units (R360 to R364) -/

/-- Q1.17 to 16-bit PCM: convergent rounding at bit 2, saturated (R360). -/
def toPcm (x : BitVec 18) : BitVec 16 :=
  let v := x.toInt
  let q := v / 4
  let r := v % 4
  let up : Int := if r = 3 then 1 else if r = 2 then q % 2 else 0
  BitVec.ofInt 16 (clampInt (-32768) 32767 (q + up))

/-- One step of the CRC-16 of R328: polynomial 0x1021, initial value 0xFFFF, no reflection, no final XOR. -/
def crcBit (c : BitVec 16) (b : Bool) : BitVec 16 :=
  if bit c 15 != b then (c <<< 1) ^^^ 0x1021#16 else c <<< 1
/-- CRC-16 of a byte string (R328). -/
def crc16 (bs : List Byte) : BitVec 16 := (bitsOf bs).foldl crcBit 0xFFFF

/-- The prediction of the next sample from those before it, newest first (R363). -/
def predict (pred shift : Nat) (coef : List Int) (past : List Int) : Int :=
  let x (i : Nat) : Int := past.getD i 0
  match pred with
  | 0 => 0
  | 1 => x 0
  | 2 => 2 * x 0 - x 1
  | 3 => 3 * x 0 - 3 * x 1 + x 2
  | _ => (List.zipWith (· * ·) coef past).foldl (· + ·) 0 / 2 ^ shift

/-- The Rice code of a residue (R363). -/
def riceBits (k : Nat) (r : Int) : List Bool :=
  let u : Nat := if 0 ≤ r then 2 * r.toNat else (-2 * r - 1).toNat
  List.replicate (u >>> k) false ++ [true] ++ ((List.range k).map fun i => Nat.testBit u (k - 1 - i))

/-- The residues of samples after the verbatim ones. -/
def residues (pred shift : Nat) (coef : List Int) : List Int → List Int → List Int
  | _, [] => []
  | past, x :: xs => (x - predict pred shift coef past) :: residues pred shift coef (x :: past) xs

/-- The coded payload under a choice of predictor (4 for LPC), Rice parameter, shift and coefficients (R363). -/
def codedPayload (pred k shift : Nat) (coef : List Int) (pcm : List (BitVec 16)) : List Byte :=
  let order := if pred = 4 then coef.length else pred
  let q := min order pcm.length
  let xs := pcm.map (·.toInt)
  let res := residues pred shift coef (xs.take q).reverse (xs.drop q)
  let bits := res.flatMap (riceBits k)
  (if pred = 4 then coef.flatMap fun c => bigEnd 2 (BitVec.ofInt 16 c).toNat else [])
    ++ (pcm.take q).flatMap (fun x => bigEnd 2 x.toNat) ++ packBits bits

/-- A unit's bytes from its header fields and payload, with its CRC (R362). -/
def unitBytes (utype flags pred rice shift rate samples : Nat) (h : W32) (nt : NT32) (payload : List Byte) : List Byte :=
  let head := bigEnd 2 0x4E47 ++ [BitVec.ofNat 8 utype, BitVec.ofNat 8 flags, BitVec.ofNat 8 pred, BitVec.ofNat 8 rice,
    BitVec.ofNat 8 shift, BitVec.ofNat 8 rate] ++ bigEnd 2 samples ++ bigEnd 2 payload.length ++ bigEnd 4 h.toNat
    ++ bigEnd 4 nt.toNat
  head ++ bigEnd 2 (crc16 (head ++ [0, 0, 0, 0] ++ payload)).toNat ++ [0, 0] ++ payload

/-- Flags of a stream's unit (R362). -/
def unitFlags (s : Stream) (fin : Bool) : Nat :=
  2 * b2n s.post + 4 * b2n s.legB + 8 * b2n s.conc + 16 * b2n s.filled + 32 * b2n s.gap + 64 * b2n s.rebase + 128 * b2n fin

/-- The predictor, Rice parameter, shift and coefficients of a unit, within what its header can name (R362, R363). -/
def nougatOf (pcm : List (BitVec 16)) : Nat × Nat × Nat × List Int :=
  let c := Config.nougatChoice pcm
  (min c.1 4, min c.2.1 19, min c.2.2.1 15, ((c.2.2.2 ++ (if c.2.2.2.isEmpty then [0] else [])).take 8).map (clampInt (-32768) 32767))

/-- The bytes of an audio unit: coded, or RAW where coding would not be smaller (R363). -/
def audioUnit (s : Stream) (fin : Bool) : List Byte × Bool :=
  let nt : NT32 := s.first.extractLsb' 0 32
  let c := nougatOf s.pcm
  let coded := codedPayload c.1 c.2.1 c.2.2.1 c.2.2.2 s.pcm
  let n := s.pcm.length
  if coded.length < 2 * n then
    let order := if c.1 = 4 then c.2.2.2.length else 0
    (unitBytes 1 (unitFlags s fin) (16 * c.1 + order) c.2.1 (if c.1 = 4 then c.2.2.1 else 0) s.rate n s.handle nt coded, false)
  else (unitBytes 1 (unitFlags s fin + 1) 0 0 0 s.rate n s.handle nt (s.pcm.flatMap fun x => bigEnd 2 x.toNat), true)

/-! ### Streams and spools -/

/-- A stream by slot and leg. -/
def streamOf (key : Nat) (d : Dev) : Option Stream := tabGet (fun _ => none) d.recd.streams key
/-- Set a stream. -/
def setStream (key : Nat) (s : Option Stream) (d : Dev) : Dev :=
  modRec (fun r => { r with streams := tabSet (fun _ => none) r.streams key s }) d
/-- A partition's spool. -/
def spool (p : Nat) (d : Dev) : Spool := tabGet (fun _ => Spool.reset) d.recd.spools p
/-- Change a partition's spool. -/
def modSpool (p : Nat) (f : Spool → Spool) (d : Dev) : Dev :=
  modRec (fun r => { r with spools := tabMod (fun _ => Spool.reset) r.spools p f }) d

/-- Bytes of a partition's share of SPOOL (R367). -/
def spoolCap (p : Nat) (d : Dev) : Nat := rgN rFLASH_SPOOL_MIB d * fld (rg (kPart p oPART_Q_REC) d) 31 24 * 4096
/-- Bytes a partition's units take in 16 KiB spool pages, `more` bytes of units added (R367). -/
def spoolUsed (p more : Nat) (d : Dev) : Nat :=
  let s := spool p d
  let n := sumL (s.units.map fun u => u.2.bytes.length) + sumL (s.exported.map fun u => u.2.1) + more
  ceilDiv n 16320 * 16384

/-- Is the host path of a partition down (R366): the link, or bus mastering off on the PF or on the partition's VF? -/
def pathDown (p : Nat) (d : Dev) : Bool :=
  !d.hif.linkUp || !d.hif.busMaster || d.hif.perst || (vfExists d p && !tabGet (fun _ => false) d.hif.vfBus p)
/-- Does ring 2 of a partition take a unit now (R53, R366)? -/
def ringTakes (k : Nat) (d : Dev) : Bool :=
  let r := ring k d
  r.enable && decide ((if r.lost = 0 then 1 else 2) ≤ r.room)

/-- A record of the Recorder on the partition's event ring (R366). -/
def recRecord (typ p b12 v : Nat) (d : Dev) : Dev := ringOffer (ringKey p 0) ⟨typ, now d, 0, body [(12, 1, b12), (16, 4, v)]⟩ d

/-- A unit is lost (R367, R368): counted, recorded, and the stream's next unit flagged GAP. -/
def loseUnit (u : RecUnit) (reason : Nat) (d : Dev) : Dev :=
  let d1 := raise 0x130 4 (recRecord 0x84 u.part reason 1 (incRg rREC_CNT_LOST d))
  match streamOf u.key d1 with
  | some s => if s.handle = u.handle then setStream u.key (some { s with gap := true }) d1 else d1
  | none => d1

/-- Export a unit: its copy to the ring's data area, then its record (R365). `sp` is its spool sequence, 0 when live. -/
def exportUnit (ringPart sp : Nat) (u : RecUnit) (d : Dev) : Dev :=
  let k := ringKey ringPart 2
  let r := ring k d
  let ahead := if r.lost = 0 then 0 else 1
  let slotNo := (r.prod.toNat + ahead) % r.size
  let d1 := out (.hostCopy (ridPart d ringPart) (r.dataBase.toNat + 2048 * slotNo) u.bytes) d
  let fl := b2n (decide (sp ≠ 0)) + 2 * b2n u.legB + 4 * b2n u.post
  ringOffer k ⟨0x80, u.nt64.extractLsb' 0 32, u.handle,
    body [(12, 4, u.recId.toNat), (16, 2, u.bytes.length), (18, 1, fl), (20, 8, u.nt64.toNat), (28, 4, sp)]⟩ d1

/-- A spilling unit enters the spool through the write buffer, or is lost (R367, R376, R383). -/
def spoolUnit (u : RecUnit) (d : Dev) : Dev :=
  let p := u.part
  let n := u.bytes.length
  let buf := sumL (d.recd.wbuf.map fun w => w.2.2)
  if u.noSpill then loseUnit u 2 d
  else if faulted 0x140 d then loseUnit u 4 d
  else if d.pwr.powerFail then d
  else if spoolCap p d = 0 ∨ spoolCap p d < spoolUsed p n d then
    loseUnit u 1 (raiseF 0x130 2 0x140 d)
  else if 1048576 < buf + n then loseUnit u 4 d
  else
    let sq := (spool p d).next
    let d1 := modSpool p (fun s => { s with units := s.units ++ [(sq, u)], next := s.next + 1 }) d
    incRg rREC_CNT_SPILLED (modRec (fun r => { r with wbuf := r.wbuf ++ [(p, sq, n)] }) d1)

/-- A closed unit of an active device goes to the ring or to the spool (R366). -/
def routeUnit (u : RecUnit) (d : Dev) : Dev :=
  let k := ringKey u.part 2
  if (spool u.part d).st = 0 then
    if ringTakes k d && !pathDown u.part d then exportUnit u.part 0 u d
    else
      let why := if pathDown u.part d then 3 else if (ring k d).enable then 1 else 2
      spoolUnit u (raise 0x130 1 (recRecord 0x82 u.part why 0 (modSpool u.part (fun s => { s with st := 1, drained := 0 }) d)))
  else spoolUnit u d

/-- The units in recording staging: those that wait for export, and those a standby retains (true) (R365, R379). -/
def stagedUnits (d : Dev) : List (Bool × RecUnit) := d.recd.staged.map (fun u => (false, u)) ++ d.recd.retained.map fun u => (true, u)
/-- Bytes in recording staging (R365, R380). -/
def stagedBytes (d : Dev) : Nat := sumL ((stagedUnits d).map fun u => u.2.bytes.length)

/-- A unit lost in staging (R368): STAGING_UE, REC_LOSS with reason 3, GAP on the stream's next unit. -/
def stagingLoss (u : RecUnit) (d : Dev) : Dev := loseUnit u 3 (raiseF 0x130 3 0xA0 d)
/-- An uncorrectable read of a staged unit loses it (R125, R368). -/
def loseStaged (held : Bool) (u : RecUnit) (d : Dev) : Dev :=
  stagingLoss u (modRec (fun r => if held then { r with retained := r.retained.erase u } else { r with staged := r.staged.erase u }) d)

/-- A unit closes (R361): counted, and held in staging until its export (R365); a standby retains it (R379). Where the 256 MiB of staging are
full it is lost (R368). -/
def emitUnit (u : RecUnit) (raw : Bool) (d : Dev) : Dev :=
  let d1 := incRg rREC_CNT_UNITS (modRec (fun r => { r with outBytes := r.outBytes + u.bytes.length }) d)
  let d2 := if raw then incRg rREC_CNT_RAW d1 else d1
  if 0x10000000 < stagedBytes d2 + u.bytes.length then stagingLoss u d2
  else if isStandby d2 ∨ d2.twin.role = .pairing then modRec (fun r => { r with retained := r.retained ++ [u] }) d2
  else modRec (fun r => { r with staged := r.staged ++ [u] }) d2

/-- The units that wait in staging leave it, oldest first (R365, log entry 196). -/
def exportStaged (d : Dev) : Dev := d.recd.staged.foldl (fun x u => routeUnit u x) (modRec (fun r => { r with staged := [] }) d)

/-- Close a stream's unit in progress (R361); `at_` is the boundary of its release. -/
def closeUnit (key : Nat) (fin : Bool) (at_ : NT32) (d : Dev) : Dev :=
  match streamOf key d with
  | none => d
  | some s =>
    let b := audioUnit s fin
    let u : RecUnit := ⟨hPart s.handle, key, s.handle, s.recId, s.legB, s.post, s.noSpill, s.first, b.1, at_⟩
    let d1 := setStream key (some { s with pcm := [], conc := false, filled := false, gap := false, rebase := false }) d
    if s.pcm.isEmpty ∧ !fin then d1 else emitUnit u b.2 d1

/-- A time quality unit of a stream (R364): the record of second `sec`. -/
def qualityUnit (key : Nat) (at_ : NT32) (d : Dev) : Dev :=
  match streamOf key d, d.recd.quality with
  | some s, some (nt, q) =>
    let payload := (List.range 52).map fun i => BitVec.ofNat 8 (q >>> (8 * i))
    let fl := 2 * b2n s.post + 4 * b2n s.legB
    emitUnit ⟨hPart s.handle, key, s.handle, s.recId, s.legB, s.post, s.noSpill, nt64Of d nt,
      unitBytes 2 fl 0 0 0 s.rate 0 s.handle nt payload, at_⟩ false d
  | _, _ => d

/-- Open a stream at boundary `q` (R361, R364): the latest time quality record precedes its first unit. -/
def openStream (k leg : Nat) (l : List W32) (q : W64) (d : Dev) : Dev :=
  let key := 2 * k + leg
  let w := dw l (60 + leg)
  let s : Stream := ⟨handleOf k d, decide (leg = 1), bit w 1, bit w 2, dw l 62, rate l, q, true, [], false, false, false, false⟩
  qualityUnit key (q.extractLsb' 0 32) (setStream key (some s) d)

/-- Close a stream for good: the samples released so far, flagged END (R361). -/
def endStream (key : Nat) (at_ : NT32) (d : Dev) : Dev := setStream key none (closeUnit key true at_ d)

/-- Bring a slot's streams to a descriptor at a boundary (R361): ENABLE or TAP changes close and open. -/
def syncStreams (k : Nat) (l : List W32) (q : W64) (d : Dev) : Dev :=
  [0, 1].foldl (fun x leg =>
    let key := 2 * k + leg
    let w := dw l (60 + leg)
    match streamOf key x with
    | some s =>
      if !recOn l leg then endStream key (q.extractLsb' 0 32) x
      else if s.post != bit w 1 then openStream k leg l q (endStream key (q.extractLsb' 0 32) x)
      else setStream key (some { s with noSpill := bit w 2, recId := dw l 62, rate := rate l }) x
    | none => if recOn l leg then openStream k leg l q x else x) d

/-- A release of a slot's pass `p` at boundary `e`: the tap's samples, or zeros for a concealment marker (R360, R361, R378).
`jump` marks the first release after a re-base. A stream's first unit runs from the boundary at which it starts. -/
def recordPass (k leg : Nat) (p : W64) (e : NT32) (o : Option JobOut) (conc jump : Bool) (n : Nat) (d : Dev) : Dev :=
  let key := 2 * k + leg
  match streamOf key d with
  | none => d
  | some s0 =>
    if s0.fill && !jump && decide (p.toNat < s0.first.toNat) then d else
    let d0 := if jump then closeUnit key false e d else d
    let s := (streamOf key d0).getD s0
    let x := match o with
      | some y => if s.post then (if leg = 0 then y.postA else y.postB) else (if leg = 0 then y.tapA else y.tapB)
      | none => quiet n
    let fresh := s.pcm.isEmpty
    let atSec := decide (p.toNat % 1000000000 = 0)
    let d1 := if fresh && atSec && !s.fill then qualityUnit key e d0 else d0
    let s1 := (streamOf key d1).getD s
    let d2 := setStream key (some { s1 with
      pcm := s1.pcm ++ x.map toPcm, first := if fresh then p else s1.first, fill := false, conc := s1.conc || conc,
      filled := s1.filled || o.isNone, rebase := s1.rebase || jump }) d1
    let d3 := modRec (fun r => { r with inBytes := r.inBytes + 2 * x.length }) d2
    if (p.toNat + 1000000) % 20000000 = 0 then closeUnit key false e d3 else d3

/-! ### Draining (R366) -/

/-- A SPILLING partition whose ring and host path are available again drains; space frees as CONS passes (R366). -/
def spoolCheck (p : Nat) (d : Dev) : Dev :=
  let s := spool p d
  let r := ring (ringKey p 2) d
  let freed := s.exported.filter fun e => decide (0 < (e.2.2 - r.cons).toInt ∨ e.2.2 = r.cons)
  let d1 := if s.exported.length = freed.length then d else modSpool p (fun x => { x with exported := freed }) d
  if (s.st = 1 ∨ (s.st = 0 ∧ !s.units.isEmpty)) ∧ ringTakes (ringKey p 2) d1 ∧ !pathDown p d1 ∧ !isStandby d1
  then modSpool p (fun x => { x with st := 2 }) d1
  else if s.st = 2 ∧ (!ringTakes (ringKey p 2) d1 ∨ pathDown p d1) then
    let why := if pathDown p d1 then 3 else if r.enable then 1 else 2
    raise 0x130 1 (recRecord 0x82 p why 0 (modSpool p (fun x => { x with st := 1 }) d1))
  else d1

/-- Check every partition that has a spool. -/
def spoolCheckAll (d : Dev) : Dev := d.recd.spools.foldl (fun x e => spoolCheck e.1 x) d

/-- The present second of NT64. -/
def secOf (d : Dev) : Nat := (now64 d).toNat / 1000000000
/-- May one more unit leave the spools in the present second of NT64: REC_DRAIN units a second, a draining device (R366, R380)? -/
def drainDue (d : Dev) : Bool :=
  decide (d.recd.drains.1 ≠ secOf d) || decide (d.recd.drains.2 < fld (rg rREC_DRAIN d) 19 0)
/-- It is counted. -/
def noteDrain (d : Dev) : Dev :=
  modRec (fun r => { r with drains := (secOf d, if r.drains.1 = secOf d then r.drains.2 + 1 else 1) }) d

/-- Export the oldest spooled unit (R366, R379): a former active that is STANDBY drains to the operator's ring. A unit whose flash codewords
are uncorrectable is lost (R370); whether they are is a free value (log entry 211). -/
def drainOne (p : Nat) (d : Dev) : Dev :=
  let s := spool p d
  let dst := if isStandby d then 0 else p
  match s.units with
  | [] => d
  | (sq, u) :: rest =>
    if (!isStandby d && decide (s.st ≠ 2)) || !ringTakes (ringKey dst 2) d || pathDown dst d then spoolCheck p d
    else if !drainDue d then d
    else
      let d0 := spend (noteDrain (modSpool p (fun x => { x with units := rest }) d))
      let d1 := if Config.codewordLost d.fresh then loseUnit u 3 d0
        else
          let y := exportUnit dst sq u d0
          incRg rREC_CNT_DRAINED (modSpool p (fun x => { x with
            drained := x.drained + 1, exported := x.exported ++ [(sq, u.bytes.length, (ring (ringKey dst 2) y).prod)] }) y)
      if rest.isEmpty then
        let n := (spool p d1).drained
        modSpool p (fun x => { x with st := 0, drained := 0 }) (if isStandby d1 then d1 else recRecord 0x83 p 0 n d1)
      else d1

/-- DISCARD frees a partition's spool and writes one REC_LOSS (R367). Its reason code is none of R366's. -/
def discardSpool (p : Nat) (d : Dev) : Dev :=
  let n := (spool p d).units.length
  let d1 := modRec (fun r => { r with wbuf := r.wbuf.filter fun w => decide (w.1 ≠ p) })
    (modSpool p (fun s => { s with units := [], exported := [], st := 0, drained := 0 }) d)
  let d2 := recRecord 0x84 p 0 n (addRg rREC_CNT_LOST n d1)
  if n = 0 then d2 else raise 0x130 4 d2

/-- A spool transaction commits: at most 16 pages of 16 KiB leave the write buffer (R374). -/
def commitSpool (d : Dev) : Dev :=
  let go := d.recd.wbuf.foldl (fun (acc : Nat × List (Nat × Nat × Nat)) w =>
    if acc.1 + w.2.2 ≤ 16 * 16320 ∧ acc.2.isEmpty then (acc.1 + w.2.2, []) else (acc.1, acc.2 ++ [w])) (0, [])
  modRec (fun r => { r with wbuf := go.2 }) d

end Sys2Proof.Machine
end

