-- ==== Sys2Proof/Machine/Fabric.lean ====
section
/-! DEFINITION. The cluster unit and the Peer Fabric (rules R413 to R432). -/
namespace Sys2Proof.Machine

/-! ### Cluster (R413 to R419) -/

/-- Change the cluster unit. -/
def modClu (f : Clu → Clu) (d : Dev) : Dev := { d with clu := f d.clu }
/-- Is the cluster unit enabled? -/
def cluOn (d : Dev) : Bool := bit (rg rCLU_CFG d) 31
/-- Is the device a worker of a cluster (R413)? -/
def isWorker (d : Dev) : Bool := cluOn d && !d.clu.manager && decide (d.tb.src = 3)

/-- Does the manager drive CLUSTER_SYNC (R414)? -/
def driveLevel (d : Dev) : Bool :=
  let before := decide (d.pwr.st = .cold ∨ d.pwr.st = .boot ∨ d.pwr.st = .timeAcquire ∨ d.pwr.st = .ready)
  cluOn d && d.clu.manager && decide (d.pwr.st ≠ .fault) && (d.twin.own ||
    (before && decide (d.twin.role = .alone ∨ d.twin.role = .pairing) && !d.twin.peer && d.tb.firstLocked))

/-- Take or release the CLUSTER_SYNC driver (R414). -/
def driveSync (d : Dev) : Dev :=
  let lvl := driveLevel d
  if d.clu.driving = lvl then d
  else
    let d1 := modClu (fun c => { c with driving := lvl }) d
    if lvl then d1 else out (.pin .clusterSync false) d1

/-- A decimator reset waiting for a CLUSTER_SYNC pulse is due at the pulse (R393). -/
def lfePulse (t : NT32) (d : Dev) : Dev :=
  if d.lfe.syncClu then { d with lfe := { d.lfe with syncClu := false, resets := d.lfe.resets ++ [t] } } else d
/-- A pulse at a pass boundary (R414): 100 ns high. -/
def syncPulse (d : Dev) : Dev :=
  if d.clu.driving then lfePulse (now d) (out (.pin .clusterSync false) (out (.pin .clusterSync true) d)) else d

/-- The pulse of a manager whose Weir is not seeded (R22, R414): at each boundary of its NT, once. -/
def earlyPulse (d : Dev) : Dev :=
  let b : W64 := BitVec.ofNat 64 ((now64 d).toNat / 1000000 * 1000000)
  if d.clu.pulsed = some b then d else syncPulse (modClu (fun c => { c with pulsed := some b }) d)

/-- CLU_STATE's state code (R429). -/
def cluCode (d : Dev) : Nat :=
  if !cluOn d then 0
  else if d.clu.manager then (match d.tb.servo with | .locked => 2 | .holdover => 3 | _ => 1)
  else if d.tb.src ≠ 3 then 0
  else match d.tb.servo with | .locked => 2 | .holdover => 3 | _ => 1
/-- CLU_STATE (R429). -/
def cluState (d : Dev) : Nat :=
  d.clu.members.toNat * 65536 + 16 * b2n d.clu.driving + 8 * b2n d.clu.manager + cluCode d

/-- JOINED when a worker's servo first enters LOCKED (R417). -/
def cluJoined (d : Dev) : Dev :=
  if isWorker d ∧ d.tb.servo = .locked ∧ !d.clu.joined then raise 0x190 2 (modClu (fun c => { c with joined := true }) d) else d

/-- A worker's pulse (R416): the offset against the NT64 named, and the servo. `x16` is the edge stamp in 1/16 ns. -/
def workerPulse (stamp : NT32) (frac : BitVec 4) (d : Dev) : Dev :=
  if !isWorker d then d
  else
    let t : Option W64 := match d.clu.named with | some t => some t | none => d.clu.lastT.map (· + 1000000)
    let d1 := if d.clu.named.isSome then d else incRg rCLU_MSG_ERR d
    match t with
    | none => lfePulse stamp d1
    | some t =>
      let off : Int := ((nt64Of d stamp).toNat * 16 + frac.toNat : Nat) - ((t.toNat * 16 + fld (rg rCLU_CABLE d) 15 0 : Nat) : Int)
      let d2 := modClu (fun c => { c with named := none, lastT := some t, missRun := 0 }) d1
      let d3 := setRgN rCLU_LAST_PULSE stamp.toNat (setRg rCLU_OFFSET ((BitVec.ofInt 32 off).zeroExtend 64) d2)
      let d4 := if d3.tb.qualified then d3 else sourceQualified d3
      lfePulse stamp (cluJoined (takeMeasurement (off * 4096) 0 d4))

/-- A missing pulse (R416): the third in a row is a loss of source. -/
def missPulse (d : Dev) : Dev :=
  if !isWorker d then d
  else
    let d1 := raiseF 0x190 1 0x190 (incRg rCLU_PULSE_MISS (modClu (fun c => { c with
      missRun := c.missRun + 1, lastT := (match c.named with | some t => some t | none => c.lastT.map (· + 1000000)), named := none }) d))
    if 3 ≤ d1.clu.missRun then sourceLost d1 else d1

/-- The manager's SYNC at P + 100 µs and POLL at P + 200 µs, each once in a pass (R22, R415). A worker whose poll went unanswered three times in a row is recorded absent. -/
def cluSend (d : Dev) : Dev :=
  if !d.clu.driving then d
  else
    let p : NT32 := if d.weir.seeded then d.weir.nextP - 1000000 else BitVec.ofNat 32 ((now64 d).toNat / 1000000 * 1000000)
    let gone := sdiff (now d) p
    let at_ : W64 := now64 d + BitVec.ofInt 64 ((if gone < 200000 then 100000 else 200000) - gone)
    if gone < 100000 ∨ d.clu.sentAt = some at_ then d
    else if gone < 200000 then
      let pulse := (now64 d).toNat + (1000000 - gone).toNat
      out (.msg .cluster 1 [pulse, d.tb.servo.code, clockClass d, b2n d.tb.gm.traceable, d.clu.seq.toNat])
        (modClu (fun c => { c with seq := c.seq + 1, sentAt := some at_ }) d)
    else
      let w := rgN rWEIR_PASS_CNT d % 15 + 1
      let d1 := match d.clu.polled with
        | none => d
        | some v =>
          let n := tabGet (fun _ => 0) d.clu.missed v + 1
          let y := modClu (fun c => { c with missed := tabSet (fun _ => 0) c.missed v n }) d
          if n = 3 ∧ bit y.clu.members v
          then raise 0x190 3 (modClu (fun c => { c with members := c.members &&& ~~~(1#16 <<< v) }) y) else y
      out (.msg .cluster 2 [w]) (modClu (fun c => { c with polled := some w, sentAt := some at_ }) d1)

/-- A worker's STATUS at the manager (R415, R429). -/
def cluStatus (w servo role : Nat) (off : BitVec 16) (fault : Bool) (d : Dev) : Dev :=
  if !d.clu.manager || decide (w = 0) || decide (15 < w) then d
  else
    let v := servo % 8 * 2 ^ 29 + role % 8 * 2 ^ 26 + b2n fault * 2 ^ 25 + off.toNat
    setRgN (rCLU_WSTAT + 4 * w) v (modClu (fun c => { c with
      members := c.members ||| (1#16 <<< w), missed := tabSet (fun _ => 0) c.missed w 0,
      polled := if c.polled = some w then none else c.polled }) d)

/-- A worker applies the manager's step on receipt, whatever its ARMED bit, and takes Q' from the message (R418). -/
def cluStepRx (s : Int) (q : NT32) (d : Dev) : Dev :=
  if !isWorker d then d
  else
    let d1 := applyStep s d
    let k := sdiff q d1.weir.nextP
    let d2 := modTb (fun t => { t with rebase := t.rebase.map fun r => { r with q := q, k := r.k + k / 1000000 } }) d1
    if d2.weir.seeded then { d2 with weir := { d2.weir with nextP := q } } else d2

/-! ### Peer Fabric: addresses, neighbours, routes (R420 to R422) -/

/-- Change the fabric unit. -/
def modFab (f : Fab → Fab) (d : Dev) : Dev := { d with fab := f d.fab }
/-- Is the fabric unit enabled? -/
def fabOn (d : Dev) : Bool := bit (rg rFAB_CFG d) 31
/-- The identity: FAB_DEV_ID, or the pair ID of a twin (R420). -/
def fabId (d : Dev) : W64 := if d.twin.role = .alone then rg rFAB_DEV_ID d else rg rTWIN_PAIR_ID d
/-- Does the device send fabric frames (R420)? -/
def fabSends (d : Dev) : Bool := fabOn d && decide (d.twin.role = .active ∨ d.twin.role = .alone)
/-- The address in use, when valid. -/
def fabAddr (d : Dev) : Option Nat := if bit (rg rFAB_ADDR d) 31 then some (fld (rg rFAB_ADDR d) 11 0) else none
/-- The fabric ports with their links up. -/
def fabPorts (d : Dev) : List Nat := (List.range 4).filter fun p => bit (rg rFAB_PORTS d) p && linkUp p d

/-- The first address from `a` on, modulo 4,096, that no one claims (R421). -/
def pickAddr : Nat → Nat → List Nat → Option Nat
  | 0, _, _ => none
  | n + 1, a, used => if used.contains a then pickAddr n ((a + 1) % 4096) used else some a

/-- Take an address: FAB_CFG.ADDR, or the first free one with SELF_ADDR (R421). -/
def takeAddr (d : Dev) : Dev :=
  let c := rg rFAB_CFG d
  if !bit c 31 then setRgN rFAB_ADDR 0 d
  else if bit c 30 then
    match pickAddr 4096 (rgN rFAB_DEV_ID d % 4096) d.fab.claimed with
    | some a => setRgN rFAB_ADDR (0x80000000 + a) d
    | none => setRgN rFAB_ADDR 0 d
  else setRgN rFAB_ADDR (0x80000000 + fld c 27 16) d

/-- A route. -/
def routeTo (dst : Nat) (d : Dev) : Option Route := tabGet (fun _ => none) d.fab.routes dst
/-- Is a destination reachable (R422)? -/
def reachable (dst : Nat) (d : Dev) : Bool := match routeTo dst d with | some r => decide (r.metric < 9) | none => false
/-- Set a route. -/
def setRoute (dst : Nat) (r : Option Route) (d : Dev) : Dev :=
  modFab (fun f => { f with routes := tabSet (fun _ => none) f.routes dst r, changed := true }) d

/-- The trunk bindings in force to a peer. -/
def trunksTo (peer : Nat) (d : Dev) : List (Nat × Trunk) :=
  d.fab.trunks.filterMap fun e => match e.2 with
    | some t => if t.peer = peer ∧ current t.handle d then some (e.1, t) else none
    | none => none

/-- PEER_DOWN or PEER_UP to the operator and to each partition with legs bound to the peer (R427). -/
def peerRecord (typ peer : Nat) (d : Dev) : Dev :=
  let ts := trunksTo peer d
  if ts.isEmpty then d
  else
    let parts := (ts.map fun t => hPart t.2.handle).eraseDups
    let say (p n : Nat) (x : Dev) : Dev := ringOffer (ringKey p 0) ⟨typ, now x, 0, body [(12, 2, peer), (16, 4, n)]⟩ x
    (parts.filter (· ≠ 0)).foldl (fun x p => say p (ts.filter fun t => decide (hPart t.2.handle = p)).length x) (say 0 ts.length d)

/-- A destination became unreachable (R422, R427). -/
def peerLost (dst port : Nat) (d : Dev) : Dev :=
  peerRecord 0xA0 dst (raiseF 0x1A0 1 (macPage port) (modFab (fun f => { f with down := dst :: f.down }) d))
/-- A destination became reachable. -/
def peerUp (dst : Nat) (d : Dev) : Dev :=
  if d.fab.down.contains dst then peerRecord 0xA1 dst (modFab (fun f => { f with down := f.down.erase dst }) d) else d

/-- Poison the routes a test names (R422). -/
def poison (p : Nat → Route → Bool) (d : Dev) : Dev :=
  d.fab.routes.foldl (fun x e => match e.2 with
    | some r => if r.metric < 9 ∧ p e.1 r then peerLost e.1 r.port (setRoute e.1 (some { r with metric := 15 }) x) else x
    | none => x) d

/-- Learn that `dst` lies `m` hops away through neighbour `hop` on `port` (R422). -/
def learnRoute (dst m hop port : Nat) (d : Dev) : Dev :=
  let nr : Route := ⟨min m 15, hop, port, now64 d⟩
  if fabAddr d = some dst then d
  else match routeTo dst d with
    | none => if m < 9 then peerUp dst (setRoute dst (some nr) d) else d
    | some r =>
      if r.hop = hop ∧ r.port = port then
        if r.metric = nr.metric then modFab (fun f => { f with routes := tabSet (fun _ => none) f.routes dst (some nr) }) d
        else if r.metric < 9 ∧ 9 ≤ m then peerLost dst port (setRoute dst (some { nr with metric := 15 }) d)
        else if 9 ≤ r.metric ∧ m < 9 then peerUp dst (setRoute dst (some nr) d)
        else setRoute dst (some nr) d
      else if m < 9 ∧ (m < r.metric ∨ (m = r.metric ∧ (hop < r.hop ∨ (hop = r.hop ∧ port < r.port))))
      then peerUp dst (setRoute dst (some nr) d) else d

/-- An address another identity claims (R421): a conflict is decided for the lower identity. -/
def claim (addr : Nat) (id : Option W64) (d : Dev) : Dev :=
  let d1 := modFab (fun f => { f with claimed := if f.claimed.contains addr then f.claimed else addr :: f.claimed }) d
  match id with
  | none => d1
  | some i =>
    if fabAddr d = some addr ∧ i ≠ fabId d then
      if i.toNat < (fabId d).toNat then
        let d2 := raise 0x1A0 2 (setRgN rFAB_ADDR 0 d1)
        if bit (rg rFAB_CFG d) 30 then takeAddr d2 else d2
      else d
    else d1

/-- A HELLO (R421). -/
def helloRx (port addr : Nat) (id : W64) (d : Dev) : Dev :=
  if !fabOn d || !bit (rg rFAB_PORTS d) port then d
  else
    let d1 := claim addr (some id) d
    let others := d1.fab.nbrs.filter fun n => !(decide (n.port = port) && decide (n.id = id))
    learnRoute addr 1 addr port (modFab (fun f => { f with nbrs := ⟨port, addr, id, 0, true⟩ :: others }) d1)

/-- A fabric control frame in Q5 of a port (R309, R420). -/
def fabFrame (kind p octets : Nat) (fields : List Nat) (d : Dev) : Dev := queueCtl p ⟨5, max 64 octets, .fabric, kind, fields⟩ d

/-- The 250 ms instant (R22, R421): HELLO on each fabric port, and a neighbour not heard since the last instant missed one. -/
def helloTx (d : Dev) : Dev :=
  let at_ : W64 := BitVec.ofNat 64 ((now64 d).toNat / 250000000 * 250000000)
  if d.fab.helloAt = some at_ then d
  else
    let d1 := modFab (fun f => { f with
      helloAt := some at_, nbrs := f.nbrs.map fun n => { n with missed := if n.heard then 0 else n.missed + 1, heard := false } }) d
    if fabSends d then
      (fabPorts d).foldl (fun x p => fabFrame 1 p 46 [p, b2n (fabAddr d).isSome, (fabAddr d).getD 0, (fabId d).toNat] x) d1
    else d1

/-- A neighbour is lost (R421, R422). -/
def nbrLoss (port addr : Nat) (d : Dev) : Dev :=
  let d1 := modFab (fun f => { f with nbrs := f.nbrs.filter fun n => !(decide (n.port = port) && decide (n.addr = addr)) }) d
  poison (fun _ r => decide (r.port = port) && decide (r.hop = addr)) d1

/-- A ROUTE frame of a neighbour (R422): each destination lies one hop beyond it. -/
def routeRx (port src : Nat) (es : List (Nat × Nat)) (d : Dev) : Dev :=
  if !fabOn d || !(d.fab.nbrs.any fun n => decide (n.port = port) && decide (n.addr = src)) then d
  else es.foldl (fun x e => learnRoute (e.1 % 4096) (e.2 + 1) src port (claim (e.1 % 4096) none x)) d

/-- Is a ROUTE due: 1 s after the last, or a change and 100 ms after the last (R22, R422)? -/
def routeDue (d : Dev) : Bool :=
  match d.fab.routeAt with
  | none => true
  | some t => decide ((if d.fab.changed then 100000000 else 1000000000) ≤ ((now64 d).toNat : Int) - t.toNat)

/-- Send the table when it is due (R422): split horizon with poisoned reverse. -/
def routeTxDo (d : Dev) : Dev :=
  match fabAddr d with
  | none => d
  | some a =>
    if !fabSends d || !routeDue d then d
    else
      let d1 := modFab (fun f => { f with routeAt := some (now64 d), changed := false }) d
      (fabPorts d).foldl (fun x p =>
        let es := d.fab.routes.flatMap fun e => match e.2 with
          | some r => [e.1, if r.port = p then 15 else r.metric]
          | none => []
        fabFrame 2 p (Config.routeOctets (es.length / 2)) (p :: a :: a :: 0 :: es) x) d1

/-- A route unconfirmed for 3 s expires (R422). -/
def routeOld (dst : Nat) (d : Dev) : Dev :=
  match routeTo dst d with
  | some r =>
    if r.metric < 9 ∧ (3000000000 : Int) ≤ (now64 d).toNat - r.at_.toNat then peerLost dst r.port (setRoute dst none d)
    else if 9 ≤ r.metric then setRoute dst none d else d
  | none => d

/-! ### Trunks (R423 to R428) -/

/-- May a leg be bound to a trunk (R423)? -/
def trunkLegOk (l : List W32) (leg : Nat) : Bool :=
  isRtp l leg && decide (legSuite l leg = 0) && bit (lw l leg 0) 4 && decide (jbTarget l leg = 2) && decide (frameMs l leg = 1)
    && within (codec l leg) 1 4

/-- A write of FAB_TRK_CTRL (R423). -/
def trunkBindDo (v : W32) (d : Dev) : Dev :=
  let h : W32 := (rg rFAB_TRK_SEL d).extractLsb' 0 32
  let rem : W32 := (rg rFAB_TRK_REMOTE d).extractLsb' 0 32
  let leg := fld v 16 16
  let peer := fld v 11 0
  let k := hSlot h
  let l := descNow k d
  let key := 2 * k + leg
  let set (t : Option Trunk) (x : Dev) : Dev :=
    setRg rFAB_TRK_CTRL ((v &&& 0x80030FFF).zeroExtend 64) (modFab (fun f => { f with trunks := tabSet (fun _ => none) f.trunks key t }) x)
  if !bit v 31 then set none d
  else
    let st := (slot k d).st
    let same := (trunksTo peer d).filter fun t => decide (hPart t.2.handle = hPart h) && decide (t.1 ≠ key)
    let offOk := same.all fun t => decide (egrOffset (descNow (t.1 / 2) d) (t.1 % 2) = egrOffset l leg)
    if !current h d || decide (st ≠ .activating ∧ st ≠ .active) || decide (hPart rem ≠ hPart h) || !trunkLegOk l leg || !offOk
    then reject 0 .range 0 rFAB_TRK_CTRL 4 d
    else set (some ⟨h, peer, rem, fld v 17 17⟩) d

/-- Split a bundle's entries into frames no longer than `mx` bytes (R424). -/
def splitEntries : Nat → List TrunkEntry → Nat → List TrunkEntry → List (List TrunkEntry)
  | _, [], _, [] => []
  | _, [], _, cur => [cur.reverse]
  | mx, e :: es, n, cur =>
    let w := 6 + e.payload.length
    if mx < n + w ∧ cur ≠ [] then cur.reverse :: splitEntries mx es (46 + w) [e] else splitEntries mx es (n + w) (e :: cur)

/-- A launch instant of a trunk frame of a partition on a port: one before the window's START in its pass moves to START (R286, R424, R425). -/
def windowOpens (part port : Nat) (t : NT32) (d : Dev) : NT32 :=
  let o : NT32 := passOf t d + BitVec.ofNat 32 ((egrWindow part (if mode1 d then 0 else port) d).1 * 1000)
  if sdiff t o < 0 then o else t

/-- Queue one frame of a bundle with the fan-out rules of R312 and R427. -/
def queueBundle (p part : Nat) (t : TrunkFrame) (nEntries : Nat) (d : Dev) : Dev :=
  let r := if linkUp p d then q6Offer p ⟨windowOpens part p t.launch d, 0, 0, part, t.len, 2, none, some t⟩ d else (false, d)
  if r.1 then r.2
  else
    let d1 := raiseF (macPage p) 9 (macPage p) (macCount p (kMac p 2 0x7C) 1 r.2)
    ringOffer (ringKey part 0) ⟨0x60, now d1, 0, body [(12, 4, 2 ^ p), (16, 4, 0), (20, 4, nEntries), (24, 4, 0)]⟩ d1

/-- The bundles of a release instant `e` (R424, R427). `outs` gives each released channel's output by slot. -/
def bundles (e : NT32) (outs : List (Nat × Option JobOut)) (d : Dev) : Dev :=
  let bound := d.fab.trunks.filterMap fun b => match b.2 with
    | some t => if current t.handle d ∧ (outs.any fun o => decide (o.1 = b.1 / 2)) then some (b.1, t) else none
    | none => none
  let groups := (bound.map fun b => (b.2.peer, hPart b.2.handle)).eraseDups
  groups.foldl (fun x g =>
    let mine := bound.filter fun b => decide (b.2.peer = g.1) && decide (hPart b.2.handle = g.2)
    match fabAddr x, routeTo g.1 x with
    | some a, some r =>
      if 9 ≤ r.metric then addRg rFAB_CNT_UNREACH mine.length x
      else
        let entry (b : Nat × Trunk) : TrunkEntry :=
          let k := b.1 / 2
          let leg := b.1 % 2
          let l := (slot k x).desc
          let o := (outs.find? fun o => decide (o.1 = k)).bind (·.2)
          ⟨b.2.remote, b.2.rleg, o.isNone, match o with
            | some y => if leg = 0 then y.encA else y.encB
            | none => fillPass l leg⟩
        let off := match mine with | b :: _ => egrOffset (slot (b.1 / 2) x).desc (b.1 % 2) | [] => 40000
        let mx := fld (rg (kMac r.port 0 oMAC_CFG) x) 13 0
        let frames := splitEntries mx (mine.map entry) 46 []
        let n := frames.length
        (List.zip (List.range n) frames).foldl (fun y f =>
          let len := 46 + sumL (f.2.map fun z => 6 + z.payload.length)
          queueBundle r.port g.2 ⟨8, g.1, a, g.2, decide (f.1 + 1 = n), e - 2000000, e + BitVec.ofNat 32 off, f.2, len⟩ f.2.length y) x
    | _, _ => addRg rFAB_CNT_UNREACH mine.length x) d

/-- One entry of a received TRUNK frame (R426): written as the operand of pass PASS + 2 ms at its deemed instant. -/
def trunkEntry (port : Nat) (stamp : NT32) (bound : Nat) (t : TrunkFrame) (z : TrunkEntry) (d : Dev) : Dev :=
  let h := z.remote
  let k := hSlot h
  let leg := z.leg % 2
  if hPart h ≠ t.part then incRg rFAB_CNT_FOREIGN d
  else if !current h d then raise 0x1A0 4 (incRg rFAB_CNT_STALE d)
  else match trunkOf k leg d with
    | none => incRg rFAB_CNT_FOREIGN d
    | some b =>
      if b.peer ≠ t.src then incRg rFAB_CNT_FOREIGN d
      else
        let l := descNow k d
        let n := (nt64Of d t.pass).toNat * rtpClock l leg / 1000000000
        let held : Held := ⟨BitVec.ofNat 16 (n / 8), rxPt l leg, false, BitVec.ofNat 32 n + lw l leg 6, nt64Of d stamp, z.payload⟩
        { d with path := { d.path with visible := d.path.visible ++ [⟨h, leg, stamp + BitVec.ofNat 32 bound, held, false, some port⟩] } }

/-- Forward a TRUNK frame addressed elsewhere (R425). -/
def trunkForward (stamp : NT32) (t : TrunkFrame) (d : Dev) : Dev :=
  if t.hops ≤ 1 then raise 0x1A0 5 (incRg rFAB_CNT_HOPS d)
  else match routeTo t.dst d with
    | none => d
    | some r =>
      if 9 ≤ r.metric || !fabSends d || (fabAddr d).isNone then d
      else
        let at0 : NT32 := stamp + BitVec.ofNat 32 (fld (rg rFAB_HOP_NS d) 19 0)
        (q6Offer r.port ⟨windowOpens t.part r.port at0 d, 0, 0, t.part, t.len, 3, none, some { t with hops := t.hops - 1 }⟩ d).2

end Sys2Proof.Machine
end

