-- ==== Sys2Proof/Machine/Weir.lean ====
section
/-! DEFINITION. The Weir's tokens, jobs and release queues, the streamer, core faults and replay, scrubbing (rules R105 to R144,
R251). -/
namespace Sys2Proof.Machine

/-! ### Cores -/

/-- A core. -/
def tarn (c : Nat) (d : Dev) : Tarn := tabGet (fun _ => Tarn.reset) d.tarns c
/-- Change a core. -/
def modTarn (c : Nat) (f : Tarn → Tarn) (d : Dev) : Dev := { d with tarns := tabMod (fun _ => Tarn.reset) d.tarns c f }
/-- The page of a core: 0x040 + n (R258). -/
def tarnPage (c : Nat) : Nat := 0x40 + c
/-- Key of a register of a core's page. -/
def kTarn (c off : Nat) : Nat := tarnPage c * 0x1000 + off
/-- A core register by the number of R265 (accumulator components from 0x40). -/
def tr (n : Nat) (t : Tarn) : W64 := tabGet tarnRegReset t.r n
/-- Write a core register. -/
def setTr (n : Nat) (v : W64) (t : Tarn) : Tarn := { t with r := tabSet tarnRegReset t.r n v }
/-- Write the halves of one word of data memory: 1 low, 2 high, 3 both (R246). -/
def putHalves (addr halves : Nat) (w : Word) (dm : Tab Word) : Tab Word :=
  tabMod (fun _ => 0) dm addr fun x =>
    if halves = 3 then w else if halves = 2 then setFld x 35 18 (fld w 35 18) else setFld x 17 0 (fld w 17 0)
/-- A store of the buffer retires into data memory (R246). -/
def retire (e : PendStore) (dm : Tab Word) : Tab Word :=
  let m := putHalves e.addr e.halves e.data dm
  match e.two with | some w => putHalves ((e.addr + 1) % 65536) 3 w m | none => m
/-- Stores retire in program order (R246). -/
def drained (sb : List PendStore) (dm : Tab Word) : Tab Word := sb.foldl (fun m e => retire e m) dm
/-- Set or clear PG_STATUS.FAULT of a page (R43, R251). -/
def statusFault (pg : Nat) (b : Bool) (d : Dev) : Dev :=
  modHdr pg (fun h => { h with status := setFld h.status 2 2 (b2n b) }) d
/-- Is media core `c` in service? -/
def coreOk (c : Nat) (d : Dev) : Bool := decide (c < 64) && bit d.weir.healthy c

/-! ### Dispatch lists (R111) -/

/-- The dispatch list of a core. -/
def jobs (c : Nat) (d : Dev) : List Job := tabGet (fun _ => []) d.weir.lists c
/-- Replace a core's list. -/
def setJobs (c : Nat) (l : List Job) (d : Dev) : Dev :=
  modWeir (fun w => { w with lists := tabSet (fun _ => []) w.lists c l }) d
/-- Is the job on the core now: running or staged (R111)? -/
def Job.onCore (j : Job) : Bool := decide (j.st = .staging ∨ j.st = .ready ∨ j.st = .running ∨ j.st = .done)
/-- Total reservation of a list. -/
def loadOf (l : List Job) : Nat := sumL ((l.filter fun j => decide (j.st ≠ .streamOut)).map (·.resv))
/-- Total reservation of the jobs of a list that are not yet staged. -/
def unstaged (l : List Job) : Nat := sumL ((l.filter fun j => decide (j.st = .listed)).map (·.resv))

/-- The healthy core whose list holds the smallest total reservation, the lowest of equals (log entry 17), leaving out one. -/
def lightest (skip : Nat) (d : Dev) : Option Nat :=
  ((List.range 64).filter fun c => coreOk c d && decide (c ≠ skip)).foldl (fun (b : Option Nat) c =>
    match b with
    | none => some c
    | some x => if loadOf (jobs c d) < loadOf (jobs x d) then some c else some x) none

/-- Is the handle of a channel's item stale (R127)? A bus number never is. -/
def itemStale (isBus : Bool) (h : W32) (d : Dev) : Bool := !isBus && !current h d

/-- Does a job hold one of its core's two context buffers: from its stream-in to the end of its stream-out (R121)? -/
def Job.buffered (j : Job) : Bool := decide (j.st ≠ .listed)

/-- Bring staged jobs forward: a core holds at most two jobs, a running and a staged one, and its two context buffers as many contexts; the
streamer serves the staged job's request into the buffer that is free, discarding a stale one (R111, R121, R127). -/
def stage : Nat → Nat → Dev → Dev
  | 0, _, d => d
  | n + 1, c, d =>
    let l := jobs c d
    let held := l.filter Job.buffered
    if 2 ≤ held.length then d
    else match l.find? fun j => decide (j.st = .listed) with
      | none => d
      | some j =>
        if itemStale j.bus j.handle d then stage n c (stale rWEIR_CNT_STALE_STREAM j.handle (setJobs c (l.erase j) d))
        else
          let b := if held.any fun x => decide (x.buf = 0) then 1 else 0
          stage n c (setJobs c (l.map fun x => if x = j then { x with st := .staging, buf := b } else x) d)

/-- A core with nothing left takes the last unstaged job of the list whose unstaged jobs hold most (R111). -/
def steal (c : Nat) (d : Dev) : Dev :=
  if !coreOk c d || (jobs c d).any (fun j => decide (j.st ≠ .streamOut)) then d
  else
    let from_ := ((List.range 64).filter fun x => decide (0 < unstaged (jobs x d))).foldl (fun (b : Option Nat) x =>
      match b with
      | none => some x
      | some y => if unstaged (jobs y d) < unstaged (jobs x d) then some x else some y) none
    match from_ with
    | none => d
    | some x =>
      match (jobs x d).reverse.find? fun j => decide (j.st = .listed) with
      | none => d
      | some j => setJobs c (jobs c d ++ [j]) (setJobs x ((jobs x d).reverse.erase j).reverse d)

/-- Let a core go on: steal when empty, then stage. -/
def coreNext (c : Nat) (d : Dev) : Dev := stage 3 c (steal c d)

/-- Append a job to the lightest healthy core's list; with no healthy core WEIR.UNIT_FAULT and FAULT (R111, R128). -/
def dispatch (j : Job) (d : Dev) : Dev :=
  match lightest 64 d with
  | none => unitFault 0x20 d
  | some c => coreNext c (setJobs c (jobs c d ++ [j]) d)

/-! ### Tokens (R107 to R110) -/

/-- The line that feeds a leg, if one is bound (R399). -/
def lineFor (h : W32) (leg : Nat) (d : Dev) : Option Nat :=
  (d.lfe.lines.find? fun e => decide (e.2.bound = some (h, leg))).map (·.1)

/-- The operand already present for a leg of pass `p` (R27). -/
def operandAt (k leg : Nat) (p : NT32) (d : Dev) : Oper :=
  let l := (slot k d).desc
  match kind l leg with
  | 0 => .silence
  | 1 => match (legOf k leg d).ops.find? fun o => decide (o.pass = p) && o.there with
    | some o => o.op
    | none => .none
  | 2 => match lineFor (handleOf k d) leg d with | none => .silence | some _ => .none
  | _ => .none

/-- May the channel's program run: none is set, or its image is resident (R27, R297)? -/
def progThere (k : Nat) (d : Dev) : Bool :=
  let s := slot k d
  !progOn s.desc || ((prog s.part (progId s.desc) d).loaded && !(prog s.part (progId s.desc) d).restoring)

/-- Has a channel or bus a job that has not committed? -/
def outstanding (isBus : Bool) (h : W32) (d : Dev) : Bool :=
  d.weir.lists.any fun e => e.2.any fun j => decide (j.bus = isBus) && decide (j.handle = h)

/-- The token of pass `p` of a channel (R107). -/
def newToken (k : Nat) (p : NT32) (d : Dev) : Token :=
  let h := handleOf k d
  let a := operandAt k 0 p d
  let b := operandAt k 1 p d
  { bus := false, handle := h, pass := p, fillA := decide (a ≠ .none), fillB := decide (b ≠ .none),
    fillCtx := !outstanding false h d && !(slot k d).suspect && !awaitsContext h d, fillProg := progThere k d, inA := a, inB := b, members := [],
    markA := false, markB := false, bypass := false, elig := false, resv := 0, epoch := (slot k d).epoch }

/-- The token of pass `p` of a bus (R110). -/
def newBusToken (b : Nat) (p : NT32) (d : Dev) : Token :=
  let h : W32 := BitVec.ofNat 32 b
  { bus := true, handle := h, pass := p, fillA := true, fillB := true, fillCtx := !outstanding true h d, fillProg := true,
    inA := .none, inB := .none, members := [], markA := false, markB := false, bypass := false, elig := false, resv := busCycles,
    epoch := 0 }

/-- Are all of a token's slots filled? -/
def tokenFull (t : Token) (d : Dev) : Bool :=
  t.fillCtx && (if t.bus then (bus t.handle.toNat d).members.all fun k => t.members.any fun m => decide (m.1 = k)
    else t.fillA && t.fillB && t.fillProg)

/-- Change the tokens a test names. -/
def modTokens (p : Token → Bool) (f : Token → Token) (d : Dev) : Dev :=
  modWeir (fun w => { w with tokens := w.tokens.map fun t => if p t then f t else t }) d

/-- Drop a token. -/
def dropToken (t : Token) (d : Dev) : Dev := modWeir (fun w => { w with tokens := w.tokens.erase t }) d

/-- A record of R143: bytes 12 to 15 the dispatch boundary, byte 16 the core. -/
def weirRecord (typ : Nat) (h : W32) (due : NT32) (core b17 : Nat) (d : Dev) : Dev :=
  event (hPart h) ⟨typ, now d, h, body [(12, 4, due.toNat), (16, 1, core), (17, 1, b17)]⟩ d

/-- How many operands a job retains until it commits (R122). -/
def Job.operands (j : Job) : Nat := b2n (decide (j.inA ≠ .none)) + b2n (decide (j.inB ≠ .none)) + j.contrib.length
/-- Operands that the queue region of the Basin retains (R122). -/
def retainedNow (d : Dev) : Nat :=
  sumL (d.weir.lists.map fun e => sumL ((e.2.filter fun j => decide (j.st ≠ .streamOut)).map fun j => j.operands - j.spill))

/-- The job of a token dispatched now (R107, R111, R122): with its operands, and all that its outputs depend on as it stands now (R30).
Operands beyond what the queue region retains go to the DRAM. -/
def jobOf (t : Token) (d : Dev) : Job :=
  let s := slot (hSlot t.handle) d
  let b := bus t.handle.toNat d
  let j : Job :=
    { bus := t.bus, handle := t.handle, pass := t.pass, due := d.weir.lastP,
      resv := if t.bus then busCycles else (chargeIn s.part s.desc d).cycles,
      markA := !t.fillA, markB := !t.fillB, bypass := t.bypass || !t.fillProg, noProg := !t.bus && !t.fillProg, epoch := s.epoch,
      st := .listed, replay := false, faultCore := 0xFF, lostOperand := false, spill := 0, inA := t.inA, inB := t.inB, contrib := t.members,
      members := if t.bus then b.members.map fun k => (k, listen (slot k d).desc) else [], wb := b.wb,
      snap := if t.bus then Slot.reset else s, nt64 := nt64Of d t.pass, buf := 0, ten := none, out := none }
  { j with spill := j.operands - min j.operands (Config.retainedCap - retainedNow d) }

/-- A job is dispatched: the discontinuity of a re-base and its freeze count the jobs dispatched (R25, R223). -/
def noteDispatch (k : Nat) (d : Dev) : Dev := modSlot k (fun s => { s with rebased := false, freezeFor := s.freezeFor - 1 }) d

/-- A token fires (R108, R111): a stale one is discarded; otherwise its job is listed with its operands and marks, its release
entry is queued, and each RTP leg's run of concealed passes is followed (R173). -/
def fireToken (t : Token) (d : Dev) : Dev :=
  let d0 := dropToken t d
  if itemStale t.bus t.handle d then stale rWEIR_CNT_STALE_TOKEN t.handle d0
  else
    let k := hSlot t.handle
    let j := jobOf t d
    let d1 := modWeir (fun w => { w with rel := w.rel ++ [⟨t.bus, t.handle, t.pass, j.due, none, false⟩] }) d0
    let d2 := incRg (if tokenFull t d then rWEIR_CNT_FIRED else rWEIR_CNT_CONCEAL) d1
    dispatch j (if t.bus then d2 else noteDispatch k (jbRun k 1 j.markB (jbRun k 0 j.markA d2)))

/-- Order of firing at a boundary: reservation descending, then handle ascending (R111). -/
def fireBefore (a b : Token × Nat) : Bool :=
  decide (b.2 < a.2) || (decide (a.2 = b.2) && decide (a.1.handle.toNat ≤ b.1.handle.toNat))

/-- Fire every eligible token whose slots are all filled, largest reservation first (R108, R111); a standby awaits HORIZON (R339). -/
def fireReady (d : Dev) : Dev :=
  if !horizonAt d.weir.lastP d then d else
  let ts := (d.weir.tokens.filter fun t => t.elig && tokenFull t d).map fun t =>
    (t, if t.bus then busCycles else (chargeIn (slot (hSlot t.handle) d).part (slot (hSlot t.handle) d).desc d).cycles)
  (sortBy fireBefore ts).foldl (fun x t => fireToken t.1 x) d

/-- May the Weir dispatch (R445)? -/
def weirRuns (d : Dev) : Bool := d.weir.seeded && decide (d.pwr.st ≠ .fault) && decide (d.pwr.st ≠ .dormant)

/-- A slot of a token was filled after its boundary: it fires the moment its last slot fills (R108). -/
def fireOne (isBus : Bool) (h : W32) (d : Dev) : Dev :=
  if !weirRuns d || !horizonAt d.weir.lastP d then d
  else match d.weir.tokens.find? fun t => decide (t.bus = isBus) && decide (t.handle = h) && t.elig && tokenFull t d with
    | some t => fireToken t d
    | none => d

/-- Write an operand into the slot of a channel's token of pass `p`, if that token has not fired (R29). -/
def fillLeg (h : W32) (leg : Nat) (p : NT32) (o : Oper) (d : Dev) : Dev :=
  let hit (t : Token) : Bool := !t.bus && decide (t.handle = h) && decide (t.pass = p)
    && (if leg = 0 then !t.fillA else !t.fillB)
  fireOne false h (modTokens hit (fun t =>
    if leg = 0 then { t with fillA := true, inA := o } else { t with fillB := true, inB := o }) d)

/-- Has the token of pass `p` of a channel fired, or been created and dropped (R29)? -/
def passFired (h : W32) (p : NT32) (d : Dev) : Bool :=
  d.weir.seeded && decide (sdiff p d.weir.lastP ≤ 0)
    && !(d.weir.tokens.any fun t => !t.bus && decide (t.handle = h) && decide (t.pass = p))

/-- The context of a channel or bus is back in the Basin: its waiting token's slot fills (R27, R121). A channel that awaits a CONTEXT has
none until that is installed, and a pass whose end state was installed is not run (R342). -/
def fillCtx (isBus : Bool) (h : W32) (d : Dev) : Dev :=
  let wants (t : Token) : Bool := decide (t.bus = isBus) && decide (t.handle = h) && !t.fillCtx
    && (isBus || (!awaitsContext h d && !passInstalled h t.pass d))
  match d.weir.tokens.find? wants with
  | none => d
  | some t => fireOne isBus h (modTokens (fun x => decide (x = t)) (fun x => { x with fillCtx := true }) d)

/-- The dispatch deadline (R108): empty leg slots are marked, an absent program bypassed, and a token without its context is not
dispatched: the pass is released as a marker. A channel whose late job of a shortened pass holds its context waits (R133). One that is still
copied to a standby has not started (R351). -/
def deadlineToken (t : Token) (d : Dev) : Dev :=
  if !t.fillCtx then
    if d.weir.rel.any (fun r => r.late && decide (r.bus = t.bus) && decide (r.handle = t.handle)) then d
    else if itemStale t.bus t.handle d then stale rWEIR_CNT_STALE_TOKEN t.handle (dropToken t d)
    else if !t.bus && awaitsContext t.handle d && decide (chSt (hSlot t.handle) d = .copying) then dropToken t d
    else incRg rWEIR_CNT_NOCTX (modWeir (fun w => { w with
      rel := w.rel ++ [⟨t.bus, t.handle, t.pass, w.lastP, none, false⟩] }) (dropToken t d))
  else fireToken t d

/-- Tokens still waiting at the dispatch deadline (R108). -/
def deadline (d : Dev) : Dev :=
  if weirRuns d && decide ((rgN rWEIR_DEADLINE d : Int) ≤ sdiff (now d) d.weir.lastP)
    && horizonAt (d.weir.lastP + BitVec.ofNat 32 (rgN rWEIR_DEADLINE d)) d
  then (d.weir.tokens.filter (·.elig)).foldl (fun x t => deadlineToken t x) d else d

/-! ### Running, completing, committing (R112, R114, R121, R122, R242, R251) -/

/-- WDOG at the start of a job: RESV − B (R251). -/
def wdogFor (j : Job) : Nat := j.resv - (if !j.bus && progOn j.snap.desc then fld (dw j.snap.desc 38) 15 0 else 0)

/-- The job a core runs: the first on the core, once it runs. -/
def headJob (c : Nat) (d : Dev) : Option Job :=
  match (jobs c d).find? Job.onCore with
  | some j => if j.st = .running ∨ j.st = .done ∨ (j.st = .ready ∧ (tarn c d).st = .running) then some j else none
  | none => none

/-- Replace a job of a core's list. -/
def putJob (c : Nat) (j j' : Job) (d : Dev) : Dev := setJobs c ((jobs c d).map fun x => if x = j then j' else x) d

/-- The image and the tenant data a channel job's program runs on (R255). -/
def jobImage (j : Job) (d : Dev) : List Word :=
  (imageAddrs j.snap.part (progId j.snap.desc) d).map fun a => basinRead a d
/-- The tenant data. -/
def jobData (j : Job) (d : Dev) : List Word := if progOn j.snap.desc then tenantWords (hSlot j.handle) d else []

/-- The outputs of a job as they stand (R191, R217). -/
def jobOutputs (j : Job) (d : Dev) : JobOut := if j.bus then busOut j else channelOut (jobImage j d) (jobData j d) j

/-- The channel state a committed job leaves (R197, R205 to R208, R211, R222): its context, what it acted on of the writes before its
dispatch, and the received events and codes it recorded. A context initialised since stands. Program window bit 3 stays for a
program that has not run (R297). -/
def commitSlot (j : Job) (o : JobOut) (d : Dev) : Dev :=
  let k := hSlot j.handle
  let rx (leg : Nat) (g : Leg) : Leg := { g with
    evts := g.evts.map fun e => { e with
      done := e.done || o.rxDone.any (fun x => decide (x = (leg, e.ts))), cut := e.cut || o.rxCut.any (fun x => decide (x = (leg, e.ts))) }
    badSecs := if o.bad.contains leg then some j.nt64 else g.badSecs
    evtNew := g.evtNew.filter fun c => !o.unsup.contains (leg, c)
    evtUnsup := g.evtUnsup ++ (o.unsup.filter fun u => decide (u.1 = leg)).map (·.2) }
  if (slot k d).inits ≠ j.snap.inits then d
  else modSlot k (fun s => { s with
    ctx := o.ctx, media := o.media, initDone := s.initDone || !(j.bypass && progOn j.snap.desc),
    resetAt := if s.resetAt = j.snap.resetAt then 0 else s.resetAt, genAt := if s.genAt = j.snap.genAt then 0 else s.genAt,
    leaveAt := if s.leaveAt = j.snap.leaveAt then 0 else s.leaveAt, legA := rx 0 s.legA, legB := rx 1 s.legB }) d

/-- The Basin addresses of a job's context (R120, R121); a bus's context has no place that the spec gives. -/
def jobAddrs (j : Job) (d : Dev) : List Nat := if j.bus then [] else granWords (slot (hSlot j.handle) d).granules
/-- Words of a job's context (R121, R216). -/
def jobWords (j : Job) (d : Dev) : Nat := if j.bus then 1024 else (jobAddrs j d).length
/-- Words streamed to or from a core in the pass in progress (R139). -/
def noteWords (c n : Nat) (d : Dev) : Dev := modWeir (fun w => { w with strm := tabMod (fun _ => 0) w.strm c (· + n) }) d

/-- Words placed in a context buffer of a core's data memory: buffer `b` begins at word 0x4000·b (R121, R226). -/
def fillBuffer (c b : Nat) (ws : List Word) (d : Dev) : Dev :=
  let lo := 0x4000 * b
  modTarn c (fun t => { t with
    dm := t.dm.filter (fun e => decide (e.1 < lo))
      ++ ((List.range ws.length).zip ws).filterMap (fun e => if e.2 = 0 then none else some (lo + e.1, e.2))
      ++ t.dm.filter fun e => decide (lo + ws.length ≤ e.1) }) d
/-- The first `n` words of a context buffer. -/
def bufferWords (c b n : Nat) (d : Dev) : List Word :=
  let m := (tarn c d).dm
  (List.range n).map fun i => tabGet (fun _ => 0) m (0x4000 * b + i)

/-- When the tones and events of a channel are to end, NT64 in ns, with the leg: the generator's by its DURATION (R206), and of each leg the
received events that have not ended (R208). -/
def toneEnds (k : Nat) (d : Dev) : List (Int × Nat) :=
  let s := slot k d
  let l := s.desc
  let t : Int := (now64 d).toNat
  let gen := if s.media.gen.kind ≠ 0 ∧ s.media.gen.ending.isNone ∧ genPasses l ≠ 0
    then [(t + ((genPasses l - s.media.gen.played : Nat) : Int) * 1000000, genLeg l)] else []
  gen ++ [0, 1].flatMap fun leg =>
    let g := if leg = 0 then s.legA else s.legB
    ((evtSpans l leg g t g.evts).filter fun e => !e.1.done).map fun e => (e.2.2, leg)

/-- A channel's earliest tone or event end stands in list 4 (R116, R292); the rest stay in its context. -/
def syncToneEnd (k : Nat) (d : Dev) : Dev :=
  let h := handleOf k d
  let t : Int := (now64 d).toNat
  let d1 := dlDrop 4 (fun e => decide (e.handle = h)) d
  match (toneEnds k d).filter fun e => decide (t < e.1) with
  | [] => d1
  | x :: xs =>
    let m := xs.foldl (fun a b => if b.1 < a.1 then b else a) x
    dlAdd 4 ⟨BitVec.ofInt 32 (min m.1 (t + 1999000000)), h, .toneEnd m.2, false⟩ d1

/-- The time from dispatch to a commit, for WEIR_LAST_DONE (R135). -/
def noteDone (j : Job) (d : Dev) : Dev :=
  modWeir (fun w => { w with lastDone := max w.lastDone (sdiff (now d) j.due).toNat }) d

/-- The REPLAYED record of a job run again, when its end is known: byte 17 the core that ran it (R143). -/
def replayedRec (j : Job) (core : Nat) (d : Dev) : Dev :=
  if j.replay && !j.bus then weirRecord 0x20 j.handle j.due j.faultCore core d else d

/-- The records of a job whose outputs are lost: what became of its program and that it was replayed (R108, R143). -/
def lostRecs (j : Job) (core : Nat) (d : Dev) : Dev :=
  replayedRec j core (if j.noProg then weirRecord 0x24 j.handle j.due core 0 d else d)

/-- The head job of a core completes (R121, R122): its outputs enter their release queues and stream-out begins; a stale commit
is discarded (R127). The context that a tenant stage run on the core has led to stands in the job's buffer then. -/
def completeJob (c : Nat) (d : Dev) : Dev :=
  match headJob c d with
  | none => d
  | some j =>
    match j.out with
    | none => d
    | some o =>
      let d1 := modTarn c (fun t => { t with st := .idle, jobs := t.jobs + 1, sb := [], dm := drained t.sb t.dm }) d
      if itemStale j.bus j.handle d then
        coreNext c (stale rWEIR_CNT_STALE_COMMIT j.handle (setJobs c ((jobs c d1).erase j) d1))
      else
        let o := { o with recs := o.recs.map fun r => if r.typ = 0x25 ∨ r.typ = 0x24 then { r with w16 := c } else r }
        let d2 := replayedRec j c (if j.bus then d1 else syncToneEnd (hSlot j.handle) (commitSlot j o d1))
        let d3 := modWeir (fun w => { w with
          rel := w.rel.map fun r =>
          if r.bus = j.bus ∧ r.handle = j.handle ∧ r.pass = j.pass ∧ r.out = none then { r with out := some o } else r }) d2
        let d4 := if j.ten.isSome then fillBuffer c j.buf (contextWords o.ctx (jobAddrs j d3).length) d3 else d3
        coreNext c (putJob c j { j with st := .streamOut, out := some o } d4)

/-! ### Uncorrectable words (R123, R125) -/

/-- Mark a channel suspect (R123). -/
def suspect (k : Nat) (d : Dev) : Dev :=
  if (slot k d).running then modSlot k (fun s => { s with suspect := true }) d else d

/-- Re-initialise a suspect context at a boundary: event record, cause, and a fresh context (R123, R142, R222). -/
def reinit (k : Nat) (d : Dev) : Dev :=
  let h := handleOf k d
  raisePartF (hPart h) 6 0x90 (weirRecord 0x22 h d.weir.lastP 0xFF 0 (initContext k d))

/-- The item of a list that a Basin address in a region of unstated layout holds (log entry 18). -/
def heldAtAddr (a n : Nat) : Nat := if n = 0 then 0 else Config.basinHolds a % n

/-- The operands that stand in the prefetch region: read, not lost, their pass not yet fired (R27, R33). -/
def prefetched (d : Dev) : List (Nat × Nat × PreOp) :=
  d.slots.flatMap fun e => [0, 1].flatMap fun leg =>
    ((legOf e.1 leg d).ops.filter fun o => o.there && decide (o.op ≠ .none) && !passFired (handleOf e.1 d) o.pass d).map fun o => (e.1, leg, o)

/-- The operand of a pass is lost (R123, R125, R168): its token's slot is empty again, and the leg is concealed to the end of the frame it held. -/
def loseOperand (k leg : Nat) (p : NT32) (d : Dev) : Dev :=
  let h := handleOf k d
  let p64 : Int := (nt64Of d p).toNat
  let d1 := modLeg k leg (fun g => { g with
    ops := g.ops.map fun o => if o.pass = p then { o with op := .none, there := true } else o
    lostTo := max g.lostTo (frameEnd (slot k d).desc leg g p64) }) d
  modTokens (fun t => !t.bus && decide (t.handle = h) && decide (t.pass = p))
    (fun t => if leg = 0 then { t with fillA := false, inA := .none } else { t with fillB := false, inB := .none }) d1

/-- A channel's tenant data is zeroed (R297), and the jobs that would use it run no program (R123). -/
def loseTenantData (k : Nat) (d : Dev) : Dev :=
  let h := handleOf k d
  let own (a : Nat) : Bool := decide (0xA800 ≤ a / 1024) && (slot k d).tgranules.contains (a / 1024 - 0xA800)
  let bare (j : Job) : Job := if !j.bus ∧ j.handle = h ∧ j.out = none then { j with bypass := true } else j
  modTokens (fun x => !x.bus && decide (x.handle = h)) (fun x => { x with bypass := true })
    (modWeir (fun w => { w with lists := w.lists.map fun e => (e.1, e.2.map bare) })
      (modSlot k (fun s => { s with initDone := false })
        { d with basin := tabFilter (fun a _ => !own a) d.basin, poison := d.poison.filter fun a => !own a }))

/-- A program's image has lost a word in the Basin: it is not resident until it is restored (R297), and tokens wait for it. -/
def loseImage (key : Nat) (d : Dev) : Dev :=
  let d1 := { d with progs := tabMod (fun _ => Prog.reset) d.progs key fun p => { p with restoring := true } }
  d1.slots.foldl (fun x s =>
    if progOn s.2.desc && decide (s.2.part * 65536 + progId s.2.desc = key)
    then modTokens (fun y => !y.bus && decide (y.handle = handleOf s.1 d)) (fun y => { y with fillProg := false }) x else x) d1

/-- An uncorrectable Basin word, by region (R123). -/
def basinUe (a : Nat) (d : Dev) : Dev :=
  let g := a / 1024
  if a < 0x2800000 then
    match d.slots.find? fun e => e.2.granules.contains g with
    | some e => suspect e.1 d
    | none => d
  else if a < 0x2A00000 then
    let ops := prefetched d
    match ops[heldAtAddr a ops.length]? with
    | some x => loseOperand x.1 x.2.1 x.2.2.pass d
    | none => d
  else if a < 0x2D00000 then
    let t := g - 0xA800
    match d.slots.find? fun e => e.2.tgranules.contains t with
    | some e => loseTenantData e.1 d
    | none => match d.progs.find? fun e => e.2.granules.contains t with
      | some e => loseImage e.1 d
      | none => d
  else if a < 0x2F00000 then
    let n := d.weir.rel.length
    let js := d.weir.lists.flatMap fun e => (e.2.filter fun j => decide (j.st ≠ .streamOut ∧ j.spill < j.operands)).map fun j => (e.1, j)
    let i := heldAtAddr a (n + js.length)
    if i < n then
      match d.weir.rel[i]? with
      | some r => modWeir (fun w => { w with rel := w.rel.map fun x => if x = r then { x with out := none } else x }) d
      | none => d
    else match js[i - n]? with
      | some j => putJob j.1 j.2 { j.2 with lostOperand := true } d
      | none => d
  else if a < 0x3000000 then unitFault 0x20 d
  else d

/-- Record an uncorrectable Basin word and act on it (R123, R139, R141). -/
def basinUeFound (a : Nat) (d : Dev) : Dev :=
  let d1 := setRgN rBASIN_UE_TIME (now d).toNat (setRgN rBASIN_UE_ADDR (a % 2 ^ 26) (incRg rBASIN_UE_CNT d))
  basinUe a (raise 0x90 1 d1)

/-- A reader meets those of the addresses it reads that hold a poisoned word (R121, R123). -/
def meetPoison (as : List Nat) (d : Dev) : Dev := (as.filter fun a => d.poison.contains a).foldl (fun x a => basinUeFound a x) d

/-- The scrubber reads a Basin word (R123): `err` 1 corrected, 2 uncorrectable. The last word ends a sweep. -/
def basinScrub (a err : Nat) (d : Dev) : Dev :=
  if !bit (rg rBASIN_SCRUB_CTRL d) 31 || decide (0x3000000 ≤ a) then d
  else
    let b := a / 0x80000
    let n := tabGet (fun _ => 0) d.weir.sweep b + 1
    let d1 := if err = 1 then
        let x := modWeir (fun w => { w with sweep := tabSet (fun _ => 0) w.sweep b n }) (incRg (rBASIN_CE_BANK + 4 * b) d)
        if n = rgN rBASIN_CE_THRESH d then raise 0x90 2 x else x
      else if err = 2 then basinUeFound a d else d
    if a = 0x2FFFFFF then incRg rBASIN_SCRUB_PASS (modWeir (fun w => { w with sweep := [] }) d1) else d1

/-! ### The streamer and the jobs (R121, R191, R217, R226) -/

/-- The staged job's stream-in is complete: its context stands in its buffer and JOB is pending at the core (R121, R242). -/
def streamIn (c : Nat) (d : Dev) : Dev :=
  match (jobs c d).find? fun j => decide (j.st = .staging) with
  | none => d
  | some j =>
    let as := jobAddrs j d
    let d1 := fillBuffer c j.buf (as.map fun a => basinRead a d) (putJob c j { j with st := .ready } d)
    meetPoison as (noteWords c (jobWords j d) (modTarn c (fun t => { t with job := true }) d1))

/-- A job runs on its core (R191, R217): WDOG is loaded, the repeat cache flushed (R233), its outputs computed; its new context stands in its
buffer. A program whose data has an uncorrectable word is bypassed (R123). -/
def runJob (isBus : Bool) (c : Nat) (d : Dev) : Dev :=
  match (jobs c d).find? Job.onCore with
  | none => d
  | some j =>
    if !coreOk c d || decide (j.st ≠ .ready) || decide (j.bus ≠ isBus) then d
    else
      let ds := if j.bus ∨ !progOn j.snap.desc ∨ j.bypass then [] else granWords ((slot (hSlot j.handle) d).tgranules.map (· + 0xA800))
      let bad := ds.any fun a => d.poison.contains a
      let d0 := meetPoison (ds.filter fun a => d.poison.contains a) d
      let j1 := if bad then { j with bypass := true } else j
      let o := jobOutputs j1 d0
      let d1 := modTarn c (fun t => { setTr 0x34 (BitVec.ofNat 64 (wdogFor j1 % 65536)) t with
        st := .running, cache := none, fill := false }) d0
      let d2 := setJobs c ((jobs c d1).map fun x => if x = j ∨ x = j1 then { j1 with st := .done, out := some o } else x) d1
      if j.bus then d2 else fillBuffer c j.buf (contextWords o.ctx (jobAddrs j d).length) d2

/-- The tenant stage of a core's job ends (R218, R219): the job's outputs are those this leaves. -/
def stageEnds (c : Nat) (x : TenEnd) (d : Dev) : Dev :=
  match headJob c d with
  | none => d
  | some j =>
    if j.bus || !tenantRuns j || j.ten.isSome then d
    else
      let j1 := { j with ten := some x }
      putJob c j (if j.out.isNone then j1 else { j1 with out := some (jobOutputs j1 d) }) d

/-- The context of the job whose stream-out ends is committed to its granules, and its tenant data with it (R121, R255); `ue` is the address
of a word that read uncorrectable: it is poisoned, and its context handled as one with an uncorrectable word. -/
def streamOut (c : Nat) (ue : Option Nat) (d : Dev) : Dev :=
  match (jobs c d).find? fun j => decide (j.st = .streamOut) with
  | none => d
  | some j =>
    let d1 := noteDone j (modTarn c (fun t => { t with sout := true }) (setJobs c ((jobs c d).erase j) d))
    if itemStale j.bus j.handle d then coreNext c (stale rWEIR_CNT_STALE_STREAM j.handle d1)
    else if j.bus ∨ (slot (hSlot j.handle) d).inits ≠ j.snap.inits then coreNext c (fillCtx j.bus j.handle (noteWords c (jobWords j d) d1))
    else
      let as := jobAddrs j d
      let ts := granWords ((slot (hSlot j.handle) d).tgranules.map (· + 0xA800))
      let d2 := basinPut (as.zip (bufferWords c j.buf as.length d)) (noteWords c as.length d1)
      let d3 := match j.out.bind (·.data) with | some w => basinPut (ts.zip w) d2 | none => d2
      let d4 := match ue with
        | some a => if as.contains a then basinUeFound a { d3 with poison := a :: d3.poison } else d3
        | none => d3
      coreNext c (fillCtx false j.handle d4)

/-- An uncorrectable DRAM transfer at byte address `a` (R125, R140): channels interleave every 256 bytes (R124). -/
def dramUe (a : Nat) (d : Dev) : Dev :=
  let pg := 0xA1 + a / 256 % 2
  let k (off : Nat) : Nat := pg * 0x1000 + off
  raiseF 0xA0 1 0xA0 (setRgN (k 0x50) (now d).toNat (setRgN (k 0x48) (a / 8 * 8) (incRg (k 0x44) d)))

/-- What an uncorrectable transfer that the patrol scrubber reads takes with it, of what the DRAM holds for the Weir and the Recorder (R122,
R125, R368): a retained operand, which makes its job unreplayable, or a staged recording unit. -/
def dramLost (a : Nat) (d : Dev) : Dev :=
  let js := d.weir.lists.flatMap fun e => (e.2.filter fun j => decide (j.st ≠ .streamOut ∧ 0 < j.spill)).map fun j => (e.1, j)
  let us := stagedUnits d
  let n := Config.dramHolds a
  match js[n]? with
  | some j => putJob j.1 j.2 { j.2 with lostOperand := true } d
  | none => match us[n - js.length]? with
    | some u => loseStaged u.1 u.2 d
    | none => d

/-- The patrol scrubber reads a DRAM transfer (R124, R141); address 0 begins a new period. -/
def dramScrub (a err : Nat) (d : Dev) : Dev :=
  if !bit (rg rDRAM_SCRUB_CTRL d) 31 || decide (fld (rg rDRAM_CFG d) 7 0 * 2 ^ 30 ≤ a) then d
  else
    let d0 := if a = 0 then modWeir (fun w => { w with dramCe := 0 }) d else d
    if err = 1 then
      let d1 := modWeir (fun w => { w with dramCe := w.dramCe + 1 }) (incRg ((0xA1 + a / 256 % 2) * 0x1000 + 0x40) d0)
      if d1.weir.dramCe = 1001 then raise 0xA0 2 d1 else d1
    else if err = 2 then dramLost a (dramUe a d0) else d0

/-- An internal posted write to DRAM fails (R61, R62, R125): counted, recorded, and a context it served marked suspect. -/
def writeFail (page part a : Nat) (h : W32) (d : Dev) : Dev :=
  let d1 := faultRec ⟨0xF2, now d, h, body ([(12, 4, part), (20, 8, a)] ++ pageFields page)⟩ (incRg rDRAM_WFAIL_CNT d)
  let d2 := raiseF 0xA0 3 0xA0 d1
  if h ≠ 0 ∧ current h d then suspect (hSlot h) d2 else d2

/-! ### Core faults and replay (R128 to R130) -/

/-- Does the condition of R130 stand: fewer than 56 healthy cores and a ceiling below what is admitted? -/
def capacityLost (d : Dev) : Bool := decide (healthy d < 56) && decide (effCeil d < admitted d)

/-- A partition's shedding state (R130, R138). -/
def shedOf (p : Nat) (d : Dev) : Shed := tabGet (fun _ => ⟨0, false, 0⟩) d.weir.shed p
/-- Change a partition's shedding state. -/
def modShed (p : Nat) (f : Shed → Shed) (d : Dev) : Dev :=
  modWeir (fun w => { w with shed := tabMod (fun _ => ⟨0, false, 0⟩) w.shed p f }) d

/-- The sheddable partitions in ascending RANK, equals in ascending order (R130, R138). -/
def ranked (d : Dev) : List Nat :=
  let l := d.weir.shed.filter fun e => decide (fld e.2.cfg 15 8 ≠ 0)
  (sortBy (fun a b => decide (fld a.2.cfg 15 8 < fld b.2.cfg 15 8)
    || (decide (fld a.2.cfg 15 8 = fld b.2.cfg 15 8) && decide (a.1 ≤ b.1))) l).map (·.1)

/-- Has a partition an echo tail above 32 ms (R130)? -/
def longTail (p : Nat) (d : Dev) : Bool := (slotsOf p d).any fun e => e.2.live && e.2.descs.any fun l => decide (32 < ecTail l)

/-- The next shedding step that changes something: the partition and 1 programs, 2 first, 3 second tail halving (R130). -/
def nextShed (d : Dev) : Option (Nat × Nat) :=
  let r := ranked d
  match r.find? fun p => bit (shedOf p d).cfg 0 && !(shedOf p d).prog && !(progsOf p d).isEmpty with
  | some p => some (p, 1)
  | none =>
    let tail (n p : Nat) : Bool := bit (shedOf p d).cfg 1 && decide ((shedOf p d).halvings = n) && longTail p d
    match r.find? (tail 0) with
    | some p => some (p, 2)
    | none => (r.find? (tail 1)).map fun p => (p, 3)

/-- Decide the next shedding step and its boundary; an active twin forwards it (R130, R134, R340). -/
def decideShed (d : Dev) : Dev :=
  if isStandby d || !capacityLost d || d.weir.shedStep.isSome then d
  else match nextShed d with
    | none => d
    | some (p, n) =>
      let b := if paired d then farBoundary d else d.weir.nextP
      forward (.shed p n b) (modWeir (fun w => { w with shedStep := some (p, n, b) }) d)

/-- The condition of R130 comes to stand where it did not before: CAPACITY_LOST, and shedding begins. -/
def checkCapacity (was : Bool) (d : Dev) : Dev := if capacityLost d && !was then decideShed (raise 0x20 2 d) else d

/-- Partition of a job. -/
def jobPart (j : Job) (d : Dev) : Nat := if j.bus then (bus j.handle.toNat d).part else hPart j.handle

/-- A job that cannot be run again (R128): its pass is released as a marker and its channel is suspect. `core` ran it last. -/
def replayFail (core : Nat) (j : Job) (d : Dev) : Dev :=
  let d1 := raise 0x20 5 (incRg rWEIR_CNT_REPLAY_FAIL (lostRecs j core d))
  let d2 := raisePartF (jobPart j d) 5 0x20 d1
  fillCtx j.bus j.handle (if j.bus then d2 else suspect (hSlot j.handle) d2)

/-- Put an aborted job at the head of another core's list, behind what that core already holds staged or running (R128). -/
def requeue (core : Nat) (j : Job) (d : Dev) : Dev :=
  if j.lostOperand then replayFail 0xFF j d
  else match lightest core d with
    | none => d
    | some c =>
      let l := jobs c d
      let j' := { j with st := .listed, replay := true, faultCore := core, ten := none, out := none }
      let d1 := setJobs c (l.filter (fun x => decide (x.st ≠ .listed)) ++ j' :: l.filter (fun x => decide (x.st = .listed))) d
      let d2 := vcnt (jobPart j d) 0x78 1 (incRg rWEIR_CNT_REPLAY d1)
      coreNext c (raisePartF (jobPart j d) 4 (tarnPage core) d2)

/-- A core stops on a fault (R251): TARN_FAULT, its time, PG_STATUS.FAULT and TARN.UNIT_FAULT. -/
def coreStops (c src : Nat) (cs : Bool) (d : Dev) : Dev :=
  let v := src * 2 ^ 28 + b2n (cs && decide (src = 2)) * 2 ^ 14 + (tarn c d).pc.toNat
  let d1 := setRgN (kTarn c oTARN_FAULT_TIME) (now d).toNat (setRgN (kTarn c oTARN_FAULT) v d)
  raise (tarnPage c) 0 (statusFault (tarnPage c) true (modTarn c (fun t => { t with st := .faulted, waiting := false, slots := none, rpt := none }) d1))

/-- Have all four control cores faulted (R445)? -/
def controlLost (d : Dev) : Bool := [64, 65, 66, 67].all fun c => decide ((tarn c d).st = .faulted)

/-- A core fault (R128, R251, R257, R445). A media core leaves service and its jobs that have not completed are run again
elsewhere; the running job of a second fault is not. With no healthy core left they are not run and the device enters FAULT. -/
def faultCore (c src : Nat) (cs : Bool) (d : Dev) : Dev :=
  if 64 ≤ c then
    if 68 ≤ c ∨ (tarn c d).st = .faulted then d
    else
      let d1 := coreStops c src cs d
      if controlLost d1 then enterFault 4 (tarnPage c) (raise 2 0 d1) else d1
  else if !coreOk c d then d
  else
    let d1 := coreStops c src cs d
    let d2 := raise 0x20 1 (modWeir (fun w => { w with healthy := w.healthy &&& ~~~(1#64 <<< c) }) d1)
    let l := jobs c d
    let run := headJob c d
    let gone := l.filter fun j => decide (j.st ≠ .streamOut)
    let d3 := setJobs c (l.filter fun j => decide (j.st = .streamOut)) d2
    let d4 := if gone ≠ [] ∧ healthy d3 = 0 then unitFault 0x20 d3
      else gone.foldl (fun x j => if j.replay && decide (run = some j) then replayFail c j x else requeue c j x) d3
    checkCapacity (capacityLost d) d4

/-- A write of WEIR_CORE_RETURN (R129, R135): the self-test of each faulted, failed or soft-reset core named begins. -/
def returnCores (v : W64) (d : Dev) : Dev :=
  (List.range 64).foldl (fun x c =>
    let st := (tarn c x).st
    if bit v c && !coreOk c x && decide (st = .faulted ∨ st = .offline ∨ st = .held)
    then modTarn c (fun t => { t with st := .selftest }) (modWeir (fun w => { w with selftest := c :: w.selftest }) x) else x) d

/-- A self-test ends (R129): a core that passes rejoins at the next boundary, one that fails is OFFLINE. -/
def selftestEnds (c : Nat) (pass : Bool) (d : Dev) : Dev :=
  if !d.weir.selftest.contains c then d
  else
    let d1 := modWeir (fun w => { w with selftest := w.selftest.filter (· ≠ c) }) d
    if pass then modWeir (fun w => { w with rejoin := w.rejoin ++ [c] }) d1
    else raise (tarnPage c) 2 (modTarn c (fun t => { t with st := .offline }) d1)

/-- A core rejoins service at a boundary (R129, R251): IDLE, PG_STATUS.FAULT clear. It runs from address 0, as from BOOT (R261; log entry
200). -/
def rejoinCore (c : Nat) (d : Dev) : Dev :=
  statusFault (tarnPage c) false (modTarn c (fun t => { t with
      st := .idle, pc := 0, sb := [], past := [], slots := none, rpt := none, waiting := false, cache := none, fill := false })
    (modWeir (fun w => { w with healthy := w.healthy ||| (1#64 <<< c) }) d))

end Sys2Proof.Machine
end

