-- ==== Sys2Proof/Machine/Access.lean ====
section
/-! DEFINITION. What host commands share: whether an access reaches the device, the lock, and the registers a write goes to (rules
R37, R45, R46, R435). -/
namespace Sys2Proof.Machine

/-- An access of a function reaches the device only over a trained link with PERST_N high and the PF ready, and only if the function exists (R37,
R435). -/
def fromHost (fn : Nat) (f : Dev → Dev) (d : Dev) : Dev :=
  if d.hif.perst || !d.hif.linkUp || !d.hif.pfReady || !fnExists d fn then d else f d

/-- An access to a register of a partition's window: the PF names the partition by its PART page (R47, R300). -/
def fromWindow (fn part k off : Nat) (f : Dev → Dev) : Dev → Dev :=
  fromHost fn fun d => if fn = 0 ∧ 1024 ≤ part then reject 0 .reserved 0 (winAddr fn part k off) 4 d else f d

/-- A PF write of an RWL register: refused with reason LOCKED while the page is locked (R45, R46). -/
def unlocked (pg off size : Nat) (f : Dev → Dev) (d : Dev) : Dev :=
  if (hdr pg d).locked then reject 0 .locked 0 (pg * 0x1000 + off) size d else f d

/-- An operation a standby refuses to its own host (R340). -/
def notStandby (fn addr size : Nat) (f : Dev → Dev) (d : Dev) : Dev :=
  if isStandby d then reject fn .busy 0 addr size d else f d

/-- Bits of a 32-bit register of the spec's table that are not reserved (R46). -/
def maskOf (pg off : Nat) : Nat := match findRow pg off with | some r => r.mask | none => 0

/-- Store a 32-bit register under its mask. -/
def storeReg (pg off : Nat) (v : W32) (d : Dev) : Dev := setRgN (canonKey pg off) (v.toNat &&& maskOf pg off) d

/-- Sum over the PART pages of a field of one register (unlisted pages hold 0). -/
def sumField (off hi lo skip : Nat) (d : Dev) : Nat :=
  sumL ((d.regs.filter fun e => decide (e.1 % 0x1000 = off) && decide (0x200 ≤ e.1 / 0x1000) && decide (e.1 / 0x1000 < 0x600)
    && decide (e.1 / 0x1000 ≠ skip)).map fun e => fld e.2 hi lo)

end Sys2Proof.Machine
end

