-- ==== Sys2Proof/Machine/LineBase.lean ====
section
/-! DEFINITION. The lines as other units see them: the registers and the mode in force, blanking, the outputs' drive, the words pushed
to the Serial Control Engine, and what stops a cadence (rules R391, R392, R394, R397, R399, R403, R405). -/
namespace Sys2Proof.Machine

/-- Page of line `n` (R409). -/
def linePage (n : Nat) : Nat := 0x160 + n
/-- Key of a register of a line's page. -/
def kLine (n off : Nat) : Nat := linePage n * 0x1000 + off
/-- A line. -/
def line (n : Nat) (d : Dev) : Line := tabGet (fun _ => Line.reset) d.lfe.lines n
/-- Change the LFE. -/
def modLfe (f : Lfe → Lfe) (d : Dev) : Dev := { d with lfe := f d.lfe }
/-- Change a line. -/
def modLine (n : Nat) (f : Line → Line) (d : Dev) : Dev :=
  modLfe (fun e => { e with lines := tabMod (fun _ => Line.reset) e.lines n f }) d
/-- A register of a line's page in force: a host write takes effect at the next boundary (R397). -/
def lnReg (n off : Nat) (d : Dev) : W64 := ((line n d).writes.lookup off).getD (rg (kLine n off) d)

/-- A line's mode in force (R397): HOLD while the device is not in SERVICE. -/
def lineMode (n : Nat) (d : Dev) : Nat := if inService d then fld (lnReg n oLFE_LN_CFG d) 31 30 else 1

/-- Does the device drive ICMD and the SCE outputs (R403)? -/
def drivesLines (d : Dev) : Bool :=
  d.twin.own || (!d.twin.peer && (decide (d.pwr.st = .fault) || decide (d.twin.role = .alone ∨ d.twin.role = .pairing)
    || decide (d.pwr.st ≠ .service ∧ d.pwr.st ≠ .dormant)))

/-- Is a line blanked: by the pin, or from a ring-on to the end of the guard (R391)? -/
def blanked (n : Nat) (d : Dev) : Bool :=
  let l := line n d
  (d.lfe.blankPin && bit (lnReg n oLFE_LN_CFG d) 28) || l.ringOn || l.guardEnd.isSome
/-- Are a line's samples tagged BLANKED (R391, R392)? -/
def lineTag (n : Nat) (d : Dev) : Bool := blanked n d || (line n d).settleEnd.isSome
/-- Is it within 10 ms after the Q' of the last re-base (R402)? -/
def afterRebase (d : Dev) : Bool := match d.lfe.rebaseEnd with | some t => !reached d t | none => false
/-- Is a line's DC block frozen (R387, R391, R392, R402)? -/
def lineFrozen (n : Nat) (d : Dev) : Bool :=
  bit (lnReg n oLFE_LN_CFG d) 27 || lineTag n d || afterRebase d
/-- Was a line's tag set at an instant? -/
def tagAt (t : NT32) (l : Line) : Bool :=
  match l.edges.find? fun e => decide (sdiff e.1 t ≤ 0) with | some e => e.2 | none => false
/-- Record a change of a line's blanking at an instant. -/
def retag (n : Nat) (t : NT32) (d : Dev) : Dev :=
  let was := match (line n d).edges with | [] => false | e :: _ => e.2
  if was = lineTag n d then d else modLine n (fun l => { l with edges := (t, lineTag n d) :: l.edges }) d

/-- Samples of a line's pass, by the rate of its channel: 8 at 8 kHz, 16 at 16 kHz, none at another (R399). -/
def voiceSamples (r : Nat) : Option Nat := match r with | 0 => some 8 | 1 => some 16 | _ => none
/-- The settling time of a line: SETTLE_US and the voice filter length (R392). -/
def settleNs (n : Nat) (d : Dev) : Nat :=
  fld (lnReg n oLFE_LN_CFG d) 9 0 * 1000 + (if (line n d).rate = 1 then 875000 else 1750000)
/-- A line settles from an instant on (R392). -/
def settle (n : Nat) (t : NT32) (d : Dev) : Dev :=
  retag n t (modLine n (fun l => { l with settleEnd := some (t + BitVec.ofNat 32 (settleNs n d)) }) d)

/-- A word enters SCE_TXQ, or is dropped and counted when 64 wait (R405). -/
def scePush (v : W32) (d : Dev) : Dev :=
  if d.sce.txq.length < 64 then { d with sce := { d.sce with txq := d.sce.txq ++ [v] } }
  else raise 0x180 5 { d with sce := { d.sce with dropped := d.sce.dropped + 1 } }
/-- A cadence word is pushed by the device that drives the outputs (R394, R403). -/
def pushWord (n off : Nat) (d : Dev) : Dev :=
  if drivesLines d then scePush (BitVec.ofNat 32 (lnReg n off d).toNat) d else d

/-- The next 125 µs grid instant after now. -/
def nextGrid (d : Dev) : NT32 := gridUp (now d + 1) d
/-- A running cadence is to stop at the next grid instant (R394). -/
def cadenceStops (n : Nat) (d : Dev) : Dev :=
  if (line n d).cadence && (line n d).stopAt.isNone then modLine n (fun l => { l with stopAt := some (nextGrid d) }) d else d

/-- The binding of a line is cleared by a handle that is no longer current (R399). -/
def bindingStale (n : Nat) (d : Dev) : Dev :=
  raise 0x150 2 (incRg rLFE_CNT_STALE (setRgN (kLine n oLFE_LN_BIND_CTRL) 0 (cadenceStops n
    (modLine n (fun l => { l with bound := none, writes := l.writes.filter fun w => w.1 ≠ oLFE_LN_BIND_CTRL }) d))))

/-- Clear the line bindings of a handle at its release (R399); the cadence stops (R394). -/
def unbindLines (h : W32) (d : Dev) : Dev :=
  d.lfe.lines.foldl (fun x e => match e.2.bound with
    | some b => if b.1 = h then bindingStale e.1 x else x
    | none => x) d

end Sys2Proof.Machine
end

