-- ==== Sys2Proof/Machine/TarnDecode.lean ====
section
/-! DEFINITION. The instruction words of the Tarn: encodings, which of them are legal, which user mode refuses, and the
validation of a tenant image (rules R263 to R271, R273 to R279, R230, R240, R295). -/
namespace Sys2Proof.Machine

/-- The functions of the Tarn's instruction set (R273 to R278). -/
inductive TOp where
  | nop | add | sub | cmp | and_ | or_ | xor | not_ | neg | abs | min | max | ash | lsh | div | mov | mva | acrd | acwr | acset
  | acclr | acsh | acrnd | mpyl | fld | fst | ldi | ldih | addi | subi | cmpi | andi | ori | xori | ashi | lshi | ld | st | ldh
  | sth | ldd | std | sta | cmac | cmacj | dmac | pmov | br | bri | call | calli | reti | callu | retu | loop | loopr | rpt | rptr
  | done | wait | mbox | strm | dma
  deriving DecidableEq, Repr

/-- A decoded instruction: the fields of its format (R267 to R271). `rt` holds SEL in its low bits where the function says so;
`imm` is the immediate of format I, `d` the displacement or absolute address of format L; `cnt` the count of LOOP and RPT. -/
structure TI where
  op : TOp
  ext : Bool
  rd : Nat
  rs : Nat
  rt : Nat
  acn : Nat
  p : Bool
  imm : Word
  sp : Nat
  mode : Nat
  an : Nat
  h : Nat
  sz : Nat
  d : BitVec 16
  sub : Bool
  f : Bool
  clr : Bool
  xs : Nat
  ys : Nat
  mv1 : Nat
  mv2 : Nat
  cond : Nat
  dn : Nat
  tgt : Nat
  cnt : Nat
  deriving DecidableEq, Repr

/-- An instruction with every field zero. -/
def TI.of (op : TOp) : TI :=
  ⟨op, false, 0, 0, 0, 0, false, 0, 0, 0, 0, 0, 0, 0, false, false, false, 0, 0, 0, 0, 0, 0, 0, 0⟩

/-- Does a number name a data register (R265)? -/
def isD (n : Nat) : Bool := decide (n < 16)
/-- Does a number name any register (R265)? -/
def isReg (n : Nat) : Bool := decide (n < 64) && decide (n ≠ 0x36) && decide (n ≠ 0x37)
/-- May a register be written by number (R265)? CID, WDOG, UCNT and UCAUSE may not. -/
def isWritable (n : Nat) : Bool :=
  isReg n && decide (n ≠ 0x35) && decide (n ≠ 0x34) && decide (n ≠ 0x3F) && decide (n ≠ 0x3D)
/-- Is a register refused in user mode (R227)? -/
def isRefused (n : Nat) : Bool := decide (n = 0x34) || decide (n = 0x35) || decide (0x38 ≤ n)

/-- The function of a format A code (R273). -/
def fnA (n : Nat) : Option TOp :=
  match n with
  | 0x00 => some .nop | 0x01 => some .add | 0x02 => some .sub | 0x03 => some .cmp | 0x04 => some .and_ | 0x05 => some .or_
  | 0x06 => some .xor | 0x07 => some .not_ | 0x08 => some .neg | 0x09 => some .abs | 0x0A => some .min | 0x0B => some .max
  | 0x0C => some .ash | 0x0D => some .lsh | 0x0E => some .div | 0x0F => some .mov | 0x10 => some .mva | 0x11 => some .acrd
  | 0x12 => some .acwr | 0x13 => some .acset | 0x14 => some .acclr | 0x15 => some .acsh | 0x16 => some .acrnd
  | 0x17 => some .mpyl | 0x18 => some .fld | 0x19 => some .fst | _ => none

/-- The fields a format A function uses and accepts (R264, R273): the others must be zero. -/
def okA (op : TOp) (rd rs rt acn : Nat) (p : Bool) : Bool :=
  let z (n : Nat) : Bool := decide (n = 0)
  let even (n : Nat) : Bool := isD n && decide (n % 2 = 0)
  match op with
  | .nop => z rd && z rs && z rt && z acn && !p
  | .add => isD rd && isD rs && isD rt && z acn
  | .sub => isD rd && isD rs && isD rt && z acn
  | .cmp => z rd && isD rs && isD rt && z acn
  | .and_ => isD rd && isD rs && isD rt && z acn && !p
  | .or_ => isD rd && isD rs && isD rt && z acn && !p
  | .xor => isD rd && isD rs && isD rt && z acn && !p
  | .not_ => isD rd && isD rs && z rt && z acn && !p
  | .neg => isD rd && isD rs && z rt && z acn
  | .abs => isD rd && isD rs && z rt && z acn
  | .min => isD rd && isD rs && isD rt && z acn
  | .max => isD rd && isD rs && isD rt && z acn
  | .ash => isD rd && isD rs && isD rt && z acn
  | .lsh => isD rd && isD rs && isD rt && z acn && !p
  | .div => even rd && isD rs && isD rt && z acn && !p
  | .mov => isWritable rd && isReg rs && z rt && z acn && !p
  | .mva => isD rd && z rs && decide (rt ≤ 4) && !p
  | .acrd => isD rd && z rs && decide (rt ≤ 2) && !p
  | .acwr => z rd && isD rs && decide (rt ≤ 2) && !p
  | .acset => z rd && isD rs && isD rt && !p
  | .acclr => z rd && z rs && z rt && !p
  | .acsh => z rd && isD rs && z rt && !p
  | .acrnd => z rd && z rs && z rt && !p
  | .mpyl => z rd && isD rs && isD rt
  | .fld => isD rd && even rs && z rt && z acn
  | .fst => z rd && even rs && isD rt && z acn
  | _ => false

/-- Format A (R267). -/
def decodeA (w : Word) : Option TI :=
  match fnA (fld w 29 24) with
  | none => none
  | some op =>
    let rd := fld w 23 18
    let rs := fld w 17 12
    let rt := fld w 11 6
    let acn := fld w 5 4
    let p := bit w 3
    if fld w 2 0 = 0 ∧ okA op rd rs rt acn p then some { TI.of op with rd := rd, rs := rs, rt := rt, acn := acn, p := p }
    else none

/-- The function of a format I code (R274). -/
def fnI (n : Nat) : Option TOp :=
  match n with
  | 0 => some .ldi | 1 => some .ldih | 2 => some .addi | 3 => some .subi | 4 => some .cmpi | 5 => some .andi | 6 => some .ori
  | 7 => some .xori | 8 => some .ashi | 9 => some .lshi | _ => none

/-- The registers a format I function accepts, whether it accepts an extension word, and the bits of its immediate that it does not use (R264,
R274; log entry 208). -/
def okI (op : TOp) (rd : Nat) (x : Bool) (imm : Nat) : Bool :=
  match op with
  | .ldi => isWritable rd
  | .ldih => isD rd && !x
  | .addi => decide (rd < 0x30)
  | .subi => decide (rd < 0x30)
  | .cmpi => isD rd
  | .andi => isD rd || decide (rd = 0x30)
  | .ori => isD rd || decide (rd = 0x30)
  | .xori => isD rd || decide (rd = 0x30)
  | .ashi => isD rd && !x && decide (imm < 128)
  | .lshi => isD rd && !x && decide (imm < 128)
  | _ => false

/-- Format I (R268): with X the immediate is the extension word and IMM18 must be 0. -/
def decodeI (w ext : Word) : Option TI :=
  match fnI (fld w 29 25) with
  | none => none
  | some op =>
    let x := bit w 24
    let rd := fld w 23 18
    let imm : Word := if x then ext else (w.extractLsb' 0 18).signExtend 36
    if okI op rd x (fld w 17 0) && (!x || decide (fld w 17 0 = 0)) then some { TI.of op with ext := x, rd := rd, imm := imm } else none

/-- The function of a format L code (R269). -/
def fnL (n : Nat) : Option TOp :=
  match n with
  | 0 => some .ld | 1 => some .st | 2 => some .ldh | 3 => some .sth | 4 => some .ldd | 5 => some .std | 6 => some .sta | _ => none

/-- The space and register a format L function accepts (R275). -/
def okL (op : TOp) (sp rd : Nat) : Bool :=
  match op with
  | .ld => decide (sp ≤ 2) && isWritable rd
  | .st => decide (sp ≤ 2) && isReg rd
  | .ldh => decide (sp ≤ 1) && isD rd
  | .sth => decide (sp ≤ 1) && isD rd
  | .ldd => decide (sp ≤ 1) && isD rd && decide (rd % 2 = 0)
  | .std => decide (sp ≤ 1) && isD rd && decide (rd % 2 = 0)
  | .sta => decide (sp = 0) && decide (rd = 0)
  | _ => false

/-- Format L (R264, R269). -/
def decodeL (w ext : Word) : Option TI :=
  match fnL (fld w 29 27) with
  | none => none
  | some op =>
    let sp := fld w 26 25
    let mode := fld w 24 22
    let an := fld w 21 19
    let rd := fld w 18 13
    let h := fld w 12 12
    let sz := fld w 11 10
    let acn := fld w 9 8
    let d8 := fld w 7 0
    let x := decide (mode = 5) || decide (mode = 6)
    let sta := decide (op = .sta)
    let d : BitVec 16 := if x then ext.extractLsb' 0 16 else (w.extractLsb' 0 8).signExtend 16
    if okL op sp rd && decide (mode ≤ 6) && (decide (h = 0) || decide (op = .ldh) || decide (op = .sth) || (sta && decide (sz = 3)))
      && (sta || (decide (sz = 0) && decide (acn = 0))) && (decide (mode = 4) || decide (d8 = 0))
      && (decide (mode ≠ 6) || decide (an = 0)) && (!x || decide (fld ext 35 16 = 0))
    then some { TI.of op with ext := x, sp := sp, mode := mode, an := an, rd := rd, h := h, sz := sz, acn := acn, d := d }
    else none

/-- KIND of a parallel move (R270). -/
def mvKind (m : Nat) : Nat := m / 32
/-- REG of a parallel move. -/
def mvReg (m : Nat) : Nat := m / 2 % 16
/-- Is a parallel move well formed (R264, R270)? -/
def okMove (m : Nat) : Bool :=
  match mvKind m with
  | 0 => decide (m = 0)
  | 3 => decide (mvReg m < 4)
  | _ => true
/-- Does X come from DM? -/
def xInDm (xs : Nat) : Bool := decide (xs < 16)
/-- The space of Y: 0 register, 1 DM, 2 CS, 3 PM. -/
def ySpace (ys : Nat) : Nat := ys / 16
/-- DM reads of a format M instruction (R276). -/
def dmReadsM (xs ys mv1 mv2 : Nat) : Nat :=
  b2n (xInDm xs) + b2n (decide (ySpace ys = 1)) + b2n (decide (mvKind mv1 = 1)) + b2n (decide (mvKind mv2 = 1))

/-- Format M (R270, R276). -/
def decodeM (w : Word) : Option TI :=
  let op : TOp := match fld w 35 30 with | 0x10 => .cmac | 0x11 => .cmacj | 0x12 => .dmac | _ => .pmov
  let sub := bit w 29
  let f := bit w 28
  let clr := bit w 27
  let acn := fld w 26 25
  let xs := fld w 24 20
  let ys := fld w 19 14
  let mv1 := fld w 13 7
  let mv2 := fld w 6 0
  let bare := !sub && !f && !clr && decide (acn = 0) && decide (xs = 16) && decide (ys = 0)
  let same := decide (mvKind mv1 = 1) && decide (mvKind mv2 = 1) && decide (mvReg mv1 = mvReg mv2)
  if okMove mv1 && okMove mv2 && !same && decide (dmReadsM xs ys mv1 mv2 ≤ 2)
    && (if op = .pmov then bare else (decide (16 ≤ xs) || decide (xs % 2 = 0)))
  then some { TI.of op with sub := sub, f := f, clr := clr, acn := acn, xs := xs, ys := ys, mv1 := mv1, mv2 := mv2 } else none

/-- The function of a format B code (R277, R278). -/
def fnB (n : Nat) : Option TOp :=
  match n with
  | 0x00 => some .br | 0x01 => some .bri | 0x02 => some .call | 0x03 => some .calli | 0x04 => some .reti | 0x05 => some .callu
  | 0x06 => some .retu | 0x08 => some .loop | 0x09 => some .loopr | 0x0A => some .rpt | 0x0B => some .rptr | 0x0C => some .done
  | 0x0D => some .wait | 0x0E => some .mbox | 0x0F => some .strm | 0x10 => some .dma | _ => none

/-- The fields a format B function uses (R264, R271, R277, R278): the others must be zero. -/
def okB (op : TOp) (cond an dn tgt : Nat) : Bool :=
  let z (n : Nat) : Bool := decide (n = 0)
  match op with
  | .br => decide (cond ≤ 12) && z an && z dn
  | .bri => decide (cond ≤ 12) && z dn && z tgt
  | .call => decide (cond ≤ 12) && z an && z dn
  | .calli => decide (cond ≤ 12) && z dn && z tgt && decide (an ≠ 7)
  | .loop => true
  | .loopr => z cond && z an
  | .rpt => z cond && z an && z dn && decide (tgt < 4096)
  | .rptr => z cond && z an && z tgt
  | .mbox => z cond && z an && decide (tgt ≤ 67)
  | .strm => z cond && z an && z tgt && decide (dn % 2 = 0)
  | .dma => z cond && z dn && z tgt
  | _ => z cond && z an && z dn && z tgt

/-- Format B (R271). -/
def decodeB (w : Word) : Option TI :=
  match fnB (fld w 29 25) with
  | none => none
  | some op =>
    let cond := fld w 24 21
    let an := fld w 20 18
    let dn := fld w 17 14
    let tgt := fld w 13 0
    if okB op cond an dn tgt then
      if op = .loop then some { TI.of op with cnt := fld w 24 14, tgt := tgt }
      else if op = .rpt then some { TI.of op with cnt := tgt + 1 }
      else some { TI.of op with cond := cond, an := an, dn := dn, tgt := tgt }
    else none

/-- An instruction word with the word that follows it, which is its extension word where it has one (R263, R266); `none` is an
illegal encoding (R264). -/
def decodeTarn (w ext : Word) : Option TI :=
  match fld w 35 30 with
  | 0x00 => decodeA w
  | 0x04 => decodeI w ext
  | 0x08 => decodeL w ext
  | 0x10 => decodeM w
  | 0x11 => decodeM w
  | 0x12 => decodeM w
  | 0x13 => decodeM w
  | 0x18 => decodeB w
  | _ => none

/-- Branches, calls, returns and loop set-ups: the instructions R230 keeps out of delay slots and loop ends. -/
def isControl (op : TOp) : Bool :=
  match op with
  | .br | .bri | .call | .calli | .reti | .callu | .retu | .loop | .loopr | .rpt | .rptr => true
  | _ => false

/-- Has the instruction delay slots (R230)? -/
def hasSlots (op : TOp) : Bool :=
  match op with
  | .br | .bri | .call | .calli | .reti | .callu | .retu => true
  | _ => false

/-- May RPT repeat the instruction (R240)? -/
def repeatable (i : TI) : Bool :=
  !i.ext && !isControl i.op &&
  (match i.op with
   | .div | .mpyl | .fld | .fst | .done | .wait | .mbox | .strm | .dma => false
   | _ => true)

/-- Is the instruction refused in user mode by its encoding alone (R227, R279)? -/
def userRefused (i : TI) : Bool :=
  match i.op with
  | .fld | .fst | .reti | .callu | .done | .wait | .mbox | .strm | .dma => true
  | .mov => isRefused i.rd || isRefused i.rs
  | .ldi => isRefused i.rd
  | .ld => isRefused i.rd
  | .st => isRefused i.rd || decide (i.sp ≠ 0)
  | .sth => decide (i.sp ≠ 0)
  | .std => decide (i.sp ≠ 0)
  | .rpt => decide (1024 < i.cnt)
  | _ => false

/-- Is the body of a LOOP at `pc` with end `tgt` too short, or its end below its start (R277)? -/
def badBody (pc tgt : Nat) : Bool := decide (tgt < pc + 1) || decide (tgt - pc < 4)

/-! ### Validation of a tenant image (R295 step 3) -/

/-- What earlier instructions impose on the next: delay slots left, whether it is repeated, the ends of the bodies set up. -/
structure Placing where
  slots : Nat
  rep : Bool
  ends : List Nat
  deriving DecidableEq, Repr

/-- Does an instruction at index `i` of `code` code words pass? -/
def validOne (code i : Nat) (t : TI) (s : Placing) : Bool :=
  let pc := 0x3800 + i
  let inside (a : Nat) : Bool := decide (0x3800 ≤ a) && decide (a < 0x3800 + code)
  !userRefused t && (!t.ext || decide (i + 1 < code))
  && (match t.op with
      | .br => inside t.tgt
      | .call => inside t.tgt
      | .loop => inside t.tgt && !badBody pc t.tgt
      | .loopr => inside t.tgt && !badBody pc t.tgt
      | _ => true)
  && !(isControl t.op && (decide (0 < s.slots) || s.ends.any fun e => decide (e ≤ pc + 2) && decide (pc ≤ e)))
  && (!s.rep || repeatable t)

/-- The index of the first code word that fails, walking instruction by instruction. -/
def validate (code : Nat) : Nat → Nat → Placing → List Word → Option Nat
  | 0, _, _, _ => none
  | _, _, _, [] => none
  | n + 1, i, s, w :: ws =>
    if code ≤ i then none
    else match decodeTarn w (ws.headD 0) with
      | none => some i
      | some t =>
        if !validOne code i t s then some i
        else
          let s' : Placing :=
            { slots := if hasSlots t.op then 2 else s.slots - 1, rep := decide (t.op = .rpt ∨ t.op = .rptr),
              ends := if t.op = .loop ∨ t.op = .loopr then t.tgt :: s.ends else s.ends }
          if t.ext then validate code n (i + 2) s' (ws.drop 1) else validate code n (i + 1) s' ws

/-- The first failing word of an image with `code` code words. -/
def validateImage (code : Nat) (image : List Word) : Option Nat := validate code (code + 1) 0 ⟨0, false, []⟩ image

end Sys2Proof.Machine
end

