-- ==== Sys2Proof/Machine/Partition.lean ====
section
/-! DEFINITION. Partitions: opening and closing, quotas and egress windows, the release of channels, tenant programs (rules R38,
R165, R281 to R302). -/
namespace Sys2Proof.Machine

/-! ### Release of a channel and of a partition's resources (R38, R127, R165) -/

/-- Remove the flow entries a test names; their indices come free again after 4 passes (R152). -/
def dropFlows (p : Flow → Bool) (d : Dev) : Dev :=
  d.path.flows.foldl (fun x e => if e.2.held && p e.2
    then modFlow e.1 (fun _ => { Flow.reset with freeAt := some (now64 x) }) x else x) d

/-- Erase every key of a slot (R163). -/
def eraseKeys (k : Nat) (d : Dev) : Dev := (List.range 8).foldl (fun x i => modKey (8 * k + i) (fun _ => Key.reset) x) d

/-- The next generation of a slot: 255 is followed by 1 (R64). -/
def nextGen (g : BitVec 8) : BitVec 8 := if g = 255 then 1 else g + 1

/-- The release of slot `k` at boundary `q` (R127, R165): flows, keys, delay-list events, streams and bindings go, GEN increments,
cycles and streams are freed, and QUIESCE lasts 4 ms. -/
def releaseSlot (k : Nat) (q : NT32) (d : Dev) : Dev :=
  let s := slot k d
  let h := handleOf k d
  let d1 := dropFlows (fun f => decide (hSlot (fHandle f) = k)) (endStream (2 * k) q (endStream (2 * k + 1) q d))
  let d2 := unbindLines h (dlPurge h (eraseKeys k d1))
  let d3 := modFab (fun f => { f with trunks := tabSet (fun _ => none) (tabSet (fun _ => none) f.trunks (2 * k) none) (2 * k + 1) none }) d2
  setCh k .none (modSlot k (fun _ => { Slot.reset with
    gen := nextGen s.gen, part := s.part, st := .quiesce, quiesceAt := q + 4000000, freed := s.freed,
    charge := { s.charge with cycles := 0, streams := 0 }, granules := s.granules, tgranules := s.tgranules }) d3)

/-- QUIESCE ends (R120, R165, R288): the slot is FREE, its granules and pages are free. -/
def quiesceEnds (k : Nat) (d : Dev) : Dev :=
  let s := slot k d
  if s.st = .quiesce ∧ reached d s.quiesceAt then
    { modSlot k (fun _ => { Slot.reset with gen := s.gen, freed := d.nextFree + 1 }) d with nextFree := d.nextFree + 1 }
  else d

/-- Unload a program: its granules and pages are freed (R295). -/
def unload (key : Nat) (d : Dev) : Dev :=
  let gs := (tabGet (fun _ => Prog.reset) d.progs key).granules
  wipeTenant gs { d with progs := tabSet (fun _ => Prog.reset) d.progs key Prog.reset }
/-- Unload every program of a partition. -/
def unloadAll (p : Nat) (d : Dev) : Dev :=
  (progsOf p d).foldl (fun x e => unload e.1 x) { d with load := d.load.filter fun l => decide (l.part ≠ p) }

/-- Disable a ring and zero its indices (R38, R435). -/
def stopRing (k : Nat) (d : Dev) : Dev := modRing k (fun r => { r with enable := false, prod := 0, cons := 0, seq := 0 }) d
/-- The rings of a partition. -/
def stopRings (p : Nat) (d : Dev) : Dev :=
  [0, 1, 2].foldl (fun x r => stopRing (ringKey p r) x) (if p = 0 then stopRing 3 d else d)

/-- The effects of a VF function-level reset at a boundary, but for the rings (R38). -/
def flush (p : Nat) (q : NT32) (d : Dev) : Dev :=
  let live := (slotsOf p d).filter fun e => decide (e.2.st ≠ .quiesce)
  unloadAll p (dropFlows (fun f => decide (hPart (fHandle f) = p)) (live.foldl (fun x e => releaseSlot e.1 q x) d))

/-! ### Partition life (R283) -/

/-- PART_STATE. -/
def partState (p : Nat) (d : Dev) : Nat := fld (rg (kPart p oPART_STATE) d) 1 0
/-- Move a partition to a state, raising STATE (R283, R299). -/
def setPart (p st : Nat) (d : Dev) : Dev :=
  if partState p d = st then d else raisePart p 2 (setRgN (kPart p oPART_STATE) st d)
/-- Is the device in a state before SERVICE (R442)? -/
def beforeService (d : Dev) : Bool :=
  decide (d.pwr.st = .cold ∨ d.pwr.st = .boot ∨ d.pwr.st = .timeAcquire ∨ d.pwr.st = .ready)

/-- Open a partition at once (R283). -/
def openPart (p : Nat) (d : Dev) : Dev :=
  setPart p 1 (setRg (kPart p oPART_CTRL) (rg (kPart p oPART_CTRL) d ||| 1) d)
/-- Begin closing a partition: the effects of R38 follow at the next boundary (R283). -/
def closePart (p : Nat) (d : Dev) : Dev :=
  let d1 := setRg (kPart p oPART_CTRL) (rg (kPart p oPART_CTRL) d &&& ~~~1) d
  if partState p d = 1 then setPart p 2 { d1 with closing := d1.closing ++ [p] } else d1

/-- A write of PART_CTRL (R283, R300, R340). -/
def partCtrl (p : Nat) (v : W32) (d : Dev) : Dev :=
  let addr := kPart p oPART_CTRL
  let keep (x : Dev) : Dev := setRg addr (BitVec.ofNat 64 (2 * b2n (bit v 1)) ||| (rg addr x &&& 1)) x
  if 1024 ≤ p then reject 0 .reserved 0 addr 4 d
  else if bit v 0 ∧ (beforeService d ∨ partState p d = 2) then reject 0 .busy 0 addr 4 d
  else notStandby 0 addr 4 (fun x =>
    if bit v 0 then forward (.partState p true) (openPart p (keep x)) else forward (.partState p false) (closePart p (keep x))) d

/-- The last effect of closing completes: CLOSED (R283). -/
def partClosed (p : Nat) (d : Dev) : Dev :=
  if partState p d = 2 ∧ !d.closing.contains p then setPart p 0 d else d

/-! ### Quotas and windows (R284 to R286) -/

/-- The fields of a quota register with their device totals (R284, R300). -/
def quotaFields (off : Nat) (d : Dev) : List (Nat × Nat × Nat) :=
  if off = oPART_Q_CHANNELS then [(14, 0, 16384)]
  else if off = oPART_Q_FLOWS then [(15, 0, 32768)]
  else if off = oPART_Q_CYCLES then [(26, 0, 89600000)]
  else if off = oPART_Q_BASIN then [(15, 0, 40960)]
  else if off = oPART_Q_DRAM then [(16, 0, dramTotal d)]
  else if off = oPART_Q_TENANT then [(26, 16, 1024), (11, 0, 3072)]
  else if off = oPART_Q_REC then [(31, 24, 256), (15, 0, 32768)]
  else []

/-- May a quota register take a value: each field within the device total, and so is the sum over all partitions (R285)? -/
def quotaOk (p off : Nat) (v : W32) (d : Dev) : Bool :=
  (quotaFields off d).all fun f =>
    let n := fld v f.1 f.2.1
    decide (n ≤ f.2.2) && decide (n + sumField off f.1 f.2.1 (0x200 + p) d ≤ f.2.2)

/-- A write of a quota register (R285): RWL, forwarded to a standby, and told to the tenant. -/
def quotaSet (p off : Nat) (v : W32) (d : Dev) : Dev :=
  let addr := kPart p off
  if 1024 ≤ p ∨ quotaFields off d = [] then reject 0 .reserved 0 addr 4 d
  else unlocked (0x200 + p) off 4 (notStandby 0 addr 4 fun x =>
    if quotaOk p off v x then forward (.quota p off v) (raisePart p 1 (storeReg (0x200 + p) off v x))
    else reject 0 .range 0 addr 4 x) d

/-- Is a window's value valid (R286)? -/
def windowValid (s e : Nat) : Bool :=
  (decide (s = 0) && decide (e = 0)) || (decide (40 ≤ s) && decide (s < e) && decide (e ≤ 990))
/-- Does a window overlap another partition's non-empty window on the port? -/
def windowOverlaps (p port s e : Nat) (d : Dev) : Bool :=
  d.regs.any fun r => decide (r.1 % 0x1000 = oPART_EGR + 4 * port) && decide (0x200 ≤ r.1 / 0x1000)
    && decide (r.1 / 0x1000 < 0x600) && decide (r.1 / 0x1000 ≠ 0x200 + p)
    && decide (s < fld r.2 25 16) && decide (fld r.2 9 0 < e)
/-- Would a window shut out the EGR_OFFSET of an ACTIVE leg on the port? -/
def windowExcludes (p port s e : Nat) (d : Dev) : Bool :=
  (slotsOf p d).any fun k => decide (k.2.st = .active) && [0, 1].any fun leg =>
    isRtp k.2.desc leg && decide ((if mode1 d then 0 else legPort k.2.desc leg) = port)
      && !(decide (s * 1000 ≤ egrOffset k.2.desc leg) && decide (egrOffset k.2.desc leg < e * 1000))

/-- A write of an egress window (R285, R286). -/
def windowSet (p port : Nat) (v : W32) (d : Dev) : Dev :=
  let off := oPART_EGR + 4 * port
  let addr := kPart p off
  let s := fld v 9 0
  let e := fld v 25 16
  if 1024 ≤ p ∨ 4 ≤ port then reject 0 .reserved 0 addr 4 d
  else unlocked (0x200 + p) off 4 (notStandby 0 addr 4 fun x =>
    if !windowValid s e || windowOverlaps p port s e x then reject 0 .range 0 addr 4 x
    else if windowExcludes p port s e x then reject 0 .busy 0 addr 4 x
    else forward (.quota p off v) (raisePart p 1 (storeReg (0x200 + p) off v x))) d

/-! ### Tenant programs (R294 to R297) -/

/-- Key of a PRG register of a partition's window. -/
def kPrg (p off : Nat) : Nat := kWin p 4 off
/-- Key of a program in the table. -/
def progKey (p id : Nat) : Nat := p * 65536 + id
/-- Is an operation of the window in progress (R294)? -/
def prgBusy (p : Nat) (d : Dev) : Bool := bit (rg (kPrg p oPRG_STATUS) d) 31
/-- State code of a program: 0 absent, 1 loading, 2 loaded. -/
def prgState (p id : Nat) (d : Dev) : Nat :=
  if (prog p id d).loaded then 2 else if d.load.any (fun l => decide (l.part = p) && decide (l.id = id)) then 1 else 0
/-- PRG_USE: channels whose in-force or pending descriptor names the program (R294). -/
def prgUse (p id : Nat) (d : Dev) : Nat :=
  ((slotsOf p d).filter fun e => e.2.live && e.2.descs.any fun l => progOn l && decide (progId l = id)).length
/-- PRG_LOADED. -/
def prgLoaded (p : Nat) (d : Dev) : Nat := ((progsOf p d).filter (·.2.loaded)).length

/-- An operation of the window completes with a result: STATE, RESULT, DONE (R294, R299). -/
def prgResult (p id r : Nat) (d : Dev) : Dev :=
  let d1 := setRgN (kPrg p oPRG_STATUS) (prgState p id d * 65536 + r) d
  if vfExists d p then raise (vfPage p 4) 1 d1 else d1

/-- DRAM pages of an image of `len` words (R288). -/
def imagePages (len : Nat) : Nat := ceilDiv (8 * len) 4096

/-- The refusals of LOAD's first step (R295, R296), in its order; 0 when it may go on. -/
def loadRefusal (p id len code : Nat) (d : Dev) : Nat :=
  let i := ceilDiv len 1024
  let q := rg (kPart p oPART_Q_TENANT) d
  let held := progsOf p d
  if prgState p id d ≠ 0 then 3
  else if id = 0 ∨ !within len 1 2048 ∨ !within code 1 len then 5
  else if partState p d ≠ 1 ∨ fld q 26 16 < held.length + 1 ∨ fld q 11 0 < tgranHeld p d + i ∨ 3072 < tgranUsed d + i
    ∨ rgN (kPart p oPART_Q_DRAM) d < ceilDiv (pagesHeld p d + imagePages len) 256
    ∨ dramTotal d * 256 < pagesUsed d + imagePages len then 2
  else 0

/-- Reserve a program's granules and pages and begin to read its image (R289, R295). -/
def loadBegin (p id len code : Nat) (src : W64) (crc : W32) (d : Dev) : Dev :=
  let g := lowestFree (ceilDiv len 1024) 3072 (tenantTaken d)
  let d1 := { d with
    load := d.load ++ [⟨p, id, len, code, src, crc⟩]
    progs := tabSet (fun _ => Prog.reset) d.progs (progKey p id) ⟨false, [], code, g, imagePages len, false⟩ }
  out (.hostRead (ridPart d p) src.toNat (8 * len)) d1

/-- PRG_OP LOAD (R295, R340). -/
def prgLoadOp (fn part : Nat) (d : Dev) : Dev :=
  let p := winPart fn part
  let addr := winAddr fn part 4 oPRG_OP
  if prgBusy p d then reject fn .busy 0 addr 4 d
  else notStandby fn addr 4 (fun x =>
    let id := fld (rg (kPrg p oPRG_ID) x) 15 0
    let len := fld (rg (kPrg p oPRG_LEN) x) 11 0
    let code := fld (rg (kPrg p oPRG_LEN) x) 27 16
    let r := loadRefusal p id len code x
    if r ≠ 0 then prgResult p id r x
    else
      let y := loadBegin p id len code (rg (kPrg p oPRG_SRC) x) ((rg (kPrg p oPRG_CRC) x).extractLsb' 0 32) x
      setRgN (kPrg p oPRG_STATUS) (0x80000000 + 0x10000) y) d

/-- The image has been read: CRC, validation, and the program becomes loaded, or its resources are freed (R295, R296). On an
active twin the LOAD is forwarded and reported at its OP_ACK (R297). -/
def prgLoadDone (p id : Nat) (image : List Word) (crcOk dmaOk : Bool) (d : Dev) : Dev :=
  match d.load.find? fun l => decide (l.part = p) && decide (l.id = id) with
  | none => d
  | some l =>
    let d1 := { d with load := d.load.filter fun x => !(decide (x.part = p) && decide (x.id = id)) }
    let img := (image ++ List.replicate l.len 0).take l.len
    let fail (r : Nat) (x : Dev) : Dev := prgResult p id r (unload (progKey p id) x)
    if !dmaOk then fail 8 d1
    else if !crcOk then fail 6 d1
    else match validateImage l.code img with
      | some i => fail 4 (setRgN (kPrg p oPRG_FAIL_AT) i d1)
      | none =>
        let d2 := installProg p id l.code img (prog p id d1).granules (imagePages l.len) d1
        if paired d2 then forward (.prgLoad p id l.code img) d2 else prgResult p id 0 d2

/-- PRG_OP UNLOAD (R295, R296). -/
def prgUnloadOp (fn part : Nat) (d : Dev) : Dev :=
  let p := winPart fn part
  let addr := winAddr fn part 4 oPRG_OP
  if prgBusy p d then reject fn .busy 0 addr 4 d
  else notStandby fn addr 4 (fun x =>
    let id := fld (rg (kPrg p oPRG_ID) x) 15 0
    if !(prog p id x).loaded then prgResult p id 1 x
    else if prgUse p id x ≠ 0 then prgResult p id 7 x
    else
      let y := unload (progKey p id) x
      if paired x then forward (.prgUnload p id) (setRgN (kPrg p oPRG_STATUS) 0x80000000 y) else prgResult p id 0 y) d

/-- PRG_OP QUERY (R295, R296). -/
def prgQueryOp (fn part : Nat) (d : Dev) : Dev :=
  let p := winPart fn part
  if prgBusy p d then reject fn .busy 0 (winAddr fn part 4 oPRG_OP) 4 d
  else
    let id := fld (rg (kPrg p oPRG_ID) d) 15 0
    prgResult p id (if prgState p id d = 0 then 1 else 0) d

/-- An image granule is restored from its DRAM copy (R297): the waiting tokens' program slots fill. A copy that reads
uncorrectable leaves the program not resident (R125). -/
def restoreImage (p id : Nat) (ue : Option W64) (d : Dev) : Dev :=
  if !(prog p id d).restoring then d
  else match ue with
    | some a => dramUe a.toNat d
    | none =>
      let d1 := putImage p id { d with progs := tabMod (fun _ => Prog.reset) d.progs (progKey p id) fun x => { x with restoring := false } }
      (slotsOf p d1).foldl (fun x e =>
        if progOn e.2.desc && decide (progId e.2.desc = id) then
          fireOne false (handleOf e.1 x) (modTokens (fun t => !t.bus && decide (t.handle = handleOf e.1 x))
            (fun t => { t with fillProg := true }) x)
        else x) d1

/-! ### The commands -/

/-- QUIESCE_END (R165). -/
def execQuiesceEnd (k : Nat) : State → Host.Outcome State Fault Refusal := onDev (quiesceEnds k)
/-- PARTITION_OPEN (R283): a write of PART_CTRL with OPEN = 1. -/
def execPartitionOpen (p : Nat) (v : W32) : State → Host.Outcome State Fault Refusal := onDev (fromHost 0 (partCtrl p (v ||| 1)))
/-- PARTITION_CLOSE (R283): a write of PART_CTRL with OPEN = 0. -/
def execPartitionClose (p : Nat) (v : W32) : State → Host.Outcome State Fault Refusal := onDev (fromHost 0 (partCtrl p (v &&& ~~~1)))
/-- PARTITION_CLOSED (R283). -/
def execPartitionClosed (p : Nat) : State → Host.Outcome State Fault Refusal := onDev (partClosed p)
/-- QUOTA_WRITE (R285). -/
def execQuotaWrite (p off : Nat) (v : W32) : State → Host.Outcome State Fault Refusal := onDev (fromHost 0 (quotaSet p off v))
/-- EGRESS_WINDOW_WRITE (R286). -/
def execEgressWindowWrite (p port : Nat) (v : W32) : State → Host.Outcome State Fault Refusal :=
  onDev (fromHost 0 (windowSet p port v))
/-- PRG_LOAD (R295). -/
def execPrgLoad (fn part : Nat) : State → Host.Outcome State Fault Refusal := onDev (fromWindow fn part 4 oPRG_OP (prgLoadOp fn part))
/-- PRG_LOAD_COMPLETE (R295). -/
def execPrgLoadComplete (part id : Nat) (image : List Word) (crcOk dmaOk : Bool) : State → Host.Outcome State Fault Refusal :=
  onDev (prgLoadDone part id image crcOk dmaOk)
/-- PRG_UNLOAD (R295). -/
def execPrgUnload (fn part : Nat) : State → Host.Outcome State Fault Refusal := onDev (fromWindow fn part 4 oPRG_OP (prgUnloadOp fn part))
/-- PRG_QUERY (R295). -/
def execPrgQuery (fn part : Nat) : State → Host.Outcome State Fault Refusal := onDev (fromWindow fn part 4 oPRG_OP (prgQueryOp fn part))
/-- IMAGE_RESTORE (R297). -/
def execImageRestore (part id : Nat) (ue : Option W64) : State → Host.Outcome State Fault Refusal := onDev (restoreImage part id ue)

end Sys2Proof.Machine
end

