-- ==== Sys2Proof/Machine/Service.lean ====
section
/-! DEFINITION. From time acquisition to SERVICE: seeding the Weir, READY, and opening partitions (rules R81, R104, R283, R397, R438,
R442). -/
namespace Sys2Proof.Machine

/-- Seed WEIR_NEXT_P with the next integer millisecond of NT64 (R104, R438). -/
def seedWeir (d : Dev) : Dev :=
  let q : NT32 := BitVec.ofNat 32 ((now64 d).toNat / 1000000 * 1000000 + 1000000)
  modWeir (fun w => { w with seeded := true, nextP := q, lastP := q - 1000000 }) d

/-- Enter SERVICE (R283, R302, R333, R438): partition 0 and those CONFIG names open. -/
def enterService (d : Dev) : Dev :=
  let d1 := driveAct (setDevSt .service d)
  (0 :: d.pwr.parts).foldl (fun x p => openPart p x) d1

/-- Enter READY, and SERVICE at once with AUTO_SERVICE (R442). -/
def enterReady (d : Dev) : Dev :=
  let d1 := setDevSt .ready (seedWeir d)
  if bit (rg rPWR_CFG d1) 0 then enterService d1 else d1

/-- The first LOCKED ends TIME_ACQUIRE (R81, R442). -/
def acquireDone (d : Dev) : Dev :=
  if d.pwr.st = .timeAcquire ∧ d.tb.servo = .locked then enterReady d else d

/-- The device leaves DORMANT (R328, R444): the wake source is recorded, the Basin is zeroed, and READY follows at once with the
servo LOCKED, otherwise time is acquired again. -/
def wakeUp (src : Nat) (d : Dev) : Dev :=
  if d.pwr.st ≠ .dormant then d
  else
    let d1 := raise 2 7 (setRgN rPWR_WAKE_SRC src { d with basin := [], poison := [] })
    if d1.tb.servo = .locked then enterReady d1 else setDevSt .timeAcquire d1

/-- A step accepted on a paired active applies at the tick 20 µs after the write, named in STEP (R345). -/
def nameStep (d : Dev) : Dev :=
  match d.tb.step with
  | some ⟨s, none⟩ =>
    if paired d then
      let t := now d + 20000
      tell 8 [(BitVec.ofInt 64 s).toNat, t.toNat] (modTwin (fun w => { w with step := some ⟨s, t, false⟩ }) (holdStep s (some t) d))
    else d
  | _ => d

/-- What follows any change the servo makes: a step is named to the twin, a first LOCKED leaves TIME_ACQUIRE, a worker's JOINED. -/
def afterServo (d : Dev) : Dev := acquireDone (cluJoined (nameStep d))

end Sys2Proof.Machine
end

