-- ==== Sys2Proof/Machine/PacketRx.lean ====
section
/-! DEFINITION. The receive path: stage 1 of a media port, the Classifier, the policers, SRTP, and the jitter buffer's ring write
(rules R145 to R173, R181, R207, R208, R291, R305 to R307, R328). -/
namespace Sys2Proof.Machine

/-! ### Bindings (R151, R182) -/

/-- Binding `i`. -/
def binding (i : Nat) (d : Dev) : Binding := tabGet (fun _ => ⟨0, 0, []⟩) d.path.binds i
/-- Is the binding in force? -/
def Binding.valid (b : Binding) : Bool := bit b.ctrl 31
/-- Partition of a binding. -/
def Binding.part (b : Binding) : Nat := fld b.ctrl 25 16
/-- Address width of a binding's family. -/
def Binding.width (b : Binding) : Nat := if bit b.ctrl 30 then 128 else 32
/-- Four words as an address, the first highest; an IPv4 address lies in the last (R153, R182). -/
def addrOf (w0 w1 w2 w3 : W32) : BitVec 128 := w0 ++ w1 ++ w2 ++ w3
/-- The prefix of a binding as an address. -/
def Binding.addr (b : Binding) : BitVec 128 := addrOf (b.ip.getD 0 0) (b.ip.getD 1 0) (b.ip.getD 2 0) (b.ip.getD 3 0)
/-- Do two addresses of `w` bits agree in their first `n` bits? -/
def samePrefix (w n : Nat) (a b : BitVec 128) : Bool := decide (a.toNat % 2 ^ w / 2 ^ (w - n) = b.toNat % 2 ^ w / 2 ^ (w - n))
/-- Does a binding hold an address? -/
def Binding.holdsAddr (b : Binding) (v6 : Bool) (a : BitVec 128) : Bool :=
  b.valid && (bit b.ctrl 30 == v6) && samePrefix b.width (fld b.ctrl 7 0) b.addr a
/-- Does a binding hold an address and a UDP port? -/
def Binding.holds (b : Binding) (v6 : Bool) (a : BitVec 128) (p : Nat) : Bool :=
  b.holdsAddr v6 a && decide (fld b.ports 15 0 ≤ p) && decide (p ≤ fld b.ports 31 16)
/-- Do two bindings overlap? -/
def Binding.overlaps (a b : Binding) : Bool :=
  (bit a.ctrl 30 == bit b.ctrl 30) && samePrefix a.width (min (fld a.ctrl 7 0) (fld b.ctrl 7 0)) a.addr b.addr
    && decide (fld a.ports 15 0 ≤ fld b.ports 31 16) && decide (fld b.ports 15 0 ≤ fld a.ports 31 16)

/-- The partition that owns a destination address and UDP port (R149). -/
def ownerOf (v6 : Bool) (a : BitVec 128) (p : Nat) (d : Dev) : Option Nat :=
  (d.path.binds.find? fun e => e.2.holds v6 a p).map fun e => e.2.part
/-- The partition that owns a destination address of a frame with no UDP port. -/
def ownerAddr (v6 : Bool) (a : BitVec 128) (d : Dev) : Option Nat :=
  (d.path.binds.find? fun e => e.2.holdsAddr v6 a).map fun e => e.2.part

/-! ### The flow table (R152 to R154) -/

/-- Remote address of an entry's words. -/
def fRemote (f : Flow) : BitVec 128 := addrOf (fw f 4) (fw f 5) (fw f 6) (fw f 7)
/-- Local address of an entry's words. -/
def fLocal (f : Flow) : BitVec 128 := addrOf (fw f 8) (fw f 9) (fw f 10) (fw f 11)
/-- Local UDP port of an entry. -/
def fLocalPort (f : Flow) : Nat := fld (fw f 3) 15 0
/-- Remote UDP port of an entry. -/
def fRemotePort (f : Flow) : Nat := fld (fw f 3) 31 16

/-- Do a frame's VLAN IDs equal the entry's? With TAGS = 0 any tags match (R154). -/
def vlanOk (f : Flow) (tags : List VTag) : Bool :=
  match fld (fw f 0) 9 8 with
  | 0 => true
  | 1 => decide (tags.map (fun t => t.vid.toNat) = [fld (fw f 12) 27 16])
  | _ => decide (tags.map (fun t => t.vid.toNat) = [fld (fw f 12) 27 16, fld (fw f 12) 11 0])

/-- Does an entry match a packet's local side? -/
def localMatch (f : Flow) (x : IpPkt) (tags : List VTag) : Bool :=
  f.held && bit (fw f 0) 1 && (bit (fw f 0) 0 == x.v6) && decide (fLocal f = x.dst) && decide (fLocalPort f = x.dport.toNat)
    && vlanOk f tags

/-- The entry of a packet: a five-tuple match wins over a DST_ONLY match (R154). -/
def lookupFlow (x : IpPkt) (tags : List VTag) (d : Dev) : Option Nat :=
  let five := d.path.flows.find? fun e => localMatch e.2 x tags && !bit (fw e.2 0) 2 && decide (fRemote e.2 = x.src)
    && decide (fRemotePort e.2 = x.sport.toNat)
  match five with
  | some e => some e.1
  | none => (d.path.flows.find? fun e => localMatch e.2 x tags && bit (fw e.2 0) 2).map (·.1)

/-! ### Parsing (R147 to R149) -/

/-- What parsing and lookup decide: a header fault, an exception with its reason and owner, or a flow. -/
inductive Verdict where
  | bad
  | exc (reason owner : Nat)
  | flow (i : Nat)
  deriving DecidableEq, Repr

/-- Are a frame's tags those the parser accepts (R147)? -/
def tagsOk (tags : List VTag) : Bool :=
  match tags with
  | [] => true
  | [t] => decide (t.tpid = 0x8100 ∨ t.tpid = 0x88A8)
  | o :: i :: _ => decide (o.tpid = 0x8100 ∨ o.tpid = 0x88A8) && decide (i.tpid = 0x8100)

/-- Stages 2 and 3 for a frame of the classifier path (R147 to R149, R154). -/
def classify (f : RxFrame) (d : Dev) : Verdict :=
  match f.ip with
  | none => .exc (if 2 < f.tags.length then 9 else 1) 0
  | some x =>
    let udpOwner := ownerOf x.v6 x.dst x.dport.toNat d
    let owner := if x.udp && !x.options && !x.fragment then udpOwner else ownerAddr x.v6 x.dst d
    if 2 < f.tags.length then .exc 9 (owner.getD 0)
    else if !tagsOk f.tags then .exc 1 0
    else if x.sumBad || x.lenBad then .bad
    else if x.options then .exc 4 (owner.getD 0)
    else if x.fragment then .exc 3 (owner.getD 0)
    else if !x.udp then (match owner with | some p => .exc 5 p | none => .exc 1 0)
    else if x.udpSumBad || (x.v6 && x.udpSumZero) then .bad
    else match owner with
      | none => .exc 1 0
      | some p => match lookupFlow x f.tags d with | some i => .flow i | none => .exc 2 p

/-- Is the packet RTCP: by the flow's flag, or by the second byte on a leg with RTCP_MUX (R147)? -/
def isRtcp (f : Flow) (l : List W32) (leg : Nat) (r : RtpPkt) : Bool :=
  bit (fw f 0) 3 || (bit (lw l leg 0) 8 && r.marker && decide (64 ≤ r.pt) && decide (r.pt ≤ 95))

/-- Does the leg accept a payload type (R149, R195)? A leg that is not RTP accepts none. -/
def ptOk (l : List W32) (leg pt : Nat) : Bool :=
  isRtp l leg && (decide (pt = rxPt l leg) || (decide (evtPt l leg ≠ 0) && decide (pt = evtPt l leg))
    || (bit (codecWord l leg) 30 && decide (pt = 13)))

/-! ### Policers (R158) -/

/-- Tokens of a bucket of rate `rate` per second and depth `depth`, both in whole units, after `ns` (10⁻⁹ units). -/
def refill (rate depth tok ns : Nat) : Nat := min (depth * 1000000000) (tok + rate * ns)

/-- The flow's bucket now. -/
def flowTokens (f : Flow) (t : W64) : Nat := refill (fld (fw f 14) 31 16) (fld (fw f 15) 7 0) f.tok (t - f.tokAt).toNat
/-- A partition's policer. -/
def policer (p : Nat) (d : Dev) : Policer := tabGet (fun _ => ⟨0, 0, 0, 0, 0, 0⟩) d.path.pols p
/-- Set a partition's policer. -/
def setPolicer (p : Nat) (x : Policer) (d : Dev) : Dev :=
  { d with path := { d.path with pols := tabSet (fun _ => ⟨0, 0, 0, 0, 0, 0⟩) d.path.pols p x } }
/-- The packet bucket of a partition now. -/
def packetTokens (x : Policer) (t : W64) : Nat := refill x.pkt.toNat (fld x.burst 15 0) x.tokP (t - x.at_).toNat
/-- The byte bucket of a partition now: the rate is in 64 kbit/s, the depth in KiB (R184). -/
def byteTokens (x : Policer) (t : W64) : Nat := refill (x.byte.toNat * 8000) (fld x.burst 31 16 * 1024) x.tokB (t - x.at_).toNat

/-- Take a frame of `n` bytes against its flow's and partition's buckets: 0 admitted, 1 dropped by the flow policer, 2 by the
partition policer. A dropped frame takes no token. -/
def police (p : Nat) (fi : Option Nat) (n : Nat) (d : Dev) : Nat × Dev :=
  let t := now64 d
  let x := policer p d
  let pk := packetTokens x t
  let by_ := byteTokens x t
  let pOk := (decide (x.pkt = 0) || decide (1000000000 ≤ pk)) && (decide (x.byte = 0) || decide (n * 1000000000 ≤ by_))
  let fOk := match fi with
    | some i => decide (fld (fw (flow i d) 14) 31 16 = 0) || decide (1000000000 ≤ flowTokens (flow i d) t)
    | none => true
  if !fOk then (1, d)
  else if !pOk then (2, d)
  else
    let d1 := if x.pkt = 0 ∧ x.byte = 0 then d
      else setPolicer p { x with tokP := pk - 1000000000, tokB := by_ - n * 1000000000, at_ := t } d
    match fi with
    | some i =>
      if fld (fw (flow i d) 14) 31 16 = 0 then (0, d1)
      else (0, modFlow i (fun f => { f with tok := flowTokens f t - 1000000000, tokAt := t }) d1)
    | none => (0, d1)

/-- Count a policed frame (R158, R189, R298). -/
def policed (which p : Nat) (d : Dev) : Dev :=
  let d1 := if which = 1 then vcnt p 0x4C 1 (incRg rCLS_CNT_POL_FLOW d) else vcnt p 0x50 1 (incRg rCLS_CNT_POL_PART d)
  raisePartF p 10 0xB0 d1

/-! ### Exceptions (R149, R150) -/

/-- Deliver an exception frame to its owner: the frame's copy first, then the record. `plain` is the whole frame with its SRTCP plaintext. -/
def deliverExc (reason p : Nat) (f : RxFrame) (nt : NT32) (h : W32) (plain : Option (List Byte)) (d : Dev) : Dev :=
  let k := ringKey p 1
  let r := ring k d
  let ahead := if r.lost = 0 then 0 else 1
  let slotNo := (r.prod.toNat + ahead) % r.size
  let copy := (plain.getD f.head).take 2048
  let trunc := match plain with | some b => decide (2048 < b.length) | none => decide (2048 < f.len)
  let fl := b2n trunc + 2 * b2n plain.isSome
  let d1 := if r.enable && decide (ahead + 1 ≤ r.room)
    then out (.hostCopy (ridPart d p) (r.dataBase.toNat + 2048 * slotNo) copy) d else d
  let first := (List.range 44).map fun i => (20 + i, 1, (f.head.getD i 0).toNat)
  offer p 1 ⟨0x40, nt, h, body ([(12, 1, reason), (13, 1, f.port), (14, 2, f.len), (16, 1, fl)] ++ first)⟩ (vcnt p 0x48 1 d1)

/-- An exception frame: policed against its owner unless that is done, then dropped by CLS_EXC_DROP or delivered (R149). -/
def exception (reason p : Nat) (f : RxFrame) (nt : NT32) (h : W32) (plain : Option (List Byte)) (done : Bool) (d : Dev) : Dev :=
  let d0 := if reason = 1 then incRg rCLS_CNT_UNBOUND d else if reason = 2 then incRg rCLS_CNT_UNMATCHED d else d
  let r := if done then (0, d0) else police p none f.len d0
  if r.1 ≠ 0 then policed 2 p r.2
  else if bit (rg rCLS_EXC_DROP d) reason then incRg rCLS_CNT_EXC_DROP r.2
  else deliverExc reason p f nt h plain r.2

/-! ### SRTP (R159, R160) -/

/-- The receive key slot of a packet: by MKI when the leg's keys carry one, otherwise RX_KEY_SLOT (R160). -/
def rxKey (l : List W32) (k leg : Nat) (mki : W32) (d : Dev) : Option Nat :=
  let a := keyIdx k leg 0 0
  let b := keyIdx k leg 0 1
  let named := keyIdx k leg 0 (fld (lw l leg 0) 11 11)
  if (keyOf a d).mkiLen ≠ 0 ∨ (keyOf b d).mkiLen ≠ 0 then
    [a, b].find? fun i => (keyOf i d).loaded && decide ((keyOf i d).mki = mki)
  else if (keyOf named d).loaded then some named else none

/-- The packet index estimated from the sequence number and the held ROC (RFC 3711 section 3.3.1). -/
def estimate (key : Key) (sq : Nat) : Nat :=
  match key.top with
  | none => key.roc * 65536 + sq
  | some t =>
    let s := t % 65536
    let v := if s < 32768 then (if s + 32768 < sq then (key.roc + 2 ^ 32 - 1) % 2 ^ 32 else key.roc)
      else if sq + 32768 < s then (key.roc + 1) % 2 ^ 32 else key.roc
    v * 65536 + sq

/-- Is an index rejected by a replay window of 128 (R159, R160)? -/
def replayed (top : Option Nat) (seen : List Nat) (i : Nat) : Bool :=
  (match top with | some t => decide (i + 128 ≤ t) | none => false) || seen.contains i
/-- The window's highest index after an accepted packet. -/
def newTop (top : Option Nat) (i : Nat) : Nat := match top with | some t => max t i | none => i
/-- The indices seen after an accepted packet. -/
def newSeen (top : Option Nat) (seen : List Nat) (i : Nat) : List Nat :=
  i :: seen.filter fun j => decide (newTop top i < j + 128)

/-- Stage 6 (R160): the plaintext of a packet, or `none` where it is dropped and counted. -/
def unprotect (rtcp : Bool) (k leg : Nat) (r : RtpPkt) (d : Dev) : Option (List Byte) × Dev :=
  let l := descNow k d
  let p := (slot k d).part
  if legSuite l leg = 0 then (some r.payload, d)
  else match rxKey l k leg r.mki d with
    | none => (none, vcnt p 0x60 1 (incRg rCRY_CNT_NO_KEY d))
    | some ki =>
      let key := keyOf ki d
      let idx := if rtcp then r.srtcpIndex else estimate key r.seq.toNat
      let top := if rtcp then key.rtcpTop else key.top
      let seen := if rtcp then key.rtcpSeen else key.seen
      let word := if rtcp then 2 ^ 31 * b2n r.srtcpE + idx else idx
      let s := legSuite l leg
      if replayed top seen idx then (none, vcnt p 0x5C 1 (incRg rCRY_CNT_REPLAY d))
      else if tagOf s key rtcp r.ssrc word r.head r.payload ≠ fitBytes (tagLen s rtcp) r.tag then
        (none, raisePartF p 8 0xC0 (vcnt p 0x58 1 (incRg rCRY_CNT_AUTH_FAIL (cryptoLoad r.payload.length d))))
      else
        let d1 := modKey ki (fun x =>
          if rtcp then { x with rtcpTop := some (newTop top idx), rtcpSeen := newSeen top seen idx }
          else { x with top := some (newTop top idx), seen := newSeen top seen idx, roc := newTop top idx / 65536 })
          (cryptoLoad r.payload.length d)
        (some (if rtcp && !r.srtcpE then r.payload else crypt s key rtcp r.ssrc idx r.payload), d1)

/-! ### Stage 7 (R164, R166, R167, R208) -/

/-- The reception statistics of a leg (RFC 3550): highest sequence number and cycles, interarrival jitter in 1/16 units. -/
def rtpStats (g0 : Leg) (r : RtpPkt) (clock : Nat) (arr : W64) : Leg :=
  let g := if g0.rxCount = 0 ∨ g0.rxSsrc ≠ r.ssrc then
      { g0 with rxCount := 0, rxCycles := 0, rxHighest := r.seq, rxBase := r.seq, rxSsrc := r.ssrc, rxJitter := 0, expPrior := 0, rcvPrior := 0 }
    else g0
  let ahead := decide ((r.seq - g.rxHighest).toNat < 32768)
  let transit : Int := (BitVec.ofNat 32 (arr.toNat * clock / 1000000000) - r.ts).toInt
  let dev := if g.rxCount = 0 then 0 else (transit - g.rxTransit).natAbs
  { g with
    rxCount := g.rxCount + 1, rxTransit := transit, rxJitter := g.rxJitter + dev - (g.rxJitter + 8) / 16,
    rxCycles := if ahead && decide (r.seq.toNat < g.rxHighest.toNat) then g.rxCycles + 1 else g.rxCycles,
    rxHighest := if ahead then r.seq else g.rxHighest }

/-- An event among those received, in the order in which they play; of those recorded as ended only the last is kept. -/
def evtInsert (x : RxEvent) : List RxEvent → List RxEvent
  | [] => [x]
  | y :: t =>
    if (x.ts - y.ts).toInt < 0 then x :: y :: t
    else if y.done && !t.isEmpty then evtInsert x t else y :: evtInsert x t

/-- An RFC 4733 event packet (R208): events 0 to 15 are played or relayed by the jobs, the first packet of each being accepted by the window of
R167 (log entry 197) and later ones extending it; a code beyond is recorded once per activation, by the next job. -/
def eventRx (k leg : Nat) (r : RtpPkt) (b : List Byte) (arr : W64) (d : Dev) : Dev :=
  let l := descNow k d
  let code := (b.getD 0 0).toNat
  let fin := bit (b.getD 1 0) 7
  let vol := fld (b.getD 1 0) 5 0
  let dur := (b.getD 2 0).toNat * 256 + (b.getD 3 0).toNat
  let g := legOf k leg d
  if 16 ≤ code then
    if g.evtUnsup.contains code || g.evtNew.contains code then d else modLeg k leg (fun g => { g with evtNew := g.evtNew ++ [code] }) d
  else if g.evts.any fun x => decide (x.ts = r.ts) then
    modLeg k leg (fun g => { g with evts := g.evts.map fun x =>
      if x.ts = r.ts ∧ !x.fin ∧ !x.done then { x with dur := max x.dur dur, fin := fin } else x }) d
  else
    let d1 := firstAnchor k leg r.ts arr d
    let h : Held := ⟨r.seq, r.pt, r.marker, r.ts, arr, []⟩
    let dly := heldPlay h l leg (legOf k leg d1) - arr.toNat
    let take (x : Dev) : Dev := modLeg k leg (fun g => { g with
      heard := true, rejRun := 0, ovrRun := 0, evts := evtInsert ⟨code, vol, r.ts, dur, fin, false, false⟩ g.evts }) x
    let on (x : Bool × Dev) : Dev := if x.1 then take x.2 else x.2
    if !inWindow l leg (legOf k leg d1) dly then on (rejectPacket k leg r.ts arr d1)
    else if (jbMax l leg * 1000000 : Int) < dly then on (overrunPacket k leg h d1)
    else take d1

/-- The ingress bound B of R146 for a frame, ns. -/
def ingressBound (p len : Nat) (d : Dev) : Nat := max 800 (ceilDiv (len * 8) (bitsPerNs p d) + 718)

/-- A packet's identity for the twin (R336): a digest of its bytes. -/
def digestOf (f : RxFrame) : W64 := (Config.crc 1 f.head).zeroExtend 64

/-- Learn an SSRC (R166). -/
def learnSsrc (fi k leg : Nat) (ssrc : W32) (d : Dev) : Dev :=
  let f := flow fi d
  if fld (fw f 0) 5 4 = 2 ∧ !bit (fw f 0) 7 then
    jbRecord 0x35 k leg 0 ssrc.toNat (modFlow fi (fun f => { f with
      words := (f.words.set 0 (fw f 0 ||| 0x80)).set 2 ssrc }) d)
  else d

/-- The fraction of a packet's receive stamp, in 1/16 ns (R85). -/
def rxFrac (f : RxFrame) (d : Dev) : BitVec 4 := BitVec.ofInt 4 (rxStamp16 f.port f.stamp f.frac d)
/-- The SRTP index of a packet, or its RTP sequence number (R160, R336). -/
def rtpIndex (k leg : Nat) (r : RtpPkt) (d : Dev) : Nat :=
  let l := descNow k d
  if legSuite l leg = 0 then r.seq.toNat
  else match rxKey l k leg r.mki d with | some ki => estimate (keyOf ki d) r.seq.toNat | none => r.seq.toNat

/-- Stages 6 and 7 of an RTP packet of flow `fi`, received at NT64 `arr` with bound `b`: what is written is told to the standby. -/
def takeRtp (fi : Nat) (f : RxFrame) (r : RtpPkt) (arr : W64) (b : Nat) (d : Dev) : Dev :=
  let h := fHandle (flow fi d)
  let leg := fLeg (flow fi d)
  let k := hSlot h
  let l := descNow k d
  match unprotect false k leg r d with
  | (none, d1) => d1
  | (some plain, d1) =>
    let d2 := vcnt (hPart h) 0x40 1 (modLeg k leg (fun g => rtpStats g r (rtpClock l leg) arr) (learnSsrc fi k leg r.ssrc d1))
    let d3 := if evtPt l leg ≠ 0 ∧ r.pt = evtPt l leg then eventRx k leg r plain arr d2
      else jbAccept k leg ⟨r.seq, r.pt, r.marker, r.ts, arr, plain⟩ b d2
    if paired d then sendIngress ⟨h, leg, fi, rtpIndex k leg r d, arr.extractLsb' 0 32, rxFrac f d, digestOf f, some f, none⟩ d3 else d3

/-- Received RTCP (R164): after SRTCP it may teach the entry its SSRC (R166) and is an exception of its partition; a sender report is noted
for the next report. -/
def takeRtcp (fi : Nat) (f : RxFrame) (r : RtpPkt) (nt : NT32) (d : Dev) : Dev :=
  let h := fHandle (flow fi d)
  let leg := fLeg (flow fi d)
  let k := hSlot h
  match unprotect true k leg r d with
  | (none, d1) => d1
  | (some plain, d1) =>
    let mid : W32 := plain.getD 2 0 ++ plain.getD 3 0 ++ plain.getD 4 0 ++ plain.getD 5 0
    let d2 := learnSsrc fi k leg r.ssrc (if r.pt = 72 then modLeg k leg (fun g => { g with lsr := mid, lsrAt := nt }) d1 else d1)
    let off := 14 + 4 * f.tags.length + (match f.ip with | some x => if x.v6 then 40 else 20 | none => 20) + 16
    exception 7 (hPart h) f nt h (if legSuite (descNow k d) leg = 0 then none else some (f.head.take off ++ plain)) true d2

/-- Stages 4 and 5, then the rest, for a packet of flow `fi`. `own` is false where a twin's ingress record decides instead of the
policers (R181). -/
def takePacket (fi : Nat) (f : RxFrame) (arr : W64) (own : Bool) (d : Dev) : Dev :=
  let fe := flow fi d
  let h := fHandle fe
  let leg := fLeg fe
  let k := hSlot h
  let p := hPart h
  let l := descNow k d
  let nt : NT32 := arr.extractLsb' 0 32
  match f.ip with
  | none => d
  | some x =>
    let r := x.rtp
    let rtcp := isRtcp fe l leg r
    if r.version ≠ 2 || (!rtcp && !r.inHead) then exception 6 p f nt h none false d
    else if !rtcp && r.padBad then raiseF 0xB0 2 (macPage f.port) (incRg rCLS_CNT_BAD_HDR d)
    else if !rtcp && !ptOk l leg r.pt then exception 8 p f nt h none false d
    else
      let q := if own then police p (some fi) f.len d else (0, d)
      let m := fld (fw fe 0) 5 4
      if q.1 ≠ 0 then policed q.1 p q.2
      else if (m = 1 ∨ (m = 2 ∧ bit (fw fe 0) 7)) ∧ r.ssrc ≠ fw fe 2 then
        raisePartF p 9 0xB0 (vcnt p 0x54 1 (incRg rCLS_SSRC_MISMATCH q.2))
      else if rtcp then takeRtcp fi f r nt q.2
      else takeRtp fi f r arr (ingressBound f.port f.len d) q.2

/-- Stages 2 to 7 of a frame on its way through the Classifier (R145). -/
def classifier (f : RxFrame) (nt : NT32) (d : Dev) : Dev :=
  match classify f d with
  | .bad => raiseF 0xB0 2 (macPage f.port) (incRg rCLS_CNT_BAD_HDR d)
  | .exc reason p => exception reason p f nt 0 none false d
  | .flow i => takePacket i f (nt64Of d nt) true (incRg rCLS_CNT_MATCH d)

/-! ### Stage 1 (R305 to R307, R328) -/

/-- Is the frame PTP: EtherType 0x88F7, or UDP to port 319 or 320 (R86, R87)? -/
def isPtp (f : RxFrame) : Bool :=
  decide (f.etherType = 0x88F7) || (match f.ip with | some x => x.udp && decide (x.dport = 319 ∨ x.dport = 320) | none => false)
/-- Is the frame LLDP (R147)? -/
def isLldp (f : RxFrame) : Bool := decide (f.etherType = 0x88CC) && decide (f.dst = 0x0180C200000E)
/-- A PTP multicast address (R87), those of the IP transports as Ethernet carries them (log entry 210). -/
def ptpAddr (a : BitVec 48) : Bool :=
  [0x011B19000000, 0x0180C200000E, 0x01005E000181, 0x333300000181, 0x33330000006B].contains a

/-- Is the destination one the port accepts (R305)? -/
def addrOk (f : RxFrame) (d : Dev) : Bool :=
  let p := f.port
  decide (f.dst = (rg (kMac p 0 oMAC_ADDR) d).extractLsb' 0 48) || decide (f.dst = (rg (kMac p 0 oMAC_OWN_ADDR) d).extractLsb' 0 48)
    || decide (f.dst = BitVec.allOnes 48)
    || (port p d).mc.any (fun e => bit e.2 48 && decide (e.2.extractLsb' 0 48 = f.dst))
    || (ptpOn p d && ptpAddr f.dst) || isLldp f
    || bit (rg (kMac p 0 oMAC_CFG) d) 25

/-- The receive queue of a frame (R307). -/
def rxQueue (f : RxFrame) (d : Dev) : Nat :=
  let m := rg (kMac f.port 0 oMAC_RX_PRIMAP) d
  if isPtp f then 7 else if f.tags.isEmpty then fld m 26 24 else fld m (3 * (f.pcp % 8) + 2) (3 * (f.pcp % 8))

/-- The bytes of a frame that a wake pattern's mask selects, in ascending order, and one more than the highest of them. -/
def masked (k : Nat) (head : List Byte) (d : Dev) : List Byte × Nat :=
  let w (i : Nat) : W64 := rg (0x103 * 0x1000 + oMAC_WAKE_MASK + 0x20 * k + 4 * i) d
  let js := (List.range 128).filter fun j => bit (w (j / 32)) (j % 32)
  (js.map fun j => head.getD j 0, js.foldl (fun m j => max m (j + 1)) 0)

/-- The wake patterns a frame matches (R328): bit k for pattern k; `port` 4 is the management port. -/
def wakeMatch (portBit : Nat) (head : List Byte) (len : Nat) (d : Dev) : Nat :=
  (List.range 8).foldl (fun a k =>
    let c := rg (0x103 * 0x1000 + oMAC_WAKE_CTRL + 0x20 * k) d
    let m := masked k head d
    if bit c 31 && bit c (16 + portBit) && decide (m.2 ≤ len) && decide ((crc16 m.1).toNat = fld c 15 0) then a + 2 ^ k else a) 0

/-- Mark what a packet recovered by a fetch has added to the payloads that wait for their instant (R181, R188). -/
def markFetched (n : Nat) (d : Dev) : Dev :=
  { d with path := { d.path with visible := (d.path.visible.take n) ++ (d.path.visible.drop n).map fun v => { v with fetched := true } } }

/-- A TRUNK frame as it stands on the wire behind its Ethernet header (R420, R424). -/
def trunkBytes (t : TrunkFrame) : List Byte :=
  [0x13, BitVec.ofNat 8 t.hops] ++ bigEnd 3 (t.dst * 4096 + t.src) ++ bigEnd 2 t.part ++ bigEnd 1 (b2n t.last) ++ bigEnd 4 t.pass.toNat
    ++ bigEnd 4 t.launch.toNat ++ bigEnd 8 0
    ++ t.entries.flatMap fun z => bigEnd 4 z.remote.toNat ++ bigEnd 1 (z.leg % 2 + 2 * b2n z.conceal) ++ bigEnd 1 z.payload.length ++ z.payload
/-- Its identity for the twin (R336). -/
def trunkDigest (t : TrunkFrame) : W64 := (Config.crc 1 (trunkBytes t)).zeroExtend 64
/-- The entries of a TRUNK frame addressed to this device, received at `stamp` on a port (R426). -/
def takeTrunk (p : Nat) (stamp : NT32) (t : TrunkFrame) (d : Dev) : Dev :=
  t.entries.foldl (fun x e => trunkEntry p stamp (ingressBound p t.len d) t e x) d

/-- Serve ingress records in their order, while the payload of the oldest is there (R181, R338); `n` bounds the number. -/
def serveIngress : Nat → Dev → Dev
  | 0, d => d
  | n + 1, d =>
    match d.twin.ingress with
    | [] => d
    | (r, _) :: rest =>
      let d1 := modTwin (fun t => { t with ingress := rest }) d
      let arr (x : Dev) : W64 := nt64Of x r.stamp
      let served (y : Dev) : Dev := serveIngress n (if d.twin.fetched.contains r.digest then markFetched d.path.visible.length y else y)
      match r.trunk, r.frame with
      | some t, _ => served (takeTrunk r.flow r.stamp t d1)
      | none, some f => served (takePacket r.flow f (arr d1) false d1)
      | none, none =>
        match d.path.waiting.find? fun w => decide (w.digest = r.digest) with
        | some w => serveIngress n (takePacket r.flow w.frame (arr d1) false
            { d1 with path := { d1.path with waiting := d1.path.waiting.erase w } })
        | none =>
          match d.path.trunkIn.find? fun w => decide (w.digest = r.digest) with
          | some w => serveIngress n (takeTrunk w.port r.stamp w.frame
              { d1 with path := { d1.path with trunkIn := d1.path.trunkIn.erase w } })
          | none => d
/-- Serve what can be served. -/
def serveRecords (d : Dev) : Dev := serveIngress d.twin.ingress.length d

/-- A standby holds what it receives until its ingress record names it; what a fetch has served already is an orphan (R181, R338). -/
def holdUnless (digest : W64) (hold : Dev → Dev) (d : Dev) : Dev :=
  if d.twin.fetched.contains digest then
    incRg rJB_CNT_TWIN_ORPHAN (modTwin (fun t => { t with fetched := t.fetched.erase digest }) d)
  else serveRecords (hold d)
/-- A packet. -/
def holdPacket (f : RxFrame) (d : Dev) : Dev :=
  holdUnless (digestOf f) (fun x => { x with path := { x.path with waiting := x.path.waiting ++ [⟨f, now x, digestOf f⟩] } }) d
/-- A TRUNK frame (R428). -/
def holdTrunk (p : Nat) (stamp : NT32) (t : TrunkFrame) (d : Dev) : Dev :=
  holdUnless (trunkDigest t)
    (fun x => { x with path := { x.path with trunkIn := x.path.trunkIn ++ [⟨p, stamp, t, now x, trunkDigest t⟩] } }) d

/-- A frame past stage 1 (R145, R147, R181, R190, R328); PAUSE and PFC frames end there (R147, R308). -/
def pastStage1 (f : RxFrame) (d : Dev) : Dev :=
  if d.pwr.st = .dormant then
    let m := wakeMatch f.port f.head f.len d
    if m ≠ 0 then wakeUp m d else d
  else if !inService d ∨ f.etherType = 0x8808 then d
  else
    let d1 := incRg rCLS_CNT_RX d
    if (isPtp f && ptpOn f.port d) || isLldp f then d1
    else if f.etherType = 0x88B5 ∧ (f.tags.map fun t => t.vid.toNat) = [fld (rg rFAB_CFG d) 11 0] ∧ fabOn d then d1
    else if shadowing d then holdPacket f d1
    else classifier f (stampNt (rxStamp16 f.port f.stamp f.frac d)) d1

/-- A frame arrives at a media port (R145, R305 to R307). `held` and `shared` are the bytes already in its queue and in the shared
buffer. -/
def frameRx (f : RxFrame) (held shared : Nat) (d : Dev) : Dev :=
  let p := f.port
  let mx := fld (rg (kMac p 0 oMAC_CFG) d) 13 0
  let q := rxQueue f d
  let lim := fld (rg (kMac p 3 (oMAC_RXQ_LIMIT + 4 * q)) d) 6 0 * 1024
  let cnt (off : Nat) : Dev := macCount p (kMac p 1 off) 1 d
  if !portOn p d then d
  else if f.len < 64 then cnt 0x7C
  else if lim < held + mx ∨ 65536 < shared + mx then raiseF (macPage p) 3 (macPage p) (cnt (0xC0 + 4 * q))
  else if mx < f.len then cnt 0x80
  else if !f.fcsOk then cnt 0x74
  else if !f.aligned then cnt 0x78
  else if !addrOk f d then cnt 0x8C
  else pastStage1 f (countFrame p 1 f.len (addrType f.dst) (isPtp f) d)

/-- FRAME_RX (R145, R305 to R307). -/
def execFrameRx (f : RxFrame) (held shared : Nat) : State → Host.Outcome State Fault Refusal := onDev (frameRx f held shared)

end Sys2Proof.Machine
end

