-- ==== Sys2Proof/Machine/MacCmds.lean ====
section
/-! DEFINITION. The media ports' links, flow control, low-power idle, launch and operator transmit rings, the management port and the
board management bus (rules R303, R308 to R314, R319 to R325, R328, R421). -/
namespace Sys2Proof.Machine

/-- Is a media port enabled, whether or not its link is up (R43, R304)? -/
def portEnabled (p : Nat) (d : Dev) : Bool :=
  decide (p < 4) && bit (hdr (macPage p) d).ctrl 0 && (decide (p = 0) || !mode1 d)

/-! ### Flow control (R308) -/

/-- Stop or resume a transmit queue of a port. -/
def pauseQueue (p q quanta : Nat) (d : Dev) : Dev :=
  let key := kMac p 0 oMAC_PAUSE_STATE
  setRg key (setFld (rg key d) q q (b2n (decide (quanta ≠ 0))))
    (modPort p (fun x => { x with pause := tabSet (fun _ => 0) x.pause q quanta }) d)

/-- A PAUSE or PFC frame: counted; `mode` is the FC_MODE that honours it. -/
def flowControl (p mode : Nat) (qs : List (Nat × Nat)) (d : Dev) : Dev :=
  if !portOn p d then d
  else
    let c := rg (kMac p 0 oMAC_CFG) d
    let d1 := macCount p (kMac p 1 0x84) 1 d
    if bit c 22 then macCount p (kMac p 1 0x88) 1 d1
    else if fld c 23 23 ≠ mode then d1
    else sendCtl p (raise (macPage p) 4 (qs.foldl (fun x e => pauseQueue p e.1 e.2 x) d1))

/-- A queue's pause ends: what waited in it goes out (R308, R309). -/
def pauseEnds (p q : Nat) (d : Dev) : Dev := if p < 4 ∧ q < 8 then sendCtl p (pauseQueue p q 0 d) else d

/-! ### LLDP and low-power idle (R313, R314) -/

/-- The partner's EEE TLV in an LLDP frame. -/
def lldpRx (p : Nat) (tw : Option Nat) (d : Dev) : Dev :=
  match tw with
  | some t => if portOn p d then setRgN (kMac p 3 oMAC_EEE) (0x80000000 + t % 65536) d else d
  | none => d

/-- The device's LLDPDU on each enabled port whose link is up: a minimum-size frame in Q4 (R309, R313). -/
def lldpTx (d : Dev) : Dev :=
  ((List.range 4).filter fun p => portOn p d).foldl (fun x p =>
    queueCtl p ⟨4, 64, .lldp, p, [rgN (kMac p 0 oMAC_OWN_ADDR) x, 120, fld (rg (kMac p 3 oMAC_EEE) x) 15 0]⟩ x) d

/-- No partner TLV for 120 s. -/
def eeeExpires (p : Nat) (d : Dev) : Dev :=
  if p < 4 then leaveLpi p (setRg (kMac p 3 oMAC_EEE) (setFld (rg (kMac p 3 oMAC_EEE) d) 31 31 0) d) else d

/-- ns from now to the port's next scheduled instant, the head of Q6 (R310). -/
def nextScheduled (p : Nat) (d : Dev) : Option Int := ((port p d).q6.head?).map fun e => sdiff e.at_ (now d)
/-- TW_US of a port, in ns (R313). -/
def wakeNs (p : Nat) (d : Dev) : Nat := fld (rg (kMac p 3 oMAC_EEE) d) 15 0 * 1000

/-- The transmitter enters low-power idle when all conditions of R314 hold: nothing waits but scheduled frames far enough ahead. -/
def lpiEnter (p : Nat) (d : Dev) : Dev :=
  let cfg := rg (kMac p 3 oMAC_EEE_CFG) d
  let ahead := match nextScheduled p d with | none => true | some n => decide ((wakeNs p d + fld cfg 31 16 : Int) ≤ n)
  let idle := decide ((port p d).lastSent.toNat + fld cfg 15 0 ≤ (now64 d).toNat)
  if portOn p d && bit (rg (kMac p 0 oMAC_CFG) d) 24 && bit (rg (kMac p 3 oMAC_EEE) d) 31 && (port p d).ctl.isEmpty && ahead && idle
    && !bit (macStatus p d) 3
  then setMacStatus p ((macStatus p d).toNat + 8) d else d

/-- The transmitter begins to wake TW_US + 200 ns before the next scheduled instant (R22, R314): it is awake TW_US later. An unscheduled frame
wakes it when it enters its queue. -/
def lpiWake (p : Nat) (d : Dev) : Dev :=
  let due : Bool := match nextScheduled p d with | none => false | some n => decide (n ≤ (wakeNs p d + 200 : Int))
  if p < 4 ∧ bit (macStatus p d) 3 ∧ due then
    leaveLpi p (modPort p (fun x => { x with wakeAt := some (now64 d + BitVec.ofNat 64 (wakeNs p d)) }) d)
  else d

/-! ### Links (R303, R319, R421) -/

/-- Clause 73 resolves to a mode outside the table. -/
def anFails (p : Nat) (d : Dev) : Dev := if portEnabled p d then raise (macPage p) 6 d else d

/-- Is a resolved mode one of R303's table: 1 10GBASE-R without FEC, 2 25GBASE-R, 3 100GBASE-R over four lanes? -/
def modeListed (trained : Nat) (fec : Bool) (d : Dev) : Bool :=
  if mode1 d then decide (trained = 3) else decide (trained = 2) || (decide (trained = 1) && !fec)

/-- The link of an enabled port comes up as trained; a mode outside the table fails negotiation (R303). -/
def linkComesUp (p trained : Nat) (fec an : Bool) (d : Dev) : Dev :=
  if !portEnabled p d || linkUp p d then d
  else if !modeListed trained fec d then anFails p d
  else raise (macPage p) 1 (setMacStatus p (trained % 4 * 32 + 4 * b2n fec + 2 * b2n an + 1) d)

/-- The link of an enabled port is lost: UNIT_FAULT, its fabric neighbours are lost (R421), and what waits in its queues but Q6 is dropped and
counted (R317, R319). -/
def linkLost (p : Nat) (d : Dev) : Dev :=
  if !portEnabled p d || !linkUp p d then d
  else
    let n := (port p d).ctl.length
    let d0 := raise (macPage p) 0 (setMacStatus p 0 (modPort p (fun x => { x with ctl := [], wakeAt := none }) d))
    let d1 := if n = 0 then d0 else raiseF (macPage p) 8 (macPage p) (macCount p (kMac p 2 0x78) n d0)
    (d.fab.nbrs.filter fun n => decide (n.port = p)).foldl (fun x n => nbrLoss p n.addr x) d1

/-! ### Operator transmit rings (R311, R321) -/

/-- The page and offset of a transmit ring's PROD: port 4 is the management port. -/
def txrAddr (p : Nat) : Nat := if p = 4 then rMGMT_TXR_PROD else kMac p 3 oMAC_TXR_PROD

/-- A write of a transmit ring's PROD. -/
def txRingProd (p : Nat) (v : W32) (d : Dev) : Dev :=
  let r := ring (txRing p) d
  if 4 < p then reject 0 .reserved 0 (txrAddr p) 4 d
  else if p ≠ 0 ∧ p ≠ 4 ∧ mode1 d then reject 0 .busy 0 (txrAddr p) 4 d
  else if r.size < (v - r.cons).toNat then reject 0 .range 0 (txrAddr p) 4 d
  else modRing (txRing p) (fun r => { r with prod := v }) d

/-- The management port's counters in the order this model gives them (the spec gives their space alone): receive OCTETS, FRAMES,
SIZE0 to 6, UCAST, MCAST, BCAST, FCS, ALIGN, RUNT, JABBER, PAUSE, FILTERED, transmit OCTETS, FRAMES, UCAST, MCAST, BCAST, DOWN,
FANOUT_DROP, then COLL, EXCESS and LATE_COLL. -/
def mgmtCount (i n : Nat) (d : Dev) : Dev :=
  let key := rMGMT_CNT + 4 * i
  let was := rgN key d
  let d1 := addRg key n d
  if was / 2 ^ 31 % 2 ≠ rgN key d1 / 2 ^ 31 % 2 then raise 0x110 2 d1 else d1

/-- Is the management port enabled with its link up? -/
def mgmtOn (d : Dev) : Bool := bit (hdr 0x110 d).ctrl 0 && bit (rg rMGMT_STATUS d) 0
/-- Longest frame of the management port, which no register gives: that of MAC_CFG's reset. -/
def mgmtMax : Nat := 0x600

/-- Does a frame of an operator's ring still wait: behind the frames of higher queues, for its stopped queue to resume or for the guard (R308 to
R310), on the management port for its backoff (R321), or in DORMANT (R328)? -/
def operatorWaits (p len queue : Nat) (d : Dev) : Bool :=
  decide (d.pwr.st = .dormant) || if p = 4 then decide (d.mgmt.backoff ≠ 0)
  else ctlWaits p ⟨queue % 4, len + 4, .ptp, 0, []⟩ d || (match nextCtl p d with | some _ => true | none => false)

/-- Has the frame of the management port's ring been given up after a late collision or 16 collisions (R321)? -/
def givenUp (d : Dev) : Bool := decide (16 ≤ d.mgmt.attempts)

/-- A descriptor of a transmit ring is done: the frame went out, or is reported DROPPED. The kind of its address, which the command
does not name, is a free value. -/
def txDescDone (p len queue : Nat) (ts : Bool) (stamp : NT32) (d : Dev) : Dev :=
  let k := txRing p
  let r := ring k d
  let mx := if p = 4 then mgmtMax else fld (rg (kMac p 0 oMAC_CFG) d) 13 0
  let up := if p = 4 then mgmtOn d else portOn p d
  let lenOk := within len 60 (mx - 4)
  let lost := decide (p = 4) && givenUp d
  let ok := lenOk && up && !lost
  if 4 < p ∨ !r.enable ∨ r.prod = r.cons ∨ (ok ∧ operatorWaits p len queue d) then d
  else
    let at_ := r.base.toNat + 16 * (r.cons.toNat % r.size)
    let d1 := out (.hostRead (ridOf d 0) at_ 16) d
    let typ := Config.freeNat d.fresh % 3
    let d2 := if ok then
        (if p = 4 then mgmtCount (20 + typ) 1 (mgmtCount 19 1 (mgmtCount 18 (len + 4)
            (spend { d1 with mgmt := { d1.mgmt with attempts := 0, backoff := 0 } })))
         else countFrame p 2 (len + 4) typ false (onWire p (len + 4) (readyFor p d) (spend d1)))
      else if lost then { d1 with mgmt := { d1.mgmt with attempts := 0, backoff := 0 } }
      else if up || !lenOk then d1
      else if p = 4 then mgmtCount 23 1 d1
      else raiseF (macPage p) 8 (macPage p) (macCount p (kMac p 2 0x78) 1 d1)
    let status := if ok then 1 else 3
    let d3 := if ts && ok && decide (p < 4)
      then out (.hostWrite (ridOf d 0) (at_ + 11) 5 (status + 256 * (txStamp p stamp d).toNat)) d2
      else out (.hostWrite (ridOf d 0) (at_ + 11) 1 status) d2
    modRing k (fun r => { r with cons := r.cons + 1 }) d3

/-! ### The management port (R320 to R322, R328) -/

/-- A frame arrives at the management port. -/
def mgmtRx (f : RxFrame) (d : Dev) : Dev :=
  if !mgmtOn d then d
  else if f.len < 64 then mgmtCount 14 1 d
  else if mgmtMax < f.len then mgmtCount 15 1 d
  else if !f.fcsOk then mgmtCount 12 1 d
  else if !f.aligned then mgmtCount 13 1 d
  else if f.etherType = 0x8808 then mgmtCount 16 1 d
  else if !(decide (f.dst = (rg rMGMT_ADDR d).extractLsb' 0 48) || bit f.dst 40) then mgmtCount 17 1 d
  else
    let d1 := mgmtCount (9 + addrType f.dst) 1 (mgmtCount (2 + sizeBucket f.len) 1 (mgmtCount 1 1 (mgmtCount 0 f.len d)))
    if d.pwr.st = .dormant then
      let m := wakeMatch 4 f.head f.len d
      if m ≠ 0 then wakeUp m d1 else d1
    else
      let r := ring mgmtRing d1
      let ahead := if r.lost = 0 then 0 else 1
      let slotNo := (r.prod.toNat + ahead) % r.size
      let d2 := if r.enable && decide (ahead + 1 ≤ r.room)
        then out (.hostCopy (ridOf d 0) (r.dataBase.toNat + 2048 * slotNo) (f.head.take 2048)) d1 else d1
      let first := (List.range 44).map fun i => (20 + i, 1, (f.head.getD i 0).toNat)
      ringOffer mgmtRing ⟨0x62, now d, 0, body ([(14, 2, f.len), (16, 1, b2n (decide (2048 < f.len)))] ++ first)⟩ d2

/-- Does the management port transmit a frame of its ring in half duplex, where it may collide (R321)? -/
def mayCollide (d : Dev) : Bool :=
  let r := ring (txRing 4) d
  mgmtOn d && bit (rg rMGMT_STATUS d) 3 && r.enable && decide (r.prod ≠ r.cons) && decide (d.mgmt.backoff = 0) && !givenUp d
/-- The frame is given up: its descriptor reports DROPPED when it is done (R311, R321). -/
def giveUp (d : Dev) : Dev := { d with mgmt := { d.mgmt with attempts := 16, backoff := 0 } }

/-- A collision on the half-duplex management port: a backoff is drawn, or the frame is given up. -/
def collide (late : Bool) (d : Dev) : Dev :=
  if !mayCollide d then d
  else if late then raise 0x110 5 (mgmtCount 27 1 (giveUp d))
  else
    let n := d.mgmt.attempts + 1
    let d1 := mgmtCount 25 1 d
    if 16 ≤ n then raise 0x110 6 (mgmtCount 26 1 (giveUp d1))
    else spend { d1 with mgmt := { d1.mgmt with attempts := n, backoff := Config.freeNat d.fresh % 2 ^ min n 10 } }

/-- The backoff has run out: the frame is tried again. -/
def backoffEnds (d : Dev) : Dev := { d with mgmt := { d.mgmt with backoff := 0 } }

/-- A write of MGMT_MDIO: a Clause 22 or 45 frame begins. `op` 0 address, 1 write, 2 read. -/
def mdioStart (op : Nat) (v : W32) (d : Dev) : Dev :=
  if bit (rg rMGMT_MDIO d) 31 then reject 0 .busy 0 rMGMT_MDIO 4 d
  else
    let w : W32 := setFld (v ||| 0x80000000) 29 28 op
    out (.msg .mdio op [fld w 30 30, fld w 27 23, fld w 22 18, fld w 15 0])
      (setRgN rMGMT_MDIO w.toNat { d with mgmt := { d.mgmt with mdio := w } })

/-- The MDIO frame ends; a read returns its data. -/
def mdioEnds (data : BitVec 16) (d : Dev) : Dev :=
  let w := rg rMGMT_MDIO d
  if !bit w 31 then d
  else
    let w1 := setFld w 31 31 0
    setRg rMGMT_MDIO (if fld w 29 28 = 2 then setFld w1 15 0 data.toNat else w1) { d with mgmt := { d.mgmt with mdio := 0 } }

/-- The PHY's in-band status changes, unless MGMT_CFG forces speed and duplex (R320, R322). -/
def mgmtLink (up : Bool) (speed : Nat) (half : Bool) (d : Dev) : Dev :=
  let c := rg rMGMT_CFG d
  let sp := if bit c 4 then fld c 2 1 else speed % 4
  let hd := (if bit c 4 then bit c 3 else half) && decide (sp < 2)
  let was := bit (rg rMGMT_STATUS d) 0
  let d1 := setRgN rMGMT_STATUS (8 * b2n hd + 2 * sp + b2n up) d
  if was = up then d1 else raise 0x110 1 d1

/-! ### Board management bus (R323 to R325) -/

/-- Key of a BMB register of controller `c`. -/
def kBmb (c key : Nat) : Nat := key + 0x40 * c
/-- Does a controller sample its bus, or clock it free, after ENABLE or RETRY (R324)? -/
def recovering (c : Nat) (d : Dev) : Bool := d.mgmt.recovering.contains c
/-- A controller begins or ends the recovery of its bus (R324). -/
def setRecovering (c : Nat) (on : Bool) (d : Dev) : Dev :=
  let rest := d.mgmt.recovering.filter fun x => decide (x ≠ c)
  { d with mgmt := { d.mgmt with recovering := if on then c :: rest else rest } }
/-- Set BMB_STATc. -/
def setBmbStat (c n : Nat) (d : Dev) : Dev := setRgN (kBmb c rBMB_STAT) n d
/-- Release the cage select a command drove. -/
def deselect (c : Nat) (d : Dev) : Dev :=
  let v := tabGet (fun _ => (0 : W32)) d.mgmt.cmd c
  let d1 := { d with mgmt := { d.mgmt with cmd := tabSet (fun _ => 0) d.mgmt.cmd c 0 } }
  if c = 0 ∧ bit v 22 then out (.pin (.modSel (fld v 21 20)) true) d1 else d1

/-- A write of BMB_CMDc. -/
def bmbStart (c : Nat) (v : W32) (d : Dev) : Dev :=
  let addr := kBmb c rBMB_CMD
  let st := rg (kBmb c rBMB_STAT) d
  if 2 ≤ c then reject 0 .reserved 0 addr 4 d
  else if !within (fld v 15 8) 1 32 || (bit v 22 && mode1 d && decide (fld v 21 20 ≠ 0)) then reject 0 .range 0 addr 4 d
  else if bit st 0 || bit st 6 || bit st 4 || !bit (rg (kBmb c rBMB_CTRL) d) 0 || recovering c d then reject 0 .busy 0 addr 4 d
  else
    let w := v &&& 0x0073FFFF
    let d1 := setBmbStat c (fld st 11 8 * 256 + 1) { d with mgmt := { d.mgmt with cmd := tabSet (fun _ => 0) d.mgmt.cmd c w } }
    let d2 := if c = 0 ∧ bit v 22 then out (.pin (.modSel (fld v 21 20)) false) d1 else d1
    out (.msg .i2c c [w.toNat]) d2

/-- A write of BMB_CTRLc (R324, R325): ENABLE from 0 to 1, or RETRY of an unusable bus, begins its recovery; without ENABLE there is none. RETRY
clears itself. -/
def bmbCtrl (c : Nat) (w : W32) (d : Dev) : Dev :=
  let key := kBmb c rBMB_CTRL
  if fld w 2 1 = 3 then reject 0 .range 0 key 4 d
  else
    let begins := bit w 0 && (!bit (rg key d) 0 || (bit w 3 && bit (rg (kBmb c rBMB_STAT) d) 4))
    let d1 := storeReg 0x1B0 (key % 0x1000) (w &&& 7) d
    if begins then setRecovering c true d1 else if bit w 0 then d1 else setRecovering c false d1

/-- Bytes as 32-bit words, the first byte lowest. -/
def wordOfBytes (b : List Byte) (i : Nat) : Nat :=
  ((List.range 4).map fun j => (b.getD (4 * i + j) 0).toNat * 2 ^ (8 * j)).foldl (· + ·) 0

/-- A transaction ends: bytes moved, NACK, ARB_LOST, and the data read. -/
def bmbEnds (c n : Nat) (nack arb : Bool) (data : List Byte) (d : Dev) : Dev :=
  let st := rg (kBmb c rBMB_STAT) d
  let v := tabGet (fun _ => (0 : W32)) d.mgmt.cmd c
  if 2 ≤ c ∨ !bit st 0 then d
  else
    let d1 := setBmbStat c (min n 32 * 65536 + fld st 11 8 * 256 + 8 * b2n arb + 4 * b2n nack + 2) d
    let d2 := if bit v 7 then (List.range 8).foldl (fun x i =>
        if 4 * i < min n 32 then setRgN (kBmb c rBMB_DATA0 + 4 * i) (wordOfBytes (data.take (min n 32)) i) x else x) d1 else d1
    raise 0x1B0 (1 + c) (deselect c d2)

/-- The bus recovery that ENABLE or RETRY began ends (R324). -/
def busRecovered (c pulses : Nat) (free : Bool) (d : Dev) : Dev :=
  let st := rg (kBmb c rBMB_STAT) d
  if 2 ≤ c ∨ !recovering c d then d
  else
    let n := if free then min pulses 9 else 9
    let d1 := setRg (kBmb c rBMB_STAT) (setFld (setFld st 11 8 n) 4 4 (b2n (!free))) (setRecovering c false d)
    if free then d1 else raise 0x1B0 (3 + c) d1

/-- SCL held low for more than 35 ms: the transaction is aborted. -/
def sclStuck (c : Nat) (d : Dev) : Dev :=
  let st := rg (kBmb c rBMB_STAT) d
  if 2 ≤ c ∨ !bit st 0 then d
  else raise 0x1B0 (5 + c) (deselect c (setBmbStat c (fld st 11 8 * 256 + 32) d))

/-- MOD_ABS_N of a cage changes. -/
def modPresence (cage : Nat) (present : Bool) (d : Dev) : Dev :=
  let v := rg rBMB_MOD_STATE d
  if 4 ≤ cage ∨ bit v cage = present then d else raise 0x1B0 7 (setRg rBMB_MOD_STATE (setFld v cage cage (b2n present)) d)

/-- MOD_INT_N of a cage changes. -/
def modInterrupt (cage : Nat) (on : Bool) (d : Dev) : Dev :=
  if 4 ≤ cage then d
  else
    let v := rg rBMB_MOD_STATE d
    let d1 := setRg rBMB_MOD_STATE (setFld v (4 + cage) (4 + cage) (b2n on)) d
    if on && !bit v (4 + cage) then raise 0x1B0 8 d1 else d1

/-! ### The commands -/

/-- PAUSE_FRAME (R308). -/
def execPauseFrame (p quanta : Nat) : State → Host.Outcome State Fault Refusal :=
  onDev (flowControl p 0 ((List.range 8).map fun q => (q, quanta % 65536)))
/-- PFC_FRAME (R308). -/
def execPfcFrame (p vec : Nat) (quanta : List Nat) : State → Host.Outcome State Fault Refusal :=
  onDev (flowControl p 1 (((List.range 8).filter fun q => Nat.testBit vec q).map fun q => (q, quanta.getD q 0 % 65536)))
/-- PAUSE_EXPIRY (R308). -/
def execPauseExpiry (p q : Nat) : State → Host.Outcome State Fault Refusal := onDev (pauseEnds p q)
/-- LLDP_RX (R313). -/
def execLldpRx (p : Nat) (tw : Option Nat) : State → Host.Outcome State Fault Refusal := onDev (lldpRx p tw)
/-- LLDP_TX (R313). -/
def execLldpTx : State → Host.Outcome State Fault Refusal := onDev lldpTx
/-- EEE_NEGOTIATION_EXPIRY (R313). -/
def execEeeNegotiationExpiry (p : Nat) : State → Host.Outcome State Fault Refusal := onDev (eeeExpires p)
/-- EGRESS_LAUNCH (R175, R176, R286, R309). -/
def execEgressLaunch (p : Nat) : State → Host.Outcome State Fault Refusal := onDev fun d => if p < 4 then sendCtl p (launch p d) else d
/-- TX_RING_PROD_WRITE (R311). -/
def execTxRingProdWrite (p : Nat) (v : W32) : State → Host.Outcome State Fault Refusal := onDev (fromHost 0 (txRingProd p v))
/-- TX_DESCRIPTOR_DONE (R311, R321): whether the management port gave the frame up is what its collisions left. -/
def execTxDescriptorDone (p len queue : Nat) (ts : Bool) (stamp : NT32) (_lost : Bool) : State → Host.Outcome State Fault Refusal :=
  onDev (txDescDone p len queue ts stamp)
/-- LINK_UP (R319). -/
def execLinkUp (p trained : Nat) (fec an : Bool) : State → Host.Outcome State Fault Refusal := onDev (linkComesUp p trained fec an)
/-- LINK_DOWN (R319). -/
def execLinkDown (p : Nat) : State → Host.Outcome State Fault Refusal := onDev (linkLost p)
/-- AN_FAIL (R303). -/
def execAnFail (p : Nat) : State → Host.Outcome State Fault Refusal := onDev (anFails p)
/-- LPI_ENTER (R314). -/
def execLpiEnter (p : Nat) : State → Host.Outcome State Fault Refusal := onDev (lpiEnter p)
/-- LPI_WAKE (R314). -/
def execLpiWake (p : Nat) : State → Host.Outcome State Fault Refusal := onDev (lpiWake p)
/-- MGMT_FRAME_RX (R322). -/
def execMgmtFrameRx (f : RxFrame) : State → Host.Outcome State Fault Refusal := onDev (mgmtRx f)
/-- MGMT_COLLISION (R321). -/
def execMgmtCollision (late : Bool) : State → Host.Outcome State Fault Refusal := onDev (collide late)
/-- MGMT_BACKOFF_EXPIRY (R321). -/
def execMgmtBackoffExpiry : State → Host.Outcome State Fault Refusal := onDev backoffEnds
/-- MDIO_ADDRESS (R322). -/
def execMdioAddress (v : W32) : State → Host.Outcome State Fault Refusal := onDev (fromHost 0 (mdioStart 0 v))
/-- MDIO_WRITE (R322). -/
def execMdioWrite (v : W32) : State → Host.Outcome State Fault Refusal := onDev (fromHost 0 (mdioStart 1 v))
/-- MDIO_READ (R322). -/
def execMdioRead (v : W32) : State → Host.Outcome State Fault Refusal := onDev (fromHost 0 (mdioStart 2 v))
/-- MDIO_DONE (R322). -/
def execMdioDone (data : BitVec 16) : State → Host.Outcome State Fault Refusal := onDev (mdioEnds data)
/-- MGMT_LINK_CHANGE (R322). -/
def execMgmtLinkChange (up : Bool) (speed : Nat) (half : Bool) : State → Host.Outcome State Fault Refusal := onDev (mgmtLink up speed half)
/-- BMB_CMD (R325). -/
def execBmbCmd (c : Nat) (v : W32) : State → Host.Outcome State Fault Refusal := onDev (fromHost 0 (bmbStart c v))
/-- BMB_DONE (R325). -/
def execBmbDone (c n : Nat) (nack arb : Bool) (data : List Byte) : State → Host.Outcome State Fault Refusal :=
  onDev (bmbEnds c n nack arb data)
/-- BUS_RECOVERY (R324). -/
def execBusRecovery (c pulses : Nat) (free : Bool) : State → Host.Outcome State Fault Refusal := onDev (busRecovered c pulses free)
/-- SCL_STUCK (R324). -/
def execSclStuck (c : Nat) : State → Host.Outcome State Fault Refusal := onDev (sclStuck c)
/-- MODULE_PRESENCE_CHANGE (R325). -/
def execModulePresenceChange (cage : Nat) (present : Bool) : State → Host.Outcome State Fault Refusal := onDev (modPresence cage present)
/-- MOD_INT (R325). -/
def execModInt (cage : Nat) (on : Bool) : State → Host.Outcome State Fault Refusal := onDev (modInterrupt cage on)

end Sys2Proof.Machine
end

