-- ==== Sys2Proof/Machine/FabricCmds.lean ====
section
/-! DEFINITION. The commands of the cluster and of the Peer Fabric (rules R413 to R428). -/
namespace Sys2Proof.Machine

/-- A SYNC at a worker (R415, R416): the NT64 of the next pulse and the manager's quality. -/
def syncRx (nt : W64) (cls : Nat) (trace : Bool) (d : Dev) : Dev :=
  if !isWorker d then d
  else modTb (fun t => { t with gm := { t.gm with clockClass := cls, traceable := trace } }) (modClu (fun c => { c with named := some nt }) d)

/-- A POLL that names this worker is answered with STATUS (R415). -/
def pollRx (w : Nat) (d : Dev) : Dev :=
  if isWorker d ∧ w = fld (rg rCLU_CFG d) 3 0 then
    out (.msg .cluster 4 [w, d.tb.servo.code, rgN rCLU_OFFSET d, d.twin.role.code, b2n (bit (hdr 0x190 d).status 2)]) d
  else d

/-- A message that fails its CRC is discarded and counted (R415). -/
def cluBad (d : Dev) : Dev := if cluOn d then incRg rCLU_MSG_ERR d else d

/-- May a fabric frame be taken on a port (R420)? -/
def fabPortOn (p : Nat) (d : Dev) : Bool := fabOn d && portOn p d && bit (rg rFAB_PORTS d) p && decide (d.pwr.st ≠ .dormant)

/-- A TRUNK frame (R425, R426, R428): its entries at the destination, or its forwarding. An active tells its standby of what it takes, and a
standby takes what the record names. -/
def trunkRx (p : Nat) (stamp : NT32) (t : TrunkFrame) (d : Dev) : Dev :=
  if !fabPortOn p d || !inService d then d
  else
    let nt := rxStamp p stamp d
    if fabAddr d ≠ some t.dst then trunkForward nt t d
    else if shadowing d then holdTrunk p nt t d
    else
      let d1 := takeTrunk p nt t d
      if paired d then sendIngress ⟨0, 0, p, t.pass.toNat, nt, 0, trunkDigest t, none, some t⟩ d1 else d1

/-! ### The commands -/

/-- CLUSTER_SYNC_PULSE (R416). -/
def execClusterSyncPulse (stamp : NT32) (frac : BitVec 4) : State → Host.Outcome State Fault Refusal :=
  onDev fun d => afterServo (workerPulse stamp frac d)
/-- PULSE_MISS (R416). -/
def execPulseMiss : State → Host.Outcome State Fault Refusal := onDev missPulse
/-- SYNC (R415). -/
def execSync (nt : W64) (_servo cls : Nat) (trace : Bool) (_seq : BitVec 16) : State → Host.Outcome State Fault Refusal :=
  onDev (syncRx nt cls trace)
/-- POLL (R415). -/
def execPoll (w : Nat) : State → Host.Outcome State Fault Refusal := onDev (pollRx w)
/-- STATUS (R415). -/
def execStatus (w servo role : Nat) (off : BitVec 16) (fault : Bool) : State → Host.Outcome State Fault Refusal :=
  onDev (cluStatus w servo role off fault)
/-- CLU_STEP (R418). -/
def execCluStep (s : W64) (q : NT32) : State → Host.Outcome State Fault Refusal := onDev (cluStepRx s.toInt q)
/-- CLU_MESSAGE_TX (R415). -/
def execCluMessageTx : State → Host.Outcome State Fault Refusal := onDev cluSend
/-- CLU_MESSAGE_ERROR (R415). -/
def execCluMessageError : State → Host.Outcome State Fault Refusal := onDev cluBad
/-- HELLO_TX (R421). -/
def execHelloTx : State → Host.Outcome State Fault Refusal := onDev fun d => if d.pwr.st = .dormant then d else helloTx d
/-- HELLO (R421). -/
def execHello (p addr : Nat) (id : W64) : State → Host.Outcome State Fault Refusal :=
  onDev fun d => if fabPortOn p d then helloRx p (addr % 4096) id d else d
/-- NEIGHBOUR_LOSS (R421, R422). -/
def execNeighbourLoss (p addr : Nat) : State → Host.Outcome State Fault Refusal :=
  onDev fun d => if d.fab.nbrs.any (fun n => decide (n.port = p) && decide (n.addr = addr) && decide (4 ≤ n.missed)) then nbrLoss p addr d else d
/-- ROUTE_TX (R422). -/
def execRouteTx : State → Host.Outcome State Fault Refusal := onDev fun d => if d.pwr.st = .dormant then d else routeTxDo d
/-- ROUTE (R422). -/
def execRoute (p src : Nat) (es : List (Nat × Nat)) : State → Host.Outcome State Fault Refusal :=
  onDev fun d => if fabPortOn p d then routeRx p (src % 4096) es d else d
/-- ROUTE_EXPIRY (R422). -/
def execRouteExpiry (dst : Nat) : State → Host.Outcome State Fault Refusal := onDev (routeOld (dst % 4096))
/-- TRUNK (R425, R426). -/
def execTrunk (p : Nat) (stamp : NT32) (t : TrunkFrame) : State → Host.Outcome State Fault Refusal := onDev (trunkRx p stamp t)
/-- TRUNK_BIND (R423): a write of FAB_TRK_CTRL. -/
def execTrunkBind (v : W32) : State → Host.Outcome State Fault Refusal := onDev (fromHost 0 (trunkBindDo v))

end Sys2Proof.Machine
end

