-- ==== Sys2Proof/Machine/LegCmds.lean ====
section
/-! DEFINITION. What happens to a leg at its instants: prefetch and the arrival of its data, the instant an operand becomes
visible, RTCP reports, and the other delay-list events of a channel (rules R27, R29, R116 to R118, R127, R164, R168, R171, R187,
R291, R292). -/
namespace Sys2Proof.Machine

/-- Does a due event of another list, or an earlier one of list `n`, go before event `e` (R117)? Instants in their order, then lists 0 to 7, then
order of insertion. The Weir acts on list 0 only while it runs. -/
def waitsBehind (n : Nat) (e : DEvent) (d : Dev) : Bool :=
  (List.range 8).any fun m => match dlist m d with
    | [] => false
    | x :: _ => decide (x ≠ e ∨ m ≠ n) && (decide (m ≠ 0) || weirRuns d) && reached d x.target
      && (decide (sdiff x.target e.target < 0) || (decide (x.target = e.target) && decide (m ≤ n)))

/-- Take the first due event of list `n` that a test names, once its turn has come (R117). A stale one is discarded and counted (R127); one that
a step clipped to Q' waits for the re-base (R132). -/
def issue (n : Nat) (p : DEvent → Bool) (f : DEvent → Dev → Dev) (d : Dev) : Dev :=
  match dlTake n (fun e => p e && reached d e.target && !(e.clip && d.tb.rebase.isSome) && !waitsBehind n e d) d with
  | (none, _) => d
  | (some e, d1) => if e.handle ≠ 0 ∧ !current e.handle d then stale rWEIR_CNT_STALE_EVENT e.handle d1 else f e d1

/-! ### Prefetch (R27, R125, R127, R168) -/

/-- The operand of pass `p` of a leg, nothing in a pass of growth (R170) and nothing to the end of a frame whose operand was lost (R123, R125). -/
def operandOf (k leg : Nat) (p : NT32) (d : Dev) : Oper :=
  let g := legOf k leg d
  let l := (slot k d).desc
  let q : Int := (nt64Of d p).toNat
  let o := collect l leg g q
  if g.muted = some p ∨ (q < g.lostTo ∧ (o = .cont ∨ frameEnd l leg g q ≤ g.lostTo)) then .none else o

/-- Discard held payloads whose every sample plays before pass `p` (NT64). -/
def prune (l : List W32) (leg : Nat) (p : Int) (g : Leg) : Leg :=
  { g with
    held := g.held.filter fun h => decide (p < heldStop h l leg g)
    && !(decide (h.pt = 13) && g.held.any fun x => decide (heldPlay h l leg g < heldPlay x l leg g) && decide (heldPlay x l leg g ≤ p)) }

/-- A read of pass `p` joins those of the leg; reads of passes over 3 ms old are forgotten. -/
def noteRead (p : NT32) (o : Oper) (l : List PreOp) : List PreOp :=
  (l.filter fun x => decide (sdiff p x.pass < 3000000) && decide (x.pass ≠ p)) ++ [⟨p, o, false⟩]

/-- A prefetch event: the operand leaves the leg's ring for the Basin, and the event re-inserts itself 1 ms later. Where the ring reads
uncorrectable the operand is lost (R125). -/
def prefetchEvent (h : W32) (leg : Nat) (ue : Option W64) (d : Dev) : Dev :=
  issue 1 (fun e => decide (e.handle = h ∧ e.kind = .prefetch leg)) (fun e x =>
    let k := hSlot h
    let p : NT32 := e.target + 1000000
    let x1 := modLeg k leg (fun g => { g with ops := noteRead p (operandOf k leg p x) g.ops }) (dlAdd 1 { e with target := p, clip := false } x)
    let x2 := match ue with | some a => dramUe a.toNat (loseOperand k leg p x1) | none => x1
    modLeg k leg (prune (slot k x).desc leg (nt64Of x p).toNat) x2) d

/-- Prefetched data reaches the Basin (R127): the operand of the oldest read still out is there for its token, however late (R21). -/
def prefetchArrives (h : W32) (leg : Nat) (d : Dev) : Dev :=
  if !current h d then stale rWEIR_CNT_STALE_PREFETCH h d
  else
    let k := hSlot h
    match (legOf k leg d).ops.find? fun o => !o.there with
    | none => d
    | some o =>
      let d1 := modLeg k leg (fun g => { g with ops := g.ops.map fun x => if x.pass = o.pass then { x with there := true } else x }) d
      if o.op = .none then d1 else fillLeg h leg o.pass o.op d1

/-! ### A payload becomes visible (R29, R165, R171, R291, R426) -/

/-- A late payload (R171, R426). -/
def latePayload (h : W32) (leg : Nat) (sq : BitVec 16) (trunk : Option Nat) (d : Dev) : Dev :=
  let k := hSlot h
  let p := hPart h
  let d1 := jbRecord 0x33 k leg 0 sq.toNat (vcnt p 0x64 1 (incRg rJB_CNT_LATE d))
  let d2 := raisePartF p 11 0xD0 d1
  match trunk with
  | some p => raiseF 0x1A0 3 (macPage p) (incRg rFAB_CNT_LATE d2)
  | none => d2

/-- The passes of a leg whose operand is read or awaited and was not there: those read with nothing, and those of waiting tokens whose read
found nothing. -/
def openPasses (h : W32) (leg : Nat) (d : Dev) : List NT32 :=
  let ops := (legOf (hSlot h) leg d).ops
  let ts := (d.weir.tokens.filter fun t => !t.bus && decide (t.handle = h) && (if leg = 0 then !t.fillA else !t.fillB)).map (·.pass)
  (ops.filter fun o => o.op = .none).map (·.pass) ++ ts.filter fun p => !ops.any fun o => decide (o.pass = p)

/-- Operands that a newly held payload completes go to the passes already read, and to the waiting tokens (R29). -/
def directFill (h : W32) (leg : Nat) (d : Dev) : Dev :=
  let k := hSlot h
  (openPasses h leg d).foldl (fun x p =>
    let o := operandOf k leg p x
    if o = .none then x
    else fillLeg h leg p o (modLeg k leg (fun g => { g with
      ops := g.ops.map fun y => if y.pass = p then ⟨p, o, true⟩ else y }) x)) d

/-- The next playout of a leg stands in list 2 (R116, R292): the earliest held payload that begins to play after now. -/
def syncPlayout (h : W32) (leg : Nat) (d : Dev) : Dev :=
  let k := hSlot h
  let l := (slot k d).desc
  let g := legOf k leg d
  let t : Int := (now64 d).toNat
  let d1 := dlDrop 2 (fun e => decide (e.handle = h ∧ e.kind = .playout leg)) d
  match (g.held.map fun x => heldPlay x l leg g).filter fun x => decide (t < x ∧ x ≤ t + 2000000000) with
  | [] => d1
  | x :: xs => dlAdd 2 ⟨BitVec.ofInt 32 (xs.foldl min x), h, .playout leg, false⟩ d1

/-- A payload reaches the jitter buffer at its deemed instant. One that a twin fetch recovered and that misses its token raises
TWIN_FETCH_FAIL too (R181, R188). -/
def operandVisible (h : W32) (leg : Nat) (d : Dev) : Dev :=
  match d.path.visible.find? fun v => decide (v.handle = h ∧ v.leg = leg) && reached d v.at_ with
  | none => d
  | some v =>
    let d1 := { d with path := { d.path with visible := d.path.visible.erase v } }
    if !current h d then stale rJB_CNT_STALE h d1
    else
      let k := hSlot h
      let l := descNow k d1
      let g := legOf k leg d1
      let x := heldPlay v.held l leg g
      let pass : Int := x / 1000000 * 1000000
      let p : NT32 := BitVec.ofInt 32 pass
      let late := (slot k d1).running && decide (((slot k d1).actAt.toNat : Int) ≤ pass)
        && decide (pass ≤ ((nt64Of d1 d1.weir.lastP).toNat : Int)) && passFired h p d1
      let d2 := if late then latePayload h leg v.held.seq v.trunk (if v.fetched then raiseF 0xD0 1 0x120 d1 else d1) else d1
      syncPlayout h leg (directFill h leg (modLeg k leg (fun g => { g with held := g.held ++ [v.held] }) d2))

/-! ### RTCP (R164, R292) -/

/-- Instant (NT64) of report `n` of a leg: ACT + ((SLOT × 1,009) mod RTCP_INTERVAL) ms + n × RTCP_INTERVAL ms. -/
def reportAt (k leg n : Nat) (d : Dev) : Nat :=
  let i := fld (lw (slot k d).desc leg 9) 15 0
  (slot k d).actAt.toNat + (k * 1009 % max 1 i + n * i) * 1000000

/-- Does a leg send reports? -/
def reports (k leg : Nat) (d : Dev) : Bool :=
  let l := (slot k d).desc
  (slot k d).running && isRtp l leg && decide (fld (lw l leg 9) 15 0 ≠ 0) && bit (lw l leg 0) 9

/-- Keep the earliest report time of both legs in list 3; a later one than 2 s is re-inserted from the event that fires. -/
def syncRtcp (k : Nat) (d : Dev) : Dev :=
  let h := handleOf k d
  let d1 := dlDrop 3 (fun e => decide (e.handle = h)) d
  let t := (now64 d).toNat
  let c := ([0, 1].filter fun leg => reports k leg d).map fun leg => (reportAt k leg (legOf k leg d).reports d, leg)
  match c with
  | [] => d1
  | x :: xs =>
    let m := xs.foldl (fun a b => if b.1 < a.1 then b else a) x
    dlAdd 3 ⟨BitVec.ofNat 32 (min m.1 (t + 1999000000)), h, .rtcp m.2, false⟩ d1

/-- A leg's CNAME (R177). -/
def cname (l : List W32) (leg : Nat) : List Byte :=
  (((List.range 16).map fun i => (lw l leg (10 + i / 4)).extractLsb' (24 - 8 * (i % 4)) 8).takeWhile (· ≠ 0))

/-- The NTP timestamp of an instant (R164): its UTC, in 2⁻³² s since 1900. -/
def ntpOf (t : W64) (d : Dev) : Nat :=
  let utc := t.toNat - rgN rTB_UTC_OFFSET d * 1000000000
  (utc / 1000000000 + 2208988800) % 2 ^ 32 * 2 ^ 32 + utc % 1000000000 * 2 ^ 32 / 1000000000

/-- The report block of a leg (RFC 3550): SSRC, fraction lost, cumulative loss, highest sequence number, jitter, LSR, DLSR. -/
def reportBlock (g : Leg) (t : NT32) : List Byte :=
  if g.rxCount = 0 then []
  else
    let ext := g.rxCycles * 65536 + g.rxHighest.toNat
    let expected := ext + 1 - g.rxBase.toNat
    let lost : Int := (expected : Int) - g.rxCount
    let de := expected - g.expPrior
    let dl : Int := (de : Int) - ((g.rxCount : Int) - g.rcvPrior)
    let frac := if de = 0 ∨ dl ≤ 0 then 0 else (dl.toNat * 256 / de) % 256
    let dlsr := if g.lsr = 0 then 0 else (t - g.lsrAt).toNat * 65536 / 1000000000
    bigEnd 4 g.rxSsrc.toNat ++ bigEnd 1 frac ++ bigEnd 3 ((clampInt (-8388608) 8388607 lost + 16777216).toNat % 16777216)
      ++ bigEnd 4 (ext % 2 ^ 32) ++ bigEnd 4 (g.rxJitter / 16) ++ bigEnd 4 g.lsr.toNat ++ bigEnd 4 dlsr

/-- An RTCP packet (RFC 3550): version 2, count and type, and its length in words less one. -/
def rtcpPart (count typ : Nat) (b : List Byte) : List Byte := bigEnd 1 (128 + count) ++ bigEnd 1 typ ++ bigEnd 2 (b.length / 4) ++ b

/-- The SDES packet with a leg's CNAME: its item, and zeros to the end of a word. -/
def sdes (l : List W32) (leg : Nat) : List Byte :=
  let b := bigEnd 4 (lw l leg 1).toNat ++ 1 :: bigEnd 1 (cname l leg).length ++ cname l leg
  rtcpPart 1 202 (b ++ List.replicate (4 - b.length % 4) 0)

/-- The compound packet of a leg for report time `t` (R164): an SR where the leg has sent RTP since its last report, else an RR, and its SDES. -/
def reportBytes (k leg : Nat) (t : W64) (d : Dev) : List Byte :=
  let l := (slot k d).desc
  let g := legOf k leg d
  let ssrc := bigEnd 4 (lw l leg 1).toNat
  let blk := reportBlock g (t.extractLsb' 0 32)
  let n := if blk.isEmpty then 0 else 1
  (if g.sinceReport then rtcpPart n 200 (ssrc ++ bigEnd 8 (ntpOf t d) ++ bigEnd 4 (rtpTs l leg t).toNat ++ bigEnd 4 (g.txCount % 2 ^ 32)
      ++ bigEnd 4 (g.txOctets % 2 ^ 32) ++ blk)
   else rtcpPart n 201 (ssrc ++ blk)) ++ sdes l leg

/-- Form, protect and queue the compound packet of a leg for report time `t` (R161, R164, R176): under SRTCP all but its first 8 bytes is
encrypted, and the E bit and index follow. -/
def sendReport (k leg : Nat) (t : W64) (d : Dev) : Dev :=
  let l := (slot k d).desc
  let b := reportBytes k leg t d
  let d1 := modLeg k leg (fun g => { g with
    sinceReport := false, expPrior := g.rxCycles * 65536 + g.rxHighest.toNat + 1 - g.rxBase.toNat, rcvPrior := g.rxCount }) d
  match withheld k leg d1 with
  | some x => x
  | none =>
    let ki := txKey l k leg
    let key := keyOf ki d
    let suite := legSuite l leg
    let ssrc := lw l leg 1
    let word := 2 ^ 31 + key.rtcpSent
    let body := if suite = 0 then b.drop 8 else crypt suite key true ssrc key.rtcpSent (b.drop 8)
    let tail := if suite = 0 then [] else trailerOf suite key (bigEnd 4 word) (tagOf suite key true ssrc word (b.take 8) body)
    let n := b.length + tail.length
    let d2 := if suite = 0 then d1 else cryptoLoad n (modKey ki (fun x => { x with rtcpSent := x.rtcpSent + 1 }) d1)
    queuePacket k leg n (t.extractLsb' 0 32) { legPacket k leg true d2 with
      index := if suite = 0 then 0 else key.rtcpSent, payload := b.take 8 ++ body, trailer := tail } d2

/-- A leg whose report time has come sends its report (R164). -/
def reportDue (k leg : Nat) (d : Dev) : Dev :=
  if !reports k leg d then d
  else
    let t := reportAt k leg (legOf k leg d).reports d
    if (now64 d).toNat < t then d
    else modLeg k leg (fun g => { g with reports := g.reports + 1 })
      (if (trunkOf k leg d).isNone then sendReport k leg (BitVec.ofNat 64 t) d else d)

/-- The RTCP event of a channel fires: each leg's report that has come, and the next of both in the list. -/
def rtcpEvent (h : W32) (d : Dev) : Dev :=
  issue 3 (fun e => decide (e.handle = h)) (fun _ x =>
    let k := hSlot h
    syncRtcp k (reportDue k 1 (reportDue k 0 x))) d

/-! ### The commands -/

/-- OPERAND_VISIBLE (R291). -/
def execOperandVisible (h : W32) (leg : Nat) : State → Host.Outcome State Fault Refusal := onDev (operandVisible h (leg % 2))
/-- PREFETCH (R27, R168). -/
def execPrefetch (h : W32) (leg : Nat) (ue : Option W64) : State → Host.Outcome State Fault Refusal := onDev (prefetchEvent h (leg % 2) ue)
/-- PREFETCH_ARRIVE (R127). -/
def execPrefetchArrive (h : W32) (leg : Nat) : State → Host.Outcome State Fault Refusal := onDev (prefetchArrives h (leg % 2))
/-- PLAYOUT_EVENT (R116): the event is issued and the leg's next playout takes its place; what plays is what the prefetch of its pass read. -/
def execPlayoutEvent (h : W32) (leg : Nat) : State → Host.Outcome State Fault Refusal :=
  onDev (issue 2 (fun e => decide (e.handle = h ∧ e.kind = .playout (leg % 2))) fun _ x => syncPlayout h (leg % 2) x)
/-- RTCP_REPORT (R164). -/
def execRtcpReport (h : W32) (_leg : Nat) : State → Host.Outcome State Fault Refusal := onDev (rtcpEvent h)
/-- TONE_EVENT_END (R116): the event is issued and the channel's next tone end takes its place (R292); the tone itself ends in a job of its
channel (R206, R208). -/
def execToneEventEnd (h : W32) : State → Host.Outcome State Fault Refusal :=
  onDev (issue 4 (fun e => decide (e.handle = h)) fun _ x => syncToneEnd (hSlot h) x)
/-- INACTIVITY_TIMEOUT (R116). -/
def execInactivityTimeout (h : W32) : State → Host.Outcome State Fault Refusal :=
  onDev (issue 5 (fun e => decide (e.handle = h)) fun _ x => x)
/-- FIRMWARE_TIMER (R116). -/
def execFirmwareTimer (tag : Nat) : State → Host.Outcome State Fault Refusal :=
  onDev (issue 7 (fun e => decide (e.kind = .firmware tag)) fun _ x => x)
/-- LATE_MAX_READ (R187): a read of EGR_LATE_MAX answers the largest lateness and clears it. -/
def execLateMaxRead : State → Host.Outcome State Fault Refusal :=
  onDev (fromHost 0 fun d => setRgN rEGR_LATE_MAX 0 (out (.readReply 0 0 rEGR_LATE_MAX 4 (rgN rEGR_LATE_MAX d)) d))

end Sys2Proof.Machine
end

