-- ==== Sys2Proof/Machine/FlowCmds.lean ====
section
/-! DEFINITION. The flow table, key slots, bindings, policers and JB_CTRL as the host sets them (rules R151 to R157, R159, R162,
R163, R165, R182, R184, R186, R283, R336, R340). -/
namespace Sys2Proof.Machine

/-! ### Placement (R152) -/

/-- The parts of an entry that its match reads: DST_ONLY, V6, the local address and port, and the remote ones of a five-tuple. -/
def flowKey (f : Flow) : List Nat :=
  let loc := [b2n (bit (fw f 0) 2), b2n (bit (fw f 0) 0), fLocalPort f, (fLocal f).toNat]
  if bit (fw f 0) 2 then loc else loc ++ [fRemotePort f, (fRemote f).toNat]

/-- The two buckets of an entry. -/
def bucketOf (which : Nat) (f : Flow) (d : Dev) : Nat := (Config.hash d.path.seed which (flowKey f)).toNat
/-- The other bucket of a resident entry. -/
def otherBucket (f : Flow) (d : Dev) : Nat := if bucketOf 0 f d = f.bucket then bucketOf 1 f d else bucketOf 0 f d
/-- Resident entries of a bucket. -/
def inBucket (b : Nat) (d : Dev) : List (Nat × Flow) :=
  d.path.flows.filter fun e => e.2.held && bit (fw e.2 0) 1 && !e.2.stash && decide (e.2.bucket = b)
/-- Stash entries held. -/
def stashed (d : Dev) : Nat := (d.path.flows.filter fun e => e.2.held && e.2.stash).length
/-- Entries held. -/
def flowsHeld (d : Dev) : Nat := (d.path.flows.filter (·.2.held)).length
/-- Entries a partition holds. -/
def flowsOf (p : Nat) (d : Dev) : Nat := (d.path.flows.filter fun e => e.2.held && decide (hPart (fHandle e.2) = p)).length

/-- Make room in a bucket by moving at most `n` resident entries to their other buckets. -/
def makeRoom : Nat → Nat → Dev → Option Dev
  | 0, b, d => if (inBucket b d).length < 8 then some d else none
  | n + 1, b, d =>
    let l := inBucket b d
    if l.length < 8 then some d
    else match l.find? fun e => decide ((inBucket (otherBucket e.2 d) d).length < 8) with
      | some e => some (modFlow e.1 (fun f => { f with bucket := otherBucket e.2 d }) d)
      | none => match l with
        | [] => none
        | e :: _ => (makeRoom n (otherBucket e.2 d) d).map fun x => modFlow e.1 (fun f => { f with bucket := otherBucket e.2 d }) x

/-- Where a new entry goes: the less full of its buckets, with room made, or the stash; `none` where all fail. -/
def placeFlow (f : Flow) (d : Dev) : Option (Bool × Nat × Dev) :=
  if !bit (fw f 0) 1 then some (false, 0, d)
  else
    let a := bucketOf 0 f d
    let b := bucketOf 1 f d
    let best := if (inBucket b d).length < (inBucket a d).length then b else a
    match makeRoom 32 best d with
    | some d1 => some (false, best, d1)
    | none => if stashed d < 1024 then some (true, 0, d) else none

/-- An entry as ADD writes it: SSRC_LEARNED clear, its policer's bucket full. -/
def newFlow (ws : List W32) (d : Dev) : Flow :=
  let w0 := ws.getD 0 0 &&& ~~~0x80
  ⟨true, ws.set 0 w0, false, 0, fld (ws.getD 15 0) 7 0 * 1000000000, now64 d, none⟩

/-- Put an entry at an index (also on a standby, R336). -/
def putFlow (i : Nat) (ws : List W32) (d : Dev) : Option Dev :=
  let f := newFlow ws d
  (placeFlow f d).map fun x => modFlow i (fun _ => { f with stash := x.1, bucket := x.2.1 }) x.2.2

/-- The lowest index free: not held, and not freed within the last 4 passes. -/
def freeIndex (d : Dev) : Option Nat :=
  let used := (d.path.flows.filter fun e => e.2.held || (match e.2.freeAt with
    | some t => decide ((now64 d).toNat < t.toNat + 4000000) | none => false)).map (·.1)
  (lowestFree 1 32768 used).head?

/-! ### Flow operations (R155 to R157) -/

/-- Key of a register of a partition's FLW window. -/
def kFlw (p off : Nat) : Nat := kWin p 2 off
/-- Key of a register of a partition's KEY window. -/
def kKey (p off : Nat) : Nat := kWin p 3 off
/-- The staged entry. -/
def stagedFlow (p : Nat) (d : Dev) : List W32 := (List.range 16).map fun i => (rg (kFlw p (oFLW_ENTRY + 4 * i)) d).extractLsb' 0 32
/-- FLW_IDX. -/
def flwIdx (p : Nat) (d : Dev) : Nat := fld (rg (kFlw p oFLW_IDX) d) 14 0

/-- Is any field of an entry invalid (R153)? POL_BURST is 1 to 255 where POL_PPS sets a policer, and not read where POL_PPS is 0 (log entry 198). -/
def badEntry (f : Flow) : Bool :=
  !onlyBits (fw f 0) 0x3FF || decide (fld (fw f 0) 9 8 = 3) || decide (fld (fw f 0) 5 4 = 3) || !onlyBits (fw f 12) 0x7FFF7FFF
    || !onlyBits (fw f 15) 0xFF || (decide (fld (fw f 14) 31 16 ≠ 0) && decide (fld (fw f 15) 7 0 = 0))
    || (!bit (fw f 0) 0 && [4, 5, 6, 8, 9, 10].any fun i => decide (fw f i ≠ 0))

/-- Is the handle the lease of a slot that is ACTIVATING or ACTIVE (R157, R165)? -/
def leased (h : W32) (d : Dev) : Bool :=
  current h d && decide ((slot (hSlot h) d).st = .activating ∨ (slot (hSlot h) d).st = .active)

/-- Does an entry with the same key exist (R157)? -/
def duplicate (f : Flow) (d : Dev) : Bool :=
  bit (fw f 0) 1 && d.path.flows.any fun e => e.2.held && bit (fw e.2 0) 1 && decide (flowKey e.2 = flowKey f)

/-- Bits of each word that MODIFY may not change (R156). -/
def fixedBits (i : Nat) : Nat :=
  match i with
  | 0 => 0x34F | 2 => 0 | 12 => 0x0FFF0FFF | 13 => 0 | 14 => 0 | 15 => 0 | _ => 0xFFFFFFFF

/-- ADD. -/
def flwAdd (p : Nat) (d : Dev) : Nat × Dev :=
  let ws := stagedFlow p d
  let f := newFlow ws d
  if badEntry f then (5, d)
  else if hPart (fHandle f) ≠ p ∨ ownerOf (bit (fw f 0) 0) (fLocal f) (fLocalPort f) d ≠ some p then (6, d)
  else if !leased (fHandle f) d then (1, d)
  else if partState p d ≠ 1 ∨ rgN (kPart p oPART_Q_FLOWS) d < flowsOf p d + 1 ∨ 32768 ≤ flowsHeld d then (2, d)
  else if duplicate f d then (4, d)
  else match freeIndex d with
    | none => (2, d)
    | some i => match putFlow i ws d with
      | none => (3, raise 0xB0 1 d)
      | some d1 => (0, setRgN (kFlw p oFLW_IDX) i d1)

/-- The entry an operation of partition `p` names: EMPTY or FOREIGN otherwise. -/
def namedFlow (p i : Nat) (d : Dev) : Nat :=
  if !(flow i d).held then 8 else if hPart (fHandle (flow i d)) ≠ p then 6 else 0

/-- READ. -/
def flwRead (p : Nat) (d : Dev) : Nat × Dev :=
  let i := flwIdx p d
  let r := namedFlow p i d
  if r ≠ 0 then (r, d)
  else (0, (List.range 16).foldl (fun x j => setRg (kFlw p (oFLW_ENTRY + 4 * j)) ((fw (flow i d) j).zeroExtend 64) x) d)

/-- Is the entry the TX_FLOW of an ACTIVE leg of its partition? -/
def flowInUse (p i : Nat) (d : Dev) : Bool :=
  (slotsOf p d).any fun e => decide (e.2.st = .active) && [0, 1].any fun leg => isRtp e.2.desc leg && decide (txFlow e.2.desc leg = i)

/-- Remove an entry; its index comes free 4 passes later (R152). -/
def removeFlow (i : Nat) (d : Dev) : Dev := modFlow i (fun _ => { Flow.reset with freeAt := some (now64 d) }) d

/-- REMOVE. -/
def flwRemove (p : Nat) (d : Dev) : Nat × Dev :=
  let i := flwIdx p d
  let r := namedFlow p i d
  if r ≠ 0 then (r, d) else if flowInUse p i d then (7, d) else (0, removeFlow i d)

/-- An entry modified by staged words. -/
def modifiedFlow (ws : List W32) (f : Flow) (t : W64) : Flow :=
  let w0 := (ws.getD 0 0 &&& ~~~0x80) ||| (fw f 0 &&& 0x80)
  let w1 := if fld w0 5 4 = fld (fw f 0) 5 4 then w0 else w0 &&& ~~~0x80
  { f with words := ws.set 0 w1, tok := fld (ws.getD 15 0) 7 0 * 1000000000, tokAt := t }

/-- MODIFY: refused FOREIGN where a binding has been moved from under the entry, and STALE once its slot is releasing (R151, R157). -/
def flwModify (p : Nat) (d : Dev) : Nat × Dev :=
  let i := flwIdx p d
  let r := namedFlow p i d
  let ws := stagedFlow p d
  let f := flow i d
  if r ≠ 0 then (r, d)
  else if badEntry (modifiedFlow ws f 0) || (List.range 16).any fun j => decide ((ws.getD j 0 ^^^ fw f j) &&& BitVec.ofNat 32 (fixedBits j) ≠ 0)
  then (5, d)
  else if ownerOf (bit (fw f 0) 0) (fLocal f) (fLocalPort f) d ≠ some p then (6, d)
  else if !leased (fHandle f) d then (1, d)
  else (0, modFlow i (fun f => modifiedFlow ws f (now64 d)) d)

/-- Report a flow operation's result (R155, R157). -/
def flwResult (p r : Nat) (d : Dev) : Dev := setRgN (kFlw p oFLW_STATUS) r d

/-- A write of FLW_OP: READ completes here; on an active twin an accepted change is forwarded and reported at its OP_ACK (R340). -/
def flwOp (fn part op : Nat) (d : Dev) : Dev :=
  let p := winPart fn part
  let addr := winAddr fn part 2 oFLW_OP
  if bit (rg (kFlw p oFLW_STATUS) d) 31 then reject fn .busy 0 addr 4 d
  else notStandby fn addr 4 (fun x =>
    let ws := stagedFlow p x
    let r := if op = 1 then flwRead p x else if op = 2 then flwAdd p x else if op = 3 then flwRemove p x else flwModify p x
    if r.1 = 0 ∧ op ≠ 1 ∧ paired x
    then forward (.flow p op (flwIdx p r.2) ws) (setRgN (kFlw p oFLW_STATUS) 0x80000000 r.2) else flwResult p r.1 r.2) d

/-! ### Key operations (R159, R162, R163) -/

/-- Bytes of key and salt of a suite, in words and bytes. -/
def keyBytes (suite : Nat) : Nat := if suite = 4 then 32 else 16
/-- Bytes of salt. -/
def saltBytes (suite : Nat) : Nat := if suite ≤ 2 then 14 else 12

/-- Byte `i` of a staged key: word ⌊i ÷ 4⌋, the first byte highest. -/
def stagedByte (ws : List W32) (i : Nat) : Nat := fld (ws.getD (i / 4) 0) (31 - 8 * (i % 4)) (24 - 8 * (i % 4))

/-- Is any byte from `n` on not zero: a length that does not fit? -/
def longer (ws : List W32) (n : Nat) : Bool := (List.range (4 * ws.length)).any fun i => decide (n ≤ i) && decide (stagedByte ws i ≠ 0)

/-- Load a key slot (also on a standby). -/
def loadKey (k leg ctrl : Nat) (suite : Nat) (ms ss : List W32) (mki roc : W32) (d : Dev) : Dev :=
  let c : W32 := BitVec.ofNat 32 ctrl
  let i := keyIdx k leg (fld c 1 1) (fld c 2 2)
  let n := fld c 5 3
  modKey i (fun _ => { Key.reset with
    loaded := true, key := ms.take (keyBytes suite / 4), salt := ss, mki := BitVec.ofNat 32 (mki.toNat % 2 ^ (8 * n)), mkiLen := n,
    roc := roc.toNat }) d

/-- The staging registers of a KEY window are zeroed. -/
def zeroStaging (p : Nat) (d : Dev) : Dev :=
  let d1 := setRgN (kKey p oKEY_ROC) 0 (setRgN (kKey p oKEY_MKI) 0 d)
  let d2 := (List.range 8).foldl (fun x i => setRgN (kKey p (oKEY_MASTER + 4 * i)) 0 x) d1
  (List.range 4).foldl (fun x i => setRgN (kKey p (oKEY_SALT + 4 * i)) 0 x) d2

/-- SLOT1_LOADED and SLOT0_LOADED of the selected leg and direction (R162). -/
def loadedBits (h ctrl : W32) (d : Dev) : Nat :=
  let i := keyIdx (hSlot h) (fld ctrl 0 0) (fld ctrl 1 1) 0
  if current h d then 512 * b2n (keyOf (i + 1) d).loaded + 256 * b2n (keyOf i d).loaded else 0

/-- A write of KEY_OP: INSTALL (1) or ERASE (2). -/
def keyOp (fn part op : Nat) (d : Dev) : Dev :=
  let p := winPart fn part
  let addr := winAddr fn part 3 oKEY_OP
  if bit (rg (kKey p oKEY_STATUS) d) 31 then reject fn .busy 0 addr 4 d
  else notStandby fn addr 4 (fun x =>
    let h : W32 := (rg (kKey p oKEY_SEL) x).extractLsb' 0 32
    let c : W32 := (rg (kKey p oKEY_CTRL) x).extractLsb' 0 32
    let ms := (List.range 8).map fun i => (rg (kKey p (oKEY_MASTER + 4 * i)) x).extractLsb' 0 32
    let ss := (List.range 4).map fun i => (rg (kKey p (oKEY_SALT + 4 * i)) x).extractLsb' 0 32
    let mki : W32 := (rg (kKey p oKEY_MKI) x).extractLsb' 0 32
    let roc : W32 := (rg (kKey p oKEY_ROC) x).extractLsb' 0 32
    let k := hSlot h
    let leg := fld c 0 0
    let suite := legSuite (descNow k x) leg
    let r := if hPart h ≠ p then 6
      else if !leased h x then 1
      else if op = 1 ∧ (suite = 0 ∨ !isRtp (descNow k x) leg ∨ 4 < fld c 5 3 ∨ longer ms (keyBytes suite) ∨ longer ss (saltBytes suite)) then 5
      else 0
    let y := if r ≠ 0 then x
      else if op = 1 then loadKey k leg c.toNat suite ms ss mki roc x
      else modKey (keyIdx k leg (fld c 1 1) (fld c 2 2)) (fun _ => Key.reset) x
    let z := zeroStaging p y
    if r = 0 ∧ paired x then forward (.key p op h c mki roc ms ss) (setRgN (kKey p oKEY_STATUS) 0x80000000 z)
    else setRgN (kKey p oKEY_STATUS) r z) d

/-! ### Bindings, seed, policers (R151, R182, R184) -/

/-- The binding CLS_BIND_SEL names. -/
def bindSel (d : Dev) : Nat := fld (rg rCLS_BIND_SEL d) 9 0
/-- Set a binding. -/
def setBinding (i : Nat) (b : Binding) (d : Dev) : Dev :=
  { d with path := { d.path with binds := tabSet (fun _ => ⟨0, 0, []⟩) d.path.binds i b } }

/-- A write of a binding's registers through CLS_BIND_SEL: refused where it would overlap, or would uncover held entries. -/
def bindSet (addr : Nat) (b : Binding) (d : Dev) : Dev :=
  let i := bindSel d
  let old := binding i d
  let others := d.path.binds.any fun e => decide (e.1 ≠ i) && e.2.valid && e.2.overlaps b
  let uncovers := old.valid && !b.valid && d.path.flows.any fun e => e.2.held && old.holds (bit (fw e.2 0) 0) (fLocal e.2) (fLocalPort e.2)
  unlocked 0xB0 (addr % 0x1000) 4 (notStandby 0 addr 4 fun x =>
    if b.valid && (others || decide (b.width < fld b.ctrl 7 0)) then reject 0 .range 0 addr 4 x
    else if uncovers then reject 0 .busy 0 addr 4 x
    else forward (.binding i b.ctrl b.ports b.ip) (setBinding i b x)) d

/-- A write of CLS_BIND_CTRL. -/
def bindCtrl (v : W32) (d : Dev) : Dev := bindSet rCLS_BIND_CTRL { binding (bindSel d) d with ctrl := v &&& 0xC3FF00FF } d
/-- A write of CLS_BIND_PORTS. -/
def bindPorts (v : W32) (d : Dev) : Dev := bindSet rCLS_BIND_PORTS { binding (bindSel d) d with ports := v } d
/-- A write of CLS_BIND_IPn. -/
def bindIp (n : Nat) (v : W32) (d : Dev) : Dev :=
  let b := binding (bindSel d) d
  let ip := (List.range 4).map fun i => if i = n then v else b.ip.getD i 0
  bindSet (rCLS_BIND_IP + 4 * n) { b with ip := if ip.all (· = 0) then [] else ip } d

/-- A write of CLS_SEED: refused while an entry is held. -/
def seedWrite (v : W64) (d : Dev) : Dev :=
  if flowsHeld d ≠ 0 then reject 0 .busy 0 rCLS_SEED 8 d else { d with path := { d.path with seed := v } }

/-- Set a partition's policer: its buckets start full. -/
def policerSet (p : Nat) (pkt byte burst : W32) (d : Dev) : Dev :=
  setPolicer p ⟨pkt, byte, burst, fld burst 15 0 * 1000000000, fld burst 31 16 * 1024 * 1000000000, now64 d⟩ d

/-- A write of CLS_POL_PKT, CLS_POL_BYTE or CLS_POL_BURST for the partition CLS_POL_SEL names. -/
def policerWrite (off : Nat) (v : W32) (d : Dev) : Dev :=
  let p := fld (rg rCLS_POL_SEL d) 9 0
  let x := policer p d
  let pkt := if off = rCLS_POL_PKT then v &&& 0x0FFFFFFF else x.pkt
  let byte := if off = rCLS_POL_BYTE then v &&& 0x1FFFFF else x.byte
  let burst := if off = rCLS_POL_BURST then v else x.burst
  notStandby 0 off 4 (fun y => forward (.policer p pkt byte burst) (policerSet p pkt byte burst y)) d

/-! ### JB_CTRL (R186) -/

/-- Name a value of JB_CTRL for a boundary; the value in force goes on below it (R186). -/
def putJb (b : W64) (w : W32) (d : Dev) : Dev :=
  let old := if d.path.nextJb.isEmpty then [(0, (rg rJB_CTRL d).extractLsb' 0 32)] else d.path.nextJb
  { d with path := { d.path with nextJb := (b, w) :: old } }

/-- A write of JB_CTRL: at once, or on an active twin at a boundary at least 2 ms ahead on both. -/
def jbCtrlWrite (v : W32) (d : Dev) : Dev :=
  let w := v &&& 0xFF0FFFFF
  unlocked 0xD0 (rJB_CTRL % 0x1000) 4 (notStandby 0 rJB_CTRL 4 fun x =>
    if !within (fld w 31 24) 1 255 || !within (fld w 19 16) 1 15 || !within (fld w 15 0) 200 10000 then reject 0 .range 0 rJB_CTRL 4 x
    else if paired x then
      let b := farBoundary x
      forward (.jbCtrl w b) (putJb (nt64Of x b) w x)
    else setRgN rJB_CTRL w.toNat { x with path := { x.path with nextJb := [] } }) d

/-- JB_CTRL reads the value of the last boundary named that has come. Packets deemed before it may still be accepted for a second, with
the value they belong to. -/
def jbCtrlApply (q : NT32) (d : Dev) : Dev :=
  let t := nt64Of d q
  match d.path.nextJb.find? fun e => decide (e.1.toNat ≤ t.toNat) with
  | none => d
  | some e =>
    let done := decide (d.path.nextJb.head? = some e) && decide (e.1.toNat + 1000000000 ≤ t.toNat)
    setRgN rJB_CTRL e.2.toNat { d with path := { d.path with nextJb := if done then [] else d.path.nextJb } }

/-! ### The commands -/

/-- FLW_READ (R156). -/
def execFlwRead (fn part : Nat) : State → Host.Outcome State Fault Refusal := onDev (fromWindow fn part 2 oFLW_OP (flwOp fn part 1))
/-- FLW_ADD (R156). -/
def execFlwAdd (fn part : Nat) : State → Host.Outcome State Fault Refusal := onDev (fromWindow fn part 2 oFLW_OP (flwOp fn part 2))
/-- FLW_REMOVE (R156). -/
def execFlwRemove (fn part : Nat) : State → Host.Outcome State Fault Refusal := onDev (fromWindow fn part 2 oFLW_OP (flwOp fn part 3))
/-- FLW_MODIFY (R156). -/
def execFlwModify (fn part : Nat) : State → Host.Outcome State Fault Refusal := onDev (fromWindow fn part 2 oFLW_OP (flwOp fn part 4))
/-- KEY_INSTALL (R163). -/
def execKeyInstall (fn part : Nat) : State → Host.Outcome State Fault Refusal := onDev (fromWindow fn part 3 oKEY_OP (keyOp fn part 1))
/-- KEY_ERASE (R163). -/
def execKeyErase (fn part : Nat) : State → Host.Outcome State Fault Refusal := onDev (fromWindow fn part 3 oKEY_OP (keyOp fn part 2))
/-- BINDING_WRITE (R151, R182): a write of CLS_BIND_CTRL. -/
def execBindingWrite (v : W32) : State → Host.Outcome State Fault Refusal := onDev (fromHost 0 (bindCtrl v))
/-- CLS_SEED_WRITE (R182): by control firmware during BOOT, or the host. -/
def execClsSeedWrite (v : W64) : State → Host.Outcome State Fault Refusal := onDev (seedWrite v)
/-- JB_CTRL_WRITE (R186). -/
def execJbCtrlWrite (v : W32) : State → Host.Outcome State Fault Refusal := onDev (fromHost 0 (jbCtrlWrite v))

end Sys2Proof.Machine
end

