-- ==== Sys2Proof/Machine/Lfe.lean ====
section
/-! DEFINITION. The Line Front End: host writes and the boundary at which they apply, ringing, supervision, ranges, decimator resets
and the LINE leg (rules R385 to R404, R408, R409, R411, R412). -/
namespace Sys2Proof.Machine

/-! ### Records (R404) -/

/-- Offer a line's record to the operator's event ring and to that of the bound channel's partition. A standby and a line in OFF or
TEST write none (R397, R403). -/
def lineRecord (typ n b13 b14 v : Nat) (at_ : NT32) (d : Dev) : Dev :=
  if isStandby d || decide (lineMode n d = 0 ∨ lineMode n d = 3) then d
  else
    let h : W32 := match (line n d).bound with | some b => b.1 | none => 0
    let x : Rec := ⟨typ, at_, h, body [(12, 1, n), (13, 1, b13), (14, 1, b14), (15, 1, b2n (afterRebase d)), (16, 4, v)]⟩
    let d1 := event 0 x d
    if h ≠ 0 ∧ hPart h ≠ 0 then event (hPart h) x d1 else d1

/-- A signed value as a 32-bit field. -/
def word32 (x : Int) : Nat := (BitVec.ofInt 32 x).toNat
/-- The instant of the 1 kHz sample that the device evaluates: the last integer millisecond of NT (R386). -/
def sampleTime (d : Dev) : W64 := BitVec.ofNat 64 ((now64 d).toNat / 1000000 * 1000000)
/-- That instant as NT32. -/
def sampleInstant (d : Dev) : NT32 := (sampleTime d).extractLsb' 0 32

/-! ### Currents (R397, R398, R400) -/

/-- Hold a command within the cap (R398). -/
def capped (n : Nat) (x : Int) (d : Dev) : Int :=
  let c : Int := fld (lnReg n oLFE_LN_ICAP d) 15 0
  clampInt (-c) c x
/-- The signed 16-bit current of a register. -/
def signed16 (v : W64) : Int := (v.extractLsb' 0 16).toInt
/-- The DC command in force (R397). -/
def lineDc (n : Nat) (d : Dev) : Int :=
  match lineMode n d with
  | 0 => 0
  | 2 => capped n (signed16 (lnReg n oLFE_LN_DC d)) d
  | _ => capped n (fld (lnReg n oLFE_LN_HOLD d) 15 0) d
/-- The command in force (R400): in NORMAL the output of the interpolator times VOICE_FS is added to the DC command. -/
def lineIcmd (n : Nat) (d : Dev) : Int :=
  if lineMode n d = 2 then
    let s := Config.lineVoice (line n d).out (sdiff (now d) (line n d).outAt).toNat
    capped n (signed16 (lnReg n oLFE_LN_DC d) + s.toInt * fld (lnReg n oLFE_LN_VOICE d) 15 0 / 131072) d
  else lineDc n d
/-- Full scale of a current range in 0.01 mA (R388). -/
def rangeFs (r : Nat) : Nat := match r with | 0 => 625 | 1 => 2500 | 2 => 10000 | _ => 40000

/-! ### Status (R408, R409) -/

/-- LFE_LN_STATUS. -/
def lineStatus (n : Nat) (d : Dev) : Nat :=
  let l := line n d
  let sw := (l.sw.zipIdx.map fun e => b2n e.1 <<< e.2).foldl (· + ·) 0
  b2n l.bound.isSome <<< 31 ||| lineMode n d <<< 29 ||| b2n l.ringOn <<< 28 ||| b2n (lineTag n d) <<< 27 |||
    b2n (lineFrozen n d) <<< 26 ||| l.range <<< 24 ||| sw <<< 4 ||| b2n l.hrOn <<< 3 ||| b2n l.openROn <<< 2 |||
    b2n l.openTOn <<< 1 ||| b2n l.sat
/-- A 32-bit word of one bit a line. -/
def overLines (f : Nat → Bool) : Nat := ((List.range 32).map fun n => b2n (f n) <<< n).foldl (· + ·) 0

/-! ### Host writes (R389, R393, R397, R399, R409) -/

/-- Is a value inside the ranges of its register (R409)? -/
def lineValueOk (off : Nat) (v : W32) : Bool :=
  if off = oLFE_LN_CFG then decide (fld v 22 21 ≤ 2) && decide (fld v 20 19 ≤ 2) && decide (fld v 18 16 ≤ 4)
    && (decide (fld v 18 16 = 0) || decide (fld v 31 30 = 3)) && decide (fld v 9 0 ≤ 1000)
  else if off = oLFE_LN_ICAP then decide (fld v 15 0 ≤ 10000)
  else if off = oLFE_LN_VOICE then decide (fld v 15 0 ≤ 5000)
  else if off = oLFE_LN_RING then within (fld v 31 16) 100 10000 && within (fld v 15 0) 100 10000
  else if off = oLFE_LN_RING_CTRL then decide (fld v 15 8 ≤ 50) && within (fld v 7 0) 10 100
  else if oLFE_LN_SW ≤ off ∧ off < oLFE_LN_STATUS then decide (fld v 7 5 ≤ 5) && within (fld v 3 0) 1 15
  else true

/-- Store a register of a line's page; the value in force stays until the next boundary (R397). -/
def linePut (n off : Nat) (v : W32) (d : Dev) : Dev :=
  storeReg (linePage n) off v (modLine n (fun l => if l.writes.any (fun w => w.1 = off) then l
    else { l with writes := l.writes ++ [(off, rg (kLine n off) d)] }) d)

/-- A write of a register of a line's page (R409); LFE_LN_ICAP can be locked. -/
def lineWrite (n off : Nat) (v : W32) (d : Dev) : Dev :=
  let addr := kLine n off
  if !hasLfe d || decide (32 ≤ n) then reject 0 .reserved 0 addr 4 d
  else
    let go (x : Dev) : Dev := if lineValueOk off v then linePut n off v x else reject 0 .range 0 addr 4 x
    if off = oLFE_LN_ICAP then unlocked (linePage n) off 4 go d else go d

/-- Does a handle name an ACTIVATING or ACTIVE channel whose named leg is a LINE leg (R399)? -/
def lineLeg (h : W32) (leg : Nat) (d : Dev) : Bool :=
  let s := slot (hSlot h) d
  current h d && decide (s.st = .activating ∨ s.st = .active) && decide (kind (descNow (hSlot h) d) leg = 2)
/-- Does a line feed the leg, or is one to from the next boundary (R399)? -/
def feeds (m : Nat) (h : W32) (leg : Nat) (d : Dev) : Bool :=
  decide ((line m d).bound = some (h, leg))
    || (bit (rg (kLine m oLFE_LN_BIND_CTRL) d) 0 && decide (rgN (kLine m oLFE_LN_BIND) d = h.toNat)
      && decide (fld (rg (kLine m oLFE_LN_BIND_CTRL) d) 1 1 = leg))

/-- A write of LFE_LN_BIND_CTRL (R399). -/
def lineBind (n : Nat) (v : W32) (d : Dev) : Dev :=
  let addr := kLine n oLFE_LN_BIND_CTRL
  let h : W32 := BitVec.ofNat 32 (rgN (kLine n oLFE_LN_BIND) d)
  let leg := fld v 1 1
  if !hasLfe d || decide (32 ≤ n) then reject 0 .reserved 0 addr 4 d
  else if bit v 0 ∧ !lineLeg h leg d then reject 0 .range 0 addr 4 d
  else if bit v 0 ∧ (List.range 32).any (fun m => decide (m ≠ n) && feeds m h leg d) then reject 0 .busy 0 addr 4 d
  else linePut n oLFE_LN_BIND_CTRL v d

/-- A write of LFE_COM_CTRL, whose bits clear themselves (R393, R408). -/
def lfeCtrl (v : W32) (d : Dev) : Dev :=
  let at_ : NT32 := BitVec.ofNat 32 (rgN rLFE_COM_RESET_AT d)
  if !hasLfe d then reject 0 .reserved 0 rLFE_COM_CTRL 4 d
  else if bit v 1 ∧ !(decide (0 ≤ sdiff at_ d.weir.nextP) && atOk at_ d.weir.nextP) then reject 0 .range 0 rLFE_COM_CTRL 4 d
  else modLfe (fun e => { e with
    resets := e.resets ++ (if bit v 0 then [d.weir.nextP] else []) ++ (if bit v 1 then [at_] else []),
    syncClu := e.syncClu || bit v 2 }) d

/-! ### Decimator resets, settling, blanking (R391 to R393) -/

/-- The voice and supervision filters of all lines are cleared together, and the lines settle (R393). -/
def decimatorReset (d : Dev) : Dev :=
  match d.lfe.resets.find? fun t => reached d t with
  | none => d
  | some t =>
    let d1 := modLfe (fun e => { e with resets := e.resets.filter fun x => !reached d x }) d
    let d2 := (List.range 32).foldl (fun x n =>
      settle n t (modLine n (fun l => { l with wTip := [], wRing := [], wCur := [] }) x)) d1
    raise 0x150 1 (setRgN rLFE_COM_LAST_RESET t.toNat d2)

/-- Settling ends (R392). -/
def settleEnds (n : Nat) (d : Dev) : Dev :=
  match (line n d).settleEnd with
  | some t => if reached d t then retag n t (modLine n (fun l => { l with settleEnd := none }) d) else d
  | none => d

/-- The LINE_BLANK input changes (R391). -/
def blankPin (high : Bool) (d : Dev) : Dev :=
  if !hasLfe d then d
  else (List.range 32).foldl (fun x n => retag n (now d) x) (modLfe (fun e => { e with blankPin := high }) d)

/-- The guard after a ring-off ends, and the line's blanking with it (R391). -/
def guardEnds (n : Nat) (d : Dev) : Dev :=
  issue 6 (fun e => decide (e.kind = .blankEnd n)) (fun e x =>
    if (line n x).guardEnd = some e.target then retag n e.target (modLine n (fun l => { l with guardEnd := none }) x) else x) d

/-! ### Ringing (R394) -/

/-- Put the next event of a cadence on delay list 6: a list takes targets up to 2 s ahead (R117), so a later one is reached over
events in between. -/
def cadenceAt (n : Nat) (k : DKind) (t : NT32) (ns : Nat) (d : Dev) : Dev :=
  let leap := min ns 2000000000
  dlAdd 6 ⟨t + BitVec.ofNat 32 leap, 0, k, false⟩ (modLine n (fun l => { l with left := ns - leap }) d)

/-- Start a line's cadence at a boundary. -/
def cadenceStart (n : Nat) (q : NT32) (d : Dev) : Dev :=
  cadenceAt n (.ringOn n) q 0 (modLine n (fun l => { l with cadence := true, ringOn := false, stopAt := none }) d)

/-- The ring-off word is pushed and the guard begins (R391, R394). -/
def ringEnds (n : Nat) (t : NT32) (d : Dev) : Dev :=
  let g := fld (lnReg n oLFE_LN_RING_CTRL d) 15 8 * 1000000
  let e : NT32 := t + BitVec.ofNat 32 g
  let d1 := pushWord n oLFE_LN_RING_OFF_CMD (modLine n (fun l => { l with
    ringOn := false, guardEnd := if g = 0 then none else some e }) d)
  retag n t (if g = 0 then d1 else dlAdd 6 ⟨e, 0, .blankEnd n, false⟩ (dlDrop 6 (fun x => decide (x.kind = .blankEnd n)) d1))

/-- A ring-on instant (R394). -/
def ringOnEvent (n : Nat) (d : Dev) : Dev :=
  issue 6 (fun e => decide (e.kind = .ringOn n)) (fun e x =>
    if !(line n x).cadence then x
    else if (line n x).left ≠ 0 then cadenceAt n (.ringOn n) e.target (line n x).left x
    else
      let on := fld (lnReg n oLFE_LN_RING x) 31 16 * 1000000
      let x1 := pushWord n oLFE_LN_RING_ON_CMD (modLine n (fun l => { l with ringOn := true, guardEnd := none }) x)
      cadenceAt n (.ringOff n) e.target on (retag n e.target x1)) d

/-- A ring-off instant (R394). -/
def ringOffEvent (n : Nat) (d : Dev) : Dev :=
  issue 6 (fun e => decide (e.kind = .ringOff n)) (fun e x =>
    if !(line n x).cadence then x
    else if (line n x).left ≠ 0 then cadenceAt n (.ringOff n) e.target (line n x).left x
    else cadenceAt n (.ringOn n) e.target (fld (lnReg n oLFE_LN_RING x) 15 0 * 1000000) (ringEnds n e.target x)) d

/-- A stop takes effect at its grid instant (R394). -/
def ringStop (n : Nat) (d : Dev) : Dev :=
  match (line n d).stopAt with
  | none => d
  | some t =>
    if !reached d t then d
    else
      let was := (line n d).ringOn
      let d1 := dlDrop 6 (fun e => decide (e.kind = .ringOn n ∨ e.kind = .ringOff n))
        (modLine n (fun l => { l with cadence := false, stopAt := none, left := 0 }) d)
      if was then ringEnds n t d1 else d1

/-! ### Supervision (R390, R395, R396, R398) -/

/-- The median of the last five samples, those before the first taken as 0. -/
def median (w : List Int) : Int :=
  (sortBy (fun a b => decide (a ≤ b)) ((w ++ List.replicate 5 0).take 5)).getD 2 0

/-- Enter HOLD by hardware: MODE is written at once (R397). -/
def enterHold (n : Nat) (d : Dev) : Dev :=
  let hold (v : W64) : W64 := setFld v 31 30 1
  cadenceStops n (modLine n (fun l => { l with writes := l.writes.map fun w => if w.1 = oLFE_LN_CFG then (w.1, hold w.2) else w })
    (setRg (kLine n oLFE_LN_CFG) (hold (rg (kLine n oLFE_LN_CFG) d)) d))

/-- A fault condition of a line is raised or cleared (R397, R404): with AUTO_HOLD, OPEN and HEADROOM enter HOLD. -/
def lineFault (n code c : Nat) (on : Bool) (at_ : NT32) (d : Dev) : Dev :=
  let goes := on && decide (code ≤ 3) && bit (lnReg n oLFE_LN_CFG d) 29 && decide (lineMode n d ≠ 1)
  let d1 := lineRecord 0x91 n code (b2n on + 128 * b2n goes) (word32 (line n d).meas) at_ d
  let d2 := if on then raiseF (linePage n) c 0x150 d1 else d1
  if goes then enterHold n d2 else d2

/-- A run of consecutive samples that differ from a flag's state: the run after this sample and whether the flag changes at the
`need`-th. -/
def debounce (need run : Nat) (differs : Bool) : Nat × Bool :=
  if !differs then (0, false) else if need ≤ run + 1 then (0, true) else (run + 1, false)

/-- Follow an OPEN flag for 3 ms (R390): 1 tip, 2 ring. -/
def openCheck (n which : Nat) (v : Int) (at_ : NT32) (d : Dev) : Dev :=
  let l := line n d
  let cfg := lnReg n oLFE_LN_CFG d
  let bo := if which = 1 then fld cfg 22 21 else fld cfg 20 19
  let beyond := (decide (bo = 1) && decide (128450 < v)) || (decide (bo = 2) && decide (v < -128450))
  let on := if which = 1 then l.openTOn else l.openROn
  let r := debounce 3 (if which = 1 then l.openT else l.openR) (decide (beyond ≠ on))
  let d1 := modLine n (fun l => if which = 1 then { l with openT := r.1, openTOn := if r.2 then !on else on }
    else { l with openR := r.1, openROn := if r.2 then !on else on }) d
  if r.2 then lineFault n which 2 (!on) at_ d1 else d1

/-- Follow HEADROOM for 4 ms (R398). -/
def headroomCheck (n : Nat) (at_ : NT32) (d : Dev) : Dev :=
  let l := line n d
  let below := decide ((l.meas.natAbs : Int) < (lineDc n d).natAbs - fld (lnReg n oLFE_LN_HR d) 15 0)
  let r := debounce 4 l.hr (decide (below ≠ l.hrOn))
  let d1 := modLine n (fun l => { l with hr := r.1, hrOn := if r.2 then !l.hrOn else l.hrOn }) d
  if r.2 then lineFault n 3 3 (!l.hrOn) at_ d1 else d1

/-- The coarse current over the preceding RT_AVG ms (R395): the sum of the samples in 0.01 mA ÷ 128, and 128 times their number. -/
def ringTrip (n : Nat) (d : Dev) : Int × Int :=
  let w := (line n d).coarse.take (fld (lnReg n oLFE_LN_RING_CTRL d) 7 0)
  (w.foldl (fun a x => a + x.1) 0, 128 * (sumL (w.map (·.2)) : Nat))

/-- The sources of a switch (R396), voltages in 2⁻¹⁸ of full scale so that the longitudinal voltage is exact and the ring-trip mean as the sum
it is taken from, with the scale of THRESH and of the recorded value. -/
def switchSource (src : Nat) (tip ring cur : Int) (trip : Int × Int) : Int × Int :=
  match src with
  | 0 => (cur, 1) | 1 => (2 * tip, 8) | 2 => (2 * ring, 8) | 3 => (2 * (tip - ring), 8) | 4 => (tip + ring, 8)
  | _ => (trip.1, max 1 trip.2)

/-- Evaluate switch `k` of a line on a 1 kHz sample (R396). -/
def switchCheck (n k : Nat) (tip ring cur : Int) (trip : Int × Int) (tagged : Bool) (at_ : NT32) (d : Dev) : Dev :=
  let l := line n d
  let v := lnReg n (oLFE_LN_SW + 4 * k) d
  let src := fld v 7 5
  if tagged && decide (src ≠ 5) then d
  else
    let x := switchSource src tip ring cur trip
    let th := (v.extractLsb' 16 16).toInt * x.2
    let hy : Int := fld v 15 8 * 8 * x.2
    let on := l.sw.getD k false
    let differs := if bit v 4 then (if on then decide (x.1 < th - hy) else decide (th ≤ x.1))
      else (if on then decide (th + hy < x.1) else decide (x.1 < th))
    let r := debounce (fld v 3 0) (l.deb.getD k 0) differs
    let d1 := modLine n (fun l => { l with deb := l.deb.set k r.1, sw := if r.2 then l.sw.set k (!on) else l.sw }) d
    if !r.2 then d1
    else
      let d2 := raiseF (linePage n) 1 0x150 (lineRecord 0x90 n k (b2n !on) (word32 (x.1 / x.2)) at_ d1)
      if k = 1 ∧ !on ∧ bit (lnReg n oLFE_LN_RING_CTRL d2) 30 then cadenceStops n d2 else d2

/-- The coarse currents of a millisecond, each the range it was taken in and its code: their sum in 0.01 mA ÷ 128, and their number (R388). -/
def coarseSum (l : List (Nat × BitVec 8)) : Int × Nat := (l.foldl (fun a x => a + x.2.toInt * rangeFs x.1) 0, l.length)

/-- A 1 kHz instant of a line (R22, R386, R390, R391, R395, R396, R398): sampled once. A blanked line holds its last inputs, but for the coarse
current. -/
def supervise (n : Nat) (tip ring : BitVec 18) (cur : BitVec 16) (coarse : List (Nat × BitVec 8)) (d : Dev) : Dev :=
  if !hasLfe d || decide (32 ≤ n) || decide ((line n d).sampled = some (sampleTime d)) then d
  else
    let l := line n d
    let at_ := sampleInstant d
    let tagged := tagAt at_ l
    let held := blanked n d
    let take (w : List Int) (v : Int) : List Int := (if held then w.getD 0 0 else v) :: w.take 4
    let l1 := { l with sampled := some (sampleTime d), coarse := (coarseSum coarse :: l.coarse).take 100, wTip := take l.wTip tip.toInt, wRing := take l.wRing ring.toInt, wCur := take l.wCur cur.toInt }
    let t := median l1.wTip
    let r := median l1.wRing
    let i := median l1.wCur
    let fine := clampInt (-131072) 131071 (i * 131072 / rangeFs l.range)
    let q (x : Int) : W64 := (BitVec.ofInt 18 x).zeroExtend 64
    let d1 := modLine n (fun _ => { l1 with meas := i }) d
    let d2 := setRg (kLine n oLFE_LN_VT) (q t) (setRg (kLine n oLFE_LN_VR) (q r)
      (setRgN (kLine n oLFE_LN_I_MEAS) (word32 i % 65536)
        (setRgN (kLine n oLFE_LN_I_FINE) (l.range * 2 ^ 18 + (BitVec.ofInt 18 fine).toNat) d1)))
    let d3 := openCheck n 2 r at_ (openCheck n 1 t at_ d2)
    let d4 := headroomCheck n at_ d3
    if lineMode n d4 = 0 then d4
    else (List.range 4).foldl (fun x k => switchCheck n k t r i (ringTrip n d4) tagged at_ x) d4

/-- A coarse sample (R388): LFE_LN_COARSE, and the range with AUTORANGE. -/
def coarseSample (n : Nat) (cur vt vr : BitVec 8) (run : Nat) (d : Dev) : Dev :=
  if !hasLfe d || decide (32 ≤ n) then d
  else
    let l := line n d
    let d1 := setRgN (kLine n oLFE_LN_COARSE) (l.range * 2 ^ 24 + cur.toNat * 65536 + vt.toNat * 256 + vr.toNat) d
    let dwell := match l.rangedAt with | some t => decide ((now64 d).toNat < t.toNat + 2000000) | none => false
    let m := cur.toInt.natAbs
    let next := if 1152 < m * 10 then l.range + 1 else if m * 10 < 256 ∧ 2000 ≤ run then l.range - 1 else l.range
    if !bit (lnReg n oLFE_LN_CFG d) 23 || dwell || decide (next = l.range) || decide (2 < next) then d1
    else incRg (kLine n oLFE_LN_CNT_RANGE) (modLine n (fun l => { l with range := next, rangedAt := some (now64 d) }) d1)

/-! ### The LINE leg (R399, R400) -/

/-- The operand of a line's pass and its status word (R397, R399, R400): silence, all BLANKED, unless the mode is NORMAL and the voice
rate is 8 or 16 kHz. A pass cut by a re-base holds the samples of its last grid instants; a missing one repeats the sample before it, tagged
BLANKED (R402). -/
def lineOperand (n : Nat) (samples : List (BitVec 18)) (sats : Nat) (d : Dev) : List (BitVec 18) × Nat :=
  let l := line n d
  let p := d.weir.nextP - 1000000
  let tail := b2n (decide (0 < sats)) <<< 16 ||| b2n (l.openTOn || l.openROn) <<< 17 ||| l.range <<< 18
  match voiceSamples l.rate with
  | some m =>
    if lineMode n d = 2 then
      let tags := (List.range m).map fun i =>
        b2n (decide (samples.length ≤ i) || tagAt (p + BitVec.ofNat 32 (i * (1000000 / m))) l) <<< i
      let last := samples.drop (samples.length - m)
      (last ++ List.replicate (m - last.length) (samples.getLastD 0), tail ||| tags.foldl (· + ·) 0)
    else (List.replicate m 0, tail ||| (2 ^ m - 1))
  | none => (List.replicate (if l.rate = 2 then 32 else 48) 0, tail ||| 0xFFFF)

/-- The LFE writes the operand of a pass into the Basin (R400): an active forwards it (R336); a standby uses the active's (R403);
LFE.UNIT_FAULT leaves the slot empty, so that the pass is concealed (R404). -/
def lineOperandWrite (n : Nat) (samples : List (BitVec 18)) (sats : Nat) (d : Dev) : Dev :=
  if !hasLfe d || decide (32 ≤ n) then d
  else
    let l := line n d
    let p := d.weir.nextP - 1000000
    let o := lineOperand n samples sats d
    let keep := l.edges.filter (fun e => decide (0 < sdiff e.1 p)) ++ (l.edges.filter fun e => decide (sdiff e.1 p ≤ 0)).take 1
    let d1 := addRg (kLine n oLFE_LN_CNT_SAT) sats (modLine n (fun l => { l with edges := keep, sat := decide (0 < sats) }) d)
    let d2 := if decide (0 < sats) = l.sat then d1 else lineFault n 4 4 (decide (0 < sats)) (now d) d1
    match l.bound with
    | none => d2
    | some b =>
      let d3 := if (voiceSamples l.rate).isNone then raise 0x150 3 d2 else d2
      if shadowing d || faulted 0x150 d then d3
      else
        let d4 := if paired d3 then modTwin (fun t => { t with lines := t.lines ++ [⟨b.1, b.2, o.1, o.2⟩] }) d3 else d3
        fillLeg b.1 b.2 p (.pcm o.1 o.2) d4

/-! ### At a boundary (R393, R397, R399, R402) and at a takeover (R403) -/

/-- The binding a line takes at a boundary (R399). -/
def bindApply (n : Nat) (q : NT32) (d : Dev) : Dev :=
  let c := rg (kLine n oLFE_LN_BIND_CTRL) d
  let h : W32 := BitVec.ofNat 32 (rgN (kLine n oLFE_LN_BIND) d)
  let d1 := if (line n d).writes.any (fun w => w.1 = oLFE_LN_BIND_CTRL)
    then modLine n (fun l => { l with bound := if bit c 0 then some (h, fld c 1 1) else none }) d else d
  match (line n d1).bound with
  | none => d1
  | some b =>
    if !current b.1 d1 then bindingStale n d1
    else
      let r := rate (descNow (hSlot b.1) d1)
      let d2 := modLine n (fun l => { l with rate := r }) d1
      let d3 := if (voiceSamples r).isNone then raise 0x150 3 d2 else d2
      if r = (line n d).rate then d3 else settle n q d3

/-- With RT_STOP, ring trip that is on stops the cadence (R394). -/
def tripped (n : Nat) (d : Dev) : Dev :=
  if (line n d).sw.getD 1 false && bit (lnReg n oLFE_LN_RING_CTRL d) 30 then cadenceStops n d else d

/-- Host writes to a line's page take effect (R392, R394, R397). -/
def lineApply (n : Nat) (q : NT32) (d : Dev) : Dev :=
  let w := (line n d).writes
  let was := lnReg n oLFE_LN_CFG d
  let cfg := rg (kLine n oLFE_LN_CFG) d
  let wrote (off : Nat) : Bool := w.any fun x => decide (x.1 = off)
  let d1 := modLine n (fun l => { l with writes := [] }) (bindApply n q d)
  let d2 := if wrote oLFE_LN_CFG then modLine n (fun l => { l with
      range := if bit cfg 23 then min l.range 2 else fld cfg 25 24 }) d1 else d1
  let d3 := if wrote oLFE_LN_CFG ∧ (fld was 18 16 ≠ fld cfg 18 16 ∨ fld was 25 24 ≠ fld cfg 25 24) then settle n q d2 else d2
  let d4 := retag n q d3
  let d5 := if lineMode n d4 ≠ 2 then cadenceStops n d4 else d4
  if !wrote oLFE_LN_RING_CTRL then d5
  else if bit (rg (kLine n oLFE_LN_RING_CTRL) d5) 31 then
    (if !(line n d5).cadence && decide (lineMode n d5 = 2) then tripped n (cadenceStart n q d5) else d5)
  else cadenceStops n d5

/-- The lines at a boundary. -/
def linesBoundary (q : NT32) (d : Dev) : Dev :=
  let d1 := d.lfe.lines.foldl (fun x e => lineApply e.1 q x) d
  if afterRebase d1 then d1 else modLfe (fun e => { e with rebaseEnd := none }) d1

/-- The output of a LINE leg released at a boundary enters the interpolator (R400): those of the pass before are still in it. -/
def lineRelease (h : W32) (leg : Nat) (q : NT32) (x : List (BitVec 18)) (d : Dev) : Dev :=
  match lineFor h leg d with
  | some n => modLine n (fun l => { l with out := l.out.drop (l.out.length - x.length) ++ x, outAt := q }) d
  | none => d

/-- The lines at a takeover (R403): a LINE_STATE record for each bound line, and the word of the cadence phase in force. -/
def linesTakeover (d : Dev) : Dev :=
  d.lfe.lines.foldl (fun x e =>
    let sw := (e.2.sw.zipIdx.map fun s => b2n s.1 <<< s.2).foldl (· + ·) 0
    let x1 := if e.2.bound.isSome then lineRecord 0x92 e.1 sw (lineMode e.1 x) (lineStatus e.1 x) (now x) x else x
    if bit (lnReg e.1 oLFE_LN_RING_CTRL x) 31 ∧ e.2.cadence
    then pushWord e.1 (if e.2.ringOn then oLFE_LN_RING_ON_CMD else oLFE_LN_RING_OFF_CMD) x1 else x1) d

/-! ### The commands -/

/-- RING_ON (R391, R394). -/
def execRingOn (n : Nat) : State → Host.Outcome State Fault Refusal := onDev (ringOnEvent n)
/-- RING_OFF (R391, R394). -/
def execRingOff (n : Nat) : State → Host.Outcome State Fault Refusal := onDev (ringOffEvent n)
/-- RING_STOP (R394). -/
def execRingStop (n : Nat) : State → Host.Outcome State Fault Refusal := onDev (ringStop n)
/-- SUPERVISION_SAMPLE (R390, R395 to R398, R404). -/
def execSupervisionSample (n : Nat) (tip ring : BitVec 18) (cur : BitVec 16) (coarse : List (Nat × BitVec 8)) :
    State → Host.Outcome State Fault Refusal := onDev (supervise n tip ring cur coarse)
/-- RANGE_CHANGE (R388). -/
def execRangeChange (n : Nat) (cur vt vr : BitVec 8) (run : Nat) : State → Host.Outcome State Fault Refusal :=
  onDev (coarseSample n cur vt vr run)
/-- LINE_BLANK_CHANGE (R391). -/
def execLineBlankChange (high : Bool) : State → Host.Outcome State Fault Refusal := onDev (blankPin high)
/-- SETTLE_END (R392). -/
def execSettleEnd (n : Nat) : State → Host.Outcome State Fault Refusal := onDev (settleEnds n)
/-- RESET_NEXT (R393). -/
def execResetNext : State → Host.Outcome State Fault Refusal := onDev (fromHost 0 (lfeCtrl 1))
/-- RESET_AT (R393). -/
def execResetAt : State → Host.Outcome State Fault Refusal := onDev (fromHost 0 (lfeCtrl 2))
/-- SYNC_CLU (R393). -/
def execSyncClu : State → Host.Outcome State Fault Refusal := onDev (fromHost 0 (lfeCtrl 4))
/-- DECIMATOR_RESET (R393). -/
def execDecimatorReset : State → Host.Outcome State Fault Refusal := onDev decimatorReset
/-- LINE_OPERAND_WRITE (R387, R400). -/
def execLineOperandWrite (n : Nat) (samples : List (BitVec 18)) (sats : Nat) : State → Host.Outcome State Fault Refusal :=
  onDev (lineOperandWrite n samples sats)
/-- LINE_BIND (R399). -/
def execLineBind (n : Nat) (v : W32) : State → Host.Outcome State Fault Refusal := onDev (fromHost 0 (lineBind n v))
/-- LINE_MODE_WRITE (R389, R397). -/
def execLineModeWrite (n : Nat) (v : W32) : State → Host.Outcome State Fault Refusal :=
  onDev (fromHost 0 (lineWrite n oLFE_LN_CFG v))
/-- BLANK_GUARD_END (R391). -/
def execBlankGuardEnd (n : Nat) : State → Host.Outcome State Fault Refusal := onDev (guardEnds n)

end Sys2Proof.Machine
end

