-- ==== Sys2Proof/Machine/Twin.lean ====
section
/-! DEFINITION. The Twin Link: pairing, fencing, shadow execution, digests, failover, switchover and re-attach (rules R94, R134, R181,
R330 to R353). -/
namespace Sys2Proof.Machine

/-! ### Attaching: the bulk transfer (R336, R351) -/

/-- Registers of partitions and of the boundary-applied set that the bulk transfer carries (R340, R351). -/
def bulkReg (key : Nat) : Bool :=
  (decide (0x200 ≤ key / 0x1000) && decide (key / 0x1000 < 0x600) && decide (key % 0x1000 < 0x200))
    || [rWEIR_ADMIT_CEIL, rWEIR_DEADLINE, rJB_CTRL].contains key

/-- What the bulk transfer's first part sends. -/
def bulkItems (d : Dev) : List BulkItem :=
  (d.path.flows.filter (·.2.held)).map (fun e => .flow e.1 e.2.words)
  ++ (d.path.keys.filter (·.2.loaded)).map (fun e => .key e.1 e.2.key e.2.salt e.2.mki e.2.mkiLen e.2.roc e.2.top e.2.seen e.2.rtcpTop
      e.2.rtcpSeen e.2.sent e.2.rtcpSent)
  ++ d.path.binds.map (fun e => .binding e.1 e.2.ctrl e.2.ports e.2.ip)
  ++ d.path.pols.map (fun e => .policer e.1 e.2.pkt e.2.byte e.2.burst)
  ++ (d.progs.filter (·.2.loaded)).map (fun e => .prog (e.1 / 65536) (e.1 % 65536) e.2.code e.2.image)
  ++ (d.regs.filter fun e => bulkReg e.1).map (fun e => .reg e.1 e.2)
  ++ (d.weir.shed.map fun e => .shed e.1 e.2.cfg)
  ++ (d.slots.filter fun e => e.2.live).map (fun e =>
      let c : Nat × Nat × List W32 := match e.2.pend with | some p => (p.kind.code, p.at_.toNat, p.desc) | none => (0, 0, [])
      .channel e.1 (handleOf e.1 d) e.2.running e.2.actAt e.2.desc e.2.write c.1 c.2.1 c.2.2)

/-- Send a channel's CONTEXT, as committed by the pass `p` (R336, R342). -/
def sendContext (k : Nat) (p : NT32) (d : Dev) : Dev :=
  out (.context (handleOf k d) p (slot k d).ctx (slot k d).media (slot k d).legA (slot k d).legB) d

/-- A channel's CONTEXT for an attach (R351): the state its last pass committed, once no job of the channel is under way. -/
def copyChannel (k : Nat) (d : Dev) : Dev :=
  let h := handleOf k d
  if d.weir.lists.any fun e => e.2.any fun j => !j.bus && decide (j.handle = h) && decide (j.st ≠ .streamOut)
  then modTwin (fun t => { t with want := t.want ++ [(h, false)] }) d
  else
    let waits := d.weir.tokens.any fun t => !t.bus && decide (t.handle = h) && t.elig
    sendContext k (d.weir.lastP - (if waits then 2000000 else 1000000)) d

/-- An active begins to serve an attach: the tables, then the channels in ascending slot order (R351). -/
def bulkSend (d : Dev) : Dev :=
  let d1 := (bulkItems d).foldl (fun x b => out (.bulk b) x) d
  (activeSlots d).foldl (fun x k => copyChannel k x) d1

/-- An item of the bulk transfer arrives at the attaching device (R351). -/
def bulkTake (b : BulkItem) (d : Dev) : Dev :=
  if d.twin.role ≠ .pairing ∨ !d.twin.link then d
  else match b with
    | .flow i ws => modFlow i (fun f => { f with words := ws }) ((putFlow i ws d).getD d)
    | .key i key salt mki len roc top seen rtop rseen sent rsent => modKey i (fun _ => { Key.reset with
        loaded := true, key := key, salt := salt, mki := mki, mkiLen := len, roc := roc, top := top, seen := seen, rtcpTop := rtop,
        rtcpSeen := rseen, sent := sent, rtcpSent := rsent }) d
    | .binding i c p ip => setBinding i ⟨c, p, ip⟩ d
    | .policer p a y s => policerSet p a y s d
    | .prog p id code image =>
      installProg p id code image (lowestFree (ceilDiv image.length 1024) 3072 (tenantTaken d)) (imagePages image.length) d
    | .reg key v => if bulkReg key then setRg key v d else d
    | .shed p v => modShed p (fun s => { s with cfg := v }) d
    | .channel k h active act l ws kind at_ next =>
      let d1 := modSlot k (fun _ => { Slot.reset with
        gen := BitVec.ofNat 8 (hGen h), part := hPart h, st := if active then .active else .activating, desc := l, write := ws,
        actAt := act }) d
      let p : Option PendKind := match kind with | 1 => some .activate | 2 => some .release | 3 => some .modifyAt | 4 => some .deferred | _ => none
      setCh k .copying (recharge k (match p with
        | some c => setPend k (some ⟨c, BitVec.ofNat 32 at_, next⟩) d1
        | none => d1))

/-- A channel's context is installed (R342, R351): its state is then that of the active, in place of what its own job of that pass would
commit, and the token of the next pass has its context. -/
def installContext (h : W32) (p : NT32) (ctx : Nat) (m : Media) (a b : Leg) (d : Dev) : Dev :=
  let k := hSlot h
  if !shadowing d || !current h d || decide (chSt k d ≠ .copying ∧ chSt k d ≠ .resync) then d
  else
    let d1 := putContext k ctx (modSlot k (fun s => { s with
      ctx := ctx, media := m, initDone := true, suspect := false, inits := s.inits + 1, legA := a, legB := b }) d)
    let l := (slot k d1).desc
    let d2 := syncPrefetch k l d1.weir.nextP d1
    let d3 := syncStreams k l (nt64Of d2 d2.weir.lastP) d2
    fillCtx false h (modTwin (fun t => { t with installed := (h, p) :: t.installed.filter fun e => decide (e.1 ≠ h) }) d3)

/-! ### Operations (R336, R340) -/

/-- The operation an active forwards is applied by the standby, at the boundary it names where it names one. -/
def applyOp (o : TwinOp) (d : Dev) : Dev :=
  match o with
  | .chw op h at_ l =>
    let k := hSlot h
    if op = 6 then moveChange k (at_ - 1000000) d
    else if op = 7 then (match tabGet (fun _ => none) d.twin.before k with | some s => withdraw k s d | none => d)
    else
    let d0 := modTwin (fun t => { t with before := tabSet (fun _ => none) t.before k (some (slot k d)) }) d
    let d1 := if op = 3 then setCh k .shadow (modSlot k (fun s => { s with gen := BitVec.ofNat 8 (hGen h) }) d0) else d0
    chwApply op (hPart h) k at_ l d1
  | .flow _ op i ws =>
    if op = 2 then (putFlow i ws d).getD d
    else if op = 3 then removeFlow i d
    else modFlow i (fun f => modifiedFlow ws f (now64 d)) d
  | .key _ op h c mki roc ms ss =>
    let k := hSlot h
    let leg := fld c 0 0
    if op = 1 then loadKey k leg c.toNat (legSuite (descNow k d) leg) ms ss mki roc d
    else modKey (keyIdx k leg (fld c 1 1) (fld c 2 2)) (fun _ => Key.reset) d
  | .prgLoad p id code image =>
    installProg p id code image (lowestFree (ceilDiv image.length 1024) 3072 (tenantTaken d)) (imagePages image.length) d
  | .prgUnload p id => unload (progKey p id) d
  | .binding i c p ip => setBinding i ⟨c, p, ip⟩ d
  | .policer p a y s => policerSet p a y s d
  | .quota p off v => raisePart p 1 (storeReg (0x200 + p) off v d)
  | .partState p open_ => if open_ then openPart p d else closePart p d
  | .jbCtrl v at_ => putJb (nt64Of d at_) v d
  | .shed p n at_ => modWeir (fun w => { w with shedStep := some (p, n, at_) }) d
  | .switchover x => modTwin (fun t => { t with handover := some x }) d
  | .shedCfg _ _ _ => modTwin (fun t => { t with atBoundary := t.atBoundary ++ [o] }) d
  | .weirReg _ _ _ => modTwin (fun t => { t with atBoundary := t.atBoundary ++ [o] }) d

/-- OP: applied, and acknowledged. -/
def opTake (o : TwinOp) (d : Dev) : Dev := if shadowing d then tell 7 [] (applyOp o d) else d

/-- The completion of a forwarded operation is reported (R71, R340). -/
def opDone (o : TwinOp) (d : Dev) : Dev :=
  match o with
  | .chw op h q _ => if op = 7 then d else chwAcked h q d
  | .flow p _ _ _ => flwResult p 0 d
  | .key p _ _ _ _ _ _ _ => setRgN (kKey p oKEY_STATUS) 0 d
  | .prgLoad p id _ _ => prgResult p id 0 d
  | .prgUnload p id => prgResult p id 0 d
  | _ => d

/-- OP_ACK for the oldest operation forwarded. -/
def opAck (d : Dev) : Dev :=
  match d.twin.acks with
  | [] => d
  | o :: rest => opDone o (incRg rTWIN_CNT_OP_FWD (modTwin (fun t => { t with acks := rest }) d))

/-- Without a peer, what awaited its acknowledgement completes (R71, R335). -/
def proceedAlone (d : Dev) : Dev :=
  let d1 := modTwin (fun t => { t with acks := [], lines := [], want := [], peerRole := 0, sent := [] }) d
  d.twin.acks.foldl (fun x o => opDone o x) d1

/-- Operations named for a boundary take effect at it (R340). -/
def twinApply (q : NT32) (d : Dev) : Dev :=
  let due (o : TwinOp) : Bool := match o with
    | .shedCfg _ _ b => decide (0 ≤ sdiff q b)
    | .weirReg _ _ b => decide (0 ≤ sdiff q b)
    | _ => true
  let d1 := modTwin (fun t => { t with atBoundary := t.atBoundary.filter fun o => !due o }) d
  (d.twin.atBoundary.filter due).foldl (fun x o => match o with
    | .shedCfg p v _ => modShed p (fun s => { s with cfg := v }) x
    | .weirReg off v _ => setRgN (0x20000 + off) v.toNat x
    | _ => x) d1

/-! ### Roles and the ACT line (R333 to R335, R346, R347) -/

/-- The active yields (R334, R347): its ACT line falls, it becomes STANDBY and steers to its peer. -/
def yieldRole (told : Bool) (d : Dev) : Dev :=
  let st : ChSt := if d.twin.link then .shadow else .diverged
  let d1 := proceedAlone (modTwin (fun t => { t with
    role := .standby, taking := none, handover := none, cfgSrc := if d.tb.src = 4 then t.cfgSrc else d.tb.src }) d)
  let d2 := (activeSlots d1).foldl (fun x k => setCh k st x) (modTwin (fun t => { t with peerRole := 2 }) d1)
  let d3 := driveSync (driveAct (setSource 4 d2))
  if told then raise 0x120 2 d3 else d3

/-- A record to the operator's event ring and to that of every partition with an ACTIVE channel. -/
def toActiveParts (x : Rec) (d : Dev) : Dev :=
  let ps := ((d.slots.filter fun e => decide (e.2.st = .active)).map fun e => e.2.part).eraseDups.filter (· ≠ 0)
  ps.foldl (fun y p => event p x y) (event 0 x d)

/-- Q6 frames a standby retained whose instants have passed. -/
def passedFrames (d : Dev) : Nat :=
  sumL ((List.range 4).map fun p => ((port p d).q6.filter fun e => decide (sdiff e.at_ (now d) < 0)).length)

/-- Steps 3 to 6 of a takeover (R94, R347, R352, R379, R403). `trigger`: 1 ACT line, 2 heartbeats, 3 SWITCHOVER. -/
def takeoverSteps (trigger : Nat) (d : Dev) : Dev :=
  let copying := (activeSlots d).filter fun k => decide (chSt k d = .copying)
  let n := passedFrames d
  let held := d.path.waiting
  let trunks := d.path.trunkIn
  let recs := d.twin.retained
  let units := d.recd.retained
  let d1 := modTwin (fun t => { t with
    role := .active, taking := none, handover := none, ch := [], installed := [], digests := [], ingress := [], fetched := [],
    horizon := none, retained := [], peerRole := if trigger = 3 then 3 else 0, missRun := 0, unlockRun := 0, attach := false, attachStep := false }) d
  let d2 := raise 0x120 1 (driveAct d1)
  let d3 := setServo .locking (modTb (fun t => { t with src := d2.twin.cfgSrc, qualified := false }) d2)
  let d4 := trunks.foldl (fun x w => takeTrunk w.port w.stamp w.frame x)
    (held.foldl (fun x w => classifier w.frame (stampNt (rxStamp16 w.frame.port w.frame.stamp w.frame.frac x)) x)
      { d3 with path := { d3.path with waiting := [], trunkIn := [] } })
  let d5 := addRg rTWIN_CNT_CATCHUP n d4
  let d6 := recs.foldl (fun x r => ringOffer (ringKey r.part r.ringNo) ⟨r.typ, r.nt, r.handle, r.body⟩ x) d5
  let d7 := units.foldl (fun x u => routeUnit u x) (modRec (fun r => { r with
    retained := [], spools := r.spools.map fun e => (e.1, { e.2 with st := 0 }) }) d6)
  let d8 := copying.foldl (fun x k => suspect k x) (spoolCheckAll d7)
  let d9 := toActiveParts ⟨0x70, now d, 0, body [(12, 4, d.twin.launched.toNat), (16, 4, d.twin.written.toNat), (20, 1, trigger)]⟩ d8
  linesTakeover (driveSync (setRgN rTWIN_LAST_TAKEOVER (now d).toNat (incRg rTWIN_CNT_TAKEOVER d9)))

/-- A takeover begins (R346, R347): the ACT line rises; while the peer's is high, its fall is awaited. -/
def takeover (trigger : Nat) (d : Dev) : Dev :=
  if d.twin.fence ∨ (d.twin.role ≠ .standby ∧ d.twin.role ≠ .pairing) ∨ d.twin.taking.isSome ∨ d.pwr.st = .fault then d
  else
    let d1 := out (.pin .act true) (modTwin (fun t => { t with own := true, taking := some (now d, trigger) }) d)
    if d.twin.peer then d1 else takeoverSteps trigger d1

/-- The peer's ACT line falls (R346). -/
def peerFalls (d : Dev) : Dev :=
  let d1 := modTwin (fun t => { t with peer := false }) d
  match d.twin.taking with
  | some (_, n) => takeoverSteps n d1
  | none => driveSync (driveAct (takeover 1 d1))
/-- The peer's ACT line rises (R333, R347). -/
def peerRises (d : Dev) : Dev :=
  let d1 := modTwin (fun t => { t with peer := true }) d
  if d.twin.role = .active ∧ d.twin.own then yieldRole true d1 else driveSync (driveAct d1)
/-- Both lines stay high 10 µs after a takeover began: the taker backs off (R347). -/
def fenceConflict (d : Dev) : Dev :=
  match d.twin.taking with
  | some (t, _) =>
    if d.twin.peer && decide (10000 ≤ sdiff (now d) t) then
      raise 0x120 8 (out (.pin .act false) (modTwin (fun w => { w with own := false, taking := none, missRun := 0 }) d))
    else d
  | none => d
/-- FENCE_N goes low (R333, R334). -/
def fenceLow (d : Dev) : Dev :=
  if !hasTwin d then d
  else
    let d1 := modTwin (fun t => { t with fence := true, taking := none }) d
    if d.twin.role = .active then yieldRole true d1 else driveSync (driveAct d1)
/-- FENCE_N goes high (R334, R353): a standby whose peer's line reads low takes over. -/
def fenceHigh (d : Dev) : Dev :=
  if !hasTwin d then d
  else
    let d1 := driveSync (driveAct (modTwin (fun t => { t with fence := false }) d))
    if d.twin.role = .standby ∧ !d.twin.peer then takeover 1 d1 else d1

/-! ### The link and pairing (R330 to R332) -/

/-- The link trains (R330); an attach is asked for again with AUTO_REATTACH (R351). -/
def linkTrained (lanes : Nat) (d : Dev) : Dev :=
  if !hasTwin d then d
  else
    let again := d.twin.seen && bit (rg rTWIN_CFG d) 2 && decide (d.twin.role = .standby ∨ d.twin.role = .detached)
    let n := if 4 ≤ lanes then 4 else if 2 ≤ lanes then 2 else 1
    let d1 := modTwin (fun t => { t with link := true, lanes := n, missRun := 0, attach := t.attach || again }) d
    if n < 4 then raise 0x120 6 d1 else d1
/-- Lanes fail (R330). -/
def laneLost (lanes : Nat) (d : Dev) : Dev :=
  if d.twin.link ∧ (lanes = 1 ∨ lanes = 2) ∧ lanes < d.twin.lanes
  then raise 0x120 6 (modTwin (fun t => { t with lanes := lanes }) d) else d
/-- The link goes down (R330, R335, R343): a standby's channels diverge; an attach ends. -/
def linkGone (d : Dev) : Dev :=
  if !d.twin.link then d
  else
    let d1 := unitFault 0x120 (modTwin (fun t => { t with link := false, lanes := 0, locked := false }) d)
    match d.twin.role with
    | .standby => diverge d1
    | .pairing => modTwin (fun t => { t with role := .detached }) (diverge d1)
    | .active => proceedAlone d1
    | _ => d1

/-- Is pairing asked for (R331, R335, R351)? -/
def mayPair (d : Dev) : Bool :=
  hasTwin d && d.twin.link && bit (rg rTWIN_CFG d) 0
    && (decide (d.twin.role = .alone ∨ d.twin.role = .active) || d.twin.attach)

/-- Pairing (R331, R332): it fails where the identities do, else the roles are decided. -/
def pair (peer : TwinPeer) (d : Dev) : Dev :=
  if !mayPair d then d
  else
    let side := bit d.pwr.straps 0
    let d0 := setRg rTWIN_PAIR_ID peer.ownId d
    if peer.pairId ≠ peer.ownId ∨ !peer.certOk ∨ peer.side = side then raise 0x120 7 d0
    else
      let mine := fld (rg rTWIN_CFG d) 15 8
      let was := decide (d.twin.role = .active) || (decide (d.twin.role = .alone) && d.twin.own)
      let first := was || (!peer.active && !d.twin.fence && (decide (peer.prio < mine) || (decide (mine = peer.prio) && side)))
      let d1 := modTwin (fun t => { t with seen := true, attach := false, missRun := 0, unlockRun := 0 }) d0
      if first then bulkSend (driveSync (driveAct (modTwin (fun t => { t with role := .active, peerRole := 1 }) d1)))
      else
        let d2 := modTwin (fun t => { t with
          role := .pairing, peerRole := 2, attachStep := true, ch := [], installed := [], digests := [], ingress := [],
          retained := [], horizon := none, cfgSrc := if d.tb.src = 4 then t.cfgSrc else d.tb.src }) d1
        driveSync (driveAct (setSource 4 ((activeSlots d2).foldl (fun x k => setCh k .copying x) d2)))

/-- The attach ends as STANDBY when every ACTIVE channel is in SHADOW (R335, R351). -/
def bulkDone (d : Dev) : Dev :=
  if d.twin.role = .pairing ∧ d.twin.link ∧ allShadow d then modTwin (fun t => { t with role := .standby }) d else d

/-- TWIN_CFG.ENABLE written (R335): without it a DETACHED device is ALONE (log entry 227). -/
def twinEnable (on : Bool) (d : Dev) : Dev :=
  if !on ∧ d.twin.role = .detached then driveSync (driveAct (modTwin (fun t => { t with role := .alone, attach := false }) d)) else d
/-- A write of TWIN_CMD 2 (R351). -/
def detachCmd (d : Dev) : Dev :=
  if d.twin.role = .standby then driveAct (modTwin (fun t => { t with role := .detached, ch := [], taking := none }) d)
  else reject 0 .busy 0 rTWIN_CMD 4 d
/-- A write of TWIN_CMD 3 (R351). -/
def attachCmd (d : Dev) : Dev :=
  if d.twin.role = .detached then modTwin (fun t => { t with attach := true }) d else reject 0 .busy 0 rTWIN_CMD 4 d
/-- A write of TWIN_CMD 1 (R350). An active knows its peer's channels to be in SHADOW while the peer is STANDBY and has no context
asked for. -/
def switchCmd (d : Dev) : Dev :=
  if d.twin.role = .active ∧ d.twin.link ∧ d.twin.peerRole = 3 ∧ d.twin.want = [] ∧ d.twin.handover.isNone then
    let x := farBoundary d
    forward (.switchover x) (modTwin (fun t => { t with handover := some x }) d)
  else reject 0 .busy 0 rTWIN_CMD 4 d
/-- A TWIN_CMD write reaches a device that has the unit. -/
def twinCmd (f : Dev → Dev) : Dev → Dev :=
  fromHost 0 fun d => if hasTwin d then f d else reject 0 .reserved 0 rTWIN_CMD 4 d

/-- At the boundary named, both ACT lines change on one tick (R350). -/
def switchNow (d : Dev) : Dev :=
  match d.twin.handover with
  | some x =>
    if !reached d x then d
    else match d.twin.role with
      | .active => modTwin (fun t => { t with peer := true }) (yieldRole false d)
      | .standby =>
        let d1 := (List.range 4).foldl (fun y p => modPort p (fun q => { q with q6 := q.q6.filter fun e => decide (0 ≤ sdiff e.at_ x) }) y) d
        takeoverSteps 3 (modTwin (fun t => { t with peer := false }) d1)
      | _ => modTwin (fun t => { t with handover := none }) d
  | none => d

/-! ### Heartbeats and time (R337, R341, R344) -/

/-- Every Q6 frame before this instant has started. -/
def launchedMark (d : Dev) : NT32 :=
  (List.range 4).foldl (fun t p => match (port p d).q6 with
    | e :: _ => if sdiff e.at_ t < 0 then e.at_ else t
    | [] => t) (now d)

/-- The boundary up to whose releases all has been written to host memory (R337): the last, or where units wait in staging the one before. -/
def writtenMark (d : Dev) : NT32 := if d.recd.staged.isEmpty then d.weir.lastP else d.weir.lastP - 1000000

/-- A heartbeat leaves, one at each instant of the 125 µs grid (R22, R336, R337); an active that runs alone sends none (R335). -/
def heartbeatTx (d : Dev) : Dev :=
  let t : W64 := BitVec.ofNat 64 ((now64 d).toNat / 125000 * 125000)
  if !d.twin.link ∨ !d.twin.seen ∨ d.twin.hbAt = some t ∨ (d.twin.role = .active ∧ !paired d) then d
  else
    let own := if d.twin.role = .active then [(launchedMark d).toNat, (writtenMark d).toNat] else []
    tell 0 ([d.twin.hbSeq.toNat, t.toNat % 2 ^ 32, d.twin.role.code, b2n d.twin.fence] ++ own)
      (modTwin (fun w => { w with hbSeq := w.hbSeq + 1, hbAt := some t }) d)

/-- What an active has confirmed is no longer retained (R341). -/
def discardTo (launched written : NT32) (d : Dev) : Dev :=
  let d1 := (List.range 4).foldl (fun x p =>
    modPort p (fun q => { q with q6 := q.q6.filter fun e => decide (0 ≤ sdiff e.at_ launched) }) x) d
  modRec (fun r => { r with retained := r.retained.filter fun u => decide (0 < sdiff u.at_ written) })
    (modTwin (fun t => { t with
      launched := launched, written := written, retained := t.retained.filter fun x => decide (0 < sdiff x.at_ written) }) d1)

/-- Time from the exchange (R344): the attach steps once; then the offset is followed, and its limits. -/
def twinTime (off : Int) (delay : Nat) (d : Dev) : Dev :=
  let o := off - ((rg rTWIN_LINK_ASYM d).extractLsb' 0 16).toInt
  let d1 := setRgN rTWIN_TIME_OFFSET (word32 o) (setRgN rTWIN_LINK_DELAY (delay % 2 ^ 32) d)
  let mag : Int := o.natAbs
  let lim : Int := rgN rTWIN_LOCK_LIMIT d * 16
  if d.twin.attachStep then applyStep (-((o + 8).fdiv 16)) (modTwin (fun t => { t with attachStep := false }) d1)
  else
    let run := if lim < mag then d.twin.unlockRun + 1 else 0
    let d2 := modTwin (fun t => { t with locked := decide (mag ≤ lim), unlockRun := run }) d1
    let d3 := if run = 16 then raiseF 0x120 5 0x120 d2 else d2
    let d4 := if d3.tb.src ≠ 4 then d3
      else
        let d5 := if d3.tb.qualified then d3 else sourceQualified d3
        afterServo (measure (wholeNs (o * 4096)) d5)
    if (rgN rTB_JUMP_LIMIT d : Int) * 16 < mag then
      let d6 := diverge d4
      if bit (rg rTWIN_CFG d) 2 ∧ d6.twin.role = .standby
      then modTwin (fun t => { t with role := .detached, attach := true }) d6 else d6
    else d4

/-- A heartbeat arrives (R337). -/
def heartbeatRx (h : TwinHb) (d : Dev) : Dev :=
  if !d.twin.link ∨ !d.twin.seen then d
  else
    let d1 := modTwin (fun t => { t with missRun := 0, peerRole := h.role }) d
    if !shadowing d then d1
    else
      let d2 := match h.launched, h.written with
        | some l, some w => if d1.twin.role = .standby then discardTo l w d1 else d1
        | _, _ => d1
      twinTime h.offset h.delay d2

/-- A heartbeat is missed (R337, R346): three in a row let a standby take over, and leave an active alone. -/
def heartbeatMissed (d : Dev) : Dev :=
  if !d.twin.seen ∨ d.twin.role = .alone ∨ d.twin.role = .detached then d
  else
    let n := d.twin.missRun + 1
    let d1 := raiseF 0x120 3 0x120 (incRg rTWIN_CNT_HB_MISS (modTwin (fun t => { t with missRun := n }) d))
    if n < 3 then d1
    else if d.twin.role = .active then proceedAlone d1
    else if n = 3 then takeover 2 d1 else d1

/-! ### Ingress (R181, R338) -/

/-- An ingress record (R336, R338). -/
def ingressRx (r : IngressRec) (d : Dev) : Dev :=
  if !shadowing d then d
  else serveRecords (incRg rTWIN_CNT_RECORDS (modTwin (fun t => { t with ingress := t.ingress ++ [(r, now d)] }) d))

/-- A payload is asked for (R338): by a standby for a record 50 µs old without a copy; an active answers with what it took. -/
def payloadReq (digest : W64) (d : Dev) : Dev :=
  if !d.twin.link then d
  else if d.twin.role = .active then
    (match d.twin.sent.find? fun e => decide (e.1.digest = digest) with | some e => out (.payload e.1) d | none => d)
  else if !shadowing d then d
  else match d.twin.ingress.find? fun e => decide (e.1.digest = digest) && e.1.frame.isNone && e.1.trunk.isNone with
    | some e => if 50000 ≤ sdiff (now d) e.2 then tell 3 [digest.toNat] (incRg rJB_CNT_TWIN_FETCH d) else d
    | none => d

/-- A payload arrives (R181, R338). -/
def payloadRx (r : IngressRec) (f : RxFrame) (d : Dev) : Dev :=
  if !shadowing d || !(d.twin.ingress.any fun e => decide (e.1.digest = r.digest)) then d
  else
    serveRecords (modTwin (fun t => { t with
      fetched := r.digest :: t.fetched,
      ingress := t.ingress.map fun e => if e.1.digest = r.digest then ({ e.1 with frame := some f, trunk := r.trunk }, e.2) else e }) d)

/-- What is held for 2 ms without a record is discarded (R181), the oldest first. -/
def orphans (d : Dev) : Dev :=
  let old (t : NT32) : Bool := decide (2000000 ≤ sdiff (now d) t)
  match d.path.waiting, d.path.trunkIn with
  | w :: rest, ts =>
    if old w.at_ then incRg rJB_CNT_TWIN_ORPHAN { d with path := { d.path with waiting := rest } }
    else match ts with
      | t :: more => if old t.at_ then incRg rJB_CNT_TWIN_ORPHAN { d with path := { d.path with trunkIn := more } } else d
      | [] => d
  | [], t :: more => if old t.at_ then incRg rJB_CNT_TWIN_ORPHAN { d with path := { d.path with trunkIn := more } } else d
  | [], [] => d

/-! ### Firing and LINE operands on a standby (R31, R339) -/

/-- HORIZON, or the moment it is given up: the tokens due at the instant fire. -/
def horizonNow (t : NT32) (d : Dev) : Dev :=
  if !shadowing d || (match d.twin.horizon with | some h => decide (sdiff t h ≤ 0) | none => false) then d
  else
    let d1 := modTwin (fun w => { w with horizon := some t }) d
    if !weirRuns d1 then d1
    else if t = d1.weir.lastP then fireReady d1 else deadline (fireReady d1)
/-- A HORIZON that is missing 5 µs after its instant is given up. -/
def horizonMissing (t : NT32) (d : Dev) : Dev := if 5000 ≤ sdiff (now d) t then horizonNow t d else d
/-- The LINE operand of the pass just ended. -/
def lineRx (h : W32) (leg : Nat) (x : List (BitVec 18)) (status : Nat) (d : Dev) : Dev :=
  if shadowing d then fillLeg h leg (d.weir.lastP - 1000000) (.pcm x status) d else d
/-- An active sends the LINE operands of the pass just ended, and HORIZON for an instant (R336). -/
def sendHorizon (t : NT32) (d : Dev) : Dev :=
  if !paired d then d
  else
    let d1 := d.twin.lines.foldl (fun x l => tell 5 ([l.handle.toNat, l.leg, l.status] ++ l.samples.map (·.toNat)) x) d
    tell 2 [t.toNat] (modTwin (fun w => { w with lines := [] }) d1)

/-! ### Digests and contexts (R342, R343) -/

/-- The state of a leg that the digest covers. -/
def legDigest (g : Leg) : List Nat :=
  [(match g.anchor with | some a => a.1.toNat | none => 0), (match g.anchor with | some a => a.2.toNat | none => 0), g.held.length,
    g.txSeq.toNat, g.txCount, g.framePasses, g.frameStart.toNat] ++ g.frame.map (·.toNat) ++ g.held.map (·.seq.toNat)
/-- What the digest covers of a channel's media state. -/
def mediaDigest (m : Media) : List Nat :=
  [b2n m.passThrough, b2n m.ecOff, m.ec.coef, m.ec.valid, m.ec.hist, m.gen.kind, m.gen.played, m.agcA.natAbs, m.agcB.natAbs, m.noiseA, m.noiseB]
/-- The digest of a channel's released pass (R342). -/
def channelDigest (k : Nat) (o : Option JobOut) (d : Dev) : W32 :=
  let s := slot k d
  let x := match o with | some y => y.toA ++ y.toB | none => []
  Config.stateDigest s.ctx x (mediaDigest s.media ++ legDigest s.legA ++ legDigest s.legB)

/-- A channel's pass is released: an active sends its digest, a standby keeps its own. -/
def digestOut (h : W32) (p : NT32) (o : Option JobOut) (d : Dev) : Dev :=
  let v := channelDigest (hSlot h) o d
  if paired d then tell 6 [h.toNat, p.toNat, v.toNat] d
  else if shadowing d then
    modTwin (fun t => { t with digests := ⟨h, p, v⟩ :: t.digests.filter fun e => decide (e.handle ≠ h ∨ sdiff p e.pass < 10000000) }) d
  else d

/-- A channel comes to SHADOW: ALL_SHADOW when it is the last (R343). -/
def toShadow (k : Nat) (d : Dev) : Dev :=
  let was := allShadow d
  let d1 := setCh k .shadow d
  if !was && allShadow d1 then raise 0x120 9 d1 else d1

/-- The active's DIGEST of a channel is compared (R342). After a mismatch the channel's next token waits for the CONTEXT asked for. -/
def digestRx (h : W32) (p : NT32) (v : W32) (d : Dev) : Dev :=
  let k := hSlot h
  let st := chSt k d
  if !shadowing d || !current h d || decide (st = .diverged ∨ st = .none) then d
  else
    let there := d.twin.installed.any fun e => decide (e.1 = h)
    match d.twin.digests.find? fun e => decide (e.handle = h ∧ e.pass = p) with
    | none => d
    | some e =>
      if e.value = v then
        match st with
        | .resync => if there then toShadow k (incRg rTWIN_CNT_RESYNC d) else d
        | .copying => if there then toShadow k d else d
        | _ => d
      else if st = .copying then d
      else
        let d1 := setCh k .resync (modTwin (fun t => { t with installed := t.installed.filter fun x => decide (x.1 ≠ h) })
          (modTokens (fun t => !t.bus && decide (t.handle = h)) (fun t => { t with fillCtx := false }) d))
        tell 10 [h.toNat] (raiseF 0x120 4 0x120 (incRg rTWIN_CNT_DIGEST_MISMATCH d1))

/-- A context is asked for (R342): sent when the first job of the channel that has not begun commits. -/
def contextWanted (h : W32) (d : Dev) : Dev :=
  if !paired d || !current h d then d
  else
    let begun := d.weir.lists.any fun e => e.2.any fun j => !j.bus && decide (j.handle = h) && decide (j.st = .running ∨ j.st = .done)
    modTwin (fun t => { t with want := t.want.filter (fun w => w.1 ≠ h) ++ [(h, begun)] }) d
/-- A channel's job of pass `p` commits: a context wanted goes out. -/
def contextCommit (h : W32) (p : NT32) (d : Dev) : Dev :=
  match d.twin.want.find? fun w => decide (w.1 = h) with
  | some (_, true) => modTwin (fun t => { t with want := t.want.map fun w => if w.1 = h then (h, false) else w }) d
  | some (_, false) => sendContext (hSlot h) p (modTwin (fun t => { t with want := t.want.filter fun w => w.1 ≠ h }) d)
  | none => d

/-! ### Steps (R345) -/

/-- STEP at a standby: both twins apply it at the named tick. -/
def stepRx (s : Int) (t : NT32) (d : Dev) : Dev :=
  if !shadowing d then d
  else tell 9 [] (modTwin (fun w => { w with step := some ⟨s, t, true⟩ }) (holdStep s (some t) d))
/-- STEP_ACK at the active. -/
def stepAck (d : Dev) : Dev := modTwin (fun w => { w with step := w.step.map fun x => { x with acked := true } }) d

/-! ### Registers (R354) -/

/-- TWIN_STATE. -/
def twinState (d : Dev) : Nat :=
  let t := d.twin
  b2n (t.role = .standby && allShadow d) <<< 12 ||| b2n t.locked <<< 11 ||| t.lanes <<< 8 ||| b2n t.link <<< 7 ||| b2n t.fence <<< 6 |||
    b2n t.own <<< 5 ||| b2n t.peer <<< 4 ||| b2n (bit d.pwr.straps 0) <<< 3 ||| t.role.code

/-! ### The commands -/

/-- TWIN_LINK_UP (R330). -/
def execTwinLinkUp (lanes : Nat) : State → Host.Outcome State Fault Refusal := onDev (linkTrained lanes)
/-- TWIN_LINK_DOWN (R330). -/
def execTwinLinkDown : State → Host.Outcome State Fault Refusal := onDev linkGone
/-- LANE_FALLBACK (R330). -/
def execLaneFallback (lanes : Nat) : State → Host.Outcome State Fault Refusal := onDev (laneLost lanes)
/-- LINK_FRAME_ERROR (R330): the frame is resent. -/
def execLinkFrameError : State → Host.Outcome State Fault Refusal := onDev fun d => if d.twin.link then incRg rTWIN_CNT_LINK_RETRY d else d
/-- PAIRING (R331). -/
def execPairing (peer : TwinPeer) : State → Host.Outcome State Fault Refusal := onDev (pair peer)
/-- PAIR_RETRY (R331). -/
def execPairRetry (peer : TwinPeer) : State → Host.Outcome State Fault Refusal := onDev fun d => if d.twin.seen && !d.twin.attach then d else pair peer d
/-- HEARTBEAT_TX (R336). -/
def execHeartbeatTx : State → Host.Outcome State Fault Refusal := onDev heartbeatTx
/-- HEARTBEAT (R337). -/
def execHeartbeat (h : TwinHb) : State → Host.Outcome State Fault Refusal := onDev (heartbeatRx h)
/-- HEARTBEAT_MISS (R337). -/
def execHeartbeatMiss : State → Host.Outcome State Fault Refusal := onDev heartbeatMissed
/-- INGRESS (R338). -/
def execIngress (r : IngressRec) : State → Host.Outcome State Fault Refusal := onDev (ingressRx r)
/-- PAYLOAD_REQ (R338). -/
def execPayloadReq (digest : W64) : State → Host.Outcome State Fault Refusal := onDev (payloadReq digest)
/-- PAYLOAD (R338). -/
def execPayload (r : IngressRec) (f : RxFrame) : State → Host.Outcome State Fault Refusal := onDev (payloadRx r f)
/-- TWIN_ORPHAN (R181). -/
def execTwinOrphan : State → Host.Outcome State Fault Refusal := onDev orphans
/-- HORIZON (R339). -/
def execHorizon (t : NT32) : State → Host.Outcome State Fault Refusal := onDev (horizonNow t)
/-- HORIZON_TIMEOUT (R339). -/
def execHorizonTimeout (t : NT32) : State → Host.Outcome State Fault Refusal := onDev (horizonMissing t)
/-- LINE (R31, R336). -/
def execLine (h : W32) (leg : Nat) (x : List (BitVec 18)) (status : Nat) : State → Host.Outcome State Fault Refusal :=
  onDev (lineRx h leg x status)
/-- DIGEST (R342). -/
def execDigest (h : W32) (p : NT32) (v : W32) : State → Host.Outcome State Fault Refusal := onDev (digestRx h p v)
/-- CONTEXT_REQUEST (R342). -/
def execContextRequest (h : W32) : State → Host.Outcome State Fault Refusal := onDev (contextWanted h)
/-- CONTEXT (R342, R351). -/
def execContext (h : W32) (p : NT32) (c : ChanCtx) (a b : Leg) : State → Host.Outcome State Fault Refusal :=
  onDev (installContext h p c.name c.media a b)
/-- OP (R336, R340). -/
def execOp (o : TwinOp) : State → Host.Outcome State Fault Refusal := onDev (opTake o)
/-- OP_ACK (R71, R340). -/
def execOpAck : State → Host.Outcome State Fault Refusal := onDev opAck
/-- STEP (R345). -/
def execStep (s : W64) (t : NT32) : State → Host.Outcome State Fault Refusal := onDev (stepRx s.toInt t)
/-- STEP_ACK (R345). -/
def execStepAck : State → Host.Outcome State Fault Refusal := onDev stepAck
/-- BULK (R351). -/
def execBulk (b : BulkItem) : State → Host.Outcome State Fault Refusal := onDev (bulkTake b)
/-- BULK_COMPLETE (R335, R351). -/
def execBulkComplete : State → Host.Outcome State Fault Refusal := onDev bulkDone
/-- FENCE_ASSERT (R334). -/
def execFenceAssert : State → Host.Outcome State Fault Refusal := onDev fenceLow
/-- FENCE_RELEASE (R334). -/
def execFenceRelease : State → Host.Outcome State Fault Refusal := onDev fenceHigh
/-- PEER_ACT_FALL (R346). -/
def execPeerActFall : State → Host.Outcome State Fault Refusal := onDev fun d => if hasTwin d then peerFalls d else d
/-- PEER_ACT_RISE (R347). -/
def execPeerActRise : State → Host.Outcome State Fault Refusal := onDev fun d => if hasTwin d then peerRises d else d
/-- FENCE_CONFLICT (R347). -/
def execFenceConflict : State → Host.Outcome State Fault Refusal := onDev fenceConflict
/-- SWITCHOVER (R350). -/
def execSwitchover : State → Host.Outcome State Fault Refusal := onDev (twinCmd switchCmd)
/-- SWITCHOVER_BOUNDARY (R350). -/
def execSwitchoverBoundary : State → Host.Outcome State Fault Refusal := onDev switchNow
/-- DETACH (R351). -/
def execDetach : State → Host.Outcome State Fault Refusal := onDev (twinCmd detachCmd)
/-- ATTACH (R351). -/
def execAttach : State → Host.Outcome State Fault Refusal := onDev (twinCmd attachCmd)

end Sys2Proof.Machine
end

