-- ==== Sys2Proof/Machine/Boundary.lean ====
section
/-! DEFINITION. The pass boundary and the dispatch deadline: releases, configuration changes, shedding, re-base, firing and the
creation of tokens (rules R25 to R29, R69, R70, R83, R106 to R115, R123, R127, R129, R130, R132, R133, R142, R143, R170, R179,
R180, R198, R205, R206, R216, R217, R220, R378). -/
namespace Sys2Proof.Machine

/-! ### Release (R28, R114, R220) -/

/-- A record of a job's outputs is written when its pass is released (R112, R143, R219, R220). -/
def jobRecord (r : RelEntry) (x : JobRec) (d : Dev) : Dev :=
  let p := hPart r.handle
  let d1 := if x.typ = 0x25 then vcnt p 0x84 1 (weirRecord 0x25 r.handle r.due x.w16 0 d)
    else if x.typ = 0x24 then weirRecord 0x24 r.handle r.due x.w16 0 d
    else event p ⟨x.typ, r.pass, r.handle, body [(12, 1, x.leg), (13, 1, x.b13), (14, 1, x.b14), (15, 1, x.b15), (16, 4, x.w16)]⟩ d
  if x.typ = 0x25 ∨ x.typ = 0x59 then raisePart p 12 d1 else d1

/-- The bus token that is about to become eligible takes a member's contribution (R110, R217). -/
def contribute (k : Nat) (o : JobOut) (d : Dev) : Dev :=
  match busOf (slot k d).desc with
  | none => d
  | some b =>
    let x := if busLeg (slot k d).desc = 0 then o.toA else o.toB
    modTokens (fun t => t.bus && !t.elig && decide (t.handle.toNat = b))
      (fun t => { t with members := t.members.filter (fun m => decide (m.1 ≠ k)) ++ [(k, x)] }) d

/-- A bus's mix-minus fills the BUS-in slot of each member's token that is about to become eligible (R110, R217). -/
def mixDown (b : Nat) (o : JobOut) (d : Dev) : Dev :=
  o.mix.foldl (fun x m =>
    let l := (slot m.1 x).desc
    if busOf l ≠ some b then x
    else
      let h := handleOf m.1 x
      modTokens (fun t => !t.bus && !t.elig && decide (t.handle = h)) (fun t =>
        if busLeg l = 0 then { t with fillA := true, inA := .pcm m.2 0 } else { t with fillB := true, inB := .pcm m.2 0 }) x) d

/-- One entry is released at boundary `e`: its outputs, or a concealment marker. `p` is the NT64 of its pass, `jump` marks the
first release after a re-base. A stale one is discarded (R127). -/
def releaseEntry (e : NT32) (p : W64) (jump : Bool) (r : RelEntry) (d : Dev) : Dev :=
  if r.bus then (match r.out with | some o => mixDown r.handle.toNat o d | none => d)
  else if !current r.handle d then stale rWEIR_CNT_STALE_COMMIT r.handle d
  else
    let k := hSlot r.handle
    let d1 := match r.out with
      | some o => contribute k o (o.recs.foldl (fun x j => jobRecord r j x) d)
      | none => d
    let n := samplesPerPass (slot k d1).desc
    let d2 := [0, 1].foldl (fun x leg =>
      let c := match r.out with | some o => if leg = 0 then o.concA else o.concB | none => false
      let x1 := if sendsRtp k leg x then egressLeg k leg p e r.out jump x else x
      let x2 := if kind (slot k x1).desc leg = 2
        then lineRelease r.handle leg e (match r.out with | some o => if leg = 0 then o.toA else o.toB | none => quiet n) x1 else x1
      recordPass k leg p e r.out c jump n x2) d1
    digestOut r.handle r.pass r.out d2

/-- The core that holds a job that has not completed, and the job. -/
def unfinished (isBus : Bool) (h : W32) (p : NT32) (d : Dev) : Option (Nat × Job) :=
  d.weir.lists.findSome? fun e => (e.2.find? fun j =>
    decide (j.bus = isBus) && decide (j.handle = h) && decide (j.pass = p) && decide (j.st ≠ .streamOut)).map fun j => (e.1, j)

/-- A core turns to nothing: its job has ended or is aborted. -/
def coreIdle (c : Nat) (d : Dev) : Dev :=
  modTarn c (fun t => { t with st := .idle, sb := [], past := [], slots := none, rpt := none, waiting := false }) d

/-- A job that has not committed by its release instant is aborted (R114, R142, R143). A bus has no channel to name in a record. -/
def overrun (c : Nat) (j : Job) (d : Dev) : Dev :=
  let onIt := decide (headJob c d = some j)
  let p := jobPart j d
  let d1 := setJobs c ((jobs c d).erase j) d
  let d2 := coreNext c (if onIt then coreIdle c d1 else d1)
  let d3 := vcnt p 0x7C 1 (raise 0x20 4 (incRg rWEIR_CNT_OVERRUN (fillCtx j.bus j.handle d2)))
  let core := if onIt then c else 0xFF
  let d4 := lostRecs j core (raisePartF p 5 0x20 d3)
  if j.bus then d4 else weirRecord 0x21 j.handle j.due core 0 d4

/-- The entries due at boundary `q`, in ascending handle order (R115). At a re-base boundary the entry of a job that has not
committed waits for it (R133); elsewhere the job overruns. -/
def releaseAll (q : NT32) (atRebase : Bool) (d : Dev) : Dev :=
  let due := (d.weir.rel.filter fun r => !r.late)
  let jump := d.weir.jump
  let waits (r : RelEntry) : Bool := atRebase && r.out.isNone && (unfinished r.bus r.handle r.pass d).isSome
  let d0 := modWeir (fun w => { w with
    jump := false, rel := w.rel.filter (·.late) ++ ((due.filter waits).map fun r => { r with late := true }) }) d
  let now_ := sortBy (fun (a b : RelEntry) => decide (a.handle.toNat ≤ b.handle.toNat)) (due.filter fun r => !waits r)
  let outs := now_.filterMap fun r => if r.bus ∨ !current r.handle d then none else some (hSlot r.handle, r.out)
  bundles q outs (now_.foldl (fun x r =>
    let x1 := match r.out, unfinished r.bus r.handle r.pass x with
      | none, some cj => if itemStale r.bus r.handle x then x else overrun cj.1 cj.2 x
      | _, _ => x
    releaseEntry q (if atRebase then nt64Of x r.pass else nt64Of x (q - 2000000)) jump r x1) d0)

/-- The outputs of the jobs of a shortened pass are released as they commit (R133), as of Q'; one whose job is gone, its replay having failed,
is released as a marker (R128). `n` bounds the number. -/
def releaseLateFrom : Nat → Dev → Dev
  | 0, d => d
  | n + 1, d =>
    match d.weir.lateFrom, d.weir.rel.find? fun r => r.late && (r.out.isSome || (unfinished r.bus r.handle r.pass d).isNone) with
    | some q, some r =>
      let d1 := incRg rWEIR_CNT_REBASE_LATE (modWeir (fun w => { w with rel := w.rel.erase r }) d)
      let d2 := if d1.weir.lateRaised then d1 else raiseF 0x20 6 0x10 (modWeir (fun w => { w with lateRaised := true }) d1)
      releaseLateFrom n (releaseEntry q (nt64Of d2 r.pass) false r d2)
    | _, _ => d
/-- All that can be released so. -/
def releaseLate (d : Dev) : Dev := releaseLateFrom (d.weir.rel.filter (·.late)).length d

/-- A core faults, and what it leaves of a shortened pass is released (R128, R133). -/
def coreFaults (c src : Nat) (cs : Bool) (d : Dev) : Dev := releaseLate (faultCore c src cs d)

/-! ### Configuration changes (R29, R66, R68 to R70, R198, R205, R206, R216) -/

/-- A leg after its channel's descriptor changes from `a` to `b`: one whose KIND changes starts afresh. -/
def legChange (a b : List W32) (leg : Nat) (g : Leg) : Leg :=
  if kind a leg = kind b leg then g else { Leg.reset with txSeq := (lw b leg 8).extractLsb' 16 16 }

/-- The operand of the pass that begins at boundary `q`, whose prefetch instant has passed, is collected at once, and the leg's prefetch begins
with the next pass (R116). -/
def startPrefetch (k leg : Nat) (q : NT32) (d : Dev) : Dev :=
  let h := handleOf k d
  let d1 := modLeg k leg (fun g => { g with ops := [⟨q, operandOf k leg q d, true⟩] }) d
  dlAdd 1 ⟨q, h, .prefetch leg, false⟩ (dlDrop 1 (fun e => decide (e.handle = h ∧ e.kind = .prefetch leg)) d1)

/-- What follows a descriptor put in force at boundary `q`: reservation, streams, prefetch, reports, playout and tone ends. -/
def putInForce (k : Nat) (q : NT32) (d : Dev) : Dev :=
  let l := (slot k d).desc
  let h := handleOf k d
  let d1 := syncStreams k l (nt64Of d q) (recharge k d)
  let d2 := [0, 1].foldl (fun x leg =>
    let has := (dlist 1 x).any fun e => decide (e.handle = h ∧ e.kind = .prefetch leg)
    if isRtp l leg && !has then startPrefetch k leg q x else x) d1
  syncToneEnd k (syncRtcp k (syncPrefetch k l (q + 1000000) d2))

/-- A descriptor replaces the one in force at boundary `q`. What it commands of the channel's jobs waits for the first that sees it: EC_CFG.RESET
(R197), a TONE_GEN word that changes (R206), FAX_PT = 0 (R205). -/
def applyDesc (k : Nat) (l : List W32) (q : NT32) (d : Dev) : Dev :=
  let old := (slot k d).desc
  putInForce k q (modSlot k (fun s => { s with
    desc := l, epoch := s.epoch + 1, legA := legChange old l 0 s.legA, legB := legChange old l 1 s.legB,
    resetAt := if bit (dw l 32) 6 then s.epoch + 1 else s.resetAt,
    genAt := if dw old 36 ≠ dw l 36 then s.epoch + 1 else s.genAt,
    leaveAt := if bit (chCtrl l) 14 then s.leaveAt else s.epoch + 1 }) d)

/-- Activation at boundary `q` (R66, R107, R222): the descriptor takes effect whole over an initial context. -/
def activateSlot (k : Nat) (l : List W32) (q : NT32) (d : Dev) : Dev :=
  let leg (n : Nat) : Leg := { Leg.reset with txSeq := (lw l n 8).extractLsb' 16 16 }
  let d1 := modSlot k (fun s => { s with st := .active, desc := l, epoch := s.epoch + 1, actAt := nt64Of d q, legA := leg 0, legB := leg 1 }) d
  let d2 := if shadowing d1 ∧ chSt k d1 = .none then setCh k .shadow d1 else d1
  putInForce k q (initContext k d2)

/-- The writes and the pending change of slot `k` that apply at boundary `q`; a pending change applies last (R68, R70). At a re-base
boundary every WRITE that waits applies. -/
def changeSlot (k : Nat) (q : NT32) (atRebase : Bool) (d : Dev) : Dev :=
  let due (e : NT32 × List W32) : Bool := atRebase || decide (0 ≤ sdiff q e.1)
  let w := (slot k d).write
  let d1 := modSlot k (fun s => { s with write := s.write.filter fun e => !due e }) d
  let d2 := (w.filter due).foldl (fun x e => applyDesc k e.2 q x) d1
  match (slot k d2).pend with
  | none => d2
  | some p =>
    if sdiff q p.at_ < 0 then d2
    else
      let d3 := setPend k none d2
      match p.kind with
      | .activate => activateSlot k p.desc q d3
      | .release => d3
      | _ => applyDesc k p.desc q d3

/-- Releases due at boundary `q` (R127, R165). -/
def releaseSlots (q : NT32) (d : Dev) : Dev :=
  d.slots.foldl (fun x e => match e.2.pend with
    | some p => if p.kind = .release ∧ 0 ≤ sdiff q p.at_ then releaseSlot e.1 q (setPend e.1 none x) else x
    | none => x) d

/-- After a re-base, a pending change whose target lies in the past or more than 2,000 passes ahead applies at `q` (R69). -/
def rebasePending (q : NT32) (d : Dev) : Dev :=
  d.slots.foldl (fun x e => match e.2.pend with
    | some p =>
      let far := sdiff p.at_ q
      if far < 0 ∨ 2000000000 < far then
        let h := handleOf e.1 x
        setPend e.1 (some { p with at_ := q }) (event (hPart h) ⟨0x12, q, h, body [(12, 4, p.at_.toNat), (16, 1, p.kind.code)]⟩ x)
      else x
    | none => x) d

/-- Delay-list events a step put out of range fire at Q' (R132). -/
def clipEvents (q : NT32) (d : Dev) : Dev :=
  let n := sumL (d.weir.dl.map fun e => (e.2.filter (·.clip)).length)
  let put (l : List DEvent) : List DEvent :=
    (l.filter (·.clip)).foldl (fun a e => dlPut (now d) { e with target := q, clip := false } a) (l.filter fun e => !e.clip)
  addRg rWEIR_CNT_REBASE_CLIP n (modWeir (fun w => { w with dl := w.dl.map fun e => (e.1, put e.2) }) d)

/-- The members of bus `b` among executing channels. -/
def membersOf (b : Nat) (d : Dev) : List Nat :=
  (d.slots.filter fun e => e.2.running && decide (busOf e.2.desc = some b)).map (·.1)

/-- Buses open, change members and close at boundary `q` (R216). -/
def syncBuses (q : NT32) (d : Dev) : Dev :=
  let named := (d.slots.filter (·.2.running)).filterMap fun e => busOf e.2.desc
  let known := (d.buses.filter (·.2.open_)).map (·.1)
  (named ++ known).eraseDups.foldl (fun x b =>
    match membersOf b x with
    | [] => modWeir (fun w => { w with tokens := w.tokens.filter fun t => !(t.bus && decide (t.handle.toNat = b)) })
        (modBus b (fun y => { y with open_ := false, members := [], closedAt := some (nt64Of x q) }) x)
    | k :: ks =>
      let l := (slot k x).desc
      modBus b (fun y => if y.open_ then { y with members := k :: ks }
        else ⟨true, (slot k x).part, bit (dw l 3) 0, k :: ks, none⟩) x) d

/-! ### Partitions, shedding, cores and suspects (R38, R123, R129, R130) -/

/-- The boundary effects of function-level resets and of closing partitions (R38, R283). -/
def flushParts (q : NT32) (d : Dev) : Dev :=
  let d1 := d.hif.flr.foldl (fun x p => let y := flush p q x; if p = 0 then y else stopRings p y) { d with hif := { d.hif with flr := [] } }
  d.closing.foldl (fun x p => stopRings p (exportStaged (flush p q x))) { d1 with closing := [] }

/-- A descriptor with its echo tail above 32 ms halved (R130). -/
def halved (l : List W32) : List W32 :=
  match l with
  | w :: t => (if 32 < ecTail l then setFld w 3 2 (fld w 3 2 - 1) else w) :: t
  | [] => []
/-- A descriptor with its tenant program off. -/
def progOff (l : List W32) : List W32 := match l with | w :: t => setFld w 15 15 0 :: t | [] => []

/-- Change every descriptor a partition's slots hold. -/
def changeDescs (p : Nat) (f : List W32 → List W32) (d : Dev) : Dev :=
  ((slotsOf p d).filter (·.2.live)).foldl (fun x e =>
    recharge e.1 (modSlot e.1 (fun s => { s with
      desc := f s.desc, write := s.write.map fun w => (w.1, f w.2), pend := s.pend.map fun c => { c with desc := f c.desc } }) x)) d

/-- The shedding step that applies at boundary `q` (R130, R142, R143), and the decision on the next. One decided here alone is not taken once
the load is no longer too high; one that a twin has forwarded is. -/
def shedNow (q : NT32) (d : Dev) : Dev :=
  match d.weir.shedStep with
  | none => d
  | some (p, n, b) =>
    if sdiff q b < 0 then d
    else
      let d1 := modWeir (fun w => { w with shedStep := none }) d
      if !isStandby d && !paired d && !capacityLost d then d1 else
      let d2 := if n = 1 then unloadAll p (changeDescs p progOff (modShed p (fun s => { s with prog := true }) d1))
        else changeDescs p halved (modShed p (fun s => { s with halvings := n - 1 }) d1)
      decideShed (raisePart p 7 (event p ⟨0x23, now d2, 0, body [(12, 4, q.toNat), (16, 1, 0xFF), (17, 1, n)]⟩ d2))

/-- Suspect contexts are re-initialised; the token of the boundary is not dispatched (R108, R123). -/
def reinitAll (d : Dev) : Dev :=
  (d.slots.filter fun e => e.2.suspect && e.2.running).foldl (fun x e =>
    let h := handleOf e.1 x
    let ts := x.weir.tokens.filter fun t => t.elig && !t.bus && decide (t.handle = h)
    ts.foldl (fun y t => incRg rWEIR_CNT_NOCTX (modWeir (fun w => { w with
      rel := w.rel ++ [⟨false, h, t.pass, w.lastP, none, false⟩] }) (dropToken t y))) (reinit e.1 x)) d

/-- Cores that passed their self-test rejoin (R129). -/
def rejoinAll (d : Dev) : Dev :=
  d.weir.rejoin.foldl (fun x c => rejoinCore c x) (modWeir (fun w => { w with rejoin := [] }) d)

/-! ### Re-base (R83, R133, R179, R180, R223, R378) -/

/-- What happens at Q' to every unit. -/
def rebaseNow (r : Rebase) (d : Dev) : Dev :=
  let x : Rec := ⟨0x11, now d, 0,
    body [(12, 8, (BitVec.ofInt 64 r.s).toNat), (20, 4, (BitVec.ofInt 32 r.k).toNat), (24, 4, r.q.toNat)]⟩
  let d1 := if anyActive d then incRg rTB_MEDIA_REBASE d else d
  let d2 := anchorAll (toActiveParts x d1)
  let live := (d2.slots.filter (·.2.running)).map (·.1)
  let d3 := live.foldl (fun y k =>
    let z := [0, 1].foldl (fun z leg => jbRebase k leg r.k (nt64Of z r.q) z) y
    let w := [0, 1].foldl (fun w leg => if isRtp (slot k w).desc leg then startPrefetch k leg r.q w else w) z
    syncRtcp k (modSlot k (fun s => { s with rebased := true, freezeFor := ecTail s.desc }) w)) d2
  modTb (fun t => { t with rebase := none }) (modLfe (fun e => { e with rebaseEnd := some (r.q + 10000000) })
    (modWeir (fun w => { w with jump := true, lateFrom := some r.q, lateRaised := false }) d3))

/-! ### The boundary (R106, R115) -/

/-- The per-pass registers of a core take the counts of the pass that ends (R258). -/
def coreFigures (c : Nat) (d : Dev) : Dev :=
  let t := tarn c d
  setRgN (kTarn c oTARN_JOBS) t.jobs (setRgN (kTarn c oTARN_STALL_SB) t.stallSb (setRgN (kTarn c oTARN_STALL_3BUS) t.stall3
    (setRgN (kTarn c oTARN_CYC) t.cyc (modTarn c (fun t => { t with cyc := 0, stall3 := 0, stallSb := 0, jobs := 0 }) d))))

/-- Registers that hold figures of the pass that ends: WEIR_LAST_DONE, BASIN_STRM_WORDS and BASIN_STRM_SHARE (R135, R139). -/
def passFigures (d : Dev) : Dev :=
  let words := sumL (d.weir.strm.map (·.2))
  let most := d.weir.strm.foldl (fun m e => max m e.2) 0
  let d1 := setRgN rBASIN_STRM_SHARE (most * 1024 / 3200000) (setRgN rBASIN_STRM_WORDS words (setRgN rWEIR_LAST_DONE d.weir.lastDone
    (modWeir (fun w => { w with lastDone := 0, strm := [] }) d)))
  d1.tarns.foldl (fun x e => coreFigures e.1 x) d1

/-- One token for every executing channel and every open bus (R107). -/
def createTokens (q : NT32) (d : Dev) : Dev :=
  let ts := ((d.slots.filter (·.2.running)).map fun e => newToken e.1 q d)
    ++ ((d.buses.filter (·.2.open_)).map fun e => newBusToken e.1 q d)
  setRgN rWEIR_TOKENS ts.length (modWeir (fun w => { w with tokens := w.tokens ++ ts }) d)

/-- Everything that changes at boundary `q` between the releases and the firing. -/
def boundaryChanges (q : NT32) (reb : Option Rebase) (d : Dev) : Dev :=
  let d1 := d.slots.foldl (fun x e => changeSlot e.1 q reb.isSome x) d
  let d2 := twinApply q (jbCtrlApply q d1)
  let d3 := rejoinAll (shedNow q (reinitAll d2))
  let d4 := (d3.slots.filter (·.2.running)).foldl (fun x e => jbMove e.1 1 (q + 1000000) (jbMove e.1 0 (q + 1000000) x)) d3
  let d5 := match reb with | some r => rebaseNow r d4 | none => d4
  linesBoundary q (syncBuses q d5)

/-- PASS_BOUNDARY: the Weir's work at the boundary WEIR_NEXT_P names (R115), and the manager's CLUSTER_SYNC pulse (R414), which leaves
before the Weir is seeded too. -/
def passBoundary (d : Dev) : Dev :=
  if !d.weir.seeded then earlyPulse (driveSync d)
  else if !weirRuns d || !reached d d.weir.nextP then d
  else
    let q := d.weir.nextP
    let reb := match d.tb.rebase with | some r => if r.q = q then some r else none | none => none
    let d1 := passFigures <| exportStaged (incRg rWEIR_PASS_CNT (modWeir (fun w => { w with nextP := q + 1000000, lastP := q }) d))
    let d2 := if reb.isSome then clipEvents q (rebasePending q d1) else d1
    let d3 := flushParts q (releaseSlots q d2)
    let d4 := releaseAll q reb.isSome d3
    let d5 := modTokens (fun _ => true) (fun t => { t with elig := true }) d4
    let d6 := boundaryChanges q reb d5
    let d7 := createTokens q (fireReady d6)
    spoolCheckAll (syncPulse (driveSync (sendHorizon q d7)))

/-- DISPATCH_DEADLINE (R108, R110, R336): what an active fired by then, HORIZON tells its twin. -/
def deadlinePasses (d : Dev) : Dev :=
  let t := d.weir.lastP + BitVec.ofNat 32 (rgN rWEIR_DEADLINE d)
  if !weirRuns d || !reached d t then d else exportStaged (sendHorizon t (deadline d))

/-- PASS_BOUNDARY (R115). -/
def execPassBoundary : State → Host.Outcome State Fault Refusal := onDev passBoundary
/-- DISPATCH_DEADLINE (R108). -/
def execDispatchDeadline : State → Host.Outcome State Fault Refusal := onDev deadlinePasses

end Sys2Proof.Machine
end

