-- ==== Sys2Proof/Machine/ChwCmds.lean ====
section
/-! DEFINITION. The commands of the channel window (rules R66 to R71). -/
namespace Sys2Proof.Machine

/-- CHW_OP READ (R66). -/
def execChwRead (fn part : Nat) : State → Host.Outcome State Fault Refusal := onDev (fromWindow fn part 1 oCHW_OP (chwStart fn part 1 false))
/-- CHW_OP WRITE (R66). -/
def execChwWrite (fn part : Nat) : State → Host.Outcome State Fault Refusal := onDev (fromWindow fn part 1 oCHW_OP (chwStart fn part 2 false))
/-- CHW_OP ACTIVATE (R66). -/
def execActivate (fn part : Nat) (at_ : Bool) : State → Host.Outcome State Fault Refusal :=
  onDev (fromWindow fn part 1 oCHW_OP (chwStart fn part 3 at_))
/-- CHW_OP RELEASE (R66). -/
def execChwRelease (fn part : Nat) (at_ : Bool) : State → Host.Outcome State Fault Refusal :=
  onDev (fromWindow fn part 1 oCHW_OP (chwStart fn part 4 at_))
/-- CHW_OP MODIFY_AT (R66). -/
def execModifyAt (fn part : Nat) : State → Host.Outcome State Fault Refusal := onDev (fromWindow fn part 1 oCHW_OP (chwStart fn part 5 false))
/-- CHW_OP_COMPLETE (R68). -/
def execChwOpComplete (part : Nat) : State → Host.Outcome State Fault Refusal := onDev (chwComplete part)

end Sys2Proof.Machine
end

