-- ==== Sys2Proof/Machine/Flash.lean ====
section
/-! DEFINITION. The spool's commands and the journal flash: transfers, calibration slots, patrol and wear, mounting and the flush at power
loss (rules R366 to R376, R380 to R384). -/
namespace Sys2Proof.Machine

/-- Change the flash. -/
def modFlash (f : Flash → Flash) (d : Dev) : Dev := { d with flash := f d.flash }

/-! ### Transfers (R382) -/

/-- Sectors of 4 KiB of a region, under FLASH_RGN as last formatted (R371). -/
def regionSectors (r : Nat) (d : Dev) : Nat :=
  match r with
  | 0 | 1 => 32768 | 2 => 2048 | 3 => 16384 | 4 => fld d.flash.rgn 15 0 * 256 | _ => 0
/-- Does an operation apply to a region (R382)? -/
def xfApplies (op r : Nat) : Bool :=
  match op with
  | 1 => decide (r ≤ 4)
  | 2 | 3 => decide (r = 0 ∨ r = 1 ∨ r = 3 ∨ r = 4)
  | 4 => decide (r = 2)
  | 5 => decide (r = 4 ∨ r = 5)
  | _ => false
/-- The slot a CAL_STORE writes: an invalid one, or that with the lower SEQ; true for B (R375). -/
def calTarget (d : Dev) : Bool :=
  let a := d.flash.calA
  let b := d.flash.calB
  if !a.valid then false else if !b.valid then true else decide (b.seq < a.seq)
/-- The SEQ of the slot a CAL_STORE writes: one above the other slot's (R375). -/
def calSeq (d : Dev) : Nat :=
  let o := if calTarget d then d.flash.calA else d.flash.calB
  (if o.valid then o.seq else 0) + 1
/-- Is the extent of a transfer good: aligned, inside the region, of legal length (R375, R382)? -/
def xfExtent (op : Nat) (d : Dev) : Bool :=
  let off := rgN rFLASH_XF_OFFSET d
  let len := rgN rFLASH_XF_LEN d
  let r := fld (rg rFLASH_XF_REGION d) 2 0
  let host := decide (rgN rFLASH_XF_HOST d % 8 = 0)
  match op with
  | 5 => true
  | 4 => host && decide (len ≤ 4194048) && decide (calSeq d < 0xFFFFFFFF)
  | _ => decide (off % 4096 = 0) && decide (len % 4096 = 0) && decide (len ≤ 67108864)
    && decide (off / 4096 + len / 4096 ≤ regionSectors r d) && (host || decide (op = 3))
/-- Is the boot slot in use the target of a write or an erase (R382)? -/
def slotInUse (op : Nat) (d : Dev) : Bool :=
  decide (op = 2 ∨ op = 3) && !bit (rg rPWR_BOOT_SLOT d) 1
    && decide (fld (rg rFLASH_XF_REGION d) 2 0 = fld (rg rPWR_BOOT_SLOT d) 0 0)

/-- Start a transfer, or answer its result at once (R382). A write of FLASH_XF_OP during a transfer is refused BUSY. -/
def xfStart (op data : Nat) (d : Dev) : Dev :=
  let r := fld (rg rFLASH_XF_REGION d) 2 0
  if d.flash.xf.isSome then reject 0 .busy 0 rFLASH_XF_OP 4 d
  else if d.recd.flushing ∨ slotInUse op d then setRgN rFLASH_XF_STATUS 1 d
  else if !xfApplies op r || !xfExtent op d then setRgN rFLASH_XF_STATUS 2 d
  else
    let len := rgN rFLASH_XF_LEN d
    let x : FlashXf := ⟨op, r, rgN rFLASH_XF_OFFSET d / 4096, len / 4096, rg rFLASH_XF_HOST d, data⟩
    let d1 := setRgN rFLASH_XF_STATUS (2 ^ 31) (modFlash (fun f => { f with xf := some x }) d)
    if op = 2 ∨ op = 4 then out (.hostRead (ridOf d 0) x.host.toNat len) d1 else d1

/-- Key of sector `i` of a region. -/
def sectorKey (r i : Nat) : Nat := r * 2 ^ 24 + i
/-- The name of sector `i` of the host bytes called `data` (0 is an erased sector). -/
def sectorName (data i : Nat) : Nat := data * 2 ^ 14 + i + 1

/-- What a completed transfer does (R371, R375, R382): a format empties the event log and every spool and takes FLASH_RGN. -/
def xfEffect (x : FlashXf) (d : Dev) : Dev :=
  let sec (i : Nat) : Nat := sectorKey x.region (x.first + i)
  match x.op with
  | 1 => out (.hostNames (ridOf d 0) x.host.toNat ((List.range x.count).map fun i => tabGet (fun _ => 0) d.flash.sectors (sec i))) d
  | 2 => (List.range x.count).foldl (fun y i =>
      modFlash (fun f => { f with sectors := tabSet (fun _ => 0) f.sectors (sec i) (sectorName x.data i) }) y) d
  | 3 => (List.range x.count).foldl (fun y i =>
      modFlash (fun f => { f with sectors := tabSet (fun _ => 0) f.sectors (sec i) 0 }) y) d
  | 4 =>
    let s : CalSlot := ⟨true, calSeq d, x.data⟩
    modFlash (fun f => if calTarget d then { f with calB := s } else { f with calA := s }) d
  | _ =>
    let d1 := modFlash (fun f => { f with
      rgn := BitVec.ofNat 32 (rgN rFLASH_RGN d), log := [], sectors := tabFilter (fun k _ => decide (k / 2 ^ 24 ≠ 4)) f.sectors }) d
    let d2 := modRec (fun r => { r with wbuf := [], spools := tabFilter (fun _ _ => false) r.spools }) d1
    setRgN rFLASH_STATUS (rgN rFLASH_STATUS d % 8 + 8 * fld (rg rFLASH_RGN d) 31 31)
      (setRgN rFLASH_SPOOL_MIB (Config.freeNat d.fresh % 2 ^ 32) (spend d2))

/-- A transfer ends (R382): 0, or 3 DMA_ERROR, or 4 MEDIA. One that fails leaves no commit, so a calibration slot being written is
no longer valid (R374, R375). -/
def xfDone (err : Nat) (d : Dev) : Dev :=
  match d.flash.xf with
  | none => d
  | some x =>
    let e := if err = 3 ∨ err = 4 then err else 0
    let d1 := if e = 0 then xfEffect x d
      else if x.op = 4 then modFlash (fun f => if calTarget d then { f with calB := ⟨false, 0, 0⟩ }
        else { f with calA := ⟨false, 0, 0⟩ }) d
      else d
    raise 0x140 7 (setRgN rFLASH_XF_STATUS e (modFlash (fun f => { f with xf := none }) d1))

/-- A transfer stops where it stands: the slot a CAL_STORE was writing has no commit (R375). -/
def stopXf (d : Dev) : Dev :=
  let d1 := match d.flash.xf with
    | some x => if x.op = 4 then modFlash (fun f => if calTarget d then { f with calB := ⟨false, 0, 0⟩ } else { f with calA := ⟨false, 0, 0⟩ }) d
      else d
    | none => d
  modFlash (fun f => { f with xf := none }) d1

/-- A write of FLASH_XF_OP (R382); other codes do nothing that applies: RANGE. -/
def xfOp (v : W32) (data : Nat) (d : Dev) : Dev := xfStart (fld v 2 0) data d

/-! ### Blocks (R372, R373) -/

/-- A block's data is moved. -/
def blockMoves : Dev → Dev := modFlash fun f => { f with moved := f.moved + 1 }
/-- A patrol read finds a codeword with `bits` corrected bits in a block programmed `days` ago (R373). -/
def patrol (bits days : Nat) (d : Dev) : Dev :=
  let c := rg rFLASH_SCRUB_CTRL d
  if fld c 31 24 < bits ∨ (d.tb.servo = .locked ∧ fld c 15 0 < days) then blockMoves d else d
/-- A block grows bad (R372). -/
def grownBad (d : Dev) : Dev :=
  let v := rgN rFLASH_BAD d
  raise 0x140 3 (setRgN rFLASH_BAD ((v + 65536) % 2 ^ 32) (blockMoves d))
/-- Wear is looked at (R372). -/
def wear (spread percent days : Nat) (d : Dev) : Dev :=
  let was := fld (rg rFLASH_LIFE d) 7 0
  let d1 := setRgN rFLASH_LIFE (min days 0xFFFF * 65536 + percent % 256) d
  let d2 := if was < 80 ∧ 80 ≤ percent then raise 0x140 1 d1 else d1
  let d3 := if was < 95 ∧ 95 ≤ percent then raise 0x140 2 d2 else d2
  if fld (rg rFLASH_WL_SPREAD d) 15 0 < spread then blockMoves d3 else d3

/-! ### Mounting and power loss (R369, R374 to R376, R384) -/

/-- The calibration slot in use (R375): the valid one with the higher SEQ, or the OTP values. -/
def selectCal (d : Dev) : Dev :=
  let a := d.flash.calA
  let b := d.flash.calB
  let useB := b.valid && (!a.valid || decide (a.seq < b.seq))
  let seq := if useB then b.seq else if a.valid then a.seq else 0
  let fac := !a.valid && !b.valid
  let v := 2 * b2n fac + b2n useB
  let d1 := setRgN rLFE_COM_CAL v (setRgN rFLASH_CAL v (setRgN rFLASH_CAL_SEQ seq d))
  if fac then raise 0x140 4 d1 else d1

/-- The flash is mounted at boot (R369, R374 to R376, R384). -/
def mountFlash (m : FlashMount) (d : Dev) : Dev :=
  if !m.mounted then raise 0x140 0 d
  else
    let d1 := setRgN rFLASH_CFG m.cfg.toNat (setRgN rFLASH_BAD m.bad.toNat (setRgN rFLASH_LIFE m.life.toNat
      (setRgN rFLASH_FLUSH_US m.flushUs (setRgN rFLASH_SPOOL_MIB m.spoolMib
        (setRgN rFLASH_JRN (m.back * 65536 + m.forward) (setRgN rFLASH_STATUS (1 + 8 * fld d.flash.rgn 31 31) d))))))
    let d2 := if 0 < m.back + m.forward then raise 0x140 5 d1 else d1
    selectCal (if 3000 < m.flushUs then raise 0x140 6 d2 else d2)

/-- The flush after a power failure completes (R376, R446): the write buffer is committed, FLASH_WP_N falls and the flash is idle. -/
def flushDone (d : Dev) : Dev :=
  if !d.recd.flushing then d
  else
    let s := (rgN rFLASH_STATUS d % 2 + 4 + rgN rFLASH_STATUS d / 8 * 8)
    out (.pin .flashWpN false) (setRgN rFLASH_STATUS s (modRec (fun r => { r with wbuf := [], flushing := false })
      (stopXf d)))

/-! ### The commands -/

/-- SPOOL_DRAIN (R366, R379). -/
def execSpoolDrain (p : Nat) : State → Host.Outcome State Fault Refusal := onDev (drainOne p)
/-- SPOOL_DISCARD (R367). -/
def execSpoolDiscard : State → Host.Outcome State Fault Refusal :=
  onDev (fromHost 0 fun d => discardSpool (fld (rg rREC_SP_SEL d) 9 0) d)
/-- SPOOL_COMMIT (R374). -/
def execSpoolCommit : State → Host.Outcome State Fault Refusal := onDev commitSpool
/-- FLASH_READ (R382). -/
def execFlashRead : State → Host.Outcome State Fault Refusal := onDev (fromHost 0 (xfStart 1 0))
/-- FLASH_WRITE (R382): `data` names the host's bytes. -/
def execFlashWrite (data : Nat) : State → Host.Outcome State Fault Refusal := onDev (fromHost 0 (xfStart 2 data))
/-- FLASH_ERASE (R382). -/
def execFlashErase : State → Host.Outcome State Fault Refusal := onDev (fromHost 0 (xfStart 3 0))
/-- CAL_STORE (R375, R382). -/
def execCalStore (data : Nat) : State → Host.Outcome State Fault Refusal := onDev (fromHost 0 (xfStart 4 data))
/-- FORMAT (R371, R382). -/
def execFormat : State → Host.Outcome State Fault Refusal := onDev (fromHost 0 (xfStart 5 0))
/-- XF_DONE (R382). -/
def execXfDone (err : Nat) : State → Host.Outcome State Fault Refusal := onDev (xfDone err)
/-- FLASH_PATROL (R373). -/
def execFlashPatrol (bits days : Nat) : State → Host.Outcome State Fault Refusal := onDev (patrol bits days)
/-- GROWN_BAD (R372). -/
def execGrownBad : State → Host.Outcome State Fault Refusal := onDev grownBad
/-- WEAR_LEVEL (R372). -/
def execWearLevel (spread percent days : Nat) : State → Host.Outcome State Fault Refusal := onDev (wear spread percent days)
/-- FLUSH_COMPLETE (R376, R446). -/
def execFlushComplete : State → Host.Outcome State Fault Refusal := onDev flushDone

end Sys2Proof.Machine
end

