-- ==== Sys2Proof/Machine/HostRing.lean ====
section
/-! DEFINITION. The host side of rings, causes, attention and the posted-error FIFO (rules R43 to R45, R49, R51 to R53, R56 to
R63, R471). -/
namespace Sys2Proof.Machine

/-! ### Rings (R51, R53) -/

/-- The page and the offset in it of a ring's registers as function `fn` reaches them: a VF in its VRNG page, the PF for partition 0
in the HIF page, for another in the PART window (R51, R300). -/
def ringPlace (fn part r : Nat) : Nat × Nat :=
  if fn ≠ 0 then (vfPage fn 5, 0x40 + 0x40 * r)
  else if part = 0 then (0, 0x100 + 0x40 * r)
  else (0x200 + part, winBase 5 + 0x40 + 0x40 * r)
/-- The BAR offset of a page of a function. -/
def barOff (fn pg off : Nat) : Nat := (if fn = 0 then pg else (pg - 0x1000) % 16) * 0x1000 + off
/-- Does the ring exist: 0 to 2, and 3 for partition 0 (R51)? -/
def ringExists (p r : Nat) : Bool := decide (r < 3) || (decide (p = 0) && decide (r = 3))

/-- Is a ring's size a legal one (R51)? -/
def sizeOk (n : Nat) : Bool := within n 6 15

/-- Enabling a ring zeroes PROD, CONS, SEQ and the write count and forgets drops not yet reported (R51, R53). -/
def ringStart (r : Ring) : Ring :=
  { r with enable := true, prod := 0, cons := 0, seq := 0, writes := 0, lost := 0, lostFirst := 0, lostLast := 0 }

/-- A write of a ring's CTRL (R51); ENABLE already set stays as it is. -/
def ringCtrl (fn addr k : Nat) (on : Bool) (d : Dev) : Dev :=
  let r := ring k d
  if on ∧ !sizeOk r.sizeLog2 then reject fn .range 0 addr 4 d
  else if on ∧ !r.enable then modRing k ringStart d
  else if on then d
  else modRing k (fun r => { r with enable := false }) d

/-- A write of a ring's BASE: refused BUSY while enabled; bits [11:0] are ignored (R51). -/
def ringBase (fn addr k : Nat) (v : W64) (d : Dev) : Dev :=
  if (ring k d).enable then reject fn .busy 0 addr 8 d
  else modRing k (fun r => { r with base := v &&& ~~~0xFFF }) d

/-- A write of a ring's SIZE_LOG2 (R51). -/
def ringSize (fn addr k : Nat) (v : W32) (d : Dev) : Dev :=
  if (ring k d).enable then reject fn .busy 0 addr 4 d
  else if !sizeOk (fld v 3 0) then reject fn .range 0 addr 4 d
  else modRing k (fun r => { r with sizeLog2 := fld v 3 0 }) d

/-- A write of a ring's CONS: PROD − CONS must not exceed the size (R51). A recording ring's spool frees what it drained (R366). -/
def ringCons (fn addr k : Nat) (v : W32) (d : Dev) : Dev :=
  let r := ring k d
  if r.size < (r.prod - v).toNat then reject fn .range 0 addr 4 d
  else modRing k (fun r => { r with cons := v }) d

/-- Run an operation on a ring's registers through a function, rejecting a ring that does not exist. -/
def onRing (fn part r off : Nat) (f : Nat → Nat → Dev → Dev) (d : Dev) : Dev :=
  let p := winPart fn part
  let pl := ringPlace fn p r
  let addr := barOff fn pl.1 (pl.2 + off)
  if ringExists p r && decide (p < 1024) then f addr (ringKey p r) d else reject fn .reserved 0 addr 4 d

/-! ### Causes (R43, R44, R60 to R62) -/

/-- The causes a page defines, as a mask (the cause tables of every chapter). -/
def causeMask (pg : Nat) : W32 :=
  if 0x1000 ≤ pg then (match (pg - 0x1000) % 16 with | 0 => 0x1FFE | 4 => 2 | 5 => 0x1E | 6 => 2 | 7 => 2 | _ => 0)
  else if pg = 0 then 0x1FF else if pg = 2 then 0xFF else if pg = 0x10 then 0xFFF else if pg = 0x20 then 0x7F
  else if 0x40 ≤ pg ∧ pg < 0x84 then 0xF else if pg = 0x90 then 7 else if pg = 0xA0 then 0xF else if pg = 0xB0 then 7
  else if pg = 0xC0 ∨ pg = 0xD0 ∨ pg = 0xE0 then 3
  else if 0x100 ≤ pg ∧ pg < 0x110 then (if pg % 4 = 0 then 0x3FF else 0)
  else if pg = 0x110 then 0x7F else if pg = 0x120 then 0x3FF else if pg = 0x130 then 0x1F else if pg = 0x140 then 0xFF
  else if pg = 0x150 then 0xF else if 0x160 ≤ pg ∧ pg < 0x180 then 0x1F else if pg = 0x180 then 0xFF
  else if pg = 0x190 then 0xF else if pg = 0x1A0 then 0x3F else if pg = 0x1B0 then 0x1FF
  else if 0x200 ≤ pg ∧ pg < 0x600 then 0x1FFE else 0

/-- A page of a function by its number in BAR0. -/
def pageOf (fn page : Nat) : Nat := if fn = 0 then page else vfPage fn page
/-- Is the page of a function present? -/
def hasPage (fn page : Nat) (d : Dev) : Bool := (decide (fn = 0) || decide (page < 16)) && pagePresent d (pageOf fn page)
/-- A write of a header register of a page, rejected RESERVED where the page is absent (R46). -/
def onHeader (fn page off : Nat) (f : Nat → Dev → Dev) (d : Dev) : Dev :=
  if hasPage fn page d then f (pageOf fn page) d else reject fn .reserved 0 (page * 0x1000 + off) 4 d

/-- UNIT_FAULT is cleared: the UNIT_FAULT_CLEAR record (R61, R62). -/
def faultClear (pg : Nat) (d : Dev) : Dev :=
  let h := hdr pg d
  faultRec ⟨0xF1, now d, 0, body ([(12, 4, h.folded.toNat), (20, 4, h.faultAt.toNat)] ++ pageFields pg)⟩
    (modHdr pg (fun x => { x with folded := 0 }) d)

/-- A write of PG_CAUSE: each 1 clears its bit (R43). -/
def causeClear (pg : Nat) (v : W32) (d : Dev) : Dev :=
  let d1 := modHdr pg (fun h => { h with cause := h.cause &&& ~~~v }) d
  driveIrq d (if faulted pg d ∧ bit v 0 ∧ pg < 0x200 then faultClear pg d1 else d1)

/-- A write of PG_FORCE: each 1 sets its cause, none of them folding (R43, R44). -/
def causeForce (pg : Nat) (v : W32) (d : Dev) : Dev :=
  let w := v &&& causeMask pg
  let d1 := if bit w 0 then raise pg 0 d else d
  if w = 0 then d else setCause pg w d1

/-- A write of PG_FIRST with VALID set (R44). -/
def firstClear (pg : Nat) (d : Dev) : Dev := modHdr pg (fun h => { h with first := setFld h.first 31 31 0 }) d
/-- A write of PG_FOLD: 0x7FFF_FFFF clears COUNT (R43). -/
def foldClear (pg : Nat) (v : W32) (d : Dev) : Dev := modHdr pg (fun h => { h with fold := h.fold &&& ~~~(v &&& 0x7FFFFFFF) }) d
/-- A write of PG_LOCK with bit 0 set (R45). -/
def pageLock (pg : Nat) (d : Dev) : Dev := modHdr pg (fun h => { h with locked := true }) d
/-- A write of PG_MASK (R43): unmasking can make the summary nonzero (R58). -/
def maskWrite (pg : Nat) (v : W32) (d : Dev) : Dev :=
  let d1 := modHdr pg (fun h => { h with mask := v &&& causeMask pg }) d
  driveIrq d (attend d (fnOfPage pg) d1)

/-- The true value of a counter or snapshot register: PART_WR_DROP shows VFA_WR_DROP (R300). -/
def trueValue (key : Nat) (d : Dev) : W64 :=
  let pg := key / 0x1000
  let o := key % 0x1000
  let drop (k : Nat) : W64 := (ring k d).drop.zeroExtend 64
  if key = rHIF_PERR_LEVEL then BitVec.ofNat 64 (d.hif.ovf.toNat * 65536)
  else if pg = 0 ∧ 0x100 ≤ o ∧ o % 0x40 = 0x18 then drop (ringKey 0 ((o - 0x100) / 0x40))
  else if pg = 0x110 ∧ o = 0x118 then drop mgmtRing
  else if 0x200 ≤ pg ∧ pg < 0x600 then
    if o = oPART_WR_DROP then rg (kVfa (pg - 0x200) oVFA_WR_DROP) d
    else if winOf o = some 5 then drop (ringKey (pg - 0x200) ((o - winBase 5 - 0x40) / 0x40))
    else if key = kWin (pg - 0x200) 7 oVTIM_HOLD_SEC then rg rTB_HOLD_SEC d
    else rg key d
  else rg key d

/-- FREEZE rising holds the values of a page's counters, FREEZE falling lets them resume (R43). -/
def freezePage (pg : Nat) (on : Bool) (d : Dev) : Dev :=
  let keys := (pageRows pg).flatMap fun r => if r.cnt then (List.range r.count).map fun i => canonKey pg (r.off + i * r.stride) else []
  if on then { d with frozen := keys.foldl (fun t k => tabSet (fun _ => 0) t k (trueValue k d)) d.frozen }
  else { d with frozen := tabFilter (fun k _ => !keys.contains k) d.frozen }

/-! ### EOI, MSI-X and the posted-error FIFO (R58, R63) -/

/-- A write of an EOI register (R58). -/
def eoi (fn : Nat) (v : W32) (d : Dev) : Dev :=
  if bit v 0 ∧ attention d fn then { d with hif := { d.hif with msgs := d.hif.msgs ++ [(fn, now d)] } } else d

/-- The message a function owes is delivered, or waits in the PBA bit while the vector is masked (R58). -/
def msixSend (fn : Nat) (d : Dev) : Dev :=
  match d.hif.msgs.find? fun m => decide (m.1 = fn) with
  | none => d
  | some m =>
    let d1 := { d with hif := { d.hif with msgs := d.hif.msgs.erase m } }
    if tabGet (fun _ => false) d.hif.masked fn
    then { d1 with hif := { d1.hif with pba := tabSet (fun _ => false) d1.hif.pba fn true } }
    else out (.msix fn) d1

/-- The host masks or unmasks a function's vector; unmasking sends a message held in the PBA (R58). -/
def msixMask (fn : Nat) (on : Bool) (d : Dev) : Dev :=
  let d1 := { d with hif := { d.hif with masked := tabSet (fun _ => false) d.hif.masked fn on } }
  if !on && tabGet (fun _ => false) d.hif.pba fn
  then out (.msix fn) { d1 with hif := { d1.hif with pba := tabSet (fun _ => false) d1.hif.pba fn false } } else d1

/-- A write of HIF_PERR_POP (R49, R63): bit 0 removes the head entry, bit 1 clears OVF. -/
def perrPop (v : W32) (d : Dev) : Dev :=
  { d with hif := { d.hif with perr := if bit v 0 then d.hif.perr.tail else d.hif.perr, ovf := if bit v 1 then 0 else d.hif.ovf } }

/-! ### The commands -/

/-- RING_RECORD_OFFER (R52, R53): a unit offers a record to a partition's ring. -/
def execRingRecordOffer (part r typ : Nat) (handle : W32) (b : BitVec 416) : State → Host.Outcome State Fault Refusal :=
  onDev fun d => if ringExists part r then offer part r ⟨typ, now d, handle, b.toNat⟩ d else d
/-- RING_ENABLE (R51). -/
def execRingEnable (fn part r : Nat) : State → Host.Outcome State Fault Refusal :=
  onDev (fromHost fn (onRing fn part r 0xC fun addr k => ringCtrl fn addr k true))
/-- RING_DISABLE (R51). -/
def execRingDisable (fn part r : Nat) : State → Host.Outcome State Fault Refusal :=
  onDev (fromHost fn (onRing fn part r 0xC fun addr k => ringCtrl fn addr k false))
/-- RING_CONS_WRITE (R51). -/
def execRingConsWrite (fn part r : Nat) (v : W32) : State → Host.Outcome State Fault Refusal :=
  onDev (fromHost fn (onRing fn part r 0x14 fun addr k => ringCons fn addr k v))
/-- PERR_POP (R63). -/
def execPerrPop : State → Host.Outcome State Fault Refusal := onDev (fromHost 0 (perrPop 1))
/-- PERR_OVF_CLEAR (R63). -/
def execPerrOvfClear : State → Host.Outcome State Fault Refusal := onDev (fromHost 0 (perrPop 2))
/-- CAUSE_CLEAR (R43, R60, R61). -/
def execCauseClear (fn page : Nat) (v : W32) : State → Host.Outcome State Fault Refusal :=
  onDev (fromHost fn (onHeader fn page 0x10 fun pg => causeClear pg v))
/-- CAUSE_FORCE (R43, R44). -/
def execCauseForce (fn page : Nat) (v : W32) : State → Host.Outcome State Fault Refusal :=
  onDev (fromHost fn (onHeader fn page 0x18 fun pg => causeForce pg v))
/-- PG_FIRST_CLEAR (R44). -/
def execPgFirstClear (fn page : Nat) : State → Host.Outcome State Fault Refusal :=
  onDev (fromHost fn (onHeader fn page 0x1C firstClear))
/-- PG_FOLD_CLEAR (R43). -/
def execPgFoldClear (fn page : Nat) (v : W32) : State → Host.Outcome State Fault Refusal :=
  onDev (fromHost fn (onHeader fn page 0x24 fun pg => foldClear pg v))
/-- PAGE_LOCK (R45). -/
def execPageLock (fn page : Nat) : State → Host.Outcome State Fault Refusal :=
  onDev (fromHost fn (onHeader fn page 0x28 pageLock))
/-- MSIX_MESSAGE (R58). -/
def execMsixMessage (fn : Nat) : State → Host.Outcome State Fault Refusal := onDev (msixSend fn)
/-- EOI (R58). -/
def execEoi (fn : Nat) (v : W32) : State → Host.Outcome State Fault Refusal := onDev (fromHost fn (eoi fn v))

end Sys2Proof.Machine
end

