-- ==== Sys2Proof/Machine/WeirCmds.lean ====
section
/-! DEFINITION. The commands of the Weir's jobs, of core faults and returns, and of the Basin and DRAM scrubbers (rules R111, R112,
R121 to R125, R128, R129, R133, R251). -/
namespace Sys2Proof.Machine

/-- What a commit lets go: a late output (R133) and a context a twin asked for (R342). -/
def afterCommit (c : Nat) (d0 d : Dev) : Dev :=
  let d1 := releaseLate d
  match headJob c d0 with
  | some j => if j.bus ∨ j.out.isNone then d1 else contextCommit j.handle j.pass d1
  | none => d1

/-- A tenant program that is neither done nor in fault is aborted when its budget runs out (R112, R252): the outputs are those of a
bypassed stage, with a BUDGET_ABORT record. -/
def budgetAbort (c : Nat) (d : Dev) : Dev := stageEnds c (.stopped 1) d

/-- CHANNEL_JOB (R191). -/
def execChannelJob (c : Nat) : State → Host.Outcome State Fault Refusal := onDev (runJob false c)
/-- BUS_JOB (R217). -/
def execBusJob (c : Nat) : State → Host.Outcome State Fault Refusal := onDev (runJob true c)
/-- STREAM_IN_COMPLETE (R121). -/
def execStreamInComplete (c : Nat) : State → Host.Outcome State Fault Refusal := onDev (streamIn c)
/-- JOB_COMPLETE (R121, R133). -/
def execJobComplete (c : Nat) : State → Host.Outcome State Fault Refusal := onDev fun d => afterCommit c d (completeJob c d)
/-- STREAM_OUT_COMPLETE (R121). -/
def execStreamOutComplete (c : Nat) (ue : Option Nat) : State → Host.Outcome State Fault Refusal := onDev (streamOut c ue)

/-! ### Core faults, returns, scrubbing, failures -/

/-- A tarn's scrub interval ends (R250, R260): its corrected words are counted and may reach the threshold. -/
def tarnScrub (c dm cs pm : Nat) (d : Dev) : Dev :=
  if 68 ≤ c then d
  else
    let d1 := addRg (kTarn c oTARN_PM_CE) pm (addRg (kTarn c oTARN_CS_CE) cs (addRg (kTarn c oTARN_DM_CE) dm d))
    if rgN (kTarn c oTARN_CE_THRESH) d ≤ dm + cs + pm then raise (tarnPage c) 1 d1 else d1

/-- WDOG of a core with a job reaches 0 (R112, R128, R251). -/
def watchdogExpires (c : Nat) (d : Dev) : Dev :=
  if c < 64 ∧ (headJob c d).isSome then coreFaults c 3 false (modTarn c (setTr 0x34 0) d) else d

/-- Control firmware on the other cores restarts a faulted control core (R257, R258): it runs from address 0. -/
def restartControl (c : Nat) (d : Dev) : Dev :=
  let others := [64, 65, 66, 67].any fun x => decide (x ≠ c) && decide ((tarn x d).st = .running)
  if 64 ≤ c ∧ c < 68 ∧ (tarn c d).st = .faulted ∧ others then
    statusFault (tarnPage c) false (modTarn c (fun t => { t with
      st := .running, pc := 0, sb := [], past := [], slots := none, rpt := none, waiting := false, cache := none, fill := false }) d)
  else d

/-- The units whose failure the pages report by UNIT_FAULT (R141, R188, R322, R325, R383, R411, R431). -/
def failingPages : List Nat :=
  [0x20, 0x90, 0xA0, 0xB0, 0xC0, 0xD0, 0xE0, 0x110, 0x130, 0x140, 0x150, 0x180, 0x190, 0x1A0, 0x1B0]

/-- A unit fails (R445): UNIT_FAULT, FAULT where the unit is fatal; a worker whose cluster unit fails has lost its source (R431). -/
def unitFails (pg : Nat) (d : Dev) : Dev :=
  if (failingPages.contains pg || (decide (0x160 ≤ pg) && decide (pg < 0x180))) && pagePresent d pg then
    let d1 := unitFault pg d
    if pg = 0x190 ∧ isWorker d then sourceLost d1 else d1
  else d

/-- CORE_FAULT (R128, R251): `src` is TARN_FAULT.SOURCE. -/
def execCoreFault (c src : Nat) (cs : Bool) : State → Host.Outcome State Fault Refusal :=
  onDev fun d => if within src 1 5 then coreFaults c src cs d else d
/-- WATCHDOG_EXPIRY (R112, R251). -/
def execWatchdogExpiry (c : Nat) : State → Host.Outcome State Fault Refusal := onDev (watchdogExpires c)
/-- CORE_RETURN (R129, R135). -/
def execCoreReturn (v : W64) : State → Host.Outcome State Fault Refusal := onDev (fromHost 0 (returnCores v))
/-- SELFTEST_DONE (R129). -/
def execSelftestDone (c : Nat) (pass : Bool) : State → Host.Outcome State Fault Refusal := onDev (selftestEnds c pass)
/-- BASIN_SCRUB (R123). -/
def execBasinScrub (a err : Nat) : State → Host.Outcome State Fault Refusal := onDev (basinScrub a err)
/-- DRAM_SCRUB (R124). -/
def execDramScrub (a err : Nat) : State → Host.Outcome State Fault Refusal := onDev (dramScrub a err)
/-- WRITE_FAIL (R61, R125). -/
def execWriteFail (page part a : Nat) (h : W32) : State → Host.Outcome State Fault Refusal := onDev (writeFail page part a h)
/-- TARN_SCRUB (R250). -/
def execTarnScrub (c dm cs pm : Nat) : State → Host.Outcome State Fault Refusal := onDev (tarnScrub c dm cs pm)
/-- CONTROL_CORE_RESTART (R257). -/
def execControlCoreRestart (c : Nat) : State → Host.Outcome State Fault Refusal := onDev (restartControl c)
/-- UNIT_FAILURE (R445). -/
def execUnitFailure (pg : Nat) : State → Host.Outcome State Fault Refusal := onDev (unitFails pg)

end Sys2Proof.Machine
end

