-- ==== Sys2Proof/Machine/Power.lean ====
section
/-! DEFINITION. Resets, power states, power loss and debug: everything of start-up but the steps of boot (rules R45, R144, R384, R412,
R432, R435 to R437, R439 to R452). -/
namespace Sys2Proof.Machine

/-! ### Device reset (R435) -/

/-- The spools as a device reset leaves them (R376, R377, R384): committed units persist, every partition is LIVE. -/
def spoolsKept (r : Recorder) : Tab Spool :=
  r.spools.filterMap fun e =>
    let held := e.2.units.filter fun u => !r.wbuf.any fun w => decide (w.1 = e.1) && decide (w.2.1 = u.1)
    let s : Spool := ⟨0, held, [], e.2.next, 0⟩
    if s = Spool.reset then none else some (e.1, s)

/-- The fuses stand through every reset (R2, R4, R49). -/
def keepFuses (d n : Dev) : Dev := setRg rHIF_FUSE_CAP (rg rHIF_FUSE_CAP d) n

/-- A device reset: source `src` 0 POR_N, 1 WARM_RST_N, 2 PWR_CMD RESET. Flash and OTP persist; a warm reset keeps the debug state,
and with KEEP_MEM the Basin and the DRAM (R437). The levels of the input pins are the board's. -/
def resetDev (src : Nat) (straps : BitVec 3) (d : Dev) : Dev :=
  let n := Dev.reset
  let warm := decide (src ≠ 0)
  let keep := warm && bit (rg rPWR_CFG d) 1
  let n1 : Dev := { n with
    hif := { n.hif with perst := d.hif.perst }
    twin := { n.twin with peer := d.twin.peer, fence := d.twin.fence }
    flash := (stopXf d).flash
    recd := { n.recd with spools := spoolsKept d.recd }
    lfe := { n.lfe with blankPin := d.lfe.blankPin }
    sce := { n.sce with ready := d.sce.ready }
    clu := { n.clu with manager := bit straps 1 }
    basin := if keep then d.basin else []
    poison := if keep then d.poison else []
    dram := if keep then d.dram else []
    pwr := { n.pwr with
      resetSrc := src, straps := straps, debug := warm && d.pwr.debug, powerFail := d.pwr.powerFail, challenge := d.fresh,
      keepMem := keep }
    fresh := d.fresh + 1
    outbox := d.outbox }
  let n2 := keepFuses d (if warm then setRg rPWR_DBG_FAIL (rg rPWR_DBG_FAIL d) n1 else n1)
  out (.pin .clusterSync false) (actLow n2)

/-! ### PERST_N (R435, R37) -/

/-- The HIF and ATN pages at reset: the given PG_LOCK bits stay at a function-level reset (R45). -/
def resetHifAtn (keepLock : Bool) (d : Dev) : Dev :=
  let fresh (h : Hdr) : Hdr := { Hdr.reset with locked := keepLock && h.locked }
  let d1 := modHdr 0 fresh (modHdr 1 fresh d)
  driveIrq d (keepFuses d { d1 with
    regs := tabFilter (fun k _ => decide (0x2000 ≤ k)) d1.regs
    frozen := tabFilter (fun k _ => decide (0x2000 ≤ k)) d1.frozen
    hif := { d1.hif with perr := [], ovf := 0 } })

/-- A ring back at its reset values. -/
def clearRing (k : Nat) (d : Dev) : Dev := modRing k (fun _ => Ring.reset) d

/-- PERST_N falls: link and configuration space, the HIF and ATN pages, every ring, MSI-X; recordings spill (R366). -/
def perstLow (d : Dev) : Dev :=
  let d1 := (d.rings.map (·.1)).foldl (fun x k => if k < 4 then clearRing k x else stopRing k x) (resetHifAtn false d)
  spoolCheckAll { d1 with hif := { d1.hif with
    pfRid := 0, vfEnable := false, numVFs := 0, busMaster := false, vfBus := [], linkUp := false, perst := true, pfReady := false,
    wLatch := [], rLatch := [], masked := [], pba := [], msgs := [] } }

/-- The PF completes configuration requests (R435): PCIe is up from boot step 1 (R438). -/
def pfReadies (d : Dev) : Dev :=
  if d.hif.perst ∨ d.pwr.bootStep = 0 then d else { d with hif := { d.hif with pfReady := true } }

/-- The PCIe link comes up (R36, R435): its speed and width are in HIF_LINK, and less than Gen5 x8 is degraded (R49). The host path
is available to recordings again (R366). -/
def pcieUp (speed width : Nat) (d : Dev) : Dev :=
  if d.hif.perst ∨ d.pwr.bootStep = 0 ∨ d.hif.linkUp ∨ !within speed 3 5 ∨ (width ≠ 4 ∧ width ≠ 8) then d
  else
    let d1 := setRgN rHIF_LINK (speed + 16 * width) { d with hif := { d.hif with linkUp := true } }
    spoolCheckAll (if speed < 5 ∨ width < 8 then raise 0 8 d1 else d1)

/-- The PCIe link goes down without PERST_N: the host path is down and recordings spill (R366). -/
def pcieDown (d : Dev) : Dev :=
  if d.hif.linkUp then spoolCheckAll (setRgN rHIF_LINK 0 { d with hif := { d.hif with linkUp := false } }) else d

/-! ### PWR_CMD (R442, R444, R449) -/

/-- A PWR_CMD that does not apply in the present state (R449). -/
def cmdBusy (d : Dev) : Dev := reject 0 .busy 0 rPWR_CMD 4 d

/-- PWR_CMD SERVICE: READY to SERVICE (R442). -/
def serviceCmd (d : Dev) : Dev := if d.pwr.st = .ready then enterService d else cmdBusy d

/-- In READY with AUTO_SERVICE the device enters SERVICE at once (R442). -/
def autoService (d : Dev) : Dev := if d.pwr.st = .ready ∧ bit (rg rPWR_CFG d) 0 then enterService d else d

/-- May the device enter DORMANT (R444)? -/
def mayDoze (d : Dev) : Bool :=
  inService d && !anyChannel d && decide (d.twin.role ≠ .pairing) && decide (d.twin.role ≠ .standby)
    && !(decide (d.twin.role = .active) && d.twin.link && decide (d.twin.peerRole = 3))

/-- PWR_CMD DORMANT (R444): the media cores and the Basin are unpowered and lose what they hold, but for the programs firmware gives the cores
again (log entry 212); the Weir stops and is seeded again at the wake. -/
def dormantCmd (d : Dev) : Dev :=
  if !mayDoze d then cmdBusy d
  else
    let d1 := modWeir (fun w => { w with seeded := false, nextP := 0, tokens := [], lists := [], rel := [], lateFrom := none })
      { d with
        basin := [], poison := []
        progs := d.progs.map fun e => (e.1, if e.2.loaded then { e.2 with restoring := true } else e.2)
        tarns := d.tarns.map fun e =>
          (e.1, if e.1 < 64 ∧ (e.2.st = .idle ∨ e.2.st = .running) then { Tarn.reset with st := .idle, pm := e.2.pm, cs := e.2.cs } else e.2) }
    driveSync (driveAct (setDevSt .dormant d1))

/-- PWR_CMD WAKE (R444). -/
def wakeCmd (d : Dev) : Dev := if d.pwr.st = .dormant then wakeUp 0x100 d else cmdBusy d

/-- PWR_CMD RELEASE_MEM (R437): boot goes on, and the held contents are undefined from then on. -/
def releaseCmd (d : Dev) : Dev :=
  if d.pwr.memHeld then { d with pwr := { d.pwr with memHeld := false }, basin := [], poison := [], dram := [] } else cmdBusy d

/-- A write of PWR_CMD (R449). -/
def pwrCmd (v : W32) (d : Dev) : Dev :=
  match fld v 2 0 with
  | 1 => serviceCmd d
  | 2 => dormantCmd d
  | 3 => wakeCmd d
  | 4 => resetDev 2 d.pwr.straps d
  | 5 => releaseCmd d
  | _ => reject 0 .range 0 rPWR_CMD 4 d

/-! ### Power loss (R445, R446, R376) -/

/-- PWR_FAIL_N falls: FAULT, and the flash write buffer is flushed; during step 1 of boot the step waits instead (R438). -/
def powerFalls (d : Dev) : Dev :=
  let d1 := { d with pwr := { d.pwr with powerFail := true } }
  if d.pwr.bootStep = 0 then d1
  else
    let d2 := enterFault 2 0 (raise 2 2 d1)
    if bit (rg rFLASH_STATUS d) 0 then
      setRg rFLASH_STATUS (rg rFLASH_STATUS d2 ||| 2) (modRec (fun r => { r with flushing := true }) d2)
    else d2

/-! ### Firmware images (R439 to R441) -/

/-- May the image run: its signature verifies and its security version is not below the OTP counter (R439)? -/
def imageValid (i : BootImage) (d : Dev) : Bool := i.ok && decide (rgN rPWR_ROLLBACK d ≤ i.sec)
/-- The image that runs, in PWR_BOOT_VER. -/
def runImage (i : BootImage) (d : Dev) : Dev :=
  setRgN rPWR_BOOT_VER (i.sec % 65536 * 65536 + i.ver % 65536) { d with pwr := { d.pwr with secVersion := i.sec, bootStep := 2 } }

/-- A write of PWR_RECOV_CTRL (R440, R450): with GO in recovery the image is verified and run from step 3, or FAIL is set. -/
def recoverGo (v : W32) (img : BootImage) (d : Dev) : Dev :=
  if !bit v 0 || !d.pwr.recovery || decide (d.pwr.bootStep ≠ 1) then d
  else if imageValid img d then runImage img (setRgN rPWR_RECOV_CTRL 0 d)
  else setRgN rPWR_RECOV_CTRL 2 d

/-- A write of PWR_ROLLBACK_COMMIT (R441). -/
def rollbackSet (v : W32) (d : Dev) : Dev :=
  if fld v 7 0 ≠ 0xA5 then d
  else if bit (rg rPWR_BOOT_SLOT d) 1 ∨ 64 < d.pwr.secVersion then reject 0 .range 0 rPWR_ROLLBACK_COMMIT 4 d
  else setRgN rPWR_ROLLBACK (max (rgN rPWR_ROLLBACK d) d.pwr.secVersion) d

/-! ### Debug and aging (R447, R448) -/

/-- A fresh debug challenge. -/
def freshChallenge (d : Dev) : Dev := spend { d with pwr := { d.pwr with challenge := d.fresh } }

/-- A write of PWR_DBG_CTRL (R447): a valid response erases every key, closes every open partition and opens the port; an invalid one
counts, and after 8 none is accepted. -/
def debugSubmit (v : W32) (valid : Bool) (d : Dev) : Dev :=
  if !bit v 0 || decide (8 ≤ rgN rPWR_DBG_FAIL d) then d
  else if !valid then incRg rPWR_DBG_FAIL d
  else
    let d1 := { d with path := { d.path with keys := [] } }
    let open_ := (List.range 1024).filter fun p => decide (partState p d1 = 1)
    let d2 := open_.foldl (fun x p => closePart p x) d1
    out (.msg .debug 1 []) (raise 2 4 { d2 with pwr := { d2.pwr with debug := true } })

/-- The daily reading of the aging monitors (R448, R451). -/
def agingRead (percent : Nat) (d : Dev) : Dev :=
  let d1 := setRgN rPWR_AGE (min percent 255) d
  if 80 ≤ percent then raise 2 5 d1 else d1

/-! ### The commands -/

/-- POR (R435, R436). -/
def execPor (straps : BitVec 3) : State → Host.Outcome State Fault Refusal := onDev (resetDev 0 straps)
/-- WARM_RESET (R435, R436). -/
def execWarmReset (straps : BitVec 3) : State → Host.Outcome State Fault Refusal := onDev (resetDev 1 straps)
/-- PERST_ASSERT (R435). -/
def execPerstAssert : State → Host.Outcome State Fault Refusal := onDev perstLow
/-- PERST_DEASSERT (R435). -/
def execPerstDeassert : State → Host.Outcome State Fault Refusal := onDev fun d => { d with hif := { d.hif with perst := false } }
/-- PF_READY (R435). -/
def execPfReady : State → Host.Outcome State Fault Refusal := onDev pfReadies
/-- PCIE_LINK_UP (R366). -/
def execPcieLinkUp (speed width : Nat) : State → Host.Outcome State Fault Refusal := onDev (pcieUp speed width)
/-- PCIE_LINK_DOWN (R366). -/
def execPcieLinkDown : State → Host.Outcome State Fault Refusal := onDev pcieDown
/-- PWR_SERVICE (R442). -/
def execPwrService : State → Host.Outcome State Fault Refusal := onDev (fromHost 0 serviceCmd)
/-- PWR_DORMANT (R444). -/
def execPwrDormant : State → Host.Outcome State Fault Refusal := onDev (fromHost 0 dormantCmd)
/-- PWR_WAKE (R328, R444): the patterns matched, or PWR_CMD WAKE. -/
def execPwrWake (pat : BitVec 8) : State → Host.Outcome State Fault Refusal :=
  onDev fun d => if pat = 0 then fromHost 0 wakeCmd d else wakeUp pat.toNat d
/-- PWR_RESET (R435). -/
def execPwrReset : State → Host.Outcome State Fault Refusal := onDev (fromHost 0 (pwrCmd 4))
/-- RELEASE_MEM (R437). -/
def execReleaseMem : State → Host.Outcome State Fault Refusal := onDev (fromHost 0 releaseCmd)
/-- POWER_FAIL (R446). -/
def execPowerFail : State → Host.Outcome State Fault Refusal := onDev powerFalls
/-- RECOVERY_GO (R440). -/
def execRecoveryGo (v : W32) (img : BootImage) : State → Host.Outcome State Fault Refusal := onDev (fromHost 0 (recoverGo v img))
/-- ROLLBACK_COMMIT (R441). -/
def execRollbackCommit (v : W32) : State → Host.Outcome State Fault Refusal := onDev (fromHost 0 (rollbackSet v))
/-- DEBUG_SUBMIT (R447). -/
def execDebugSubmit (v : W32) (valid : Bool) : State → Host.Outcome State Fault Refusal := onDev (fromHost 0 (debugSubmit v valid))
/-- AGING_READ (R448). -/
def execAgingRead (percent : Nat) : State → Host.Outcome State Fault Refusal := onDev (agingRead percent)

end Sys2Proof.Machine
end

