-- ==== Sys2Proof/Machine/Sce.lean ====
section
/-! DEFINITION. The Serial Control Engine: its program, queues, states and host commands (rules R403, R405 to R407, R410, R411). -/
namespace Sys2Proof.Machine

/-- Change the engine. -/
def modSce (f : Sce → Sce) (d : Dev) : Dev := { d with sce := f d.sce }
/-- The instruction at the program counter. -/
def sceWord (d : Dev) : W32 := tabGet (fun _ => 0) d.sce.pm d.sce.pc.toNat
/-- Drive SCE_FRAME. -/
def sceFrame (b : Bool) (d : Dev) : Dev :=
  if d.sce.frame = b then d
  else
    let d1 := modSce (fun e => { e with frame := b }) d
    if drivesLines d then out (.pin .sceFrame b) d1 else d1
/-- Enter HALTED (R405, R411). -/
def sceHalted (d : Dev) : Dev := raise 0x180 1 (modSce (fun e => { e with st := .halted, haltPend := false }) d)
/-- An instruction completes: the program counter moves on, and a pending HALT halts the engine (R407). -/
def sceNext (pc : BitVec 9) (d : Dev) : Dev :=
  let d1 := modSce (fun e => { e with pc := pc }) d
  if d.sce.haltPend then sceHalted d1 else d1

/-- Run the instruction at the program counter if the engine is RUNNING and it is the one named; an unknown operation code halts the
engine (R405). -/
def sceRun (op : Nat) (f : W32 → Dev → Dev) (d : Dev) : Dev :=
  let w := sceWord d
  if !hasSce d || decide (d.sce.st ≠ .running) then d
  else if 8 < fld w 31 28 then raise 0x180 7 (sceHalted d)
  else if fld w 31 28 ≠ op then d
  else f w d

/-- Bits a SHIFT sends: 1 to 32. -/
def shiftBits (w : W32) : Nat := min (fld w 5 0) 32
/-- A word has been shifted: SDO carried the low `n` bits of SR, RXSR took those of SDI (R405). -/
def shiftDone (w sdi : W32) (d : Dev) : Dev :=
  let n := shiftBits w
  let d1 := out (.msg .sce 0 [n, d.sce.sr.toNat % 2 ^ n]) d
  let d2 := modSce (fun e => { e with
    st := .running, shifted := 0, rxsr := BitVec.ofNat 32 (e.rxsr.toNat * 2 ^ n + sdi.toNat % 2 ^ n) }) d1
  sceNext (d.sce.pc + 1) (if bit w 6 then d2 else sceFrame false d2)

/-- A word is aborted (R407). -/
def sceAbort (d : Dev) : Dev :=
  let v := 2 ^ 31 + shiftBits (sceWord d) * 256 + d.sce.shifted
  raise 0x180 2 (sceHalted (setRgN rSCE_ABORT v (modSce (fun e => { e with shifted := 0 }) (sceFrame false d))))
/-- DRV_READY is low before a bit: the engine is STALLED, or aborts with a HALT pending (R406, R407). -/
def sceStall (bits : Nat) (d : Dev) : Dev :=
  let d1 := modSce (fun e => { e with st := .stalled, shifted := bits, stalledAt := now d }) (sceFrame true d)
  if d.sce.haltPend then sceAbort d1 else d1

/-- SHIFT (R405, R406). The engine of a device that does not drive the outputs shifts nothing (R403). -/
def sceShift (sdi w : W32) (d : Dev) : Dev :=
  if !drivesLines d then d
  else if !d.sce.ready ∧ 0 < shiftBits w then sceStall 0 d
  else shiftDone w sdi (sceFrame true d)

/-- DRV_READY falls, with `bits` of a SHIFT in progress already sent (R406). -/
def drvLow (bits : Nat) (d : Dev) : Dev :=
  let d1 := modSce (fun e => { e with ready := false }) d
  if hasSce d && drivesLines d && decide (d.sce.st = .running) && decide (fld (sceWord d) 31 28 = 3)
    && decide (bits < shiftBits (sceWord d)) && decide (0 < bits) then sceStall bits d1 else d1
/-- DRV_READY rises: a stalled engine resumes and finishes its word (R406). -/
def drvHigh (sdi : W32) (d : Dev) : Dev :=
  let d1 := modSce (fun e => { e with ready := true }) d
  if d.sce.st = .stalled then shiftDone (sceWord d) sdi d1 else d1
/-- A stall has lasted longer than SCE_STALL_MAX µs (R406). -/
def stallTimeout (d : Dev) : Dev :=
  if d.sce.st = .stalled ∧ (fld (rg rSCE_STALL_MAX d) 15 0 * 1000 : Int) < sdiff (now d) d.sce.stalledAt then raise 0x180 3 d else d

/-- A write of SCE_CMD (R407). -/
def sceCmd (c : Nat) (d : Dev) : Dev :=
  if !hasSce d then reject 0 .reserved 0 rSCE_CMD 4 d
  else match c, d.sce.st with
    | 1, .halted => modSce (fun e => { e with st := .running, pc := BitVec.ofNat 9 (rgN rSCE_START d), haltPend := false }) d
    | 2, .running => modSce (fun e => { e with haltPend := true }) d
    | 2, .stalled => sceAbort d
    | _, _ => d
/-- A write of SCE_TXQ (R405). -/
def sceTx (v : W32) (d : Dev) : Dev := if hasSce d then scePush v d else reject 0 .reserved 0 rSCE_TXQ 4 d
/-- A read of SCE_RXQ (R410): the word at its head leaves, 0 when empty. -/
def sceRx (d : Dev) : Dev :=
  if !hasSce d then out (.readReply 0 0 rSCE_RXQ 4 0) d
  else out (.readReply 0 0 rSCE_RXQ 4 (d.sce.rxq.headD 0).toNat) (modSce (fun e => { e with rxq := e.rxq.tail }) d)
/-- A write of SCE_PM_ADDR or SCE_PM_DATA outside HALTED is refused (R407). -/
def pmRefused (addr : Nat) (f : Dev → Dev) (d : Dev) : Dev :=
  if !hasSce d then reject 0 .reserved 0 addr 4 d
  else if d.sce.st = .halted then f d else raise 0x180 4 (reject 0 .busy 0 addr 4 d)
/-- A write of SCE_PM_DATA: the word, and the address advances (R410). -/
def pmWrite (v : W32) : Dev → Dev :=
  pmRefused rSCE_PM_DATA fun d =>
    let a := rgN rSCE_PM_ADDR d
    setRgN rSCE_PM_ADDR ((a + 1) % 512) (modSce (fun e => { e with pm := tabSet (fun _ => 0) e.pm a v }) d)
/-- A write of SCE_PM_ADDR. -/
def pmAddr (v : W32) : Dev → Dev := pmRefused rSCE_PM_ADDR fun d => setRgN rSCE_PM_ADDR (fld v 8 0) d
/-- SCE_STATE (R410). -/
def sceState (d : Dev) : Nat :=
  d.sce.pc.toNat * 65536 + (match d.sce.st with | .halted => 0 | .running => 1 | .stalled => 2)
/-- SCE_QSTAT (R410). -/
def sceQstat (d : Dev) : Nat := d.sce.txq.length * 2 ^ 24 + d.sce.rxq.length * 65536 + d.sce.dropped.toNat

/-! ### The commands -/

/-- SCE_RUN (R407). -/
def execSceRun : State → Host.Outcome State Fault Refusal := onDev (fromHost 0 (sceCmd 1))
/-- SCE_HALT (R407). -/
def execSceHalt : State → Host.Outcome State Fault Refusal := onDev (fromHost 0 (sceCmd 2))
/-- SCE_TXQ_PUSH (R405). -/
def execSceTxqPush (v : W32) : State → Host.Outcome State Fault Refusal := onDev (fromHost 0 (sceTx v))
/-- SCE_RXQ_POP (R410). -/
def execSceRxqPop : State → Host.Outcome State Fault Refusal := onDev (fromHost 0 sceRx)
/-- SCE_PM_WRITE (R407, R410). -/
def execScePmWrite (v : W32) : State → Host.Outcome State Fault Refusal := onDev (fromHost 0 (pmWrite v))
/-- NOP. -/
def execSceNop : State → Host.Outcome State Fault Refusal := onDev (sceRun 0 fun _ d => sceNext (d.sce.pc + 1) d)
/-- POP: waits while TXQ is empty. -/
def execScePop : State → Host.Outcome State Fault Refusal :=
  onDev (sceRun 1 fun _ d => match d.sce.txq with
    | [] => d
    | v :: t => sceNext (d.sce.pc + 1) (modSce (fun e => { e with sr := v, txq := t }) d))
/-- LDI. -/
def execSceLdi : State → Host.Outcome State Fault Refusal :=
  onDev (sceRun 2 fun w d => sceNext (d.sce.pc + 1) (modSce (fun e => { e with sr := BitVec.ofNat 32 (fld w 23 0) }) d))
/-- SHIFT: `sdi` is what the driver returns. -/
def execSceShift (sdi : W32) : State → Host.Outcome State Fault Refusal := onDev (sceRun 3 (sceShift sdi))
/-- PUSH: dropped and counted when RXQ is full. -/
def execScePush : State → Host.Outcome State Fault Refusal :=
  onDev (sceRun 4 fun _ d => sceNext (d.sce.pc + 1) (
    if d.sce.rxq.length < 64 then modSce (fun e => { e with rxq := e.rxq ++ [e.rxsr] }) d
    else raise 0x180 6 (modSce (fun e => { e with dropped := e.dropped + 1 }) d)))
/-- GAP: SCE_FRAME is low for its periods. -/
def execSceGap : State → Host.Outcome State Fault Refusal := onDev (sceRun 5 fun _ d => sceNext (d.sce.pc + 1) (sceFrame false d))
/-- JMP. -/
def execSceJmp : State → Host.Outcome State Fault Refusal :=
  onDev (sceRun 6 fun w d => sceNext (BitVec.ofNat 9 (fld w 8 0)) d)
/-- JQE. -/
def execSceJqe : State → Host.Outcome State Fault Refusal :=
  onDev (sceRun 7 fun w d => sceNext (if d.sce.txq = [] then BitVec.ofNat 9 (fld w 8 0) else d.sce.pc + 1) d)
/-- HALT. -/
def execSceHaltInstr : State → Host.Outcome State Fault Refusal :=
  onDev (sceRun 8 fun _ d => sceHalted (modSce (fun e => { e with pc := e.pc + 1 }) d))
/-- DRV_READY_LOW (R406). -/
def execDrvReadyLow (bits : Nat) : State → Host.Outcome State Fault Refusal := onDev (drvLow bits)
/-- DRV_READY_RISE (R406). -/
def execDrvReadyRise (sdi : W32) : State → Host.Outcome State Fault Refusal := onDev (drvHigh sdi)
/-- STALL_TIMEOUT (R406). -/
def execStallTimeout : State → Host.Outcome State Fault Refusal := onDev stallTimeout

end Sys2Proof.Machine
end

