-- ==== Sys2Proof/Machine/HostRead.lean ====
section
/-! DEFINITION. What a host read answers: header registers, the registers that show live state, frozen values, the read latch and
the accesses that answer zeros (rules R39 to R46, R49, R51, R56, R57, R63 and the register tables of every chapter). -/
namespace Sys2Proof.Machine

/-! ### Headers (R43, R60) -/

/-- The control pages of the four media ports. -/
def macPages : List Nat := [0x100, 0x104, 0x108, 0x10C]

/-- The units the causes of a page fold under: the fold sources of the cause tables. -/
def foldSources (pg : Nat) : List Nat :=
  if pg = 0x20 then [0x10]
  else if pg = 0x10 ∨ pg = 0xB0 ∨ pg = 0xE0 ∨ pg = 0x1A0 then macPages
  else if pg = 0xA0 ∨ pg = 0x120 ∨ pg = 0x190 then [pg]
  else if pg = 0xD0 then [0x120]
  else if pg = 0x130 then [0x140, 0xA0]
  else if 0x100 ≤ pg ∧ pg < 0x110 then [pg]
  else if 0x160 ≤ pg ∧ pg < 0x180 then [0x150]
  else if (0x200 ≤ pg ∧ pg < 0x600) ∨ (0x1000 ≤ pg ∧ pg % 16 = 0) then
    (List.range 64).map (0x40 + ·) ++ [0x20, 0x90, 0xC0, 0xB0, 0xD0, 0]
  else []

/-- Is a page of a media port that MODE 1 leaves without lanes (R304)? -/
def laneless (pg : Nat) (d : Dev) : Bool := mode1 d && decide (0x104 ≤ pg) && decide (pg < 0x110)

/-- A header register (R43): PG_CAP and REV are fuse values (log entry 2); PG_STATUS.READY follows ENABLE. -/
def hdrRead (pg o : Nat) (d : Dev) : Nat :=
  let h := hdr pg d
  match o with
  | 0x00 => pageType pg * 2 ^ 20 + pageInst pg * 2 ^ 12 + 0x100
  | 0x08 => h.ctrl.toNat
  | 0x0C => h.status.toNat ||| b2n (bit h.ctrl 0 && !laneless pg d)
  | 0x10 => h.cause.toNat
  | 0x14 => h.mask.toNat
  | 0x1C => h.first.toNat
  | 0x20 => h.firstTime.toNat
  | 0x24 => h.fold.toNat ||| b2n ((foldSources pg).any fun s => faulted s d) <<< 31
  | 0x28 => b2n h.locked
  | _ => 0

/-! ### Attention (R56, R57) -/

/-- One bit for each of `n` things. -/
def bitsOver (n : Nat) (f : Nat → Bool) : Nat := ((List.range n).map fun i => b2n (f i) <<< i).foldl (· + ·) 0
/-- Has a page an unmasked cause? -/
def pageAttends (d : Dev) (pg : Nat) : Bool := decide ((hdr pg d).cause &&& (hdr pg d).mask ≠ 0)
/-- First page and number of pages of an attention group other than 17 and 22 (R47, R56). -/
def groupPages (g : Nat) : Nat × Nat :=
  match g with
  | 0 => (0, 1) | 1 => (2, 14) | 2 => (0x10, 16) | 3 => (0x20, 16) | 4 => (0x40, 64) | 5 => (0x80, 4) | 6 => (0x90, 16) | 7 => (0xA0, 4)
  | 8 => (0xB0, 16) | 9 => (0xC0, 8) | 10 => (0xD0, 16) | 11 => (0xE0, 16) | 12 => (0x100, 16) | 13 => (0x110, 1) | 14 => (0x120, 16)
  | 15 => (0x130, 16) | 16 => (0x140, 16) | 18 => (0x180, 1) | 19 => (0x190, 4) | 20 => (0x1A0, 8) | 21 => (0x1B0, 1) | _ => (0, 0)
/-- ATN_PARTj. -/
def atnPart (j : Nat) (d : Dev) : Nat := bitsOver 64 fun i => pageAttends d (0x200 + 64 * j + i)
/-- ATN_GRPg. -/
def atnGrp (g : Nat) (d : Dev) : Nat :=
  if g = 22 then bitsOver 16 fun j => decide (atnPart j d ≠ 0)
  else if g = 17 then bitsOver 33 fun i => pageAttends d (if i = 0 then 0x150 else 0x15F + i)
  else bitsOver (groupPages g).2 fun i => pageAttends d ((groupPages g).1 + i)
/-- ATN_SUMMARY. -/
def atnSummary (d : Dev) : Nat := bitsOver 23 fun g => decide (atnGrp g d ≠ 0)
/-- VFA_SUMMARY of VF `p`. -/
def vfaSummary (p : Nat) (d : Dev) : Nat := bitsOver 8 fun n => pageAttends d (vfPage p n)

/-! ### Live registers -/

/-- A ring's register at an offset from its base (R51, R150, R365). -/
def ringValue (k o : Nat) (d : Dev) : Nat :=
  let r := ring k d
  match o with
  | 0 => r.base.toNat | 8 => r.sizeLog2 | 0xC => b2n r.enable | 0x10 => r.prod.toNat | 0x14 => r.cons.toNat | 0x18 => r.drop.toNat
  | 0x20 => r.dataBase.toNat | _ => 0

/-- The head of the posted-error FIFO, zeros when it is empty (R49, R63). -/
def perrHead (d : Dev) : PErr := d.hif.perr.headD ⟨0, 0, 0, 0, 0, 0⟩

/-- Live registers of the HIF page. -/
def liveHif (o : Nat) (d : Dev) : Option Nat :=
  let e := perrHead d
  if o = 0x50 then some (d.hif.ovf.toNat * 65536 + d.hif.perr.length)
  else if o = 0x58 then some e.rid.toNat
  else if o = 0x5C then some (e.reason.toNat * 2 ^ 28 + e.bar.toNat * 2 ^ 24 + e.be.toNat)
  else if o = 0x60 then some e.addr.toNat
  else if o = 0x68 then some e.time.toNat
  else if 0x100 ≤ o ∧ o < 0x200 then some (ringValue (ringKey 0 ((o - 0x100) / 0x40)) (o % 0x40) d)
  else none

/-- Live registers of the PWR pages (R449 to R451). -/
def livePwr (key : Nat) (d : Dev) : Option Nat :=
  if key = rPWR_STATE then some (d.pwr.resetSrc * 1024 + b2n d.pwr.debug * 512 + b2n d.pwr.memHeld * 256 + d.pwr.st.code)
  else if key = rPWR_STRAPS then some d.pwr.straps.toNat
  else if rPWR_DBG_CHAL ≤ key ∧ key < rPWR_DBG_RESP then some (Config.challenge d.pwr.challenge ((key - rPWR_DBG_CHAL) / 4)).toNat
  else none

/-- A signed value as a 32-bit register. -/
def reg32 (x : Int) : Nat := (BitVec.ofInt 32 x).toNat

/-- Live registers of the TB pages (R96, R98, R99). -/
def liveTb (key : Nat) (d : Dev) : Option Nat :=
  if key = rTB_NT32 then some (now d).toNat
  else if key = rTB_NT64 then some (now64 d).toNat
  else if key = rTB_INC then some d.tb.inc.toNat
  else if key = rTB_STEP_ARM then some (b2n d.tb.armed <<< 31)
  else if key = rTB_EXT_HI then some d.tb.extHi.toNat
  else if key = rTB_EXT_NEXT then some d.tb.extNext.toNat
  else if key = rTB_SRC then some d.tb.src
  else if key = rTB_SERVO then some (servoReg d)
  else if key = rTB_FREQ_PPB then some (reg32 (freqPpb d))
  else if rTB_TSC_TBL_RX ≤ key ∧ key < rTB_TSC_TBL_RX + 32 then
    let t := tscOf ((key - rTB_TSC_TBL_RX) / 8) d
    some (if key % 8 = 0 then t.1 else t.2)
  else none

/-- Live registers of the WEIR pages (R135, R137, R138). -/
def liveWeir (key : Nat) (d : Dev) : Option Nat :=
  if key = rWEIR_NEXT_P then some (if d.weir.seeded then d.weir.nextP.toNat else 0)
  else if key = rWEIR_EFF_CEIL then some (effCeil d)
  else if key = rWEIR_ADMITTED then some (admitted d)
  else if key = rWEIR_STATUS then some (b2n (capacityLost d) * 256 + healthy d)
  else if key = rWEIR_CORE_HEALTHY then some d.weir.healthy.toNat
  else if key = rWEIR_CORE_RETURN then some (bitsOver 64 fun c => d.weir.selftest.contains c)
  else if rWEIR_DL_COUNT ≤ key ∧ key < rWEIR_DL_COUNT + 0x80 ∧ key % 16 = 0 then some (dlist ((key - rWEIR_DL_COUNT) / 16) d).length
  else if key = rWEIR_SHED_CFG then some (shedOf (rgN rWEIR_SHED_SEL d) d).cfg.toNat
  else if key = rWEIR_SHED_STATE then
    some (let s := shedOf (rgN rWEIR_SHED_SEL d) d; b2n s.prog + 2 * s.halvings)
  else none

/-- Live registers of the CLS pages (R182, R184). -/
def liveCls (key : Nat) (d : Dev) : Option Nat :=
  let b := binding (bindSel d) d
  let x := policer (fld (rg rCLS_POL_SEL d) 9 0) d
  if key = rCLS_FLOWS then some (flowsHeld d)
  else if key = rCLS_STASH then some (stashed d)
  else if key = rCLS_BIND_CTRL then some b.ctrl.toNat
  else if key = rCLS_BIND_PORTS then some b.ports.toNat
  else if rCLS_BIND_IP ≤ key ∧ key < rCLS_BIND_IP + 16 then some (b.ip.getD ((key - rCLS_BIND_IP) / 4) 0).toNat
  else if key = rCLS_POL_PKT then some x.pkt.toNat
  else if key = rCLS_POL_BYTE then some x.byte.toNat
  else if key = rCLS_POL_BURST then some x.burst.toNat
  else none

/-- Live registers of a core's page (R258). -/
def liveTarn (c o : Nat) (d : Dev) : Option Nat :=
  let t := tarn c d
  if o = oTARN_STATE then some (b2n (bit (tr 0x30 t) 15) * 128 + t.st.code)
  else if o = oTARN_JOB then some (match headJob c d with | some j => j.handle.toNat | none => 0)
  else none

/-- Live registers of a media port's pages (R311, R316). -/
def liveMac (pg o : Nat) (d : Dev) : Option Nat :=
  let p := (pg - 0x100) / 4
  if pg % 4 = 0 ∧ o = oMAC_MC_ADDR then some (tabGet (fun _ => 0) (port p d).mc (rgN (kMac p 0 oMAC_MC_SEL) d)).toNat
  else if pg % 4 = 3 ∧ 0x100 ≤ o ∧ o < 0x120 then some (ringValue (txRing p) (o - 0x100) d)
  else none

/-- Live registers of the MGMT page (R322). -/
def liveMgmt (o : Nat) (d : Dev) : Option Nat :=
  if 0x100 ≤ o ∧ o < 0x140 then some (ringValue mgmtRing (o - 0x100) d)
  else if 0x140 ≤ o ∧ o < 0x160 then some (ringValue (txRing 4) (o - 0x140) d)
  else none

/-- Bytes of contexts that a bulk transfer has still to copy (R351, R354): those wanted of an active, or awaited by the attaching device. -/
def bulkLeft (d : Dev) : Nat :=
  let ks : List Nat := if d.twin.role = .pairing then (activeSlots d).filter fun k => awaitsContext (handleOf k d) d
    else if paired d ∧ d.twin.peerRole = 1 then d.twin.want.map fun w => hSlot w.1 else []
  sumL (ks.map fun k => (granWords (slot k d).granules).length * 9 / 2)
/-- Live registers of the TWIN pages (R354). -/
def liveTwin (key : Nat) (d : Dev) : Option Nat :=
  let count (f : ChSt → Bool) : Nat := ((activeSlots d).filter fun k => f (chSt k d)).length
  if key = rTWIN_STATE then some (twinState d)
  else if key = rTWIN_CH_SHADOW then some (count fun c => decide (c = .shadow))
  else if key = rTWIN_BULK_LEFT then some (ceilDiv (bulkLeft d) (2 ^ 20))
  else if key = rTWIN_CH_COPYING then some (count fun c => decide (c = .copying ∨ c = .resync))
  else none

/-- Live registers of the REC pages (R380). -/
def liveRec (key : Nat) (d : Dev) : Option Nat :=
  let p := rgN rREC_SP_SEL d
  let mib (n : Nat) : Nat := ceilDiv n (2 ^ 20)
  if key = rREC_STREAMS then some d.recd.streams.length
  else if key = rREC_STAGE_USED then
    some (ceilDiv (stagedBytes d) 1024)
  else if key = rREC_SP_STATE then
    some ((spool p d).st + 4 * b2n (decide ((spool p d).st = 1) && decide (spoolCap p d < spoolUsed p 16384 d)))
  else if key = rREC_SP_CAP then some (spoolCap p d / 2 ^ 20)
  else if key = rREC_SP_USED then some (mib (spoolUsed p 0 d))
  else if key = rREC_SP_UNITS then some (spool p d).units.length
  else none

/-- Live registers of the LFE and SCE pages (R408 to R410). -/
def liveLine (key : Nat) (d : Dev) : Option Nat :=
  let n := key / 0x1000 - 0x160
  if key = rLFE_COM_HOLD then some (overLines fun n => decide (lineMode n d = 1))
  else if key = rLFE_COM_BLANK then some (overLines fun n => blanked n d)
  else if key = rSCE_STATE then some (sceState d)
  else if key = rSCE_QSTAT then some (sceQstat d)
  else if key = rSCE_PM_DATA then some (tabGet (fun _ => 0) d.sce.pm (rgN rSCE_PM_ADDR d)).toNat
  else if 0x160 ≤ key / 0x1000 ∧ key / 0x1000 < 0x180 then
    (if key % 0x1000 = oLFE_LN_STATUS then some (lineStatus n d)
     else if key % 0x1000 = oLFE_LN_ICMD then some (reg32 (lineIcmd n d) % 65536) else none)
  else none

/-- Live registers of the CLU and FAB pages (R429, R430). -/
def liveFab (key : Nat) (d : Dev) : Option Nat :=
  if key = rCLU_STATE then some (cluState d)
  else if key = rFAB_PEERS then
    some ((d.fab.routes.filter fun e => reachable e.1 d).length * 65536 + d.fab.nbrs.length)
  else if key = rFAB_RT_INFO then
    some (match routeTo (rgN rFAB_RT_SEL d) d with
      | some r => b2n (decide (r.metric < 9)) <<< 31 ||| r.metric % 16 * 65536 ||| r.port % 4 * 4096 ||| r.hop % 4096
      | none => 0)
  else none

/-- The registers of partition `p`'s PART page that show live state (R300), by offset. -/
def livePart (p o : Nat) (d : Dev) : Option Nat :=
  if o = oPART_U_CHANNELS then some (slotsOf p d).length
  else if o = oPART_U_FLOWS then some (flowsOf p d)
  else if o = oPART_U_CYCLES then some (cyclesHeld p d)
  else if o = oPART_U_BASIN then some (granHeld p d)
  else if o = oPART_U_DRAM then some (dramHeld p d)
  else if o = oPART_U_TENANT then some ((progsOf p d).length * 65536 + tgranHeld p d)
  else if o = oPART_U_REC then some (ceilDiv (spoolUsed p 0 d * 256) (max 1 (rgN rFLASH_SPOOL_MIB d * 2 ^ 20)) * 2 ^ 24 + streamsHeld p d)
  else if o = oPART_WR_DROP then some (rgN (kVfa p oVFA_WR_DROP) d)
  else none

/-- The registers of a partition's windows that show live state: VF page `k`, offset `o`. -/
def liveWin (p k o : Nat) (d : Dev) : Option Nat :=
  match k with
  | 0 => if o = oVFA_SUMMARY then some (vfaSummary p d) else if o = oVFA_PART then some p else none
  | 1 =>
    let s := slot (fld (rg (kChw p oCHW_SEL) d) 13 0) d
    let held := decide (s.part = p) && decide (s.st ≠ .free)
    if o = oCHW_STATUS then
      some (rgN (kChw p oCHW_STATUS) d % 2 ^ 30 + b2n (chwBusy p d).isSome * 2 ^ 31
        + (if held then b2n s.pend.isSome * 2 ^ 30 + s.st.code * 256 else 0))
    else if o = oCHW_PEND_AT then some (if held then s.pendAt.toNat else 0)
    else if o = oCHW_NEXT_P then some (if d.weir.seeded then d.weir.nextP.toNat else 0)
    else none
  | 2 => if o = oFLW_COUNT then some (flowsOf p d) else none
  | 3 =>
    if o = oKEY_STATUS then
      some (rgN (kKey p oKEY_STATUS) d + loadedBits ((rg (kKey p oKEY_SEL) d).extractLsb' 0 32) ((rg (kKey p oKEY_CTRL) d).extractLsb' 0 32) d)
    else none
  | 4 =>
    if o = oPRG_USE then some (prgUse p (rgN (kPrg p oPRG_ID) d) d)
    else if o = oPRG_LOADED then some (prgLoaded p d)
    else none
  | 5 => if 0x40 ≤ o ∧ o < 0x100 then some (ringValue (ringKey p ((o - 0x40) / 0x40)) (o % 0x40) d) else none
  | 6 =>
    if oVCNT_QUOTA ≤ o ∧ o < oVCNT_QUOTA + 0x48 then
      (let q := oPART_Q_CHANNELS + (o - oVCNT_QUOTA); some ((livePart p q d).getD (rgN (kPart p q) d)))
    else none
  | 7 =>
    if o = oVTIM_NT64 then some (now64 d).toNat
    else if o = oVTIM_QUAL then some (servoReg d)
    else if o = oVTIM_OFFSET then some (rgN rTB_OFFSET d)
    else if o = oVTIM_GM_ID then some (rgN rTB_GM_ID d)
    else if o = oVTIM_HOLD_SEC then some (rgN rTB_HOLD_SEC d)
    else none
  | _ => none

/-- The partition, VF page and offset that an offset of a page shows, if it lies in a window or a VF page (R48, R300). -/
def viewOf (pg o : Nat) : Option (Nat × Nat × Nat) :=
  if 0x1000 ≤ pg then some ((pg - 0x1000) / 16, (pg - 0x1000) % 16, o)
  else if 0x200 ≤ pg ∧ pg < 0x600 then (winOf o).map fun k => (pg - 0x200, k, o - winBase k)
  else none

/-- What a register shows where that is not the value stored. -/
def liveReg (pg o : Nat) (d : Dev) : Option Nat :=
  let key := pg * 0x1000 + o
  match viewOf pg o with
  | some w => liveWin w.1 w.2.1 w.2.2 d
  | none =>
    if pg = 0 then liveHif o d
    else if pg = 1 then
      (if key = rATN_SUMMARY then some (atnSummary d)
       else if rATN_GRP ≤ key ∧ key < rATN_PART then some (atnGrp ((key - rATN_GRP) / 8) d)
       else if rATN_PART ≤ key then some (atnPart ((key - rATN_PART) / 8) d) else none)
    else if pg < 0x10 then livePwr key d
    else if pg < 0x20 then liveTb key d
    else if pg < 0x40 then liveWeir key d
    else if pg < 0x84 then liveTarn (pg - 0x40) o d
    else if key = rBASIN_POOL_FREE then some (40960 - granUsed d)
    else if pg < 0x100 then liveCls key d
    else if pg < 0x110 then liveMac pg o d
    else if pg = 0x110 then liveMgmt o d
    else if pg < 0x130 then liveTwin key d
    else if pg < 0x140 then liveRec key d
    else if 0x150 ≤ pg ∧ pg < 0x190 then liveLine key d
    else if 0x190 ≤ pg ∧ pg < 0x1B0 then liveFab key d
    else if 0x200 ≤ pg then livePart (pg - 0x200) o d
    else none

/-- The page whose FREEZE holds a register: the VF page of a window (R43, R300). -/
def freezer (pg o : Nat) : Nat := match viewOf pg o with | some w => vfPage w.1 w.2.1 | none => pg

/-- What a block register reads as (R17, R43): a write-only register 0, a counter the value FREEZE holds. -/
def regValue (pg o : Nat) (r : RegRow) (d : Dev) : Nat :=
  let key := canonKey pg o
  if r.acc = .wo then 0
  else if r.cnt && bit (hdr (freezer pg o) d).ctrl 2 then
    (tabGet (fun _ => 0) d.frozen key).toNat + (if key = rHIF_PERR_LEVEL then d.hif.perr.length else 0)
  else ((liveReg pg o d).getD (rgN key d)) &&& r.mask

/-! ### Reads (R46) -/

/-- Bytes of a function's BAR0 (R40). -/
def barBytes (fn : Nat) : Nat := if fn = 0 then 0x1000000 else 0x10000

/-- The read latch of a function (R46). -/
def setRLatch (fn : Nat) (x : Option (Nat × W32)) (d : Dev) : Dev :=
  { d with hif := { d.hif with rLatch := tabSet (fun _ => none) d.hif.rLatch fn x } }

/-- What reading a register does besides answering: SCE_RXQ gives up its head (R410), EGR_LATE_MAX starts afresh (R187), the last
word of the debug challenge makes a fresh one (R447). -/
def afterRead (pg o : Nat) (d : Dev) : Dev :=
  let key := pg * 0x1000 + o
  if key = rSCE_RXQ then modSce (fun e => { e with rxq := e.rxq.tail }) d
  else if key = rEGR_LATE_MAX then setRgN rEGR_LATE_MAX 0 d
  else if key = rPWR_DBG_CHAL + 28 then freshChallenge d
  else d

/-- An aligned 32-bit read of a page: a register, or a half of a 64-bit one through the function's read latch (R46). -/
def read32 (fn pg o : Nat) (d : Dev) : Nat × Dev :=
  if !pagePresent d pg then (0, d)
  else if o < 0x40 then (hdrRead pg o d, d)
  else if pg * 0x1000 + o = rSCE_RXQ then ((d.sce.rxq.headD 0).toNat, afterRead pg o d)
  else match findRow pg o with
    | some r =>
      let v := regValue pg o r d
      if r.width = 64 then (v % 2 ^ 32, setRLatch fn (some (canonKey pg o, BitVec.ofNat 32 (v / 2 ^ 32))) d)
      else (v, afterRead pg o d)
    | none =>
      match findRow pg (o - 4) with
      | some r =>
        if r.width ≠ 64 then (0, d)
        else match tabGet (fun _ => none) d.hif.rLatch fn with
          | some (k, v) =>
            if k = canonKey pg (o - 4) then (v.toNat, setRLatch fn none d) else (regValue pg (o - 4) r d / 2 ^ 32, d)
          | none => (regValue pg (o - 4) r d / 2 ^ 32, d)
      | none => (0, d)

/-- A read of BAR0 by a function: the value and the device after it (R46). A byte or 16-bit read answers the 32-bit register that
contains it; a read across alignment answers zeros and is logged as WIDTH. -/
def hostRead (fn off size : Nat) (d : Dev) : Nat × Dev :=
  let pg := pageOf fn (off / 0x1000)
  let o := off % 0x1000
  if barBytes fn ≤ off ∨ (fn ≠ 0 ∧ 16 ≤ off / 0x1000) then (0, d)
  else if size = 1 ∨ (size = 2 ∧ off % 4 ≤ 2) then read32 fn pg (o / 4 * 4) d
  else if (size ≠ 4 ∧ size ≠ 8) ∨ off % size ≠ 0 then (0, logErr fn .width 0 off size d)
  else if size = 4 then read32 fn pg o d
  else if !pagePresent d pg then (0, d)
  else match (if o < 0x40 then none else findRow pg o) with
    | some r =>
      if r.width = 64 then (regValue pg o r d, d)
      else let a := read32 fn pg o d; let b := read32 fn pg (o + 4) a.2; (a.1 + b.1 * 2 ^ 32, b.2)
    | none => let a := read32 fn pg o d; let b := read32 fn pg (o + 4) a.2; (a.1 + b.1 * 2 ^ 32, b.2)

end Sys2Proof.Machine
end

