-- ==== Sys2Proof/Machine/TimeCmds.lean ====
section
/-! DEFINITION. The commands of the Time Base and of PTP (rules R72 to R104, R345, R418, R448). -/
namespace Sys2Proof.Machine

/-- A host write of TB_INC (R73, R74): refused unless the source is MANUAL and the value within 500 ppm of nominal. -/
def incWrite (v : W64) (d : Dev) : Dev :=
  let n := fld v 39 0
  if d.tb.src ≠ 0 then reject 0 .busy 0 rTB_INC 8 d
  else if !incOk n then raise 0x10 4 d
  else setInc n d

/-- A host write of TB_STEP (R74, R79, R345). -/
def stepWrite (s : Int) (d : Dev) : Dev :=
  if d.tb.src ≠ 0 then reject 0 .busy 0 rTB_STEP 8 d
  else match stepCheck s d with
    | .refusedBusy => reject 0 .busy 0 rTB_STEP 8 (raise 0x10 3 d)
    | .refusedRange => reject 0 .range 0 rTB_STEP 8 (raise 0x10 3 d)
    | .busy => reject 0 .busy 0 rTB_STEP 8 d
    | .discarded => d
    | .accepted => nameStep (holdStep s none d)

/-- A step in wait is applied at its tick (R79, R345); a manager's STEP message follows with its Q' (R418). -/
def stepNow (d : Dev) : Dev :=
  match d.tb.step with
  | none => d
  | some p =>
    if (match p.tick with | some t => reached d t | none => true) then
      let d1 := modTwin (fun w => { w with step := none }) (applyStep p.s d)
      if d1.clu.driving && d1.weir.seeded
      then out (.msg .cluster 3 [(BitVec.ofInt 64 p.s).toNat, d1.weir.nextP.toNat]) d1 else d1
    else d

/-- A write of TB_STEP_ARM (R78). -/
def rearmWrite (v : W32) (d : Dev) : Dev :=
  if fld v 7 0 = 0xA5 then modTb (fun t => { t with armed := true, rearmed := decide (t.servo = .holdover) }) d
  else reject 0 .range 0 rTB_STEP_ARM 4 d

/-- A write of TB_SRC (R98): 4 and the codes above it are refused. On a standby the source configured is kept for the
takeover (R94). -/
def srcWrite (v : W32) (d : Dev) : Dev :=
  let n := fld v 2 0
  if 4 ≤ n then reject 0 .range 0 rTB_SRC 4 d
  else
    let d1 := modTwin (fun w => { w with cfgSrc := n }) d
    if isStandby d then d1 else setSource n d1

/-- Loss of the reference has lasted its hold: FAULT (R75, R445). -/
def refExpired (d : Dev) : Dev := if d.tb.refHold.isSome then enterFault 3 0x10 d else d

/-- A servo measurement (R80, R81); with SOURCE = MANUAL no servo takes it. -/
def servoMeasure (off mpd : Int) (d : Dev) : Dev := if d.tb.src = 0 then d else afterServo (takeMeasurement off mpd d)

/-- One more second of die temperature (R448): the mean of the last 30 days, TJ_HIGH when it comes to exceed 95.0 °C. -/
def tjSecond (tj : Nat) (d : Dev) : Dev :=
  let l := keepRuns 2592000 (noteRun tj d.pwr.tjRuns)
  let s := sumL (l.map fun e => e.1 * e.2)
  let n := sumL (l.map (·.2))
  let was := rgN rPWR_TJ_AVG d
  let d1 := setRgN rPWR_TJ_AVG (s / n % 65536) { d with pwr := { d.pwr with tjRuns := l } }
  if 950 * n < s ∧ was ≤ 950 then raise 2 6 d1 else d1

/-- The figures of the second that ends (R185, R380): CRY_LOAD, REC_BYTES_IN and REC_BYTES_OUT. -/
def secondFigures (d : Dev) : Dev :=
  let d1 := setRgN rREC_BYTES_OUT (d.recd.outBytes % 2 ^ 32) (setRgN rREC_BYTES_IN (d.recd.inBytes % 2 ^ 32)
    (setRgN rCRY_LOAD (d.path.loadBits / 1000000 % 2 ^ 32) d))
  { d1 with recd := { d1.recd with inBytes := 0, outBytes := 0 }, path := { d1.path with loadBits := 0 } }

/-- The RS-FEC figures of a port for the second that ends (R317, R319): the corrected and the uncorrectable codewords that a port with FEC
active received, which the bits on its lanes make, are free values (log entry 139). -/
def fecSecond (p : Nat) (d : Dev) : Dev :=
  if !bit (rg (kMac p 0 oMAC_STATUS) d) 2 then d
  else
    let ce := Config.freeNat d.fresh % 2 ^ 32
    let ue := Config.freeNat (d.fresh + 1) % 2 ^ 32
    let d1 := macCount p (kMac p 0 oMAC_FEC_UE) ue (macCount p (kMac p 0 oMAC_FEC_CE) ce (spend (spend d)))
    if rgN (kMac p 0 oMAC_FEC_THRESH) d ≤ ce ∨ 0 < ue then raise (macPage p) 5 d1 else d1
/-- Those of every port. -/
def fecFigures (d : Dev) : Dev := (List.range 4).foldl (fun x p => fecSecond p x) d

/-- An integer second of NT64 (R54, R81, R90, R92, R185, R371, R380, R319, R448). -/
def integerSecond (tj : Nat) (d : Dev) : Dev :=
  let n := (now64 d).toNat / 1000000000
  if n = d.tb.secIdx then d
  else
    let d0 := ppsRise (countSecond (modTb (fun t => { t with secIdx := n }) d))
    let r := qualityRec (n * 1000000000) d0
    let d1 := ringOffer (ringKey 0 0) r (modRec (fun x => { x with quality := some (BitVec.ofNat 32 (n * 1000000000), r.body) }) d0)
    let d2 := if n % 60 = 0 then logEvent r d1 else d1
    tjSecond tj (anchorAll (fecFigures (secondFigures (modTb (fun t => { t with stepped := false }) d2))))

/-! ### The commands -/

/-- TB_TICK_INC (R72, R76). -/
def execTbTickInc : State → Host.Outcome State Fault Refusal := onDev tbTick
/-- TB_INC_WRITE (R73, R74). -/
def execTbIncWrite (v : W64) : State → Host.Outcome State Fault Refusal := onDev (fromHost 0 (incWrite v))
/-- TB_STEP_WRITE (R74, R79). -/
def execTbStepWrite (s : W64) : State → Host.Outcome State Fault Refusal := onDev (fromHost 0 (stepWrite s.toInt))
/-- STEP_APPLY (R79, R82, R345). -/
def execStepApply : State → Host.Outcome State Fault Refusal := onDev stepNow
/-- REARM (R78). -/
def execRearm (v : W32) : State → Host.Outcome State Fault Refusal := onDev (fromHost 0 (rearmWrite v))
/-- TB_EXT_NEXT_WRITE (R76): by control firmware or the host. -/
def execTbExtNextWrite (v : W32) : State → Host.Outcome State Fault Refusal := onDev (modTb fun t => { t with extNext := v })
/-- TB_SRC_WRITE (R81, R98). -/
def execTbSrcWrite (v : W32) : State → Host.Outcome State Fault Refusal := onDev (fromHost 0 (srcWrite v))
/-- REFCLK_LOSS (R75). -/
def execRefclkLoss : State → Host.Outcome State Fault Refusal := onDev refLoss
/-- REFCLK_HOLD_EXPIRY (R75). -/
def execRefclkHoldExpiry : State → Host.Outcome State Fault Refusal := onDev refExpired
/-- SERVO_MEASUREMENT (R80, R81). -/
def execServoMeasurement (off mpd : W64) : State → Host.Outcome State Fault Refusal := onDev (servoMeasure off.toInt mpd.toInt)
/-- SOURCE_QUALIFIED (R81). -/
def execSourceQualified : State → Host.Outcome State Fault Refusal := onDev sourceQualified
/-- SOURCE_LOST (R81). -/
def execSourceLost : State → Host.Outcome State Fault Refusal := onDev lostSource
/-- PPS_OUT_PULSE_END (R90). -/
def execPpsOutPulseEnd : State → Host.Outcome State Fault Refusal := onDev ppsFall
/-- PPS_IN_EDGE (R91). -/
def execPpsInEdge (stamp : NT32) : State → Host.Outcome State Fault Refusal := onDev fun d => afterServo (ppsEdge stamp d)
/-- PPS_IN_MISSING (R91). -/
def execPpsInMissing : State → Host.Outcome State Fault Refusal := onDev ppsMissing
/-- ZDA_SENTENCE (R91). -/
def execZdaSentence (utc : W64) (ok : Bool) : State → Host.Outcome State Fault Refusal := onDev fun d => afterServo (zda utc ok d)
/-- TOD_ERROR (R91). -/
def execTodError : State → Host.Outcome State Fault Refusal := onDev todError
/-- INTEGER_SECOND (R54, R81, R90, R92, R448). -/
def execIntegerSecond (tj : Nat) : State → Host.Outcome State Fault Refusal := onDev (integerSecond tj)
/-- PTP_SYNC (R87). -/
def execPtpSync (m : PtpMsg) : State → Host.Outcome State Fault Refusal := onDev fun d => afterServo (ptpSync m d)
/-- PTP_FOLLOW_UP (R87). -/
def execPtpFollowUp (m : PtpMsg) : State → Host.Outcome State Fault Refusal := onDev fun d => afterServo (ptpFollowUp m d)
/-- PTP_DELAY_REQ (R87). -/
def execPtpDelayReq (m : PtpMsg) : State → Host.Outcome State Fault Refusal := onDev (ptpDelayReq m)
/-- PTP_DELAY_RESP (R87). -/
def execPtpDelayResp (m : PtpMsg) : State → Host.Outcome State Fault Refusal := onDev (ptpDelayResp m)
/-- PTP_PDELAY_REQ (R87). -/
def execPtpPdelayReq (m : PtpMsg) : State → Host.Outcome State Fault Refusal := onDev (ptpPdelayReq m)
/-- PTP_PDELAY_RESP (R87). -/
def execPtpPdelayResp (m : PtpMsg) : State → Host.Outcome State Fault Refusal := onDev (ptpPdelayResp m)
/-- PTP_PDELAY_RESP_FOLLOW_UP (R87). -/
def execPtpPdelayRespFollowUp (m : PtpMsg) : State → Host.Outcome State Fault Refusal := onDev (ptpPdelayRespFu m)
/-- PTP_ANNOUNCE (R81, R87). -/
def execPtpAnnounce (m : PtpMsg) (a : PtpAnnounce) : State → Host.Outcome State Fault Refusal := onDev (ptpAnnounce m a)
/-- PTP_SIGNALING (R87). -/
def execPtpSignaling (m : PtpMsg) (tlv : PtpTlv) : State → Host.Outcome State Fault Refusal := onDev (ptpSignaling m tlv)
/-- PTP_MESSAGE_TX (R87, R89). -/
def execPtpMessageTx (port kind : Nat) : State → Host.Outcome State Fault Refusal := onDev (ptpSend port kind)

end Sys2Proof.Machine
end

