-- ==== Sys2Proof/Machine/HostWrite.lean ====
section
/-! DEFINITION. What a host write of a register does: the access rules, the write latch, soft resets, and register by register the
ranges, refusals and effects the tables give (rules R40, R43, R45, R46, R471 and the register tables of every chapter). -/
namespace Sys2Proof.Machine

/-! ### Writes with a range (R98, R101, R139, R140, R258, R318, R356, R380, R381, R410, R429, R430) -/

/-- Rejected for its range, or stored. -/
def inRange (pg o : Nat) (ok : Bool) (w : W32) (d : Dev) : Dev :=
  if ok then storeReg pg o w d else reject 0 .range 0 (pg * 0x1000 + o) 4 d

/-- A write of a ring's register at an offset from its base. -/
def ringWrite (fn addr k o : Nat) (v : W64) (d : Dev) : Dev :=
  let w : W32 := v.extractLsb' 0 32
  match o with
  | 0 => ringBase fn addr k v d
  | 8 => ringSize fn addr k w d
  | 0xC => ringCtrl fn addr k (bit w 0) d
  | 0x14 => ringCons fn addr k w d
  | 0x20 => if (ring k d).enable then reject fn .busy 0 addr 8 d else modRing k (fun r => { r with dataBase := v &&& ~~~0xFFF }) d
  | _ => d

/-- HIF (R49, R51, R59). -/
def writeHif (o : Nat) (v : W64) (d : Dev) : Dev :=
  let w : W32 := v.extractLsb' 0 32
  if o = rHIF_PERR_POP then perrPop w d
  else if o = rHIF_IRQN_CTRL then driveIrq d (storeReg 0 o w d)
  else if 0x100 ≤ o then ringWrite 0 o (ringKey 0 ((o - 0x100) / 0x40)) (o % 0x40) v d
  else storeReg 0 o w d

/-- A free outcome of verifying a firmware image: the command of that name carries it as an operand (log entry 4). -/
def freeImage (d : Dev) : BootImage :=
  ⟨decide (Config.freeNat d.fresh % 2 = 1), Config.freeNat (d.fresh + 1) % 65536, Config.freeNat (d.fresh + 2) % 65⟩

/-- PWR (R449 to R451). -/
def writePwr (pg o : Nat) (w : W32) (d : Dev) : Dev :=
  let key := pg * 0x1000 + o
  if key = rPWR_CMD then pwrCmd w d
  else if key = rPWR_CFG then autoService (storeReg pg o w d)
  else if key = rPWR_ROLLBACK_COMMIT then rollbackSet w d
  else if key = rPWR_RECOV_CTRL then recoverGo w (freeImage d) (spend (spend (spend d)))
  else if key = rPWR_DBG_CTRL then debugSubmit w (decide (Config.freeNat d.fresh % 2 = 1)) (spend d)
  else storeReg pg o w d

/-- TB_PTP_PORTp keeps its STATE; the roles are assigned again (R87, R100). -/
def ptpPortWrite (pg o : Nat) (w : W32) (d : Dev) : Dev :=
  let key := pg * 0x1000 + o
  setRoles (setRg key (setFld (BitVec.ofNat 64 (w.toNat &&& 0xFF07)) 31 24 (fld (rg key d) 31 24)) d)

/-- TB_PTP_CTRL (R87, R100): DOMAIN lies in the profile's range and TRANSPORT is one of the three; the roles are assigned again. -/
def ptpCtrlWrite (pg o : Nat) (w : W32) (d : Dev) : Dev :=
  let dom := fld w 15 8
  let ok := match fld w 1 0 with | 2 => within dom 24 43 | 3 => within dom 44 63 | _ => decide (dom ≤ 127)
  if ok && decide (fld w 3 2 ≠ 3) then setRoles (storeReg pg o w d) else reject 0 .range 0 (pg * 0x1000 + o) 4 d

/-- TB (R73, R78, R96, R98, R100, R101). -/
def writeTb (pg o : Nat) (v : W64) (d : Dev) : Dev :=
  let w : W32 := v.extractLsb' 0 32
  let n := w.toNat
  let key := pg * 0x1000 + o
  if key = rTB_INC then incWrite v d
  else if key = rTB_STEP then stepWrite v.toInt d
  else if key = rTB_STEP_ARM then rearmWrite w d
  else if key = rTB_EXT_NEXT then modTb (fun t => { t with extNext := w }) d
  else if key = rTB_SRC then srcWrite w d
  else if key = rTB_JUMP_LIMIT then inRange pg o (within n 100 1000000) w d
  else if key = rTB_LOCK_LIMIT then inRange pg o (within n 10 10000) w d
  else if key = rTB_SLEW_MAX then inRange pg o (within n 1000 500000) w d
  else if key = rTB_PTP_CTRL then ptpCtrlWrite pg o w d
  else if rTB_PTP_PORT ≤ key ∧ key < rTB_PTP_PORT + 16 then ptpPortWrite pg o w d
  else if key = rTB_PPS_OUT_CTRL then inRange pg o (within (fld w 27 8) 1 500000) w d
  else if key = rTB_PPS_IN_CTRL then inRange pg o (decide (fld w 6 4 ≤ 4)) w d
  else storeReg pg o w d

/-- WEIR_ADMIT_CEIL and WEIR_DEADLINE: on an active twin at a boundary named to both (R126, R135, R340). A deadline is BUSY where it makes the
ceiling fall to below what is admitted; one that raises it is taken. -/
def weirSet (o : Nat) (w : W32) (d : Dev) : Dev :=
  let addr := 0x20000 + o
  notStandby 0 addr 4 (fun x =>
    if (if o = 0x48 then decide (89600000 < w.toNat) else decide (100000 < w.toNat)) then reject 0 .range 0 addr 4 x
    else if o ≠ 0x48 ∧ ceilWith (rgN rWEIR_ADMIT_CEIL x) w.toNat x < min (admitted x) (effCeil x) then reject 0 .busy 0 addr 4 x
    else if paired x then
      let op : TwinOp := .weirReg o w (farBoundary x)
      forward op (modTwin (fun t => { t with atBoundary := t.atBoundary ++ [op] }) x)
    else setRgN addr w.toNat x) d

/-- WEIR_SHED_CFG of the partition selected (R130, R138, R340). -/
def shedCfgWrite (w : W32) (d : Dev) : Dev :=
  let p := rgN rWEIR_SHED_SEL d
  let c := w &&& 0xFF03
  notStandby 0 rWEIR_SHED_CFG 4 (fun x =>
    if paired x then
      let op : TwinOp := .shedCfg p c (farBoundary x)
      forward op (modTwin (fun t => { t with atBoundary := t.atBoundary ++ [op] }) x)
    else decideShed (modShed p (fun s => { s with cfg := c }) x)) d

/-- WEIR (R135, R138). -/
def writeWeir (pg o : Nat) (v : W64) (d : Dev) : Dev :=
  let w : W32 := v.extractLsb' 0 32
  let key := pg * 0x1000 + o
  if key = rWEIR_ADMIT_CEIL ∨ key = rWEIR_DEADLINE then weirSet o w d
  else if key = rWEIR_CORE_RETURN then returnCores v d
  else if key = rWEIR_SHED_CFG then shedCfgWrite w d
  else storeReg pg o w d

/-- BASIN, DRAM, CLS and JB (R139, R140, R151, R182, R184, R186). -/
def writePath (pg o : Nat) (v : W64) (d : Dev) : Dev :=
  let w : W32 := v.extractLsb' 0 32
  let key := pg * 0x1000 + o
  if key = rBASIN_SCRUB_CTRL then inRange pg o (within (fld w 15 0) 60 3600) w d
  else if key = rDRAM_SCRUB_CTRL then inRange pg o (within (fld w 15 0) 1 168) w d
  else if key = rCLS_SEED then seedWrite v d
  else if key = rCLS_BIND_CTRL then bindCtrl w d
  else if key = rCLS_BIND_PORTS then bindPorts w d
  else if rCLS_BIND_IP ≤ key ∧ key < rCLS_BIND_IP + 16 then bindIp ((key - rCLS_BIND_IP) / 4) w d
  else if key = rCLS_POL_PKT ∨ key = rCLS_POL_BYTE ∨ key = rCLS_POL_BURST then policerWrite key w d
  else if key = rJB_CTRL then jbCtrlWrite w d
  else storeReg pg o w d

/-- MAC_CFG (R304, R306, R307, R316). -/
def macCfgWrite (p : Nat) (w : W32) (d : Dev) : Dev :=
  let addr := kMac p 0 oMAC_CFG
  let old := rg addr d
  let most := fld w 13 0
  let on := bit (hdr (macPage p) d).ctrl 0
  let differs := decide (fld w 17 16 ≠ fld old 17 16) || decide (fld w 21 20 ≠ fld old 21 20)
  let fits := (List.range 8).all fun q => decide (most ≤ 1024 * fld (rg (kMac p 3 (oMAC_RXQ_LIMIT + 4 * q)) d) 6 0)
  if decide (1 < fld w 17 16) || !within most 1518 9216 || !fits then reject 0 .range 0 addr 4 d
  else if on && differs then reject 0 .busy 0 addr 4 d
  else storeReg (macPage p) oMAC_CFG w d

/-- A media port's pages (R303, R304, R307, R311, R313, R316, R318). -/
def writeMac (pg o : Nat) (v : W64) (d : Dev) : Dev :=
  let w : W32 := v.extractLsb' 0 32
  let key := pg * 0x1000 + o
  let p := (pg - 0x100) / 4
  if pg % 4 = 0 then
    if o = oMAC_CFG then macCfgWrite p w d
    else if o = oMAC_LANES then
      (if macPages.any fun m => bit (hdr m d).ctrl 0 then reject 0 .busy 0 key 4 d else storeReg pg o w d)
    else if o = oMAC_MC_ADDR then
      modPort p (fun q => { q with mc := tabSet (fun _ => 0) q.mc (rgN (kMac p 0 oMAC_MC_SEL) d) (v &&& 0x1FFFFFFFFFFFF) }) d
    else if o = oMAC_ADDR ∨ o = oMAC_OWN_ADDR then setRg key (v &&& 0xFFFFFFFFFFFF) d
    else storeReg pg o w d
  else if o < 0x60 then inRange pg o (within (fld w 6 0) (ceilDiv (fld (rg (kMac p 0 oMAC_CFG) d) 13 0) 1024) 64) w d
  else if o = oMAC_EEE_CFG then inRange pg o (decide (1000 ≤ fld w 31 16) && decide (1000 ≤ fld w 15 0)) w d
  else if o = oMAC_TXR_PROD then txRingProd p w d
  else if 0x100 ≤ o ∧ o < 0x120 then ringWrite 0 key (txRing p) (o - 0x100) v d
  else storeReg pg o w d

/-- MGMT (R311, R320 to R322). -/
def writeMgmt (o : Nat) (v : W64) (d : Dev) : Dev :=
  let w : W32 := v.extractLsb' 0 32
  let key := 0x110000 + o
  if key = rMGMT_CFG then
    let st := rg rMGMT_STATUS d
    mgmtLink (bit st 0) (fld st 2 1) (bit st 3) (storeReg 0x110 o w d)
  else if key = rMGMT_ADDR then setRg key (v &&& 0xFFFFFFFFFFFF) d
  else if key = rMGMT_MDIO then (if fld w 29 28 = 3 then reject 0 .range 0 key 4 d else mdioStart (fld w 29 28) w d)
  else if key = rMGMT_TXR_PROD then txRingProd 4 w d
  else if 0x140 ≤ o ∧ o < 0x160 then ringWrite 0 key (txRing 4) (o - 0x140) v d
  else if 0x100 ≤ o ∧ o < 0x140 then ringWrite 0 key mgmtRing (o - 0x100) v d
  else storeReg 0x110 o w d

/-- BMB_MOD_CTRL drives MOD_RST_N and MOD_LPM of each cage (R325). -/
def modCtrlWrite (w : W32) (d : Dev) : Dev :=
  let old := rg rBMB_MOD_CTRL d
  (List.range 4).foldl (fun x c =>
    let y := if bit w (4 + c) = bit old (4 + c) then x else out (.pin (.modRst c) (!bit w (4 + c))) x
    if bit w c = bit old c then y else out (.pin (.modLpm c) (bit w c)) y) (storeReg 0x1B0 0x104 w d)

/-- BMB (R323 to R325). The end of a recovery is the BUS_RECOVERY command. -/
def writeBmb (o : Nat) (w : W32) (d : Dev) : Dev :=
  let c := (o - 0x40) / 0x40
  if o = 0x104 then modCtrlWrite w d
  else if o % 0x40 = 0 then bmbCtrl c w d
  else if o % 0x40 = 4 then bmbStart c w d
  else storeReg 0x1B0 o w d

/-- TWIN (R340, R350, R351, R354, R356). -/
def writeTwin (pg o : Nat) (w : W32) (d : Dev) : Dev :=
  let key := pg * 0x1000 + o
  if key = rTWIN_CFG then
    let old : W32 := (rg key d).extractLsb' 0 32
    if (w ^^^ old) &&& 0xFF03 ≠ 0 ∧ d.twin.role ≠ .alone ∧ d.twin.role ≠ .detached then reject 0 .busy 0 key 4 d
    else twinEnable (bit w 0) (storeReg pg o w d)
  else if key = rTWIN_CMD then
    match fld w 1 0 with
    | 1 => switchCmd d
    | 2 => detachCmd d
    | 3 => attachCmd d
    | _ => reject 0 .range 0 key 4 d
  else if key = rTWIN_LOCK_LIMIT then inRange pg o (within w.toNat 10 1000) w d
  else storeReg pg o w d

/-- REC and FLASH (R367, R380 to R382). The bytes a transfer finds in host memory are a free value, by name. -/
def writeStore (pg o : Nat) (v : W64) (d : Dev) : Dev :=
  let w : W32 := v.extractLsb' 0 32
  let key := pg * 0x1000 + o
  if key = rREC_DRAIN then inRange pg o (within (fld w 19 0) 1000 1000000) w d
  else if key = rREC_SP_CMD then (if bit w 0 then discardSpool (rgN rREC_SP_SEL d) d else d)
  else if key = rFLASH_SCRUB_CTRL then inRange pg o (within (fld w 31 24) 8 64 && within (fld w 15 0) 7 365) w d
  else if key = rFLASH_WL_SPREAD then inRange pg o (within (fld w 15 0) 50 10000) w d
  else if key = rFLASH_RGN then inRange pg o (decide (256 ≤ fld w 15 0)) w d
  else if key = rFLASH_XF_OFFSET ∨ key = rFLASH_XF_HOST then setRg key v d
  else if key = rFLASH_XF_OP then xfOp w (Config.freeNat d.fresh) (spend d)
  else storeReg pg o w d

/-- LFE and SCE (R393, R397, R399, R405, R407 to R410). -/
def writeLine (pg o : Nat) (w : W32) (d : Dev) : Dev :=
  let key := pg * 0x1000 + o
  if key = rLFE_COM_CTRL then lfeCtrl w d
  else if 0x160 ≤ pg ∧ pg < 0x180 then
    (if o = oLFE_LN_BIND_CTRL then lineBind (pg - 0x160) w d else lineWrite (pg - 0x160) o w d)
  else if key = rSCE_CTRL then inRange pg o (within (fld w 8 0) 15 399) w d
  else if key = rSCE_CMD then
    (if within (fld w 1 0) 1 2 then sceCmd (fld w 1 0) d else reject 0 .range 0 key 4 d)
  else if key = rSCE_STALL_MAX then inRange pg o (decide (1 ≤ fld w 15 0)) w d
  else if key = rSCE_TXQ then sceTx w d
  else if key = rSCE_PM_ADDR then pmAddr w d
  else if key = rSCE_PM_DATA then pmWrite w d
  else storeReg pg o w d

/-- CLU and FAB (R413, R420, R423, R429, R430). -/
def writeFab (pg o : Nat) (w : W32) (d : Dev) : Dev :=
  let key := pg * 0x1000 + o
  if key = rCLU_CFG then
    (if bit w 31 ∧ fld w 3 0 = 0 ∧ !d.clu.manager then reject 0 .range 0 key 4 d else driveSync (storeReg pg o w d))
  else if key = rCLU_CABLE then inRange pg o (decide (fld w 15 0 ≤ 16000)) w d
  else if key = rFAB_CFG then takeAddr (storeReg pg o w d)
  else if key = rFAB_HOP_NS then inRange pg o (within (fld w 19 0) 2000 500000) w d
  else if key = rFAB_TRK_CTRL then trunkBindDo w d
  else storeReg pg o w d

/-- A PART page's own registers (R283 to R286, R300). -/
def writePart (p o : Nat) (w : W32) (d : Dev) : Dev :=
  if o = oPART_CTRL then partCtrl p w d
  else if oPART_EGR ≤ o ∧ o < oPART_U_CHANNELS then windowSet p ((o - oPART_EGR) / 4) w d
  else quotaSet p o w d

/-- Store a window's register. -/
def winStore (p k o : Nat) (v : W64) (d : Dev) : Dev :=
  match (rowsVf k).find? (·.has o) with
  | some r => setRgN (kWin p k o) (v.toNat &&& r.mask) d
  | none => d

/-- A write of CHW_SEL, CHW_AT, CHW_OP or CHW_DESC (R65, R66). -/
def writeChw (fn p o : Nat) (v : W64) (d : Dev) : Dev :=
  let w : W32 := v.extractLsb' 0 32
  let addr := winAddr fn p 1 o
  if (chwBusy p d).isSome then reject fn .busy 0 addr 4 d
  else if o = oCHW_SEL ∧ hPart w ≠ p then reject fn .foreign 0 addr 4 d
  else if o = oCHW_OP then
    (if within (fld w 2 0) 1 5 then chwStart fn p (fld w 2 0) (bit w 8) d else reject fn .range 0 addr 4 d)
  else winStore p 1 o v d

/-- A write of FLW_IDX, FLW_OP or FLW_ENTRY (R155). -/
def writeFlw (fn p o : Nat) (v : W64) (d : Dev) : Dev :=
  let op := fld v 2 0
  let addr := winAddr fn p 2 o
  if bit (rg (kFlw p oFLW_STATUS) d) 31 then reject fn .busy 0 addr 4 d
  else if o ≠ oFLW_OP then winStore p 2 o v d
  else if within op 1 4 then flwOp fn p op d else reject fn .range 0 addr 4 d

/-- A write of a KEY register (R162). -/
def writeKey (fn p o : Nat) (v : W64) (d : Dev) : Dev :=
  if o ≠ oKEY_OP then winStore p 3 o v d
  else if within (fld v 1 0) 1 2 then keyOp fn p (fld v 1 0) d
  else reject fn .range 0 (winAddr fn p 3 o) 4 d

/-- A write of a PRG register (R294). -/
def writePrg (fn p o : Nat) (v : W64) (d : Dev) : Dev :=
  let addr := winAddr fn p 4 o
  if prgBusy p d then reject fn .busy 0 addr (if o = oPRG_SRC then 8 else 4) d
  else if o ≠ oPRG_OP then winStore p 4 o v d
  else match fld v 1 0 with
    | 1 => prgLoadOp fn p d
    | 2 => prgUnloadOp fn p d
    | 3 => prgQueryOp fn p d
    | _ => reject fn .range 0 addr 4 d

/-- A write of a register of VF page `k` of partition `p`, through either window (R48, R300). -/
def writeWin (fn p k o : Nat) (v : W64) (d : Dev) : Dev :=
  match k with
  | 0 => eoi fn (v.extractLsb' 0 32) d
  | 1 => writeChw fn p o v d
  | 2 => writeFlw fn p o v d
  | 3 => writeKey fn p o v d
  | 4 => writePrg fn p o v d
  | 5 => ringWrite fn (winAddr fn p 5 o) (ringKey p ((o - 0x40) / 0x40)) (o % 0x40) v d
  | _ => d

/-- A write of a block register that may be written, by page (R47). -/
def writeReg' (fn pg o : Nat) (v : W64) (d : Dev) : Dev :=
  let w : W32 := v.extractLsb' 0 32
  match viewOf pg o with
  | some x => writeWin fn x.1 x.2.1 x.2.2 v d
  | none =>
    if pg = 0 then writeHif o v d
    else if pg = 1 then eoi 0 w d
    else if pg < 0x10 then writePwr pg o w d
    else if pg < 0x20 then writeTb pg o v d
    else if pg < 0x40 then writeWeir pg o v d
    else if pg < 0x84 then inRange pg o (within w.toNat 1 65535) w d
    else if pg < 0x100 then writePath pg o v d
    else if pg < 0x110 then writeMac pg o v d
    else if pg = 0x110 then writeMgmt o v d
    else if pg < 0x130 then writeTwin pg o w d
    else if pg < 0x150 then writeStore pg o v d
    else if pg < 0x190 then writeLine pg o w d
    else if pg < 0x1B0 then writeFab pg o w d
    else if pg < 0x200 then writeBmb o w d
    else writePart (pg - 0x200) o w d

/-- A performed write of a register of row `r` (R17, R46, R304): read-only registers discard it. -/
def perform (fn addr pg o : Nat) (r : RegRow) (size : Nat) (v : W64) (d : Dev) : Dev :=
  if laneless pg d then reject fn .busy 0 addr size d
  else if r.acc = .ro then d
  else if r.acc = .rwl ∧ (hdr pg d).locked then reject fn .locked 0 addr size d
  else writeReg' fn pg o v d

/-! ### Soft reset and PG_CTRL (R43, R45, R97, R135, R259) -/

/-- Registers that report what a unit is or does now, which a soft reset of their page does not change (log entry 24). -/
def keptKeys : List Nat :=
  [rHIF_LINK, rPWR_FAULT, rPWR_STATE_TIME, rPWR_WAKE_SRC, rPWR_BOOT_SLOT, rPWR_BOOT_VER, rPWR_ROLLBACK, rPWR_DBG_FAIL, rPWR_TJ_AVG,
   rPWR_AGE, rDRAM_CFG, rMGMT_STATUS, rBMB_STAT, rBMB_STAT + 0x40, rBMB_MOD_STATE, rTWIN_PAIR_ID, rLFE_COM_CAL, rFLASH_CFG, rFLASH_STATUS,
   rFLASH_LIFE, rFLASH_FLUSH_US, rFLASH_BAD, rFLASH_JRN, rFLASH_CAL, rFLASH_CAL_SEQ, rFLASH_SPOOL_MIB, rFLASH_XF_STATUS]
/-- Is a register of the page kept? -/
def keptAt (pg key : Nat) : Bool :=
  keptKeys.contains key
    || (decide (0x100 ≤ pg) && decide (pg < 0x110)
      && [(0, oMAC_STATUS), (0, oMAC_PAUSE_STATE), (3, oMAC_EEE)].contains (pg % 4, key % 0x1000))
    || (decide (0x200 ≤ pg) && decide (pg < 0x600) && decide (key % 0x1000 = oPART_STATE))

/-- The registers stored for a page: those of a VF page are its PART window's (R300). -/
def inPage (pg key : Nat) : Bool :=
  match viewOf pg 0x40 with
  | some w =>
    if w.2.1 = 0 then decide (key / 0x1000 = pg)
    else decide (key / 0x1000 = 0x200 + w.1) && decide (winOf (key % 0x1000) = some w.2.1)
  | none => decide (key / 0x1000 = pg)

/-- The rings whose registers lie in a page. -/
def pageRings (pg : Nat) : List Nat :=
  if pg = 0 then [0, 1, 2, 3]
  else if pg = 0x110 then [mgmtRing, txRing 4]
  else if 0x100 ≤ pg ∧ pg < 0x110 ∧ pg % 4 = 3 then [txRing ((pg - 0x100) / 4)]
  else if 0x200 < pg ∧ pg < 0x600 then [0, 1, 2].map (ringKey (pg - 0x200))
  else if 0x1000 ≤ pg ∧ pg % 16 = 5 then [0, 1, 2].map (ringKey ((pg - 0x1000) / 16))
  else []

/-- The bindings at reset, but for those that cover held flow entries, whose VALID cannot be cleared (R151, R182); the hash seed too where no
entry is held. -/
def resetBindings (d : Dev) : Dev :=
  let covers (b : Binding) : Bool :=
    b.valid && d.path.flows.any fun e => e.2.held && b.holds (bit (fw e.2 0) 0) (fLocal e.2) (fLocalPort e.2)
  { d with path := { d.path with binds := tabFilter (fun _ b => covers b) d.path.binds, seed := if flowsHeld d = 0 then 0 else d.path.seed } }

/-- What else a unit does at a soft reset of its page: registers behind a selector return to reset for every entry (log entry 24). -/
def unitReset (pg : Nat) (d : Dev) : Dev :=
  if pg = 0x10 then tbSoftReset d
  else if pg = 0x11 then setSource 1 d
  else if pg = 0x23 then modWeir (fun w => { w with shed := (w.shed.map fun e => (e.1, { e.2 with cfg := 0 })).filter fun e => decide (e.2 ≠ ⟨0, false, 0⟩) }) d
  else if pg = 0xB0 then resetBindings d
  else if pg = 0xB2 then { d with path := { d.path with pols := [] } }
  else if 0x40 ≤ pg ∧ pg < 0x80 then { d with tarns := tabSet (fun _ => Tarn.reset) d.tarns (pg - 0x40) Tarn.reset }
  else if 0x100 ≤ pg ∧ pg < 0x110 ∧ pg % 4 = 0 then modPort ((pg - 0x100) / 4) (fun q => { q with mc := [] }) d
  else if pg = 0x180 then modSce (fun e => { Sce.reset with pm := e.pm, ready := e.ready }) d
  else if pg = 0x190 then driveSync d
  else if pg = 0x1B0 then { d with mgmt := { d.mgmt with recovering := [] } }
  else if pg = 0x1A0 then takeAddr d
  else if 0x200 ≤ pg ∧ pg < 0x600 then
    let p := pg - 0x200
    if partState p d = 1 then setRg (kPart p oPART_CTRL) (rg (kPart p oPART_CTRL) d ||| 1) d else d
  else d

/-- The block registers of a page at their reset values (R43). A line's registers change as writes do (R397). -/
def resetBlock (pg : Nat) (d : Dev) : Dev :=
  let d1 : Dev :=
    if 0x160 ≤ pg ∧ pg < 0x180 then
      ((rowsPf pg).filter fun r => decide (r.acc ≠ .ro)).foldl (fun x r => (List.range r.count).foldl (fun y i =>
        linePut (pg - 0x160) (r.off + 4 * i) ((regReset (pg * 0x1000 + r.off + 4 * i)).extractLsb' 0 32) y) x) d
    else { d with regs := tabFilter (fun k _ => !(inPage pg k) || keptAt pg k) d.regs }
  unitReset pg ((pageRings pg).foldl (fun x k => clearRing k x) d1)

/-- PG_CTRL takes BLK, FREEZE and ENABLE (R43). -/
def takeCtrl (pg : Nat) (v : W32) (d : Dev) : Dev :=
  let was := bit (hdr pg d).ctrl 2
  let d1 := modHdr pg (fun h => { h with ctrl := v &&& 0xFF000005 }) d
  if bit v 2 = was then d1 else freezePage pg (bit v 2) d1

/-- Why a soft reset of a page is refused, if it is (R45, R97, R135, R259). -/
def softRefusal (pg : Nat) (d : Dev) : Option Reason :=
  if (hdr pg d).locked then some .locked
  else if (pg = 0x10 ∨ pg = 0x20) ∧ anyChannel d then some .busy
  else if 0x80 ≤ pg ∧ pg < 0x84 then some .busy
  else if 0x40 ≤ pg ∧ pg < 0x80 ∧ (tarn (pg - 0x40) d).st ≠ .faulted ∧ (tarn (pg - 0x40) d).st ≠ .offline then some .busy
  else none

/-- PG_CTRL.SOFT_RESET of a page. -/
def softReset (fn addr pg : Nat) (v : W32) (d : Dev) : Dev :=
  match softRefusal pg d with
  | some r => reject fn r 0 addr 4 d
  | none =>
    let d1 := if faulted pg d ∧ pg < 0x200 then faultClear pg d else d
    let d2 := modHdr pg (fun _ => Hdr.reset) (freezePage pg false (resetBlock pg d1))
    driveIrq d (takeCtrl pg v d2)

/-- A write of a header register (R43 to R45). -/
def headerWrite (fn addr pg o : Nat) (w : W32) (d : Dev) : Dev :=
  match o with
  | 0x08 => if bit w 1 then softReset fn addr pg w d else takeCtrl pg w d
  | 0x10 => causeClear pg w d
  | 0x14 => maskWrite pg w d
  | 0x18 => causeForce pg w d
  | 0x1C => if bit w 31 then firstClear pg d else d
  | 0x24 => foldClear pg w d
  | 0x28 => if bit w 0 then pageLock pg d else d
  | _ => if o < 0x2C then d else reject fn .reserved 0 addr 4 d

/-! ### The access rules (R46, R471) -/

/-- The write latch of a function (R471). -/
def setWLatch (fn : Nat) (x : Option (Nat × W32)) (d : Dev) : Dev :=
  { d with hif := { d.hif with wLatch := tabSet (fun _ => none) d.hif.wLatch fn x } }

/-- An aligned 8-byte write (R46). -/
def write64 (fn off pg : Nat) (v : W64) (d : Dev) : Dev :=
  let o := off % 0x1000
  let row := if o < 0x40 then none else findRow pg o
  match row with
  | some r => if r.width = 64 then perform fn off pg o r 8 v d else reject fn .width 0 off 8 d
  | none =>
    if o < 0x2C ∨ (0x3C ≤ o ∧ (findRow pg (o + 4)).isSome) then reject fn .width 0 off 8 d else reject fn .reserved 0 off 8 d

/-- An aligned 4-byte write: a 32-bit register, or a half of a 64-bit one through the function's write latch (R46, R471). -/
def write32 (fn off pg : Nat) (w : W32) (d : Dev) : Dev :=
  let o := off % 0x1000
  if o < 0x40 then headerWrite fn off pg o w d
  else match findRow pg o with
    | some r => if r.width = 64 then setWLatch fn (some (off, w)) d else perform fn off pg o r 4 (w.zeroExtend 64) d
    | none =>
      match findRow pg (o - 4) with
      | some r =>
        if r.width ≠ 64 then reject fn .reserved 0 off 4 d
        else match tabGet (fun _ => none) d.hif.wLatch fn with
          | some (k, low) =>
            if k = off - 4 then perform fn off pg (o - 4) r 4 (w ++ low) (setWLatch fn none d) else reject fn .width 0 off 4 d
          | none => reject fn .width 0 off 4 d
      | none => reject fn .reserved 0 off 4 d

/-- A write of BAR0 by a function (R40, R46). -/
def regWrite (fn off size : Nat) (v : W64) (d : Dev) : Dev :=
  let page := off / 0x1000
  let pg := pageOf fn page
  if barBytes fn ≤ off then d
  else if (size ≠ 4 ∧ size ≠ 8) ∨ off % size ≠ 0 then reject fn .width 0 off size d
  else if !hasPage fn page d then reject fn .reserved 0 off size d
  else if size = 8 then write64 fn off pg v d
  else write32 fn off pg (v.extractLsb' 0 32) d

end Sys2Proof.Machine
end

