-- ==== Sys2Proof/Machine/Flags.lean ====
section
/-! DEFINITION. The arithmetic of the Tarn as pure functions: ALU results and their flags, shifts, division, narrowing, rounding and
the products of the multipliers (rules R236 to R239, R273). Values are computed as integers and narrowed once. -/
namespace Sys2Proof.Machine

/-- The value of an ALU operation and its flags; `c` is absent where the operation leaves C alone (R238). -/
structure AluOut where
  val : Word
  c : Option Bool
  v : Bool
  dz : Bool
  deriving DecidableEq, Repr

/-- Largest value of a width. -/
def maxOf (w : Nat) : Int := 2 ^ (w - 1) - 1
/-- Most negative value of a width. -/
def minOf (w : Nat) : Int := -(2 ^ (w - 1))

/-- An exact result in a width: saturated under SAT, wrapped otherwise; the Bool says that it did not fit (R237, R238). -/
def fitTo (w : Nat) (sat : Bool) (x : Int) : Int × Bool :=
  if minOf w ≤ x ∧ x ≤ maxOf w then (x, false)
  else if sat then (clampInt (minOf w) (maxOf w) x, true) else (Int.bmod x (2 ^ w), true)

/-- A result of a width `w` with its carry and overflow. -/
structure Part where
  val : Int
  c : Bool
  v : Bool
  deriving DecidableEq, Repr

/-- The unsigned reading of a value of width `w`. -/
def unsignedOf (w : Nat) (x : Int) : Int := x % 2 ^ w

/-- The two-operand operations that carry or overflow, on values of width `w` (R238, R239). -/
def partOp (op : TOp) (w : Nat) (sat : Bool) (a b : Int) : Part :=
  let fitted (x : Int) (c : Bool) : Part := let r := fitTo w sat x; ⟨r.1, c, r.2⟩
  match op with
  | .add => fitted (a + b) (decide (2 ^ w ≤ unsignedOf w a + unsignedOf w b))
  | .sub => fitted (a - b) (decide (unsignedOf w a < unsignedOf w b))
  | .neg => fitted (-a) false
  | .abs => fitted |a| false
  | .min => ⟨min a b, false, false⟩
  | .max => ⟨max a b, false, false⟩
  | _ => ⟨a, false, false⟩

/-- A shift amount: bits [6:0] read as signed (R239). -/
def shiftAmount (v : Word) : Int := (v.extractLsb' 0 7).toInt

/-- A shift of a value of width `w` by `n`: left for n > 0, right for n < 0, arithmetic or logical (R239). C is the last bit
shifted out for amounts of 1 to w. -/
def shiftPart (w : Nat) (logical sat : Bool) (a : Int) (n : Int) : Part :=
  let u := (unsignedOf w a).toNat
  if 0 < n then
    let m := n.toNat
    let r := fitTo w sat (a * 2 ^ m)
    ⟨r.1, decide (m ≤ w) && Nat.testBit u (w - m), r.2⟩
  else if n < 0 then
    let m := (-n).toNat
    let x : Int := if logical then Int.bmod ((u >>> m : Nat) : Int) (2 ^ w) else a >>> m
    ⟨x, decide (m ≤ w) && Nat.testBit u (m - 1), false⟩
  else ⟨a, false, false⟩

/-- The halves of a word as signed 18-bit values: [35:18] and [17:0] (R10). -/
def hiHalf (v : Word) : Int := (v.extractLsb' 18 18).toInt
/-- The low half. -/
def loHalf (v : Word) : Int := (v.extractLsb' 0 18).toInt
/-- A word of two halves. -/
def pairOf (h l : Int) : Word := BitVec.ofInt 18 h ++ BitVec.ofInt 18 l

/-- Apply an operation to the word, or to both halves independently, C then from the high half (R238). -/
def bothHalves (paired : Bool) (f : Nat → Int → Int → Part) (a b : Word) : Word × Bool × Bool :=
  if paired then
    let h := f 18 (hiHalf a) (hiHalf b)
    let l := f 18 (loHalf a) (loHalf b)
    (pairOf h.val l.val, h.c, h.v || l.v)
  else
    let r := f 36 a.toInt b.toInt
    (BitVec.ofInt 36 r.val, r.c, r.v)

/-- Division (R239): truncated toward zero, the remainder with the dividend's sign; its edges as stated. The result is quotient,
remainder, V and DZ. -/
def divide (sat : Bool) (a b : Word) : Word × Word × Bool × Bool :=
  if b = 0 then (BitVec.ofInt 36 (if a.toInt < 0 then minOf 36 else maxOf 36), a, false, true)
  else
    let q := fitTo 36 sat (a.toInt.tdiv b.toInt)
    (BitVec.ofInt 36 q.1, BitVec.ofInt 36 (a.toInt.tmod b.toInt), q.2, false)

/-- The ALU operations on D registers (R273, R274): the value and the flags. -/
def alu (op : TOp) (paired sat : Bool) (a b : Word) : AluOut :=
  let plain (x : Word) : AluOut := ⟨x, none, false, false⟩
  let two (o : TOp) (carry : Bool) : AluOut :=
    let r := bothHalves paired (fun w x y => partOp o w sat x y) a b
    ⟨r.1, if carry then some r.2.1 else none, r.2.2, false⟩
  let shift (logical : Bool) : AluOut :=
    let r := bothHalves paired (fun w x _ => shiftPart w logical sat x (shiftAmount b)) a b
    ⟨r.1, some r.2.1, r.2.2, false⟩
  match op with
  | .add => two .add true
  | .addi => two .add true
  | .sub => two .sub true
  | .subi => two .sub true
  | .cmp => two .sub true
  | .cmpi => two .sub true
  | .neg => two .neg false
  | .abs => two .abs false
  | .min => two .min false
  | .max => two .max false
  | .ash => shift false
  | .ashi => shift false
  | .lsh => shift true
  | .lshi => shift true
  | .and_ => plain (a &&& b)
  | .andi => plain (a &&& b)
  | .or_ => plain (a ||| b)
  | .ori => plain (a ||| b)
  | .xor => plain (a ^^^ b)
  | .xori => plain (a ^^^ b)
  | .not_ => plain (~~~a)
  | _ => plain a

/-! ### Accumulators (R236, R237) -/

/-- A 48-bit accumulator component, as the registers hold it, read as signed. -/
def accInt (v : W64) : Int := (v.extractLsb' 0 48).toInt
/-- A component's register contents. -/
def accVal (x : Int) : W64 := (BitVec.ofInt 48 x).zeroExtend 64
/-- Does an exact sum leave the 48 bits (R236)? -/
def accWraps (x : Int) : Bool := decide (x < minOf 48 ∨ maxOf 48 < x)

/-- A component rounded at bit 18: convergent under RND, otherwise the bits are discarded (R237 step 1). -/
def roundAt18 (rnd : Bool) (v : Int) : Int :=
  let q := v / 262144
  let r := v % 262144
  if rnd ∧ (131072 < r ∨ (r = 131072 ∧ q % 2 = 1)) then q + 1 else q

/-- A component narrowed to a word (R237): the value and V. -/
def narrowWord (sat : Bool) (v : Int) : Word × Bool := let r := fitTo 36 sat v; (BitVec.ofInt 36 r.1, r.2)
/-- A component narrowed to an 18-bit half (R237). -/
def narrowHalf (rnd sat : Bool) (v : Int) : Int × Bool := fitTo 18 sat (roundAt18 rnd v)
/-- Both components narrowed to a pair (R237). -/
def narrowPair (rnd sat : Bool) (re im : Int) : Word × Bool :=
  let h := narrowHalf rnd sat re
  let l := narrowHalf rnd sat im
  (pairOf h.1 l.1, h.2 || l.2)

/-- The sums of products of a MAC for .RE and .IM (R236). -/
def products (op : TOp) (f : Bool) (x y : Word) : Int × Int :=
  let s : Int := if f then 2 else 1
  let xr := hiHalf x
  let xi := loHalf x
  let yr := hiHalf y
  let yi := loHalf y
  match op with
  | .cmac => (s * (xr * yr - xi * yi), s * (xr * yi + xi * yr))
  | .cmacj => (s * (xr * yr + xi * yi), s * (xi * yr - xr * yi))
  | .dmac => (s * (xr * yr), s * (xi * yi))
  | _ => (0, 0)

/-- A MAC into components `re` and `im` (R236, R276): the exact sums, wrapped to 48 bits; the Bool is V. -/
def macSum (op : TOp) (sub f clr : Bool) (x y : Word) (re im : Int) : W64 × W64 × Bool :=
  let p := products op f x y
  let z (v : Int) : Int := if clr then 0 else v
  let r := if sub then z re - p.1 else z re + p.1
  let i := if sub then z im - p.2 else z im + p.2
  (accVal r, accVal i, accWraps r || accWraps i)

/-- MPYL (R236): the exact product, its upper bits in .RE and its low 36 bits in .IM. -/
def mpylSum (f : Bool) (x y : Word) : W64 × W64 :=
  let p := x.toInt * y.toInt * (if f then 2 else 1)
  (accVal (p / 2 ^ 36), ((BitVec.ofInt 36 p).zeroExtend 64))

end Sys2Proof.Machine
end

