-- ==== Sys2Proof/Machine/Operands.lean ====
section
/-! DEFINITION. The operands of Tarn instructions: registers by number with the exposed pipeline, addressing modes, and the spaces of
local memory with the store buffer and the user-mode window (rules R225 to R229, R232, R234, R235, R246, R247, R253, R265). -/
namespace Sys2Proof.Machine

/-! ### The exposed pipeline (R228, R229)

A write that some consumers must not see yet leaves a note of what they see instead. A place is a register number for a load into
Dn; 0x40 to 0x47 an accumulator component as stores, moves, rounds and shifts read it; 0x80 + n a register as address generation or
the loop-end test reads it; 0x100 N, Z, C and DZ and 0x101 V as branches read them; 0x102 SAT and RND as instructions that round or
saturate read them. -/

/-- What a consumer of a place sees, `cur` being the newest value: what the oldest hidden write replaced. -/
def seen (place : Nat) (cur : W64) (t : Tarn) : W64 :=
  match (t.past.filter fun e => decide (e.place = place)).getLast? with | some e => e.old | none => cur
/-- Note a write hidden from a consumer until `need` instructions lie between. -/
def hide (place : Nat) (old : W64) (need : Nat) (t : Tarn) : Tarn := { t with past := ⟨place, old, need, 0⟩ :: t.past }
/-- A write every consumer sees at once. -/
def reveal (place : Nat) (t : Tarn) : Tarn := { t with past := t.past.filter fun e => decide (e.place ≠ place) }
/-- One more instruction issues: writes come into view, and so do words of program memory (R229, R275). -/
def ageAll (t : Tarn) : Tarn :=
  { t with
    past := (t.past.map fun e => { e with age := e.age + 1 }).filter fun e => decide (e.age ≤ e.need)
    pmPast := (t.pmPast.map fun e => (e.1, e.2.1, e.2.2 + 1)).filter fun e => decide (e.2.2 ≤ 3) }

/-- Change the value a consumer sees of place `p` of register `n`: the newest value, or what a hidden write replaced. A hidden write
that comes into view with the next instruction is overtaken: of two writes that land together the later instruction's stays. -/
def setSeen (p n : Nat) (v : W64) (t : Tarn) : Tarn :=
  let l := (t.past.filter fun e => !(decide (e.place = p) && decide (e.need ≤ e.age))).reverse
  match l.findIdx? fun e => decide (e.place = p) with
  | some i => { t with past := (l.modify i fun e => { e with old := v }).reverse }
  | none => setTr n v { t with past := l.reverse }

/-! ### Registers (R227, R265) -/

/-- Width of a register by number (R227). -/
def regWidth (n : Nat) : Nat :=
  if n < 0x10 then 36 else if n < 0x30 then 16 else if n = 0x30 then 36 else if n = 0x31 then 16
  else if n = 0x32 ∨ n = 0x33 ∨ n = 0x38 ∨ n = 0x3C then 14 else if n = 0x35 then 7 else if n = 0x3D then 2 else 16

/-- ST. -/
def stOf (t : Tarn) : W64 := tr 0x30 t
/-- Is the core in user mode? -/
def userMode (t : Tarn) : Bool := bit (stOf t) 15
/-- SAT as an instruction that saturates sees it. -/
def satOf (t : Tarn) : Bool := bit (seen 0x102 (stOf t) t) 7
/-- RND as an instruction that rounds sees it. -/
def rndOf (t : Tarn) : Bool := bit (seen 0x102 (stOf t) t) 8

/-- A register as an instruction of core `c` reads it: zero-extended, Mn sign-extended (R265). -/
def readReg (c n : Nat) (t : Tarn) : Word :=
  if n = 0x35 then BitVec.ofNat 36 c
  else if n < 0x10 then (seen n (tr n t) t).extractLsb' 0 36
  else if 0x28 ≤ n ∧ n < 0x30 then ((tr n t).extractLsb' 0 16).signExtend 36
  else (tr n t).extractLsb' 0 36

/-- Bits of ST that a write changes: all but U, and in user mode all but IE (R227, R253). -/
def stMask (t : Tarn) : W64 := if userMode t then 0x19F else 0x419F

/-- Write ST whole, within its writable bits; branches and roundings see it at their distances. -/
def writeSt (v : W64) (t : Tarn) : Tarn :=
  let old := stOf t
  let m := stMask t
  hide 0x102 old 1 (hide 0x101 old 2 (hide 0x100 old 2 (setTr 0x30 ((old &&& ~~~m) ||| (v &&& m)) t)))

/-- Write a register: the low bits are kept; WLO and WHI keep [15:14] at 1; a load into Dn, a write of an address register and of
the loop registers are seen at their distances (R229, R265). -/
def writeReg (n : Nat) (v : Word) (load : Bool) (t : Tarn) : Tarn :=
  let w := regWidth n
  let x : W64 := BitVec.ofNat 64 (v.toNat % 2 ^ w)
  let old := tr n t
  if n = 0x30 then writeSt (v.zeroExtend 64) t
  else if n < 0x10 then (if load then hide n old 1 (setTr n x t) else reveal n (setTr n x t))
  else if n < 0x30 then hide (0x80 + n) old 2 (setTr n x t)
  else if n = 0x31 ∨ n = 0x32 ∨ n = 0x33 then hide (0x80 + n) old 4 (setTr n x t)
  else if n = 0x3A ∨ n = 0x3B then setTr n (x ||| 0xC000) t
  else setTr n x t

/-- Set the flags an ALU operation names: N, Z and C replaced, V and DZ sticky (R227, R238). -/
def setFlags (nz : Option Word) (c : Option Bool) (v dz : Bool) (t : Tarn) : Tarn :=
  let old := stOf t
  let s1 := match nz with | some x => setFld (setFld old 2 2 (b2n (bit x 35))) 1 1 (b2n (decide (x = 0))) | none => old
  let s2 := match c with | some b => setFld s1 0 0 (b2n b) | none => s1
  let s3 := if v then setFld s2 3 3 1 else s2
  let s4 := if dz then setFld s3 4 4 1 else s3
  hide 0x101 old 2 (hide 0x100 old 2 (setTr 0x30 s4 t))

/-- V after an accumulation, which a branch sees at distance 3 (R229, R236). -/
def setAccV (v : Bool) (t : Tarn) : Tarn :=
  if v then hide 0x101 (stOf t) 3 (setTr 0x30 (setFld (stOf t) 3 3 1) t) else t

/-- A component of ACn as a MAC that accumulates reads it: 0 .RE, 1 .IM. -/
def accNow (n part : Nat) (t : Tarn) : W64 := tr (0x40 + 2 * n + part) t
/-- A component of ACn as a store, move, round or shift reads it. -/
def accSeen (n part : Nat) (t : Tarn) : W64 := seen (0x40 + 2 * n + part) (accNow n part t) t
/-- A MAC-class write of a component (R229, R272). -/
def setAcc1 (n part : Nat) (v : W64) (t : Tarn) : Tarn :=
  let k := 0x40 + 2 * n + part
  hide k (tr k t) 1 (setTr k v t)
/-- A MAC-class write of ACn. -/
def setAcc (n : Nat) (re im : W64) (t : Tarn) : Tarn := setAcc1 n 1 im (setAcc1 n 0 re t)

/-! ### Addressing (R234, R235, R269, R270) -/

/-- An address register, base, length or modifier as address generation sees it. -/
def agReg (n : Nat) (t : Tarn) : BitVec 16 := (seen (0x80 + n) (tr n t) t).extractLsb' 0 16

/-- An updated by δ: linear, or circular in its buffer; the result is taken to 16 bits (R235). -/
def updated (a b len : BitVec 16) (δ : Int) : BitVec 16 :=
  if len = 0 then BitVec.ofInt 16 (a.toNat + δ)
  else BitVec.ofInt 16 (b.toNat + (a.toNat + δ - b.toNat) % (len.toNat : Int))

/-- Post-modify A register `i`: its new value is seen by the next address generation (R229). -/
def postMod (i : Nat) (δ : Int) (t : Tarn) : Tarn :=
  let a := updated (agReg (0x10 + i) t) (agReg (0x18 + i) t) (agReg (0x20 + i) t) δ
  setSeen (0x90 + i) (0x10 + i) (a.zeroExtend 64) t

/-- Mn as a signed modifier. -/
def modifier (i : Nat) (t : Tarn) : Int := (agReg (0x28 + i) t).toInt

/-- Effective address of a format L mode and the register update it makes; double words step by 2 (R269, R275). -/
def modeEA (i : TI) (step : Int) (t : Tarn) : BitVec 16 × Tarn :=
  let a := agReg (0x10 + i.an) t
  match i.mode with
  | 0 => (a, t)
  | 1 => (a, postMod i.an step t)
  | 2 => (a, postMod i.an (-step) t)
  | 3 => (a, postMod i.an (modifier i.an t) t)
  | 6 => (i.d, t)
  | _ => (a + i.d, t)

/-- An operand address of format M: A register `i` with post-modification code 0 none, 1 +1, 2 −1, 3 +Mn (R270). -/
def macEA (i code : Nat) (t : Tarn) : BitVec 16 × Tarn :=
  let a := agReg (0x10 + i) t
  match code with
  | 0 => (a, t)
  | 1 => (a, postMod i 1 t)
  | 2 => (a, postMod i (-1) t)
  | _ => (a, postMod i (modifier i t) t)

/-! ### Local memory (R225, R246, R247, R253) -/

/-- What an instruction asks of the memories: its DM loads, each a list of the half-words it reads, its stores, and whether it reads
an operand over the program bus. -/
structure Use where
  loads : List (List Nat)
  stores : List PendStore
  prog : Bool
  deriving DecidableEq, Repr

/-- Nothing asked. -/
def Use.none : Use := ⟨[], [], false⟩

/-- Half-words of one DM word: 2 × address for [35:18], one more for [17:0]; halves 1 low, 2 high, 3 both. -/
def halfWords (addr halves : Nat) : List Nat :=
  (if 2 ≤ halves then [2 * addr] else []) ++ (if halves % 2 = 1 then [2 * addr + 1] else [])
/-- Half-words a store covers. -/
def coverOf (e : PendStore) : List Nat :=
  halfWords e.addr e.halves ++ (match e.two with | some _ => halfWords ((e.addr + 1) % 65536) 3 | none => [])

/-- The DM address of an effective address: in user mode WLO + EA, none outside the window (R253). -/
def dmAddr (ea : BitVec 16) (t : Tarn) : Option Nat :=
  if userMode t then
    (if ea.toNat ≤ (tr 0x3B t).toNat - (tr 0x3A t).toNat then some (((tr 0x3A t).toNat + ea.toNat) % 65536) else none)
  else some ea.toNat

/-- A DM word as a load reads it: pending stores are never missed (R247). `more` are stores of the same instruction. -/
def dmWord (a : Nat) (more : List PendStore) (t : Tarn) : Word := tabGet (fun _ => 0) (drained (t.sb ++ more) t.dm) a

/-- A word of CS: its address has 12 bits (R225). -/
def csWord (ea : BitVec 16) (t : Tarn) : Word := tabGet (fun _ => 0) t.cs (ea.toNat % 4096)
/-- A word of PM as data: its address has 14 bits. -/
def pmWord (a : Nat) (t : Tarn) : Word := tabGet (fun _ => 0) t.pm (a % 16384)
/-- A word of PM as it is fetched: a recent write is not seen yet (R275). -/
def pmFetch (a : Nat) (t : Tarn) : Word :=
  match (t.pmPast.filter fun e => decide (e.1 = a % 16384)).getLast? with | some e => e.2.1 | none => pmWord a t

/-- Is a PM address in the tenant slot? -/
def inTenantSlot (a : Nat) : Bool := decide (0x3800 ≤ a) && decide (a < 0x4000)

/-- Read a word of a space (0 DM, 1 CS, 2 PM), with what that asks of the memories; `none` is a window violation. -/
def readSpace (sp : Nat) (ea : BitVec 16) (halves : Nat) (more : List PendStore) (t : Tarn) : Option (Word × Use) :=
  match sp with
  | 0 => (dmAddr ea t).map fun a => (dmWord a more t, ⟨[halfWords a halves], [], false⟩)
  | 1 => some (csWord ea t, Use.none)
  | _ =>
    let a := ea.toNat % 16384
    if userMode t && !inTenantSlot a then none else some (pmWord a t, ⟨[], [], true⟩)

/-- Join two uses. -/
def Use.and (a b : Use) : Use := ⟨a.loads ++ b.loads, a.stores ++ b.stores, a.prog || b.prog⟩

end Sys2Proof.Machine
end

