-- ==== Sys2Proof/Machine/TarnCore.lean ====
section
/-! DEFINITION. How a Tarn runs one instruction: fetch, legality, cycles and the store buffer, loops, repeats and delay slots, entry to
and exit from user mode, interrupts (rules R225, R228 to R233, R240 to R254, R258, R263, R264, R272, R279). Each instruction command
names a core; it acts when the core's next instruction is that instruction (log entry 20). -/
namespace Sys2Proof.Machine

/-! ### User mode and faults (R251 to R255) -/

/-- Is the core a control core? -/
def isControlCore (c : Nat) : Bool := decide (64 ≤ c)
/-- Does the core execute instructions: in service, or running control firmware (R258)? -/
def executes (c : Nat) (d : Dev) : Bool :=
  let s := (tarn c d).st
  decide (c < 68) && (if isControlCore c then decide (s = .running) else decide (s = .idle ∨ s = .running))

/-- The registers CALLU and every exit clear (R252, R254): D, AC, A, B, L, M, LC, LSA, LEA; the hidden writes go with them. -/
def clearUser (t : Tarn) : Tarn :=
  { t with
    r := tabFilter (fun n _ => decide (0x30 = n) || (decide (0x34 ≤ n) && decide (n < 0x40))) t.r
    past := [], sb := [], dm := drained t.sb t.dm, cache := none, fill := false }

/-- The signal of a leg in the window: `n` samples, two to a word (R10, R218). -/
def windowSignal (addr n : Nat) (dm : Tab Word) : List (BitVec 18) :=
  (List.range n).map fun i =>
    let w := tabGet (fun _ => (0 : Word)) dm (addr + i / 2)
    if i % 2 = 0 then w.extractLsb' 18 18 else w.extractLsb' 0 18
/-- The words of a signal in the window. -/
def signalWords (x : List (BitVec 18)) : List Word :=
  (List.range (ceilDiv x.length 2)).map fun i =>
    setFld (BitVec.ofNat 36 ((x.getD (2 * i + 1) 0).toNat)) 35 18 (x.getD (2 * i) 0).toNat

/-- What a tenant program that ends by RETU leaves in the window (R218): the signals of both legs and the tenant data. -/
def windowLeft (j : Job) (dm : Tab Word) : TenEnd :=
  let n := samplesPerPass j.snap.desc
  .ran (windowSignal 0xFF00 n dm) (windowSignal 0xFF20 n dm)
    ((List.range (1024 * dataGran j.snap.desc)).map fun i => tabGet (fun _ => 0) dm (0xC000 + i))

/-- An exit from user mode (R254): 0 RETU, 1 budget, 2 illegal instruction, 3 window violation. A job whose tenant stage ends by
any other than RETU goes on as R219 states. -/
def userExit (c cause : Nat) (d : Dev) : Dev :=
  let d1 := modTarn c (fun t =>
    let x := setTr 0x3D (BitVec.ofNat 64 cause) (setTr 0x30 (setFld (stOf t) 15 15 0) (clearUser t))
    { x with pc := (tr 0x3C t).extractLsb' 0 14, slots := none, rpt := none }) d
  if cause = 0 then (match headJob c d1 with | some j => stageEnds c (windowLeft j (tarn c d1).dm) d1 | none => d1)
  else stageEnds c (.stopped cause) (incRg (kTarn c oTARN_UEXC) d1)

/-- An illegal instruction (R251, R254): an exit in user mode, a core fault otherwise. -/
def illegalAt (c : Nat) (d : Dev) : Dev := if userMode (tarn c d) then userExit c 2 d else coreFaults c 4 false d

/-- Words placed in a memory from an address on. -/
def placeWords (addr : Nat) (ws : List Word) (m : Tab Word) : Tab Word :=
  ((List.range ws.length).zip ws).foldl (fun m e => tabSet (fun _ => 0) m (addr + e.1) e.2) m

/-- The job window and the tenant slot before a tenant stage (R218, R255): the window is zeroised; the image, the tenant data and the words
of the pass of the job that calls its program are loaded. The number is the cycles this takes. -/
def tenantLoad (c : Nat) (d : Dev) : Nat × Tarn :=
  let t := tarn c d
  let z := { t with dm := tabFilter (fun a _ => decide (a < 0xC000)) t.dm, cache := none, fill := false }
  match headJob c d with
  | none => (1024, z)
  | some j =>
    if j.bus ∨ !tenantRuns j then (1024, z)
    else
      let s := slot (hSlot j.handle) d
      let img := jobImage j d
      let o := j.out.getD (jobOutputs j d)
      let words := (tenantWords (hSlot j.handle) d).take (15 * 1024)
      let pass : List Word := [j.pass.zeroExtend 36, BitVec.ofNat 36 (windowFlags j.markA j.markB j.snap.rebased (!j.snap.initDone)),
        BitVec.ofNat 36 (samplesPerPass j.snap.desc)]
      (1024 + 80 * (ceilDiv img.length 1024 + s.tgranules.length), { z with
        pm := placeWords 0x3800 (img.take 2048) z.pm
        dm := placeWords 0xFF40 pass (placeWords 0xFF20 (signalWords o.postB) (placeWords 0xFF00 (signalWords o.postA)
          (placeWords 0xC000 words z.dm))) })

/-- Count cycles against WDOG, of a core with a job and ST.U = 0; at 0 the watchdog faults the core (R251). -/
def chargeWdog (c n : Nat) (d : Dev) : Dev :=
  if isControlCore c || (headJob c d).isNone || userMode (tarn c d) then d
  else
    let left := (tr 0x34 (tarn c d)).toNat
    let d1 := modTarn c (setTr 0x34 (BitVec.ofNat 64 (left - n))) d
    if left ≤ n then coreFaults c 3 false d1 else d1

/-- What precedes a CALLU (R255): pending stores retire, the window is zeroised and loaded while the core stalls. -/
def prepareWindow (c : Nat) (d : Dev) : Dev :=
  let d0 := modTarn c (fun t => { t with dm := drained t.sb t.dm, sb := [] }) d
  let l := tenantLoad c d0
  chargeWdog c l.1 (modTarn c (fun _ => { l.2 with cyc := l.2.cyc + l.1 }) d0)

/-- CALLU after its delay slots (R252). -/
def enterUser (c : Nat) (ret : BitVec 14) (d : Dev) : Dev :=
  modTarn c (fun t =>
    let t0 := clearUser t
    { setTr 0x3F (tr 0x3E t0) (setTr 0x30 0x8180 (setTr 0x3C (ret.zeroExtend 64) t0)) with pc := 0x3800, slots := none }) d

/-! ### Fetch and legality (R230, R233, R240, R253, R263, R264, R279) -/

/-- Does the streamer hold the core's second half-cycle (R121, R232)? -/
def threeBus (c : Nat) (d : Dev) : Bool := (jobs c d).any fun j => decide (j.st = .staging ∨ j.st = .streamOut)

/-- A loop register as the loop-end test sees it (R229). -/
def loopReg (n : Nat) (t : Tarn) : Nat := (seen (0x80 + n) (tr n t) t).toNat
/-- Is a PC among the last three words of the block loop in progress (R230)? -/
def nearLoopEnd (pc : Nat) (t : Tarn) : Bool :=
  decide (loopReg 0x31 t ≠ 0) && decide (loopReg 0x32 t ≤ pc) && decide (pc ≤ loopReg 0x33 t) && decide (loopReg 0x33 t ≤ pc + 2)

/-- May the instruction not execute here: refused in user mode, on this kind of core, in a delay slot, at a loop's end or under RPT? -/
def badHere (c : Nat) (i : TI) (t : Tarn) : Bool :=
  let u := userMode t
  let media := !isControlCore c
  let pc := t.pc.toNat
  (u && (userRefused i || !inTenantSlot pc || (i.ext && !inTenantSlot (pc + 1))))
  || (match i.op with
      | .fld => media | .fst => media | .dma => media
      | .callu => !media | .done => !media | .strm => !media
      | .retu => !u
      | .wait => !bit (stOf t) 14
      | .mbox => decide (media ∧ i.tgt ≠ 0) || decide (!media ∧ i.tgt = c)
      | .loop => badBody pc i.tgt
      | .loopr => badBody pc i.tgt
      | _ => false)
  || (isControl i.op && (t.slots.isSome || nearLoopEnd pc t))
  || (t.rpt.isSome && !repeatable i)

/-- The instruction a core executes next. -/
inductive Fetched where
  | idle
  | illegal
  | ok (i : TI)
  deriving DecidableEq, Repr

/-- Fetch for a command that names operation `op` (R263): `idle` when the core does not execute or its next instruction is another. -/
def fetchTarn (c : Nat) (op : TOp) (d : Dev) : Fetched :=
  let t := ageAll (tarn c d)
  let pc := t.pc.toNat
  if !executes c d || t.waiting then .idle
  else match decodeTarn (pmFetch pc t) (pmFetch (pc + 1) t) with
    | none => .illegal
    | some i => if badHere c i t then .illegal else if i.op = op then .ok i else .idle

/-! ### Cycles and the store buffer (R231, R232, R246 to R248, R272) -/

/-- Is an instruction at `pc` fetched from the repeat cache (R233, R240)? -/
def cached (t : Tarn) : Bool :=
  t.rpt.isSome || (match t.cache with | some r => decide (r.1 ≤ t.pc.toNat) && decide (t.pc.toNat ≤ r.2) | none => false)

/-- The youngest store of a buffer (oldest first) that overlaps a load, by position. -/
def youngest (l : List Nat) (sb : List PendStore) : Option Nat :=
  ((List.range sb.length).filter fun i => match sb[i]? with | some e => (coverOf e).any l.contains | none => false).getLast?

/-- The load waits for overlapping stores unless the youngest covers it (R247, R248): the cycles and the buffer left, entries retiring in the
slots of the wait (R232). The cost is the slots needed to retire the overlapping ones plus 2, which gives the 3 and the 6 of R248 at its two
ends. -/
def loadWait (slotsPerCycle : Nat) (l : List Nat) (sb : List PendStore) : Nat × List PendStore :=
  match youngest l sb with
  | none => (0, sb)
  | some i =>
    match sb[i]? with
    | some e =>
      let n := ceilDiv (i + 1) slotsPerCycle + 2
      if l.all (coverOf e).contains then (0, sb) else (n, sb.drop (slotsPerCycle * n))
    | none => (0, sb)

/-- Stores reach the buffer: issue stalls until fewer than four entries are held (R246). The cycles, and the entries held before that are left. -/
def pushStores (slotsPerCycle new : Nat) (sb : List PendStore) : Nat × List PendStore :=
  let n := ceilDiv (sb.length + new - 4) slotsPerCycle
  (n, sb.drop (slotsPerCycle * n))

/-- Cycles of an instruction: all, three-bus stalls, store-buffer stalls and waits, and the buffer after it. -/
structure Cost where
  all : Nat
  bus : Nat
  wait : Nat
  sb : List PendStore
  deriving DecidableEq, Repr

/-- The loads that look in the store buffer: an MV2 load that MV1's store covers takes its word from that store (R276 step 4). -/
def waiters (i : TI) (u : Use) : List (List Nat) :=
  if decide (mvKind i.mv2 = 1) && (u.loads.getLast?.any fun l => l.all (u.stores.flatMap coverOf).contains) then u.loads.dropLast
  else u.loads

/-- The cost of an instruction that asks `u` of the memories (R225, R232, R246, R248, R272); `parity` is a parity error of the repeat cache. -/
def costOf (i : TI) (three parity : Bool) (u : Use) (t : Tarn) : Cost :=
  let sp := if three then 1 else 2
  let reads := (u.loads.map fun l => ceilDiv l.length 2).foldl (· + ·) 0
  let base := 1 + b2n i.ext + (match i.op with | .mpyl => 1 | .div => 19 | .callu => 3 | _ => 0) + 2 * b2n parity
  let taken := three && decide (0 < reads) && decide (4 ≤ t.sb.length)
  let bus := b2n (three && decide (2 ≤ reads) || taken)
  let cycles := base + bus + b2n (u.prog && !cached t)
  let w := (waiters i u).foldl (fun x l => let y := loadWait sp l x.2; (x.1 + y.1, y.2)) (0, if taken then t.sb.drop 1 else t.sb)
  let p := pushStores sp u.stores.length w.2
  let wait := min 6 (w.1 + p.1)
  ⟨cycles + wait, bus, wait, p.2.drop (sp * cycles - reads - b2n taken) ++ u.stores⟩

/-- Does the instruction about to complete meet a parity error in the repeat cache: it is fetched from the cache, and the RPT in progress has
met none (R225, R244)? -/
def cacheError (c : Nat) (t : Tarn) : Bool :=
  cached t && Config.cacheParity c t.fetches && !(t.rpt.isSome && t.refetched)

/-! ### Completion of an instruction (R228, R230, R240, R241, R254) -/

/-- The outcome of an instruction's operation: an exit from user mode or fault (`stop`: 2 illegal, 3 window violation), or the core
after it, what it asked of the memories, and the address it goes on at where that is not the next. -/
inductive Eff where
  | stop (cause : Nat)
  | go (t : Tarn) (u : Use) (skip : Option Nat)
  deriving DecidableEq, Repr

/-- The loop-end test (R241) on the words [pc, next) just fetched, `was` being the core before the instruction: where fetch goes on. An
iteration that no interrupt has cut leaves its body in the repeat cache (R233). -/
def loopEnd (pc next : Nat) (was t : Tarn) : Nat × Tarn :=
  let lc := loopReg 0x31 was
  let lsa := loopReg 0x32 was
  let lea := loopReg 0x33 was
  if lc = 0 ∨ lea < pc ∨ next ≤ lea then (next, t)
  else if lc = 1 then (next, setSeen 0xB1 0x31 0 t)
  else (lsa, setSeen 0xB1 0x31 (BitVec.ofNat 64 (lc - 1)) { t with
    cache := if t.fill ∧ lea + 1 - lsa ≤ 16 then some (lsa, lea) else t.cache, fill := true })

/-- What stands behind the second delay slot, when this was it. -/
def slotEnd (was : Tarn) : Option Slots := match was.slots with | some s => if s.left = 1 then some s else none | none => none

/-- The program counter after an instruction: repeats, loop end, delay slots (R230, R240, R241). -/
def advance (i : TI) (was t : Tarn) (skip : Option Nat) : Tarn :=
  let pc := was.pc.toNat
  match was.rpt with
  | some (n + 2) => { t with rpt := some (n + 1) }
  | _ =>
    let t1 := if was.rpt.isSome then { t with rpt := none } else t
    let next := pc + 1 + b2n i.ext
    let l := loopEnd pc next was t1
    let at_ := skip.getD l.1
    let t2 := match was.slots with
      | some s => { l.2 with slots := if s.left ≤ 1 then none else some { s with left := s.left - 1 } }
      | none => l.2
    let dest := match slotEnd was with | some s => if s.kind = 0 then s.target.toNat else at_ | none => at_
    { t2 with pc := BitVec.ofNat 14 dest }

/-- What RETI, CALLU and RETU do after their delay slots (R243, R252, R254, R277). -/
def afterSlots (c : Nat) (s : Option Slots) (d : Dev) : Dev :=
  match s with
  | none => d
  | some s =>
    match s.kind with
    | 1 => modTarn c (fun t => { setTr 0x30 ((tr 0x39 t) &&& (if isControlCore c then 0x419F else 0xC19F)) t with pc := (tr 0x38 t).extractLsb' 0 14 }) d
    | 2 => enterUser c s.target d
    | 3 => userExit c 0 d
    | _ => d

/-- An instruction completes (R228): its cycles are counted against UCNT or WDOG, an exhausted budget aborts it with no effect (R254),
otherwise its effect stands. -/
def completeInstr (c : Nat) (i : TI) (e : Eff) (d : Dev) : Dev :=
  match e with
  | .stop cause => if cause = 2 then illegalAt c d else userExit c cause d
  | .go t u skip =>
    let was := ageAll (tarn c d)
    let bad := cacheError c was
    let k := costOf i (threeBus c d) bad u was
    let count (x : Tarn) : Tarn := { x with
      fetches := x.fetches + b2n (cached was), refetched := x.rpt.isSome && (bad || (was.rpt.isSome && was.refetched)), cyc := x.cyc + k.all, stall3 := x.stall3 + k.bus, stallSb := x.stallSb + k.wait }
    let left := (tr 0x3F was).toNat
    if userMode was ∧ left ≤ k.all then userExit c 1 (modTarn c (fun x => count (setTr 0x3F 0 x)) d)
    else
      let gone := was.sb.length + u.stores.length - k.sb.length
      let t1 := { t with sb := k.sb, dm := drained ((was.sb ++ u.stores).take gone) t.dm }
      let t2 := if userMode was then setTr 0x3F (BitVec.ofNat 64 (left - k.all)) t1 else t1
      let d1 := modTarn c (fun _ => count (advance i was t2 skip)) d
      let d2 := if userMode was then d1 else chargeWdog c k.all d1
      if executes c d2 then afterSlots c (slotEnd was) d2 else d2

/-- Run the instruction a command names on its core. -/
def runTarn (c : Nat) (op : TOp) (sem : TI → Tarn → Eff) (d : Dev) : Dev :=
  match fetchTarn c op d with
  | .idle => d
  | .illegal => illegalAt c d
  | .ok i => completeInstr c i (sem i (ageAll (tarn c d))) d

/-- Run an instruction that acts on more than its core: `f` acts first and says whether the instruction completes. -/
def runSystem (c : Nat) (op : TOp) (f : TI → Dev → Bool × Dev) (d : Dev) : Dev :=
  match fetchTarn c op d with
  | .idle => d
  | .illegal => illegalAt c d
  | .ok i =>
    let r := f i d
    if r.1 then completeInstr c i (.go (ageAll (tarn c r.2)) Use.none none) r.2 else r.2

/-! ### Interrupts (R242, R243) -/

/-- The vector of the highest interrupt pending, if one is. -/
def pendingVector (t : Tarn) : Option (BitVec 14) :=
  if t.dbg then some 0x20 else if t.mail ≠ [] then some 8 else if t.job then some 0x10 else if t.sout then some 0x18 else none

/-- Interrupt entry (R243): taken while IE = 1, not during RPT nor between a branch and its slots. `debug` says that a debug request has
reached the core (R242). -/
def interruptEntry (c : Nat) (debug : Bool) (d0 : Dev) : Dev :=
  let d := if debug then modTarn c (fun t => { t with dbg := true }) d0 else d0
  let t := tarn c d
  match pendingVector t with
  | none => d
  | some v =>
    if !executes c d || !bit (stOf t) 14 || t.rpt.isSome || t.slots.isSome then d
    else
      let t1 := setTr 0x39 (stOf t &&& 0xFFFF) (setTr 0x38 (t.pc.zeroExtend 64) t)
      let t2 := setTr 0x30 (setFld (setFld (stOf t) 14 14 0) 15 15 0) t1
      let t3 := { t2 with pc := v, waiting := false, past := [], cache := none, fill := false }
      modTarn c (fun _ =>
        if t.dbg then { t3 with dbg := false }
        else match t.mail with
          | m :: ms => { t3 with mail := ms, msg := m }
          | [] => if t.job then { t3 with job := false } else { t3 with sout := false }) d

/-- INTERRUPT_ENTRY (R243). -/
def execInterruptEntry (i : IrqAt) : State → Host.Outcome State Fault Refusal := onDev (interruptEntry i.core i.debug)

end Sys2Proof.Machine
end

