-- ==== Sys2Proof/Machine/HostAccess.lean ====
section
/-! DEFINITION. The commands of a host access: register writes and reads, the word window onto the Basin and the DRAM, configuration
writes and function-level resets (rules R37 to R42, R45, R46, R58, R63, R162, R366, R435, R440, R447, R471). -/
namespace Sys2Proof.Machine

/-! ### BAR2 (R41, R42) -/

/-- Bytes of DRAM fitted (R140). -/
def dramBytes (d : Dev) : Nat := fld (rg rDRAM_CFG d) 7 0 * 2 ^ 30

/-- What lies at a BAR2 offset. -/
inductive WinPlace where
  | basin (a : Nat)
  | dram (a : Nat)
  | nothing
  deriving DecidableEq, Repr

/-- The word window (R41). -/
def bar2Place (off : Nat) (d : Dev) : WinPlace :=
  if off < 0x18000000 then .basin (off / 8)
  else if off < 0x80000000 then .nothing
  else
    let a := rgN rHIF_DRAM_WIN d * 2 ^ 31 + (off - 0x80000000)
    if a < dramBytes d then .dram a else .nothing

/-- Is an access 4 or 8 bytes wide and naturally aligned? -/
def natural (off size : Nat) : Bool := decide (size = 4 ∨ size = 8) && decide (off % size = 0)

/-- Write bytes to the DRAM, the least significant first (R12). -/
def dramPut (a n v : Nat) (d : Dev) : Dev :=
  (List.range n).foldl (fun x i => dramWrite (a + i) (BitVec.ofNat 8 (v >>> (8 * i))) x) d
/-- Read bytes of the DRAM. -/
def dramGet (a n : Nat) (d : Dev) : Nat := ((List.range n).map fun i => (dramRead (a + i) d).toNat <<< (8 * i)).foldl (· + ·) 0

/-- A write of BAR2 (R42). -/
def bar2Write (off size : Nat) (v : W64) (d : Dev) : Dev :=
  if 2 ^ 32 ≤ off then d
  else if !natural off size then reject 0 .width 2 off size d
  else match bar2Place off d with
    | .basin a => if size = 8 then basinWrite a (v.extractLsb' 0 36) d else reject 0 .width 2 off size d
    | .dram a => dramPut a size v.toNat d
    | .nothing => reject 0 .reserved 2 off size d

/-- A read of BAR2 (R42, R123). -/
def bar2Read (off size : Nat) (d : Dev) : Nat × Dev :=
  if 2 ^ 32 ≤ off then (0, d)
  else if !natural off size then (0, logErr 0 .width 2 off size d)
  else match bar2Place off d with
    | .basin a => let w := (basinRead a d).toNat; (if size = 8 then w else w >>> (8 * (off % 8)) % 2 ^ 32, meetPoison [a] d)
    | .dram a => (dramGet a size d, d)
    | .nothing => (0, d)

/-- Answer a read. -/
def answer (fn bar off size : Nat) (r : Nat × Dev) : Dev := out (.readReply fn bar off size r.1) r.2

/-- A read of either BAR. -/
def anyRead (fn bar off size : Nat) (d : Dev) : Dev :=
  if bar = 0 then answer fn 0 off size (hostRead fn off size d)
  else if bar = 2 ∧ fn = 0 then answer 0 2 off size (bar2Read off size d)
  else d

/-! ### Configuration writes (R37, R58, R63, R366, R440) -/

/-- A Type 0 configuration write: the PF captures its bus and device number, function number 0. -/
def configWrite (busDev : BitVec 16) (item : ConfigItem) (d : Dev) : Dev :=
  if d.hif.perst || !d.hif.linkUp || !d.hif.pfReady then d
  else
    let d1 := { d with hif := { d.hif with pfRid := busDev &&& 0xFFF8 } }
    match item with
    | .other => d1
    | .vfEnable on n =>
      if d.pwr.recovery && decide (d.pwr.bootStep ≤ 1) then d1
      else { d1 with hif := { d1.hif with vfEnable := on, numVFs := if on then min n 1023 else 0, vfBus := if on then d1.hif.vfBus else [] } }
    | .busMaster on => spoolCheckAll { d1 with hif := { d1.hif with busMaster := on } }
    | .vfBusMaster p on =>
      if vfExists d p then spoolCheckAll { d1 with hif := { d1.hif with vfBus := tabSet (fun _ => false) d1.hif.vfBus p on } } else d1
    | .msixMask fn on => if fnExists d fn then msixMask fn on d1 else d1

/-! ### Function-level resets (R38, R43, R45, R162, R471) -/

/-- The latches, the message and the vector of a function are empty, its KEY staging zero. -/
def clearFn (fn : Nat) (d : Dev) : Dev :=
  let h := d.hif
  zeroStaging fn { d with hif := { h with
    wLatch := tabSet (fun _ => none) h.wLatch fn none
    rLatch := tabSet (fun _ => none) h.rLatch fn none
    masked := tabSet (fun _ => false) h.masked fn false
    pba := tabSet (fun _ => false) h.pba fn false
    msgs := h.msgs.filter fun m => decide (m.1 ≠ fn) } }

/-- A header at reset but for its lock. -/
def headerReset (pg : Nat) (d : Dev) : Dev := modHdr pg (fun h => { Hdr.reset with locked := h.locked }) (freezePage pg false d)

/-- The registers and header of a VFA page at reset (R38). -/
def resetVfa (p : Nat) (d : Dev) : Dev :=
  headerReset (vfPage p 0) { d with regs := tabFilter (fun k _ => decide (k / 0x1000 ≠ vfPage p 0)) d.regs }

/-- A VF function-level reset: the headers of its pages at once, the rest at the next boundary. -/
def vfFlr (p : Nat) (d : Dev) : Dev :=
  if !vfExists d p then d
  else
    let d1 := (List.range 8).foldl (fun x k => headerReset (vfPage p k) x) (clearFn p d)
    { d1 with hif := { d1.hif with flr := d1.hif.flr ++ [p], vfBus := tabSet (fun _ => false) d1.hif.vfBus p false } }

/-- A PF function-level reset: VF Enable, the rings and VFA pages of partitions 1 to 1,023 and the HIF and ATN pages at once, the
effects on partition 0's channels, flows, keys and programs at the next boundary. The link stays trained, and HIF_LINK keeps showing it
(log entry 183). -/
def pfFlr (d : Dev) : Dev :=
  if d.hif.perst || !d.hif.linkUp || !d.hif.pfReady then d
  else
    let link := rg rHIF_LINK d
    let d1 := (d.rings.map (·.1)).foldl (fun x k => if k < 4 then clearRing k x else if k < 0x10000 then stopRing k x else x) d
    let vfs := ((d.pages.map (·.1)).filter fun pg => decide (0x1000 ≤ pg) && decide (pg % 16 = 0)).map fun pg => (pg - 0x1000) / 16
    let d2 := vfs.foldl (fun x p => resetVfa p x) { d1 with regs := tabFilter (fun k _ => decide (k < 0x1000000) || decide (k / 0x1000 % 16 ≠ 0)) d1.regs }
    let d3 := setRg rHIF_LINK link (resetHifAtn true d2)
    let d4 := zeroStaging 0 d3
    spoolCheckAll { d4 with hif := { d4.hif with
      vfEnable := false, numVFs := 0, busMaster := false, vfBus := [], wLatch := [], rLatch := [], masked := [], pba := [], msgs := [],
      flr := d4.hif.flr ++ [0] } }

/-! ### The commands -/

/-- REGISTER_WRITE (R46). -/
def execRegisterWrite (fn off size : Nat) (v : W64) : State → Host.Outcome State Fault Refusal :=
  onDev (fromHost fn (regWrite fn off size v))
/-- UNALIGNED_READ (R42, R46). -/
def execUnalignedRead (fn bar off size : Nat) : State → Host.Outcome State Fault Refusal := onDev (fromHost fn (anyRead fn bar off size))
/-- WRITE_LATCH_LOW (R471). -/
def execWriteLatchLow (fn off : Nat) (v : W32) : State → Host.Outcome State Fault Refusal :=
  onDev (fromHost fn (regWrite fn off 4 (v.zeroExtend 64)))
/-- WRITE_HIGH_HALF (R471). -/
def execWriteHighHalf (fn off : Nat) (v : W32) : State → Host.Outcome State Fault Refusal :=
  onDev (fromHost fn (regWrite fn off 4 (v.zeroExtend 64)))
/-- BAR2_WRITE (R42). -/
def execBar2Write (off size : Nat) (v : W64) : State → Host.Outcome State Fault Refusal := onDev (fromHost 0 (bar2Write off size v))
/-- BAR2_READ (R42). -/
def execBar2Read (off size : Nat) : State → Host.Outcome State Fault Refusal := onDev (fromHost 0 (anyRead 0 2 off size))
/-- READ_LOW_HALF (R46). -/
def execReadLowHalf (fn off : Nat) : State → Host.Outcome State Fault Refusal := onDev (fromHost fn (anyRead fn 0 off 4))
/-- CHALLENGE_READ (R447). -/
def execChallengeRead : State → Host.Outcome State Fault Refusal := onDev (fromHost 0 (anyRead 0 0 (rPWR_DBG_CHAL + 28) 4))
/-- SOFT_RESET (R43): a write of PG_CTRL with the bit set. -/
def execSoftReset (fn page : Nat) (v : W32) : State → Host.Outcome State Fault Refusal :=
  onDev (fromHost fn (onHeader fn page 8 fun pg => softReset fn (page * 0x1000 + 8) pg v))
/-- CONFIG_WRITE (R37, R63). -/
def execConfigWrite (busDev : BitVec 16) (item : ConfigItem) : State → Host.Outcome State Fault Refusal := onDev (configWrite busDev item)
/-- VF_FLR (R38). -/
def execVfFlr (p : Nat) : State → Host.Outcome State Fault Refusal := onDev (fromHost 0 (vfFlr p))
/-- PF_FLR (R38). -/
def execPfFlr : State → Host.Outcome State Fault Refusal := onDev pfFlr

end Sys2Proof.Machine
end

