-- ==== Sys2Proof/Machine/Startup.lean ====
section
/-! DEFINITION. The steps of boot (rules R81, R104, R144, R261, R369, R375, R384, R413, R432, R438 to R440, R442). Step 6 is the servo's
and step 7 follows its first LOCKED. -/
namespace Sys2Proof.Machine

/-- A table of the words of a list from address 0. -/
def tabOfList (l : List Word) (n : Nat) : Tab Word :=
  ((List.range n).zip l).filter fun e => decide (e.2 ≠ 0)

/-- The other protection bits of a region as boot is given them. -/
def mpuOf (x : Nat × Nat × Nat) : MpuRegion :=
  ⟨x.1 % 2 ^ 36, x.2.1 % 2 ^ 36, Nat.testBit x.2.2 0, Nat.testBit x.2.2 1, Nat.testBit x.2.2 2, Nat.testBit x.2.2 3⟩

/-- Step 1: the boot ROM runs on control core 64 and reads the OTP; PCIe may come up. It waits while PWR_FAIL_N is low. -/
def bootRom (b : BootIn) (d : Dev) : Dev :=
  if d.pwr.powerFail && !b.powerOk then d
  else
    let d1 := setRgN rPWR_ROLLBACK (min b.rollback 64) d
    modTarn 64 (fun t => { t with st := .running }) { d1 with pwr := { d1.pwr with powerFail := false, bootStep := 1 } }

/-- Recovery (R440): only the PF, with BAR0 and the Basin. -/
def enterRecovery (d : Dev) : Dev := setRgN rPWR_BOOT_SLOT 2 { d with pwr := { d.pwr with recovery := true } }

/-- Step 2: the valid slot with the higher image version, A of equals; the other where it fails (R439); recovery with neither or with
BOOT_RECOV = 1 (R440). -/
def bootImage (b : BootIn) (d : Dev) : Dev :=
  if bit d.pwr.straps 2 then enterRecovery d
  else
    let preferB := decide (b.imageA.ver < b.imageB.ver)
    let first := if preferB then b.imageB else b.imageA
    let second := if preferB then b.imageA else b.imageB
    if imageValid first d then
      runImage first (setRgN rPWR_BOOT_SLOT (4 * b2n (imageValid second d) + b2n preferB) d)
    else if imageValid second d then runImage second (raise 2 3 (setRgN rPWR_BOOT_SLOT (b2n !preferB) d))
    else enterRecovery d

/-- A step from 3 to 5 fails: FAULT (R442). The spec gives no reason code for it: PWR_FAULT takes free values (log entry 3). -/
def bootFails (d : Dev) : Dev :=
  enterFault (1 + Config.freeNat d.fresh % 4) (Config.freeNat (d.fresh + 1) % 4096) (spend (spend d))

/-- Control firmware starts on a control core (R257, R258). -/
def startControl (b : BootIn) (c : Nat) (d : Dev) : Dev :=
  modTarn c (fun t => { t with
    st := .running, pc := 0, pm := tabOfList b.ctl 0x4000
    mpu := ((List.range 16).zip (b.mpu.map mpuOf)).filter fun e => decide (e.2 ≠ MpuRegion.reset) }) d

/-- A media core is loaded and enabled, and enters IDLE (R261). -/
def startMedia (b : BootIn) (c : Nat) (d : Dev) : Dev :=
  modHdr (tarnPage c) (fun h => { h with ctrl := h.ctrl ||| 1 })
    (modTarn c (fun t => { t with st := .idle, pm := tabOfList b.pm 0x4000, cs := tabOfList b.cs 0x1000 }) d)

/-- Step 3: control firmware starts; DRAM is trained, a channel that fails it raising DRAM.UNIT_FAULT (R140, R141), the flash mounted, the seed loaded, the media cores enabled. With memory kept,
boot stops here (R437). -/
def bootFirmware (b : BootIn) (d : Dev) : Dev :=
  let d1 := [64, 65, 66, 67].foldl (fun x c => startControl b c x) d
  if !b.ok then bootFails d1
  else
    let dt := setRgN rDRAM_CFG (b.gib % 256 + 256 * b.trained.toNat) d1
    let d2 := mountFlash b.flash (if b.trained = 3 then dt else unitFault 0xA0 dt)
    let d3 := (List.range 64).foldl (fun x c => startMedia b c x) { d2 with path := { d2.path with seed := b.seed } }
    { d3 with pwr := { d3.pwr with memHeld := d3.pwr.keepMem, bootStep := 3 } }

/-- Apply one setting of the CONFIG region as a register write; one the register refuses leaves no trace (log entry 25). -/
def applySetting (e : Nat × W64) (d : Dev) : Dev :=
  let size := match findRow (e.1 / 0x1000) (e.1 % 0x1000) with | some r => if r.width = 64 then 8 else 4 | none => 4
  let x := regWrite 0 e.1 size e.2 { d with hif := { d.hif with perr := [], ovf := 0 } }
  if x.hif.perr = [] then { x with hif := { x.hif with perr := d.hif.perr, ovf := d.hif.ovf } } else d

/-- The pages whose settings step 4 loads: bindings, ports, management, modules, lines, SCE, partitions (R302, R322, R410, R438). -/
def step4Page (pg : Nat) : Bool :=
  decide (pg = 0xB0) || (decide (0x100 ≤ pg) && decide (pg < 0x120)) || (decide (0x150 ≤ pg) && decide (pg ≤ 0x180))
    || decide (pg = 0x1B0) || (decide (0x200 ≤ pg) && decide (pg < 0x600))
/-- The pages whose settings step 5 loads: twin, cluster and fabric (R358, R432). -/
def step5Page (pg : Nat) : Bool := decide (pg = 0x120) || decide (pg = 0x190) || decide (pg = 0x1A0)
/-- Apply the settings of some pages, in order. -/
def applySettings (p : Nat → Bool) (l : List (Nat × W64)) (d : Dev) : Dev :=
  (l.filter fun e => p (e.1 / 0x1000)).foldl (fun x e => applySetting e x) d

/-- PG_CTRL.ENABLE of every PF page present (R43, R261, R322). -/
def enablePages (d : Dev) : Dev :=
  ((List.range 0x600).filter fun pg => pagePresent d pg && !(decide (0x40 ≤ pg) && decide (pg < 0x80))).foldl
    (fun x pg => modHdr pg (fun h => { h with ctrl := h.ctrl ||| 1 }) x) d

/-- Step 4: the CONFIG region's settings, the partitions it names, and the SCE program with RUN (R410). -/
def bootConfig (b : BootIn) (d : Dev) : Dev :=
  if !b.ok then bootFails d
  else
    let d1 := enablePages (applySettings step4Page b.config d)
    let d2 := { d1 with pwr := { d1.pwr with parts := b.parts.filter fun p => decide (1 ≤ p) && decide (p < 1024), bootStep := 4 } }
    if hasSce d2 then
      sceCmd 1 (modSce (fun e => { e with pm := ((List.range 512).zip b.sce).filter fun e => decide (e.2 ≠ 0) }) d2)
    else d2

/-- Step 5: the twin and cluster settings; a worker's source is CLUSTER; time is acquired (R358, R432, R442). -/
def bootJoin (b : BootIn) (d : Dev) : Dev :=
  if !b.ok then bootFails d
  else
    let d1 := applySettings step5Page b.config d
    let d2 := if cluOn d1 && !d1.clu.manager then setSource 3 d1 else d1
    acquireDone (setDevSt .timeAcquire { d2 with pwr := { d2.pwr with bootStep := 5 } })

/-- One step of boot: the next that has not completed (R438). -/
def bootNext (b : BootIn) (d : Dev) : Dev :=
  if d.pwr.st ≠ .boot ∨ d.pwr.memHeld then d
  else match d.pwr.bootStep with
    | 0 => bootRom b d
    | 1 => if d.pwr.recovery then d else bootImage b d
    | 2 => bootFirmware b d
    | 3 => bootConfig b d
    | 4 => bootJoin b d
    | _ => d

/-- BOOT (R438). -/
def execBoot (b : BootIn) : State → Host.Outcome State Fault Refusal := onDev (bootNext b)

end Sys2Proof.Machine
end

