-- ==== Sys2Proof/Machine/TarnAlu.lean ====
section
/-! DEFINITION. The ALU, accumulator, move and immediate instructions of the Tarn (rules R273, R274). -/
namespace Sys2Proof.Machine

/-- An ALU instruction of format A: RS and RT, the result to RD unless only flags are set (R273). -/
def aluSem (c : Nat) (op : TOp) (i : TI) (t : Tarn) : Eff :=
  let o := alu op i.p (satOf t) (readReg c i.rs t) (readReg c i.rt t)
  let t1 := if op = .cmp then t else writeReg i.rd o.val false t
  .go (setFlags (some o.val) o.c o.v o.dz t1) Use.none none

/-- An ALU instruction with an immediate (R274): on a D register with flags, on an address register modulo 2¹⁶, on ST its bits. -/
def immSem (c : Nat) (op : TOp) (i : TI) (t : Tarn) : Eff :=
  let a := readReg c i.rd t
  if i.rd < 0x10 then
    let o := alu op false (satOf t) a i.imm
    let t1 := if op = .cmpi then t else writeReg i.rd o.val false t
    .go (setFlags (some o.val) o.c o.v o.dz t1) Use.none none
  else
    let v := match op with
      | .addi => a + i.imm
      | .subi => a - i.imm
      | .andi => a &&& i.imm
      | .ori => a ||| i.imm
      | _ => a ^^^ i.imm
    .go (writeReg i.rd v false t) Use.none none

/-- DIV (R239): the quotient to RD, the remainder to RD + 1. -/
def divSem (c : Nat) (i : TI) (t : Tarn) : Eff :=
  let q := divide (satOf t) (readReg c i.rs t) (readReg c i.rt t)
  .go (setFlags (some q.1) none q.2.2.1 q.2.2.2 (writeReg (i.rd + 1) q.2.1 false (writeReg i.rd q.1 false t))) Use.none none

/-- MOV. -/
def movSem (c : Nat) (i : TI) (t : Tarn) : Eff := .go (writeReg i.rd (readReg c i.rs t) false t) Use.none none

/-- A word with one half replaced: 0 [35:18], 1 [17:0]. -/
def withHalf (h : Nat) (x : Int) (v : Word) : Word :=
  if h = 0 then setFld v 35 18 (BitVec.ofInt 18 x).toNat else setFld v 17 0 (BitVec.ofInt 18 x).toNat

/-- MVA: ACn narrowed by SEL (R237, R273). -/
def mvaSem (c : Nat) (i : TI) (t : Tarn) : Eff :=
  let re := accInt (accSeen i.acn 0 t)
  let im := accInt (accSeen i.acn 1 t)
  let sat := satOf t
  let rnd := rndOf t
  let r : Word × Bool := match i.rt with
    | 0 => narrowWord sat re
    | 1 => narrowWord sat im
    | 2 => narrowPair rnd sat re im
    | n => let h := narrowHalf rnd sat re; (withHalf (n - 3) h.1 (readReg c i.rd t), h.2)
  .go (setFlags (some r.1) none r.2 false (writeReg i.rd r.1 false t)) Use.none none

/-- ACRD: a raw part of ACn (R273). -/
def acrdSem (_c : Nat) (i : TI) (t : Tarn) : Eff :=
  let re := accSeen i.acn 0 t
  let im := accSeen i.acn 1 t
  let v : Word := match i.rt with
    | 0 => re.extractLsb' 0 36
    | 1 => im.extractLsb' 0 36
    | _ => BitVec.ofNat 36 (fld re 47 36 * 4096 + fld im 47 36)
  .go (writeReg i.rd v false t) Use.none none

/-- ACWR: the inverse of ACRD (R273). -/
def acwrSem (c : Nat) (i : TI) (t : Tarn) : Eff :=
  let s := readReg c i.rs t
  let t1 := match i.rt with
    | 0 => setAcc1 i.acn 0 (setFld (accNow i.acn 0 t) 35 0 s.toNat) t
    | 1 => setAcc1 i.acn 1 (setFld (accNow i.acn 1 t) 35 0 s.toNat) t
    | _ => setAcc i.acn (setFld (accNow i.acn 0 t) 47 36 (fld s 23 12)) (setFld (accNow i.acn 1 t) 47 36 (fld s 11 0)) t
  .go t1 Use.none none

/-- ACSET. -/
def acsetSem (c : Nat) (i : TI) (t : Tarn) : Eff :=
  .go (setAcc i.acn (accVal (readReg c i.rs t).toInt) (accVal (readReg c i.rt t).toInt) t) Use.none none

/-- ACCLR. -/
def acclrSem (i : TI) (t : Tarn) : Eff := .go (setAcc i.acn 0 0 t) Use.none none

/-- ACSH: both components shifted, C from .RE as from the high half of a pair (R239, R273; log entry 22). -/
def acshSem (c : Nat) (i : TI) (t : Tarn) : Eff :=
  let n := shiftAmount (readReg c i.rs t)
  let f (p : Nat) : Part := shiftPart 48 false (satOf t) (accInt (accSeen i.acn p t)) n
  let t1 := setAcc i.acn (accVal (f 0).val) (accVal (f 1).val) t
  .go (setAccV ((f 0).v || (f 1).v) (setFlags none (some (f 0).c) false false t1)) Use.none none

/-- ACRND: both components rounded in place at bit 18 (R237, R273). -/
def acrndSem (i : TI) (t : Tarn) : Eff :=
  let f (p : Nat) : Int := roundAt18 (rndOf t) (accInt (accSeen i.acn p t)) * 262144
  .go (setAccV (accWraps (f 0) || accWraps (f 1)) (setAcc i.acn (accVal (f 0)) (accVal (f 1)) t)) Use.none none

/-- MPYL (R236). -/
def mpylSem (c : Nat) (i : TI) (t : Tarn) : Eff :=
  let r := mpylSum i.p (readReg c i.rs t) (readReg c i.rt t)
  .go (setAcc i.acn r.1 r.2 t) Use.none none

/-- LDI. -/
def ldiSem (i : TI) (t : Tarn) : Eff := .go (writeReg i.rd i.imm false t) Use.none none
/-- LDIH. -/
def ldihSem (c : Nat) (i : TI) (t : Tarn) : Eff := .go (writeReg i.rd (setFld (readReg c i.rd t) 35 18 (fld i.imm 17 0)) false t) Use.none none

/-- NOP (R273). -/
def execNop (core : Nat) : State → Host.Outcome State Fault Refusal := onDev (runTarn core .nop (fun _ t => .go t Use.none none))
/-- ADD (R273). -/
def execAdd (core : Nat) : State → Host.Outcome State Fault Refusal := onDev (runTarn core .add (aluSem core .add))
/-- SUB (R273). -/
def execSub (core : Nat) : State → Host.Outcome State Fault Refusal := onDev (runTarn core .sub (aluSem core .sub))
/-- CMP (R273). -/
def execCmp (core : Nat) : State → Host.Outcome State Fault Refusal := onDev (runTarn core .cmp (aluSem core .cmp))
/-- AND (R273). -/
def execAndI (core : Nat) : State → Host.Outcome State Fault Refusal := onDev (runTarn core .and_ (aluSem core .and_))
/-- OR (R273). -/
def execOrI (core : Nat) : State → Host.Outcome State Fault Refusal := onDev (runTarn core .or_ (aluSem core .or_))
/-- XOR (R273). -/
def execXor (core : Nat) : State → Host.Outcome State Fault Refusal := onDev (runTarn core .xor (aluSem core .xor))
/-- NOT (R273). -/
def execNotI (core : Nat) : State → Host.Outcome State Fault Refusal := onDev (runTarn core .not_ (aluSem core .not_))
/-- NEG (R273). -/
def execNeg (core : Nat) : State → Host.Outcome State Fault Refusal := onDev (runTarn core .neg (aluSem core .neg))
/-- ABS (R273). -/
def execAbs (core : Nat) : State → Host.Outcome State Fault Refusal := onDev (runTarn core .abs (aluSem core .abs))
/-- MIN (R273). -/
def execMin (core : Nat) : State → Host.Outcome State Fault Refusal := onDev (runTarn core .min (aluSem core .min))
/-- MAX (R273). -/
def execMax (core : Nat) : State → Host.Outcome State Fault Refusal := onDev (runTarn core .max (aluSem core .max))
/-- ASH (R273). -/
def execAsh (core : Nat) : State → Host.Outcome State Fault Refusal := onDev (runTarn core .ash (aluSem core .ash))
/-- LSH (R273). -/
def execLsh (core : Nat) : State → Host.Outcome State Fault Refusal := onDev (runTarn core .lsh (aluSem core .lsh))
/-- DIV (R273). -/
def execDiv (core : Nat) : State → Host.Outcome State Fault Refusal := onDev (runTarn core .div (divSem core))
/-- MOV (R273). -/
def execMov (core : Nat) : State → Host.Outcome State Fault Refusal := onDev (runTarn core .mov (movSem core))
/-- MVA (R273). -/
def execMva (core : Nat) : State → Host.Outcome State Fault Refusal := onDev (runTarn core .mva (mvaSem core))
/-- ACRD (R273). -/
def execAcrd (core : Nat) : State → Host.Outcome State Fault Refusal := onDev (runTarn core .acrd (acrdSem core))
/-- ACWR (R273). -/
def execAcwr (core : Nat) : State → Host.Outcome State Fault Refusal := onDev (runTarn core .acwr (acwrSem core))
/-- ACSET (R273). -/
def execAcset (core : Nat) : State → Host.Outcome State Fault Refusal := onDev (runTarn core .acset (acsetSem core))
/-- ACCLR (R273). -/
def execAcclr (core : Nat) : State → Host.Outcome State Fault Refusal := onDev (runTarn core .acclr acclrSem)
/-- ACSH (R273). -/
def execAcsh (core : Nat) : State → Host.Outcome State Fault Refusal := onDev (runTarn core .acsh (acshSem core))
/-- ACRND (R273). -/
def execAcrnd (core : Nat) : State → Host.Outcome State Fault Refusal := onDev (runTarn core .acrnd acrndSem)
/-- MPYL (R273). -/
def execMpyl (core : Nat) : State → Host.Outcome State Fault Refusal := onDev (runTarn core .mpyl (mpylSem core))
/-- LDI (R274). -/
def execLdi (core : Nat) : State → Host.Outcome State Fault Refusal := onDev (runTarn core .ldi ldiSem)
/-- LDIH (R274). -/
def execLdih (core : Nat) : State → Host.Outcome State Fault Refusal := onDev (runTarn core .ldih (ldihSem core))
/-- ADDI (R274). -/
def execAddi (core : Nat) : State → Host.Outcome State Fault Refusal := onDev (runTarn core .addi (immSem core .addi))
/-- SUBI (R274). -/
def execSubi (core : Nat) : State → Host.Outcome State Fault Refusal := onDev (runTarn core .subi (immSem core .subi))
/-- CMPI (R274). -/
def execCmpi (core : Nat) : State → Host.Outcome State Fault Refusal := onDev (runTarn core .cmpi (immSem core .cmpi))
/-- ANDI (R274). -/
def execAndi (core : Nat) : State → Host.Outcome State Fault Refusal := onDev (runTarn core .andi (immSem core .andi))
/-- ORI (R274). -/
def execOri (core : Nat) : State → Host.Outcome State Fault Refusal := onDev (runTarn core .ori (immSem core .ori))
/-- XORI (R274). -/
def execXori (core : Nat) : State → Host.Outcome State Fault Refusal := onDev (runTarn core .xori (immSem core .xori))
/-- ASHI (R274). -/
def execAshi (core : Nat) : State → Host.Outcome State Fault Refusal := onDev (runTarn core .ashi (immSem core .ashi))
/-- LSHI (R274). -/
def execLshi (core : Nat) : State → Host.Outcome State Fault Refusal := onDev (runTarn core .lshi (immSem core .lshi))

end Sys2Proof.Machine
end

