-- ==== Sys2Proof/Machine/TarnMem.lean ====
section
/-! DEFINITION. The loads, stores and multiply-accumulates of the Tarn (rules R236, R237, R246, R253, R269, R270, R275, R276). -/
namespace Sys2Proof.Machine

/-- An instruction that found no window violation goes on. -/
def orWindow (x : Option (Tarn × Use)) : Eff := match x with | some r => .go r.1 r.2 none | none => .stop 3

/-- Halves of a word by H: 0 [35:18], 1 [17:0]. -/
def halfOf (h : Nat) : Nat := if h = 0 then 2 else 1
/-- An address with bit 0 ignored (R275). -/
def evenAddr (ea : BitVec 16) : BitVec 16 := ea &&& 0xFFFE

/-- A load of one word, of which `halves` are read, given to `f` (R275). -/
def loadSem (halves : Nat) (f : Word → Tarn → Tarn) (i : TI) (t : Tarn) : Eff :=
  let e := modeEA i 1 t
  orWindow ((readSpace i.sp e.1 halves [] t).map fun r => (f r.1 e.2, r.2))

/-- LD. -/
def ldSem (i : TI) (t : Tarn) : Eff := loadSem 3 (fun v x => writeReg i.rd v true x) i t
/-- LDH: the other half of RD is unchanged. -/
def ldhSem (c : Nat) (i : TI) (t : Tarn) : Eff :=
  loadSem (halfOf i.h) (fun v x => writeReg i.rd (withHalf i.h (if i.h = 0 then hiHalf v else loHalf v) (readReg c i.rd x)) true x) i t
/-- LDD: two words at an even address, one load. -/
def lddSem (i : TI) (t : Tarn) : Eff :=
  let e := modeEA i 2 t
  let a := evenAddr e.1
  orWindow (match readSpace i.sp a 3 [] t, readSpace i.sp (a + 1) 3 [] t with
    | some x, some y =>
      let l := x.2.loads.flatten ++ y.2.loads.flatten
      some (writeReg (i.rd + 1) y.1 true (writeReg i.rd x.1 true e.2), ⟨if l.isEmpty then [] else [l], [], x.2.prog || y.2.prog⟩)
    | _, _ => none)

/-- Write CS at an address (R275). -/
def csPut (a : Nat) (v : Word) (t : Tarn) : Tarn := { t with cs := tabSet (fun _ => 0) t.cs (a % 4096) v }
/-- Write PM at an address: the repeat cache is flushed, and the next three fetches still see the old word (R233, R275). -/
def pmPut (a : Nat) (v : Word) (t : Tarn) : Tarn :=
  let k := a % 16384
  { t with pm := tabSet (fun _ => 0) t.pm k v, pmPast := (k, pmWord k t, 0) :: t.pmPast, cache := none, fill := false }

/-- A store of a word, of which `halves` are written, at the address of a format L mode (R246, R275). -/
def storeSem (halves : Nat) (v : Word) (f : Tarn → Tarn) (i : TI) (t : Tarn) : Eff :=
  let e := modeEA i 1 t
  let t1 := f e.2
  orWindow (match i.sp with
    | 0 => (dmAddr e.1 t).map fun a => (t1, ⟨[], [⟨a, halves, v, none⟩], false⟩)
    | 1 =>
      let was := csWord e.1 t
      some (csPut e.1.toNat (if halves = 3 then v else if halves = 2 then withHalf 0 (hiHalf v) was else withHalf 1 (loHalf v) was) t1, Use.none)
    | _ => some (pmPut e.1.toNat v t1, Use.none))

/-- ST. -/
def stSem (c : Nat) (i : TI) (t : Tarn) : Eff := storeSem 3 (readReg c i.rd t) id i t
/-- STH. -/
def sthSem (c : Nat) (i : TI) (t : Tarn) : Eff := storeSem (halfOf i.h) (readReg c i.rd t) id i t
/-- STD: a double-word store at an even address. -/
def stdSem (c : Nat) (i : TI) (t : Tarn) : Eff :=
  let e := modeEA i 2 t
  let a := evenAddr e.1
  let x := readReg c i.rd t
  let y := readReg c (i.rd + 1) t
  orWindow (match i.sp with
    | 0 => match dmAddr a t, dmAddr (a + 1) t with
      | some p, some _ => some (e.2, ⟨[], [⟨p, 3, x, some y⟩], false⟩)
      | _, _ => none
    | _ => some (csPut (a.toNat + 1) y (csPut a.toNat x e.2), Use.none))
/-- STA: ACn narrowed by SZ. Narrowing sets V where the value is out of range (R237; log entry 23). -/
def staSem (i : TI) (t : Tarn) : Eff :=
  let re := accInt (accSeen i.acn 0 t)
  let im := accInt (accSeen i.acn 1 t)
  let sat := satOf t
  let rnd := rndOf t
  let r : Word × Bool := match i.sz with
    | 0 => narrowWord sat re
    | 1 => narrowWord sat im
    | 2 => narrowPair rnd sat re im
    | _ => let h := narrowHalf rnd sat re; (pairOf h.1 h.1, h.2)
  storeSem (if i.sz = 3 then halfOf i.h else 3) r.1 (fun x => if r.2 then setFlags none none true false x else x) i t

/-! ### Multiply-accumulate and parallel moves (R270, R276) -/

/-- X: Dn, or a DM word through A0 or A1. -/
def xOperand (c xs : Nat) (t : Tarn) : Option (Word × Tarn × Use) :=
  if 16 ≤ xs then some (readReg c (xs % 16) t, t, Use.none)
  else
    let e := macEA (xs / 8) (xs / 2 % 4) t
    (readSpace 0 e.1 3 [] t).map fun r => (r.1, e.2, r.2)
/-- Y: Dn, or a word of DM, CS or PM through A4 to A7. -/
def yOperand (c ys : Nat) (t : Tarn) : Option (Word × Tarn × Use) :=
  if ySpace ys = 0 then some (readReg c (ys % 16) t, t, Use.none)
  else
    let e := macEA (4 + ys / 4 % 4) (ys % 4) t
    (readSpace (ySpace ys - 1) e.1 3 [] t).map fun r => (r.1, e.2, r.2)

/-- What a store move stores, and V: read in OP, from `was` (R276 step 1). -/
def moveSource (c m : Nat) (was : Tarn) : Word × Bool :=
  if mvKind m = 2 then (readReg c (mvReg m) was, false)
  else narrowPair (rndOf was) (satOf was) (accInt (accSeen (mvReg m) 0 was)) (accInt (accSeen (mvReg m) 1 was))

/-- A parallel move through A2 or A3 (R276 steps 3 and 4), `more` being stores of the same instruction before it. -/
def moveSem (c n m : Nat) (more : List PendStore) (was t : Tarn) : Option (Tarn × Use) :=
  if mvKind m = 0 then some (t, Use.none)
  else
    let e := macEA n (if m % 2 = 0 then 1 else 3) t
    if mvKind m = 1 then (readSpace 0 e.1 3 more t).map fun r => (writeReg (mvReg m) r.1 true e.2, r.2)
    else
      let s := moveSource c m was
      (dmAddr e.1 t).map fun a =>
        (if s.2 then setFlags none none true false e.2 else e.2, ⟨[], [⟨a, 3, s.1, none⟩], false⟩)

/-- Both moves, MV2 after MV1. -/
def movesSem (c : Nat) (i : TI) (was t : Tarn) (u : Use) : Option (Tarn × Use) := do
  let a ← moveSem c 2 i.mv1 [] was t
  let b ← moveSem c 3 i.mv2 a.2.stores was a.1
  return (b.1, u.and (a.2.and b.2))

/-- CMAC, CMACJ and DMAC (R276): operands are read before anything is written. -/
def macSem (c : Nat) (op : TOp) (i : TI) (t : Tarn) : Eff :=
  orWindow (do
    let x ← xOperand c i.xs t
    let y ← yOperand c i.ys x.2.1
    let s := macSum op i.sub i.f i.clr x.1 y.1 (accInt (accNow i.acn 0 t)) (accInt (accNow i.acn 1 t))
    movesSem c i t (setAccV s.2.2 (setAcc i.acn s.1 s.2.1 y.2.1)) (x.2.2.and y.2.2))
/-- PMOV. -/
def pmovSem (c : Nat) (i : TI) (t : Tarn) : Eff := orWindow (movesSem c i t t Use.none)

/-- LD (R275). -/
def execLd (core : Nat) : State → Host.Outcome State Fault Refusal := onDev (runTarn core .ld ldSem)
/-- ST (R275). -/
def execSt (core : Nat) : State → Host.Outcome State Fault Refusal := onDev (runTarn core .st (stSem core))
/-- LDH (R275). -/
def execLdh (core : Nat) : State → Host.Outcome State Fault Refusal := onDev (runTarn core .ldh (ldhSem core))
/-- STH (R275). -/
def execSth (core : Nat) : State → Host.Outcome State Fault Refusal := onDev (runTarn core .sth (sthSem core))
/-- LDD (R275). -/
def execLdd (core : Nat) : State → Host.Outcome State Fault Refusal := onDev (runTarn core .ldd lddSem)
/-- STD (R275). -/
def execStd (core : Nat) : State → Host.Outcome State Fault Refusal := onDev (runTarn core .std (stdSem core))
/-- STA (R275). -/
def execSta (core : Nat) : State → Host.Outcome State Fault Refusal := onDev (runTarn core .sta staSem)
/-- CMAC (R276). -/
def execCmac (core : Nat) : State → Host.Outcome State Fault Refusal := onDev (runTarn core .cmac (macSem core .cmac))
/-- CMACJ (R276). -/
def execCmacj (core : Nat) : State → Host.Outcome State Fault Refusal := onDev (runTarn core .cmacj (macSem core .cmacj))
/-- DMAC (R276). -/
def execDmac (core : Nat) : State → Host.Outcome State Fault Refusal := onDev (runTarn core .dmac (macSem core .dmac))
/-- PMOV (R276). -/
def execPmov (core : Nat) : State → Host.Outcome State Fault Refusal := onDev (runTarn core .pmov (pmovSem core))

end Sys2Proof.Machine
end

