-- ==== Sys2Proof/Machine/TarnCtl.lean ====
section
/-! DEFINITION. The branches, calls, returns, loops and repeats of the Tarn (rules R230, R240, R241, R243, R252, R254, R271, R277). -/
namespace Sys2Proof.Machine

/-- Is a condition met, by the flags as branches see them (R229, R271)? -/
def condMet (cond : Nat) (t : Tarn) : Bool :=
  let s := seen 0x100 (stOf t) t
  let v := bit (seen 0x101 (stOf t) t) 3
  let n := bit s 2
  let z := bit s 1
  let cy := bit s 0
  let dz := bit s 4
  match cond with
  | 0 => true
  | 1 => z
  | 2 => !z
  | 3 => n
  | 4 => !n
  | 5 => !n && !z
  | 6 => n || z
  | 7 => cy
  | 8 => !cy
  | 9 => v
  | 10 => !v
  | 11 => dz
  | _ => !dz

/-- Has the word at an address an extension word (R263)? -/
def hasExt (w : Word) : Bool :=
  (decide (fld w 35 30 = 4) && bit w 24) || (decide (fld w 35 30 = 8) && decide (fld w 24 22 = 5 ∨ fld w 24 22 = 6))

/-- The return address (R277): of the word after the second delay slot. -/
def returnAddr (t : Tarn) : Nat :=
  let a := t.pc.toNat + 1
  let b := a + 1 + b2n (hasExt (pmFetch a t))
  (b + 1 + b2n (hasExt (pmFetch b t))) % 16384

/-- A branch whose two delay slots follow; one not taken has them too (R230). -/
def branchTo (kind : Nat) (target : Nat) (t : Tarn) : Eff :=
  .go { t with slots := some ⟨kind, BitVec.ofNat 14 target, 2⟩ } Use.none none

/-- BR and CALL to TGT, BRI and CALLI to AN[13:0]; a call taken writes A7 (R277). -/
def branchSem (link : Bool) (indirect : Bool) (i : TI) (t : Tarn) : Eff :=
  let dest := if indirect then (agReg (0x10 + i.an) t).toNat % 16384 else i.tgt
  if condMet i.cond t then branchTo 0 dest (if link then writeReg 0x17 (BitVec.ofNat 36 (returnAddr t)) false t else t)
  else branchTo 4 0 t

/-- Write a loop register so that the loop-end test sees it at once (R277). -/
def armLoop (n v : Nat) (t : Tarn) : Tarn := reveal (0x80 + n) (setTr n (BitVec.ofNat 64 v) t)

/-- LOOP and LOOPR with a count (R241): a count of 0 skips the body. -/
def loopSem (n : Nat) (i : TI) (t : Tarn) : Eff :=
  let t1 := armLoop 0x33 i.tgt (armLoop 0x32 ((t.pc.toNat + 1) % 16384) (armLoop 0x31 n { t with cache := none, fill := true }))
  .go t1 Use.none (if n = 0 then some (i.tgt + 1) else none)

/-- RPT and RPTR with a count (R240): the next instruction is repeated, zero times too. -/
def rptSem (n : Nat) (t : Tarn) : Eff :=
  let pc := t.pc.toNat
  if 4096 < n ∨ (userMode t ∧ 1024 < n) then .stop 2
  else if n = 0 then
    match decodeTarn (pmFetch (pc + 1) t) (pmFetch (pc + 2) t) with
    | some j => if repeatable j then .go t Use.none (some (pc + 2)) else .stop 2
    | none => .stop 2
  else .go { t with rpt := some n, cache := none, fill := false } Use.none none

/-- BR (R277). -/
def execBr (core : Nat) : State → Host.Outcome State Fault Refusal := onDev (runTarn core .br (branchSem false false))
/-- BRI (R277). -/
def execBri (core : Nat) : State → Host.Outcome State Fault Refusal := onDev (runTarn core .bri (branchSem false true))
/-- CALL (R277). -/
def execCall (core : Nat) : State → Host.Outcome State Fault Refusal := onDev (runTarn core .call (branchSem true false))
/-- CALLI (R277). -/
def execCalli (core : Nat) : State → Host.Outcome State Fault Refusal := onDev (runTarn core .calli (branchSem true true))
/-- RETI (R243, R277). -/
def execReti (core : Nat) : State → Host.Outcome State Fault Refusal := onDev (runTarn core .reti fun _ t => branchTo 1 0 t)
/-- CALLU: what precedes it, and the call when its delay slots have run (R252, R255). -/
def callUser (c : Nat) (d : Dev) : Dev :=
  match fetchTarn c .callu d with
  | .idle => d
  | .illegal => illegalAt c d
  | .ok i =>
    let d1 := prepareWindow c d
    let t := ageAll (tarn c d1)
    if executes c d1 then completeInstr c i (branchTo 2 (returnAddr t) t) d1 else d1

/-- CALLU (R252, R277). -/
def execCallu (core : Nat) : State → Host.Outcome State Fault Refusal := onDev (callUser core)
/-- RETU (R254, R277). -/
def execRetu (core : Nat) : State → Host.Outcome State Fault Refusal := onDev (runTarn core .retu fun _ t => branchTo 3 0 t)
/-- LOOP (R241, R277). -/
def execLoop (core : Nat) : State → Host.Outcome State Fault Refusal := onDev (runTarn core .loop fun i t => loopSem i.cnt i t)
/-- LOOPR (R241, R277). -/
def execLoopr (core : Nat) : State → Host.Outcome State Fault Refusal :=
  onDev (runTarn core .loopr fun i t => loopSem (fld (readReg core i.dn t) 15 0) i t)
/-- RPT (R240, R277). -/
def execRpt (core : Nat) : State → Host.Outcome State Fault Refusal := onDev (runTarn core .rpt fun i t => rptSem i.cnt t)
/-- RPTR (R240, R277). -/
def execRptr (core : Nat) : State → Host.Outcome State Fault Refusal :=
  onDev (runTarn core .rptr fun i t => rptSem (fld (readReg core i.dn t) 12 0) t)

end Sys2Proof.Machine
end

