-- ==== Sys2Proof/Machine/TarnSys.lean ====
section
/-! DEFINITION. The Tarn instructions that act beyond their core: far loads and stores with the protection unit, DMA, the streamer,
mailboxes, the end of a job and WAIT; and the budget abort (rules R112, R121, R249, R252, R254, R256, R257, R273, R278). -/
namespace Sys2Proof.Machine

/-! ### The far space (R256, R257) -/

/-- What lies at a far address. -/
inductive FarPlace where
  | dram (a : Nat)
  | basin (a : Nat)
  | page (off : Nat)
  | nothing
  deriving DecidableEq, Repr

/-- The target of a far access of `n` bytes. -/
def farPlace (a n : Nat) (d : Dev) : FarPlace :=
  if a < 0x100000000000 then (if a + n ≤ dramBytes d then .dram a else .nothing)
  else if a < 0x100018000000 then .basin ((a - 0x100000000000) / 8)
  else if 0x200000000000 ≤ a ∧ a < 0x200001000000 then .page (a - 0x200000000000)
  else .nothing

/-- Does one enabled region cover the bytes and permit the access (R257)? -/
def mpuPermits (write : Bool) (a n : Nat) (t : Tarn) : Bool :=
  t.mpu.any fun e => e.2.en && (if write then e.2.w else e.2.r) && decide (e.2.base * 4096 ≤ a)
    && decide (a + n ≤ (e.2.limit + 1) * 4096)

/-- The access is refused: it has no effect and the core faults (R257). -/
def farFault (c a : Nat) (write bad : Bool) (d : Dev) : Dev :=
  let d1 := setRgN (kTarn c oTARN_MPU_INFO) (2 * b2n write + b2n bad) (setRgN (kTarn c oTARN_MPU_ADDR) a d)
  coreFaults c 5 false (raise (tarnPage c) 3 d1)

/-- May the access be performed: aligned, in the far space, covered by the protection unit? `none` where it may; otherwise whether it is
an access error. -/
def farCheck (write : Bool) (a n align : Nat) (t : Tarn) (d : Dev) : Option Bool :=
  if a % align ≠ 0 ∨ farPlace a n d = .nothing then some true
  else if mpuPermits write a n t then none else some false

/-- Read the far space. -/
def farRead (a n : Nat) (d : Dev) : Nat × Dev :=
  match farPlace a n d with
  | .dram x => (dramGet x n d, d)
  | .basin x => let w := (basinRead x d).toNat; (if n = 8 then w else w >>> (8 * (a % 8)) % 2 ^ 32, meetPoison [x] d)
  | .page o => hostRead 0 o n d
  | .nothing => (0, d)

/-- Write the far space; 4 bytes of a Basin container change that half of it (R12). -/
def farWrite (a n v : Nat) (d : Dev) : Dev :=
  match farPlace a n d with
  | .dram x => dramPut x n v d
  | .basin x =>
    let old := (basinRead x d).toNat
    let w := if n = 8 then v else if a % 8 = 0 then old / 2 ^ 32 * 2 ^ 32 + v % 2 ^ 32 else v % 2 ^ 32 * 2 ^ 32 + old % 2 ^ 32
    basinWrite x (BitVec.ofNat 36 w) d
  | .page o => regWrite 0 o n (BitVec.ofNat 64 v) d
  | .nothing => d

/-- The store buffer is empty before the access (R249). -/
def drainCore (c : Nat) (d : Dev) : Dev := modTarn c (fun t => { t with sb := [], dm := drained t.sb t.dm }) d

/-- A D register as an instruction about to issue reads it (R229). -/
def dNext (c n : Nat) (d : Dev) : Word := readReg c n (ageAll (tarn c d))
/-- The far address in a D register pair: {RS+1[11:0], RS} (R273). -/
def farAddr (c rs : Nat) (d : Dev) : Nat := fld (dNext c (rs + 1) d) 11 0 * 2 ^ 36 + (dNext c rs d).toNat

/-- FLD (R273): the word goes into RD as a load does. -/
def farLoad (c : Nat) (d : Dev) : Dev :=
  match fetchTarn c .fld d with
  | .idle => d
  | .illegal => illegalAt c d
  | .ok i =>
    let d1 := drainCore c d
    let a := farAddr c i.rs d
    let n := if i.p then 8 else 4
    match farCheck false a n n (tarn c d) d with
    | some bad => farFault c a false bad d1
    | none =>
      let r := farRead a n d1
      completeInstr c i (.go (writeReg i.rd (BitVec.ofNat 36 r.1) true (ageAll (tarn c r.2))) Use.none none) r.2

/-- FST (R273). -/
def farStore (c : Nat) (i : TI) (d : Dev) : Bool × Dev :=
  let d1 := drainCore c d
  let a := farAddr c i.rs d
  let n := if i.p then 8 else 4
  let v := (dNext c i.rt d).toNat
  match farCheck true a n n (tarn c d) d with
  | some bad => (false, farFault c a true bad d1)
  | none => (true, farWrite a n (if i.p then v else v % 2 ^ 32) d1)

/-! ### DMA of a control core (R278) -/

/-- The block at a DM address (log entry 26). -/
def dmaBlock (a : Nat) (dm : Tab Word) : DmaBlock :=
  let w (i : Nat) : Word := tabGet (fun _ => 0) dm ((a + i) % 65536)
  ⟨a, fld (w 1) 11 0 * 2 ^ 36 + (w 0).toNat, fld (w 3) 11 0 * 2 ^ 36 + (w 2).toNat, fld (w 3) 35 12⟩

/-- Check both ends of a copy: the source for reads, the destination for writes; the address refused, whether for a write, and
whether an access error. -/
def dmaCheck (b : DmaBlock) (t : Tarn) (d : Dev) : Option (Nat × Bool × Bool) :=
  if b.len % 8 ≠ 0 ∨ 2 ^ 24 < b.len then some (b.src, false, true)
  else if b.len = 0 then none
  else
    let ends (a : Nat) : Bool := match farPlace a b.len d, farPlace (a + b.len - 1) 1 d with
      | .dram _, .dram _ => true | .basin _, .basin _ => true | .page _, .page _ => true | _, _ => false
    if b.src % 8 ≠ 0 ∨ ends b.src = false then some (b.src, false, true)
    else if !mpuPermits false b.src b.len t then some (b.src, false, false)
    else if b.dst % 8 ≠ 0 ∨ ends b.dst = false then some (b.dst, true, true)
    else if !mpuPermits true b.dst b.len t then some (b.dst, true, false)
    else none

/-- DMA (R278): both ends are checked before any byte moves; the copy is queued. -/
def dmaQueue (c : Nat) (i : TI) (d : Dev) : Bool × Dev :=
  let d1 := drainCore c d
  let a := (agReg (0x10 + i.an) (ageAll (tarn c d))).toNat
  let t := tarn c d1
  match dmaCheck (dmaBlock a t.dm) t d1 with
  | some (x, w, bad) => (false, farFault c x w bad d1)
  | none => (true, modTarn c (fun t => { t with dmaq := t.dmaq ++ [dmaBlock a t.dm] }) d1)

/-- Copy a block 8 bytes at a time. -/
def farCopy (b : DmaBlock) (d : Dev) : Dev :=
  (List.range (b.len / 8)).foldl (fun x i => let r := farRead (b.src + 8 * i) 8 x; farWrite (b.dst + 8 * i) 8 r.1 r.2) d

/-- The oldest copy of a core completes: its bytes have moved and its length field is written as 0. -/
def dmaDone (c : Nat) (d : Dev) : Dev :=
  let t := tarn c d
  match t.dmaq with
  | [] => d
  | b :: rest =>
    let d1 := farCopy b d
    let k := (b.blk + 3) % 65536
    modTarn c (fun t => { t with dmaq := rest, dm := tabMod (fun _ => 0) t.dm k fun w => setFld w 35 12 0 }) d1

/-! ### The streamer (R121, R278) -/

/-- The partition whose context, tenant data or program image a Basin word belongs to (R33, R120, R255). -/
def wordOwner (a : Nat) (d : Dev) : Option Nat :=
  let t := a / 1024 - 0xA800
  match d.slots.find? fun e => e.2.granules.contains (a / 1024) || (decide (0xA800 ≤ a / 1024) && e.2.tgranules.contains t) with
  | some e => some e.2.part
  | none => if 0xA800 ≤ a / 1024 then (d.progs.find? fun e => e.2.granules.contains t).map (·.1 / 65536) else none

/-- STRM (R278): between the Basin and DM through the fill port, 80 cycles for every 1,024 words, within the regions of the running job's
partition. An address that is not present is also a unit fault (R119), and a word of another partition a tag mismatch (R287). -/
def stream (c : Nat) (i : TI) (d : Dev) : Bool × Dev :=
  let w0 := dNext c i.dn d
  let w1 := dNext c (i.dn + 1) d
  let src := fld w0 25 0
  let dm := fld w1 15 0
  let n := fld w1 29 16 + 1
  let as := (List.range n).map (src + ·)
  match headJob c d with
  | none => (false, coreFaults c 5 false d)
  | some j =>
    let p := jobPart j d
    if 0x3000000 < src + n then (false, coreFaults c 5 false (unitFault 0x90 d))
    else match as.find? fun a => decide (wordOwner a d ≠ some p) with
      | some a =>
        (false, coreFaults c 5 false (match wordOwner a d with | some q => tagFault (tarnPage c) q p a d | none => d))
      | none =>
        let cost := 80 * ceilDiv n 1024
        let d1 := modTarn c (fun t => { t with cyc := t.cyc + cost }) d
        let d2 := if bit w0 35 then
            (List.range n).foldl (fun x k => basinWrite (src + k) (tabGet (fun _ => 0) (tarn c x).dm ((dm + k) % 65536)) x) d1
          else meetPoison as (modTarn c (fun t => { t with
            dm :=
            (List.range n).foldl (fun m k => tabSet (fun _ => 0) m ((dm + k) % 65536) (basinRead (src + k) d1)) t.dm }) d1)
        let d3 := chargeWdog c cost d2
        (executes c d3, d3)

/-! ### DONE, WAIT and MBOX (R242, R249, R278) -/

/-- DONE: the store buffer drains, the running job ends and stream-out begins (R121). A core with no job stays idle. -/
def jobEnds (c : Nat) (i : TI) (d : Dev) : Dev :=
  let d1 := completeInstr c i (.go (ageAll (tarn c (drainCore c d))) Use.none none) (drainCore c d)
  if !executes c d1 then d1
  else match headJob c d1 with
    | none => modTarn c (fun t => { t with st := .idle }) d1
    | some j =>
      let d2 := if decide (j.st = .ready) && j.out.isNone then runJob j.bus c d1 else d1
      afterCommit c d2 (completeJob c d2)

/-- DONE on a core. -/
def doneSem (c : Nat) (d : Dev) : Dev :=
  match fetchTarn c .done d with
  | .idle => d
  | .illegal => illegalAt c d
  | .ok i => jobEnds c i d

/-- WAIT: the core stalls until an interrupt is taken. -/
def waitSem (c : Nat) (d : Dev) : Dev :=
  match fetchTarn c .wait d with
  | .idle => d
  | .illegal => illegalAt c d
  | .ok i =>
    let d1 := completeInstr c i (.go (ageAll (tarn c d)) Use.none none) d
    if executes c d1 then modTarn c (fun t => { t with waiting := true }) d1 else d1

/-- MBOX: a word to control firmware, which one of the control cores takes, or from a control core to the core TGT names (R242). -/
def mboxPost (c : Nat) (i : TI) (d : Dev) : Bool × Dev :=
  let v := dNext c i.dn d
  let to_ := if isControlCore c then i.tgt % 128 else 64 + Config.mailCore c (now64 d).toNat % 4
  (true, modTarn to_ (fun t => { t with mail := t.mail ++ [v] }) d)

/-- BUDGET_ABORT (R112, R254): UCNT reaches 0 in user mode; of a core whose job has been computed, the job's tenant stage. -/
def budgetEnds (c : Nat) (d : Dev) : Dev :=
  if executes c d && userMode (tarn c d) then userExit c 1 (modTarn c (setTr 0x3F 0) d) else budgetAbort c d

/-! ### The commands -/

/-- BUDGET_ABORT (R254). -/
def execBudgetAbort (core : Nat) : State → Host.Outcome State Fault Refusal := onDev (budgetEnds core)
/-- FLD (R273). -/
def execFld (core : Nat) : State → Host.Outcome State Fault Refusal := onDev (farLoad core)
/-- FST (R273). -/
def execFst (core : Nat) : State → Host.Outcome State Fault Refusal := onDev (runSystem core .fst (farStore core))
/-- DONE (R278). -/
def execDone (core : Nat) : State → Host.Outcome State Fault Refusal := onDev (doneSem core)
/-- WAIT (R278). -/
def execWait (core : Nat) : State → Host.Outcome State Fault Refusal := onDev (waitSem core)
/-- MBOX (R278). -/
def execMbox (core : Nat) : State → Host.Outcome State Fault Refusal := onDev (runSystem core .mbox (mboxPost core))
/-- STRM (R278). -/
def execStrm (core : Nat) : State → Host.Outcome State Fault Refusal := onDev (runSystem core .strm (stream core))
/-- DMA (R278). -/
def execDma (core : Nat) : State → Host.Outcome State Fault Refusal := onDev (runSystem core .dma (dmaQueue core))
/-- DMA_COMPLETE (R278). -/
def execDmaComplete (core : Nat) : State → Host.Outcome State Fault Refusal := onDev (dmaDone core)

end Sys2Proof.Machine
end

