-- ==== Sys2Proof/Machine/Dispatch.lean ====
section
/-! DEFINITION. The dispatch of commands to their meanings: one arm per constructor of Instr. -/
namespace Sys2Proof.Machine

/-- The effect of a command on everything but the queue. -/
def exec (i : Instr) (s : State) : Host.Outcome State Fault Refusal :=
  match i with
  | .passBoundary => Sys2Proof.Machine.execPassBoundary s
  | .dispatchDeadline => Sys2Proof.Machine.execDispatchDeadline s
  | .operandVisible handle leg => Sys2Proof.Machine.execOperandVisible handle leg s
  | .quiesceEnd slot => Sys2Proof.Machine.execQuiesceEnd slot s
  | .partitionClosed p => Sys2Proof.Machine.execPartitionClosed p s
  | .prefetch handle leg ue => Sys2Proof.Machine.execPrefetch handle leg ue s
  | .prefetchArrive handle leg => Sys2Proof.Machine.execPrefetchArrive handle leg s
  | .playoutEvent handle leg => Sys2Proof.Machine.execPlayoutEvent handle leg s
  | .rtcpReport handle leg => Sys2Proof.Machine.execRtcpReport handle leg s
  | .toneEventEnd handle => Sys2Proof.Machine.execToneEventEnd handle s
  | .inactivityTimeout handle => Sys2Proof.Machine.execInactivityTimeout handle s
  | .firmwareTimer tag => Sys2Proof.Machine.execFirmwareTimer tag s
  | .channelJob core => Sys2Proof.Machine.execChannelJob core s
  | .busJob core => Sys2Proof.Machine.execBusJob core s
  | .streamInComplete core => Sys2Proof.Machine.execStreamInComplete core s
  | .jobComplete core => Sys2Proof.Machine.execJobComplete core s
  | .streamOutComplete core ue => Sys2Proof.Machine.execStreamOutComplete core ue s
  | .coreFault core src cs => Sys2Proof.Machine.execCoreFault core src cs s
  | .watchdogExpiry core => Sys2Proof.Machine.execWatchdogExpiry core s
  | .coreReturn v => Sys2Proof.Machine.execCoreReturn v s
  | .selftestDone core pass => Sys2Proof.Machine.execSelftestDone core pass s
  | .basinScrub addr err => Sys2Proof.Machine.execBasinScrub addr err s
  | .dramScrub addr err => Sys2Proof.Machine.execDramScrub addr err s
  | .writeFail page part addr handle => Sys2Proof.Machine.execWriteFail page part addr handle s
  | .vfFlr p => Sys2Proof.Machine.execVfFlr p s
  | .pfFlr => Sys2Proof.Machine.execPfFlr s
  | .registerWrite fn off size v => Sys2Proof.Machine.execRegisterWrite fn off size v s
  | .unalignedRead fn bar off size => Sys2Proof.Machine.execUnalignedRead fn bar off size s
  | .writeLatchLow fn off v => Sys2Proof.Machine.execWriteLatchLow fn off v s
  | .writeHighHalf fn off v => Sys2Proof.Machine.execWriteHighHalf fn off v s
  | .bar2Write off size v => Sys2Proof.Machine.execBar2Write off size v s
  | .bar2Read off size => Sys2Proof.Machine.execBar2Read off size s
  | .perrPop => Sys2Proof.Machine.execPerrPop s
  | .perrOvfClear => Sys2Proof.Machine.execPerrOvfClear s
  | .softReset fn page v => Sys2Proof.Machine.execSoftReset fn page v s
  | .causeClear fn page v => Sys2Proof.Machine.execCauseClear fn page v s
  | .causeForce fn page v => Sys2Proof.Machine.execCauseForce fn page v s
  | .pgFirstClear fn page => Sys2Proof.Machine.execPgFirstClear fn page s
  | .pgFoldClear fn page v => Sys2Proof.Machine.execPgFoldClear fn page v s
  | .pageLock fn page => Sys2Proof.Machine.execPageLock fn page s
  | .msixMessage fn => Sys2Proof.Machine.execMsixMessage fn s
  | .eoi fn v => Sys2Proof.Machine.execEoi fn v s
  | .ringRecordOffer part r typ handle body => Sys2Proof.Machine.execRingRecordOffer part r typ handle body s
  | .ringEnable fn part r => Sys2Proof.Machine.execRingEnable fn part r s
  | .ringDisable fn part r => Sys2Proof.Machine.execRingDisable fn part r s
  | .ringConsWrite fn part r v => Sys2Proof.Machine.execRingConsWrite fn part r v s
  | .chwRead fn part => Sys2Proof.Machine.execChwRead fn part s
  | .chwWrite fn part => Sys2Proof.Machine.execChwWrite fn part s
  | .activate fn part at_ => Sys2Proof.Machine.execActivate fn part at_ s
  | .chwRelease fn part at_ => Sys2Proof.Machine.execChwRelease fn part at_ s
  | .modifyAt fn part => Sys2Proof.Machine.execModifyAt fn part s
  | .chwOpComplete part => Sys2Proof.Machine.execChwOpComplete part s
  | .tbTickInc => Sys2Proof.Machine.execTbTickInc s
  | .tbIncWrite v => Sys2Proof.Machine.execTbIncWrite v s
  | .tbStepWrite x => Sys2Proof.Machine.execTbStepWrite x s
  | .stepApply => Sys2Proof.Machine.execStepApply s
  | .rearm v => Sys2Proof.Machine.execRearm v s
  | .tbExtNextWrite v => Sys2Proof.Machine.execTbExtNextWrite v s
  | .tbSrcWrite v => Sys2Proof.Machine.execTbSrcWrite v s
  | .refclkLoss => Sys2Proof.Machine.execRefclkLoss s
  | .refclkHoldExpiry => Sys2Proof.Machine.execRefclkHoldExpiry s
  | .servoMeasurement off mpd => Sys2Proof.Machine.execServoMeasurement off mpd s
  | .sourceQualified => Sys2Proof.Machine.execSourceQualified s
  | .sourceLost => Sys2Proof.Machine.execSourceLost s
  | .integerSecond tj => Sys2Proof.Machine.execIntegerSecond tj s
  | .ppsOutPulseEnd => Sys2Proof.Machine.execPpsOutPulseEnd s
  | .ptpSync m => Sys2Proof.Machine.execPtpSync m s
  | .ptpFollowUp m => Sys2Proof.Machine.execPtpFollowUp m s
  | .ptpDelayReq m => Sys2Proof.Machine.execPtpDelayReq m s
  | .ptpDelayResp m => Sys2Proof.Machine.execPtpDelayResp m s
  | .ptpPdelayReq m => Sys2Proof.Machine.execPtpPdelayReq m s
  | .ptpPdelayResp m => Sys2Proof.Machine.execPtpPdelayResp m s
  | .ptpPdelayRespFollowUp m => Sys2Proof.Machine.execPtpPdelayRespFollowUp m s
  | .ptpAnnounce m a => Sys2Proof.Machine.execPtpAnnounce m a s
  | .ptpSignaling m tlv => Sys2Proof.Machine.execPtpSignaling m tlv s
  | .ptpMessageTx port kind => Sys2Proof.Machine.execPtpMessageTx port kind s
  | .ppsInEdge stamp => Sys2Proof.Machine.execPpsInEdge stamp s
  | .ppsInMissing => Sys2Proof.Machine.execPpsInMissing s
  | .zdaSentence utc ok => Sys2Proof.Machine.execZdaSentence utc ok s
  | .todError => Sys2Proof.Machine.execTodError s
  | .frameRx f held shared => Sys2Proof.Machine.execFrameRx f held shared s
  | .pauseFrame port quanta => Sys2Proof.Machine.execPauseFrame port quanta s
  | .pfcFrame port vec quanta => Sys2Proof.Machine.execPfcFrame port vec quanta s
  | .pauseExpiry port q => Sys2Proof.Machine.execPauseExpiry port q s
  | .lldpRx port tw => Sys2Proof.Machine.execLldpRx port tw s
  | .lldpTx => Sys2Proof.Machine.execLldpTx s
  | .eeeNegotiationExpiry port => Sys2Proof.Machine.execEeeNegotiationExpiry port s
  | .flwRead fn part => Sys2Proof.Machine.execFlwRead fn part s
  | .flwAdd fn part => Sys2Proof.Machine.execFlwAdd fn part s
  | .flwRemove fn part => Sys2Proof.Machine.execFlwRemove fn part s
  | .flwModify fn part => Sys2Proof.Machine.execFlwModify fn part s
  | .keyInstall fn part => Sys2Proof.Machine.execKeyInstall fn part s
  | .keyErase fn part => Sys2Proof.Machine.execKeyErase fn part s
  | .bindingWrite v => Sys2Proof.Machine.execBindingWrite v s
  | .clsSeedWrite v => Sys2Proof.Machine.execClsSeedWrite v s
  | .jbCtrlWrite v => Sys2Proof.Machine.execJbCtrlWrite v s
  | .egressLaunch port => Sys2Proof.Machine.execEgressLaunch port s
  | .txRingProdWrite port v => Sys2Proof.Machine.execTxRingProdWrite port v s
  | .txDescriptorDone port len queue ts stamp lost => Sys2Proof.Machine.execTxDescriptorDone port len queue ts stamp lost s
  | .linkUp port trained fec an => Sys2Proof.Machine.execLinkUp port trained fec an s
  | .linkDown port => Sys2Proof.Machine.execLinkDown port s
  | .anFail port => Sys2Proof.Machine.execAnFail port s
  | .lpiEnter port => Sys2Proof.Machine.execLpiEnter port s
  | .lpiWake port => Sys2Proof.Machine.execLpiWake port s
  | .mgmtFrameRx f => Sys2Proof.Machine.execMgmtFrameRx f s
  | .mgmtCollision late => Sys2Proof.Machine.execMgmtCollision late s
  | .mgmtBackoffExpiry => Sys2Proof.Machine.execMgmtBackoffExpiry s
  | .mdioAddress v => Sys2Proof.Machine.execMdioAddress v s
  | .mdioWrite v => Sys2Proof.Machine.execMdioWrite v s
  | .mdioRead v => Sys2Proof.Machine.execMdioRead v s
  | .mdioDone data => Sys2Proof.Machine.execMdioDone data s
  | .bmbCmd c v => Sys2Proof.Machine.execBmbCmd c v s
  | .bmbDone c n nack arb data => Sys2Proof.Machine.execBmbDone c n nack arb data s
  | .busRecovery c pulses free => Sys2Proof.Machine.execBusRecovery c pulses free s
  | .sclStuck c => Sys2Proof.Machine.execSclStuck c s
  | .modulePresenceChange cage present => Sys2Proof.Machine.execModulePresenceChange cage present s
  | .modInt cage asserted => Sys2Proof.Machine.execModInt cage asserted s
  | .twinLinkUp lanes => Sys2Proof.Machine.execTwinLinkUp lanes s
  | .twinLinkDown => Sys2Proof.Machine.execTwinLinkDown s
  | .pairing peer => Sys2Proof.Machine.execPairing peer s
  | .pairRetry peer => Sys2Proof.Machine.execPairRetry peer s
  | .heartbeatTx => Sys2Proof.Machine.execHeartbeatTx s
  | .heartbeat h => Sys2Proof.Machine.execHeartbeat h s
  | .heartbeatMiss => Sys2Proof.Machine.execHeartbeatMiss s
  | .ingress r => Sys2Proof.Machine.execIngress r s
  | .payloadReq digest => Sys2Proof.Machine.execPayloadReq digest s
  | .payload r f => Sys2Proof.Machine.execPayload r f s
  | .twinOrphan => Sys2Proof.Machine.execTwinOrphan s
  | .horizon t => Sys2Proof.Machine.execHorizon t s
  | .horizonTimeout t => Sys2Proof.Machine.execHorizonTimeout t s
  | .line handle leg samples status => Sys2Proof.Machine.execLine handle leg samples status s
  | .digest handle pass d => Sys2Proof.Machine.execDigest handle pass d s
  | .contextRequest handle => Sys2Proof.Machine.execContextRequest handle s
  | .context handle pass ctx legA legB => Sys2Proof.Machine.execContext handle pass ctx legA legB s
  | .op o => Sys2Proof.Machine.execOp o s
  | .opAck => Sys2Proof.Machine.execOpAck s
  | .step x tick => Sys2Proof.Machine.execStep x tick s
  | .stepAck => Sys2Proof.Machine.execStepAck s
  | .bulk b => Sys2Proof.Machine.execBulk b s
  | .bulkComplete => Sys2Proof.Machine.execBulkComplete s
  | .fenceAssert => Sys2Proof.Machine.execFenceAssert s
  | .fenceRelease => Sys2Proof.Machine.execFenceRelease s
  | .peerActFall => Sys2Proof.Machine.execPeerActFall s
  | .peerActRise => Sys2Proof.Machine.execPeerActRise s
  | .fenceConflict => Sys2Proof.Machine.execFenceConflict s
  | .switchover => Sys2Proof.Machine.execSwitchover s
  | .switchoverBoundary => Sys2Proof.Machine.execSwitchoverBoundary s
  | .detach => Sys2Proof.Machine.execDetach s
  | .attach => Sys2Proof.Machine.execAttach s
  | .spoolDrain p => Sys2Proof.Machine.execSpoolDrain p s
  | .spoolDiscard => Sys2Proof.Machine.execSpoolDiscard s
  | .flashRead => Sys2Proof.Machine.execFlashRead s
  | .flashWrite data => Sys2Proof.Machine.execFlashWrite data s
  | .flashErase => Sys2Proof.Machine.execFlashErase s
  | .calStore data => Sys2Proof.Machine.execCalStore data s
  | .format => Sys2Proof.Machine.execFormat s
  | .xfDone err => Sys2Proof.Machine.execXfDone err s
  | .flashPatrol bits days => Sys2Proof.Machine.execFlashPatrol bits days s
  | .grownBad => Sys2Proof.Machine.execGrownBad s
  | .wearLevel spread percent days => Sys2Proof.Machine.execWearLevel spread percent days s
  | .ringOn n => Sys2Proof.Machine.execRingOn n s
  | .ringOff n => Sys2Proof.Machine.execRingOff n s
  | .ringStop n => Sys2Proof.Machine.execRingStop n s
  | .supervisionSample n tip ring cur coarse => Sys2Proof.Machine.execSupervisionSample n tip ring cur coarse s
  | .rangeChange n cur vt vr run => Sys2Proof.Machine.execRangeChange n cur vt vr run s
  | .lineBlankChange high => Sys2Proof.Machine.execLineBlankChange high s
  | .settleEnd n => Sys2Proof.Machine.execSettleEnd n s
  | .resetNext => Sys2Proof.Machine.execResetNext s
  | .resetAt => Sys2Proof.Machine.execResetAt s
  | .syncClu => Sys2Proof.Machine.execSyncClu s
  | .decimatorReset => Sys2Proof.Machine.execDecimatorReset s
  | .lineOperandWrite n samples sats => Sys2Proof.Machine.execLineOperandWrite n samples sats s
  | .lineBind n v => Sys2Proof.Machine.execLineBind n v s
  | .lineModeWrite n v => Sys2Proof.Machine.execLineModeWrite n v s
  | .sceRun => Sys2Proof.Machine.execSceRun s
  | .sceHalt => Sys2Proof.Machine.execSceHalt s
  | .sceTxqPush v => Sys2Proof.Machine.execSceTxqPush v s
  | .sceRxqPop => Sys2Proof.Machine.execSceRxqPop s
  | .scePmWrite v => Sys2Proof.Machine.execScePmWrite v s
  | .sceNop => Sys2Proof.Machine.execSceNop s
  | .scePop => Sys2Proof.Machine.execScePop s
  | .sceLdi => Sys2Proof.Machine.execSceLdi s
  | .sceShift sdi => Sys2Proof.Machine.execSceShift sdi s
  | .scePush => Sys2Proof.Machine.execScePush s
  | .sceGap => Sys2Proof.Machine.execSceGap s
  | .sceJmp => Sys2Proof.Machine.execSceJmp s
  | .sceJqe => Sys2Proof.Machine.execSceJqe s
  | .sceHaltInstr => Sys2Proof.Machine.execSceHaltInstr s
  | .drvReadyLow bits => Sys2Proof.Machine.execDrvReadyLow bits s
  | .drvReadyRise sdi => Sys2Proof.Machine.execDrvReadyRise sdi s
  | .stallTimeout => Sys2Proof.Machine.execStallTimeout s
  | .clusterSyncPulse stamp frac => Sys2Proof.Machine.execClusterSyncPulse stamp frac s
  | .pulseMiss => Sys2Proof.Machine.execPulseMiss s
  | .sync nt servo cls trace seq => Sys2Proof.Machine.execSync nt servo cls trace seq s
  | .poll w => Sys2Proof.Machine.execPoll w s
  | .status w servo role offset fault => Sys2Proof.Machine.execStatus w servo role offset fault s
  | .cluStep x q => Sys2Proof.Machine.execCluStep x q s
  | .cluMessageTx => Sys2Proof.Machine.execCluMessageTx s
  | .helloTx => Sys2Proof.Machine.execHelloTx s
  | .hello port addr id => Sys2Proof.Machine.execHello port addr id s
  | .neighbourLoss port addr => Sys2Proof.Machine.execNeighbourLoss port addr s
  | .routeTx => Sys2Proof.Machine.execRouteTx s
  | .route port src entries => Sys2Proof.Machine.execRoute port src entries s
  | .routeExpiry dst => Sys2Proof.Machine.execRouteExpiry dst s
  | .trunk port stamp t => Sys2Proof.Machine.execTrunk port stamp t s
  | .trunkBind v => Sys2Proof.Machine.execTrunkBind v s
  | .partitionOpen p v => Sys2Proof.Machine.execPartitionOpen p v s
  | .partitionClose p v => Sys2Proof.Machine.execPartitionClose p v s
  | .quotaWrite p off v => Sys2Proof.Machine.execQuotaWrite p off v s
  | .egressWindowWrite p port v => Sys2Proof.Machine.execEgressWindowWrite p port v s
  | .prgLoad fn part => Sys2Proof.Machine.execPrgLoad fn part s
  | .prgLoadComplete part id image crcOk dmaOk => Sys2Proof.Machine.execPrgLoadComplete part id image crcOk dmaOk s
  | .prgUnload fn part => Sys2Proof.Machine.execPrgUnload fn part s
  | .prgQuery fn part => Sys2Proof.Machine.execPrgQuery fn part s
  | .imageRestore part id ue => Sys2Proof.Machine.execImageRestore part id ue s
  | .por straps => Sys2Proof.Machine.execPor straps s
  | .warmReset straps => Sys2Proof.Machine.execWarmReset straps s
  | .perstAssert => Sys2Proof.Machine.execPerstAssert s
  | .perstDeassert => Sys2Proof.Machine.execPerstDeassert s
  | .pfReady => Sys2Proof.Machine.execPfReady s
  | .boot b => Sys2Proof.Machine.execBoot b s
  | .recoveryGo v img => Sys2Proof.Machine.execRecoveryGo v img s
  | .rollbackCommit v => Sys2Proof.Machine.execRollbackCommit v s
  | .pwrService => Sys2Proof.Machine.execPwrService s
  | .pwrDormant => Sys2Proof.Machine.execPwrDormant s
  | .pwrWake pat => Sys2Proof.Machine.execPwrWake pat s
  | .pwrReset => Sys2Proof.Machine.execPwrReset s
  | .releaseMem => Sys2Proof.Machine.execReleaseMem s
  | .powerFail => Sys2Proof.Machine.execPowerFail s
  | .flushComplete => Sys2Proof.Machine.execFlushComplete s
  | .debugSubmit v valid => Sys2Proof.Machine.execDebugSubmit v valid s
  | .agingRead percent => Sys2Proof.Machine.execAgingRead percent s
  | .interruptEntry core => Sys2Proof.Machine.execInterruptEntry core s
  | .budgetAbort core => Sys2Proof.Machine.execBudgetAbort core s
  | .dmaComplete core => Sys2Proof.Machine.execDmaComplete core s
  | .nop core => Sys2Proof.Machine.execNop core s
  | .add core => Sys2Proof.Machine.execAdd core s
  | .sub core => Sys2Proof.Machine.execSub core s
  | .cmp core => Sys2Proof.Machine.execCmp core s
  | .andI core => Sys2Proof.Machine.execAndI core s
  | .orI core => Sys2Proof.Machine.execOrI core s
  | .xor core => Sys2Proof.Machine.execXor core s
  | .notI core => Sys2Proof.Machine.execNotI core s
  | .neg core => Sys2Proof.Machine.execNeg core s
  | .abs core => Sys2Proof.Machine.execAbs core s
  | .min core => Sys2Proof.Machine.execMin core s
  | .max core => Sys2Proof.Machine.execMax core s
  | .ash core => Sys2Proof.Machine.execAsh core s
  | .lsh core => Sys2Proof.Machine.execLsh core s
  | .div core => Sys2Proof.Machine.execDiv core s
  | .mov core => Sys2Proof.Machine.execMov core s
  | .mva core => Sys2Proof.Machine.execMva core s
  | .acrd core => Sys2Proof.Machine.execAcrd core s
  | .acwr core => Sys2Proof.Machine.execAcwr core s
  | .acset core => Sys2Proof.Machine.execAcset core s
  | .acclr core => Sys2Proof.Machine.execAcclr core s
  | .acsh core => Sys2Proof.Machine.execAcsh core s
  | .acrnd core => Sys2Proof.Machine.execAcrnd core s
  | .mpyl core => Sys2Proof.Machine.execMpyl core s
  | .fld core => Sys2Proof.Machine.execFld core s
  | .fst core => Sys2Proof.Machine.execFst core s
  | .ldi core => Sys2Proof.Machine.execLdi core s
  | .ldih core => Sys2Proof.Machine.execLdih core s
  | .addi core => Sys2Proof.Machine.execAddi core s
  | .subi core => Sys2Proof.Machine.execSubi core s
  | .cmpi core => Sys2Proof.Machine.execCmpi core s
  | .andi core => Sys2Proof.Machine.execAndi core s
  | .ori core => Sys2Proof.Machine.execOri core s
  | .xori core => Sys2Proof.Machine.execXori core s
  | .ashi core => Sys2Proof.Machine.execAshi core s
  | .lshi core => Sys2Proof.Machine.execLshi core s
  | .ld core => Sys2Proof.Machine.execLd core s
  | .st core => Sys2Proof.Machine.execSt core s
  | .ldh core => Sys2Proof.Machine.execLdh core s
  | .sth core => Sys2Proof.Machine.execSth core s
  | .ldd core => Sys2Proof.Machine.execLdd core s
  | .std core => Sys2Proof.Machine.execStd core s
  | .sta core => Sys2Proof.Machine.execSta core s
  | .cmac core => Sys2Proof.Machine.execCmac core s
  | .cmacj core => Sys2Proof.Machine.execCmacj core s
  | .dmac core => Sys2Proof.Machine.execDmac core s
  | .pmov core => Sys2Proof.Machine.execPmov core s
  | .br core => Sys2Proof.Machine.execBr core s
  | .bri core => Sys2Proof.Machine.execBri core s
  | .call core => Sys2Proof.Machine.execCall core s
  | .calli core => Sys2Proof.Machine.execCalli core s
  | .reti core => Sys2Proof.Machine.execReti core s
  | .callu core => Sys2Proof.Machine.execCallu core s
  | .retu core => Sys2Proof.Machine.execRetu core s
  | .loop core => Sys2Proof.Machine.execLoop core s
  | .loopr core => Sys2Proof.Machine.execLoopr core s
  | .rpt core => Sys2Proof.Machine.execRpt core s
  | .rptr core => Sys2Proof.Machine.execRptr core s
  | .done core => Sys2Proof.Machine.execDone core s
  | .wait core => Sys2Proof.Machine.execWait core s
  | .mbox core => Sys2Proof.Machine.execMbox core s
  | .strm core => Sys2Proof.Machine.execStrm core s
  | .dma core => Sys2Proof.Machine.execDma core s
  | .tarnScrub core dm cs pm => Sys2Proof.Machine.execTarnScrub core dm cs pm s
  | .unitFailure page => Sys2Proof.Machine.execUnitFailure page s
  | .controlCoreRestart core => Sys2Proof.Machine.execControlCoreRestart core s
  | .pcieLinkDown => Sys2Proof.Machine.execPcieLinkDown s
  | .pcieLinkUp speed width => Sys2Proof.Machine.execPcieLinkUp speed width s
  | .configWrite busDev item => Sys2Proof.Machine.execConfigWrite busDev item s
  | .readLowHalf fn off => Sys2Proof.Machine.execReadLowHalf fn off s
  | .challengeRead => Sys2Proof.Machine.execChallengeRead s
  | .lateMaxRead => Sys2Proof.Machine.execLateMaxRead s
  | .mgmtLinkChange up speed half => Sys2Proof.Machine.execMgmtLinkChange up speed half s
  | .laneFallback lanes => Sys2Proof.Machine.execLaneFallback lanes s
  | .linkFrameError => Sys2Proof.Machine.execLinkFrameError s
  | .cluMessageError => Sys2Proof.Machine.execCluMessageError s
  | .spoolCommit => Sys2Proof.Machine.execSpoolCommit s
  | .blankGuardEnd n => Sys2Proof.Machine.execBlankGuardEnd n s

end Sys2Proof.Machine
end

