-- ==== Sys2Proof/Safety.lean ====
section
/-! DEFINITION. What a safe run is and the words claims use: a step that answers a next state, the canonical forms of the stores, which
parts of the device a command may change, and when a Tarn runs on undisturbed. -/
namespace Sys2Proof
open Machine

/-- The step answers a next state. -/
def Completes (s : State) : Prop := ∃ t, step s = .next t

/-- The memories of the device are in canonical form: the Basin, the DRAM, and the three memories of every core. -/
def Machine.memoryWf (d : Dev) : Bool :=
  tabWf (fun _ => 0) d.basin && tabWf (fun _ => 0) d.dram && tabWf regReset d.regs
    && d.tarns.all fun e => tabWf (fun _ => 0) e.2.dm && tabWf (fun _ => 0) e.2.cs && tabWf (fun _ => 0) e.2.pm

/-! ### The Tarn cores -/

/-- Data memory behind the store buffer: what loads of a core read, since pending stores are never missed (R247). -/
def loadsSee (t : Tarn) : Tab Word := drained t.sb t.dm
/-- A word of data memory as a load reads it. -/
def loadWord (t : Tarn) (a : Nat) : Word := tabGet (fun _ => 0) (loadsSee t) a

/-- Nothing ends the next instruction of core `c` early or diverts it: no delay slot and no repeat is in progress, and the counter that
runs, UCNT in user mode and WDOG of a job in supervisor mode, holds more than the 31 cycles an instruction may take (R251, R254). -/
abbrev Steady (c : Nat) (d : Dev) : Prop :=
  (tarn c d).slots = none ∧ (tarn c d).rpt = none ∧
    (if userMode (tarn c d) then 31 < (tr 0x3F (tarn c d)).toNat
     else isControlCore c = true ∨ headJob c d = none ∨ 31 < (tr 0x34 (tarn c d)).toNat)

/-- The command changed nothing but core `c`. -/
def OnlyCore (c : Nat) (s t : State) : Prop :=
  t.pending = s.pending ∧ t.dev = { s.dev with tarns := t.dev.tarns } ∧ ∀ k, k ≠ c → tarn k t.dev = tarn k s.dev

/-- Of the registers of a core, only those listed changed; LC (0x31), WDOG (0x34) and UCNT (0x3F) count with the instruction. -/
def OnlyRegs (l : List Nat) (x y : Tarn) : Prop := ∀ n, n ∉ l → n ≠ 0x31 → n ≠ 0x34 → n ≠ 0x3F → tr n y = tr n x

/-- No memory of the core changed: data memory as loads read it, constant store and program memory. -/
def SameMemory (x y : Tarn) : Prop := (∀ a, loadWord y a = loadWord x a) ∧ y.cs = x.cs ∧ y.pm = x.pm

end Sys2Proof
end

