-- ==== Sys2Proof/Certificates/Slice0/Obligations.lean ====
section
/-! DEFINITION. The statements for the provers, in the terms of the spec's rules, and the words they share. -/
open Sys2Proof Sys2Proof.Machine

namespace Sys2Proof
/-! ### What every statement says of the rest of the device -/
/-- The device became `d`, beside what raising a cause writes: page headers, messages owed, the log of what left the device, and the records
of the fault ring with the journal's copy. -/
def Became (d : Dev) (s t : State) : Prop :=
  t.pending = s.pending ∧ t.dev = { d with
    pages := t.dev.pages, raised := t.dev.raised, hif := { d.hif with msgs := t.dev.hif.msgs }, outbox := t.dev.outbox, rings := t.dev.rings, flash := t.dev.flash }

/-- The cause of a page stands. -/
def CauseUp (pg b : Nat) (t : State) : Prop := bit (hdr pg t.dev).cause b = true

/-- The host reaches the device: PERST_N is high, the link trained and the PF ready (R435). -/
abbrev HostUp (d : Dev) : Prop := d.hif.perst = false ∧ d.hif.linkUp = true ∧ d.hif.pfReady = true

/-- The function exists and the host reaches it (R37). -/
abbrev Reaches (fn : Nat) (d : Dev) : Prop := HostUp d ∧ fnExists d fn = true

/-- The bytes of DRAM at an address as one little-endian number (R12). -/
def dramBytesAt (a n : Nat) (d : Dev) : Nat := ((List.range n).map fun k => (dramRead (a + k) d).toNat * 256 ^ k).sum

/-- The entry of the posted-error FIFO for an access of `size` bytes at an address of a function's BAR (R63). -/
def errEntry (fn code bar addr size : Nat) (d : Dev) : PErr :=
  ⟨BitVec.ofNat 16 (d.hif.pfRid.toNat + fn), BitVec.ofNat 4 code, BitVec.ofNat 4 bar, byteEnables addr size, BitVec.ofNat 64 addr, now d⟩

/-- The access is logged in HIF_POSTED_ERR, of which 8 entries fit, and in nothing else but `d` (R63): POSTED_ERR rises, or OVF advances up to
0xFFFF and POSTED_ERR_OVF rises. -/
def Logged (fn code bar addr size : Nat) (d : Dev) (s t : State) : Prop :=
  if s.dev.hif.perr.length < 8 then
    Became { d with hif := { d.hif with perr := s.dev.hif.perr ++ [errEntry fn code bar addr size s.dev] } } s t ∧ CauseUp 0 1 t
  else Became { d with hif := { d.hif with ovf := if s.dev.hif.ovf = 0xFFFF then 0xFFFF else s.dev.hif.ovf + 1 } } s t ∧ CauseUp 0 2 t

/-- The posted write is rejected: discarded, logged with its reason, and counted in VFA_WR_DROP of the VF it came from (R63). -/
def Rejected (fn code bar addr size : Nat) (s t : State) : Prop :=
  Logged fn code bar addr size { s.dev with regs := t.dev.regs } s t ∧ (∀ k, k ≠ kVfa fn oVFA_WR_DROP ∨ fn = 0 → rg k t.dev = rg k s.dev) ∧
    (fn ≠ 0 → rgN (kVfa fn oVFA_WR_DROP) t.dev = (rgN (kVfa fn oVFA_WR_DROP) s.dev + 1) % 2 ^ 32)

/-- Only registers changed, and of these only those listed. -/
def OnlyRegisters (l : List Nat) (s t : State) : Prop :=
  t.pending = s.pending ∧ t.dev = { s.dev with regs := t.dev.regs } ∧ ∀ k, k ∉ l → rg k t.dev = rg k s.dev

/-- Of the registers, only those listed changed. -/
def RegsKept (l : List Nat) (s t : State) : Prop := ∀ k, k ∉ l → rg k t.dev = rg k s.dev

/-- Only the header of a page changed; the interrupt line may follow it. -/
def OnlyHeader (pg : Nat) (h : Hdr) (s t : State) : Prop :=
  t.pending = s.pending ∧ t.dev = { s.dev with pages := t.dev.pages, outbox := t.dev.outbox } ∧ hdr pg t.dev = h ∧
    ∀ q, q ≠ pg → hdr q t.dev = hdr q s.dev

/-- Only one ring changed. -/
def OnlyRing (k : Nat) (r : Ring) (s t : State) : Prop :=
  t.pending = s.pending ∧ t.dev = { s.dev with rings := t.dev.rings } ∧ ring k t.dev = r ∧ ∀ q, q ≠ k → ring q t.dev = ring q s.dev

/-- One step takes the command at the front of the queue, runs it with the rest of the queue, and answers its outcome; with no command
waiting it changes nothing. -/
def StepTakesTheFront : Prop :=
  (∀ (c : Instr) (s : State) (rest : List Instr), s.pending = c :: rest → step s = exec c { s with pending := rest }) ∧
  ∀ s : State, s.pending = [] → step s = .next s

/-- Every command answers a next state from every state, and leaves the queue as it is. -/
def EveryCommandCompletes : Prop := ∀ (c : Instr) (s : State), ∃ d : Dev, exec c s = .next { s with dev := d }

end Sys2Proof
/-- One step takes the command at the front of the queue, runs it with the rest of the queue, and answers its outcome; with no command waiting it
changes nothing. Every command answers a next state from every state, and leaves the queue as it is. -/
def Obligations.StepRunsTheFrontCommand : Prop := StepTakesTheFront ∧ EveryCommandCompletes

namespace Sys2Proof
/-! ### The Tarn cores -/
/-- Core `c` executes next instruction `i`, an `op`, and nothing ends it early (the words of R229 to R251 say when it does). -/
abbrev Next (c : Nat) (op : TOp) (i : TI) (s : State) : Prop := fetchTarn c op s.dev = .ok i ∧ Steady c s.dev

/-- The core as the instruction it issues sees it: every write hidden from it is one instruction older (R229). -/
def issuing (c : Nat) (s : State) : Tarn := ageAll (tarn c s.dev)

/-- The command completes as the instruction's own effect: only core `c` changed, of its registers only those listed, no memory. -/
def Computes (c : Nat) (regs : List Nat) (s t : State) : Prop :=
  OnlyCore c s t ∧ OnlyRegs regs (tarn c s.dev) (tarn c t.dev) ∧ SameMemory (tarn c s.dev) (tarn c t.dev)

/-- An integer in a two's-complement width: kept when it fits, else clipped under SAT and wrapped without (R237, R238). -/
def clipped (w : Nat) (sat : Bool) (x : Int) : BitVec w :=
  if -(2 ^ (w - 1)) ≤ x ∧ x < 2 ^ (w - 1) then BitVec.ofInt w x
  else if sat then (if x < 0 then BitVec.ofInt w (-(2 ^ (w - 1))) else BitVec.ofInt w (2 ^ (w - 1) - 1)) else BitVec.ofInt w x

/-- Does an integer leave a two's-complement width? -/
def leaves (w : Nat) (x : Int) : Bool := !decide (-(2 ^ (w - 1)) ≤ x ∧ x < 2 ^ (w - 1))

/-! ### The pass and the Weir -/
/-- The Weir dispatches: seeded, and the device neither in FAULT nor DORMANT (R106, R444, R445). -/
abbrev WeirWorks (d : Dev) : Prop := d.weir.seeded = true ∧ d.pwr.st ≠ .fault ∧ d.pwr.st ≠ .dormant

/-- The device is no twin's: nothing is forwarded or awaited (R335). -/
abbrev Alone (d : Dev) : Prop := d.twin.role = .alone ∧ d.twin.want = [] ∧ d.twin.atBoundary = [] ∧ d.twin.handover = none

/-- Only the Weir, registers and cores changed, beside what raising a cause writes. -/
def WeirBecame (w : Weir) (s t : State) : Prop := Became { s.dev with weir := w, regs := t.dev.regs, tarns := t.dev.tarns, frozen := t.dev.frozen } s t

/-- The counter at a key advances by `n`, modulo 2³² (R136). -/
def Counts (k n : Nat) (s t : State) : Prop := rgN k t.dev = (rgN k s.dev + n) % 2 ^ 32

/-! ### The host interface -/
/-- Register writes the device rejects (R46, R63, R471): a width or an alignment not permitted, a page or an offset that is reserved, the second half
of a 64-bit register with no matching latch, an RWL register of a locked page. A write of a read-only register is discarded and not
flagged. -/
def RejectedRegisterWrites : Prop :=
  ∀ (s : State) (fn off size : Nat) (v : W64) (w : W32) (row : RegRow), Reaches fn s.dev → off < barBytes fn →
    let pg := pageOf fn (off / 0x1000)
    let o := off % 0x1000
    let rejected (cmd : Instr) (code n : Nat) : Prop := ∃ t, exec cmd s = .next t ∧ Rejected fn code 0 off n s t
    (size ≠ 4 ∧ size ≠ 8 ∨ off % size ≠ 0 → rejected (.registerWrite fn off size v) 4 size) ∧
    (size = 4 ∨ size = 8 → off % size = 0 → hasPage fn (off / 0x1000) s.dev = false → rejected (.registerWrite fn off size v) 2 size) ∧
    (off % 4 = 0 → hasPage fn (off / 0x1000) s.dev = true → 0x40 ≤ o →
      (findRow pg o = none → findRow pg (o - 4) = none → rejected (.registerWrite fn off 4 v) 2 4) ∧
      (findRow pg o = none → findRow pg (o - 4) = some row → row.width = 64 →
        (tabGet (fun _ => none) s.dev.hif.wLatch fn).map Prod.fst ≠ some (off - 4) → rejected (.writeHighHalf fn off w) 4 4) ∧
      (findRow pg o = some row → row.width = 32 → laneless pg s.dev = false →
        (row.acc = .ro → exec (.registerWrite fn off 4 v) s = .next s) ∧
        (row.acc = .rwl → (hdr pg s.dev).locked = true → rejected (.registerWrite fn off 4 v) 1 4)))

/-- Register writes the device performs: HIF_DRAM_WIN of an unlocked page takes BASE and ignores the reserved bits, a 64-bit register takes an aligned
64-bit write whole, the low half of a 64-bit register goes into the function's latch and changes no register, and the high half after it
writes the whole register as an aligned 64-bit write would, the latch empty then; reads of a low half latch the high half (R46, R49, R471). -/
def PerformedRegisterAccesses : Prop :=
  ∀ (s : State) (fn off : Nat) (v : W64) (w low : W32) (row : RegRow), Reaches fn s.dev → off < barBytes fn →
    let pg := pageOf fn (off / 0x1000)
    let o := off % 0x1000
    ((hdr 0 s.dev).locked = false → fn = 0 →
      ∃ t, exec (.registerWrite 0 0x48 4 v) s = .next t ∧ OnlyRegisters [rHIF_DRAM_WIN] s t ∧ rgN rHIF_DRAM_WIN t.dev = fld v 4 0) ∧
    (fn = 0 → ∃ t, exec (.registerWrite 0 rFLASH_XF_HOST 8 v) s = .next t ∧ OnlyRegisters [rFLASH_XF_HOST] s t ∧ rg rFLASH_XF_HOST t.dev = v) ∧
    (fn = 0 → tabGet (fun _ => none) s.dev.hif.wLatch 0 = some (rFLASH_XF_HOST, low) → ∃ t, exec (.writeHighHalf 0 (rFLASH_XF_HOST + 4) w) s = .next t ∧
      OnlyRegisters [rFLASH_XF_HOST] { s with dev := { s.dev with hif := { s.dev.hif with wLatch := tabSet (fun _ => none) s.dev.hif.wLatch 0 none } } } t ∧
      rg rFLASH_XF_HOST t.dev = w ++ low) ∧
    (off % 4 = 0 → hasPage fn (off / 0x1000) s.dev = true → 0x40 ≤ o → findRow pg o = some row → row.width = 64 →
      (exec (.writeLatchLow fn off w) s = .next { s with dev := { s.dev with hif := { s.dev.hif with
        wLatch := tabSet (fun _ => none) s.dev.hif.wLatch fn (some (off, w)) } } }) ∧
      (findRow pg (o + 4) = none → o + 4 < 0x1000 → off % 8 = 0 → tabGet (fun _ => none) s.dev.hif.wLatch fn = some (off, low) →
        laneless pg s.dev = false → row.acc ≠ .rwl ∨ (hdr pg s.dev).locked = false →
        exec (.writeHighHalf fn (off + 4) w) s = exec (.registerWrite fn off 8 (w ++ low)) { s with dev := { s.dev with hif := { s.dev.hif with
          wLatch := tabSet (fun _ => none) s.dev.hif.wLatch fn none } } }) ∧
      (pg * 0x1000 + o ≠ rSCE_RXQ →
        let x := regValue pg o row s.dev
        exec (.readLowHalf fn off) s = .next { s with dev := { s.dev with
          hif := { s.dev.hif with rLatch := tabSet (fun _ => none) s.dev.hif.rLatch fn (some (canonKey pg o, BitVec.ofNat 32 (x / 2 ^ 32))) },
          outbox := .readReply fn 0 off 4 (x % 2 ^ 32) :: s.dev.outbox } }))

end Sys2Proof
/-- Register writes the device rejects (R46, R63, R471): a width or an alignment not permitted, a page or an offset that is reserved, the second half
of a 64-bit register with no matching latch, an RWL register of a locked page. A write of a read-only register is discarded and not flagged.
Register writes the device performs: HIF_DRAM_WIN of an unlocked page takes BASE and ignores the reserved bits, a 64-bit register takes an
aligned 64-bit write whole, the low half of a 64-bit register goes into the function's latch and changes no register, and the high half after it
writes the whole register as an aligned 64-bit write would, the latch empty then; reads of a low half latch the high half (R46, R49, R471). -/
def Obligations.RegisterAccesses : Prop := RejectedRegisterWrites ∧ PerformedRegisterAccesses
/-- The word window (R41, R42, R46): Basin words written and read whole, read by halves; DRAM bytes through HIF_DRAM_WIN; reserved space reads 0 and
rejects writes; a width or an alignment not permitted rejects the write, and a read of it answers zeros and is logged. -/
def Obligations.WordWindow : Prop :=
  ∀ (s : State) (off : Nat) (v : W64) (n : Nat), HostUp s.dev → off < 2 ^ 32 →
    let a := rgN rHIF_DRAM_WIN s.dev * 2 ^ 31 + (off - 0x80000000)
    let replies (cmd : Instr) (bar n x : Nat) : Prop :=
      exec cmd s = .next { s with dev := { s.dev with outbox := .readReply 0 bar off n x :: s.dev.outbox } }
    (off < 0x18000000 → off % 8 = 0 →
      (∃ t, exec (.bar2Write off 8 v) s = .next t ∧ t.pending = s.pending ∧
        t.dev = { s.dev with basin := t.dev.basin, slots := t.dev.slots, fresh := t.dev.fresh } ∧
        ∀ k, basinRead k t.dev = if k = off / 8 then v.extractLsb' 0 36 else basinRead k s.dev) ∧
      replies (.bar2Read off 8) 2 8 (basinRead (off / 8) s.dev).toNat) ∧
    (off < 0x18000000 → off % 4 = 0 → replies (.bar2Read off 4) 2 4 ((basinRead (off / 8) s.dev).toNat / 2 ^ (8 * (off % 8)) % 2 ^ 32)) ∧
    (n = 4 ∨ n = 8 → off % n = 0 → 0x80000000 ≤ off → a + n ≤ dramBytes s.dev →
      (∃ t, exec (.bar2Write off n v) s = .next t ∧ t.pending = s.pending ∧ t.dev = { s.dev with dram := t.dev.dram } ∧
        ∀ k, dramRead k t.dev = if a ≤ k ∧ k < a + n then BitVec.ofNat 8 (v.toNat >>> (8 * (k - a))) else dramRead k s.dev) ∧
      replies (.bar2Read off n) 2 n (dramBytesAt a n s.dev)) ∧
    (n = 4 ∨ n = 8 → off % n = 0 → 0x18000000 ≤ off → off < 0x80000000 ∨ dramBytes s.dev ≤ a →
      (∃ t, exec (.bar2Write off n v) s = .next t ∧ Rejected 0 2 2 off n s t) ∧ replies (.bar2Read off n) 2 n 0) ∧
    (n ≠ 4 ∧ n ≠ 8 ∨ off % n ≠ 0 →
      (∃ t, exec (.bar2Write off n v) s = .next t ∧ Rejected 0 4 2 off n s t) ∧
      (∃ t, exec (.unalignedRead 0 2 off n) s = .next t ∧ Logged 0 4 2 off n s.dev s t ∧ t.dev.outbox.head? = some (.readReply 0 2 off n 0))) ∧
    (off < 0x18000000 → off % 4 = 0 → ∃ t, exec (.bar2Write off 4 v) s = .next t ∧ Rejected 0 4 2 off 4 s t)

namespace Sys2Proof
/-- Page headers (R43 to R45, R60, R61): each 1 of a PG_FORCE write raises its cause, and where PG_FIRST is not valid the lowest of those that set is
recorded with NT32; a PG_CAUSE write clears the bits it names, and clearing the UNIT_FAULT of a PF page offers a record; PG_FIRST's VALID and
PG_FOLD's COUNT clear; PG_LOCK locks. -/
def PageHeaders : Prop :=
  ∀ (s : State) (fn page : Nat) (v : W32), Reaches fn s.dev → hasPage fn page s.dev = true →
    let pg := pageOf fn page
    let h := hdr pg s.dev
    let w := v &&& causeMask pg
    (∃ t, exec (.causeForce fn page v) s = .next t ∧ Became s.dev s t ∧ (∀ b, bit w b = true → CauseUp pg b t) ∧
      (∀ b, bit h.cause b = true → CauseUp pg b t) ∧
      (bit h.first 31 = false → w &&& ~~~h.cause ≠ 0 → ∀ b, bit (w &&& ~~~h.cause) b = true → (∀ k, k < b → bit (w &&& ~~~h.cause) k = false) →
        (hdr pg t.dev).first = BitVec.ofNat 32 (2 ^ 31 + b) ∧ (hdr pg t.dev).firstTime = now s.dev)) ∧
    (bit v 0 = false ∨ bit h.cause 0 = false ∨ 0x200 ≤ pg →
      ∃ t, exec (.causeClear fn page v) s = .next t ∧ OnlyHeader pg { h with cause := h.cause &&& ~~~v } s t) ∧
    (bit v 0 = true → bit h.cause 0 = true → pg < 0x200 →
      ∃ t, exec (.causeClear fn page v) s = .next t ∧ Became s.dev s t ∧ faulted pg t.dev = false ∧ (hdr pg t.dev).folded = 0) ∧
    (∃ t, exec (.pgFirstClear fn page) s = .next t ∧ OnlyHeader pg { h with first := h.first &&& 0x7FFFFFFF } s t) ∧
    (∃ t, exec (.pgFoldClear fn page v) s = .next t ∧ OnlyHeader pg { h with fold := h.fold &&& ~~~(v &&& 0x7FFFFFFF) } s t) ∧
    (∃ t, exec (.pageLock fn page) s = .next t ∧ OnlyHeader pg { h with locked := true } s t)

/-- SOFT_RESET of a page (R43, R45): rejected LOCKED on a locked page, no field changing; otherwise the header is at its reset values with BLK, FREEZE
and ENABLE as written, and each block register that reports no live state at its reset value, in the pages whose unit has nothing else to
reset. -/
def SoftReset : Prop :=
  ∀ (s : State) (fn page : Nat) (v : W32), Reaches fn s.dev → hasPage fn page s.dev = true →
    let pg := pageOf fn page
    ((hdr pg s.dev).locked = true → ∃ t, exec (.softReset fn page v) s = .next t ∧ Rejected fn 1 0 (page * 0x1000 + 8) 4 s t) ∧
    (softRefusal pg s.dev = none → bit v 1 = true →
      ∃ t, exec (.softReset fn page v) s = .next t ∧ t.pending = s.pending ∧
        hdr pg t.dev = { Hdr.reset with ctrl := v &&& 0xFF000005 } ∧
        (0x90 ≤ pg → pg < 0x100 → t.dev.rings = s.dev.rings ∨ faulted pg s.dev = true) ∧
        (0x90 ≤ pg → pg < 0x100 → ∀ k, inPage pg k = true → keptAt pg k = false → rg k t.dev = regReset k) ∧
        (0x90 ≤ pg → pg < 0x100 → ∀ k, inPage pg k = false → rg k t.dev = rg k s.dev))

end Sys2Proof
/-- Page headers (R43 to R45, R60, R61): each 1 of a PG_FORCE write raises its cause, and where PG_FIRST is not valid the lowest of those that set is
recorded with NT32; a PG_CAUSE write clears the bits it names, and clearing the UNIT_FAULT of a PF page offers a record; PG_FIRST's VALID and
PG_FOLD's COUNT clear; PG_LOCK locks. SOFT_RESET of a page (R43, R45): rejected LOCKED on a locked page, no field changing; otherwise the header
is at its reset values with BLK, FREEZE and ENABLE as written, and each block register that reports no live state at its reset value, in the
pages whose unit has nothing else to reset. -/
def Obligations.HeadersAndSoftReset : Prop := PageHeaders ∧ SoftReset

namespace Sys2Proof
/-- Rings (R51 to R53, R55): enabling zeroes PROD, CONS, SEQ, the write count and the drops not reported, and DROP stays; a size outside 6 to 15 is
refused RANGE; disabling; CONS; a record offered to a ring with room is one posted write of 64 bytes at slot PROD mod size, a LOSS record with
the drop count before the first after drops; a record offered to a full or a disabled ring consumes its SEQ and advances DROP. -/
def Rings : Prop :=
  ∀ (s : State) (fn part r typ : Nat) (v handle : W32) (b : BitVec 416),
    let p := winPart fn part
    let k := ringKey p r
    let q := ring k s.dev
    let rec64 (seq : BitVec 16) (writes typ : Nat) (nt : NT32) (h : W32) (body : Nat) : Nat :=
      seq.toNat + typ * 2 ^ 16 + (if Nat.testBit writes q.sizeLog2 then 0 else 2 ^ 24) + nt.toNat * 2 ^ 32 + h.toNat * 2 ^ 64 + body * 2 ^ 96
    let slot (prod : W32) : Nat := q.base.toNat + 64 * (prod.toNat % 2 ^ q.sizeLog2)
    let room := 2 ^ q.sizeLog2 - (q.prod - q.cons).toNat
    (Reaches fn s.dev → p < 1024 → r < 3 ∨ p = 0 ∧ r = 3 →
      (6 ≤ q.sizeLog2 → q.sizeLog2 ≤ 15 → q.enable = false → ∃ t, exec (.ringEnable fn part r) s = .next t ∧
        OnlyRing k { q with enable := true, prod := 0, cons := 0, seq := 0, writes := 0, lost := 0, lostFirst := 0, lostLast := 0 } s t) ∧
      (q.sizeLog2 < 6 ∨ 15 < q.sizeLog2 → ∃ t addr, exec (.ringEnable fn part r) s = .next t ∧ Rejected fn 6 0 addr 4 s t) ∧
      (∃ t, exec (.ringDisable fn part r) s = .next t ∧ OnlyRing k { q with enable := false } s t) ∧
      ((q.prod - v).toNat ≤ 2 ^ q.sizeLog2 → ∃ t, exec (.ringConsWrite fn part r v) s = .next t ∧ OnlyRing k { q with cons := v } s t) ∧
      (2 ^ q.sizeLog2 < (q.prod - v).toNat → ∃ t addr, exec (.ringConsWrite fn part r v) s = .next t ∧ Rejected fn 6 0 addr 4 s t)) ∧
    (fn = 0 → part < 1024 → r < 3 ∨ part = 0 ∧ r = 3 → s.dev.twin.role ≠ .standby ∧ s.dev.twin.role ≠ .pairing ∨ part = 0 → part = 0 ∨ handle = 0 ∨ hPart handle = part → typ < 256 →
      (q.enable = true → q.lost = 0 → 1 ≤ room →
        ∃ t, exec (.ringRecordOffer part r typ handle b) s = .next t ∧ Became s.dev s t ∧
          ring k t.dev = { q with prod := q.prod + 1, seq := q.seq + 1, writes := q.writes + 1 } ∧ (∀ j, j ≠ k → ring j t.dev = ring j s.dev) ∧
          .hostWrite (ridPart s.dev part) (slot q.prod) 64 (rec64 q.seq q.writes typ (now s.dev) handle b.toNat) ∈ t.dev.outbox) ∧
      (q.enable = true → q.lost ≠ 0 → 2 ≤ room →
        ∃ t, exec (.ringRecordOffer part r typ handle b) s = .next t ∧ Became s.dev s t ∧
          ring k t.dev = { q with prod := q.prod + 2, seq := q.seq + 2, writes := q.writes + 2, lost := 0, lostFirst := 0, lostLast := 0 } ∧
          .hostWrite (ridPart s.dev part) (slot q.prod) 64
            (rec64 q.seq q.writes 2 q.lostFirst 0 (q.lost.toNat + q.lostLast.toNat * 2 ^ 32)) ∈ t.dev.outbox ∧
          .hostWrite (ridPart s.dev part) (slot (q.prod + 1)) 64
            (rec64 (q.seq + 1) (q.writes + 1) typ (now s.dev) handle b.toNat) ∈ t.dev.outbox) ∧
      (q.enable = false → ∃ t, exec (.ringRecordOffer part r typ handle b) s = .next t ∧ Became s.dev s t ∧
        ring k t.dev = { q with seq := q.seq + 1, drop := q.drop + 1 } ∧ ∀ j, j ≠ k → ring j t.dev = ring j s.dev) ∧
      (q.enable = true → room < (if q.lost = 0 then 1 else 2) → ∃ t, exec (.ringRecordOffer part r typ handle b) s = .next t ∧ Became s.dev s t ∧
        ring k t.dev = { q with
          seq := q.seq + 1, drop := q.drop + 1, lost := q.lost + 1, lostFirst := if q.lost = 0 then now s.dev else q.lostFirst, lostLast := now s.dev } ∧ ∀ j, j ≠ k → ring j t.dev = ring j s.dev))

/-- Attention and the posted-error FIFO (R58, R63): 1 to bit 0 of an EOI register owes a message while the summary is nonzero, and changes nothing
otherwise; the message owed is sent, or waits in the PBA bit while the vector is masked; HIF_PERR_POP removes the head entry or clears OVF. -/
def MessagesAndErrors : Prop :=
  ∀ (s : State) (fn : Nat) (v : W32) (m : Nat × NT32),
    let h := s.dev.hif
    (Reaches fn s.dev → bit v 0 = true → attention s.dev fn = true →
      exec (.eoi fn v) s = .next { s with dev := { s.dev with hif := { h with msgs := h.msgs ++ [(fn, now s.dev)] } } }) ∧
    (Reaches fn s.dev → bit v 0 = false ∨ attention s.dev fn = false → exec (.eoi fn v) s = .next s) ∧
    (h.msgs.find? (fun x => decide (x.1 = fn)) = some m → tabGet (fun _ => false) h.masked fn = false →
      exec (.msixMessage fn) s = .next { s with dev := { s.dev with hif := { h with msgs := h.msgs.erase m }, outbox := .msix fn :: s.dev.outbox } }) ∧
    (h.msgs.find? (fun x => decide (x.1 = fn)) = some m → tabGet (fun _ => false) h.masked fn = true →
      exec (.msixMessage fn) s = .next { s with dev := { s.dev with hif := { h with
        msgs := h.msgs.erase m, pba := tabSet (fun _ => false) h.pba fn true } } }) ∧
    (HostUp s.dev → exec .perrPop s = .next { s with dev := { s.dev with hif := { h with perr := h.perr.tail } } }) ∧
    (HostUp s.dev → exec .perrOvfClear s = .next { s with dev := { s.dev with hif := { h with ovf := 0 } } })

end Sys2Proof
/-- Rings (R51 to R53, R55): enabling zeroes PROD, CONS, SEQ, the write count and the drops not reported, and DROP stays; a size outside 6 to 15 is
refused RANGE; disabling; CONS; a record offered to a ring with room is one posted write of 64 bytes at slot PROD mod size, a LOSS record with
the drop count before the first after drops; a record offered to a full or a disabled ring consumes its SEQ and advances DROP. Attention and the
posted-error FIFO (R58, R63): 1 to bit 0 of an EOI register owes a message while the summary is nonzero, and changes nothing otherwise; the
message owed is sent, or waits in the PBA bit while the vector is masked; HIF_PERR_POP removes the head entry or clears OVF. -/
def Obligations.RingsAndMessages : Prop := Rings ∧ MessagesAndErrors

namespace Sys2Proof
/-- An operation of a channel window starts (R65, R66): BUSY, with the handle, the staged descriptor and the target as the window holds them; while one
is in progress the write is rejected, reason BUSY. -/
def ChannelOperationStarts : Prop :=
  ∀ (s : State) (fn part op : Nat) (a : Bool) (cmd : Instr), Reaches fn s.dev → winPart fn part < 1024 →
    (op, a, cmd) ∈ [(1, false, Instr.chwRead fn part), (2, false, .chwWrite fn part), (3, a, .activate fn part a), (4, a, .chwRelease fn part a),
      (5, false, .modifyAt fn part)] →
    let p := winPart fn part
    (tabGet (fun _ => none) s.dev.chw p = none → ∃ t o, exec cmd s = .next t ∧ t.pending = s.pending ∧ t.dev = { s.dev with chw := t.dev.chw } ∧
      tabGet (fun _ => none) t.dev.chw p = some o ∧ o.op = op ∧ o.at_ = a ∧ o.startAt = now s.dev ∧ o.startP = s.dev.weir.nextP ∧ o.desc.length = 64 ∧
      o.handle.toNat = rgN (kWin p 1 oCHW_SEL) s.dev % 2 ^ 32 ∧
      (∀ i, i < 64 → i ≠ 39 → (o.desc.getD i 0).toNat = rgN (kWin p 1 (oCHW_DESC + 4 * i)) s.dev % 2 ^ 32) ∧
      o.target = (if a = true ∨ op = 5 then some ((rg (kWin p 1 oCHW_AT) s.dev).extractLsb' 0 32) else none) ∧
      ∀ q, q ≠ p → tabGet (fun _ => none) t.dev.chw q = tabGet (fun _ => none) s.dev.chw q) ∧
    (∀ o, tabGet (fun _ => none) s.dev.chw p = some o →
      ∃ t, exec cmd s = .next t ∧ Rejected fn 5 0 (winAddr fn part 1 oCHW_OP) 4 s t)

/-- An operation of a channel window completes, on a device that is no twin (R65 to R68, R70, R472). The first refusal of R472 that applies is the
RESULT and nothing changes but the window, a STALE one advancing CHW_STALE. READ copies the descriptor in force. RELEASE of an ACTIVE slot with
nothing pending makes it RELEASING at its boundary. MODIFY_AT and an ACTIVATE that pass every check leave their pending change. -/
def ChannelOperationCompletes : Prop :=
  ∀ (s : State) (p : Nat) (o : ChwOp), p < 1024 → tabGet (fun _ => none) s.dev.chw p = some o → o.op ∈ [1, 2, 3, 4, 5] → paired s.dev = false →
    let k := hSlot o.handle
    let c := slot k s.dev
    let q := if o.at_ = true ∨ o.op = 5 then o.target.getD 0 else nextFor s.dev
    let result (t : State) (r : Nat) : Prop := t.pending = s.pending ∧ tabGet (fun _ => none) t.dev.chw p = none ∧
      fld (rg (kWin p 1 oCHW_STATUS) t.dev) 7 0 = r ∧ (r ≠ 0 ∨ o.op ∉ [2, 3, 5] → t.dev.basin = s.dev.basin) ∧
      (∀ a, (∀ e ∈ t.dev.slots, a / 1024 < 0xA800 ∨ a / 1024 - 0xA800 ∉ e.2.tgranules) → basinRead a t.dev = basinRead a s.dev) ∧ t.dev.rings = s.dev.rings ∧ t.dev.pages = s.dev.pages
    let mine := c.part = p ∧ c.gen.toNat = hGen o.handle
    (o.op ≠ 1 → s.dev.pwr.st ≠ .service → ∃ t, exec (.chwOpComplete p) s = .next t ∧ result t 10 ∧ t.dev.slots = s.dev.slots) ∧
    (o.op ∈ [1, 2, 4, 5] → s.dev.pwr.st = .service ∨ o.op = 1 → isStandby s.dev = false → o.op = 5 ∨ o.op ≠ 1 ∧ o.at_ = true → atOk q o.startP = false →
      ∃ t, exec (.chwOpComplete p) s = .next t ∧ result t 7 ∧ t.dev.slots = s.dev.slots) ∧
    (o.op = 1 → c.st ≠ .free → ¬ mine → ∃ t, exec (.chwOpComplete p) s = .next t ∧ result t 1 ∧ t.dev.slots = s.dev.slots ∧
      rgN (kWin p 1 oCHW_STALE) t.dev = (rgN (kWin p 1 oCHW_STALE) s.dev + 1) % 2 ^ 32) ∧
    (o.op = 1 → mine → c.st = .active → c.desc ≠ [] → ∃ t, exec (.chwOpComplete p) s = .next t ∧ result t 0 ∧ t.dev.slots = s.dev.slots ∧
      ∀ i, i < 64 → i ≠ 39 → rgN (kWin p 1 (oCHW_DESC + 4 * i)) t.dev = (dw c.desc i).toNat) ∧
    (o.op = 4 → o.at_ = false → mine → c.st = .active → c.pend = none → s.dev.pwr.st = .service → isStandby s.dev = false →
      listFull k s.dev (chwApply 4 p k q o.desc s.dev) = false →
      ∃ t, exec (.chwOpComplete p) s = .next t ∧ result t 0 ∧ (slot k t.dev).st = .releasing ∧ (slot k t.dev).pend = some ⟨.release, q, []⟩ ∧
        (slot k t.dev).desc = c.desc ∧ ∀ j, j ≠ k → slot j t.dev = slot j s.dev) ∧
    (o.op = 5 → mine → c.st = .active → c.pend = none → s.dev.pwr.st = .service → isStandby s.dev = false → atOk q o.startP = true →
      20000 ≤ sdiff q o.startAt → 20000 < sdiff q (now s.dev) → descRefused p k o q s.dev = false →
      admitCheck p k s.dev (chwApply 5 p k q o.desc s.dev) = 0 → listFull k s.dev (chwApply 5 p k q o.desc s.dev) = false →
      ∃ t, exec (.chwOpComplete p) s = .next t ∧ result t 0 ∧ (slot k t.dev).st = .active ∧ (slot k t.dev).desc = c.desc ∧
        (slot k t.dev).pend = some ⟨.modifyAt, q, o.desc⟩ ∧ ∀ j, j ≠ k → slot j t.dev = slot j s.dev) ∧
    (o.op = 3 → o.at_ = false → hGen o.handle = 0 → s.dev.pwr.st = .service → isStandby s.dev = false →
      fld (rg (kPart p oPART_STATE) s.dev) 1 0 = 1 → ∀ n, freeSlot s.dev = some n → n < 16384 → descRefused p n o q s.dev = false →
      admitCheck p n s.dev (chwApply 3 p n q o.desc s.dev) = 0 → listFull n s.dev (chwApply 3 p n q o.desc s.dev) = false →
      ∃ t, exec (.chwOpComplete p) s = .next t ∧ result t 0 ∧ (slot n t.dev).st = .activating ∧ (slot n t.dev).part = p ∧
        (slot n t.dev).gen = (slot n s.dev).gen ∧ (slot n t.dev).pend = some ⟨.activate, q, o.desc⟩ ∧ (∀ j, j ≠ n → slot j t.dev = slot j s.dev) ∧
        rgN (kWin p 1 oCHW_SEL) t.dev = (mkHandle (slot n s.dev).gen.toNat p n).toNat)

end Sys2Proof
/-- An operation of a channel window starts (R65, R66): BUSY, with the handle, the staged descriptor and the target as the window holds them; while
one is in progress the write is rejected, reason BUSY. An operation of a channel window completes, on a device that is no twin (R65 to R68, R70,
R472). The first refusal of R472 that applies is the RESULT and nothing changes but the window, a STALE one advancing CHW_STALE. READ copies the
descriptor in force. RELEASE of an ACTIVE slot with nothing pending makes it RELEASING at its boundary. MODIFY_AT and an ACTIVATE that pass every
check leave their pending change. -/
def Obligations.ChannelOperations : Prop := ChannelOperationStarts ∧ ChannelOperationCompletes
/-- Configuration writes and function-level resets on receipt (R37, R38, R43, R63, R471): the PF captures bus and device number; VF Enable and NumVFs;
Bus Master Enable; the MSI-X mask. A VF reset empties the VF's latches and messages and returns its headers to reset with their locks kept, the
rest waiting for the boundary. A PF reset clears VF Enable and OVF and the FIFO, disables every ring, and waits for the boundary. -/
def Obligations.ConfigurationAndFunctionResets : Prop :=
  ∀ (s : State) (bd : BitVec 16) (on : Bool) (n p : Nat), HostUp s.dev →
    let h := s.dev.hif
    (exec (.configWrite bd .other) s = .next { s with dev := { s.dev with hif := { h with pfRid := bd &&& 0xFFF8 } } }) ∧
    (s.dev.pwr.recovery = false → exec (.configWrite bd (.vfEnable on n)) s = .next { s with dev := { s.dev with hif := { h with
      pfRid := bd &&& 0xFFF8, vfEnable := on, numVFs := if on = true then min n 1023 else 0, vfBus := if on = true then h.vfBus else [] } } }) ∧
    (∃ t, exec (.configWrite bd (.busMaster on)) s = .next t ∧ t.pending = s.pending ∧ t.dev.hif.busMaster = on ∧ t.dev.hif.pfRid = bd &&& 0xFFF8 ∧
      t.dev.slots = s.dev.slots ∧ t.dev.tb = s.dev.tb) ∧
    (vfExists s.dev p = true → ∃ t, exec (.configWrite bd (.vfBusMaster p on)) s = .next t ∧ t.pending = s.pending ∧
      tabGet (fun _ => false) t.dev.hif.vfBus p = on ∧ t.dev.hif.pfRid = bd &&& 0xFFF8 ∧ t.dev.slots = s.dev.slots ∧ t.dev.tb = s.dev.tb) ∧
    (vfExists s.dev p = true → ∃ t, exec (.vfFlr p) s = .next t ∧ t.pending = s.pending ∧ t.dev.hif.flr = h.flr ++ [p] ∧
      tabGet (fun _ => none) t.dev.hif.wLatch p = none ∧ (∀ m ∈ t.dev.hif.msgs, m.1 ≠ p) ∧ t.dev.slots = s.dev.slots ∧ t.dev.rings = s.dev.rings ∧
      (∀ k, k < 8 → hdr (vfPage p k) t.dev = { Hdr.reset with locked := (hdr (vfPage p k) s.dev).locked }) ∧
      ∀ q, q < 0x1000 → hdr q t.dev = hdr q s.dev) ∧
    (s.dev.recd.spools = [] → ∃ t, exec .pfFlr s = .next t ∧ t.pending = s.pending ∧ t.dev.hif.vfEnable = false ∧ t.dev.hif.numVFs = 0 ∧ t.dev.hif.flr = h.flr ++ [0] ∧
      t.dev.hif.perr = [] ∧ t.dev.hif.ovf = 0 ∧ t.dev.hif.wLatch = [] ∧ t.dev.slots = s.dev.slots ∧
      (∀ k, k < 0x1000 → (ring k t.dev).enable = false ∧ (ring k t.dev).prod = 0 ∧ (ring k t.dev).cons = 0) ∧
      (∀ q, q < 2 → hdr q t.dev = { Hdr.reset with locked := (hdr q s.dev).locked }) ∧ ∀ q, 2 ≤ q → q < 0x600 → q ≠ 0x130 → hdr q t.dev = hdr q s.dev)

namespace Sys2Proof
/-! ### The Time Base -/

end Sys2Proof
/-- A tick adds TB_INC to the 64-bit accumulator, a TB_INC written since the last tick being used from this one on, but not while a lost
reference has the last frequency held; when NT32 wraps, TB_EXT_HI
counts up, TB_EXT_NEXT reads the value loaded, and EXT_MISMATCH rises unless TB_EXT_NEXT held it. A write of TB_EXT_NEXT stores it. Nothing else
changes; TB_INC is at its nominal value after reset (R72, R73, R75, R76). -/
def Obligations.TicksAdvanceTime : Prop :=
  ∀ (s : State) (v : W32), s.dev.tb.step = none →
    let b := s.dev.tb
    let held := b.refHold.isSome
    let inc := if held then b.inc else b.incNext.getD b.inc
    let sum := b.acc.toNat + inc.toNat
    let ticked := { b with acc := BitVec.ofNat 64 sum, inc := inc, incNext := if held then b.incNext else none, since := b.since + 1, ticks := b.ticks + 1,
                           incRuns := if servoSteers b then keepRuns meanTicks (noteRun inc b.incRuns) else b.incRuns,
                           sinceLocked := if b.servo = .locked then 0 else b.sinceLocked + inc.toNat }
    (sum < 2 ^ 64 → exec .tbTickInc s = .next { s with dev := { s.dev with tb := ticked } }) ∧
    (2 ^ 64 ≤ sum → b.extNext = b.extHi + 1 →
      exec .tbTickInc s = .next { s with dev := { s.dev with tb := { ticked with extHi := b.extHi + 1, extNext := b.extHi + 1 } } }) ∧
    (2 ^ 64 ≤ sum → b.extNext ≠ b.extHi + 1 →
      ∃ t, exec .tbTickInc s = .next t ∧
        Became { s.dev with tb := { ticked with extHi := b.extHi + 1, extNext := b.extHi + 1 } } s t ∧ CauseUp 0x10 8 t) ∧
    (exec (.tbExtNextWrite v) s = .next { s with dev := { s.dev with tb := { b with extNext := v } } }) ∧
    State.reset.dev.tb.inc = 0x140000000

/-- Host writes of the Time Base (R73, R74, R78, R79, R98): 0xA5 to TB_STEP_ARM arms a step; with SOURCE = MANUAL a TB_INC within 500 ppm of
nominal waits for the next tick, one outside raises INC_REFUSED and changes nothing else, and a permitted TB_STEP waits for its tick; a source
from 0 to 3 is in force. A twin that is not paired is meant where a step is named. -/
def Obligations.HostTimeWrites : Prop :=
  ∀ (s : State) (v : W32) (w : W64), Reaches 0 s.dev →
    let b := s.dev.tb
    (fld v 7 0 = 0xA5 → exec (.rearm v) s = .next { s with dev := { s.dev with tb := { b with armed := true, rearmed := decide (b.servo = .holdover) } } }) ∧
    (b.src = 0 → 0x13FD70A3E ≤ fld w 39 0 → fld w 39 0 ≤ 0x14028F5C2 →
      exec (.tbIncWrite w) s = .next { s with dev := { s.dev with tb := { b with incNext := some (w.extractLsb' 0 40) } } }) ∧
    (b.src = 0 → fld w 39 0 < 0x13FD70A3E ∨ 0x14028F5C2 < fld w 39 0 →
      ∃ t, exec (.tbIncWrite w) s = .next t ∧ Became s.dev s t ∧ CauseUp 0x10 4 t) ∧
    (b.src = 0 → b.armed = true → b.step = none → w.toInt ≠ 0 → 0 ≤ ((now64 s.dev).toNat : Int) + w.toInt →
      (anyChannel s.dev = true → w.toInt.natAbs ≤ rgN rTB_STEP_MAX_ACTIVE s.dev) → paired s.dev = false →
      exec (.tbStepWrite w) s = .next { s with dev := { s.dev with tb := { b with step := some ⟨w.toInt, none⟩ } } }) ∧
    (fld v 2 0 ≤ 3 → isStandby s.dev = false →
      ∃ t, exec (.tbSrcWrite v) s = .next t ∧ t.pending = s.pending ∧ t.dev.tb.src = fld v 2 0 ∧
        t.dev.tb.acc = b.acc ∧ t.dev.tb.extHi = b.extHi ∧ t.dev.tb.inc = b.inc ∧ t.dev.tb.armed = b.armed)

/-- A step written waits one tick and is then applied (R79, R82): NT64 moves by S, TB_EXT_NEXT becomes the new TB_EXT_HI + 1, ARMED clears,
TB_LAST_STEP_AT records the re-based NT32, STEP_APPLIED rises, and the seeded Weir's next boundary is Q': the old boundary moved by
K = ⌊(S + 499,999) ÷ 1,000,000⌋ passes, one further where it would fall less than 20 µs after the step. -/
def Obligations.StepMovesTimeAndGrid : Prop :=
  ∀ (s : State) (S : Int), s.dev.tb.step = some ⟨S, none⟩ → 0 ≤ ((now64 s.dev).toNat : Int) + S → ((now64 s.dev).toNat : Int) + S < 2 ^ 64 →
    let old : Int := (now64 s.dev).toNat
    let k := (S + 499999).fdiv 1000000
    let q := old + sdiff s.dev.weir.nextP (now s.dev) + k * 1000000
    let q' := if q < old + S + 20000 then q + 1000000 else q
    ∃ t, exec .stepApply s = .next t ∧ t.pending = s.pending ∧ ((now64 t.dev).toNat : Int) = old + S ∧
      t.dev.tb.extNext = t.dev.tb.extHi + 1 ∧ t.dev.tb.armed = false ∧ t.dev.tb.step = none ∧ t.dev.tb.inc = s.dev.tb.inc ∧
      rgN rTB_LAST_STEP_AT t.dev = (now t.dev).toNat ∧ CauseUp 0x10 2 t ∧
      (s.dev.weir.seeded = true → t.dev.weir.nextP = BitVec.ofInt 32 q' ∧ t.dev.tb.rebase = some ⟨S, k, BitVec.ofInt 32 q'⟩) ∧
      (s.dev.weir.seeded = false → t.dev.weir = s.dev.weir ∧ t.dev.tb.rebase = none)

namespace Sys2Proof
/-- The servo (R75, R80, R81): a qualified source takes FREERUN to ACQUIRING; the sixteenth measurement in a row within TB_LOCK_LIMIT takes
LOCKING to LOCKED; an offset beyond TB_JUMP_LIMIT takes LOCKED to HOLDOVER with JUMP_REFUSED and no step, TB_INC holding the mean of the
servo's output; a source lost in LOCKED to HOLDOVER with
SOURCE_LOST, in ACQUIRING to FREERUN. A lost reference raises UNIT_FAULT and, its hold over, the device enters FAULT with reason 3. The device is
in SERVICE and no cluster worker. -/
def ServoStates : Prop :=
  ∀ (s : State) (off mpd : W64), s.dev.pwr.st = .service → isWorker s.dev = false → s.dev.tb.step = none →
    let b := s.dev.tb
    let mag := (off.toInt.fdiv 65536).natAbs
    let quiet (t : State) : Prop := t.pending = s.pending ∧ t.dev.tb.acc = b.acc ∧ t.dev.tb.extHi = b.extHi ∧ t.dev.tb.armed = b.armed ∧
      t.dev.tb.step = none ∧ t.dev.weir = s.dev.weir ∧ t.dev.slots = s.dev.slots
    (b.servo = .freerun → ∃ t, exec .sourceQualified s = .next t ∧ quiet t ∧ t.dev.tb.servo = .acquiring ∧ t.dev.tb.qualified = true) ∧
    (b.src ≠ 0 → b.servo = .locking → mag < rgN rTB_LOCK_LIMIT s.dev → mag ≤ rgN rTB_JUMP_LIMIT s.dev → b.lockRun = 15 →
      ∃ t, exec (.servoMeasurement off mpd) s = .next t ∧ quiet t ∧ t.dev.tb.servo = .locked ∧ CauseUp 0x10 6 t) ∧
    (b.src ≠ 0 → b.servo = .locked → rgN rTB_JUMP_LIMIT s.dev < mag →
      ∃ t, exec (.servoMeasurement off mpd) s = .next t ∧ quiet t ∧ t.dev.tb.servo = .holdover ∧ CauseUp 0x10 1 t ∧ CauseUp 0x10 5 t ∧
        t.dev.tb.incNext = some (BitVec.ofNat 40 (meanInc b))) ∧
    (b.servo = .locked → b.src ≠ 1 → ∃ t, exec .sourceLost s = .next t ∧ quiet t ∧ t.dev.tb.servo = .holdover ∧ CauseUp 0x10 7 t) ∧
    (b.servo = .acquiring → b.src ≠ 1 → ∃ t, exec .sourceLost s = .next t ∧ quiet t ∧ t.dev.tb.servo = .freerun) ∧
    (b.refHold = none → ∃ t, exec .refclkLoss s = .next t ∧ quiet t ∧ t.dev.tb.refHold = some (now s.dev) ∧ t.dev.tb.inc = b.inc ∧ CauseUp 0x10 0 t) ∧
    (b.refHold ≠ none → ∃ t, exec .refclkHoldExpiry s = .next t ∧ quiet t ∧ t.dev.pwr.st = .fault ∧
      rgN rPWR_FAULT t.dev = 3 * 4096 + 0x10)

/-- Seconds and pulses (R54, R81, R90 to R92): at an integer second of NT64 TB_HOLD_SEC counts in HOLDOVER, PPS_OUT rises where enabled, and the
ending second is closed with its RS-FEC figures (free values, log entry 139); PPS_OUT falls after WIDTH_US; a PPS_IN edge is stamped; a missing edge raises PPS_IN_MISSING; a good ZDA sentence names the
second; no sentence in time raises TOD_ERROR. -/
def SecondsAndPulses : Prop :=
  ∀ (s : State) (tj p : Nat) (stamp : NT32) (utc : W64),
    let b := s.dev.tb
    let n := (now64 s.dev).toNat / 1000000000
    (n ≠ b.secIdx → ∃ t, exec (.integerSecond tj) s = .next t ∧ t.pending = s.pending ∧ t.dev.tb.secIdx = n ∧ t.dev.tb.stepped = false ∧
      rgN rTB_HOLD_SEC t.dev = (if b.servo = .holdover then (rgN rTB_HOLD_SEC s.dev + 1) % 2 ^ 32 else rgN rTB_HOLD_SEC s.dev) ∧
      (p < 4 → bit (macStatus p s.dev) 2 = true → ∃ ce ue, ce < 2 ^ 32 ∧ ue < 2 ^ 32 ∧ Counts (kMac p 0 oMAC_FEC_CE) ce s t ∧
        Counts (kMac p 0 oMAC_FEC_UE) ue s t ∧ (rgN (kMac p 0 oMAC_FEC_THRESH) s.dev ≤ ce ∨ 0 < ue → CauseUp (macPage p) 5 t)) ∧
      (p < 4 → bit (macStatus p s.dev) 2 = false → ∀ k ∈ [kMac p 0 oMAC_FEC_CE, kMac p 0 oMAC_FEC_UE], rg k t.dev = rg k s.dev) ∧
      (ppsMayRise s.dev = true → t.dev.tb.ppsOut = true) ∧ t.dev.tb.acc = b.acc ∧ t.dev.tb.servo = b.servo ∧ t.dev.slots = s.dev.slots) ∧
    (b.ppsOut = true → ((fld (rg rTB_PPS_OUT_CTRL s.dev) 27 8 * 1000 : Nat) : Int) ≤ sdiff (now s.dev) b.ppsRise →
      exec .ppsOutPulseEnd s = .next { s with dev := { s.dev with tb := { b with ppsOut := false }, outbox := .pin .ppsOut false :: s.dev.outbox } }) ∧
    (bit (rg rTB_PPS_IN_CTRL s.dev) 0 = true → b.src ≠ 2 → b.step = none → s.dev.pwr.st = .service → isWorker s.dev = false →
      ∃ t, exec (.ppsInEdge stamp) s = .next t ∧ t.pending = s.pending ∧ rgN rTB_PPS_IN_TS t.dev = stamp.toNat ∧
        t.dev.tb = { b with
          ppsMiss := 0, ppsEdges := b.ppsEdges + 1, todThisEdge := false,
          todSecs := if b.todThisEdge = true ∨ b.servo = .locked then b.todSecs.map (· + 1000000000) else none }) ∧
    (bit (rg rTB_PPS_IN_CTRL s.dev) 0 = true → b.src ≠ 2 →
      ∃ t, exec .ppsInMissing s = .next t ∧ Became { s.dev with tb := { b with ppsMiss := b.ppsMiss + 1 } } s t ∧ CauseUp 0x10 10 t) ∧
    (bit (rg rTB_PPS_IN_CTRL s.dev) 1 = true → b.src ≠ 2 → b.step = none → s.dev.pwr.st = .service → isWorker s.dev = false →
      ∃ t, exec (.zdaSentence utc true) s = .next t ∧ t.pending = s.pending ∧ t.dev.tb.todThisEdge = true ∧
        t.dev.tb.todSecs = some ((utc + BitVec.ofNat 64 (rgN rTB_UTC_OFFSET s.dev)) * 1000000000
          + (if bit (rg rTB_PPS_IN_CTRL s.dev) 2 then 0 else 1000000000))) ∧
    (bit (rg rTB_PPS_IN_CTRL s.dev) 1 = true → b.todThisEdge = false →
      ∃ t, exec .todError s = .next t ∧ Became s.dev s t ∧ CauseUp 0x10 11 t)

end Sys2Proof
/-- The servo (R75, R80, R81): a qualified source takes FREERUN to ACQUIRING; the sixteenth measurement in a row within TB_LOCK_LIMIT takes LOCKING
to LOCKED; an offset beyond TB_JUMP_LIMIT takes LOCKED to HOLDOVER with JUMP_REFUSED and no step, TB_INC holding the mean of the servo's output;
a source lost in LOCKED to HOLDOVER with SOURCE_LOST, in ACQUIRING to FREERUN. A lost reference raises UNIT_FAULT and, its hold over, the device
enters FAULT with reason 3. The device is in SERVICE and no cluster worker. Seconds and pulses (R54, R81, R90 to R92): at an integer second of
NT64 TB_HOLD_SEC counts in HOLDOVER, PPS_OUT rises where enabled, and the ending second is closed with its RS-FEC figures (free values, log entry
139); PPS_OUT falls after WIDTH_US; a PPS_IN edge is stamped; a missing edge raises PPS_IN_MISSING; a good ZDA sentence names the second; no
sentence in time raises TOD_ERROR. -/
def Obligations.ServoSecondsAndPulses : Prop := ServoStates ∧ SecondsAndPulses
/-- Received PTP messages on an enabled port that R88 does not discard, and messages sent (R85 to R88): Sync stamps t2 with its fraction,
Follow_Up its origin, a Delay_Resp and a Pdelay_Resp_Follow_Up complete the delays by the formulas of IEEE 1588-2019 in 2⁻¹⁶ ns, Delay_Req and a
one-step Pdelay_Req are answered, at once on an idle port, the latter with its turnaround, Announce keeps its dataset and chooses the port's best again, a unicast request below 64
slaves is granted, and Sync leaves a master port; a discarded message counts in TB_PTP_DROP and raises PTP_DROP, which folds under a faulted port. -/
def Obligations.PtpMessages : Prop :=
  ∀ (s : State) (m : PtpMsg) (a : PtpAnnounce) (g : PtpTlv), s.dev.tb.step = none → s.dev.pwr.st = .service → isWorker s.dev = false →
    ptpOn m.port s.dev = true → m.transport = ptpTransport s.dev → m.tags ≤ 2 →
    let p := m.port
    let q := ptpPort p s.dev
    let rx := msgStamp m s.dev
    let rxF := (BitVec.ofInt 68 (stamp64 rx s.dev)).toNat
    let keeps (t : State) : Prop := t.pending = s.pending ∧ t.dev.tb.acc = s.dev.tb.acc ∧ t.dev.slots = s.dev.slots
    let is (cmd : Instr) (r : PtpPort) : Prop := ∃ t, exec cmd s = .next t ∧ keeps t ∧ ptpPort p t.dev = r ∧
      ∀ k, k ≠ p → ptpPort k t.dev = ptpPort k s.dev
    let idle := portOn p s.dev && (port p s.dev).ctl.isEmpty && (port p s.dev).q6.isEmpty && decide (rg (kMac p 0 oMAC_PAUSE_STATE) s.dev = 0)
    let head (dst : Nat) : List Nat := [p, ptpTransport s.dev, dst, fld (rg rTB_PTP_CTRL s.dev) 15 8, m.seq.toNat]
    let turn := (BitVec.ofInt 68 (stamp64 (sentStamp p (txReady p s.dev) s.dev) s.dev - (rxF : Int))).toNat
    let sends (cmd : Instr) (kind dst : Nat) (more : List Nat) : Prop := ∃ t, exec cmd s = .next t ∧ keeps t ∧
      .msg .ptp kind (head dst ++ [rxF, m.source.toNat, m.sourcePort] ++ more) ∈ t.dev.outbox
    let heard : Master := ⟨m.source, m.sourcePort, a⟩
    let rest := q.masters.filter fun x => !(decide (x.source = m.source) && decide (x.sourcePort = m.sourcePort))
    (ptpBad m s.dev = true → faulted (macPage p) s.dev = false → ∃ t, exec (.ptpSync m) s = .next t ∧ CauseUp 0x10 9 t ∧
      rgN rTB_PTP_DROP t.dev = (rgN rTB_PTP_DROP s.dev + 1) % 2 ^ 32 ∧ t.dev.tb = s.dev.tb) ∧
    (ptpBad m s.dev = false →
      (m.twoStep = true → is (.ptpSync m) { q with t2 := rx, syncSeq := m.seq, waitFu := true, corr := m.correction, t1 := none }) ∧
      (m.twoStep = false → is (.ptpSync m) { q with t2 := rx, syncSeq := m.seq, waitFu := false, corr := m.correction, t1 := some m.origin }) ∧
      (q.waitFu = true → q.syncSeq = m.seq → is (.ptpFollowUp m) { q with waitFu := false, t1 := some m.origin }) ∧
      (ptpState p s.dev = 6 → ptpP2p p s.dev = false → ptpProfile s.dev ≠ 3 → idle = true →
        sends (.ptpDelayReq m) 9 (ptpGroup (ptpTransport s.dev) false) []) ∧
      (∀ t1, q.delayOut = true → q.delaySeq = m.seq → q.t1 = some t1 →
        is (.ptpDelayResp m) { q with delayOut := false, delay :=
          (((stamp64 q.t2 s.dev - (t1.toNat : Int) * 16) + ((m.origin.toNat : Int) * 16 - stamp64 q.t3 s.dev)) * 4096
            - q.corr.toInt - m.correction.toInt) / 2 }) ∧
      (ptpP2p p s.dev = true → ptpOneStep s.dev = true → idle = true →
        sends (.ptpPdelayReq m) 3 (ptpGroup (ptpTransport s.dev) true) [turn]) ∧
      (q.pOut = true → q.pSeq = m.seq → m.twoStep = true → is (.ptpPdelayResp m) { q with pT2 := some m.origin, pT4 := rx }) ∧
      (∀ t2, q.pOut = true → q.pSeq = m.seq → q.pT2 = some t2 → is (.ptpPdelayRespFollowUp m) { q with pOut := false, peerDelay :=
        ((stamp64 q.pT4 s.dev - stamp64 q.pT1 s.dev) * 4096 - ((m.origin.toNat : Int) - t2.toNat) * 65536 - m.correction.toInt) / 2 }) ∧
      (a.path.contains (rg rFAB_DEV_ID s.dev) = false → ptpProfile s.dev ≠ 3 →
        ∃ t, exec (.ptpAnnounce m a) s = .next t ∧ keeps t ∧ (ptpPort p t.dev).masters = rest ++ [heard] ∧
          (ptpPort p t.dev).best = (bestMaster (telecom s.dev) (rest ++ [heard])).map (fun x => dsOf x.ann) ∧
          ∀ k, k ≠ p → (ptpPort k t.dev).masters = (ptpPort k s.dev).masters) ∧
      (ptpProfile s.dev = 3 → ptpState p s.dev = 6 → g.kind = 4 → grantable g = true → q.grants = [] →
        is (.ptpSignaling m g) { q with grants := [(m.source, m.sourcePort, [g.msgType])] })) ∧
    (ptpState p s.dev = 6 → is (.ptpMessageTx p 0) { q with txSeq := q.txSeq + 1 })

/-- A pass boundary with nothing to release, to fire or to change (R106, R107, R115, R135): before WEIR_NEXT_P or in FAULT nothing happens, and
before the seed only the manager's pulse is noted (R414); at it WEIR_NEXT_P moves on by exactly 1,000,000, WEIR_PASS_CNT advances, and one token is created, named by the boundary, for every
channel that executes, its handle the channel's and neither eligible nor marked. -/
def Obligations.PassBoundary : Prop :=
  ∀ (s : State), let d := s.dev
    let w := d.weir
    Alone d → d.lfe.lines = [] → d.recd.spools = [] → cluOn d = false → d.clu.driving = false → tabWf (fun _ => Slot.reset) d.slots = true →
    (w.seeded = true → sdiff (now d) w.nextP < 0 ∨ d.pwr.st = .fault → exec .passBoundary s = .next s) ∧
    (w.seeded = false → ∃ t, exec .passBoundary s = .next t ∧ t.pending = s.pending ∧ t.dev = { d with clu := { d.clu with pulsed := t.dev.clu.pulsed } }) ∧
    (WeirWorks d → 0 ≤ sdiff (now d) w.nextP → w.rel = [] → w.tokens = [] → w.rejoin = [] → w.shedStep = none → d.hif.flr = [] → d.closing = [] →
      d.buses = [] → d.tb.rebase = none → d.path.nextJb = [] → d.recd.staged = [] →
      (∀ e ∈ d.slots, e.2.pend = none ∧ e.2.write = [] ∧ e.2.suspect = false ∧ busOf e.2.desc = none ∧ isRtp e.2.desc 0 = false ∧
        isRtp e.2.desc 1 = false) →
      ∃ t, exec .passBoundary s = .next t ∧ t.pending = s.pending ∧ t.dev.weir.nextP = w.nextP + 1000000 ∧ t.dev.weir.lastP = w.nextP ∧
        Counts rWEIR_PASS_CNT 1 s t ∧ rgN rWEIR_LAST_DONE t.dev = w.lastDone % 2 ^ 64 ∧ rgN rWEIR_TOKENS t.dev = t.dev.weir.tokens.length % 2 ^ 64 ∧
        t.dev.weir.tokens.map (fun k => (k.bus, k.handle, k.pass, k.elig, k.markA, k.markB)) =
          (d.slots.filter fun e => e.2.running).map (fun e => (false, mkHandle (slot e.1 d).gen.toNat (slot e.1 d).part e.1, w.nextP, false, false, false)) ∧
        t.dev.weir.dl = w.dl ∧ t.dev.weir.healthy = w.healthy ∧ t.dev.slots = d.slots ∧ t.dev.rings = d.rings)

/-- The dispatch deadline for one channel's token, with no job yet on any core (R107, R108, R111): with its context it fires, each empty leg marked
for concealment and an absent program bypassed, its release entry queued and its job at the head of the lowest healthy core's list; without
its context it is not dispatched, is counted in WEIR_CNT_NOCTX, and its pass is queued as a marker; a stale one is discarded and counted. -/
def Obligations.DispatchDeadline : Prop :=
  ∀ (s : State) (k : Token) (c : Nat), let d := s.dev
    let w := d.weir
    let due : NT32 := w.lastP
    WeirWorks d → Alone d → (rgN rWEIR_DEADLINE d : Int) ≤ sdiff (now d) w.lastP → reached d (w.lastP + BitVec.ofNat 32 (rgN rWEIR_DEADLINE d)) = true →
    d.recd.staged = [] → w.tokens = [k] → k.elig = true → k.bus = false → w.lists = [] → c < 64 → bit w.healthy c = true → (∀ x, x < c → bit w.healthy x = false) →
    let p := slot (hSlot k.handle) d
    (current k.handle d = true → k.fillCtx = true →
      ∃ t j, exec .dispatchDeadline s = .next t ∧ t.pending = s.pending ∧ t.dev.weir.tokens = [] ∧ jobs c t.dev = [j] ∧
        (∀ x, x ≠ c → jobs x t.dev = []) ∧ t.dev.weir.rel = w.rel ++ [⟨false, k.handle, k.pass, due, none, false⟩] ∧
        j.bus = false ∧ j.handle = k.handle ∧ j.pass = k.pass ∧ j.due = due ∧ j.resv = (chargeIn p.part p.desc d).cycles ∧
        j.markA = !k.fillA ∧ j.markB = !k.fillB ∧ j.bypass = (k.bypass || !k.fillProg) ∧ j.noProg = !k.fillProg ∧ j.snap = p ∧ j.st = .staging ∧ j.replay = false ∧ j.inA = k.inA ∧ j.inB = k.inB ∧
        (k.fillA = true → k.fillB = true → k.fillProg = true → Counts rWEIR_CNT_FIRED 1 s t) ∧
        (k.fillA = false ∨ k.fillB = false ∨ k.fillProg = false → Counts rWEIR_CNT_CONCEAL 1 s t)) ∧
    (current k.handle d = true → k.fillCtx = false → w.rel.any (fun r => r.late) = false → chSt (hSlot k.handle) d ≠ .copying →
      ∃ t, exec .dispatchDeadline s = .next t ∧
        WeirBecame { w with tokens := [], rel := w.rel ++ [⟨false, k.handle, k.pass, due, none, false⟩] } s t ∧ Counts rWEIR_CNT_NOCTX 1 s t) ∧
    (current k.handle d = false → w.rel.any (fun r => r.late) = false →
      ∃ t, exec .dispatchDeadline s = .next t ∧ t.dev.weir = { w with tokens := [] } ∧ t.dev.slots = d.slots ∧ Counts rWEIR_CNT_STALE_TOKEN 1 s t)

namespace Sys2Proof
/-- A job on its core (R30, R111, R112, R121, R127, R191, R217, R226, R242, R251): stream-in ends with the context's words in the job's buffer, 0x0000
or 0x4000, and JOB pending; the job runs on what it captured at its dispatch, WDOG loaded with its reservation less a tenant program's budget; it
completes, and its outputs enter the release entry of its pass while stream-out begins; when stream-out ends the words of its buffer lie in the
same granules and the job leaves. A stale job is discarded at its commit and counted. The job is alone in the lists and no word is poisoned. -/
def JobOnItsCore : Prop :=
  ∀ (s : State) (c : Nat) (j : Job), let d := s.dev
    let w := d.weir
    let k := hSlot j.handle
    let core := tarn c d
    let as := jobAddrs j d
    let base := 0x4000 * j.buf
    w.lists = [(c, [j])] → c < 64 → bit w.healthy c = true → Alone d → w.tokens = [] → w.lateFrom = none → d.poison = [] →
    let held (x : Job) : Weir := { w with lists := [(c, [x])] }
    (j.st = .staging → ∃ t, exec (.streamInComplete c) s = .next t ∧ t.pending = s.pending ∧
      t.dev = { d with weir := { held { j with st := .ready } with strm := t.dev.weir.strm }, tarns := t.dev.tarns } ∧
      tarn c t.dev = { core with job := true, dm := (tarn c t.dev).dm } ∧ (∀ x, x ≠ c → tarn x t.dev = tarn x d) ∧
      ∀ a, tabGet (fun _ => 0) (tarn c t.dev).dm a =
        if base ≤ a ∧ a < base + as.length then basinRead (as.getD (a - base) 0) d else tabGet (fun _ => 0) core.dm a) ∧
    let runs (cmd : Instr) : Prop := ∃ t, exec cmd s = .next t ∧ t.pending = s.pending ∧
      t.dev = { d with weir := held { j with st := .done, out := some (jobOutputs j d) }, tarns := t.dev.tarns } ∧
      (tarn c t.dev).st = .running ∧ (tarn c t.dev).cache = none ∧ (∀ x, x ≠ c → tarn x t.dev = tarn x d) ∧
      (tr 0x34 (tarn c t.dev)).toNat =
        (j.resv - if j.bus = false ∧ progOn j.snap.desc = true then fld (dw j.snap.desc 38) 15 0 else 0) % 65536
    (j.st = .ready → (j.bus = false → runs (.channelJob c)) ∧ (j.bus = true → runs (.busJob c))) ∧
    (∀ o, j.st = .done → j.out = some o → j.bus = false → j.replay = false → current j.handle d = true → (slot k d).inits = j.snap.inits →
      (∀ r ∈ o.recs, r.typ ≠ 0x25 ∧ r.typ ≠ 0x24) →
      ∃ t, exec (.jobComplete c) s = .next t ∧ t.pending = s.pending ∧ jobs c t.dev = [{ j with st := .streamOut }] ∧
        (tarn c t.dev).st = .idle ∧ (tarn c t.dev).jobs = core.jobs + 1 ∧ (slot k t.dev).ctx = o.ctx ∧ (slot k t.dev).media = o.media ∧
        (slot k t.dev).desc = (slot k d).desc ∧ (∀ x, x ≠ k → slot x t.dev = slot x d) ∧
        t.dev.weir.rel = w.rel.map (fun r => if r.bus = false ∧ r.handle = j.handle ∧ r.pass = j.pass ∧ r.out = none then { r with out := some o } else r)) ∧
    (∀ o, j.st = .done → j.out = some o → j.bus = false → current j.handle d = false →
      ∃ t, exec (.jobComplete c) s = .next t ∧ jobs c t.dev = [] ∧ (tarn c t.dev).st = .idle ∧ t.dev.slots = d.slots ∧ t.dev.weir.rel = w.rel ∧
        Counts rWEIR_CNT_STALE_COMMIT 1 s t) ∧
    (j.st = .streamOut → j.bus = false → current j.handle d = true → (slot k d).inits = j.snap.inits → j.out.bind (·.data) = none →
      (slot k d).granules.Nodup →
      ∃ t, exec (.streamOutComplete c none) s = .next t ∧ t.pending = s.pending ∧ jobs c t.dev = [] ∧ (tarn c t.dev).sout = true ∧
        t.dev.slots = d.slots ∧ t.dev.regs = d.regs ∧
        (∀ i, i < as.length → basinRead (as.getD i 0) t.dev = tabGet (fun _ => 0) core.dm (base + i)) ∧
        ∀ a, a / 1024 ∉ (slot k d).granules → basinRead a t.dev = basinRead a d)

/-- A job completes as its program says: DONE of a media core whose head job has run hands the job's outputs on and starts its stream-out, the core
idle and its store buffer drained (R121, R249, R278). -/
def DoneOfAJob : Prop :=
  ∀ (s : State) (c : Nat) (j : Job) (o : JobOut) (i : TI), let d := s.dev
    Next c .done i s → d.weir.lists = [(c, [j])] → c < 64 → bit d.weir.healthy c = true → Alone d → d.weir.tokens = [] → d.weir.lateFrom = none →
    j.st = .done → j.out = some o → j.ten = none → j.bus = false → j.replay = false → current j.handle d = true → (slot (hSlot j.handle) d).inits = j.snap.inits →
    (∀ r ∈ o.recs, r.typ ≠ 0x25 ∧ r.typ ≠ 0x24) →
    ∃ t, exec (.done c) s = .next t ∧ t.pending = s.pending ∧ jobs c t.dev = [{ j with st := .streamOut }] ∧
      (tarn c t.dev).st = .idle ∧ (tarn c t.dev).sb = [] ∧ (∀ a, loadWord (tarn c t.dev) a = loadWord (tarn c d) a) ∧
      (slot (hSlot j.handle) t.dev).ctx = o.ctx ∧
      t.dev.weir.rel = d.weir.rel.map (fun r => if r.bus = false ∧ r.handle = j.handle ∧ r.pass = j.pass ∧ r.out = none then { r with out := some o } else r)

end Sys2Proof
/-- A job on its core (R30, R111, R112, R121, R127, R191, R217, R226, R242, R251): stream-in ends with the context's words in the job's buffer,
0x0000 or 0x4000, and JOB pending; the job runs on what it captured at its dispatch, WDOG loaded with its reservation less a tenant program's
budget; it completes, and its outputs enter the release entry of its pass while stream-out begins; when stream-out ends the words of its buffer
lie in the same granules and the job leaves. A stale job is discarded at its commit and counted. The job is alone in the lists and no word is
poisoned. A job completes as its program says: DONE of a media core whose head job has run hands the job's outputs on and starts its stream-out,
the core idle and its store buffer drained (R121, R249, R278). -/
def Obligations.JobsOnCores : Prop := JobOnItsCore ∧ DoneOfAJob
/-- What a channel job and a bus job compute where the descriptor turns every stage off (R30, R191, R197, R217): two LINE legs hear each other's
samples of the pass unchanged, whatever program image and data lie in the device; a conference of three without LISTEN gives each member the
saturated sum of the others. -/
def Obligations.MediaOutputs : Prop :=
  ∀ (image data : List Word) (j : Job) (x y : List (BitVec 18)),
    let l := j.snap.desc
    let n := samplesPerPass l
    (kind l 0 = 2 → kind l 1 = 2 → j.markA = false → j.markB = false → j.inA = .pcm x 0 → j.inB = .pcm y 0 → x.length = n → y.length = n →
      ecTail l = 0 → toneDet l 0 = false → toneDet l 1 = false → agcOn l 0 = false → agcOn l 1 = false → nsOn l 0 = false → nsOn l 1 = false →
      progOn l = false → dw l 33 = 0 → j.snap.media.passThrough = false → j.snap.media.gen.kind = 0 → j.snap.genAt = 0 →
      j.snap.legA.evts = [] → j.snap.legB.evts = [] →
      let o := channelOut image data j
      o.toA = y ∧ o.toB = x ∧ o.tapA = x ∧ o.tapB = y ∧ o.postA = x ∧ o.postB = y) ∧
    (∀ m0 m1 m2, j.members = [(m0, false), (m1, false), (m2, false)] → m0 ≠ m1 → m0 ≠ m2 → m1 ≠ m2 → j.wb = false → ∀ a0 a1 a2 : BitVec 18,
      j.contrib = [(m0, List.replicate 8 a0), (m1, List.replicate 8 a1), (m2, List.replicate 8 a2)] →
      (busOut j).mix = [(m0, List.replicate 8 (clipped 18 true (a1.toInt + a2.toInt))), (m1, List.replicate 8 (clipped 18 true (a0.toInt + a2.toInt))),
        (m2, List.replicate 8 (clipped 18 true (a0.toInt + a1.toInt)))])

namespace Sys2Proof
/-- A media core faults (R128, R135, R141, R251): it leaves WEIR_CORE_HEALTHY and stops, TARN_FAULT records the source and PC, TARN.UNIT_FAULT and
WEIR.CORE_FAULT rise. Its running job is aborted and runs again, flagged as a replay, on the lowest other core, WEIR_CNT_REPLAY counting it; a
job that faults again, or whose operands are lost, is not run again, WEIR.REPLAY_FAIL rises and the channel is suspect. A watchdog expiry is the
fault of source 3. The job is alone in the lists and no shortened pass is left. -/
def CoreFaults : Prop :=
  ∀ (s : State) (c src x : Nat) (cs : Bool), let d := s.dev
    let w := d.weir
    let stopped (t : State) : Prop := t.pending = s.pending ∧ (tarn c t.dev).st = .faulted ∧ t.dev.weir.healthy = w.healthy &&& ~~~(1#64 <<< c) ∧
      fld (rg (kTarn c oTARN_FAULT) t.dev) 31 28 = src ∧ fld (rg (kTarn c oTARN_FAULT) t.dev) 13 0 = (tarn c d).pc.toNat ∧
      bit (rg (kTarn c oTARN_FAULT) t.dev) 14 = (cs && decide (src = 2)) ∧ rgN (kTarn c oTARN_FAULT_TIME) t.dev = (now d).toNat ∧
      CauseUp (0x40 + c) 0 t ∧ CauseUp 0x20 1 t ∧ (∀ q, q ≠ c → tarn q t.dev = tarn q d)
    1 ≤ src → src ≤ 5 → c < 64 → bit w.healthy c = true → w.lateFrom = none →
    (w.lists = [] → ∃ t, exec (.coreFault c src cs) s = .next t ∧ stopped t ∧ t.dev.slots = d.slots ∧ t.dev.weir.lists = []) ∧
    (∀ j, w.lists = [(c, [j])] → j.st = .done → j.bus = false → current j.handle d = true → w.tokens = [] → 
      (j.replay = false → j.lostOperand = false → x < 64 → x ≠ c → bit w.healthy x = true → (∀ q, q < x → q ≠ c → bit w.healthy q = false) →
        ∃ t, exec (.coreFault c src cs) s = .next t ∧ stopped t ∧ jobs c t.dev = [] ∧
          jobs x t.dev = [{ j with st := .staging, replay := true, faultCore := c, ten := none, out := none, buf := 0 }] ∧ Counts rWEIR_CNT_REPLAY 1 s t) ∧
      (j.replay = true ∨ j.lostOperand = true → x < 64 → x ≠ c → bit w.healthy x = true → (slot (hSlot j.handle) d).running = true →
        ∃ t, exec (.coreFault c src cs) s = .next t ∧ stopped t ∧ t.dev.weir.lists = [] ∧ (slot (hSlot j.handle) t.dev).suspect = true ∧
          CauseUp 0x20 5 t ∧ Counts rWEIR_CNT_REPLAY_FAIL 1 s t) ∧
      (src = 3 → cs = false → x < 64 → x ≠ c → bit w.healthy x = true → ∃ t, exec (.watchdogExpiry c) s = .next t ∧ stopped t) ∧
      (exec (.watchdogExpiry c) s = exec (.coreFault c 3 false) { s with dev := modTarn c (setTr 0x34 0) d }))

/-- A core comes back (R129, R135, R257): WEIR_CORE_RETURN starts the self-test of each faulted core it names; a core that passes rejoins at the next
boundary, one that fails is OFFLINE with SELFTEST_FAIL. A faulted control core is restarted at address 0 by another that runs. The corrected words
of a core's scrub interval are counted and may reach the threshold; the failure of a fatal unit places the device in FAULT, reason 1. -/
def CoresReturnAndUnitsFail : Prop :=
  ∀ (s : State) (c : Nat) (v : W64) (a b e : Nat), let d := s.dev
    let w := d.weir
    let core := tarn c d
    (HostUp d → c < 64 → bit v c = true → bit w.healthy c = false → core.st = .faulted ∨ core.st = .offline → (∀ x, x ≠ c → bit v x = false) →
      exec (.coreReturn v) s = .next { s with dev := modTarn c (fun t => { t with st := .selftest }) { d with weir := { w with selftest := c :: w.selftest } } }) ∧
    (c ∈ w.selftest → exec (.selftestDone c true) s = .next { s with dev := { d with weir := { w with
      selftest := w.selftest.filter (· ≠ c), rejoin := w.rejoin ++ [c] } } }) ∧
    (c ∈ w.selftest → ∃ t, exec (.selftestDone c false) s = .next t ∧ t.pending = s.pending ∧ (tarn c t.dev).st = .offline ∧ CauseUp (0x40 + c) 2 t ∧
      t.dev.weir = { w with selftest := w.selftest.filter (· ≠ c) } ∧ ∀ x, x ≠ c → tarn x t.dev = tarn x d) ∧
    (64 ≤ c → c < 68 → core.st = .faulted → (∃ x, 64 ≤ x ∧ x < 68 ∧ x ≠ c ∧ (tarn x d).st = .running) →
      ∃ t, exec (.controlCoreRestart c) s = .next t ∧ t.pending = s.pending ∧ t.dev = { d with tarns := t.dev.tarns, pages := t.dev.pages } ∧
        (tarn c t.dev).st = .running ∧ (tarn c t.dev).pc = 0 ∧ (tarn c t.dev).dm = core.dm ∧ ∀ x, x ≠ c → tarn x t.dev = tarn x d) ∧
    (c < 68 → ∃ t, exec (.tarnScrub c a b e) s = .next t ∧ Became { d with regs := t.dev.regs } s t ∧
      Counts (kTarn c oTARN_DM_CE) a s t ∧ Counts (kTarn c oTARN_CS_CE) b s t ∧ Counts (kTarn c oTARN_PM_CE) e s t ∧
      (rgN (kTarn c oTARN_CE_THRESH) d ≤ a + b + e → CauseUp (0x40 + c) 1 t)) ∧
    (∀ pg, pg ∈ [0x20, 0x90, 0xB0, 0xC0, 0xD0, 0xE0] → d.pwr.st ≠ .fault → ∃ t, exec (.unitFailure pg) s = .next t ∧ t.pending = s.pending ∧
      CauseUp pg 0 t ∧ t.dev.pwr.st = .fault ∧ rgN rPWR_FAULT t.dev = 0x1000 + pg ∧ t.dev.twin.own = false ∧ t.dev.slots = d.slots) ∧
    (∀ pg, pagePresent d pg = true → pg ∈ [0xA0, 0x110, 0x130, 0x140, 0x150, 0x180, 0x1A0, 0x1B0] ∨ 0x160 ≤ pg ∧ pg < 0x180 ∨ pg = 0x190 ∧ isWorker d = false →
      ∃ t, exec (.unitFailure pg) s = .next t ∧ Became d s t ∧ CauseUp pg 0 t)

end Sys2Proof
/-- A media core faults (R128, R135, R141, R251): it leaves WEIR_CORE_HEALTHY and stops, TARN_FAULT records the source and PC, TARN.UNIT_FAULT and
WEIR.CORE_FAULT rise. Its running job is aborted and runs again, flagged as a replay, on the lowest other core, WEIR_CNT_REPLAY counting it; a
job that faults again, or whose operands are lost, is not run again, WEIR.REPLAY_FAIL rises and the channel is suspect. A watchdog expiry is the
fault of source 3. The job is alone in the lists and no shortened pass is left. A core comes back (R129, R135, R257): WEIR_CORE_RETURN starts the
self-test of each faulted core it names; a core that passes rejoins at the next boundary, one that fails is OFFLINE with SELFTEST_FAIL. A faulted
control core is restarted at address 0 by another that runs. The corrected words of a core's scrub interval are counted and may reach the
threshold; the failure of a fatal unit places the device in FAULT, reason 1. -/
def Obligations.CoreFaultsAndReturn : Prop := CoreFaults ∧ CoresReturnAndUnitsFail
/-- Memory errors (R61, R62, R123 to R125, R139, R141): the Basin's scrubber counts a corrected word in its bank and raises CE_THRESH at the threshold;
an uncorrectable word is recorded, raises UE, and marks the channel whose context holds it suspect; the DRAM's counts and records by channel, one
that held the only staged recording unit losing it with STAGING_UE, reason 3 of REC_LOSS (R368; what an address holds is a free value, log entry 202); a failed internal write is counted, recorded in the fault ring, and marks the context it served suspect. -/
def Obligations.MemoryErrors : Prop :=
  ∀ (s : State) (a page part : Nat) (h : W32), let d := s.dev
    let n := tabGet (fun _ => 0) d.weir.sweep (a / 0x80000) + 1
    let ch := 0xA1 + a / 256 % 2
    let key (o : Nat) : Nat := ch * 0x1000 + o
    (bit (rg rBASIN_SCRUB_CTRL d) 31 = true → a < 0x2FFFFFF →
      exec (.basinScrub a 0) s = .next s ∧
      (∃ t, exec (.basinScrub a 1) s = .next t ∧ WeirBecame { d.weir with sweep := tabSet (fun _ => 0) d.weir.sweep (a / 0x80000) n } s t ∧
        Counts (rBASIN_CE_BANK + 4 * (a / 0x80000)) 1 s t ∧ (n = rgN rBASIN_CE_THRESH d → CauseUp 0x90 2 t)) ∧
      (∀ e, a < 0x2800000 → d.slots.find? (fun x => x.2.granules.contains (a / 1024)) = some e → e.2.running = true → slot e.1 d = e.2 →
        ∃ t, exec (.basinScrub a 2) s = .next t ∧ t.pending = s.pending ∧ Counts rBASIN_UE_CNT 1 s t ∧ rgN rBASIN_UE_ADDR t.dev = a ∧
          rgN rBASIN_UE_TIME t.dev = (now d).toNat ∧ CauseUp 0x90 1 t ∧ slot e.1 t.dev = { e.2 with suspect := true } ∧
          (∀ x, x ≠ e.1 → slot x t.dev = slot x d) ∧ t.dev.basin = d.basin)) ∧
    (bit (rg rDRAM_SCRUB_CTRL d) 31 = true → 0 < a → a < dramBytes d →
      exec (.dramScrub a 0) s = .next s ∧
      (∃ t, exec (.dramScrub a 1) s = .next t ∧ WeirBecame { d.weir with dramCe := d.weir.dramCe + 1 } s t ∧ Counts (key 0x40) 1 s t ∧
        (d.weir.dramCe = 1000 → CauseUp 0xA0 2 t)) ∧
      (∀ u, d.weir.lists = [] → d.recd.staged = [u] → d.recd.retained = [] → ∃ t, exec (.dramScrub a 2) s = .next t ∧
        (Config.dramHolds a = 0 → t.dev.recd.staged = [] ∧ CauseUp 0x130 3 t ∧ CauseUp 0x130 4 t ∧ Counts rREC_CNT_LOST 1 s t) ∧
        (Config.dramHolds a ≠ 0 → t.dev.recd.staged = [u])) ∧
      (faulted 0xA0 d = false → d.weir.lists = [] → d.recd.staged = [] → d.recd.retained = [] → ∃ t, exec (.dramScrub a 2) s = .next t ∧ Became { d with regs := t.dev.regs } s t ∧ Counts (key 0x44) 1 s t ∧
        rgN (key 0x48) t.dev = a / 8 * 8 ∧ rgN (key 0x50) t.dev = (now d).toNat ∧ CauseUp 0xA0 1 t)) ∧
    (faulted 0xA0 d = false → h ≠ 0 → current h d = true → (slot (hSlot h) d).running = true →
      ∃ t, exec (.writeFail page part a h) s = .next t ∧ t.pending = s.pending ∧ Counts rDRAM_WFAIL_CNT 1 s t ∧ CauseUp 0xA0 3 t ∧
        slot (hSlot h) t.dev = { slot (hSlot h) d with suspect := true } ∧ (∀ x, x ≠ hSlot h → slot x t.dev = slot x d) ∧ t.dev.dram = d.dram)

namespace Sys2Proof
/-- The delay lists and what their events do (R27, R116, R117, R127, R168): an event whose instant has come is issued, unless one of another list has
an earlier one, and leaves its list; one of an old lease is discarded and counted; a prefetch collects the operand of the pass that follows and
re-inserts itself 1 ms later; data that arrives makes the operand of the oldest read present and fills the slot of its pass's token, and data of
an old lease is discarded and counted. -/
def DelayListEvents : Prop :=
  ∀ (s : State) (h : W32) (leg tag n : Nat) (e : DEvent) (rest : List DEvent) (cmd : Instr), let d := s.dev
    let w := d.weir
    let k := hSlot h
    let first : Prop := ∀ m ∈ List.range 8, ∀ x ∈ (dlist m d).take 1, m ≠ n → reached d x.target = true → 0 ≤ sdiff x.target e.target ∧ (x.target = e.target → n < m)
    let gone : Weir := { w with dl := tabSet (fun _ => []) w.dl n rest }
    let listed : Prop := dlist n d = e :: rest ∧ reached d e.target = true ∧ e.clip = false
    leg < 2 →
    (listed → (n, e.kind, cmd) ∈ [(2, DKind.playout leg, Instr.playoutEvent h leg), (7, .firmware tag, .firmwareTimer tag)] ∨ n = 4 ∧ cmd = .toneEventEnd h ∨
        n = 5 ∧ cmd = .inactivityTimeout h → e.handle = h →
      (first → h = 0 ∨ current h d = true → n = 5 ∨ n = 7 → exec cmd s = .next { s with dev := { d with weir := gone } }) ∧
      (first → h ≠ 0 → current h d = true → handleOf k d = h → n = 2 ∧ (legOf k leg d).held = [] ∨ n = 4 ∧ toneEnds k { d with weir := gone } = [] →
        ∃ t, exec cmd s = .next t ∧ t.pending = s.pending ∧ t.dev = { d with weir := { w with dl := t.dev.weir.dl } } ∧
          dlist n t.dev = rest.filter (fun x => !(decide (x.handle = h) && (decide (n = 4) || decide (x.kind = e.kind)))) ∧
          ∀ m, m ≠ n → dlist m t.dev = dlist m d) ∧
      (first → h ≠ 0 → current h d = false → ∃ t, exec cmd s = .next t ∧ t.dev.weir = gone ∧ t.dev.slots = d.slots ∧ Counts rWEIR_CNT_STALE_EVENT 1 s t) ∧
      (∀ m x, rest = [] → 1 ≤ m → m < 8 → m ≠ n → (dlist m d).head? = some x → reached d x.target = true → sdiff x.target e.target < 0 →
        exec cmd s = .next s)) ∧
    (listed → n = 1 → e.handle = h → e.kind = .prefetch leg → h ≠ 0 → current h d = true → rest.length < 32767 → first → 0 ≤ sdiff (e.target + 1000000) (now d) →
      sdiff (e.target + 1000000) (now d) ≤ 2000000000 →
      let p := e.target + 1000000
      ∃ t, exec (.prefetch h leg none) s = .next t ∧ t.pending = s.pending ∧ (legOf k leg t.dev).ops =
        (legOf k leg d).ops.filter (fun x => decide (sdiff p x.pass < 3000000) && decide (x.pass ≠ p)) ++ [⟨p, operandOf k leg p d, false⟩] ∧
        legOf k (1 - leg) t.dev = legOf k (1 - leg) d ∧ (dlist 1 t.dev).length = (dlist 1 d).length ∧
        ∃ x ∈ dlist 1 t.dev, x.handle = h ∧ x.kind = .prefetch leg ∧ x.target = gridUp p d) ∧
    (∀ o : PreOp, current h d = true → (legOf k leg d).ops.find? (fun x => !x.there) = some o →
      (o.op = .none ∨ w.tokens = [] → exec (.prefetchArrive h leg) s = .next { s with dev := modLeg k leg (fun g => { g with
        ops := g.ops.map fun x => if x.pass = o.pass then { x with there := true } else x }) d }) ∧
      (∀ x, o.op ≠ .none → w.tokens = [x] → x.elig = false → x.bus = false → x.handle = h → x.pass = o.pass → leg = 0 → x.fillA = false →
        ∃ t, exec (.prefetchArrive h leg) s = .next t ∧ t.dev.weir = { w with tokens := [{ x with fillA := true, inA := o.op }] })) ∧
    (current h d = false → ∃ t, exec (.prefetchArrive h leg) s = .next t ∧ t.dev.weir = w ∧ t.dev.slots = d.slots ∧ Counts rWEIR_CNT_STALE_PREFETCH 1 s t)

/-- A payload becomes visible at its deemed instant and joins the leg's jitter buffer; one whose pass has fired is late, counted and recorded (R171),
and TWIN_FETCH_FAIL rises if a twin fetch recovered it (R181); one of an old lease is discarded and counted (R127, R291). An RTCP report time that
has come counts the leg's report and queues one packet at the report's instant plus EGR_OFFSET (R164). QUIESCE that has lasted its 4 ms ends with
the slot FREE, its GEN kept and its granules freed; the last effect of closing a partition makes it CLOSED (R165, R283). -/
def LegsSlotsAndPartitionsEnd : Prop :=
  ∀ (s : State) (h : W32) (leg k p : Nat) (v : Visible) (rest : List Visible), let d := s.dev
    leg < 2 →
    (d.path.visible = v :: rest → v.handle = h → v.leg = leg → reached d v.at_ = true →
      let q := hSlot h
      let x := heldPlay v.held (descNow q d) leg (legOf q leg d) / 1000000 * 1000000
      let fired : Prop := (slot q d).running = true ∧ ((slot q d).actAt.toNat : Int) ≤ x ∧ x ≤ ((nt64Of d d.weir.lastP).toNat : Int) ∧
        passFired h (BitVec.ofInt 32 x) d = true
      (current h d = true → d.weir.tokens = [] → (legOf q leg d).ops = [] →
        ∃ t, exec (.operandVisible h leg) s = .next t ∧ t.pending = s.pending ∧ t.dev.path = { d.path with visible := rest } ∧
          slot q t.dev = slot q (modLeg q leg (fun g => { g with held := g.held ++ [v.held] }) d) ∧ (∀ y, y ≠ q → slot y t.dev = slot y d) ∧
          (fired → Counts rJB_CNT_LATE 1 s t) ∧ (¬ fired → rg rJB_CNT_LATE t.dev = rg rJB_CNT_LATE d) ∧
          (fired → v.fetched = true → faulted 0x120 d = false → CauseUp 0xD0 1 t)) ∧
      (current h d = false → ∃ t, exec (.operandVisible h leg) s = .next t ∧ t.dev.path = { d.path with visible := rest } ∧ t.dev.slots = d.slots ∧
        Counts rJB_CNT_STALE 1 s t)) ∧
    (∀ (e : DEvent), dlist 3 d = [e] → (∀ m, m < 8 → m ≠ 3 → dlist m d = []) → e.clip = false → e.handle = h → reached d e.target = true → h ≠ 0 →
      current h d = true → handleOf (hSlot h) d = h →
      let q := hSlot h
      let l := (slot q d).desc
      let g := legOf q leg d
      let f := flow (txFlow l leg) d
      let due := (slot q d).actAt.toNat + (q * 1009 % (fld (lw l leg 9) 15 0) + g.reports * fld (lw l leg 9) 15 0) * 1000000
      reports q leg d = true → reports q (1 - leg) d = false → due ≤ (now64 d).toNat → due < 2 ^ 64 → trunkOf q leg d = none → legSuite l leg = 0 →
      f.held = true → fHandle f = h → fLeg f = leg → bit (fw f 0) 2 = false → (port (portOf l leg d) d).q6.length < 16384 →
      ∃ t x y, exec (.rtcpReport h leg) s = .next t ∧ t.pending = s.pending ∧ (legOf q leg t.dev).reports = g.reports + 1 ∧
        (legOf q leg t.dev).sinceReport = false ∧ (port (portOf l leg d) t.dev).q6.length = (port (portOf l leg d) d).q6.length + 1 ∧
        x ∈ (port (portOf l leg d) t.dev).q6 ∧ x.kind = 1 ∧ x.handle = h ∧ x.leg = leg ∧
        x.at_ = BitVec.ofNat 32 due + BitVec.ofNat 32 (egrOffset l leg) ∧ x.pkt = some y ∧ y.rtcp = true ∧ y.ttl = 64 ∧ y.ssrc = lw l leg 1 ∧
        y.flow = f.words ∧ y.payload = reportBytes q leg (BitVec.ofNat 64 due) d ∧ y.trailer = []) ∧
    ((slot k d).st = .quiesce → reached d (slot k d).quiesceAt = true → ∃ t, exec (.quiesceEnd k) s = .next t ∧ t.pending = s.pending ∧
      t.dev = { d with slots := t.dev.slots, nextFree := d.nextFree + 1 } ∧ slot k t.dev = { Slot.reset with gen := (slot k d).gen, freed := d.nextFree + 1 } ∧
      ∀ x, x ≠ k → slot x t.dev = slot x d) ∧
    (p < 1024 → fld (rg (kPart p oPART_STATE) d) 1 0 = 2 → p ∉ d.closing → ∃ t, exec (.partitionClosed p) s = .next t ∧
      Became { d with regs := t.dev.regs } s t ∧ fld (rg (kPart p oPART_STATE) t.dev) 1 0 = 0 ∧ CauseUp (0x200 + p) 2 t ∧
      ∀ q, q ≠ kPart p oPART_STATE → rg q t.dev = rg q d)

end Sys2Proof
/-- The delay lists and what their events do (R27, R116, R117, R127, R168): an event whose instant has come is issued, unless one of another list has
an earlier one, and leaves its list; one of an old lease is discarded and counted; a prefetch collects the operand of the pass that follows and
re-inserts itself 1 ms later; data that arrives makes the operand of the oldest read present and fills the slot of its pass's token, and data of
an old lease is discarded and counted. A payload becomes visible at its deemed instant and joins the leg's jitter buffer; one whose pass has
fired is late, counted and recorded (R171), and TWIN_FETCH_FAIL rises if a twin fetch recovered it (R181); one of an old lease is discarded and
counted (R127, R291). An RTCP report time that has come counts the leg's report and queues one packet at the report's instant plus EGR_OFFSET
(R164). QUIESCE that has lasted its 4 ms ends with the slot FREE, its GEN kept and its granules freed; the last effect of closing a partition
makes it CLOSED (R165, R283). -/
def Obligations.DelayListsLegsAndSlots : Prop := DelayListEvents ∧ LegsSlotsAndPartitionsEnd

namespace Sys2Proof
/-! ### The packet path -/
/-- A frame passes every check of stage 1 of its media port (R305 to R307). -/
abbrev PassesStage1 (f : RxFrame) (held shared : Nat) (d : Dev) : Prop :=
  let mx := fld (rg (kMac f.port 0 oMAC_CFG) d) 13 0
  portOn f.port d = true ∧ 64 ≤ f.len ∧ f.len ≤ mx ∧ f.fcsOk = true ∧ f.aligned = true ∧ addrOk f d = true ∧
    held + mx ≤ fld (rg (kMac f.port 3 (oMAC_RXQ_LIMIT + 4 * rxQueue f d)) d) 6 0 * 1024 ∧ shared + mx ≤ 65536

/-- A partition's policer is off (R158, R184). -/
abbrev Unpoliced (p : Nat) (d : Dev) : Prop := (policer p d).pkt = 0 ∧ (policer p d).byte = 0

/-- The device is in SERVICE and no twin. -/
abbrev Serves (d : Dev) : Prop := d.pwr.st = .service ∧ d.twin.role = .alone

/-- A frame is media, neither PTP, LLDP, PAUSE, PFC nor Peer Fabric (R147). -/
abbrev MediaFrame (f : RxFrame) : Prop := isPtp f = false ∧ isLldp f = false ∧ f.etherType ≠ 0x88B5 ∧ f.etherType ≠ 0x8808

end Sys2Proof
/-- A frame at a media port (R145, R147 to R150, R305 to R307): nothing happens on a disabled port; runts, frames that find no room, long ones, FCS and
alignment errors and foreign addresses are dropped and counted once each, first case first; a frame that is not IP is an exception UNBOUND of
partition 0, dropped and counted where CLS_EXC_DROP says so, otherwise copied to DATA_BASE and recorded; a bad IP header is counted; a PAUSE or PFC
frame ends at the port (R147). -/
def Obligations.FramesThatAreNoPackets : Prop :=
  ∀ (s : State) (f : RxFrame) (held shared : Nat), let d := s.dev
    let p := f.port
    let mx := fld (rg (kMac p 0 oMAC_CFG) d) 13 0
    let q := rxQueue f d
    let lim := fld (rg (kMac p 3 (oMAC_RXQ_LIMIT + 4 * q)) d) 6 0 * 1024
    let full := lim < held + mx ∨ 65536 < shared + mx
    let r := ring (ringKey 0 1) d
    let dropped (off : Nat) : Prop := ∃ t, exec (.frameRx f held shared) s = .next t ∧ Became { d with regs := t.dev.regs } s t ∧
      Counts (kMac p 1 off) 1 s t ∧ ∀ k, k ≠ kMac p 1 off → rg k t.dev = rg k d
    (portOn p d = false → exec (.frameRx f held shared) s = .next s) ∧
    (portOn p d = true →
      (f.len < 64 → dropped 0x7C) ∧
      (64 ≤ f.len → full → dropped (0xC0 + 4 * q)) ∧
      (64 ≤ f.len → ¬ full → mx < f.len → dropped 0x80) ∧
      (64 ≤ f.len → ¬ full → f.len ≤ mx → f.fcsOk = false → dropped 0x74) ∧
      (64 ≤ f.len → ¬ full → f.len ≤ mx → f.fcsOk = true → f.aligned = false → dropped 0x78) ∧
      (64 ≤ f.len → ¬ full → f.len ≤ mx → f.fcsOk = true → f.aligned = true → addrOk f d = false → dropped 0x8C)) ∧
    (PassesStage1 f held shared d → Serves d → f.etherType = 0x8808 → ∃ t, exec (.frameRx f held shared) s = .next t ∧
      Became { d with regs := t.dev.regs } s t ∧ rg rCLS_CNT_RX t.dev = rg rCLS_CNT_RX d) ∧
    (PassesStage1 f held shared d → Serves d → MediaFrame f →
      (f.ip = none → f.tags.length ≤ 2 → Unpoliced 0 d →
        ∃ t, exec (.frameRx f held shared) s = .next t ∧ t.pending = s.pending ∧ t.dev.path = d.path ∧ t.dev.slots = d.slots ∧ Counts rCLS_CNT_RX 1 s t ∧
          Counts rCLS_CNT_UNBOUND 1 s t ∧
          (bit (rg rCLS_EXC_DROP d) 1 = true → Counts rCLS_CNT_EXC_DROP 1 s t) ∧
          (bit (rg rCLS_EXC_DROP d) 1 = false → r.enable = true → r.lost = 0 → 1 ≤ r.room →
            (ring (ringKey 0 1) t.dev).prod = r.prod + 1 ∧
            .hostCopy (ridPart d 0) (r.dataBase.toNat + 2048 * (r.prod.toNat % r.size)) (f.head.take 2048) ∈ t.dev.outbox)) ∧
      (∀ x, f.ip = some x → f.tags = [] → x.sumBad = true → ∃ t, exec (.frameRx f held shared) s = .next t ∧ Became { d with regs := t.dev.regs } s t ∧
        Counts rCLS_CNT_BAD_HDR 1 s t ∧ Counts rCLS_CNT_RX 1 s t ∧ (faulted (macPage p) d = false → CauseUp 0xB0 2 t)))

/-- The first packet of an unprotected adaptive leg (R145, R154, R166, R167, R169, R291): its flow entry names the leg; CLS_CNT_MATCH advances, the leg
is anchored at the pass boundary at or before arrival plus TARGET, and the payload waits for its deemed instant, the arrival plus the bound B
of R146, whatever ACCEPT_WIN is. Nothing else of the path, and no other slot or leg, changes. The policers are off and the flow checks no SSRC. -/
def Obligations.FirstPacketOfALeg : Prop :=
  ∀ (s : State) (f : RxFrame) (held shared i p : Nat) (x : IpPkt), let d := s.dev
    let e := flow i d
    let h := fHandle e
    let leg := fLeg e
    let k := hSlot h
    let l := descNow k d
    let g := legOf k leg d
    let r := x.rtp
    let arr := nt64Of d (stampNt (rxStamp16 f.port f.stamp f.frac d))
    let at_ : NT32 := (arr + BitVec.ofNat 64 (ingressBound f.port f.len d)).extractLsb' 0 32
    PassesStage1 f held shared d → Serves d → MediaFrame f → f.ip = some x → f.tags = [] →
    x.sumBad = false → x.lenBad = false → x.options = false → x.fragment = false → x.udp = true → x.udpSumBad = false → x.udpSumZero = false →
    ownerOf x.v6 x.dst x.dport.toNat d = some p → lookupFlow x [] d = some i → Unpoliced (hPart h) d → fld (fw e 14) 31 16 = 0 →
    r.version = 2 → r.inHead = true → r.padBad = false → bit (fw e 0) 3 = false → bit (lw l leg 0) 8 = false → isRtp l leg = true →
    r.pt = rxPt l leg → evtPt l leg = 0 → fld (fw e 0) 5 4 = 0 → legSuite l leg = 0 → bit (lw l leg 0) 4 = false → (slot k d).media.passThrough = false →
    (slot k d).part = hPart h → handleOf k d = h →
    g.anchor = none → g.held = [] → d.path.visible = [] → 0 < jbTarget l leg → jbTarget l leg ≤ jbMax l leg →
    g.heard = false → arr.toNat < 2 ^ 63 →
    ∃ t, exec (.frameRx f held shared) s = .next t ∧
      Became { d with regs := t.dev.regs, slots := t.dev.slots, path := { d.path with visible := [⟨h, leg, at_, ⟨r.seq, r.pt, r.marker, r.ts, arr, r.payload⟩, false, none⟩] } } s t ∧
      Counts rCLS_CNT_MATCH 1 s t ∧ Counts rCLS_CNT_RX 1 s t ∧ (∀ j, j ≠ k → slot j t.dev = slot j d) ∧ legOf k (1 - leg) t.dev = legOf k (1 - leg) d ∧
      (legOf k leg t.dev).anchor = some (BitVec.ofNat 64 ((arr.toNat + jbTarget l leg * 1000000) / 1000000 * 1000000), r.ts) ∧
      (legOf k leg t.dev).held = [] ∧ (legOf k leg t.dev).heard = true

namespace Sys2Proof
/-- Flow operations (R151, R152, R155 to R157), on a device that is no twin: READ copies the entry into FLW_ENTRY; REMOVE empties it, refused IN_USE for
an ACTIVE leg's TX_FLOW; ADD takes the lowest index neither held nor freed within 4 passes, SSRC_LEARNED clear, and returns it in FLW_IDX;
MODIFY replaces what it may and refuses a changed fixed field, an address no longer the partition's (FOREIGN) and a slot that is releasing (STALE);
an unused index is EMPTY, another partition's FOREIGN; while BUSY, a write is rejected. -/
def FlowOperations : Prop :=
  ∀ (s : State) (fn part i : Nat), let d := s.dev
    let p := winPart fn part
    let st := kFlw p oFLW_STATUS
    let f := flow (flwIdx p d) d
    let ws := stagedFlow p d
    let w0 := ws.getD 0 0 &&& ~~~0x80
    let new := newFlow ws d
    let reports (cmd : Instr) (n : Nat) : Prop := ∃ t, exec cmd s = .next t ∧ OnlyRegisters [st] s t ∧ rgN st t.dev = n
    let onlyFlow (cmd : Instr) (j : Nat) (x : Flow) (l : List Nat) : Prop := ∃ t, exec cmd s = .next t ∧ t.pending = s.pending ∧
      t.dev = { d with regs := t.dev.regs, path := { d.path with flows := t.dev.path.flows } } ∧ (∀ k, k ∉ st :: l → rg k t.dev = rg k d) ∧
      rgN st t.dev = 0 ∧ (∀ k ∈ l, rgN k t.dev = j) ∧ flow j t.dev = x ∧ ∀ k, k ≠ j → flow k t.dev = flow k d
    Reaches fn d → p < 1024 → d.twin.role = .alone →
    (bit (rg st d) 31 = true → ∀ cmd ∈ [Instr.flwRead fn part, .flwAdd fn part, .flwRemove fn part, .flwModify fn part],
      ∃ t, exec cmd s = .next t ∧ Rejected fn 5 0 (winAddr fn part 2 oFLW_OP) 4 s t) ∧
    (bit (rg st d) 31 = false →
      (∀ cmd ∈ [Instr.flwRead fn part, .flwRemove fn part, .flwModify fn part],
        (f.held = false → reports cmd 8) ∧ (f.held = true → hPart (fHandle f) ≠ p → reports cmd 6)) ∧
      (f.held = true → hPart (fHandle f) = p →
        (∃ t, exec (.flwRead fn part) s = .next t ∧ OnlyRegisters (st :: (List.range 16).map fun j => kFlw p (oFLW_ENTRY + 4 * j)) s t ∧
          rgN st t.dev = 0 ∧ ∀ j, j < 16 → rgN (kFlw p (oFLW_ENTRY + 4 * j)) t.dev = (fw f j).toNat) ∧
        (flowInUse p (flwIdx p d) d = true → reports (.flwRemove fn part) 7) ∧
        (flowInUse p (flwIdx p d) d = false → onlyFlow (.flwRemove fn part) (flwIdx p d) { Flow.reset with freeAt := some (now64 d) } []) ∧
        ((∃ j, j < 16 ∧ (ws.getD j 0 ^^^ fw f j) &&& BitVec.ofNat 32 (fixedBits j) ≠ 0) → reports (.flwModify fn part) 5) ∧
        (badEntry { f with words := ws.set 0 w0 } = false → (∀ j, j < 16 → (ws.getD j 0 ^^^ fw f j) &&& BitVec.ofNat 32 (fixedBits j) = 0) →
          fld w0 5 4 ≠ fld (fw f 0) 5 4 →
          (ownerOf (bit (fw f 0) 0) (fLocal f) (fLocalPort f) d ≠ some p → reports (.flwModify fn part) 6) ∧
          (ownerOf (bit (fw f 0) 0) (fLocal f) (fLocalPort f) d = some p → leased (fHandle f) d = false → reports (.flwModify fn part) 1) ∧
          (ownerOf (bit (fw f 0) 0) (fLocal f) (fLocalPort f) d = some p → leased (fHandle f) d = true → onlyFlow (.flwModify fn part) (flwIdx p d)
            { f with words := ws.set 0 w0, tok := fld (ws.getD 15 0) 7 0 * 1000000000, tokAt := now64 d } []))) ∧
      (badEntry new = true → reports (.flwAdd fn part) 5) ∧
      (badEntry new = false → hPart (fHandle new) ≠ p → reports (.flwAdd fn part) 6) ∧
      (badEntry new = false → hPart (fHandle new) = p → ownerOf (bit w0 0) (fLocal new) (fLocalPort new) d = some p →
        (leased (fHandle new) d = false → reports (.flwAdd fn part) 1) ∧
        (leased (fHandle new) d = true → partState p d = 1 → flowsOf p d + 1 ≤ rgN (kPart p oPART_Q_FLOWS) d → flowsHeld d < 32768 →
          (duplicate new d = true → reports (.flwAdd fn part) 4) ∧
          (duplicate new d = false → tabWf (fun _ => Flow.reset) d.path.flows = true → i < 32768 → (flow i d).held = false → (flow i d).freeAt = none →
            (∀ j, j < i → (flow j d).held = true) → bit w0 1 = false →
            onlyFlow (.flwAdd fn part) i ⟨true, ws.set 0 w0, false, 0, fld (ws.getD 15 0) 7 0 * 1000000000, now64 d, none⟩ [kFlw p oFLW_IDX]))))

/-- Key operations (R159, R162, R163), on a device that is no twin: INSTALL loads the slot the leg, direction and slot number name with the staged key
of the suite's length, salt, MKI and ROC, its windows and counts new; ERASE empties it; a handle of another partition is FOREIGN and an old
one STALE. In every case the staging registers read 0 after it. -/
def KeyOperations : Prop :=
  ∀ (s : State) (fn part : Nat), let d := s.dev
    let p := winPart fn part
    let st := kKey p oKEY_STATUS
    let h : W32 := (rg (kKey p oKEY_SEL) d).extractLsb' 0 32
    let c : W32 := (rg (kKey p oKEY_CTRL) d).extractLsb' 0 32
    let staged := [kKey p oKEY_ROC, kKey p oKEY_MKI] ++ ((List.range 8).map fun i => kKey p (oKEY_MASTER + 4 * i)) ++
      (List.range 4).map fun i => kKey p (oKEY_SALT + 4 * i)
    let words (o n : Nat) : List W32 := (List.range n).map fun i => (rg (kKey p (o + 4 * i)) d).extractLsb' 0 32
    let k := hSlot h
    let leg := fld c 0 0
    let suite := legSuite (descNow k d) leg
    let i := keyIdx k leg (fld c 1 1) (fld c 2 2)
    let ended (cmd : Instr) (n : Nat) (t : State) : Prop := exec cmd s = .next t ∧ t.pending = s.pending ∧
      t.dev = { d with regs := t.dev.regs, path := { d.path with keys := t.dev.path.keys } } ∧ (∀ q ∈ staged, rg q t.dev = 0) ∧
      (∀ q, q ∉ st :: staged → rg q t.dev = rg q d) ∧ rgN st t.dev = n
    Reaches fn d → p < 1024 → d.twin.role = .alone → bit (rg st d) 31 = false →
    (∀ cmd ∈ [Instr.keyInstall fn part, .keyErase fn part], (hPart h ≠ p → ∃ t, ended cmd 6 t ∧ t.dev.path = d.path) ∧
      (hPart h = p → leased h d = false → ∃ t, ended cmd 1 t ∧ t.dev.path = d.path)) ∧
    (hPart h = p → leased h d = true →
      (∃ t, ended (.keyErase fn part) 0 t ∧ keyOf i t.dev = Key.reset ∧ ∀ j, j ≠ i → keyOf j t.dev = keyOf j d) ∧
      (suite = 0 ∨ isRtp (descNow k d) leg = false ∨ 4 < fld c 5 3 → ∃ t, ended (.keyInstall fn part) 5 t ∧ t.dev.path = d.path) ∧
      (suite ≠ 0 → isRtp (descNow k d) leg = true → fld c 5 3 ≤ 4 →
        (∀ b, (if suite = 4 then 32 else 16) ≤ b → b < 32 → stagedByte (words oKEY_MASTER 8) b = 0) →
        (∀ b, (if suite ≤ 2 then 14 else 12) ≤ b → b < 16 → stagedByte (words oKEY_SALT 4) b = 0) →
        ∃ t, ended (.keyInstall fn part) 0 t ∧ (∀ j, j ≠ i → keyOf j t.dev = keyOf j d) ∧
          (keyOf i t.dev).loaded = true ∧ (keyOf i t.dev).key = (words oKEY_MASTER 8).take (if suite = 4 then 8 else 4) ∧
          (keyOf i t.dev).salt = words oKEY_SALT 4 ∧ (keyOf i t.dev).mkiLen = fld c 5 3 ∧
          (keyOf i t.dev).mki.toNat = rgN (kKey p oKEY_MKI) d % 2 ^ 32 % 2 ^ (8 * fld c 5 3) ∧
          (keyOf i t.dev).roc = rgN (kKey p oKEY_ROC) d % 2 ^ 32 ∧ (keyOf i t.dev).top = none ∧ (keyOf i t.dev).sent = 0 ∧ (keyOf i t.dev).rtcpSent = 0))

end Sys2Proof
/-- Flow operations (R151, R152, R155 to R157), on a device that is no twin: READ copies the entry into FLW_ENTRY; REMOVE empties it, refused IN_USE
for an ACTIVE leg's TX_FLOW; ADD takes the lowest index neither held nor freed within 4 passes, SSRC_LEARNED clear, and returns it in FLW_IDX;
MODIFY replaces what it may and refuses a changed fixed field, an address no longer the partition's (FOREIGN) and a slot that is releasing
(STALE); an unused index is EMPTY, another partition's FOREIGN; while BUSY, a write is rejected. Key operations (R159, R162, R163), on a device
that is no twin: INSTALL loads the slot the leg, direction and slot number name with the staged key of the suite's length, salt, MKI and ROC, its
windows and counts new; ERASE empties it; a handle of another partition is FOREIGN and an old one STALE. In every case the staging registers read
0 after it. -/
def Obligations.FlowAndKeyOperations : Prop := FlowOperations ∧ KeyOperations
/-- Bindings, seed and JB_CTRL as the host writes them, and the launch of a packet (R151, R175, R176, R182, R186, R309): a binding that overlaps no valid
one takes effect, one that does is rejected RANGE; CLS_SEED is written while no entry is held and rejected BUSY otherwise; JB_CTRL out of its
ranges is rejected RANGE. The head of Q6 leaves an idle port at its launch instant, and not before; reading EGR_LATE_MAX clears it. The device is
no twin. -/
def Obligations.BindingsAndLaunch : Prop :=
  ∀ (s : State) (v w : W32) (seed : W64) (p : Nat) (e : Q6Ent) (rest : List Q6Ent) (pkt : TxPkt), let d := s.dev
    let i := fld (rg rCLS_BIND_SEL d) 9 0
    let b : Binding := { binding i d with ctrl := v &&& 0xC3FF00FF }
    let clash := b.valid = true ∧ ((∃ x ∈ d.path.binds, x.1 ≠ i ∧ x.2.valid = true ∧ x.2.overlaps b = true) ∨ b.width < fld b.ctrl 7 0)
    let x := w &&& 0xFF0FFFFF
    let inRange := 1 ≤ fld x 31 24 ∧ 1 ≤ fld x 19 16 ∧ 200 ≤ fld x 15 0 ∧ fld x 15 0 ≤ 10000
    let launch : NT32 := if 0 ≤ sdiff (now d) e.at_ then now d else e.at_
    d.twin.role = .alone →
    (HostUp d → (hdr 0xB0 d).locked = false →
      (clash → ∃ t, exec (.bindingWrite v) s = .next t ∧ Rejected 0 6 0 rCLS_BIND_CTRL 4 s t) ∧
      (¬ clash → b.valid = true ∨ (binding i d).valid = false →
        exec (.bindingWrite v) s = .next { s with dev := { d with path := { d.path with binds := tabSet (fun _ => ⟨0, 0, []⟩) d.path.binds i b } } })) ∧
    ((∀ y ∈ d.path.flows, y.2.held = false) → exec (.clsSeedWrite seed) s = .next { s with dev := { d with path := { d.path with seed := seed } } }) ∧
    ((∃ y ∈ d.path.flows, y.2.held = true) → ∃ t, exec (.clsSeedWrite seed) s = .next t ∧ Rejected 0 5 0 rCLS_SEED 8 s t) ∧
    (HostUp d → (hdr 0xD0 d).locked = false →
      (¬ inRange → ∃ t, exec (.jbCtrlWrite w) s = .next t ∧ Rejected 0 6 0 rJB_CTRL 4 s t) ∧
      (inRange → d.path.nextJb = [] → ∃ t, exec (.jbCtrlWrite w) s = .next t ∧ OnlyRegisters [rJB_CTRL] s t ∧ rgN rJB_CTRL t.dev = x.toNat)) ∧
    (p < 4 → (port p d).q6 = e :: rest → (port p d).ctl = [] → 20 < sdiff e.at_ (now d) → exec (.egressLaunch p) s = .next s) ∧
    (p < 4 → (port p d).q6 = e :: rest → (port p d).ctl = [] → e.pkt = some pkt → sdiff e.at_ (now d) ≤ 20 → sdiff (now d) e.at_ ≤ 20 → mayLaunch d = true →
      bit (rg (kMac p 0 oMAC_PAUSE_STATE) d) 6 = false → linkUp p d = true → bit (macStatus p d) 3 = false → (port p d).wakeAt = none →
      (port p d).busy = none →
      (wireNs p e.octets d : Int) ≤ sdiff (passOf e.at_ d + BitVec.ofNat 32 ((egrWindow e.part (if mode1 d then 0 else p) d).2 * 1000)) launch →
      ∃ t, exec (.egressLaunch p) s = .next t ∧ Became { d with regs := t.dev.regs, ports := t.dev.ports } s t ∧ (port p t.dev).q6 = rest ∧
        (∀ q, q ≠ p → port q t.dev = port q d) ∧ Counts rEGR_CNT_TX 1 s t ∧ .packet p 6 launch pkt ∈ t.dev.outbox) ∧
    (HostUp d → ∃ t, exec .lateMaxRead s = .next t ∧ t.pending = s.pending ∧ t.dev = { d with regs := t.dev.regs, outbox := t.dev.outbox } ∧
      rgN rEGR_LATE_MAX t.dev = 0 ∧ (∀ k, k ≠ rEGR_LATE_MAX → rg k t.dev = rg k d) ∧
      t.dev.outbox = .readReply 0 0 rEGR_LATE_MAX 4 (rgN rEGR_LATE_MAX d) :: d.outbox)

namespace Sys2Proof
/-- The exact result of the arithmetic operations (R238, R273). -/
def exactOf (op : TOp) (x y : Int) : Int :=
  match op with
  | .add => x + y | .addi => x + y | .sub => x - y | .subi => x - y | .cmp => x - y | .cmpi => x - y
  | .neg => -x | .abs => |x| | .min => min x y | .max => max x y | _ => x

/-- The carry or borrow of the high operands of a width, where the operation has one (R238). -/
def carryOf (op : TOp) (w : Nat) (x y : Nat) : Option Bool :=
  match op with
  | .add => some (decide (2 ^ w ≤ x + y)) | .addi => some (decide (2 ^ w ≤ x + y))
  | .sub => some (decide (x < y)) | .subi => some (decide (x < y)) | .cmp => some (decide (x < y)) | .cmpi => some (decide (x < y))
  | _ => none

/-- The two 18-bit halves of a word (R10). -/
def upper (v : Word) : BitVec 18 := v.extractLsb' 18 18

/-- The low half. -/
def lower (v : Word) : BitVec 18 := v.extractLsb' 0 18

/-- The result of an arithmetic operation on a word or, paired, on its halves independently (R238). -/
def arithmetic (op : TOp) (paired sat : Bool) (a b : Word) : Word :=
  if paired then clipped 18 sat (exactOf op (upper a).toInt (upper b).toInt) ++ clipped 18 sat (exactOf op (lower a).toInt (lower b).toInt)
  else clipped 36 sat (exactOf op a.toInt b.toInt)

/-- Its C. -/
def arithmeticC (op : TOp) (paired : Bool) (a b : Word) : Option Bool :=
  if paired then carryOf op 18 (upper a).toNat (upper b).toNat else carryOf op 36 a.toNat b.toNat

/-- Its V. -/
def arithmeticV (op : TOp) (paired : Bool) (a b : Word) : Bool :=
  if paired then leaves 18 (exactOf op (upper a).toInt (upper b).toInt) || leaves 18 (exactOf op (lower a).toInt (lower b).toInt)
  else leaves 36 (exactOf op a.toInt b.toInt)

/-- ST after an instruction that sets N and Z from `v`, C where given, and V and DZ where true, these two being sticky; no other bit
changes (R227, R238). -/
def FlagsFrom (v : Word) (c : Option Bool) (ov dz : Bool) (x y : Tarn) : Prop :=
  bit (tr 0x30 y) 2 = bit v 35 ∧ bit (tr 0x30 y) 1 = decide (v = 0) ∧ bit (tr 0x30 y) 0 = c.getD (bit (tr 0x30 x) 0) ∧
    bit (tr 0x30 y) 3 = (ov || bit (tr 0x30 x) 3) ∧ bit (tr 0x30 y) 4 = (dz || bit (tr 0x30 x) 4) ∧
    ∀ k, 5 ≤ k → bit (tr 0x30 y) k = bit (tr 0x30 x) k

/-- ADD, SUB, NEG, ABS, MIN, MAX and CMP, and ADDI, SUBI and CMPI on a D register: the exact result of the operands, saturated or
wrapped, in the destination (CMP and CMPI write none), the flags from it, and nothing else changed but the program counter and what
counts with the instruction (R238, R273, R274). -/
def ArithmeticResults : Prop :=
  ∀ (c : Nat) (i : TI) (s : State) (op : TOp) (cmd : Instr),
    (op, cmd) ∈ [(TOp.add, Instr.add c), (.sub, .sub c), (.neg, .neg c), (.abs, .abs c), (.min, .min c), (.max, .max c), (.cmp, .cmp c),
      (.addi, .addi c), (.subi, .subi c), (.cmpi, .cmpi c)] →
    Next c op i s → i.rd < 16 →
    let x := issuing c s
    let imm := decide (op = .addi ∨ op = .subi ∨ op = .cmpi)
    let a := readReg c (if imm then i.rd else i.rs) x
    let b := if imm then i.imm else readReg c i.rt x
    let p := !imm && i.p
    let v := arithmetic op p (satOf x) a b
    let writes := !decide (op = .cmp ∨ op = .cmpi)
    ∃ t, exec cmd s = .next t ∧ Computes c (if writes then [i.rd, 0x30] else [0x30]) s t ∧
      (writes = true → tr i.rd (tarn c t.dev) = v.zeroExtend 64) ∧
      FlagsFrom v (arithmeticC op p a b) (arithmeticV op p a b) false (tarn c s.dev) (tarn c t.dev)

/-- The exact value of a shift: left for n > 0, right for n < 0, arithmetic or logical (R239). -/
def shifted (logical : Bool) {w : Nat} (v : BitVec w) (n : Int) : Int :=
  if 0 ≤ n then v.toInt * 2 ^ n.toNat else if logical then ((v.toNat / 2 ^ (-n).toNat : Nat) : Int) else v.toInt / 2 ^ (-n).toNat

/-- A shift result: a left shift saturates or loses bits, a right shift always fits its width as a pattern (R239). -/
def shiftResult (logical sat : Bool) {w : Nat} (v : BitVec w) (n : Int) : BitVec w :=
  if 0 < n then clipped w sat (shifted logical v n) else BitVec.ofInt w (shifted logical v n)

/-- V of a shift: a significant bit is lost (R239). -/
def shiftV {w : Nat} (v : BitVec w) (n : Int) : Bool := decide (0 < n) && leaves w (shifted false v n)

/-- C of a shift: the last bit shifted out for amounts 1 to the width, otherwise 0 (R239). -/
def shiftC {w : Nat} (v : BitVec w) (n : Int) : Bool :=
  if 0 < n ∧ n ≤ w then bit v (w - n.toNat) else if n < 0 ∧ -n ≤ w then bit v ((-n).toNat - 1) else false

/-- ASH, LSH, ASHI and LSHI (R239, R273, R274): bits [6:0] of the amount read as signed shift left or right; a left shift that loses a
significant bit saturates under SAT and sets V; C is the last bit shifted out; paired forms shift the halves. -/
def ShiftResults : Prop :=
  ∀ (c : Nat) (i : TI) (s : State) (op : TOp) (cmd : Instr),
    (op, cmd) ∈ [(TOp.ash, Instr.ash c), (.lsh, .lsh c), (.ashi, .ashi c), (.lshi, .lshi c)] → Next c op i s → i.rd < 16 →
    let x := issuing c s
    let imm := decide (op = .ashi ∨ op = .lshi)
    let logical := decide (op = .lsh ∨ op = .lshi)
    let a := readReg c (if imm then i.rd else i.rs) x
    let n : Int := ((if imm then i.imm else readReg c i.rt x).extractLsb' 0 7).toInt
    let p := !imm && i.p
    let v : Word := if p then shiftResult logical (satOf x) (upper a) n ++ shiftResult logical (satOf x) (lower a) n
      else shiftResult logical (satOf x) a n
    ∃ t, exec cmd s = .next t ∧ Computes c [i.rd, 0x30] s t ∧ tr i.rd (tarn c t.dev) = v.zeroExtend 64 ∧
      FlagsFrom v (some (if p then shiftC (upper a) n else shiftC a n)) (if p then shiftV (upper a) n || shiftV (lower a) n else shiftV a n)
        false (tarn c s.dev) (tarn c t.dev)

end Sys2Proof
/-- ADD, SUB, NEG, ABS, MIN, MAX and CMP, and ADDI, SUBI and CMPI on a D register: the exact result of the operands, saturated or wrapped, in the
destination (CMP and CMPI write none), the flags from it, and nothing else changed but the program counter and what counts with the instruction
(R238, R273, R274). ASH, LSH, ASHI and LSHI (R239, R273, R274): bits [6:0] of the amount read as signed shift left or right; a left shift that
loses a significant bit saturates under SAT and sets V; C is the last bit shifted out; paired forms shift the halves. -/
def Obligations.ArithmeticAndShifts : Prop := ArithmeticResults ∧ ShiftResults

namespace Sys2Proof
/-- AND, OR, XOR and NOT, and ANDI, ORI and XORI on a D register: the bits combined, N and Z from the result, C, V and DZ unchanged
(R238, R273, R274). -/
def LogicResults : Prop :=
  ∀ (c : Nat) (i : TI) (s : State) (op : TOp) (cmd : Instr),
    (op, cmd) ∈ [(TOp.and_, Instr.andI c), (.or_, .orI c), (.xor, .xor c), (.not_, .notI c), (.andi, .andi c), (.ori, .ori c),
      (.xori, .xori c)] → Next c op i s → i.rd < 16 →
    let x := issuing c s
    let imm := decide (op = .andi ∨ op = .ori ∨ op = .xori)
    let a := readReg c (if imm then i.rd else i.rs) x
    let b := if imm then i.imm else readReg c i.rt x
    let v : Word := match op with | .and_ => a &&& b | .andi => a &&& b | .or_ => a ||| b | .ori => a ||| b | .not_ => ~~~a | _ => a ^^^ b
    ∃ t, exec cmd s = .next t ∧ Computes c [i.rd, 0x30] s t ∧ tr i.rd (tarn c t.dev) = v.zeroExtend 64 ∧
      FlagsFrom v none false false (tarn c s.dev) (tarn c t.dev)

/-- The value a register holds after the word `v` is written to register `n` of R265: the low bits of its width, and in WLO and WHI
bits [15:14] at 1 (R227, R265). ST is not among them. -/
def heldAfter (n : Nat) (v : Word) : W64 :=
  if n < 16 then v.zeroExtend 64
  else if n = 0x32 ∨ n = 0x33 ∨ n = 0x38 ∨ n = 0x3C then (v.extractLsb' 0 14).zeroExtend 64
  else if n = 0x3A ∨ n = 0x3B then ((v.extractLsb' 0 16) ||| 0xC000).zeroExtend 64
  else (v.extractLsb' 0 16).zeroExtend 64

/-- ST after a write of the word `v`: RND, SAT, DZ, V, N, Z and C take its bits, IE too in supervisor mode, and nothing else changes
(R227, R253). -/
def StWritten (v : Word) (x y : Tarn) : Prop :=
  ∀ k, bit (tr 0x30 y) k = if k ∈ [0, 1, 2, 3, 4, 7, 8] ∨ (k = 14 ∧ userMode x = false) then bit v k else bit (tr 0x30 x) k

/-- The register `n` of core `c` took the word `v`; of LC this is said where no loop-end test counts it. -/
def Took (c n : Nat) (v : Word) (s t : State) : Prop :=
  (n = 0x30 → StWritten v (tarn c s.dev) (tarn c t.dev)) ∧
  (n ≠ 0x30 → (n = 0x31 → loopReg 0x31 (issuing c s) = 0) → tr n (tarn c t.dev) = heldAfter n v)

/-- NOP changes nothing; MOV, LDI and LDIH write their one destination register, whichever it
is, and nothing else; ADDI and SUBI on an address register work modulo 2¹⁶ and leave the flags, ANDI, ORI and XORI on ST change its writable
bits (R227, R265, R273, R274). -/
def MoveResults : Prop :=
  ∀ (c : Nat) (i : TI) (s : State),
    (Next c .nop i s → ∃ t, exec (.nop c) s = .next t ∧ Computes c [] s t) ∧
    (Next c .mov i s → ∃ t, exec (.mov c) s = .next t ∧ Computes c [i.rd] s t ∧ Took c i.rd (readReg c i.rs (issuing c s)) s t) ∧
    (Next c .ldi i s → ∃ t, exec (.ldi c) s = .next t ∧ Computes c [i.rd] s t ∧ Took c i.rd i.imm s t) ∧
    (Next c .ldih i s → ∃ t, exec (.ldih c) s = .next t ∧ Computes c [i.rd] s t ∧
      tr i.rd (tarn c t.dev) = (i.imm.extractLsb' 0 18 ++ lower (readReg c i.rd (issuing c s)) : Word).zeroExtend 64) ∧
    (∀ (op : TOp) (cmd : Instr) (v : Word), 16 ≤ i.rd →
      (op, cmd, v) ∈ [(TOp.addi, Instr.addi c, readReg c i.rd (issuing c s) + i.imm), (.subi, .subi c, readReg c i.rd (issuing c s) - i.imm),
        (.andi, .andi c, readReg c i.rd (issuing c s) &&& i.imm), (.ori, .ori c, readReg c i.rd (issuing c s) ||| i.imm),
        (.xori, .xori c, readReg c i.rd (issuing c s) ^^^ i.imm)] →
      Next c op i s → ∃ t, exec cmd s = .next t ∧ Computes c [i.rd] s t ∧ Took c i.rd v s t)

end Sys2Proof
/-- AND, OR, XOR and NOT, and ANDI, ORI and XORI on a D register: the bits combined, N and Z from the result, C, V and DZ unchanged (R238, R273,
R274). NOP changes nothing; MOV, LDI and LDIH write their one destination register, whichever it is, and nothing else; ADDI and SUBI on an
address register work modulo 2¹⁶ and leave the flags, ANDI, ORI and XORI on ST change its writable bits (R227, R265, R273, R274). -/
def Obligations.LogicAndMoves : Prop := LogicResults ∧ MoveResults

namespace Sys2Proof
/-- A component of ACn as a signed number, as an accumulating MAC reads it (R236). -/
def accNowInt (n part : Nat) (t : Tarn) : Int := ((tr (0x40 + 2 * n + part) t).extractLsb' 0 48).toInt

/-- The same as a store, move, round or shift reads it (R229). -/
def accSeenInt (n part : Nat) (t : Tarn) : Int := ((accSeen n part t).extractLsb' 0 48).toInt

/-- A component narrowed to 18 bits before the range check: bits [17:0] discarded, or convergent rounding (R237). -/
def kept18 (rnd : Bool) (v : Int) : Int :=
  let q := v / 262144
  if rnd = false then q
  else if 2 * (v - 262144 * q) < 262144 then q
  else if 2 * (v - 262144 * q) > 262144 then q + 1
  else if q % 2 = 0 then q else q + 1

/-- A complex pair narrowed from two components (R237). -/
def pairKept (rnd sat : Bool) (re im : Int) : Word := clipped 18 sat (kept18 rnd re) ++ clipped 18 sat (kept18 rnd im)

end Sys2Proof
/-- DIV, MVA and ACRD (R237, R239, R273): DIV's quotient truncated toward zero with its stated edges and the remainder beside it; MVA's
narrowing with rounding, range check and V; ACRD's raw bits with no flag. -/
def Obligations.DivideAndReadAccumulator : Prop :=
  ∀ (c : Nat) (i : TI) (s : State),
    let x := issuing c s
    (Next c .div i s →
      let a := readReg c i.rs x
      let b := readReg c i.rt x
      let q : Word := if b = 0 then (if a.toInt < 0 then 0x800000000 else 0x7FFFFFFFF) else clipped 36 (satOf x) (a.toInt.tdiv b.toInt)
      let r : Word := if b = 0 then a else BitVec.ofInt 36 (a.toInt.tmod b.toInt)
      ∃ t, exec (.div c) s = .next t ∧ Computes c [i.rd, i.rd + 1, 0x30] s t ∧ tr i.rd (tarn c t.dev) = q.zeroExtend 64 ∧
        tr (i.rd + 1) (tarn c t.dev) = r.zeroExtend 64 ∧
        FlagsFrom q none (decide (b ≠ 0) && leaves 36 (a.toInt.tdiv b.toInt)) (decide (b = 0)) (tarn c s.dev) (tarn c t.dev)) ∧
    (Next c .mva i s →
      let re := accSeenInt i.acn 0 x
      let im := accSeenInt i.acn 1 x
      let half := clipped 18 (satOf x) (kept18 (rndOf x) re)
      let v : Word := match i.rt with
        | 0 => clipped 36 (satOf x) re
        | 1 => clipped 36 (satOf x) im
        | 2 => pairKept (rndOf x) (satOf x) re im
        | 3 => half ++ lower (readReg c i.rd x)
        | _ => upper (readReg c i.rd x) ++ half
      let ov := match i.rt with
        | 0 => leaves 36 re
        | 1 => leaves 36 im
        | 2 => leaves 18 (kept18 (rndOf x) re) || leaves 18 (kept18 (rndOf x) im)
        | _ => leaves 18 (kept18 (rndOf x) re)
      ∃ t, exec (.mva c) s = .next t ∧ Computes c [i.rd, 0x30] s t ∧ tr i.rd (tarn c t.dev) = v.zeroExtend 64 ∧
        FlagsFrom v none ov false (tarn c s.dev) (tarn c t.dev)) ∧
    (Next c .acrd i s →
      let re := (accSeen i.acn 0 x).extractLsb' 0 48
      let im := (accSeen i.acn 1 x).extractLsb' 0 48
      let v : Word := match i.rt with
        | 0 => re.extractLsb' 0 36
        | 1 => im.extractLsb' 0 36
        | _ => (0 : BitVec 12) ++ re.extractLsb' 36 12 ++ im.extractLsb' 36 12
      ∃ t, exec (.acrd c) s = .next t ∧ Computes c [i.rd] s t ∧ tr i.rd (tarn c t.dev) = v.zeroExtend 64)

namespace Sys2Proof
/-- Accumulator `n` of core `c` holds these components. -/
def AccIs (c n : Nat) (re im : BitVec 48) (t : State) : Prop :=
  tr (0x40 + 2 * n) (tarn c t.dev) = re.zeroExtend 64 ∧ tr (0x41 + 2 * n) (tarn c t.dev) = im.zeroExtend 64

/-- V after an accumulator operation is raised or unchanged; no other bit of ST changes (R227, R236). -/
def OnlyV (raised : Bool) (x y : Tarn) : Prop :=
  ∀ k, bit (tr 0x30 y) k = if k = 3 then raised || bit (tr 0x30 x) 3 else bit (tr 0x30 x) k

end Sys2Proof
/-- ACSET, ACCLR, ACWR, MPYL, ACRND and ACSH write the one accumulator they name with the value the rules give, change no other register,
and set V only on a 48-bit wrap or a lost bit; ACSH alone also sets C (R236, R237, R239, R273). That ACSH takes C from the .RE component is
the model's choice (log entry 22). -/
def Obligations.AccumulatorResults : Prop :=
  ∀ (c : Nat) (i : TI) (s : State),
    let x := issuing c s
    let regs := [0x40 + 2 * i.acn, 0x41 + 2 * i.acn]
    let a := readReg c i.rs x
    let b := readReg c i.rt x
    (Next c .acset i s → ∃ t, exec (.acset c) s = .next t ∧ Computes c regs s t ∧ AccIs c i.acn (a.signExtend 48) (b.signExtend 48) t) ∧
    (Next c .acclr i s → ∃ t, exec (.acclr c) s = .next t ∧ Computes c regs s t ∧ AccIs c i.acn 0 0 t) ∧
    (Next c .mpyl i s → ∃ t, exec (.mpyl c) s = .next t ∧ Computes c regs s t ∧
      let p : Int := a.toInt * b.toInt * (if i.p then 2 else 1)
      AccIs c i.acn (BitVec.ofInt 48 (p / 2 ^ 36)) ((BitVec.ofInt 36 p).zeroExtend 48) t) ∧
    (Next c .acwr i s → ∃ t, exec (.acwr c) s = .next t ∧ Computes c regs s t ∧
      let re := (accNow i.acn 0 x).extractLsb' 0 48
      let im := (accNow i.acn 1 x).extractLsb' 0 48
      (accNow i.acn 0 x).toNat < 2 ^ 48 → (accNow i.acn 1 x).toNat < 2 ^ 48 →
      AccIs c i.acn
        (match i.rt with | 0 => re.extractLsb' 36 12 ++ a | 1 => re | _ => a.extractLsb' 12 12 ++ re.extractLsb' 0 36)
        (match i.rt with | 0 => im | 1 => im.extractLsb' 36 12 ++ a | _ => a.extractLsb' 0 12 ++ im.extractLsb' 0 36) t) ∧
    (Next c .acrnd i s →
      let re := kept18 (rndOf x) (accSeenInt i.acn 0 x) * 262144
      let im := kept18 (rndOf x) (accSeenInt i.acn 1 x) * 262144
      ∃ t, exec (.acrnd c) s = .next t ∧ Computes c (0x30 :: regs) s t ∧
        AccIs c i.acn (BitVec.ofInt 48 re) (BitVec.ofInt 48 im) t ∧ OnlyV (leaves 48 re || leaves 48 im) (tarn c s.dev) (tarn c t.dev)) ∧
    (Next c .acsh i s →
      let n : Int := (a.extractLsb' 0 7).toInt
      let re := (accSeen i.acn 0 x).extractLsb' 0 48
      let im := (accSeen i.acn 1 x).extractLsb' 0 48
      ∃ t, exec (.acsh c) s = .next t ∧ Computes c (0x30 :: regs) s t ∧
        AccIs c i.acn (shiftResult false (satOf x) re n) (shiftResult false (satOf x) im n) t ∧
        ∀ k, bit (tr 0x30 (tarn c t.dev)) k = if k = 0 then shiftC re n
          else if k = 3 then (shiftV re n || shiftV im n) || bit (tr 0x30 (tarn c s.dev)) 3 else bit (tr 0x30 (tarn c s.dev)) k)

namespace Sys2Proof
/-- The data-memory word that address register `n` points at for an instruction about to issue; none outside the window (R234, R253). -/
def pointed (n : Nat) (x : Tarn) : Option Nat := dmAddr (agReg (0x10 + n) x) x

/-- The X word of a multiply-accumulate: a D register, or data memory through A0 or A1 (R270). -/
def xWord (c : Nat) (i : TI) (x : Tarn) : Option Word :=
  if 16 ≤ i.xs then some (readReg c (i.xs % 16) x) else (pointed (i.xs / 8) x).map (loadWord x)

/-- The Y word: a D register, or a word of data memory, constant store or program memory through A4 to A7 (R270). -/
def yWord (c : Nat) (i : TI) (x : Tarn) : Option Word :=
  let n := 4 + i.ys / 4 % 4
  let a := agReg (0x10 + n) x
  match ySpace i.ys with
  | 0 => some (readReg c (i.ys % 16) x)
  | 1 => (pointed n x).map (loadWord x)
  | 2 => some (csWord a x)
  | _ => if userMode x && !inTenantSlot (a.toNat % 16384) then none else some (pmWord a.toNat x)

/-- The store a parallel move through A`n` makes, if it is one: a register, or an accumulator narrowed to a pair (R270, R276). -/
def moveStores (c n m : Nat) (x : Tarn) : List PendStore :=
  match mvKind m, pointed n x with
  | 2, some a => [⟨a, 3, readReg c (mvReg m) x, none⟩]
  | 3, some a => [⟨a, 3, pairKept (rndOf x) (satOf x) (accSeenInt (mvReg m) 0 x) (accSeenInt (mvReg m) 1 x), none⟩]
  | _, _ => []

/-- Does a move that stores an accumulator narrow a value out of range (R237)? -/
def moveV (m : Nat) (x : Tarn) : Bool :=
  decide (mvKind m = 3) && (leaves 18 (kept18 (rndOf x) (accSeenInt (mvReg m) 0 x)) || leaves 18 (kept18 (rndOf x) (accSeenInt (mvReg m) 1 x)))

/-- The registers a multiply-accumulate may write: its accumulator, ST, the address registers it steps, the D registers its moves load. -/
def macRegs (op : TOp) (i : TI) : List Nat :=
  (if op = .pmov then [] else [0x40 + 2 * i.acn, 0x41 + 2 * i.acn]) ++ [0x30]
    ++ (if i.xs < 16 then [0x10 + i.xs / 8] else []) ++ (if ySpace i.ys = 0 then [] else [0x14 + i.ys / 4 % 4])
    ++ (if mvKind i.mv1 = 0 then [] else [0x12]) ++ (if mvKind i.mv2 = 0 then [] else [0x13])
    ++ (if mvKind i.mv1 = 1 then [mvReg i.mv1] else []) ++ (if mvKind i.mv2 = 1 then [mvReg i.mv2] else [])

/-- The sums of products of R236 for .RE and .IM. -/
def sums (op : TOp) (f : Bool) (x y : Word) : Int × Int :=
  let s : Int := if f then 2 else 1
  let xr := (upper x).toInt
  let xi := (lower x).toInt
  let yr := (upper y).toInt
  let yi := (lower y).toInt
  match op with
  | .cmac => (s * (xr * yr - xi * yi), s * (xr * yi + xi * yr))
  | .cmacj => (s * (xr * yr + xi * yi), s * (xi * yr - xr * yi))
  | _ => (s * (xr * yr), s * (xi * yi))

end Sys2Proof
/-- CMAC, CMACJ, DMAC and PMOV (R236, R270, R276), in whichever operand form, where every operand lies in the window: the exact sums added
to or taken from the accumulator, or from zero with CLR, wrapped to 48 bits with V on a wrap; both moves, MV2 after MV1; only the registers the
form names, and of data memory only what the moves store, at the addresses A2 and A3 gave. -/
def Obligations.MacResults : Prop :=
  ∀ (c : Nat) (i : TI) (s : State) (op : TOp) (cmd : Instr) (vx vy : Word),
    (op, cmd) ∈ [(TOp.cmac, Instr.cmac c), (.cmacj, .cmacj c), (.dmac, .dmac c), (.pmov, .pmov c)] → Next c op i s →
    let x := issuing c s
    (op ≠ .pmov → xWord c i x = some vx ∧ yWord c i x = some vy) →
    (mvKind i.mv1 ≠ 0 → pointed 2 x ≠ none) → (mvKind i.mv2 ≠ 0 → pointed 3 x ≠ none) →
    let st := moveStores c 2 i.mv1 x ++ moveStores c 3 i.mv2 x
    let p := sums op i.f vx vy
    let re := (if i.clr then 0 else accNowInt i.acn 0 x) + (if i.sub then -p.1 else p.1)
    let im := (if i.clr then 0 else accNowInt i.acn 1 x) + (if i.sub then -p.2 else p.2)
    ∃ t, exec cmd s = .next t ∧ OnlyCore c s t ∧ OnlyRegs (macRegs op i) (tarn c s.dev) (tarn c t.dev) ∧
      (op ≠ .pmov → AccIs c i.acn (BitVec.ofInt 48 re) (BitVec.ofInt 48 im) t) ∧
      OnlyV ((decide (op ≠ .pmov) && (leaves 48 re || leaves 48 im)) || moveV i.mv1 x || moveV i.mv2 x) (tarn c s.dev) (tarn c t.dev) ∧
      (mvKind i.mv1 = 1 → ∀ a, pointed 2 x = some a → tr (mvReg i.mv1) (tarn c t.dev) = (loadWord x a).zeroExtend 64) ∧
      (mvKind i.mv2 = 1 → ∀ a, pointed 3 x = some a →
        tr (mvReg i.mv2) (tarn c t.dev) = (tabGet (fun _ => 0) (drained (moveStores c 2 i.mv1 x) (loadsSee x)) a).zeroExtend 64) ∧
      (∀ a, loadWord (tarn c t.dev) a = tabGet (fun _ => 0) (drained st (loadsSee x)) a) ∧
      (∀ a, (∀ e ∈ st, e.addr ≠ a) → loadWord (tarn c t.dev) a = loadWord (tarn c s.dev) a) ∧
      (tarn c t.dev).cs = (tarn c s.dev).cs ∧ (tarn c t.dev).pm = (tarn c s.dev).pm

namespace Sys2Proof
/-- The effective address of a format L instruction (R234, R269). -/
def address (i : TI) (x : Tarn) : BitVec 16 :=
  match i.mode with
  | 6 => i.d
  | 4 => agReg (0x10 + i.an) x + i.d
  | 5 => agReg (0x10 + i.an) x + i.d
  | _ => agReg (0x10 + i.an) x

/-- The step its mode adds to An: modes (An)+ and (An)− by 1, by 2 for double words, (An)+Mn by Mn (R234, R275). -/
def stepOf (i : TI) (double : Bool) (x : Tarn) : Option Int :=
  match i.mode with
  | 1 => some (if double then 2 else 1)
  | 2 => some (if double then -2 else -1)
  | 3 => some (agReg (0x28 + i.an) x).toInt
  | _ => none

/-- An after an update by δ, linear or circular (R235). -/
def stepped (a base len : BitVec 16) (δ : Int) : BitVec 16 :=
  if len = 0 then BitVec.ofInt 16 (a.toNat + δ) else BitVec.ofInt 16 (base.toNat + (a.toNat + δ - base.toNat) % (len.toNat : Int))

/-- The address register the mode steps, as the next address generation sees it (R229, R235); no other is stepped. -/
def SteppedBy (c : Nat) (i : TI) (double : Bool) (s t : State) : Prop :=
  let x := issuing c s
  ∀ δ, stepOf i double x = some δ → agReg (0x10 + i.an) (issuing c t) =
    stepped (agReg (0x10 + i.an) x) (agReg (0x18 + i.an) x) (agReg (0x20 + i.an) x) δ

/-- The address register of a mode that steps it. -/
def steppedReg (i : TI) : List Nat := if i.mode = 1 ∨ i.mode = 2 ∨ i.mode = 3 then [0x10 + i.an] else []

/-- The word a load reads at an effective address of a space: 0 data memory through the window, 1 constant store, 2 program memory; none
is a window violation (R225, R253). -/
def spaceWord (sp : Nat) (a : BitVec 16) (x : Tarn) : Option Word :=
  match sp with
  | 0 => (dmAddr a x).map (loadWord x)
  | 1 => some (csWord a x)
  | _ => if userMode x && !inTenantSlot (a.toNat % 16384) then none else some (pmWord a.toNat x)

end Sys2Proof
/-- LD, LDH and LDD in every mode and space, where the address lies in the window: the destination takes the word, its half H, or both
words at the even address; An steps as its mode says; no memory changes and no flag, but by LD into ST (R234, R235, R269, R275). -/
def Obligations.LoadResults : Prop :=
  ∀ (c : Nat) (i : TI) (s : State) (v w : Word),
    let x := issuing c s
    let a := address i x
    (Next c .ld i s → spaceWord i.sp a x = some v →
      ∃ t, exec (.ld c) s = .next t ∧ Computes c (i.rd :: steppedReg i) s t ∧ Took c i.rd v s t ∧
        (i.rd ≠ 0x10 + i.an → SteppedBy c i false s t)) ∧
    (Next c .ldh i s → spaceWord i.sp a x = some v →
      ∃ t, exec (.ldh c) s = .next t ∧ Computes c (i.rd :: steppedReg i) s t ∧ SteppedBy c i false s t ∧
        tr i.rd (tarn c t.dev) = (if i.h = 0 then upper v ++ lower (readReg c i.rd x) else upper (readReg c i.rd x) ++ lower v : Word).zeroExtend 64) ∧
    (Next c .ldd i s → spaceWord i.sp (a &&& 0xFFFE) x = some v → spaceWord i.sp ((a &&& 0xFFFE) + 1) x = some w →
      ∃ t, exec (.ldd c) s = .next t ∧ Computes c (i.rd :: (i.rd + 1) :: steppedReg i) s t ∧ SteppedBy c i true s t ∧
        tr i.rd (tarn c t.dev) = v.zeroExtend 64 ∧ tr (i.rd + 1) (tarn c t.dev) = w.zeroExtend 64)

namespace Sys2Proof
/-- A word with half H replaced by the same half of `v`. -/
def halfPut (h : Nat) (v old : Word) : Word := if h = 0 then upper v ++ lower old else upper old ++ lower v

/-- The command stores the word `v` at the data-memory word `p`, half H of it where `h` is given, and changes no other word, no
constant store and no program memory. -/
def StoresAt (c p : Nat) (h : Option Nat) (v : Word) (s t : State) : Prop :=
  (∀ a, loadWord (tarn c t.dev) a =
    if a = p then (match h with | none => v | some k => halfPut k v (loadWord (tarn c s.dev) p)) else loadWord (tarn c s.dev) a) ∧
  (tarn c t.dev).cs = (tarn c s.dev).cs ∧ (tarn c t.dev).pm = (tarn c s.dev).pm

/-- ST, STH, STD and STA into data memory, in every mode: the word, the half, the two words at the even address, or the narrowed accumulator
is what loads then read at the address the window gives, every other word is unchanged, An steps as its mode says, and no other register
changes but V by STA (R234 to R237, R246, R253, R275). -/
def StoreResults : Prop :=
  ∀ (c : Nat) (i : TI) (s : State) (p : Nat),
    let x := issuing c s
    let a := address i x
    let v := readReg c i.rd x
    (Next c .st i s → i.sp = 0 → dmAddr a x = some p →
      ∃ t, exec (.st c) s = .next t ∧ OnlyCore c s t ∧ OnlyRegs (steppedReg i) (tarn c s.dev) (tarn c t.dev) ∧ SteppedBy c i false s t ∧
        StoresAt c p none v s t) ∧
    (Next c .sth i s → i.sp = 0 → dmAddr a x = some p →
      ∃ t, exec (.sth c) s = .next t ∧ OnlyCore c s t ∧ OnlyRegs (steppedReg i) (tarn c s.dev) (tarn c t.dev) ∧ SteppedBy c i false s t ∧
        StoresAt c p (some i.h) v s t) ∧
    (Next c .std i s → i.sp = 0 → dmAddr (a &&& 0xFFFE) x = some p → dmAddr ((a &&& 0xFFFE) + 1) x ≠ none →
      ∃ t, exec (.std c) s = .next t ∧ OnlyCore c s t ∧ OnlyRegs (steppedReg i) (tarn c s.dev) (tarn c t.dev) ∧ SteppedBy c i true s t ∧
        (∀ k, loadWord (tarn c t.dev) k = if k = (p + 1) % 65536 then readReg c (i.rd + 1) x else if k = p then v
          else loadWord (tarn c s.dev) k) ∧ (tarn c t.dev).cs = (tarn c s.dev).cs ∧ (tarn c t.dev).pm = (tarn c s.dev).pm) ∧
    (Next c .sta i s → dmAddr a x = some p →
      let re := accSeenInt i.acn 0 x
      let im := accSeenInt i.acn 1 x
      let half := clipped 18 (satOf x) (kept18 (rndOf x) re)
      let n : Word := match i.sz with
        | 0 => clipped 36 (satOf x) re | 1 => clipped 36 (satOf x) im | 2 => pairKept (rndOf x) (satOf x) re im | _ => half ++ half
      let ov := match i.sz with
        | 0 => leaves 36 re | 1 => leaves 36 im
        | 2 => leaves 18 (kept18 (rndOf x) re) || leaves 18 (kept18 (rndOf x) im) | _ => leaves 18 (kept18 (rndOf x) re)
      ∃ t, exec (.sta c) s = .next t ∧ OnlyCore c s t ∧ OnlyRegs (0x30 :: steppedReg i) (tarn c s.dev) (tarn c t.dev) ∧
        SteppedBy c i false s t ∧ StoresAt c p (if i.sz = 3 then some i.h else none) n s t ∧ OnlyV ov (tarn c s.dev) (tarn c t.dev))

/-- ST, STH and STD into the constant store and ST into program memory, in supervisor mode: that word takes the value, no other word of the
store changes and no data memory does; a write of program memory also empties the repeat cache (R225, R233, R275). -/
def SupervisorStores : Prop :=
  ∀ (c : Nat) (i : TI) (s : State),
    let x := issuing c s
    let a := address i x
    let v := readReg c i.rd x
    let cs (k : Nat) (t : State) : Word := tabGet (fun _ => 0) (tarn c t.dev).cs k
    let only (t : State) : Prop := OnlyCore c s t ∧ OnlyRegs (steppedReg i) (tarn c s.dev) (tarn c t.dev) ∧
      ∀ k, loadWord (tarn c t.dev) k = loadWord (tarn c s.dev) k
    (Next c .st i s → i.sp = 1 → ∃ t, exec (.st c) s = .next t ∧ only t ∧ (tarn c t.dev).pm = (tarn c s.dev).pm ∧
      ∀ k, cs k t = if k = a.toNat % 4096 then v else cs k s) ∧
    (Next c .sth i s → i.sp = 1 → ∃ t, exec (.sth c) s = .next t ∧ only t ∧ (tarn c t.dev).pm = (tarn c s.dev).pm ∧
      ∀ k, cs k t = if k = a.toNat % 4096 then halfPut i.h v (cs k s) else cs k s) ∧
    (Next c .std i s → i.sp = 1 → ∃ t, exec (.std c) s = .next t ∧ only t ∧ (tarn c t.dev).pm = (tarn c s.dev).pm ∧
      ∀ k, cs k t = if k = ((a &&& 0xFFFE).toNat + 1) % 4096 then readReg c (i.rd + 1) x
        else if k = (a &&& 0xFFFE).toNat % 4096 then v else cs k s) ∧
    (Next c .st i s → i.sp = 2 → loopReg 0x31 x = 0 →
      ∃ t, exec (.st c) s = .next t ∧ only t ∧ (tarn c t.dev).cs = (tarn c s.dev).cs ∧
      (tarn c t.dev).cache = none ∧ ∀ k, k < 16384 → pmWord k (tarn c t.dev) = if k = a.toNat % 16384 then v else pmWord k (tarn c s.dev))

end Sys2Proof
/-- ST, STH, STD and STA into data memory, in every mode: the word, the half, the two words at the even address, or the narrowed accumulator is what
loads then read at the address the window gives, every other word is unchanged, An steps as its mode says, and no other register changes but V by
STA (R234 to R237, R246, R253, R275). ST, STH and STD into the constant store and ST into program memory, in supervisor mode: that word takes the
value, no other word of the store changes and no data memory does; a write of program memory also empties the repeat cache (R225, R233, R275). -/
def Obligations.StoresToEverySpace : Prop := StoreResults ∧ SupervisorStores

namespace Sys2Proof
/-- Is the condition of a branch met by these flags (R271)? -/
def conditionHolds (cond : Nat) (n z cy v dz : Bool) : Bool :=
  match cond with
  | 0 => true | 1 => z | 2 => !z | 3 => n | 4 => !n | 5 => !n && !z | 6 => n || z | 7 => cy | 8 => !cy | 9 => v | 10 => !v | 11 => dz | _ => !dz

/-- The condition by the flags as branches see them (R229). -/
def branchTaken (cond : Nat) (x : Tarn) : Bool :=
  let st := seen 0x100 (tr 0x30 x) x
  conditionHolds cond (bit st 2) (bit st 1) (bit st 0) (bit (seen 0x101 (tr 0x30 x) x) 3) (bit st 4)

/-- The address of the word after the second delay slot, extension words counted (R277). -/
def afterDelaySlots (x : Tarn) : BitVec 14 :=
  let a := x.pc.toNat + 1
  let b := a + 1 + b2n (hasExt (pmFetch a x))
  BitVec.ofNat 14 (b + 1 + b2n (hasExt (pmFetch b x)))

end Sys2Proof
/-- BR, BRI, CALL and CALLI arm their target behind two delay slots when the condition holds, a call then also writing the return address
into A7; RETI, CALLU and RETU arm their own effect there; an untaken branch goes on in sequence. Nothing else changes, but that CALLU zeroises the job
window first and, of a job that calls its program, loads image, tenant data and the words of the pass (R218, R230, R255, R271, R277). -/
def Obligations.BranchResults : Prop :=
  ∀ (c : Nat) (i : TI) (s : State),
    let x := issuing c s
    let dest (ind : Bool) : BitVec 14 := if ind then (agReg (0x10 + i.an) x).extractLsb' 0 14 else BitVec.ofNat 14 i.tgt
    let go (cmd : Instr) (ind link : Bool) : Prop := ∃ t, exec cmd s = .next t ∧
      Computes c (if link && branchTaken i.cond x then [0x17] else []) s t ∧
      (tarn c t.dev).slots = (if branchTaken i.cond x then some ⟨0, dest ind, 2⟩ else some ⟨4, 0, 2⟩) ∧
      (link = true → branchTaken i.cond x = true → tr 0x17 (tarn c t.dev) = (afterDelaySlots x).zeroExtend 64) ∧
      (loopReg 0x31 x = 0 → (tarn c t.dev).pc = x.pc + 1)
    let arm (cmd : Instr) (k : Nat) (b : BitVec 14) : Prop := ∃ t, exec cmd s = .next t ∧ Computes c [] s t ∧
      (tarn c t.dev).slots = some ⟨k, b, 2⟩ ∧ (loopReg 0x31 x = 0 → (tarn c t.dev).pc = x.pc + 1)
    (Next c .br i s → go (.br c) false false) ∧ (Next c .bri i s → go (.bri c) true false) ∧
    (Next c .call i s → go (.call c) false true) ∧ (Next c .calli i s → go (.calli c) true true) ∧
    let calls (t : State) : Prop := exec (.callu c) s = .next t ∧ OnlyCore c s t ∧ OnlyRegs [] (tarn c s.dev) (tarn c t.dev) ∧
      (tarn c t.dev).cs = (tarn c s.dev).cs ∧ (∀ a, a < 0xC000 → loadWord (tarn c t.dev) a = loadWord (tarn c s.dev) a) ∧
      (tarn c t.dev).slots = some ⟨2, afterDelaySlots x, 2⟩ ∧ (loopReg 0x31 x = 0 → (tarn c t.dev).pc = x.pc + 1)
    (Next c .reti i s → arm (.reti c) 1 0) ∧
    (Next c .callu i s → headJob c s.dev = none → ∃ t, calls t ∧ (tarn c t.dev).pm = (tarn c s.dev).pm ∧ ∀ a, 0xC000 ≤ a → loadWord (tarn c t.dev) a = 0) ∧
    (∀ j, Next c .callu i s → headJob c s.dev = some j → tenantRuns j = true → j.bus = false →
      let img := (jobImage j s.dev).take 2048
      let ws := (tenantWords (hSlot j.handle) s.dev).take 15360
      1055 + 80 * (((jobImage j s.dev).length + 1023) / 1024 + (slot (hSlot j.handle) s.dev).tgranules.length) < (tr 0x34 (tarn c s.dev)).toNat →
      ∃ t, calls t ∧ (∀ k, k < img.length → pmWord (0x3800 + k) (tarn c t.dev) = img.getD k 0) ∧
        (∀ k, k < ws.length → loadWord (tarn c t.dev) (0xC000 + k) = ws.getD k 0) ∧
        loadWord (tarn c t.dev) 0xFF40 = j.pass.zeroExtend 36 ∧ loadWord (tarn c t.dev) 0xFF42 = BitVec.ofNat 36 (samplesPerPass j.snap.desc)) ∧
    (Next c .retu i s → arm (.retu c) 3 0)

namespace Sys2Proof
/-- Core `c` stands at a NOP in the last of two delay slots of a branch of kind `k` to `target`, and its counter holds. -/
abbrev LastSlot (c k : Nat) (target : BitVec 14) (i : TI) (s : State) : Prop :=
  fetchTarn c .nop s.dev = .ok i ∧ (tarn c s.dev).slots = some ⟨k, target, 1⟩ ∧ (tarn c s.dev).rpt = none ∧
    (if userMode (tarn c s.dev) then 30 < (tr 0x3F (tarn c s.dev)).toNat else headJob c s.dev = none)

/-- The registers an entry to or exit from user mode clears: D, AC, A, B, L, M, LC, LSA and LEA (R252, R254). -/
def ClearedUser (t : Tarn) : Prop :=
  (∀ n, n < 0x30 → tr n t = 0) ∧ (∀ n, 0x40 ≤ n → n < 0x48 → tr n t = 0) ∧ tr 0x31 t = 0 ∧ tr 0x32 t = 0 ∧ tr 0x33 t = 0

end Sys2Proof
/-- After the second delay slot a taken branch goes on at its target; RETI restores PC from IPC and ST[15:0] from IST, on a control core, which has
no user mode, without U; CALLU clears the registers, sets ST to 0x8180, loads UCNT from TBUDGET, saves the return address in URET and goes on at
0x3800; RETU clears the same registers, sets UCAUSE to 0, clears U and goes on at URET (R230, R243, R252, R254, R256). -/
def Obligations.AfterDelaySlots : Prop :=
  ∀ (c : Nat) (target : BitVec 14) (i : TI) (s : State), loopReg 0x31 (issuing c s) = 0 →
    (LastSlot c 0 target i s → ∃ t, exec (.nop c) s = .next t ∧ Computes c [] s t ∧ (tarn c t.dev).slots = none ∧ (tarn c t.dev).pc = target) ∧
    (LastSlot c 1 target i s → userMode (tarn c s.dev) = false →
      ∃ t, exec (.nop c) s = .next t ∧ Computes c [0x30] s t ∧ (tarn c t.dev).slots = none ∧
        (tarn c t.dev).pc = (tr 0x38 (tarn c s.dev)).extractLsb' 0 14 ∧
        tr 0x30 (tarn c t.dev) = tr 0x39 (tarn c s.dev) &&& (if c < 64 then 0xC19F else 0x419F)) ∧
    (LastSlot c 2 target i s → userMode (tarn c s.dev) = false →
      ∃ t, exec (.nop c) s = .next t ∧ OnlyCore c s t ∧ ClearedUser (tarn c t.dev) ∧ tr 0x30 (tarn c t.dev) = 0x8180 ∧
        tr 0x3F (tarn c t.dev) = tr 0x3E (tarn c s.dev) ∧ tr 0x3C (tarn c t.dev) = target.zeroExtend 64 ∧ (tarn c t.dev).pc = 0x3800 ∧
        (tarn c t.dev).sb = [] ∧ (∀ a, loadWord (tarn c t.dev) a = loadWord (tarn c s.dev) a)) ∧
    (LastSlot c 3 target i s → userMode (tarn c s.dev) = true → headJob c s.dev = none →
      ∃ t, exec (.nop c) s = .next t ∧ OnlyCore c s t ∧ ClearedUser (tarn c t.dev) ∧ tr 0x3D (tarn c t.dev) = 0 ∧
        userMode (tarn c t.dev) = false ∧ (tarn c t.dev).pc = (tr 0x3C (tarn c s.dev)).extractLsb' 0 14 ∧ (tarn c t.dev).sb = [] ∧
        ∀ a, loadWord (tarn c t.dev) a = loadWord (tarn c s.dev) a)

namespace Sys2Proof
/-- LOOP and LOOPR set LC, LSA and LEA, the loop-end test seeing them at once, and skip the body on a count of 0; RPT and RPTR repeat the
next instruction as often as the count says, at most 4,096 times and 1,024 in user mode, a count of 0 skipping it (R240, R241, R277). -/
def LoopResults : Prop :=
  ∀ (c : Nat) (i : TI) (s : State),
    let x := issuing c s
    let loop (cmd : Instr) (n : Nat) : Prop := ∃ t, exec cmd s = .next t ∧ Computes c [0x32, 0x33] s t ∧
      loopReg 0x31 (issuing c t) = n ∧ loopReg 0x32 (issuing c t) = (x.pc + 1).toNat ∧ loopReg 0x33 (issuing c t) = i.tgt ∧
      (tarn c t.dev).pc = (if n = 0 then BitVec.ofNat 14 (i.tgt + 1) else x.pc + 1)
    let rpt (cmd : Instr) (n : Nat) : Prop := ∃ t, exec cmd s = .next t ∧ Computes c [] s t ∧
      (1 ≤ n → (tarn c t.dev).rpt = some n ∧ (tarn c t.dev).pc = x.pc + 1) ∧ (n = 0 → (tarn c t.dev).pc = x.pc + 2)
    let fits (n : Nat) : Prop := n ≤ 4096 ∧ (userMode x = true → n ≤ 1024)
    let nextRepeats : Prop := ∃ j, decodeTarn (pmFetch (x.pc.toNat + 1) x) (pmFetch (x.pc.toNat + 2) x) = some j ∧ repeatable j = true
    loopReg 0x31 x = 0 →
    (Next c .loop i s → loop (.loop c) i.cnt) ∧
    (Next c .loopr i s → loop (.loopr c) ((readReg c i.dn x).extractLsb' 0 16).toNat) ∧
    (Next c .rpt i s → fits i.cnt → 1 ≤ i.cnt → rpt (.rpt c) i.cnt) ∧
    (Next c .rptr i s → fits ((readReg c i.dn x).extractLsb' 0 13).toNat → (((readReg c i.dn x).extractLsb' 0 13).toNat = 0 → nextRepeats) →
      rpt (.rptr c) ((readReg c i.dn x).extractLsb' 0 13).toNat)

/-- A repeated NOP stays at its address and counts its repetitions down; the last one goes on (R240). When the word fetched is the one at LEA,
LC above 1 counts down and the next fetch is at LSA, and LC of 1 becomes 0 and execution falls through (R241). -/
def RepeatsAndLoopEnds : Prop :=
  ∀ (c : Nat) (i : TI) (s : State), fetchTarn c .nop s.dev = .ok i → (tarn c s.dev).slots = none →
    (if userMode (tarn c s.dev) then 30 < (tr 0x3F (tarn c s.dev)).toNat else headJob c s.dev = none) →
    let x := issuing c s
    (∀ n, (tarn c s.dev).rpt = some (n + 2) →
      ∃ t, exec (.nop c) s = .next t ∧ Computes c [] s t ∧ (tarn c t.dev).rpt = some (n + 1) ∧ (tarn c t.dev).pc = x.pc) ∧
    (loopReg 0x31 x = 0 → (tarn c s.dev).rpt = some 1 →
      ∃ t, exec (.nop c) s = .next t ∧ Computes c [] s t ∧ (tarn c t.dev).rpt = none ∧ (tarn c t.dev).pc = x.pc + 1) ∧
    ((tarn c s.dev).rpt = none → loopReg 0x33 x = x.pc.toNat → 1 ≤ loopReg 0x31 x →
      ∃ t, exec (.nop c) s = .next t ∧ Computes c [] s t ∧ loopReg 0x31 (issuing c t) = loopReg 0x31 x - 1 ∧
        (tarn c t.dev).pc = (if loopReg 0x31 x = 1 then x.pc + 1 else BitVec.ofNat 14 (loopReg 0x32 x)))

end Sys2Proof
/-- LOOP and LOOPR set LC, LSA and LEA, the loop-end test seeing them at once, and skip the body on a count of 0; RPT and RPTR repeat the next
instruction as often as the count says, at most 4,096 times and 1,024 in user mode, a count of 0 skipping it (R240, R241, R277). A repeated NOP
stays at its address and counts its repetitions down; the last one goes on (R240). When the word fetched is the one at LEA, LC above 1 counts
down and the next fetch is at LSA, and LC of 1 becomes 0 and execution falls through (R241). -/
def Obligations.LoopsAndRepeats : Prop := LoopResults ∧ RepeatsAndLoopEnds
/-- Interrupt entry, where one is pending or a debug request has come, IE is set, and neither a repeat nor a branch's delay slots are in progress: PC goes to IPC and ST[15:0]
to IST, IE and U are cleared, and execution continues at the vector of the highest priority: DEBUG 0x20, MAILBOX 8, JOB 0x10, STREAM_OUT 0x18
(R242, R243). No other register and no memory changes. Reset starts a core at 0. -/
def Obligations.InterruptEntry : Prop :=
  ∀ (c : Nat) (debug : Bool) (s : State), (tarn c State.reset.dev).pc = 0 ∧
    let x := tarn c s.dev
    executes c s.dev = true → bit (tr 0x30 x) 14 = true → x.rpt = none → x.slots = none →
    debug = true ∨ x.dbg = true ∨ x.mail ≠ [] ∨ x.job = true ∨ x.sout = true →
    ∃ t, exec (.interruptEntry ⟨c, debug⟩) s = .next t ∧ OnlyCore c s t ∧ OnlyRegs [0x30, 0x38, 0x39] x (tarn c t.dev) ∧
      SameMemory x (tarn c t.dev) ∧ tr 0x38 (tarn c t.dev) = x.pc.zeroExtend 64 ∧ tr 0x39 (tarn c t.dev) = tr 0x30 x &&& 0xFFFF ∧
      (∀ k, bit (tr 0x30 (tarn c t.dev)) k = (bit (tr 0x30 x) k && decide (k ≠ 14 ∧ k ≠ 15))) ∧
      (tarn c t.dev).pc = (if debug || x.dbg then 0x20 else if x.mail ≠ [] then 8 else if x.job then 0x10 else 0x18)

namespace Sys2Proof
/-- The far address in the register pair of FLD and FST (R273). -/
def farOf (c n : Nat) (x : Tarn) : Nat := fld (readReg c (n + 1) x) 11 0 * 2 ^ 36 + (readReg c n x).toNat

/-- Does one enabled region of a control core's protection unit cover the bytes and permit the access (R257)? -/
abbrev Permitted (write : Bool) (a n : Nat) (x : Tarn) : Prop :=
  ∃ e ∈ x.mpu, e.2.en = true ∧ (if write then e.2.w else e.2.r) = true ∧ e.2.base * 4096 ≤ a ∧ a + n ≤ (e.2.limit + 1) * 4096

end Sys2Proof
/-- FLD and FST of a control core: an aligned access that the protection unit permits reads or writes 4 bytes, or one 8-byte container, of DRAM
below the fitted size, or one Basin word, and changes nothing else of the device but its core; FLD changes only RD, FST no register, once the
store buffer has drained (R12, R249, R256, R257, R273). -/
def Obligations.FarAccess : Prop :=
  ∀ (c : Nat) (i : TI) (s : State),
    let x := issuing c s
    let a := farOf c i.rs x
    let n := if i.p then 8 else 4
    let b := (a - 0x100000000000) / 8
    a % n = 0 →
    (Next c .fld i s → Permitted false a n (tarn c s.dev) → a + n ≤ dramBytes s.dev →
      ∃ t, exec (.fld c) s = .next t ∧ Computes c [i.rd] s t ∧ (tarn c t.dev).sb = [] ∧
        tr i.rd (tarn c t.dev) = (BitVec.ofNat 36 (dramBytesAt a n s.dev)).zeroExtend 64) ∧
    (Next c .fld i s → i.p = true → Permitted false a n (tarn c s.dev) → 0x100000000000 ≤ a → a < 0x100018000000 → b ∉ s.dev.poison →
      ∃ t, exec (.fld c) s = .next t ∧ Computes c [i.rd] s t ∧ (tarn c t.dev).sb = [] ∧
        tr i.rd (tarn c t.dev) = (basinRead b s.dev).zeroExtend 64) ∧
    (Next c .fst i s → Permitted true a n (tarn c s.dev) → a + n ≤ dramBytes s.dev →
      ∃ t, exec (.fst c) s = .next t ∧ t.pending = s.pending ∧
        t.dev = { s.dev with tarns := t.dev.tarns, dram := t.dev.dram } ∧ (∀ k, k ≠ c → tarn k t.dev = tarn k s.dev) ∧
        OnlyRegs [] (tarn c s.dev) (tarn c t.dev) ∧ SameMemory (tarn c s.dev) (tarn c t.dev) ∧ (tarn c t.dev).sb = [] ∧
        ∀ k, dramRead k t.dev = if a ≤ k ∧ k < a + n then BitVec.ofNat 8 (((readReg c i.rt x).toNat % 2 ^ (if i.p then 36 else 32)) >>> (8 * (k - a)))
          else dramRead k s.dev) ∧
    (Next c .fst i s → i.p = true → Permitted true a n (tarn c s.dev) → 0x100000000000 ≤ a → a < 0x100018000000 →
      ∃ t, exec (.fst c) s = .next t ∧ t.pending = s.pending ∧ OnlyRegs [] (tarn c s.dev) (tarn c t.dev) ∧ (tarn c t.dev).sb = [] ∧
        t.dev.dram = s.dev.dram ∧ t.dev.regs = s.dev.regs ∧
        ∀ k, basinRead k t.dev = if k = b then readReg c i.rt x else basinRead k s.dev)

namespace Sys2Proof
/-- MBOX of a media core hands its word to control firmware, which one of the four control cores takes, of a control core to the core TGT names; there
it waits as MAILBOX; WAIT stalls the
core; DMA of a control core queues the copy its four words describe; DONE of a core that holds no job leaves it idle (R242, R249, R278). -/
def SystemInstructions : Prop :=
  ∀ (c : Nat) (i : TI) (s : State),
    let x := issuing c s
    let v := readReg c i.dn x
    (Next c .mbox i s → c < 64 → ∃ t q, exec (.mbox c) s = .next t ∧ t.pending = s.pending ∧ t.dev = { s.dev with tarns := t.dev.tarns } ∧
      64 ≤ q ∧ q < 68 ∧ (∀ k, k ≠ c → k ≠ q → tarn k t.dev = tarn k s.dev) ∧ (tarn q t.dev).mail = (tarn q s.dev).mail ++ [v] ∧ OnlyRegs [] (tarn c s.dev) (tarn c t.dev) ∧ SameMemory (tarn c s.dev) (tarn c t.dev)) ∧
    (Next c .mbox i s → 64 ≤ c → ∃ t, exec (.mbox c) s = .next t ∧ t.pending = s.pending ∧ t.dev = { s.dev with tarns := t.dev.tarns } ∧
      (∀ k, k ≠ c → k ≠ i.tgt → tarn k t.dev = tarn k s.dev) ∧ (tarn i.tgt t.dev).mail = (tarn i.tgt s.dev).mail ++ [v] ∧
      OnlyRegs [] (tarn c s.dev) (tarn c t.dev) ∧ SameMemory (tarn c s.dev) (tarn c t.dev)) ∧
    (Next c .wait i s → ∃ t, exec (.wait c) s = .next t ∧ Computes c [] s t ∧ (tarn c t.dev).waiting = true) ∧
    (Next c .dma i s → 
      let blk := (agReg (0x10 + i.an) x).toNat
      let w (k : Nat) : Word := loadWord (tarn c s.dev) ((blk + k) % 65536)
      let src := fld (w 1) 11 0 * 2 ^ 36 + (w 0).toNat
      let dst := fld (w 3) 11 0 * 2 ^ 36 + (w 2).toNat
      let len := fld (w 3) 35 12
      len % 8 = 0 → 0 < len → len ≤ 2 ^ 24 → src % 8 = 0 → dst % 8 = 0 → src + len ≤ dramBytes s.dev → dst + len ≤ dramBytes s.dev →
      Permitted false src len (tarn c s.dev) → Permitted true dst len (tarn c s.dev) →
      ∃ t, exec (.dma c) s = .next t ∧ Computes c [] s t ∧ (tarn c t.dev).dmaq = (tarn c s.dev).dmaq ++ [⟨blk, src, dst, len⟩]) ∧
    (Next c .done i s → headJob c s.dev = none → ∃ t, exec (.done c) s = .next t ∧ Computes c [] s t ∧ (tarn c t.dev).st = .idle ∧
      (tarn c t.dev).sb = [])

/-- STRM of a media core, within the Basin words of the running job's partition: from the Basin into data memory, or the other way, word by word; the
words outside the transfer are unchanged, and so is every register. A word of another partition is refused: the core faults with source 5 and
the mismatch is counted and recorded (R121, R278, R287). -/
def StreamerTransfer : Prop :=
  ∀ (c : Nat) (i : TI) (s : State) (j : Job),
    let x := issuing c s
    let w0 := readReg c i.dn x
    let w1 := readReg c (i.dn + 1) x
    let src := fld w0 25 0
    let dm := fld w1 15 0
    let n := fld w1 29 16 + 1
    let p := jobPart j s.dev
    Next c .strm i s → headJob c s.dev = some j → src + n ≤ 0x3000000 → (tarn c s.dev).sb = [] →
    (110 + 80 * ((n + 1023) / 1024) < (tr 0x34 (tarn c s.dev)).toNat → (∀ k, k < n → wordOwner (src + k) s.dev = some p) →
      (bit w0 35 = false → (∀ k, k < n → src + k ∉ s.dev.poison) → ∃ t, exec (.strm c) s = .next t ∧ OnlyCore c s t ∧
        OnlyRegs [] (tarn c s.dev) (tarn c t.dev) ∧ ∀ a, loadWord (tarn c t.dev) a =
          if (a + 65536 - dm) % 65536 < n ∧ a < 65536 then basinRead (src + (a + 65536 - dm) % 65536) s.dev else loadWord (tarn c s.dev) a) ∧
      (bit w0 35 = true → ∃ t, exec (.strm c) s = .next t ∧ t.pending = s.pending ∧
        t.dev = { s.dev with tarns := t.dev.tarns, basin := t.dev.basin, slots := t.dev.slots, poison := t.dev.poison } ∧
        (∀ k, k ≠ c → tarn k t.dev = tarn k s.dev) ∧ OnlyRegs [] (tarn c s.dev) (tarn c t.dev) ∧
        SameMemory (tarn c s.dev) (tarn c t.dev) ∧
        ∀ a, basinRead a t.dev = if src ≤ a ∧ a < src + n then loadWord (tarn c s.dev) ((dm + (a - src)) % 65536) else basinRead a s.dev)) ∧
    (∀ k q, k < n → wordOwner (src + k) s.dev = some q → q ≠ p → (∀ m, m < k → wordOwner (src + m) s.dev = some p) → s.dev.weir.lateFrom = none →
      ∃ t, exec (.strm c) s = .next t ∧ t.pending = s.pending ∧ (tarn c t.dev).st = .faulted ∧ t.dev.basin = s.dev.basin ∧
        fld (rg (kTarn c oTARN_FAULT) t.dev) 31 28 = 5 ∧ rgN (kPart p oPART_TAG_FAULT) t.dev = (rgN (kPart p oPART_TAG_FAULT) s.dev + 1) % 2 ^ 32)

end Sys2Proof
/-- MBOX of a media core hands its word to control firmware, which one of the four control cores takes, of a control core to the core TGT names;
there it waits as MAILBOX; WAIT stalls the core; DMA of a control core queues the copy its four words describe; DONE of a core that holds no job
leaves it idle (R242, R249, R278). STRM of a media core, within the Basin words of the running job's partition: from the Basin into data memory,
or the other way, word by word; the words outside the transfer are unchanged, and so is every register. A word of another partition is refused:
the core faults with source 5 and the mismatch is counted and recorded (R121, R278, R287). -/
def Obligations.StreamerAndSystemInstructions : Prop := SystemInstructions ∧ StreamerTransfer

namespace Sys2Proof
/-- The oldest copy a core queued completes: within DRAM, the destination holds the source's bytes, every other byte is unchanged, and the length
field of its block reads 0 (R278). BUDGET_ABORT of a core in user mode: UCAUSE 1, registers cleared, U clear, on at URET (R254). -/
def CopyCompletesAndBudgetEnds : Prop :=
  ∀ (c : Nat) (s : State),
    (∀ b rest, (tarn c s.dev).dmaq = b :: rest → b.len % 8 = 0 → b.src + b.len ≤ dramBytes s.dev → b.dst + b.len ≤ dramBytes s.dev →
      b.src + b.len ≤ b.dst ∨ b.dst + b.len ≤ b.src →
      ∃ t, exec (.dmaComplete c) s = .next t ∧ t.pending = s.pending ∧ (tarn c t.dev).dmaq = rest ∧
        (∀ k, dramRead k t.dev = if b.dst ≤ k ∧ k < b.dst + b.len then dramRead (b.src + (k - b.dst)) s.dev else dramRead k s.dev) ∧
        fld (tabGet (fun _ => 0) (tarn c t.dev).dm ((b.blk + 3) % 65536)) 35 12 = 0 ∧
        ∀ k, k ≠ (b.blk + 3) % 65536 → tabGet (fun _ => 0) (tarn c t.dev).dm k = tabGet (fun _ => 0) (tarn c s.dev).dm k) ∧
    (executes c s.dev = true → userMode (tarn c s.dev) = true → headJob c s.dev = none →
      ∃ t, exec (.budgetAbort c) s = .next t ∧ t.pending = s.pending ∧ ClearedUser (tarn c t.dev) ∧ tr 0x3D (tarn c t.dev) = 1 ∧
        tr 0x3F (tarn c t.dev) = 0 ∧ userMode (tarn c t.dev) = false ∧ (tarn c t.dev).pc = (tr 0x3C (tarn c s.dev)).extractLsb' 0 14 ∧
        t.dev = { s.dev with tarns := t.dev.tarns, regs := t.dev.regs } ∧
        rgN (kTarn c oTARN_UEXC) t.dev = (rgN (kTarn c oTARN_UEXC) s.dev + 1) % 2 ^ 32)

/-- An illegal instruction, or one refused where it stands: in user mode the exit with UCAUSE 2, U clear, the registers cleared, on at URET, no
job taking the exit's consequence here; of a control core, whose mode is supervisor, a core fault of source 4 that stops it. Data memory keeps
every store already made (R251, R254, R264). -/
def IllegalInstruction : Prop :=
  ∀ (c : Nat) (s : State), fetchTarn c .add s.dev = .illegal →
    (userMode (tarn c s.dev) = true → headJob c s.dev = none →
      ∃ t, exec (.add c) s = .next t ∧ t.pending = s.pending ∧ t.dev = { s.dev with tarns := t.dev.tarns, regs := t.dev.regs } ∧
        ClearedUser (tarn c t.dev) ∧ tr 0x3D (tarn c t.dev) = 2 ∧ userMode (tarn c t.dev) = false ∧
        (tarn c t.dev).pc = (tr 0x3C (tarn c s.dev)).extractLsb' 0 14 ∧ ∀ a, loadWord (tarn c t.dev) a = loadWord (tarn c s.dev) a) ∧
    (userMode (tarn c s.dev) = false → 64 ≤ c → s.dev.weir.lateFrom = none →
      ∃ t, exec (.add c) s = .next t ∧ t.pending = s.pending ∧ (tarn c t.dev).st = .faulted ∧
        fld (rg (kTarn c oTARN_FAULT) t.dev) 31 28 = 4 ∧ fld (rg (kTarn c oTARN_FAULT) t.dev) 13 0 = (tarn c s.dev).pc.toNat ∧
        ∀ k, k ≠ c → tarn k t.dev = tarn k s.dev)

end Sys2Proof
/-- The oldest copy a core queued completes: within DRAM, the destination holds the source's bytes, every other byte is unchanged, and the length
field of its block reads 0 (R278). BUDGET_ABORT of a core in user mode: UCAUSE 1, registers cleared, U clear, on at URET (R254). An illegal
instruction, or one refused where it stands: in user mode the exit with UCAUSE 2, U clear, the registers cleared, on at URET, no job taking the
exit's consequence here; of a control core, whose mode is supervisor, a core fault of source 4 that stops it. Data memory keeps every store
already made (R251, R254, R264). -/
def Obligations.CopiesAndUserExits : Prop := CopyCompletesAndBudgetEnds ∧ IllegalInstruction

namespace Sys2Proof
/-- Is the command an instruction of core `c`? -/
def CoreInstruction (c : Nat) (cmd : Instr) : Prop :=
  cmd ∈ [.nop c, .add c, .sub c, .cmp c, .andI c, .orI c, .xor c, .notI c, .neg c, .abs c, .min c, .max c, .ash c, .lsh c, .div c, .mov c, .mva c,
   .acrd c, .acwr c, .acset c, .acclr c, .acsh c, .acrnd c, .mpyl c, .fld c, .fst c, .ldi c, .ldih c, .addi c, .subi c, .cmpi c, .andi c,
   .ori c, .xori c, .ashi c, .lshi c, .ld c, .st c, .ldh c, .sth c, .ldd c, .std c, .sta c, .cmac c, .cmacj c, .dmac c, .pmov c, .br c,
   .bri c, .call c, .calli c, .reti c, .callu c, .retu c, .loop c, .loopr c, .rpt c, .rptr c, .done c, .wait c, .mbox c, .strm c, .dma c]

/-- What holds of a core at every instant its instructions reach: in user mode no RETI and no CALLU is in its delay slots (R253), WLO and WHI
keep bits [15:14] at 1, and the reserved bits of ST read 0 (R227). -/
def CoreInv (t : Tarn) : Prop :=
  (userMode t = true → ∀ p, t.slots = some p → p.kind ≠ 1 ∧ p.kind ≠ 2) ∧
  ((tr 0x3A t).toNat < 65536 ∧ (tr 0x3B t).toNat < 65536 ∧ bit (tr 0x3A t) 15 = true ∧ bit (tr 0x3A t) 14 = true ∧ bit (tr 0x3B t) 15 = true ∧ bit (tr 0x3B t) 14 = true) ∧
  ∀ k, bit (tr 0x30 t) k = true → k ∈ [0, 1, 2, 3, 4, 7, 8, 14, 15]

end Sys2Proof
/-- Every instruction of every core, whatever it does, keeps the core's invariant: it completes, exits, or faults into a state that has it. -/
def Obligations.CoreInvariantKept : Prop :=
  ∀ (c : Nat) (s t : State) (cmd : Instr), (CoreInstruction c cmd ∨ ∃ b, cmd = .interruptEntry ⟨c, b⟩) → CoreInv (tarn c s.dev) →
    exec cmd s = .next t → CoreInv (tarn c t.dev)

namespace Sys2Proof
/-- Every core has the invariant after reset. -/
def CoreInvariantAtReset : Prop := ∀ c, CoreInv (tarn c State.reset.dev)

end Sys2Proof
/-- User mode confines a program (R253): no instruction of a core in user mode changes a word of data memory outside WLO to WHI, a word of the
constant store or of program memory, any word of the Basin, any byte of DRAM, or anything of another core, whether it completes, exits or
aborts. -/
def Obligations.UserModeConfines : Prop :=
  ∀ (c : Nat) (s t : State) (cmd : Instr), CoreInstruction c cmd → CoreInv (tarn c s.dev) → userMode (tarn c s.dev) = true →
    (tr 0x3A (tarn c s.dev)).toNat ≤ (tr 0x3B (tarn c s.dev)).toNat →
    exec cmd s = .next t →
    (∀ a, a < (tr 0x3A (tarn c s.dev)).toNat ∨ (tr 0x3B (tarn c s.dev)).toNat < a →
      loadWord (tarn c t.dev) a = loadWord (tarn c s.dev) a) ∧
    (tarn c t.dev).cs = (tarn c s.dev).cs ∧ (tarn c t.dev).pm = (tarn c s.dev).pm ∧ t.dev.basin = s.dev.basin ∧ t.dev.dram = s.dev.dram ∧
    ∀ k, k ≠ c → tarn k t.dev = tarn k s.dev

/-- The memories of the device stay in their canonical form (R12, R42): whatever command the step takes, where it answers a next state the Basin, the
DRAM, the registers and the memories of every core list strictly rising addresses and no word equal to what an unlisted address reads as. The
form is the model's own (log entry 179). -/
def Obligations.MemoryStaysCanonical : Prop := ∀ s t : State, memoryWf s.dev = true → step s = .next t → memoryWf t.dev = true

namespace Sys2Proof
/-- The memories have that form after reset. -/
def MemoryCanonicalAtReset : Prop := memoryWf State.reset.dev = true

end Sys2Proof
/-- Every core has the invariant after reset. The memories have that form after reset. -/
def Obligations.InvariantsAtReset : Prop := CoreInvariantAtReset ∧ MemoryCanonicalAtReset

namespace Sys2Proof
/-! ### Partitions and tenant programs -/

end Sys2Proof
/-- Partitions, quotas and egress windows as the operator writes them, on a device that is no twin (R283, R285, R286, R299, R300): OPEN takes effect at
once and is rejected BUSY while CLOSING; closing an OPEN partition makes it CLOSING with its effects left to the next boundary; a quota takes its
value while every other partition's is 0 and is rejected RANGE above the device total or with another's that exceeds it; a window likewise, valid
or rejected RANGE. The causes STATE and QUOTA rise. -/
def Obligations.PartitionsAndQuotas : Prop :=
  ∀ (s : State) (p q off hi total port : Nat) (v : W32), let d := s.dev
    let ctrl := kPart p oPART_CTRL
    let st := kPart p oPART_STATE
    let n := fld v hi 0
    let a := fld v 9 0
    let b := fld v 25 16
    let win := kPart p (oPART_EGR + 4 * port)
    let changed (cmd : Instr) (l : List Nat) (cause : Nat) (t : State) : Prop := exec cmd s = .next t ∧ Became { d with regs := t.dev.regs } s t ∧
      (∀ k, k ∉ l → rg k t.dev = rg k d) ∧ CauseUp (0x200 + p) cause t
    HostUp d → d.twin.role = .alone → p < 1024 →
    (partState p d = 0 → d.pwr.st = .service → ∃ t, changed (.partitionOpen p v) [ctrl, st] 2 t ∧ partState p t.dev = 1 ∧
      rgN ctrl t.dev = (if bit v 1 = true then 3 else 1)) ∧
    (partState p d = 2 → ∃ t, exec (.partitionOpen p v) s = .next t ∧ Rejected 0 5 0 ctrl 4 s t) ∧
    (partState p d = 1 → ∃ t, exec (.partitionClose p v) s = .next t ∧ Became { d with regs := t.dev.regs, closing := d.closing ++ [p] } s t ∧
      partState p t.dev = 2 ∧ CauseUp (0x200 + p) 2 t ∧ rgN ctrl t.dev = (if bit v 1 = true then 2 else 0) ∧ ∀ k, k ≠ ctrl → k ≠ st → rg k t.dev = rg k d) ∧
    (partState p d = 0 → ∃ t, exec (.partitionClose p v) s = .next t ∧ OnlyRegisters [ctrl] s t ∧ rgN ctrl t.dev = (if bit v 1 = true then 2 else 0)) ∧
    ((hdr (0x200 + p) d).locked = false → tabWf regReset d.regs = true →
      (off, hi, total) ∈ [(oPART_Q_CHANNELS, 14, 16384), (oPART_Q_FLOWS, 15, 32768), (oPART_Q_CYCLES, 26, 89600000), (oPART_Q_BASIN, 15, 40960),
        (oPART_Q_DRAM, 16, dramTotal d)] →
      (n ≤ total → (∀ x, x < 1024 → x ≠ p → fld (rg (kPart x off) d) hi 0 = 0) →
        ∃ t, changed (.quotaWrite p off v) [kPart p off] 1 t ∧ rgN (kPart p off) t.dev = n) ∧
      (total < n ∨ q < 1024 ∧ q ≠ p ∧ total < n + fld (rg (kPart q off) d) hi 0 →
        ∃ t, exec (.quotaWrite p off v) s = .next t ∧ Rejected 0 6 0 (kPart p off) 4 s t)) ∧
    ((hdr (0x200 + p) d).locked = true → off ∈ [oPART_Q_CHANNELS, oPART_Q_FLOWS, oPART_Q_CYCLES, oPART_Q_BASIN, oPART_Q_DRAM] →
      ∃ t, exec (.quotaWrite p off v) s = .next t ∧ Rejected 0 1 0 (kPart p off) 4 s t) ∧
    (port < 4 → (hdr (0x200 + p) d).locked = false →
      (¬ (a = 0 ∧ b = 0) → a < 40 ∨ b ≤ a ∨ 990 < b → ∃ t, exec (.egressWindowWrite p port v) s = .next t ∧ Rejected 0 6 0 win 4 s t) ∧
      (a = 0 ∧ b = 0 ∨ 40 ≤ a ∧ a < b ∧ b ≤ 990 → tabWf regReset d.regs = true → (∀ e ∈ d.slots, e.2.part = p → e.2.st ≠ .active) →
        ((∃ x, x < 1024 ∧ x ≠ p ∧ a < fld (rg (kPart x (oPART_EGR + 4 * port)) d) 25 16 ∧ fld (rg (kPart x (oPART_EGR + 4 * port)) d) 9 0 < b) →
          ∃ t, exec (.egressWindowWrite p port v) s = .next t ∧ Rejected 0 6 0 win 4 s t) ∧
        ((∀ x, x < 1024 → x ≠ p → fld (rg (kPart x (oPART_EGR + 4 * port)) d) 25 16 ≤ a ∨ b ≤ fld (rg (kPart x (oPART_EGR + 4 * port)) d) 9 0) →
          ∃ t, changed (.egressWindowWrite p port v) [win] 1 t ∧ rgN win t.dev = a + b * 2 ^ 16)))

/-- Tenant programs (R294 to R297), on a device that is no twin: while BUSY an operation is rejected; QUERY shows the state; LOAD refuses what is loaded
already or out of range, and otherwise becomes BUSY, the image read by DMA with the partition's routing ID; it ends OK with the image of LEN
words loaded and resident in its granules of the Basin, or with DMA_ERROR or BAD_CRC and its resources freed; UNLOAD refuses what is absent or in
use and frees what is not; an image restored is resident again. -/
def Obligations.TenantPrograms : Prop :=
  ∀ (s : State) (fn part id : Nat) (image : List Word) (l : PrgLoad) (crc : Bool), let d := s.dev
    let p := winPart fn part
    let st := kPrg p oPRG_STATUS
    let i := fld (rg (kPrg p oPRG_ID) d) 15 0
    let len := fld (rg (kPrg p oPRG_LEN) d) 11 0
    let code := fld (rg (kPrg p oPRG_LEN) d) 27 16
    let src := rg (kPrg p oPRG_SRC) d
    let reports (cmd : Instr) (n : Nat) : Prop := ∃ t, exec cmd s = .next t ∧ Became { d with regs := t.dev.regs } s t ∧
      (∀ k, k ≠ st → rg k t.dev = rg k d) ∧ rgN st t.dev = n
    let leaves (cmd : Instr) (q j n : Nat) (x : Prog) : Prop := ∃ t, exec cmd s = .next t ∧
      Became { d with regs := t.dev.regs, progs := t.dev.progs, load := t.dev.load, basin := t.dev.basin, poison := t.dev.poison } s t ∧
      (∀ a, a / 1024 < 0xA800 ∨ a / 1024 - 0xA800 ∉ (prog q j d).granules → basinRead a t.dev = basinRead a d) ∧ (∀ k, k ≠ kPrg q oPRG_STATUS → rg k t.dev = rg k d) ∧
      rgN (kPrg q oPRG_STATUS) t.dev = n ∧ prog q j t.dev = x ∧ (∀ k, k ≠ progKey q j → tabGet (fun _ => Prog.reset) t.dev.progs k = tabGet (fun _ => Prog.reset) d.progs k)
    let resident (q j : Nat) (x : List Word) (t : State) : Prop := ∀ n, n < x.length →
      basinRead (((prog q j d).granules.getD (n / 1024) 0 + 0xA800) * 1024 + n % 1024) t.dev = x.getD n 0
    d.twin.role = .alone →
    (Reaches fn d → p < 1024 →
      (bit (rg st d) 31 = true → ∀ cmd ∈ [Instr.prgLoad fn part, .prgUnload fn part, .prgQuery fn part],
        ∃ t, exec cmd s = .next t ∧ Rejected fn 5 0 (winAddr fn part 4 oPRG_OP) 4 s t) ∧
      (bit (rg st d) 31 = false → d.load = [] →
        ((prog p i d).loaded = true → reports (.prgQuery fn part) 0x20000 ∧ reports (.prgLoad fn part) 0x20003) ∧
        ((prog p i d).loaded = false → reports (.prgQuery fn part) 1 ∧ reports (.prgUnload fn part) 1) ∧
        ((prog p i d).loaded = false → i = 0 ∨ len = 0 ∨ 2048 < len ∨ code = 0 ∨ len < code → reports (.prgLoad fn part) 5) ∧
        ((prog p i d).loaded = true → prgUse p i d ≠ 0 → reports (.prgUnload fn part) 0x20007) ∧
        ((prog p i d).loaded = true → prgUse p i d = 0 → leaves (.prgUnload fn part) p i 0 Prog.reset) ∧
        (loadRefusal p i len code d = 0 → ∃ t, exec (.prgLoad fn part) s = .next t ∧ t.pending = s.pending ∧
          t.dev = { d with
            regs := t.dev.regs, progs := t.dev.progs, load := [⟨p, i, len, code, src, (rg (kPrg p oPRG_CRC) d).extractLsb' 0 32⟩],
            outbox := .hostRead (ridPart d p) src.toNat (8 * len) :: d.outbox } ∧
          rgN st t.dev = 0x80010000 ∧ (∀ k, k ≠ st → rg k t.dev = rg k d) ∧ (prog p i t.dev).loaded = false))) ∧
    (d.load = [l] → l.part < 1024 →
      leaves (.prgLoadComplete l.part l.id image crc false) l.part l.id 8 Prog.reset ∧
      leaves (.prgLoadComplete l.part l.id image false true) l.part l.id 6 Prog.reset ∧
      (image.length = l.len → validateImage l.code image = none → (prog l.part l.id d).loaded = false → prog l.part l.id d ≠ Prog.reset →
        leaves (.prgLoadComplete l.part l.id image true true) l.part l.id 0x20000 { prog l.part l.id d with
            loaded := true, image := image, code := l.code, pages := imagePages l.len, restoring := false } ∧
          ((prog l.part l.id d).granules.Nodup → image.length ≤ 1024 * (prog l.part l.id d).granules.length →
            ∃ t, exec (.prgLoadComplete l.part l.id image true true) s = .next t ∧ resident l.part l.id image t))) ∧
    ((prog part id d).restoring = false → exec (.imageRestore part id none) s = .next s) ∧
    ((prog part id d).restoring = true → (∀ e ∈ d.slots, e.2.part = part → progOn e.2.desc = false ∨ progId e.2.desc ≠ id) →
      ∃ t, exec (.imageRestore part id none) s = .next t ∧ t.pending = s.pending ∧
        t.dev = { d with progs := t.dev.progs, basin := t.dev.basin, poison := t.dev.poison } ∧ prog part id t.dev = { prog part id d with restoring := false } ∧
        (∀ a, a / 1024 < 0xA800 ∨ a / 1024 - 0xA800 ∉ (prog part id d).granules → basinRead a t.dev = basinRead a d) ∧
        ((prog part id d).granules.Nodup → (prog part id d).image.length ≤ 1024 * (prog part id d).granules.length → resident part id (prog part id d).image t) ∧
        ∀ k, k ≠ progKey part id → tabGet (fun _ => Prog.reset) t.dev.progs k = tabGet (fun _ => Prog.reset) d.progs k)

namespace Sys2Proof
/-! ### Ethernet ports, management port, board management bus -/

end Sys2Proof
/-- Flow control, LLDP, low-power idle and links of a media port (R303, R308, R313, R314, R319): PAUSE or PFC, where honoured, stops the queues it names
for the quanta given and resumes those of quanta 0; where ignored it is counted twice and nothing else; a pause ends; the device's LLDP frame waits in
Q4 while that is stopped, else it goes out; a partner's TLV gives TW_US; 120 s without one end the agreement and idle; idle is entered when every
condition holds, and left for a wake of TW_US at its instant; a link that comes up in a listed mode or is lost shows in MAC_STATUS and raises its
cause, another mode fails negotiation. Nothing else waits at the port. -/
def Obligations.MediaPortEvents : Prop :=
  ∀ (s : State) (p q quanta vec tw trained : Nat) (qs : List Nat) (fec an : Bool), let d := s.dev
    let st := kMac p 0 oMAC_STATUS
    let pst := kMac p 0 oMAC_PAUSE_STATE
    let eee := kMac p 3 oMAC_EEE
    let cfg := rg (kMac p 0 oMAC_CFG) d
    let lpi := rg (kMac p 3 oMAC_EEE_CFG) d
    let wake := fld (rg eee d) 15 0
    let paused (t : State) (j : Nat) : Nat := tabGet (fun _ => 0) (port p t.dev).pause j
    let counted (cmd : Instr) (t : State) : Prop := exec cmd s = .next t ∧ Became { d with regs := t.dev.regs, ports := t.dev.ports } s t ∧
      Counts (kMac p 1 0x84) 1 s t
    let status (cmd : Instr) (n cause : Nat) : Prop := ∃ t, exec cmd s = .next t ∧ Became { d with regs := t.dev.regs } s t ∧ RegsKept [st] s t ∧
      rgN st t.dev = n ∧ CauseUp (macPage p) cause t
    let frame : CtlFrame := ⟨4, 64, .lldp, p, [rgN (kMac p 0 oMAC_OWN_ADDR) d, 120, wake]⟩
    let next : Option Int := ((port p d).q6.head?).map fun e => sdiff e.at_ (now d)
    let listed : Prop := if mode1 d then trained = 3 else trained = 2 ∨ trained = 1 ∧ fec = false
    (port p d).ctl = [] →
    (portOn p d = true → bit cfg 22 = false → bit cfg 23 = false → ∃ t, counted (.pauseFrame p quanta) t ∧ CauseUp (macPage p) 4 t ∧
      RegsKept [kMac p 1 0x84, pst] s t ∧ ∀ j, j < 8 → bit (rg pst t.dev) j = decide (quanta % 65536 ≠ 0) ∧ paused t j = quanta % 65536) ∧
    (portOn p d = true → bit cfg 22 = false → bit cfg 23 = true → ∃ t, counted (.pfcFrame p vec qs) t ∧ CauseUp (macPage p) 4 t ∧
      RegsKept [kMac p 1 0x84, pst] s t ∧ ∀ j, j < 8 → bit (rg pst t.dev) j = (if Nat.testBit vec j = true then decide (qs.getD j 0 % 65536 ≠ 0) else bit (rg pst d) j) ∧
        (Nat.testBit vec j = true → paused t j = qs.getD j 0 % 65536) ∧ (Nat.testBit vec j = false → paused t j = paused s j)) ∧
    (portOn p d = true → bit cfg 22 = true → ∀ cmd ∈ [Instr.pauseFrame p quanta, .pfcFrame p vec qs], ∃ t, counted cmd t ∧ Counts (kMac p 1 0x88) 1 s t ∧
      RegsKept [kMac p 1 0x84, kMac p 1 0x88] s t ∧ t.dev.ports = d.ports) ∧
    (p < 4 → q < 8 → ∃ t, exec (.pauseExpiry p q) s = .next t ∧ t.pending = s.pending ∧ t.dev = { d with regs := t.dev.regs, ports := t.dev.ports } ∧
      RegsKept [pst] s t ∧ (∀ j, j < 8 → bit (rg pst t.dev) j = (decide (j ≠ q) && bit (rg pst d) j)) ∧ paused t q = 0 ∧ (port p t.dev).q6 = (port p d).q6) ∧
    (portOn p d = true → ∃ t, exec (.lldpRx p (some tw)) s = .next t ∧ OnlyRegisters [eee] s t ∧ rgN eee t.dev = 2 ^ 31 + tw % 65536) ∧
    (exec (.lldpRx p none) s = .next s) ∧
    ((∀ x, x < 4 → portOn x d = decide (x = p)) → p < 4 → 
      (bit (rg pst d) 4 = true → ∃ t, exec .lldpTx s = .next t ∧ t.pending = s.pending ∧ t.dev = { d with ports := t.dev.ports } ∧
        port p t.dev = { port p d with ctl := [frame] }) ∧
      (bit (rg pst d) 4 = false → (port p d).q6 = [] → ∃ t, exec .lldpTx s = .next t ∧ Became { d with regs := t.dev.regs, ports := t.dev.ports } s t ∧
        .msg .lldp p frame.fields ∈ t.dev.outbox ∧ Counts (kMac p 2 0x44) 1 s t ∧ (port p t.dev).ctl = [] ∧
        (port p t.dev).lastSent = now64 d + BitVec.ofNat 64 (readyFor p d) + BitVec.ofNat 64 (wireNs p 64 d))) ∧
    (p < 4 → ∃ t, exec (.eeeNegotiationExpiry p) s = .next t ∧ OnlyRegisters [eee, st] s t ∧ bit (rg eee t.dev) 31 = false ∧ bit (rg st t.dev) 3 = false ∧
      fld (rg eee t.dev) 15 0 = wake) ∧
    (portOn p d = true → bit cfg 24 = true → bit (rg eee d) 31 = true → bit (rg st d) 3 = false → rgN st d < 2 ^ 32 →
      (port p d).lastSent.toNat + fld lpi 15 0 ≤ (now64 d).toNat → (∀ x ∈ next, (wake * 1000 + fld lpi 31 16 : Int) ≤ x) →
      ∃ t, exec (.lpiEnter p) s = .next t ∧ OnlyRegisters [st] s t ∧ rgN st t.dev = rgN st d + 8) ∧
    ((now64 d).toNat < (port p d).lastSent.toNat + fld lpi 15 0 ∨ (∃ x ∈ next, x < (wake * 1000 + fld lpi 31 16 : Int)) → exec (.lpiEnter p) s = .next s) ∧
    ((∀ x ∈ next, (wake * 1000 + 200 : Int) < x) → exec (.lpiWake p) s = .next s) ∧
    (p < 4 → bit (rg st d) 3 = true → (∃ x ∈ next, x ≤ (wake * 1000 + 200 : Int)) → ∃ t, exec (.lpiWake p) s = .next t ∧ t.pending = s.pending ∧ t.dev = { d with regs := t.dev.regs, ports := t.dev.ports } ∧
      RegsKept [st] s t ∧ bit (rg st t.dev) 3 = false ∧ (port p t.dev).wakeAt = some (now64 d + BitVec.ofNat 64 (wake * 1000)) ∧ (port p t.dev).q6 = (port p d).q6) ∧
    (portEnabled p d = true → linkUp p d = false →
      (listed → status (.linkUp p trained fec an) (trained * 32 + 4 * b2n fec + 2 * b2n an + 1) 1) ∧
      (¬ listed → ∃ t, exec (.linkUp p trained fec an) s = .next t ∧ Became d s t ∧ CauseUp (macPage p) 6 t)) ∧
    (portEnabled p d = true → linkUp p d = true → (∀ n ∈ d.fab.nbrs, n.port ≠ p) → ∃ t, exec (.linkDown p) s = .next t ∧
      Became { d with regs := t.dev.regs, ports := t.dev.ports } s t ∧ RegsKept [st, kMac p 2 0x78] s t ∧ rgN st t.dev = 0 ∧ CauseUp (macPage p) 0 t ∧
      ((port p d).ctl ≠ [] → Counts (kMac p 2 0x78) (port p d).ctl.length s t) ∧ ((port p d).ctl = [] → RegsKept [st] s t) ∧ (port p t.dev).ctl = [] ∧
      (port p t.dev).q6 = (port p d).q6 ∧ (port p t.dev).wakeAt = none) ∧
    (portEnabled p d = true → ∃ t, exec (.anFail p) s = .next t ∧ Became d s t ∧ CauseUp (macPage p) 6 t)

/-- The operator's transmit rings and the management port (R311, R320 to R322): a PROD within the ring's size is taken, one beyond it rejected RANGE; a
descriptor done advances CONS after its status is written, DONE, or DROPPED where its length is out of range or its port down; one whose queue is
stopped waits; a frame at the management port is filtered and counted, or copied and recorded; a frame sent in half duplex that collides backs off or is given
up, and then reported DROPPED; MDIO frames, and changes of the link. -/
def Obligations.TransmitRingsAndManagementPort : Prop :=
  ∀ (s : State) (p len queue speed : Nat) (v : W32) (f : RxFrame) (stamp : NT32) (ts lost late up half : Bool) (data : BitVec 16), let d := s.dev
    let k := txRing p
    let r := ring k d
    let at_ := r.base.toNat + 16 * (r.cons.toNat % 2 ^ r.sizeLog2)
    let mx := fld (rg (kMac p 0 oMAC_CFG) d) 13 0
    let m := ring mgmtRing d
    let n := d.mgmt.attempts + 1
    let r4 := ring (txRing 4) d
    let sends := mgmtOn d = true ∧ bit (rg rMGMT_STATUS d) 3 = true ∧ r4.enable = true ∧ r4.prod ≠ r4.cons ∧ d.mgmt.backoff = 0 ∧ d.mgmt.attempts < 16
    let cnt (i : Nat) : Nat := rMGMT_CNT + 4 * i
    let counted (cmd : Instr) (i : Nat) : Prop := ∃ t, exec cmd s = .next t ∧ Became { d with regs := t.dev.regs } s t ∧ RegsKept [cnt i] s t ∧ Counts (cnt i) 1 s t
    let mdio (op : Nat) : W32 := setFld (v ||| 0x80000000) 29 28 op
    (HostUp d → p ≤ 4 → mode1 d = false →
      ((v - r.cons).toNat ≤ 2 ^ r.sizeLog2 → ∃ t, exec (.txRingProdWrite p v) s = .next t ∧ OnlyRing k { r with prod := v } s t) ∧
      (2 ^ r.sizeLog2 < (v - r.cons).toNat → ∃ t, exec (.txRingProdWrite p v) s = .next t ∧ Rejected 0 6 0 (txrAddr p) 4 s t)) ∧
    (r.enable = false ∨ r.prod = r.cons → exec (.txDescriptorDone p len queue ts stamp lost) s = .next s) ∧
    (p < 4 → r.enable = true → r.prod ≠ r.cons → portOn p d = true → 60 ≤ len → len + 4 ≤ mx → bit (rg (kMac p 0 oMAC_PAUSE_STATE) d) (queue % 4) = true →
      exec (.txDescriptorDone p len queue ts stamp lost) s = .next s) ∧
    (p < 4 → r.enable = true → r.prod ≠ r.cons → d.pwr.st ≠ .dormant → (port p d).ctl = [] → (port p d).q6 = [] →
      bit (rg (kMac p 0 oMAC_PAUSE_STATE) d) (queue % 4) = false → ∃ t, exec (.txDescriptorDone p len queue ts stamp lost) s = .next t ∧
      Became { d with regs := t.dev.regs, ports := t.dev.ports, fresh := t.dev.fresh } s t ∧ ring k t.dev = { r with cons := r.cons + 1 } ∧
      (∀ j, j ≠ k → ring j t.dev = ring j d) ∧ .hostRead (ridOf d 0) at_ 16 ∈ t.dev.outbox ∧
      (portOn p d = true → 60 ≤ len → len + 4 ≤ mx → Counts (kMac p 2 0x44) 1 s t ∧
        (ts = false → .hostWrite (ridOf d 0) (at_ + 11) 1 1 ∈ t.dev.outbox) ∧
        (ts = true → .hostWrite (ridOf d 0) (at_ + 11) 5 (1 + 256 * (txStamp p stamp d).toNat) ∈ t.dev.outbox)) ∧
      (portOn p d = true → len < 60 ∨ mx < len + 4 → t.dev.regs = d.regs ∧ .hostWrite (ridOf d 0) (at_ + 11) 1 3 ∈ t.dev.outbox) ∧
      (portOn p d = false → 60 ≤ len → len + 4 ≤ mx → Counts (kMac p 2 0x78) 1 s t ∧ .hostWrite (ridOf d 0) (at_ + 11) 1 3 ∈ t.dev.outbox)) ∧
    (p = 4 → r.enable = true → r.prod ≠ r.cons → mgmtOn d = true → d.pwr.st ≠ .dormant → 60 ≤ len → len + 4 ≤ mgmtMax →
      (d.mgmt.attempts < 16 → d.mgmt.backoff ≠ 0 → exec (.txDescriptorDone p len queue ts stamp lost) s = .next s) ∧
      (d.mgmt.attempts < 16 → d.mgmt.backoff = 0 → ∃ t, exec (.txDescriptorDone p len queue ts stamp lost) s = .next t ∧ ring k t.dev = { r with cons := r.cons + 1 } ∧
        Counts (cnt 19) 1 s t ∧ .hostWrite (ridOf d 0) (at_ + 11) 1 1 ∈ t.dev.outbox) ∧
      (16 ≤ d.mgmt.attempts → ∃ t, exec (.txDescriptorDone p len queue ts stamp lost) s = .next t ∧ ring k t.dev = { r with cons := r.cons + 1 } ∧
        t.dev.regs = d.regs ∧ t.dev.mgmt = { d.mgmt with attempts := 0, backoff := 0 } ∧ .hostWrite (ridOf d 0) (at_ + 11) 1 3 ∈ t.dev.outbox)) ∧
    (mgmtOn d = false → exec (.mgmtFrameRx f) s = .next s) ∧
    (mgmtOn d = true →
      (f.len < 64 → counted (.mgmtFrameRx f) 14) ∧
      (64 ≤ f.len → mgmtMax < f.len → counted (.mgmtFrameRx f) 15) ∧
      (64 ≤ f.len → f.len ≤ mgmtMax →
        (f.fcsOk = false → counted (.mgmtFrameRx f) 12) ∧
        (f.fcsOk = true → f.aligned = false → counted (.mgmtFrameRx f) 13) ∧
        (f.fcsOk = true → f.aligned = true → f.etherType = 0x8808 → counted (.mgmtFrameRx f) 16) ∧
        (f.fcsOk = true → f.aligned = true → f.etherType ≠ 0x8808 → f.dst ≠ (rg rMGMT_ADDR d).extractLsb' 0 48 → bit f.dst 40 = false →
          counted (.mgmtFrameRx f) 17) ∧
        (f.fcsOk = true → f.aligned = true → f.etherType ≠ 0x8808 → f.dst = (rg rMGMT_ADDR d).extractLsb' 0 48 ∨ bit f.dst 40 = true →
          d.pwr.st ≠ .dormant → m.enable = true → m.lost = 0 → 1 ≤ m.room →
          ∃ t, exec (.mgmtFrameRx f) s = .next t ∧ Became { d with regs := t.dev.regs } s t ∧ Counts (cnt 1) 1 s t ∧
            ring mgmtRing t.dev = { m with prod := m.prod + 1, seq := m.seq + 1, writes := m.writes + 1 } ∧ CauseUp 0x110 3 t ∧
            .hostCopy (ridOf d 0) (m.dataBase.toNat + 2048 * (m.prod.toNat % 2 ^ m.sizeLog2)) (f.head.take 2048) ∈ t.dev.outbox))) ∧
    (¬ sends → exec (.mgmtCollision late) s = .next s) ∧
    (sends →
      (∃ t, exec (.mgmtCollision true) s = .next t ∧ Became { d with regs := t.dev.regs, mgmt := { d.mgmt with attempts := 16, backoff := 0 } } s t ∧
        Counts (cnt 27) 1 s t ∧ RegsKept [cnt 27] s t ∧ CauseUp 0x110 5 t) ∧
      (n < 16 → ∃ t b, exec (.mgmtCollision false) s = .next t ∧
        Became { d with regs := t.dev.regs, fresh := d.fresh + 1, mgmt := { d.mgmt with attempts := n, backoff := b } } s t ∧ b < 2 ^ min n 10 ∧
        Counts (cnt 25) 1 s t ∧ RegsKept [cnt 25] s t) ∧
      (16 ≤ n → ∃ t, exec (.mgmtCollision false) s = .next t ∧
        Became { d with regs := t.dev.regs, mgmt := { d.mgmt with attempts := 16, backoff := 0 } } s t ∧
        Counts (cnt 25) 1 s t ∧ Counts (cnt 26) 1 s t ∧ RegsKept [cnt 25, cnt 26] s t ∧ CauseUp 0x110 6 t)) ∧
    (exec .mgmtBackoffExpiry s = .next { s with dev := { d with mgmt := { d.mgmt with backoff := 0 } } }) ∧
    (HostUp d → ∀ e ∈ [(0, Instr.mdioAddress v), (1, .mdioWrite v), (2, .mdioRead v)],
      (bit (rg rMGMT_MDIO d) 31 = true → ∃ t, exec e.2 s = .next t ∧ Rejected 0 5 0 rMGMT_MDIO 4 s t) ∧
      (bit (rg rMGMT_MDIO d) 31 = false → ∃ t, exec e.2 s = .next t ∧ t.pending = s.pending ∧
        t.dev = { d with regs := t.dev.regs, mgmt := { d.mgmt with mdio := mdio e.1 }, outbox := t.dev.outbox } ∧ RegsKept [rMGMT_MDIO] s t ∧
        rgN rMGMT_MDIO t.dev = (mdio e.1).toNat ∧ fld (rg rMGMT_MDIO t.dev) 29 28 = e.1 ∧ bit (rg rMGMT_MDIO t.dev) 31 = true)) ∧
    (bit (rg rMGMT_MDIO d) 31 = false → exec (.mdioDone data) s = .next s) ∧
    (bit (rg rMGMT_MDIO d) 31 = true → ∃ t, exec (.mdioDone data) s = .next t ∧ t.pending = s.pending ∧
      t.dev = { d with regs := t.dev.regs, mgmt := { d.mgmt with mdio := 0 } } ∧ RegsKept [rMGMT_MDIO] s t ∧ bit (rg rMGMT_MDIO t.dev) 31 = false ∧
      fld (rg rMGMT_MDIO t.dev) 15 0 = if fld (rg rMGMT_MDIO d) 29 28 = 2 then data.toNat else fld (rg rMGMT_MDIO d) 15 0) ∧
    (bit (rg rMGMT_CFG d) 4 = false → speed < 3 → ∃ t, exec (.mgmtLinkChange up speed half) s = .next t ∧ Became { d with regs := t.dev.regs } s t ∧
      RegsKept [rMGMT_STATUS] s t ∧ rgN rMGMT_STATUS t.dev = (if half = true ∧ speed < 2 then 8 else 0) + 2 * speed + b2n up ∧
      (bit (rg rMGMT_STATUS d) 0 ≠ up → CauseUp 0x110 1 t))

/-- The board management bus (R323 to R325): a command to an enabled, idle and usable controller starts, and is rejected BUSY to another and RANGE for
0 or more than 32 bytes; it ends with DONE, the bytes moved, NACK and ARB_LOST as the bus gave them, and data read in BMB_DATA; recovery reports
its pulses, or UNUSABLE; a clock stuck low aborts; presence and interrupt of a module show in BMB_MOD_STATE. -/
def Obligations.BoardManagementBus : Prop :=
  ∀ (s : State) (c i n pulses cage : Nat) (v : W32) (nack arb free on : Bool) (data : List Byte), let d := s.dev
    let st := kBmb c rBMB_STAT
    let old := rg st d
    let cmd := tabGet (fun _ => (0 : W32)) d.mgmt.cmd c
    let usable := bit old 0 = false ∧ bit old 6 = false ∧ bit old 4 = false ∧ bit (rg (kBmb c rBMB_CTRL) d) 0 = true ∧ c ∉ d.mgmt.recovering
    let changed (x : Instr) (l : List Nat) (t : State) : Prop := exec x s = .next t ∧
      Became { d with regs := t.dev.regs, mgmt := { d.mgmt with cmd := t.dev.mgmt.cmd } } s t ∧ RegsKept l s t
    (HostUp d → c < 2 →
      (fld v 15 8 = 0 ∨ 32 < fld v 15 8 → ∃ t, exec (.bmbCmd c v) s = .next t ∧ Rejected 0 6 0 (kBmb c rBMB_CMD) 4 s t) ∧
      (1 ≤ fld v 15 8 → fld v 15 8 ≤ 32 → bit v 22 = false ∨ mode1 d = false →
        (¬ usable → ∃ t, exec (.bmbCmd c v) s = .next t ∧ Rejected 0 5 0 (kBmb c rBMB_CMD) 4 s t) ∧
        (usable → ∃ t, changed (.bmbCmd c v) [st] t ∧ rgN st t.dev = fld old 11 8 * 256 + 1 ∧
          tabGet (fun _ => 0) t.dev.mgmt.cmd c = v &&& 0x0073FFFF ∧ .msg .i2c c [(v &&& 0x0073FFFF).toNat] ∈ t.dev.outbox ∧
          (c = 0 → bit v 22 = true → .pin (.modSel (fld v 21 20)) false ∈ t.dev.outbox)))) ∧
    (c < 2 → bit old 0 = true → n ≤ 32 →
      ∃ t, changed (.bmbDone c n nack arb data) (st :: (List.range 8).map fun j => kBmb c rBMB_DATA0 + 4 * j) t ∧
        rgN st t.dev = n * 65536 + fld old 11 8 * 256 + 8 * b2n arb + 4 * b2n nack + 2 ∧ CauseUp 0x1B0 (1 + c) t ∧
        (bit cmd 7 = false → RegsKept [st] s t) ∧
        (bit cmd 7 = true → i < n → data.length = n → fld (rg (kBmb c rBMB_DATA0 + 4 * (i / 4)) t.dev) (8 * (i % 4) + 7) (8 * (i % 4)) = (data.getD i 0).toNat) ∧
        (c = 0 → bit cmd 22 = true → .pin (.modSel (fld cmd 21 20)) true ∈ t.dev.outbox)) ∧
    (c < 2 → bit old 0 = false → exec (.bmbDone c n nack arb data) s = .next s ∧ exec (.sclStuck c) s = .next s) ∧
    (c < 2 → c ∉ d.mgmt.recovering → exec (.busRecovery c pulses free) s = .next s) ∧
    (c < 2 → c ∈ d.mgmt.recovering → pulses ≤ 9 → ∃ t, exec (.busRecovery c pulses free) s = .next t ∧
      Became { d with regs := t.dev.regs, mgmt := { d.mgmt with recovering := d.mgmt.recovering.filter fun x => decide (x ≠ c) } } s t ∧ RegsKept [st] s t ∧
      fld (rg st t.dev) 11 8 = (if free = true then pulses else 9) ∧ bit (rg st t.dev) 4 = !free ∧ (free = false → CauseUp 0x1B0 (3 + c) t)) ∧
    (c < 2 → bit old 0 = true → ∃ t, changed (.sclStuck c) [st] t ∧ rgN st t.dev = fld old 11 8 * 256 + 32 ∧ CauseUp 0x1B0 (5 + c) t) ∧
    (cage < 4 → bit (rg rBMB_MOD_STATE d) cage ≠ on → ∃ t, changed (.modulePresenceChange cage on) [rBMB_MOD_STATE] t ∧ CauseUp 0x1B0 7 t ∧
      ∀ j, j < 8 → bit (rg rBMB_MOD_STATE t.dev) j = if j = cage then on else bit (rg rBMB_MOD_STATE d) j) ∧
    (cage < 4 → bit (rg rBMB_MOD_STATE d) cage = on → exec (.modulePresenceChange cage on) s = .next s) ∧
    (cage < 4 → ∃ t, changed (.modInt cage on) [rBMB_MOD_STATE] t ∧
      (on = true → bit (rg rBMB_MOD_STATE d) (4 + cage) = false → CauseUp 0x1B0 8 t) ∧
      ∀ j, j < 8 → bit (rg rBMB_MOD_STATE t.dev) j = if j = 4 + cage then on else bit (rg rBMB_MOD_STATE d) j)

namespace Sys2Proof
/-! ### Twins -/
/-- The twin state became `w`; nothing else changed but what causes, messages, the log of outputs and registers hold. -/
def TwinBecame (w : Twin) (s t : State) : Prop := Became { s.dev with twin := w, regs := t.dev.regs } s t

/-- The operation writes a binding. -/
def isBinding : TwinOp → Bool
  | .binding _ _ _ _ => true
  | _ => false

/-- The operation is one of the flow window of partition `p`. -/
def isFlowOf (p : Nat) : TwinOp → Bool
  | .flow q _ _ _ => decide (q = p)
  | _ => false

/-- A takeover with nothing retained and no channel still copying, on a device without lines. -/
abbrev QuietStandby (d : Dev) : Prop :=
  hasTwin d = true ∧ d.twin.role = .standby ∧ d.twin.fence = false ∧ d.twin.taking = none ∧ d.pwr.st ≠ .fault ∧ d.path.waiting = [] ∧ d.path.trunkIn = [] ∧
    d.twin.retained = [] ∧ d.recd.retained = [] ∧ d.recd.spools = [] ∧ d.lfe.lines = [] ∧ ∀ k ∈ activeSlots d, chSt k d ≠ .copying

/-- The device has taken over (R347): ACTIVE, its ACT line high, on the time source configured, with no slot changed. -/
def TookOver (s t : State) : Prop :=
  t.pending = s.pending ∧ t.dev.twin.role = .active ∧ t.dev.twin.own = true ∧ t.dev.twin.taking = none ∧ t.dev.twin.ch = [] ∧
    t.dev.tb.src = s.dev.twin.cfgSrc ∧ t.dev.tb.qualified = false ∧ t.dev.slots = s.dev.slots ∧ CauseUp 0x120 1 t ∧ Counts rTWIN_CNT_TAKEOVER 1 s t ∧
    rgN rTWIN_LAST_TAKEOVER t.dev = (now s.dev).toNat

/-- The device has yielded (R347): STANDBY, its ACT line low, steering to its peer, its channels in SHADOW while the link is up. -/
def Yielded (s t : State) : Prop :=
  t.pending = s.pending ∧ t.dev.twin.role = .standby ∧ t.dev.twin.own = false ∧ t.dev.tb.src = 4 ∧ t.dev.slots = s.dev.slots ∧
    ∀ k ∈ activeSlots s.dev, chSt k t.dev = if s.dev.twin.link = true then .shadow else .diverged

end Sys2Proof
/-- The Twin Link, pairing and fencing (R330 to R335, R346, R347, R350, R351): lanes and link as they train and fail; pairing refused on different pair
IDs, else the device already active stays ACTIVE and one whose peer is active becomes PAIRING on the peer's time; a peer's fall or the third missed
heartbeat makes a standby ACTIVE; a peer's rise and FENCE_N make an active yield; a taker whose peer's line stays high 10 µs backs off; SWITCHOVER
names a boundary at least 2 ms ahead and changes both roles there; DETACH and ATTACH in their states and BUSY elsewhere. -/
def Obligations.TwinLinkAndRoles : Prop :=
  ∀ (s : State) (lanes n : Nat) (peer : TwinPeer) (t0 x : NT32), let d := s.dev
    let w := d.twin
    let up := if 4 ≤ lanes then 4 else if 2 ≤ lanes then 2 else 1
    let busy (cmd : Instr) : Prop := ∃ t, exec cmd s = .next t ∧ Rejected 0 5 0 rTWIN_CMD 4 s t
    (hasTwin d = true → w.seen = false → ∃ t, exec (.twinLinkUp lanes) s = .next t ∧ Became { d with twin := { w with link := true, lanes := up, missRun := 0 } } s t ∧
      (lanes < 4 → CauseUp 0x120 6 t)) ∧
    (w.link = true → lanes = 1 ∨ lanes = 2 → lanes < w.lanes → ∃ t, exec (.laneFallback lanes) s = .next t ∧ Became { d with twin := { w with lanes := lanes } } s t ∧
      CauseUp 0x120 6 t) ∧
    (w.link = true → w.role = .alone → ∃ t, exec .twinLinkDown s = .next t ∧
      Became { d with twin := { w with link := false, lanes := 0, locked := false } } s t ∧ CauseUp 0x120 0 t) ∧
    (w.link = true → w.role = .standby → ∃ t, exec .twinLinkDown s = .next t ∧ t.dev.twin.link = false ∧ t.dev.twin.role = .standby ∧ CauseUp 0x120 0 t ∧
      t.dev.slots = d.slots ∧ ∀ k ∈ activeSlots d, chSt k t.dev = .diverged) ∧
    (w.link = true → ∃ t, exec .linkFrameError s = .next t ∧ OnlyRegisters [rTWIN_CNT_LINK_RETRY] s t ∧ Counts rTWIN_CNT_LINK_RETRY 1 s t) ∧
    (hasTwin d = true → w.link = true → bit (rg rTWIN_CFG d) 0 = true → w.role = .alone → w.seen = false → ∀ cmd ∈ [Instr.pairing peer, .pairRetry peer],
      (peer.pairId ≠ peer.ownId ∨ peer.certOk = false ∨ peer.side = bit d.pwr.straps 0 → ∃ t, exec cmd s = .next t ∧ TwinBecame w s t ∧
        RegsKept [rTWIN_PAIR_ID] s t ∧ rg rTWIN_PAIR_ID t.dev = peer.ownId ∧ CauseUp 0x120 7 t) ∧
      (peer.pairId = peer.ownId → peer.certOk = true → peer.side ≠ bit d.pwr.straps 0 → w.own = true → w.fence = false → d.pwr.st ≠ .fault →
        ∃ t, exec cmd s = .next t ∧ t.pending = s.pending ∧ t.dev.twin = { w with seen := true, attach := false, missRun := 0, unlockRun := 0, role := .active, peerRole := 1, want := t.dev.twin.want } ∧
          t.dev.slots = d.slots ∧ t.dev.path = d.path ∧ t.dev.tb = d.tb) ∧
      (peer.pairId = peer.ownId → peer.certOk = true → peer.side ≠ bit d.pwr.straps 0 → w.own = false → peer.active = true →
        ∃ t, exec cmd s = .next t ∧ t.pending = s.pending ∧ t.dev.twin.role = .pairing ∧ t.dev.twin.own = false ∧ t.dev.twin.seen = true ∧ t.dev.tb.src = 4 ∧
          t.dev.slots = d.slots ∧ t.dev.path = d.path ∧ ∀ k ∈ activeSlots d, chSt k t.dev = .copying)) ∧
    (QuietStandby d → w.peer = true → ∃ t, exec .peerActFall s = .next t ∧ TookOver s t ∧ t.dev.twin.peer = false) ∧
    (QuietStandby d → w.peer = false → w.seen = true → w.missRun = 2 → ∃ t, exec .heartbeatMiss s = .next t ∧ TookOver s t ∧ Counts rTWIN_CNT_HB_MISS 1 s t) ∧
    (w.seen = true → w.role = .active ∨ w.role = .standby → w.missRun < 2 → ∃ t, exec .heartbeatMiss s = .next t ∧ TwinBecame { w with missRun := w.missRun + 1 } s t ∧
      RegsKept [rTWIN_CNT_HB_MISS] s t ∧ Counts rTWIN_CNT_HB_MISS 1 s t ∧ (faulted 0x120 d = false → CauseUp 0x120 3 t)) ∧
    (hasTwin d = true → w.role = .active → w.acks = [] → w.own = true →
      (∃ t, exec .peerActRise s = .next t ∧ Yielded s t ∧ t.dev.twin.peer = true ∧ CauseUp 0x120 2 t) ∧
      (∃ t, exec .fenceAssert s = .next t ∧ Yielded s t ∧ t.dev.twin.fence = true ∧ CauseUp 0x120 2 t)) ∧
    (hasTwin d = true → w.role = .alone → ∃ t, exec .peerActRise s = .next t ∧ t.pending = s.pending ∧ t.dev.twin = { w with peer := true, own := false } ∧ t.dev.slots = d.slots) ∧
    (hasTwin d = true → w.role = .standby → w.own = false → w.peer = true → ∃ t, exec .fenceRelease s = .next t ∧ t.pending = s.pending ∧
      t.dev.twin = { w with fence := false } ∧ t.dev.slots = d.slots) ∧
    (∀ d', d' = { d with twin := { w with fence := false } } → QuietStandby d' → w.own = false → w.peer = false → d.clu.driving = driveLevel d' →
      ∃ t, exec .fenceRelease s = .next t ∧ TookOver s t ∧ t.dev.twin.fence = false) ∧
    (w.taking = some (t0, n) → w.peer = true →
      (10000 ≤ sdiff (now d) t0 → ∃ t, exec .fenceConflict s = .next t ∧ Became { d with twin := { w with own := false, taking := none, missRun := 0 } } s t ∧ CauseUp 0x120 8 t) ∧
      (sdiff (now d) t0 < 10000 → exec .fenceConflict s = .next s)) ∧
    (HostUp d → hasTwin d = true →
      (w.role = .active → w.link = true → w.peerRole = 3 → w.want = [] → w.handover = none → 0 ≤ sdiff d.weir.nextP (now d) → sdiff d.weir.nextP (now d) ≤ 1000000 →
        ∃ t y, exec .switchover s = .next t ∧ t.dev.twin.handover = some y ∧ t.pending = s.pending ∧ t.dev = { d with
          twin := { w with handover := some y, acks := w.acks ++ [.switchover y] }, outbox := .twinOp (.switchover y) :: d.outbox } ∧
          2000000 ≤ sdiff y (now d) ∧ sdiff y d.weir.nextP % 1000000 = 0) ∧
      (w.role ≠ .active ∨ w.peerRole ≠ 3 → busy .switchover) ∧
      (w.role = .standby → w.own = false → exec .detach s = .next { s with dev := { d with twin := { w with role := .detached, ch := [], taking := none } } }) ∧
      (w.role ≠ .standby → busy .detach) ∧
      (w.role = .detached → exec .attach s = .next { s with dev := { d with twin := { w with attach := true } } }) ∧
      (w.role ≠ .detached → busy .attach)) ∧
    (w.handover = some x →
      (reached d x = false → exec .switchoverBoundary s = .next s) ∧
      (reached d x = true → hasTwin d = true → w.role = .active → w.acks = [] → w.own = true →
        ∃ t, exec .switchoverBoundary s = .next t ∧ Yielded s t ∧ t.dev.twin.peer = true ∧ t.dev.twin.handover = none) ∧
      (reached d x = true → QuietStandby d → ∃ t, exec .switchoverBoundary s = .next t ∧ TookOver s t ∧ t.dev.twin.peer = false ∧ t.dev.twin.handover = none))

/-- Heartbeats, operations, steps and the attach (R336, R337, R340, R342, R345, R351): a heartbeat leaves with its count, grid instant, state and FENCE_N; one
received clears the misses; the standby applies an operation and acknowledges it; the active's is complete at its OP_ACK; STEP is held for its
tick and acknowledged; a packet asked for is sent whole; a context asked for is sent from the next job that has not begun; table items are installed, and a channel starts COPYING;
the attach ends as STANDBY when every ACTIVE channel is in SHADOW. -/
def Obligations.TwinMessages : Prop :=
  ∀ (s : State) (r : IngressRec) (hb : TwinHb) (i p k : Nat) (c ports h : W32) (ip l m : List W32) (act : W64) (on : Bool) (wr : List (NT32 × List W32)) (pk pa : Nat) (o : TwinOp) (rest : List TwinOp) (step : W64) (tick : NT32), let d := s.dev
    let w := d.twin
    let gridAt : W64 := BitVec.ofNat 64 ((now64 d).toNat / 125000 * 125000)
    let grid := gridAt.toNat % 2 ^ 32
    let begun := d.weir.lists.any fun e => e.2.any fun j => !j.bus && decide (j.handle = h) && decide (j.st = .running ∨ j.st = .done)
    let bound : Path := { d.path with binds := tabSet (fun _ => ⟨0, 0, []⟩) d.path.binds i ⟨c, ports, ip⟩ }
    (w.link = true → w.seen = true → w.hbAt ≠ some gridAt → (w.role = .active → paired d = true) → ∃ t f, exec .heartbeatTx s = .next t ∧ t.pending = s.pending ∧
      t.dev = { d with twin := { w with hbSeq := w.hbSeq + 1, hbAt := some gridAt }, outbox := t.dev.outbox } ∧ t.dev.outbox = .msg .twin 0 f :: d.outbox ∧
      f.take 4 = [w.hbSeq.toNat, grid, w.role.code, b2n w.fence] ∧ (w.role ≠ .active → f.length = 4) ∧
      (w.role = .active → f.drop 4 = [(launchedMark d).toNat, (writtenMark d).toNat])) ∧
    (w.hbAt = some gridAt ∨ w.role = .active ∧ paired d = false → exec .heartbeatTx s = .next s) ∧
    (w.link = false → exec .heartbeatTx s = .next s) ∧
    (w.link = true → w.seen = true → w.role = .active → exec (.heartbeat hb) s = .next { s with dev := { d with twin := { w with missRun := 0, peerRole := hb.role } } }) ∧
    (w.link = true → w.role = .standby ∨ w.role = .pairing →
      (exec (.op (.binding i c ports ip)) s = .next { s with dev := { d with path := bound, outbox := .msg .twin 7 [] :: d.outbox } }) ∧
      (exec (.step step tick) s = .next { s with dev := { d with
        twin := { w with step := some ⟨step.toInt, tick, true⟩ }, tb := { d.tb with step := some ⟨step.toInt, some tick⟩ }, outbox := .msg .twin 9 [] :: d.outbox } })) ∧
    (w.link = false → exec (.op o) s = .next s ∧ exec (.step step tick) s = .next s) ∧
    (w.acks = o :: rest → isBinding o = true ∨ isFlowOf p o = true →
      ∃ t, exec .opAck s = .next t ∧ t.pending = s.pending ∧ t.dev = { d with twin := { w with acks := rest }, regs := t.dev.regs } ∧ Counts rTWIN_CNT_OP_FWD 1 s t ∧
        (isFlowOf p o = true → rgN (kFlw p oFLW_STATUS) t.dev = 0) ∧ RegsKept [rTWIN_CNT_OP_FWD, kFlw p oFLW_STATUS] s t) ∧
    (w.acks = [] → exec .opAck s = .next s) ∧
    (w.link = true → w.role = .active → w.sent = [] → exec (.payloadReq r.digest) s = .next s) ∧
    (w.link = true → w.role = .active → w.sent = [(r, tick)] →
      exec (.payloadReq r.digest) s = .next { s with dev := { d with outbox := .payload r :: d.outbox } }) ∧
    (exec .stepAck s = .next { s with dev := { d with twin := { w with step := w.step.map fun x => { x with acked := true } } } }) ∧
    (paired d = true → current h d = true →
      exec (.contextRequest h) s = .next { s with dev := { d with twin := { w with want := w.want.filter (fun x => x.1 ≠ h) ++ [(h, begun)] } } }) ∧
    (w.role = .pairing → w.link = true →
      (exec (.bulk (.binding i c ports ip)) s = .next { s with dev := { d with path := bound } }) ∧
      (hSlot h = k → ∃ t, exec (.bulk (.channel k h on act l wr pk pa m)) s = .next t ∧ t.pending = s.pending ∧
        (∀ a, a / 1024 < 0xA800 ∨ a / 1024 - 0xA800 ∉ (slot k t.dev).tgranules → basinRead a t.dev = basinRead a d) ∧
        (pk ∉ [1, 2, 3, 4] → t.dev = { d with twin := { w with ch := t.dev.twin.ch }, slots := t.dev.slots, basin := t.dev.basin, poison := t.dev.poison } ∧ (slot k t.dev).pend = none) ∧ chSt k t.dev = .copying ∧ (slot k t.dev).st = (if on then .active else .activating) ∧
        (slot k t.dev).part = hPart h ∧ (slot k t.dev).gen.toNat = hGen h ∧ (slot k t.dev).desc = l ∧ (slot k t.dev).write = wr ∧ (slot k t.dev).actAt = act ∧
        (pk = 1 → (slot k t.dev).pend = some ⟨.activate, BitVec.ofNat 32 pa, m⟩) ∧
        (pk = 2 → (slot k t.dev).pend = some ⟨.release, BitVec.ofNat 32 pa, m⟩) ∧ (pk = 3 → (slot k t.dev).pend = some ⟨.modifyAt, BitVec.ofNat 32 pa, m⟩) ∧
        (pk = 4 → (slot k t.dev).pend = some ⟨.deferred, BitVec.ofNat 32 pa, m⟩) ∧
        (∀ j, j ≠ k → slot j t.dev = slot j d) ∧ ∀ j, j ≠ k → chSt j t.dev = chSt j d) ∧
      ((∀ j ∈ activeSlots d, chSt j d = .shadow) → exec .bulkComplete s = .next { s with dev := { d with twin := { w with role := .standby } } }) ∧
      ((∃ j ∈ activeSlots d, chSt j d ≠ .shadow) → exec .bulkComplete s = .next s))

/-- A standby in SHADOW (R31, R181, R336, R338, R339, R342, R343): an ingress record is held until its packet is there, a payload asked for 50 µs after a record
without one and served when it comes; a packet of no record is discarded after 2 ms; HORIZON fires a token whose slots are full, and stands in
for itself 5 µs late; a LINE operand fills its token's slot; a digest that differs moves the channel to RESYNC and asks for its context, one that
agrees after the context's installation brings it back to SHADOW. -/
def Obligations.TwinShadow : Prop :=
  ∀ (s : State) (r r0 : IngressRec) (f : RxFrame) (t0 p : NT32) (x : WaitPkt) (xs : List WaitPkt) (k : Token) (c ctx status : Nat) (h v : W32) (e : PassDigest)
    (m : Media) (a b : Leg) (y : WaitTrunk) (ys : List WaitTrunk) (samples : List (BitVec 18)), let d := s.dev
    let w := d.twin
    let q := d.weir
    w.link = true → w.role = .standby →
    (w.ingress = [] → d.path.waiting = [] → d.path.trunkIn = [] → r.frame = none → r.trunk = none → ∃ t, exec (.ingress r) s = .next t ∧ t.pending = s.pending ∧
      t.dev = { d with twin := { w with ingress := [(r, now d)] }, regs := t.dev.regs } ∧ RegsKept [rTWIN_CNT_RECORDS] s t ∧ Counts rTWIN_CNT_RECORDS 1 s t) ∧
    (w.ingress = [(r0, t0)] → r0.frame = none →
      (r0.trunk = none → 50000 ≤ sdiff (now d) t0 → ∃ t, exec (.payloadReq r0.digest) s = .next t ∧ OnlyRegisters [rJB_CNT_TWIN_FETCH] { s with dev := { d with outbox := t.dev.outbox } } t ∧
        Counts rJB_CNT_TWIN_FETCH 1 s t ∧ t.dev.outbox = .msg .twin 3 [r0.digest.toNat] :: d.outbox) ∧
      (sdiff (now d) t0 < 50000 → exec (.payloadReq r0.digest) s = .next s) ∧
      (r.digest = r0.digest → ∃ t, exec (.payload r f) s = .next t ∧ t.pending = s.pending ∧ t.dev.twin.ingress = [] ∧ t.dev.twin.fetched = r.digest :: w.fetched) ∧
      (r.digest ≠ r0.digest → exec (.payload r f) s = .next s)) ∧
    (d.path.waiting = x :: xs →
      (2000000 ≤ sdiff (now d) x.at_ → ∃ t, exec .twinOrphan s = .next t ∧ t.pending = s.pending ∧
        t.dev = { d with path := { d.path with waiting := xs }, regs := t.dev.regs } ∧ RegsKept [rJB_CNT_TWIN_ORPHAN] s t ∧ Counts rJB_CNT_TWIN_ORPHAN 1 s t) ∧
      (sdiff (now d) x.at_ < 2000000 → d.path.trunkIn = [] → exec .twinOrphan s = .next s)) ∧
    (d.path.waiting = [] → d.path.trunkIn = y :: ys →
      (2000000 ≤ sdiff (now d) y.at_ → ∃ t, exec .twinOrphan s = .next t ∧ t.pending = s.pending ∧
        t.dev = { d with path := { d.path with trunkIn := ys }, regs := t.dev.regs } ∧ RegsKept [rJB_CNT_TWIN_ORPHAN] s t ∧ Counts rJB_CNT_TWIN_ORPHAN 1 s t) ∧
      (sdiff (now d) y.at_ < 2000000 → exec .twinOrphan s = .next s)) ∧
    (w.horizon = none → WeirWorks d → q.tokens = [k] → k.elig = true → k.bus = false → k.fillCtx = true → k.fillA = true → k.fillB = true → k.fillProg = true →
      current k.handle d = true → q.lists = [] → c < 64 → bit q.healthy c = true → (∀ y, y < c → bit q.healthy y = false) →
      ∀ cmd ∈ [Instr.horizon q.lastP, .horizonTimeout q.lastP], cmd = .horizon q.lastP ∨ 5000 ≤ sdiff (now d) q.lastP →
      ∃ t j, exec cmd s = .next t ∧ t.pending = s.pending ∧ t.dev.twin.horizon = some q.lastP ∧ t.dev.weir.tokens = [] ∧ jobs c t.dev = [j] ∧
        j.handle = k.handle ∧ j.pass = k.pass ∧ Counts rWEIR_CNT_FIRED 1 s t) ∧
    (5000 ≤ sdiff (now d) p → exec (.horizonTimeout p) s = exec (.horizon p) s) ∧
    (sdiff (now d) p < 5000 → exec (.horizonTimeout p) s = .next s) ∧
    (q.tokens = [k] → k.bus = false → k.handle = h → k.pass = q.lastP - 1000000 → k.fillA = false → k.elig = false →
      exec (.line h 0 samples status) s = .next { s with dev := { d with weir := { q with tokens := [{ k with fillA := true, inA := .pcm samples status }] } } }) ∧
    (current h d = true → w.digests.find? (fun y => decide (y.handle = h ∧ y.pass = p)) = some e →
      (chSt (hSlot h) d = .shadow → e.value = v → exec (.digest h p v) s = .next s) ∧
      (chSt (hSlot h) d = .shadow → e.value ≠ v → ∃ t, exec (.digest h p v) s = .next t ∧
        Became { d with
          regs := t.dev.regs, twin := { w with ch := t.dev.twin.ch, installed := w.installed.filter fun y => decide (y.1 ≠ h) },
          weir := { q with tokens := q.tokens.map fun (y : Token) => (if !y.bus && decide (y.handle = h) then { y with fillCtx := false } else y) } } s t ∧
        chSt (hSlot h) t.dev = .resync ∧ (∀ j, j ≠ hSlot h → chSt j t.dev = chSt j d) ∧ Counts rTWIN_CNT_DIGEST_MISMATCH 1 s t ∧
        RegsKept [rTWIN_CNT_DIGEST_MISMATCH] s t ∧ .msg .twin 10 [h.toNat] ∈ t.dev.outbox ∧ (faulted 0x120 d = false → CauseUp 0x120 4 t)) ∧
      (chSt (hSlot h) d = .resync → w.installed.any (fun y => decide (y.1 = h)) = true → e.value = v → ∃ t, exec (.digest h p v) s = .next t ∧
        Became { d with regs := t.dev.regs, twin := { w with ch := t.dev.twin.ch } } s t ∧ chSt (hSlot h) t.dev = .shadow ∧ Counts rTWIN_CNT_RESYNC 1 s t ∧
        RegsKept [rTWIN_CNT_RESYNC] s t)) ∧
    (current h d = true → chSt (hSlot h) d = .copying ∨ chSt (hSlot h) d = .resync → q.tokens = [] →
      ∃ t, exec (.context h p ⟨ctx, m⟩ a b) s = .next t ∧ t.pending = s.pending ∧ (slot (hSlot h) t.dev).ctx = ctx ∧ (slot (hSlot h) t.dev).media = m ∧ (slot (hSlot h) t.dev).legA = a ∧
        (slot (hSlot h) t.dev).legB = b ∧ (slot (hSlot h) t.dev).desc = (slot (hSlot h) d).desc ∧ (h, p) ∈ t.dev.twin.installed ∧
        ∀ j, j ≠ hSlot h → slot j t.dev = slot j d)

namespace Sys2Proof
/-! ### Recording and the journal flash -/

end Sys2Proof
/-- Nougat units and the spool (R363, R365 to R367, R374): the worked example of R363; a draining partition exports its oldest spooled unit, copy before
record, REC_DRAIN units a second (a unit whose flash codewords are uncorrectable is lost: log entry 211), and is LIVE again when the spool is empty; DISCARD frees the selected partition's spool and counts what it held; a spool transaction
commits what the write buffer holds up to 16 pages. -/
def Obligations.NougatAndSpool : Prop :=
  ∀ (s : State) (p sq : Nat) (u : RecUnit) (rest : List (Nat × RecUnit)), let d := s.dev
    let k := ringKey p 2
    let r := ring k d
    let sp := spool p d
    let sel := fld (rg rREC_SP_SEL d) 9 0
    (codedPayload 1 2 0 [] [100, 104, 107, 109] = [0, 100, 0x23, 0x20]) ∧
    (p < 1024 → sp.st = 2 → sp.units = (sq, u) :: rest → d.twin.role ≠ .standby → r.enable = true → r.lost = 0 → 1 ≤ r.room → pathDown p d = false →
      (drainDue d = false → exec (.spoolDrain p) s = .next s) ∧
      (drainDue d = true → ∃ t, exec (.spoolDrain p) s = .next t ∧ (spool p t.dev).units = rest ∧ (rest = [] → (spool p t.dev).st = 0) ∧
        (rest ≠ [] → (spool p t.dev).st = 2) ∧ (∀ q, q ≠ p → spool q t.dev = spool q d) ∧ t.dev.recd.drains.1 = secOf d ∧
        (Config.codewordLost d.fresh = false →
          Became { d with regs := t.dev.regs, fresh := d.fresh + 1, recd := { d.recd with spools := t.dev.recd.spools, drains := t.dev.recd.drains } } s t ∧
          (spool p t.dev).exported = sp.exported ++ [(sq, u.bytes.length, r.prod + 1)] ∧ (ring k t.dev).prod = r.prod + 1 ∧
          .hostCopy (ridPart d p) (r.dataBase.toNat + 2048 * (r.prod.toNat % 2 ^ r.sizeLog2)) u.bytes ∈ t.dev.outbox ∧
          Counts rREC_CNT_DRAINED 1 s t ∧ RegsKept [rREC_CNT_DRAINED] s t) ∧
        (Config.codewordLost d.fresh = true →
          Became { d with
            regs := t.dev.regs, fresh := d.fresh + 1,
            recd := { d.recd with spools := t.dev.recd.spools, drains := t.dev.recd.drains, streams := t.dev.recd.streams } } s t ∧
          (spool p t.dev).exported = sp.exported ∧ (ring k t.dev).prod = r.prod ∧ Counts rREC_CNT_LOST 1 s t ∧ RegsKept [rREC_CNT_LOST] s t ∧ CauseUp 0x130 4 t))) ∧
    (sp.units = [] → exec (.spoolDrain p) s = .next s) ∧
    (HostUp d → d.twin.role ≠ .standby → ∃ t, exec .spoolDiscard s = .next t ∧
      Became { d with regs := t.dev.regs, recd := { d.recd with spools := t.dev.recd.spools, wbuf := d.recd.wbuf.filter fun w => decide (w.1 ≠ sel) } } s t ∧
      (spool sel t.dev).units = [] ∧ (spool sel t.dev).exported = [] ∧ (spool sel t.dev).st = 0 ∧ (∀ q, q ≠ sel → spool q t.dev = spool q d) ∧
      Counts rREC_CNT_LOST (spool sel d).units.length s t ∧ RegsKept [rREC_CNT_LOST] s t ∧ ((spool sel d).units ≠ [] → CauseUp 0x130 4 t)) ∧
    ((d.recd.wbuf.map fun w => w.2.2).sum ≤ 16 * 16320 → exec .spoolCommit s = .next { s with dev := { d with recd := { d.recd with wbuf := [] } } })

/-- Transfers of the journal flash and its blocks (R371 to R375, R382): while one is in progress another is rejected BUSY; a flush, or the boot slot in use as
target, is answered BUSY; a region or extent that does not apply RANGE; otherwise BUSY reads 1 and the transfer ends with 0 or the error given: sectors
written or erased, the calibration slot of the lower SEQ replaced, the event log and the spools empty after a format. Blocks move as patrol,
growth and wear demand, and the causes of wear rise. -/
def Obligations.FlashTransfers : Prop :=
  ∀ (s : State) (op data err i bits days spread percent : Nat) (cmd : Instr) (x : FlashXf), let d := s.dev
    let f := d.flash
    let st := rFLASH_XF_STATUS
    let r := fld (rg rFLASH_XF_REGION d) 2 0
    let off := rgN rFLASH_XF_OFFSET d
    let len := rgN rFLASH_XF_LEN d
    let host := rgN rFLASH_XF_HOST d
    let scrub := rg rFLASH_SCRUB_CTRL d
    let was := fld (rg rFLASH_LIFE d) 7 0
    let answered (n : Nat) : Prop := ∃ t, exec cmd s = .next t ∧ OnlyRegisters [st] s t ∧ rgN st t.dev = n
    let ended (e : Nat) (t : State) : Prop := exec (.xfDone e) s = .next t ∧ rgN st t.dev = (if e = 3 ∨ e = 4 then e else 0) ∧ t.dev.flash.xf = none ∧
      CauseUp 0x140 7 t ∧ t.pending = s.pending ∧ t.dev.slots = d.slots ∧ t.dev.rings = d.rings
    (HostUp d → (op, cmd) ∈ [(1, Instr.flashRead), (2, .flashWrite data), (3, .flashErase), (4, .calStore data), (5, .format)] →
      (f.xf ≠ none → ∃ t, exec cmd s = .next t ∧ Rejected 0 5 0 rFLASH_XF_OP 4 s t) ∧
      (f.xf = none → d.recd.flushing = true → answered 1) ∧
      (f.xf = none → d.recd.flushing = false →
        (op = 2 ∨ op = 3 → bit (rg rPWR_BOOT_SLOT d) 1 = false → r = fld (rg rPWR_BOOT_SLOT d) 0 0 → answered 1) ∧
        (op ∈ [2, 3] → r ∉ [0, 1, 3, 4] → answered 2) ∧ (op = 4 → r ≠ 2 → answered 2) ∧ (op = 5 → r ≠ 4 → r ≠ 5 → answered 2) ∧
        (op ∈ [1, 2, 3] → (op = 1 ∨ r ≠ fld (rg rPWR_BOOT_SLOT d) 0 0) → off % 4096 ≠ 0 ∨ len % 4096 ≠ 0 ∨ 67108864 < len → answered 2) ∧
        (op ∈ [1, 2, 3] → r ∈ [0, 1, 3] → off % 4096 = 0 → len % 4096 = 0 → len ≤ 67108864 → off + len ≤ (if r = 3 then 64 else 128) * 2 ^ 20 → host % 8 = 0 →
          (op = 1 ∨ r ≠ fld (rg rPWR_BOOT_SLOT d) 0 0) →
          ∃ t, exec cmd s = .next t ∧ t.pending = s.pending ∧ t.dev = { d with
            flash := { f with xf := some ⟨op, r, off / 4096, len / 4096, rg rFLASH_XF_HOST d, if op = 2 then data else 0⟩ }, regs := t.dev.regs, outbox := t.dev.outbox } ∧
            RegsKept [st] s t ∧ rgN st t.dev = 2 ^ 31 ∧ (op = 2 → .hostRead (ridOf d 0) host len ∈ t.dev.outbox)) ∧
        (op = 4 → r = 2 → len ≤ 4194048 → host % 8 = 0 → f.calA.seq < 2 ^ 32 - 2 → f.calB.seq < 2 ^ 32 - 2 →
          ∃ t, exec cmd s = .next t ∧ rgN st t.dev = 2 ^ 31 ∧ t.dev.flash = { f with xf := some ⟨4, 2, off / 4096, len / 4096, rg rFLASH_XF_HOST d, data⟩ }) ∧
        (op = 5 → r = 4 ∨ r = 5 → ∃ t, exec cmd s = .next t ∧ rgN st t.dev = 2 ^ 31 ∧
          t.dev.flash = { f with xf := some ⟨5, r, off / 4096, len / 4096, rg rFLASH_XF_HOST d, 0⟩ }))) ∧
    (f.xf = none → exec (.xfDone err) s = .next s) ∧
    (f.xf = some x →
      (x.op ∈ [1, 2, 3, 5] → err = 3 ∨ err = 4 → ∃ t, ended err t ∧ t.dev.flash = { f with xf := none } ∧ t.dev.recd = d.recd) ∧
      (x.op ∈ [2, 3] → ∃ t, ended 0 t ∧ t.dev.recd = d.recd ∧ t.dev.flash.calA = f.calA ∧ t.dev.flash.calB = f.calB ∧
        tabGet (fun _ => 0) t.dev.flash.sectors (sectorKey x.region i) =
          (if x.first ≤ i ∧ i < x.first + x.count then (if x.op = 2 then sectorName x.data (i - x.first) else 0) else tabGet (fun _ => 0) f.sectors (sectorKey x.region i))) ∧
      (x.op = 1 → ∃ t, ended 0 t ∧ t.dev.flash = { f with xf := none } ∧
        .hostNames (ridOf d 0) x.host.toNat ((List.range x.count).map fun j => tabGet (fun _ => 0) f.sectors (sectorKey x.region (x.first + j))) ∈ t.dev.outbox) ∧
      (x.op = 4 → f.calA.valid = true → f.calB.valid = true → f.calB.seq < f.calA.seq → ∃ t, ended 0 t ∧ t.dev.flash.calA = f.calA ∧
        t.dev.flash.calB = ⟨true, f.calA.seq + 1, x.data⟩) ∧
      (x.op = 4 → f.calA.valid = true → f.calB.valid = true → f.calA.seq ≤ f.calB.seq → ∃ t, ended 0 t ∧ t.dev.flash.calB = f.calB ∧
        t.dev.flash.calA = ⟨true, f.calB.seq + 1, x.data⟩) ∧
      (x.op = 5 → ∃ t, ended 0 t ∧ t.dev.flash.log = [] ∧ t.dev.flash.rgn.toNat = rgN rFLASH_RGN d % 2 ^ 32 ∧ t.dev.recd.spools = [] ∧ t.dev.recd.wbuf = [] ∧
        t.dev.flash.calA = f.calA ∧ t.dev.flash.calB = f.calB)) ∧
    (fld scrub 31 24 < bits ∨ d.tb.servo = .locked ∧ fld scrub 15 0 < days →
      exec (.flashPatrol bits days) s = .next { s with dev := { d with flash := { f with moved := f.moved + 1 } } }) ∧
    (bits ≤ fld scrub 31 24 → d.tb.servo ≠ .locked ∨ days ≤ fld scrub 15 0 → exec (.flashPatrol bits days) s = .next s) ∧
    (∃ t, exec .grownBad s = .next t ∧ Became { d with regs := t.dev.regs } s t ∧ t.dev.flash = { f with moved := f.moved + 1 } ∧ RegsKept [rFLASH_BAD] s t ∧ rgN rFLASH_BAD t.dev = (rgN rFLASH_BAD d + 65536) % 2 ^ 32 ∧ CauseUp 0x140 3 t) ∧
    (∃ t, exec (.wearLevel spread percent days) s = .next t ∧ t.pending = s.pending ∧ RegsKept [rFLASH_LIFE] s t ∧
      rgN rFLASH_LIFE t.dev = min days 0xFFFF * 65536 + percent % 256 ∧ (was < 80 → 80 ≤ percent → CauseUp 0x140 1 t) ∧ (was < 95 → 95 ≤ percent → CauseUp 0x140 2 t) ∧
      t.dev.flash.moved = f.moved + (if fld (rg rFLASH_WL_SPREAD d) 15 0 < spread then 1 else 0) ∧ t.dev.flash.sectors = f.sectors ∧ t.dev.recd = d.recd)

namespace Sys2Proof
/-! ### Lines and the Serial Control Engine -/
/-- Line `n` became `l` and the other lines stay; nothing else of the device changed but what causes, messages, the log of outputs and registers
hold. -/
def LineBecame (n : Nat) (l : Line) (d : Dev) (s t : State) : Prop :=
  Became { d with lfe := { d.lfe with lines := t.dev.lfe.lines }, regs := t.dev.regs } s t ∧ line n t.dev = l ∧ ∀ m, m ≠ n → line m t.dev = line m d

/-- A command word entered SCE_TXQ. -/
def Pushed (off n : Nat) (d : Dev) : Sce := { d.sce with txq := d.sce.txq ++ [BitVec.ofNat 32 (lnReg n off d).toNat] }

end Sys2Proof
/-- Cadences, blanking, settling and decimator resets (R391 to R394): an issued ring-on pushes LFE_LN_RING_ON_CMD, blanks the line and sets ring-off ON
ms later, at most 2 s at once; ring-off pushes the other word, starts the guard and sets the next ring-on OFF ms later; a stop ends the cadence
at its grid instant; the guard's end and the settling's end thaw the line; LFE_COM_CTRL's bits schedule a reset, which clears every line's
filters, sets LFE_COM_LAST_RESET and settles the lines. -/
def Obligations.LineCadencesAndResets : Prop :=
  ∀ (s : State) (n : Nat) (e : DEvent) (x : NT32) (high : Bool), let d := s.dev
    let l := line n d
    let ms := 1000000
    let on := fld (lnReg n oLFE_LN_RING d) 31 16 * ms
    let off := fld (lnReg n oLFE_LN_RING d) 15 0 * ms
    let g := fld (lnReg n oLFE_LN_RING_CTRL d) 15 8 * ms
    let after (a : Nat) : NT32 := gridUp (e.target + BitVec.ofNat 32 a) d
    let changed (cmd : Instr) (l' : Line) (c : Sce) (t : State) : Prop := exec cmd s = .next t ∧
      LineBecame n { l' with edges := (line n t.dev).edges } { d with weir := { d.weir with dl := t.dev.weir.dl }, sce := c } s t ∧ RegsKept [kHwm 6] s t
    (∀ cmd ∈ [Instr.ringOn n, .ringOff n, .blankGuardEnd n], dlist 6 d = [] → exec cmd s = .next s) ∧
    (dlist 6 d = [e] → e.handle = 0 → reached d e.target = true → drivesLines d = true → d.sce.txq.length < 64 →
      (e.kind = .ringOn n → l.cadence = true → l.left = 0 → sdiff (now d) e.target ≤ min on 2000000000 → ∃ t,
        changed (.ringOn n) { l with ringOn := true, guardEnd := none, left := on - 2000000000 } (Pushed oLFE_LN_RING_ON_CMD n d) t ∧ blanked n t.dev = true ∧
        dlist 6 t.dev = [⟨after (min on 2000000000), 0, .ringOff n, false⟩]) ∧
      (e.kind = .ringOff n → l.cadence = true → l.left = 0 → sdiff (now d) e.target ≤ g → sdiff (now d) e.target ≤ off → ∃ t,
        changed (.ringOff n) { l with ringOn := false, guardEnd := if g = 0 then none else some (e.target + BitVec.ofNat 32 g), left := off - 2000000000 }
          (Pushed oLFE_LN_RING_OFF_CMD n d) t ∧ (0 < g → blanked n t.dev = true) ∧ ⟨after (min off 2000000000), 0, .ringOn n, false⟩ ∈ dlist 6 t.dev ∧
        (0 < g → ⟨after g, 0, .blankEnd n, false⟩ ∈ dlist 6 t.dev) ∧ (dlist 6 t.dev).length = if g = 0 then 1 else 2) ∧
      (l.left ≠ 0 → l.cadence = true → sdiff (now d) e.target ≤ min l.left 2000000000 →
        ∀ c ∈ [(DKind.ringOn n, Instr.ringOn n), (.ringOff n, .ringOff n)], e.kind = c.1 → ∃ t, changed c.2 { l with left := l.left - 2000000000 } d.sce t ∧
          dlist 6 t.dev = [⟨after (min l.left 2000000000), 0, e.kind, false⟩]) ∧
      (e.kind = .blankEnd n → l.guardEnd = some e.target → ∃ t, changed (.blankGuardEnd n) { l with guardEnd := none } d.sce t ∧ dlist 6 t.dev = [] ∧
        (l.ringOn = false → d.lfe.blankPin = false → blanked n t.dev = false))) ∧
    (l.stopAt = none → exec (.ringStop n) s = .next s) ∧
    (l.stopAt = some x → reached d x = false → exec (.ringStop n) s = .next s) ∧
    (l.stopAt = some x → reached d x = true → dlist 6 d = [] →
      (l.ringOn = false → ∃ t, changed (.ringStop n) { l with cadence := false, stopAt := none, left := 0 } d.sce t ∧ dlist 6 t.dev = []) ∧
      (l.ringOn = true → drivesLines d = true → d.sce.txq.length < 64 → sdiff (now d) x ≤ g → ∃ t,
        changed (.ringStop n) { l with cadence := false, stopAt := none, left := 0, ringOn := false, guardEnd := if g = 0 then none else some (x + BitVec.ofNat 32 g) }
          (Pushed oLFE_LN_RING_OFF_CMD n d) t ∧ (0 < g → dlist 6 t.dev = [⟨gridUp (x + BitVec.ofNat 32 g) d, 0, .blankEnd n, false⟩]))) ∧
    (l.settleEnd = none → exec (.settleEnd n) s = .next s) ∧
    (l.settleEnd = some x → reached d x = false → exec (.settleEnd n) s = .next s) ∧
    (l.settleEnd = some x → reached d x = true → ∃ t, exec (.settleEnd n) s = .next t ∧ t.pending = s.pending ∧
      t.dev = { d with lfe := { d.lfe with lines := t.dev.lfe.lines } } ∧ line n t.dev = { l with settleEnd := none, edges := (line n t.dev).edges } ∧
      ∀ m, m ≠ n → line m t.dev = line m d) ∧
    (hasLfe d = false → exec (.lineBlankChange high) s = .next s) ∧
    (hasLfe d = true → ∃ t, exec (.lineBlankChange high) s = .next t ∧ t.pending = s.pending ∧
      t.dev = { d with lfe := { d.lfe with blankPin := high, lines := t.dev.lfe.lines } } ∧
      (∀ m, line m t.dev = { line m d with edges := (line m t.dev).edges }) ∧ (high = true → bit (lnReg n oLFE_LN_CFG d) 28 = true → blanked n t.dev = true)) ∧
    (HostUp d → hasLfe d = true →
      (exec .resetNext s = .next { s with dev := { d with lfe := { d.lfe with resets := d.lfe.resets ++ [d.weir.nextP] } } }) ∧
      (exec .syncClu s = .next { s with dev := { d with lfe := { d.lfe with syncClu := true } } }) ∧
      (let r : NT32 := BitVec.ofNat 32 (rgN rLFE_COM_RESET_AT d)
        let D := sdiff r d.weir.nextP
        (0 ≤ D → D ≤ 2000000000 → D % 1000000 = 0 → exec .resetAt s = .next { s with dev := { d with lfe := { d.lfe with resets := d.lfe.resets ++ [r] } } }) ∧
        (D < 0 ∨ 2000000000 < D ∨ D % 1000000 ≠ 0 → ∃ t, exec .resetAt s = .next t ∧ Rejected 0 6 0 rLFE_COM_CTRL 4 s t))) ∧
    ((∀ r ∈ d.lfe.resets, reached d r = false) → exec .decimatorReset s = .next s) ∧
    (d.lfe.resets = [x] → reached d x = true → ∃ t, exec .decimatorReset s = .next t ∧ Became { d with lfe := t.dev.lfe, regs := t.dev.regs } s t ∧
      t.dev.lfe.resets = [] ∧ CauseUp 0x150 1 t ∧ RegsKept [rLFE_COM_LAST_RESET] s t ∧ rgN rLFE_COM_LAST_RESET t.dev = x.toNat ∧
      (n < 32 → line n t.dev = { l with
        wTip := [], wRing := [], wCur := [], edges := (line n t.dev).edges, settleEnd := some (x + BitVec.ofNat 32 (fld (lnReg n oLFE_LN_CFG d) 9 0 * 1000 + (if l.rate = 1 then 875000 else 1750000))) }))

/-- Supervision, ranges, host writes and the LINE operand (R388 to R390, R395 to R400, R404): one sample each ms, the medians of five samples and
the current of the range in the line's registers; a switch turns at the DEBOUNCE-th sample beyond its threshold, with its record and cause, ring trip on the
mean of RT_AVG ms of coarse currents; OPEN after 3 samples and HEADROOM
after 4 hold the line where AUTO_HOLD says so; the range moves up above 90 %, down after 2 ms below 20 %, and never within 2 ms of a change; a
write of the line's page waits for the boundary and is refused RANGE outside its range; a binding is refused as R399 says; the operand fills the
slot of its leg with its status word (what stands for samples a re-base leaves out is the model's choice: log entry 213). -/
def Obligations.LineSupervisionAndLeg : Prop :=
  ∀ (s : State) (n k run sats : Nat) (tip ring : BitVec 18) (cur : BitVec 16) (cs : List (Nat × BitVec 8)) (c8 vt vr : BitVec 8) (v : W32) (samples : List (BitVec 18)) (tok : Token),
    let d := s.dev
    let l := line n d
    let cfg := lnReg n oLFE_LN_CFG d
    let held := blanked n d
    let take (w : List Int) (y : Int) : List Int := (if held = true then w.getD 0 0 else y) :: w.take 4
    let t0 := median (take l.wTip tip.toInt)
    let r0 := median (take l.wRing ring.toInt)
    let i0 := median (take l.wCur cur.toInt)
    let at_ : NT32 := BitVec.ofNat 32 ((now64 d).toNat / 1000000 * 1000000)
    let sample := Instr.supervisionSample n tip ring cur cs
    let sw := lnReg n (oLFE_LN_SW + 4 * k) d
    let src := fld sw 7 5
    let past := ((coarseSum cs :: l.coarse).take 100).take (fld (lnReg n oLFE_LN_RING_CTRL d) 7 0)
    let sc : Int := if src < 5 then 8 else max 1 (128 * (past.map (·.2)).sum)
    let th : Int := sc * (sw.extractLsb' 16 16).toInt
    let hy : Int := sc * (8 * fld sw 15 8)
    let x8 : Int := if src = 0 then 8 * i0 else if src = 1 then 2 * t0 else if src = 2 then 2 * r0 else if src = 3 then 2 * (t0 - r0)
      else if src = 4 then t0 + r0 else (past.map (·.1)).sum
    let was := l.sw.getD k false
    let other := if bit sw 4 then (if was then decide (x8 < th - hy) else decide (th ≤ x8)) else (if was then decide (th + hy < x8) else decide (x8 < th))
    let counts := tagAt at_ l = false ∨ src = 5
    let turns := counts ∧ other = true ∧ fld sw 3 0 ≤ l.deb.getD k 0 + 1
    let coarse := Instr.rangeChange n c8 vt vr run
    let m := c8.toInt.natAbs
    let late := match l.rangedAt with | some y => decide (y.toNat + 2000000 ≤ (now64 d).toNat) | none => true
    let ctrl := kLine n oLFE_LN_BIND_CTRL
    let h : W32 := BitVec.ofNat 32 (rgN (kLine n oLFE_LN_BIND) d)
    let p : NT32 := d.weir.nextP - 1000000
    let full := setRgN (kLine n oLFE_LN_COARSE) (l.range * 2 ^ 24 + c8.toNat * 65536 + vt.toNat * 256 + vr.toNat) d
    let ok := fld v 22 21 ≤ 2 ∧ fld v 20 19 ≤ 2 ∧ fld v 18 16 ≤ 4 ∧ (fld v 18 16 = 0 ∨ fld v 31 30 = 3) ∧ fld v 9 0 ≤ 1000
    let writes (off : Nat) (w : W32) (cmd : Instr) : Prop := ∃ t, exec cmd s = .next t ∧ t.pending = s.pending ∧
      t.dev = { d with regs := t.dev.regs, lfe := { d.lfe with lines := t.dev.lfe.lines } } ∧ RegsKept [kLine n off] s t ∧ lnReg n off t.dev = lnReg n off d ∧
      rgN (kLine n off) t.dev = w.toNat &&& maskOf (linePage n) off ∧ (∀ o, o ≠ off → lnReg n o t.dev = lnReg n o d) ∧ (line n t.dev).bound = l.bound ∧
      ∀ j, j ≠ n → line j t.dev = line j d
    hasLfe d = true → n < 32 → d.twin.role ≠ .standby → l.sw.length = 4 → l.deb.length = 4 →
    (l.sampled = some (sampleTime d) → exec sample s = .next s) ∧
    (l.sampled ≠ some (sampleTime d) → ∃ t, exec sample s = .next t ∧ Became { d with lfe := { d.lfe with lines := t.dev.lfe.lines }, regs := t.dev.regs } s t ∧
      RegsKept [kLine n oLFE_LN_VT, kLine n oLFE_LN_VR, kLine n oLFE_LN_I_MEAS, kLine n oLFE_LN_I_FINE, kLine n oLFE_LN_CFG] s t ∧
      (∀ j, j ≠ n → line j t.dev = line j d) ∧ rgN (kLine n oLFE_LN_VT) t.dev = (BitVec.ofInt 18 t0).toNat ∧ rgN (kLine n oLFE_LN_VR) t.dev = (BitVec.ofInt 18 r0).toNat ∧
      rgN (kLine n oLFE_LN_I_MEAS) t.dev = (BitVec.ofInt 16 i0).toNat ∧ (line n t.dev).meas = i0 ∧ (line n t.dev).range = l.range ∧
      (lineMode n d = 0 → bit cfg 29 = false → (line n t.dev).sw = l.sw) ∧
      (k < 4 → lineMode n d ≠ 0 →
        (turns → (line n t.dev).sw.getD k false = (!was) ∧ (line n t.dev).deb.getD k 0 = 0 ∧ (faulted 0x150 d = false → CauseUp (linePage n) 1 t) ∧
          (lineMode n d ≠ 3 → (Machine.ring 0 d).enable = true → (Machine.ring 0 d).lost = 0 → 8 ≤ (Machine.ring 0 d).room → l.bound = none → ∃ seq ph a,
            .hostWrite (ridPart d 0) a 64 (recBytes seq ph ⟨0x90, at_, 0, body [(12, 1, n), (13, 1, k), (14, 1, b2n (!was)), (15, 1, b2n (afterRebase d)), (16, 4, word32 (x8 / sc))]⟩) ∈ t.dev.outbox)) ∧
        (¬ turns → (line n t.dev).sw.getD k false = was ∧
          (line n t.dev).deb.getD k 0 = if counts then (if other = true then l.deb.getD k 0 + 1 else 0) else l.deb.getD k 0)) ∧
      (l.openTOn = false → l.openT = 2 → fld cfg 22 21 = 1 → 128450 < t0 → (line n t.dev).openTOn = true ∧ (faulted 0x150 d = false → CauseUp (linePage n) 2 t) ∧
        (bit cfg 29 = true → d.pwr.st = .service → lineMode n t.dev = 1)) ∧
      (l.openTOn = false → l.openT < 2 → fld cfg 22 21 = 1 → 128450 < t0 → (line n t.dev).openT = l.openT + 1 ∧ (line n t.dev).openTOn = false) ∧
      (l.hrOn = false → l.openTOn = false → l.openROn = false → fld cfg 22 21 = 0 → fld cfg 20 19 = 0 →
        (i0.natAbs : Int) < (lineDc n d).natAbs - fld (lnReg n oLFE_LN_HR d) 15 0 →
        (l.hr = 3 → (line n t.dev).hrOn = true ∧ (faulted 0x150 d = false → CauseUp (linePage n) 3 t) ∧ (bit cfg 29 = true → d.pwr.st = .service → lineMode n t.dev = 1)) ∧
        (l.hr < 3 → (line n t.dev).hr = l.hr + 1 ∧ (line n t.dev).hrOn = false))) ∧
    ((bit cfg 23 = false ∨ late = false ∨ (m * 10 ≤ 1152 ∧ (256 ≤ m * 10 ∨ run < 2000)) ∨ (1152 < m * 10 ∧ 2 ≤ l.range) ∨ (m * 10 < 256 ∧ l.range = 0) → exec coarse s = .next { s with dev := full }) ∧
      (bit cfg 23 = true → late = true → ∀ x, x ∈ [0, 1, 2] → (1152 < m * 10 ∧ x = l.range + 1) ∨ (m * 10 < 256 ∧ 2000 ≤ run ∧ x + 1 = l.range) →
        ∃ t, exec coarse s = .next t ∧ t.pending = s.pending ∧ t.dev = { d with regs := t.dev.regs, lfe := { d.lfe with lines := t.dev.lfe.lines } } ∧
          line n t.dev = { l with range := x, rangedAt := some (now64 d) } ∧ (∀ j, j ≠ n → line j t.dev = line j d) ∧ Counts (kLine n oLFE_LN_CNT_RANGE) 1 s t ∧
          RegsKept [kLine n oLFE_LN_CNT_RANGE, kLine n oLFE_LN_COARSE] s t ∧ rg (kLine n oLFE_LN_COARSE) t.dev = rg (kLine n oLFE_LN_COARSE) full)) ∧
    (HostUp d →
      (ok → writes oLFE_LN_CFG v (.lineModeWrite n v)) ∧
      (¬ ok → ∃ t, exec (.lineModeWrite n v) s = .next t ∧ Rejected 0 6 0 (kLine n oLFE_LN_CFG) 4 s t) ∧
      (bit v 0 = false → writes oLFE_LN_BIND_CTRL v (.lineBind n v)) ∧
      (bit v 0 = true → lineLeg h (fld v 1 1) d = false → ∃ t, exec (.lineBind n v) s = .next t ∧ Rejected 0 6 0 ctrl 4 s t) ∧
      (bit v 0 = true → lineLeg h (fld v 1 1) d = true →
        ((∃ j, j < 32 ∧ j ≠ n ∧ feeds j h (fld v 1 1) d = true) → ∃ t, exec (.lineBind n v) s = .next t ∧ Rejected 0 5 0 ctrl 4 s t) ∧
        ((∀ j, j < 32 → j ≠ n → feeds j h (fld v 1 1) d = false) → writes oLFE_LN_BIND_CTRL v (.lineBind n v)))) ∧
    (l.bound = none → decide (0 < sats) = l.sat → ∃ t, exec (.lineOperandWrite n samples sats) s = .next t ∧ t.pending = s.pending ∧
      t.dev = { d with regs := t.dev.regs, lfe := { d.lfe with lines := t.dev.lfe.lines } } ∧ RegsKept [kLine n oLFE_LN_CNT_SAT] s t ∧
      Counts (kLine n oLFE_LN_CNT_SAT) sats s t) ∧
    (l.bound = some (tok.handle, 0) → l.sat = false → l.rate = 0 → d.twin.role = .alone → faulted 0x150 d = false → d.weir.tokens = [tok] → tok.bus = false →
      tok.pass = p → tok.fillA = false → tok.elig = false →
      ∃ t x st, exec (.lineOperandWrite n samples 0) s = .next t ∧ t.pending = s.pending ∧ t.dev.weir = { d.weir with tokens := [{ tok with fillA := true, inA := .pcm x st }] } ∧
        t.dev.slots = d.slots ∧ t.dev.rings = d.rings ∧
        (lineMode n d = 2 → x.length = 8 ∧ (samples.length = 8 → x = samples) ∧ ∀ i, i < 8 → (samples.length ≤ i → x.getD i 0 = samples.getLastD 0) ∧
          Nat.testBit st i = (decide (samples.length ≤ i) || tagAt (p + BitVec.ofNat 32 (i * 125000)) l)) ∧
        (lineMode n d ≠ 2 → x = List.replicate 8 0 ∧ st % 2 ^ 16 = 255) ∧ Nat.testBit st 17 = (l.openTOn || l.openROn) ∧ (l.range < 4 → st / 2 ^ 18 = l.range))

/-- The Serial Control Engine (R403, R405 to R407, R410, R411): an engine that is not RUNNING executes nothing; each instruction has its effect, moves
PC on, and ends in HALTED where a HALT is pending; a word shifted leaves RXSR with the driver's bits; DRV_READY low stalls the engine, and its rise
finishes the word; HALT aborts a stalled word, or one whose stall begins with it pending; other codes halt the engine; SCE_CMD, the queues and
program memory answer as their registers say. -/
def Obligations.SerialControlEngine : Prop :=
  ∀ (s : State) (bits b : Nat) (v w sdi : W32) (wide : W64) (rest : List W32), let d := s.dev
    let e := d.sce
    let op := fld (sceWord d) 31 28
    let word := sceWord d
    let n := min (fld word 5 0) 32
    let instrs : List (Nat × Instr) := [(0, .sceNop), (1, .scePop), (2, .sceLdi), (3, .sceShift sdi), (4, .scePush), (5, .sceGap), (6, .sceJmp), (7, .sceJqe), (8, .sceHaltInstr)]
    let go (cmd : Instr) (e' : Sce) : Prop := exec cmd s = .next { s with dev := { d with sce := e' } }
    let became (cmd : Instr) (e' : Sce) (t : State) : Prop := exec cmd s = .next t ∧ Became { d with sce := e' } s t
    let ended (cmd : Instr) (e' : Sce) (t : State) : Prop :=
      became cmd (if e.haltPend = true then { e' with st := .halted, haltPend := false } else e') t ∧ (e.haltPend = true → CauseUp 0x180 1 t)
    let does (cmd : Instr) (e' : Sce) : Prop := (∃ t, ended cmd e' t) ∧ (e.haltPend = false → go cmd e')
    let sent (e0 : Sce) : Sce := { e0 with
      pc := e.pc + 1, st := .running, shifted := 0, rxsr := BitVec.ofNat 32 (e.rxsr.toNat * 2 ^ n + sdi.toNat % 2 ^ n) }
    let aborted (cmd : Instr) (k : Nat) (e' : Sce) : Prop := ∃ t, exec cmd s = .next t ∧ Became { d with
      regs := t.dev.regs, sce := { e' with st := .halted, haltPend := false, shifted := 0, frame := false } } s t ∧ RegsKept [rSCE_ABORT] s t ∧
      rgN rSCE_ABORT t.dev = 2 ^ 31 + n * 256 + k ∧ CauseUp 0x180 2 t ∧ CauseUp 0x180 1 t
    hasSce d = true →
    (∀ c ∈ instrs, e.st ≠ .running ∨ (op ≤ 8 ∧ op ≠ c.1) → exec c.2 s = .next s) ∧
    (∀ c ∈ instrs, e.st = .running → 8 < op → ∃ t, became c.2 { e with st := .halted, haltPend := false } t ∧ CauseUp 0x180 7 t ∧ CauseUp 0x180 1 t) ∧
    (e.st = .running →
      (op = 0 → does .sceNop { e with pc := e.pc + 1 }) ∧
      (op = 1 → (e.txq = [] → exec .scePop s = .next s) ∧ (e.txq = w :: rest → does .scePop { e with pc := e.pc + 1, sr := w, txq := rest })) ∧
      (op = 2 → does .sceLdi { e with pc := e.pc + 1, sr := BitVec.ofNat 32 (fld word 23 0) }) ∧
      (op = 3 → drivesLines d = false → exec (.sceShift sdi) s = .next s) ∧
      (op = 3 → drivesLines d = true → e.ready = true ∨ n = 0 → ∃ t, ended (.sceShift sdi) { sent e with frame := bit word 6 } t ∧
        .msg .sce 0 [n, e.sr.toNat % 2 ^ n] ∈ t.dev.outbox) ∧
      (op = 3 → drivesLines d = true → e.ready = false → 0 < n →
        (e.haltPend = false → ∃ t, became (.sceShift sdi) { e with st := .stalled, shifted := 0, stalledAt := now d, frame := true } t) ∧
        (e.haltPend = true → aborted (.sceShift sdi) 0 { e with stalledAt := now d })) ∧
      (op = 4 → e.rxq.length < 64 → does .scePush { e with pc := e.pc + 1, rxq := e.rxq ++ [e.rxsr] }) ∧
      (op = 4 → 64 ≤ e.rxq.length → ∃ t, ended .scePush { e with pc := e.pc + 1, dropped := e.dropped + 1 } t ∧ CauseUp 0x180 6 t) ∧
      (op = 5 → ∃ t, ended .sceGap { e with pc := e.pc + 1, frame := false } t) ∧
      (op = 6 → does .sceJmp { e with pc := BitVec.ofNat 9 (fld word 8 0) }) ∧
      (op = 7 → does .sceJqe { e with pc := if e.txq = [] then BitVec.ofNat 9 (fld word 8 0) else e.pc + 1 }) ∧
      (op = 8 → ∃ t, became .sceHaltInstr { e with pc := e.pc + 1, st := .halted, haltPend := false } t ∧ CauseUp 0x180 1 t)) ∧
    (e.st ≠ .running ∨ op ≠ 3 ∨ drivesLines d = false ∨ bits = 0 ∨ n ≤ bits → go (.drvReadyLow bits) { e with ready := false }) ∧
    (e.st = .running → op = 3 → drivesLines d = true → 0 < bits → bits < n →
      (e.haltPend = false → ∃ t, became (.drvReadyLow bits) { e with ready := false, st := .stalled, shifted := bits, stalledAt := now d, frame := true } t) ∧
      (e.haltPend = true → aborted (.drvReadyLow bits) bits { e with ready := false, stalledAt := now d })) ∧
    (e.st ≠ .stalled → go (.drvReadyRise sdi) { e with ready := true }) ∧
    (e.st = .stalled → e.frame = true → ∃ t, ended (.drvReadyRise sdi) { sent e with ready := true, frame := bit word 6 } t ∧
      .msg .sce 0 [n, e.sr.toNat % 2 ^ n] ∈ t.dev.outbox) ∧
    (e.st = .stalled → (fld (rg rSCE_STALL_MAX d) 15 0 * 1000 : Int) < sdiff (now d) e.stalledAt → ∃ t, became .stallTimeout e t ∧ CauseUp 0x180 3 t) ∧
    (e.st ≠ .stalled ∨ sdiff (now d) e.stalledAt ≤ (fld (rg rSCE_STALL_MAX d) 15 0 * 1000 : Int) → exec .stallTimeout s = .next s) ∧
    (HostUp d →
      (e.st = .halted → exec .sceRun s = .next { s with dev := { d with sce := { e with st := .running, pc := BitVec.ofNat 9 (rgN rSCE_START d), haltPend := false } } }) ∧
      (e.st ≠ .halted → exec .sceRun s = .next s) ∧ (e.st = .halted → exec .sceHalt s = .next s) ∧
      (e.st = .running → exec .sceHalt s = .next { s with dev := { d with sce := { e with haltPend := true } } }) ∧
      (e.st = .stalled → b = e.shifted → b < 2 ^ 31 → aborted .sceHalt b e) ∧
      (e.txq.length < 64 → exec (.sceTxqPush v) s = .next { s with dev := { d with sce := { e with txq := e.txq ++ [v] } } }) ∧
      (64 ≤ e.txq.length → ∃ t, became (.sceTxqPush v) { e with dropped := e.dropped + 1 } t ∧ CauseUp 0x180 5 t) ∧
      (exec .sceRxqPop s = .next { s with dev := { d with
        sce := { e with rxq := e.rxq.tail }, outbox := .readReply 0 0 rSCE_RXQ 4 (e.rxq.headD 0).toNat :: d.outbox } }) ∧
      (e.st ≠ .halted → (∃ t, exec (.scePmWrite v) s = .next t ∧ Rejected 0 5 0 rSCE_PM_DATA 4 s t ∧ CauseUp 0x180 4 t) ∧
        ∃ t, exec (.registerWrite 0 rSCE_PM_ADDR 4 wide) s = .next t ∧ Rejected 0 5 0 rSCE_PM_ADDR 4 s t ∧ CauseUp 0x180 4 t) ∧
      (e.st = .halted → let a := rgN rSCE_PM_ADDR d
        (∃ t, exec (.scePmWrite v) s = .next t ∧ t.pending = s.pending ∧ t.dev = { d with regs := t.dev.regs, sce := { e with pm := t.dev.sce.pm } } ∧
          (∀ j, tabGet (fun _ => 0) t.dev.sce.pm j = if j = a then v else tabGet (fun _ => 0) e.pm j) ∧ RegsKept [rSCE_PM_ADDR] s t ∧
          rgN rSCE_PM_ADDR t.dev = (a + 1) % 512) ∧
        ∃ t, exec (.registerWrite 0 rSCE_PM_ADDR 4 wide) s = .next t ∧ OnlyRegisters [rSCE_PM_ADDR] s t ∧ rgN rSCE_PM_ADDR t.dev = wide.toNat % 512))

namespace Sys2Proof
/-! ### Clusters and the Peer Fabric -/

end Sys2Proof
/-- Pulses and messages of a cluster (R413, R415 to R418, R393): a worker's pulse gives its offset against the NT64 that SYNC named, or the last plus
1 ms where none did; a missing pulse is counted, the third a loss of source; SYNC names the next pulse, a POLL of this worker is answered with
STATUS, STEP re-bases it to the Q' of the message; the manager sends SYNC from P + 100 µs and POLL from P + 200 µs, each once in a
pass, and follows its workers; a bad message is counted. -/
def Obligations.ClusterMessages : Prop :=
  ∀ (s : State) (stamp q : NT32) (frac : BitVec 4) (nt S T : W64) (cls w servo role v : Nat) (off seq : BitVec 16) (trace fault : Bool), let d := s.dev
    let c := d.clu
    let edge : Int := ((nt64Of d stamp).toNat * 16 + frac.toNat : Nat) - ((T.toNat * 16 + fld (rg rCLU_CABLE d) 15 0 : Nat) : Int)
    let old : Int := (now64 d).toNat
    let gone := sdiff (now d) (d.weir.nextP - 1000000)
    let inst (n : Int) : W64 := now64 d + BitVec.ofInt 64 (n - gone)
    let taken (t : State) : Prop := exec (.clusterSyncPulse stamp frac) s = .next t ∧ t.pending = s.pending ∧
      rg rCLU_OFFSET t.dev = (BitVec.ofInt 32 edge).zeroExtend 64 ∧ rgN rCLU_LAST_PULSE t.dev = stamp.toNat ∧ t.dev.clu.lastT = some T ∧ t.dev.clu.named = none ∧
      t.dev.clu.missRun = 0 ∧ t.dev.tb.acc = d.tb.acc ∧ t.dev.tb.qualified = true ∧ t.dev.weir = d.weir ∧ t.dev.slots = d.slots ∧ t.dev.lfe.syncClu = false ∧
      t.dev.lfe.resets = if d.lfe.syncClu then d.lfe.resets ++ [stamp] else d.lfe.resets
    (isWorker d = false → ∀ cmd ∈ [Instr.sync nt servo cls trace seq, .poll w, .pulseMiss, .cluStep S q], exec cmd s = .next s) ∧
    (isWorker d = true →
      (exec (.sync nt servo cls trace seq) s = .next { s with dev := { d with
        tb := { d.tb with gm := { d.tb.gm with clockClass := cls, traceable := trace } }, clu := { c with named := some nt } } }) ∧
      (w = fld (rg rCLU_CFG d) 3 0 → exec (.poll w) s = .next { s with dev := { d with
        outbox := .msg .cluster 4 [w, d.tb.servo.code, rgN rCLU_OFFSET d, d.twin.role.code, b2n (bit (hdr 0x190 d).status 2)] :: d.outbox } }) ∧
      (w ≠ fld (rg rCLU_CFG d) 3 0 → exec (.poll w) s = .next s) ∧
      (d.pwr.st = .service → c.named = some T → ∃ t, taken t ∧ rgN rCLU_MSG_ERR t.dev = rgN rCLU_MSG_ERR d) ∧
      (d.pwr.st = .service → c.named = none → ∀ T0, c.lastT = some T0 → T = T0 + 1000000 → ∃ t, taken t ∧ Counts rCLU_MSG_ERR 1 s t) ∧
      (c.missRun < 2 → ∃ t, exec .pulseMiss s = .next t ∧ Became { d with regs := t.dev.regs, clu := { c with missRun := c.missRun + 1, lastT := t.dev.clu.lastT, named := none } } s t ∧
        Counts rCLU_PULSE_MISS 1 s t ∧ RegsKept [rCLU_PULSE_MISS] s t ∧ (faulted 0x190 d = false → CauseUp 0x190 1 t) ∧ (c.named = some T → t.dev.clu.lastT = some T)) ∧
      (c.missRun = 2 → d.tb.servo = .locked → ∃ t, exec .pulseMiss s = .next t ∧ t.pending = s.pending ∧ t.dev.tb.servo = .holdover ∧ t.dev.tb.qualified = false ∧
        t.dev.tb.acc = d.tb.acc ∧ Counts rCLU_PULSE_MISS 1 s t ∧ CauseUp 0x10 7 t ∧ t.dev.weir = d.weir ∧ t.dev.slots = d.slots) ∧
      (0 ≤ old + S.toInt → old + S.toInt < 2 ^ 64 → ∃ t, exec (.cluStep S q) s = .next t ∧ t.pending = s.pending ∧ ((now64 t.dev).toNat : Int) = old + S.toInt ∧
        t.dev.tb.inc = d.tb.inc ∧ rgN rTB_LAST_STEP_AT t.dev = (now t.dev).toNat ∧ CauseUp 0x10 2 t ∧ t.dev.slots = d.slots ∧
        (d.weir.seeded = true → t.dev.weir.nextP = q) ∧ (d.weir.seeded = false → t.dev.weir = d.weir))) ∧
    (c.driving = false ∨ gone < 100000 → exec .cluMessageTx s = .next s) ∧
    (c.sentAt = some (inst (if gone < 200000 then 100000 else 200000)) → exec .cluMessageTx s = .next s) ∧
    (c.driving = true → 100000 ≤ gone → gone < 200000 → c.sentAt ≠ some (inst 100000) → exec .cluMessageTx s = .next { s with dev := { d with
      clu := { c with seq := c.seq + 1, sentAt := some (inst 100000) }, outbox := .msg .cluster 1 [(now64 d).toNat + (sdiff d.weir.nextP (now d)).toNat, d.tb.servo.code, clockClass d, b2n d.tb.gm.traceable, c.seq.toNat] :: d.outbox } }) ∧
    (c.driving = true → 200000 ≤ gone → c.sentAt ≠ some (inst 200000) → w = rgN rWEIR_PASS_CNT d % 15 + 1 →
      (c.polled = none → exec .cluMessageTx s = .next { s with dev := { d with clu := { c with polled := some w, sentAt := some (inst 200000) }, outbox := .msg .cluster 2 [w] :: d.outbox } }) ∧
      (c.polled = some v → 1 ≤ v → v < 16 → ∃ t, exec .cluMessageTx s = .next t ∧ t.dev.clu.polled = some w ∧
        tabGet (fun _ => 0) t.dev.clu.missed v = tabGet (fun _ => 0) c.missed v + 1 ∧
        Became { d with clu := { c with polled := some w, sentAt := some (inst 200000), missed := t.dev.clu.missed, members := t.dev.clu.members } } s t ∧
        (tabGet (fun _ => 0) c.missed v = 2 → c.members.getLsbD v = true → CauseUp 0x190 3 t ∧ ∀ i, t.dev.clu.members.getLsbD i = (decide (i ≠ v) && c.members.getLsbD i)) ∧
        (tabGet (fun _ => 0) c.missed v ≠ 2 → t.dev.clu.members = c.members))) ∧
    (c.manager = false ∨ w = 0 ∨ 15 < w → exec (.status w servo role off fault) s = .next s) ∧
    (c.manager = true → 1 ≤ w → w ≤ 15 → ∃ t, exec (.status w servo role off fault) s = .next t ∧ t.pending = s.pending ∧
      t.dev = { d with regs := t.dev.regs, clu := { c with members := t.dev.clu.members, missed := t.dev.clu.missed, polled := if c.polled = some w then none else c.polled } } ∧
      RegsKept [rCLU_WSTAT + 4 * w] s t ∧ rgN (rCLU_WSTAT + 4 * w) t.dev = servo % 8 * 2 ^ 29 + role % 8 * 2 ^ 26 + b2n fault * 2 ^ 25 + off.toNat ∧
      (∀ i, t.dev.clu.members.getLsbD i = (decide (i = w) || c.members.getLsbD i)) ∧ ∀ i, tabGet (fun _ => 0) t.dev.clu.missed i = if i = w then 0 else tabGet (fun _ => 0) c.missed i) ∧
    (cluOn d = true → ∃ t, exec .cluMessageError s = .next t ∧ OnlyRegisters [rCLU_MSG_ERR] s t ∧ Counts rCLU_MSG_ERR 1 s t) ∧
    (cluOn d = false → exec .cluMessageError s = .next s)

/-- Discovery and routing of the Peer Fabric (R420 to R422): HELLO in Q5 of every fabric port each 250 ms, with what was heard since the last; a HELLO makes a neighbour,
one hop away; of two identities with one address the lower keeps it, and a SELF_ADDR device takes the next address nobody claims; a neighbour
lost poisons its routes; a ROUTE entry is one hop further, and the lowest metric, then neighbour, then port wins; the table enters Q5 with poisoned
reverse 1 s after the last, or on a change 100 ms after; a route unconfirmed for 3 s is gone. The device is no standby and has reported no peer down. -/
def Obligations.FabricDiscoveryAndRoutes : Prop :=
  ∀ (s : State) (p addr dst m : Nat) (id q : W64) (r : Route), let d := s.dev
    let f := d.fab
    let kept (t : State) : Prop := Became { d with fab := t.dev.fab } s t
    let others (x : Nat) (t : State) : Prop := ∀ y, y ≠ x → routeTo y t.dev = routeTo y d
    let lost (port : Nat) (t : State) : Prop := faulted (macPage port) d = false → CauseUp 0x1A0 1 t
    let table (port : Nat) : List Nat := f.routes.flatMap fun e => match e.2 with | some x => [e.1, if x.port = port then 15 else x.metric] | none => []
    let beats := m + 1 < r.metric ∨ (m + 1 = r.metric ∧ (addr < r.hop ∨ (addr = r.hop ∧ p < r.port)))
    let nbr := f.nbrs.any (fun n => decide (n.port = p) && decide (n.addr = addr))
    let dev := rgN rFAB_DEV_ID d
    let at250 : W64 := BitVec.ofNat 64 ((now64 d).toNat / 250000000 * 250000000)
    let nbrs := f.nbrs.map fun n => { n with missed := if n.heard = true then 0 else n.missed + 1, heard := false }
    let since : Int := (now64 d).toNat - q.toNat
    let sends (x : Nat) (c : CtlFrame) (t : State) : Prop := portOn x d = true → (port x d).ctl = [] →
      (bit (rg (kMac x 0 oMAC_PAUSE_STATE) d) 5 = true → port x t.dev = { port x d with ctl := [c] }) ∧
      (bit (rg (kMac x 0 oMAC_PAUSE_STATE) d) 5 = false → (port x d).q6 = [] → .msg .fabric c.kind c.fields ∈ t.dev.outbox ∧ (port x t.dev).ctl = [])
    let quiet (t : State) : Prop := ∀ y, y ∉ fabPorts d → port y t.dev = port y d
    d.twin.role ≠ .standby → f.down = [] → d.pwr.st ≠ .dormant → tabWf (fun _ => none) f.routes = true → addr < 4096 → dst < 4096 →
    (f.helloAt = some at250 → exec .helloTx s = .next s) ∧
    (f.helloAt ≠ some at250 → fabSends d = false → exec .helloTx s = .next { s with dev := { d with fab := { f with helloAt := some at250, nbrs := nbrs } } }) ∧
    (f.helloAt ≠ some at250 → fabSends d = true → ∃ t, exec .helloTx s = .next t ∧
      Became { d with fab := { f with helloAt := some at250, nbrs := nbrs }, ports := t.dev.ports, regs := t.dev.regs } s t ∧ quiet t ∧
      ∀ x ∈ fabPorts d, sends x ⟨5, 64, .fabric, 1, [x, b2n (fabAddr d).isSome, (fabAddr d).getD 0, (fabId d).toNat]⟩ t) ∧
    (fabPortOn p d = false → exec (.hello p addr id) s = .next s ∧ exec (.route p addr [(dst, m)]) s = .next s) ∧
    (fabPortOn p d = true →
      (fabAddr d ≠ some addr → ∃ t, exec (.hello p addr id) s = .next t ∧ kept t ∧ ⟨p, addr, id, 0, true⟩ ∈ t.dev.fab.nbrs ∧ others addr t ∧ addr ∈ t.dev.fab.claimed ∧
        (∀ n ∈ f.nbrs, n.port ≠ p ∨ n.id ≠ id → n ∈ t.dev.fab.nbrs) ∧ (routeTo addr d = none → routeTo addr t.dev = some ⟨1, addr, p, now64 d⟩) ∧
        (routeTo addr d = some r → r.hop = addr → r.port = p → routeTo addr t.dev = some ⟨1, addr, p, now64 d⟩)) ∧
      (fabAddr d = some addr → id ≠ fabId d → id.toNat < (fabId d).toNat → routeTo addr d = none →
        ∃ t, exec (.hello p addr id) s = .next t ∧ Became { d with fab := t.dev.fab, regs := t.dev.regs } s t ∧ RegsKept [rFAB_ADDR] s t ∧ CauseUp 0x1A0 2 t ∧
          (bit (rg rFAB_CFG d) 30 = false → rgN rFAB_ADDR t.dev = 0 ∧ routeTo addr t.dev = some ⟨1, addr, p, now64 d⟩) ∧
          (∀ k, bit (rg rFAB_CFG d) 30 = true → k < 4096 → (∀ j, j < k → (dev + j) % 4096 = addr ∨ (dev + j) % 4096 ∈ f.claimed) → (dev + k) % 4096 ≠ addr →
            (dev + k) % 4096 ∉ f.claimed → rgN rFAB_ADDR t.dev = 2 ^ 31 + (dev + k) % 4096)) ∧
      (fabAddr d = some addr → (fabId d).toNat ≤ id.toNat → ∃ t, exec (.hello p addr id) s = .next t ∧ t.pending = s.pending ∧ t.dev = { d with fab := t.dev.fab } ∧
        ∀ y, routeTo y t.dev = routeTo y d) ∧
      (nbr = false → exec (.route p addr [(dst, m)]) s = .next s) ∧
      (nbr = true → fabAddr d ≠ some dst →
        (m < 8 → routeTo dst d = none → ∃ t, exec (.route p addr [(dst, m)]) s = .next t ∧ kept t ∧ others dst t ∧ routeTo dst t.dev = some ⟨m + 1, addr, p, now64 d⟩) ∧
        (m < 8 → routeTo dst d = some r → r.metric < 9 → r.hop ≠ addr ∨ r.port ≠ p → ∃ t, exec (.route p addr [(dst, m)]) s = .next t ∧ kept t ∧ others dst t ∧
          (beats → routeTo dst t.dev = some ⟨m + 1, addr, p, now64 d⟩) ∧ (¬ beats → routeTo dst t.dev = some r)) ∧
        (8 ≤ m → routeTo dst d = some r → r.metric < 9 → r.hop = addr → r.port = p →
          ∃ t, exec (.route p addr [(dst, m)]) s = .next t ∧ kept t ∧ others dst t ∧ routeTo dst t.dev = some ⟨15, addr, p, now64 d⟩ ∧ lost p t ∧ dst ∈ t.dev.fab.down))) ∧
    ((∀ n ∈ f.nbrs, n.port = p → n.addr = addr → n.missed < 4) → exec (.neighbourLoss p addr) s = .next s) ∧
    ((∃ n ∈ f.nbrs, n.port = p ∧ n.addr = addr ∧ 4 ≤ n.missed) → ∃ t, exec (.neighbourLoss p addr) s = .next t ∧ kept t ∧
      t.dev.fab.nbrs = f.nbrs.filter (fun n => !(decide (n.port = p) && decide (n.addr = addr))) ∧
      ∀ y, (routeTo y d = some r → r.metric < 9 → r.port = p → r.hop = addr → routeTo y t.dev = some { r with metric := 15 } ∧ lost p t) ∧
        ((∀ x, routeTo y d = some x → 9 ≤ x.metric ∨ x.port ≠ p ∨ x.hop ≠ addr) → routeTo y t.dev = routeTo y d)) ∧
    (fabAddr d = none ∨ fabSends d = false → exec .routeTx s = .next s) ∧
    (f.routeAt = some q → since < (if f.changed = true then 100000000 else 1000000000) → exec .routeTx s = .next s) ∧
    (fabSends d = true → fabAddr d = some addr → f.routeAt = none ∨ f.routeAt = some q ∧ (if f.changed = true then 100000000 else 1000000000) ≤ since →
      ∃ t, exec .routeTx s = .next t ∧ Became { d with fab := { f with routeAt := some (now64 d), changed := false }, ports := t.dev.ports, regs := t.dev.regs } s t ∧ quiet t ∧
      ∀ x ∈ fabPorts d, sends x ⟨5, max 64 (Config.routeOctets ((table x).length / 2)), .fabric, 2, x :: addr :: addr :: 0 :: table x⟩ t) ∧
    (routeTo dst d = none → exec (.routeExpiry dst) s = .next s) ∧
    (routeTo dst d = some r →
      (r.metric < 9 → ((now64 d).toNat : Int) - r.at_.toNat < 3000000000 → exec (.routeExpiry dst) s = .next s) ∧
      (r.metric < 9 → 3000000000 ≤ ((now64 d).toNat : Int) - r.at_.toNat → ∃ t, exec (.routeExpiry dst) s = .next t ∧ kept t ∧ routeTo dst t.dev = none ∧ others dst t ∧ lost r.port t) ∧
      (9 ≤ r.metric → ∃ t, exec (.routeExpiry dst) s = .next t ∧ kept t ∧ routeTo dst t.dev = none ∧ others dst t))

/-- Trunks (R423, R425, R426): a binding is refused RANGE on what R423 names and is taken otherwise; a frame addressed elsewhere is dropped at its last
hop, else queued in Q6 on the route's port at its receive stamp plus FAB_HOP_NS or at its window's START; an entry of a frame at its destination is
counted FOREIGN or STALE, or becomes a payload of PASS at its deemed instant; an active tells its standby of a frame it
takes, and a standby holds its copy for that record. -/
def Obligations.Trunks : Prop :=
  ∀ (s : State) (p : Nat) (v : W32) (stamp : NT32) (f : TrunkFrame) (z : TrunkEntry) (r : Route) (b : Trunk), let d := s.dev
    let h : W32 := (rg rFAB_TRK_SEL d).extractLsb' 0 32
    let rem : W32 := (rg rFAB_TRK_REMOTE d).extractLsb' 0 32
    let leg := fld v 16 16
    let peer := fld v 11 0
    let k := hSlot h
    let l := descNow k d
    let st := (slot k d).st
    let key := 2 * k + leg
    let ctrl := rFAB_TRK_CTRL
    let fit := isRtp l leg = true ∧ legSuite l leg = 0 ∧ bit (lw l leg 0) 4 = true ∧ jbTarget l leg = 2 ∧ frameMs l leg = 1 ∧ 1 ≤ codec l leg ∧ codec l leg ≤ 4
    let level := ∀ x ∈ trunksTo peer d, hPart x.2.handle = hPart h → x.1 ≠ key → egrOffset (descNow (x.1 / 2) d) (x.1 % 2) = egrOffset l leg
    let ok := current h d = true ∧ (st = .activating ∨ st = .active) ∧ hPart rem = hPart h ∧ fit ∧ level
    let bound (n : Option Trunk) : Prop := ∃ t, exec (.trunkBind v) s = .next t ∧ t.pending = s.pending ∧
      t.dev = { d with regs := t.dev.regs, fab := { d.fab with trunks := t.dev.fab.trunks } } ∧ RegsKept [ctrl] s t ∧ rgN ctrl t.dev = (v &&& 0x80030FFF).toNat ∧
      ∀ j, tabGet (fun _ => none) t.dev.fab.trunks j = if j = key then n else tabGet (fun _ => none) d.fab.trunks j
    let nt := rxStamp p stamp d
    let at0 : NT32 := nt + BitVec.ofNat 32 (fld (rg rFAB_HOP_NS d) 19 0)
    let out := if mode1 d = true then 0 else r.port
    let start : NT32 := passOf at0 d + BitVec.ofNat 32 ((egrWindow f.part out d).1 * 1000)
    let lh := z.remote
    let ll := descNow (hSlot lh) d
    let ts := (nt64Of d f.pass).toNat * rtpClock ll (z.leg % 2) / 1000000000
    let told (x : Option TrunkFrame) : IngressRec := ⟨0, 0, p, f.pass.toNat, nt, 0, trunkDigest f, none, x⟩
    (HostUp d → bit v 31 = false → bound none) ∧
    (HostUp d → bit v 31 = true → ok → bound (some ⟨h, peer, rem, fld v 17 17⟩)) ∧
    (HostUp d → bit v 31 = true → ¬ ok → ∃ t, exec (.trunkBind v) s = .next t ∧ Rejected 0 6 0 ctrl 4 s t) ∧
    (fabPortOn p d = false ∨ d.pwr.st ≠ .service → exec (.trunk p stamp f) s = .next s) ∧
    (fabPortOn p d = true → d.pwr.st = .service →
      (fabAddr d ≠ some f.dst →
        (f.hops ≤ 1 → ∃ t, exec (.trunk p stamp f) s = .next t ∧ Became { d with regs := t.dev.regs } s t ∧ RegsKept [rFAB_CNT_HOPS] s t ∧ Counts rFAB_CNT_HOPS 1 s t ∧
          CauseUp 0x1A0 5 t) ∧
        (2 ≤ f.hops → routeTo f.dst d = some r → r.metric < 9 → fabSends d = true → fabAddr d ≠ none → (port r.port d).q6 = [] →
          ∃ t, exec (.trunk p stamp f) s = .next t ∧ t.pending = s.pending ∧ t.dev = { d with ports := t.dev.ports } ∧ (∀ j, j ≠ r.port → port j t.dev = port j d) ∧
            (port r.port t.dev).q6 = [⟨if sdiff at0 start < 0 then start else at0, 0, 0, f.part, f.len, 3, none, some { f with hops := f.hops - 1 }⟩])) ∧
      (fabAddr d = some f.dst → shadowing d = true → d.twin.fetched.contains (trunkDigest f) = false → d.twin.ingress = [] →
        exec (.trunk p stamp f) s = .next { s with dev := { d with path := { d.path with trunkIn := d.path.trunkIn ++ [⟨p, nt, f, now d, trunkDigest f⟩] } } }) ∧
      (fabAddr d = some f.dst → paired d = true → f.entries = [] → ∃ t, exec (.trunk p stamp f) s = .next t ∧
        OnlyRegisters [rTWIN_CNT_RECORDS] { s with dev := { d with outbox := t.dev.outbox, twin := { d.twin with sent := t.dev.twin.sent } } } t ∧
        Counts rTWIN_CNT_RECORDS 1 s t ∧ (⟨told (some f), now d⟩ : IngressRec × NT32) ∈ t.dev.twin.sent ∧
        t.dev.outbox = .ingress (told (if bit (rg rTWIN_CFG d) 1 = true then some f else none)) :: d.outbox) ∧
      (fabAddr d = some f.dst → shadowing d = false → paired d = false → f.entries = [z] →
        (hPart lh ≠ f.part ∨ (current lh d = true ∧ (trunkOf (hSlot lh) (z.leg % 2) d = none ∨ (trunkOf (hSlot lh) (z.leg % 2) d = some b ∧ b.peer ≠ f.src))) →
          ∃ t, exec (.trunk p stamp f) s = .next t ∧ OnlyRegisters [rFAB_CNT_FOREIGN] s t ∧ Counts rFAB_CNT_FOREIGN 1 s t) ∧
        (hPart lh = f.part → current lh d = false → ∃ t, exec (.trunk p stamp f) s = .next t ∧ Became { d with regs := t.dev.regs } s t ∧
          RegsKept [rFAB_CNT_STALE] s t ∧ Counts rFAB_CNT_STALE 1 s t ∧ CauseUp 0x1A0 4 t) ∧
        (hPart lh = f.part → current lh d = true → trunkOf (hSlot lh) (z.leg % 2) d = some b → b.peer = f.src →
          exec (.trunk p stamp f) s = .next { s with dev := { d with path := { d.path with visible := d.path.visible ++ [⟨lh, z.leg % 2, nt + BitVec.ofNat 32 (ingressBound p f.len d),
            ⟨BitVec.ofNat 16 (ts / 8), rxPt ll (z.leg % 2), false, BitVec.ofNat 32 ts + lw ll (z.leg % 2) 6, nt64Of d nt, z.payload⟩, false, some p⟩] } } })))

namespace Sys2Proof
/-! ### Start-up, resets and power -/

end Sys2Proof
/-- Device resets, PERST_N and the PCIe link (R435 to R437, R447): every reset leaves every register, header, ring, slot, line and core at its reset
value, in BOOT with its source and straps recorded; flash persists, and with KEEP_MEM a warm reset keeps the Basin and the DRAM; only POR_N
relocks debug, and the fuses stand; a transfer that a reset stops leaves no commit. PERST_N takes the link, the HIF and ATN pages, every ring and MSI-X, and leaves media and time; the PF is reached again when the
link trains and it is ready. RELEASE_MEM gives up held memory, and is BUSY without it. Reading CHAL7 makes a fresh challenge. -/
def Obligations.ResetsAndLinks : Prop :=
  ∀ (s : State) (straps : BitVec 3) (speed width k c pg n : Nat), let d := s.dev
    let h := d.hif
    let isReset (cmd : Instr) (src : Nat) (st : BitVec 3) : Prop := ∃ t, exec cmd s = .next t ∧ t.pending = s.pending ∧ let e := t.dev
      let keep := src ≠ 0 ∧ bit (rg rPWR_CFG d) 1 = true
      (k ≠ rHIF_FUSE_CAP → k ≠ rPWR_DBG_FAIL ∨ src = 0 → rg k e = regReset k) ∧ rg rHIF_FUSE_CAP e = rg rHIF_FUSE_CAP d ∧ hdr pg e = Hdr.reset ∧ ring n e = Ring.reset ∧ slot n e = Slot.reset ∧ line n e = Line.reset ∧
        tarn c e = Tarn.reset ∧ e.weir = Weir.reset ∧ e.tb = TimeBase.reset ∧ e.path = Path.reset ∧ e.pwr.st = .boot ∧ e.pwr.bootStep = 0 ∧
        e.pwr.resetSrc = src ∧ e.pwr.straps = st ∧ e.clu.manager = bit st 1 ∧ e.twin.role = .alone ∧ e.twin.own = false ∧ e.twin.peer = d.twin.peer ∧
        e.pwr.debug = (decide (src ≠ 0) && d.pwr.debug) ∧ (src ≠ 0 → rg rPWR_DBG_FAIL e = rg rPWR_DBG_FAIL d) ∧ e.flash = (stopXf d).flash ∧ e.flash.xf = none ∧ e.flash.sectors = d.flash.sectors ∧ e.flash.log = d.flash.log ∧
        (keep → e.basin = d.basin ∧ e.dram = d.dram ∧ e.poison = d.poison ∧ e.pwr.keepMem = true) ∧ (¬ keep → e.basin = [] ∧ e.dram = [] ∧ e.poison = [] ∧ e.pwr.keepMem = false) ∧
        e.hif.linkUp = false ∧ e.hif.pfReady = false ∧ e.hif.perst = h.perst
    let up := setRgN rHIF_LINK (speed + 16 * width) { d with hif := { h with linkUp := true } }
    isReset (.por straps) 0 straps ∧ isReset (.warmReset straps) 1 straps ∧ (HostUp d → isReset .pwrReset 2 d.pwr.straps) ∧
    (d.recd.spools = [] → ∃ t, exec .perstAssert s = .next t ∧ t.pending = s.pending ∧ t.dev = { d with
        hif := { h with pfRid := 0, vfEnable := false, numVFs := 0, busMaster := false, vfBus := [], linkUp := false, perst := true, pfReady := false, wLatch := [], rLatch := [],
                        masked := [], pba := [], msgs := [], perr := [], ovf := 0 },
        regs := t.dev.regs, pages := t.dev.pages, frozen := t.dev.frozen, rings := t.dev.rings, outbox := t.dev.outbox } ∧
      (k < 0x2000 → k ≠ rHIF_FUSE_CAP → rg k t.dev = regReset k) ∧ (0x2000 ≤ k ∨ k = rHIF_FUSE_CAP → rg k t.dev = rg k d) ∧ (pg < 2 → hdr pg t.dev = Hdr.reset) ∧ (2 ≤ pg → hdr pg t.dev = hdr pg d) ∧
      ∀ e ∈ d.rings, (ring e.1 t.dev).enable = false ∧ (ring e.1 t.dev).prod = 0 ∧ (ring e.1 t.dev).cons = 0) ∧
    (exec .perstDeassert s = .next { s with dev := { d with hif := { h with perst := false } } }) ∧
    (h.perst = false → d.pwr.bootStep ≠ 0 → exec .pfReady s = .next { s with dev := { d with hif := { h with pfReady := true } } }) ∧
    (h.perst = true ∨ d.pwr.bootStep = 0 → exec .pfReady s = .next s ∧ exec (.pcieLinkUp speed width) s = .next s) ∧
    (d.recd.spools = [] → h.perst = false → d.pwr.bootStep ≠ 0 → h.linkUp = false → 3 ≤ speed → speed ≤ 5 → width = 4 ∨ width = 8 →
      (speed = 5 → width = 8 → exec (.pcieLinkUp speed width) s = .next { s with dev := up }) ∧
      (speed < 5 ∨ width = 4 → ∃ t, exec (.pcieLinkUp speed width) s = .next t ∧ Became up s t ∧ CauseUp 0 8 t)) ∧
    (d.recd.spools = [] → h.linkUp = true → exec .pcieLinkDown s = .next { s with dev := setRgN rHIF_LINK 0 { d with hif := { h with linkUp := false } } }) ∧
    (h.linkUp = false → exec .pcieLinkDown s = .next s) ∧
    (HostUp d →
      (d.pwr.memHeld = true → exec .releaseMem s = .next { s with dev := { d with pwr := { d.pwr with memHeld := false }, basin := [], poison := [], dram := [] } }) ∧
      (d.pwr.memHeld = false → ∃ t, exec .releaseMem s = .next t ∧ Rejected 0 5 0 rPWR_CMD 4 s t) ∧
      (∃ t, exec .challengeRead s = .next t ∧ t.pending = s.pending ∧ t.dev = { d with
        pwr := { d.pwr with challenge := d.fresh }, fresh := d.fresh + 1, outbox := .readReply 0 0 (rPWR_DBG_CHAL + 28) 4 (Config.challenge d.pwr.challenge 7).toNat :: d.outbox }))

/-- Boot, recovery and the rollback counter (R438 to R442): step 1 waits for PWR_FAIL_N and reads the OTP; step 2 runs the valid slot of the higher
version, A of equals, the other with BOOT_FALLBACK where it fails, or enters recovery; a failure of step 3, 4 or 5 places the device in FAULT; step 3
trains the DRAM, a channel that does not train raising DRAM.UNIT_FAULT, starts the control cores and the media cores and stops with memory kept; step 5 ends in TIME_ACQUIRE; GO runs a valid image or sets FAIL; a
commit raises PWR_ROLLBACK to the running image's security version, or is refused RANGE. -/
def Obligations.BootSteps : Prop :=
  ∀ (s : State) (b : BootIn) (v : W32) (img : BootImage) (c : Nat), let d := s.dev
    let p := d.pwr
    let good (i : BootImage) : Prop := i.ok = true ∧ rgN rPWR_ROLLBACK d ≤ i.sec
    let slotReg := rPWR_BOOT_SLOT
    let version (i : BootImage) : Nat := i.sec % 65536 * 65536 + i.ver % 65536
    let boots (e : Pwr) (l : List Nat) (t : State) : Prop := exec (.boot b) s = .next t ∧ Became { d with regs := t.dev.regs, pwr := e } s t ∧ RegsKept l s t
    let preferB := b.imageA.ver < b.imageB.ver
    let runs (i : BootImage) (n : Nat) (t : State) : Prop := boots { p with secVersion := i.sec, bootStep := 2 } [slotReg, rPWR_BOOT_VER] t ∧
      rgN slotReg t.dev = n ∧ rgN rPWR_BOOT_VER t.dev = version i
    let recovers (t : State) : Prop := boots { p with recovery := true } [slotReg] t ∧ rgN slotReg t.dev = 2
    let commit := Instr.rollbackCommit v
    (p.st ≠ .boot ∨ p.memHeld = true → exec (.boot b) s = .next s) ∧
    (p.st = .boot → p.memHeld = false →
      (p.bootStep = 0 → p.powerFail = true → b.powerOk = false → exec (.boot b) s = .next s) ∧
      (p.bootStep = 0 → p.powerFail = false ∨ b.powerOk = true → ∃ t, exec (.boot b) s = .next t ∧ t.pending = s.pending ∧
        t.dev = { d with pwr := { p with powerFail := false, bootStep := 1 }, regs := t.dev.regs, tarns := t.dev.tarns } ∧ RegsKept [rPWR_ROLLBACK] s t ∧
        rgN rPWR_ROLLBACK t.dev = min b.rollback 64 ∧ (tarn 64 t.dev).st = .running ∧ (c ≠ 64 → tarn c t.dev = tarn c d)) ∧
      (p.bootStep = 1 → p.recovery = true → exec (.boot b) s = .next s) ∧
      (p.bootStep = 1 → p.recovery = false → bit p.straps 2 = true → ∃ t, recovers t) ∧
      (p.bootStep = 1 → p.recovery = false → bit p.straps 2 = false →
        (good b.imageA → good b.imageB → ∃ t, runs (if preferB then b.imageB else b.imageA) (if preferB then 5 else 4) t) ∧
        (good b.imageA → ¬ good b.imageB → ∃ t, runs b.imageA 0 t ∧ (preferB → CauseUp 2 3 t)) ∧
        (¬ good b.imageA → good b.imageB → ∃ t, runs b.imageB 1 t ∧ (¬ preferB → CauseUp 2 3 t)) ∧
        (¬ good b.imageA → ¬ good b.imageB → ∃ t, recovers t)) ∧
      (2 ≤ p.bootStep → p.bootStep ≤ 4 → b.ok = false → ∃ t, exec (.boot b) s = .next t ∧ t.pending = s.pending ∧ t.dev.pwr.st = .fault ∧ t.dev.twin.own = false ∧
        CauseUp 2 1 t) ∧
      (p.bootStep = 2 → b.ok = true → ∃ t, exec (.boot b) s = .next t ∧ t.pending = s.pending ∧ t.dev.pwr = { p with memHeld := p.keepMem, bootStep := 3 } ∧
        t.dev.path.seed = b.seed ∧ (c < 64 → (tarn c t.dev).st = .idle ∧ bit (hdr (tarnPage c) t.dev).ctrl 0 = true) ∧
        (64 ≤ c → c < 68 → (tarn c t.dev).st = .running ∧ (tarn c t.dev).pc = 0) ∧ t.dev.slots = d.slots ∧ t.dev.tb = d.tb ∧
        rgN rDRAM_CFG t.dev = b.gib % 256 + 256 * b.trained.toNat ∧ (b.trained ≠ 3 → CauseUp 0xA0 0 t)) ∧
      (p.bootStep = 4 → b.ok = true → b.config = [] → cluOn d = false ∨ d.clu.manager = true → d.tb.servo ≠ .locked → ∃ t,
        boots { p with st := .timeAcquire, bootStep := 5 } [rPWR_STATE_TIME] t ∧ rgN rPWR_STATE_TIME t.dev = (now d).toNat ∧ CauseUp 2 1 t) ∧
      (p.bootStep = 3 → b.ok = true → b.config = [] → hasSce d = false → ∃ t, boots { p with parts := b.parts.filter (fun x => decide (1 ≤ x) && decide (x < 1024)), bootStep := 4 } [] t ∧
        bit (hdr 0x20 t.dev).ctrl 0 = true)) ∧
    (HostUp d →
      (bit v 0 = false ∨ p.recovery = false ∨ p.bootStep ≠ 1 → exec (.recoveryGo v img) s = .next s) ∧
      (bit v 0 = true → p.recovery = true → p.bootStep = 1 →
        (good img → ∃ t, exec (.recoveryGo v img) s = .next t ∧ t.pending = s.pending ∧ t.dev = { d with pwr := { p with secVersion := img.sec, bootStep := 2 }, regs := t.dev.regs } ∧
          RegsKept [rPWR_RECOV_CTRL, rPWR_BOOT_VER] s t ∧ rgN rPWR_BOOT_VER t.dev = version img ∧ rgN rPWR_RECOV_CTRL t.dev = 0) ∧
        (¬ good img → ∃ t, exec (.recoveryGo v img) s = .next t ∧ OnlyRegisters [rPWR_RECOV_CTRL] s t ∧ rgN rPWR_RECOV_CTRL t.dev = 2)) ∧
      (fld v 7 0 ≠ 0xA5 → exec commit s = .next s) ∧
      (fld v 7 0 = 0xA5 → bit (rg slotReg d) 1 = true ∨ 64 < p.secVersion → ∃ t, exec commit s = .next t ∧ Rejected 0 6 0 rPWR_ROLLBACK_COMMIT 4 s t) ∧
      (fld v 7 0 = 0xA5 → bit (rg slotReg d) 1 = false → p.secVersion ≤ 64 → ∃ t, exec commit s = .next t ∧ OnlyRegisters [rPWR_ROLLBACK] s t ∧
        rgN rPWR_ROLLBACK t.dev = max (rgN rPWR_ROLLBACK d) p.secVersion))

/-- Device states, power loss, debug and aging (R442, R444 to R449): SERVICE from READY alone opens partition 0; DORMANT only where R444 allows it,
losing the Basin, the seeding and what
the media cores hold but their programs (log entry 212); a wake records its source and gives READY or TIME_ACQUIRE; PWR_FAIL_N falling enters FAULT with reason 2, stops
the write buffer's admission, and the flush commits it; a valid debug response erases every key and opens the port, an invalid one counts, and
after 8 none is accepted; AGE_WARN at 80 %. -/
def Obligations.PowerStates : Prop :=
  ∀ (s : State) (v : W32) (pat : BitVec 8) (percent p : Nat) (valid : Bool), let d := s.dev
    let st := d.pwr.st
    let busy (cmd : Instr) : Prop := ∃ t, exec cmd s = .next t ∧ Rejected 0 5 0 rPWR_CMD 4 s t
    let became (x : DevSt) (t : State) : Prop := t.pending = s.pending ∧ t.dev.pwr = { d.pwr with st := x } ∧ rgN rPWR_STATE_TIME t.dev = (now d).toNat ∧ CauseUp 2 1 t
    let doze := st = .service ∧ anyChannel d = false ∧ d.twin.role ≠ .pairing ∧ d.twin.role ≠ .standby ∧ ¬ (d.twin.role = .active ∧ d.twin.link = true ∧ d.twin.peerRole = 3)
    let woke (cmd : Instr) (src : Nat) : Prop := ∃ t, exec cmd s = .next t ∧ t.pending = s.pending ∧ rgN rPWR_WAKE_SRC t.dev = src ∧ CauseUp 2 7 t ∧ CauseUp 2 1 t ∧
      t.dev.basin = [] ∧ t.dev.slots = d.slots ∧ t.dev.tb = d.tb ∧
      (d.tb.servo = .locked → t.dev.weir.seeded = true ∧ t.dev.weir.nextP = BitVec.ofNat 32 ((now64 d).toNat / 1000000 * 1000000 + 1000000) ∧
        t.dev.pwr.st = if bit (rg rPWR_CFG d) 0 = true then .service else .ready) ∧
      (d.tb.servo ≠ .locked → t.dev.pwr.st = .timeAcquire ∧ t.dev.weir = d.weir)
    let submit := Instr.debugSubmit v valid
    (HostUp d →
      (st = .ready → ∃ t, exec .pwrService s = .next t ∧ became .service t ∧ bit (rg (kPart 0 oPART_CTRL) t.dev) 0 = true ∧ partState 0 t.dev = 1 ∧
        (∀ x ∈ d.pwr.parts, partState x t.dev = 1) ∧ t.dev.tb = d.tb ∧ t.dev.slots = d.slots) ∧
      (st ≠ .ready → busy .pwrService) ∧
      (doze → ∃ t, exec .pwrDormant s = .next t ∧ became .dormant t ∧ t.dev.basin = [] ∧ t.dev.weir.seeded = false ∧ t.dev.weir.tokens = [] ∧ t.dev.tb = d.tb ∧
        t.dev.slots = d.slots ∧ t.dev.dram = d.dram ∧ t.dev.clu.driving = driveLevel t.dev ∧ lineMode p t.dev = 1 ∧
        (p < 64 → (tarn p d).st = .idle ∨ (tarn p d).st = .running → tarn p t.dev = { Tarn.reset with st := .idle, pm := (tarn p d).pm, cs := (tarn p d).cs }) ∧
        (64 ≤ p → tarn p t.dev = tarn p d) ∧ ∀ e ∈ t.dev.progs, e.2.loaded = true → e.2.restoring = true) ∧
      (¬ doze → busy .pwrDormant) ∧
      (st ≠ .dormant → busy (.pwrWake 0)) ∧
      (st = .dormant → woke (.pwrWake 0) 0x100)) ∧
    (pat ≠ 0 → st = .dormant → woke (.pwrWake pat) pat.toNat) ∧
    (pat ≠ 0 → st ≠ .dormant → exec (.pwrWake pat) s = .next s) ∧
    (d.pwr.bootStep = 0 → exec .powerFail s = .next { s with dev := { d with pwr := { d.pwr with powerFail := true } } }) ∧
    (d.pwr.bootStep ≠ 0 → ∃ t, exec .powerFail s = .next t ∧ t.pending = s.pending ∧ t.dev.pwr = { d.pwr with st := .fault, powerFail := true } ∧ CauseUp 2 2 t ∧
      t.dev.slots = d.slots ∧ t.dev.tb = d.tb ∧ lineMode p t.dev = 1 ∧
      (st ≠ .fault → rgN rPWR_FAULT t.dev = 0x2000 ∧ t.dev.twin.own = false ∧ (hasTwin d = true → .pin .act false ∈ t.dev.outbox) ∧ .pin .clusterSync false ∈ t.dev.outbox) ∧
      (bit (rg rFLASH_STATUS d) 0 = true → t.dev.recd.flushing = true ∧ bit (rg rFLASH_STATUS t.dev) 1 = true) ∧
      (bit (rg rFLASH_STATUS d) 0 = false → t.dev.recd = d.recd)) ∧
    (d.recd.flushing = false → exec .flushComplete s = .next s) ∧
    (d.recd.flushing = true → ∃ t, exec .flushComplete s = .next t ∧ t.pending = s.pending ∧ t.dev = { d with
      recd := { d.recd with wbuf := [], flushing := false }, flash := (stopXf d).flash, regs := t.dev.regs, outbox := .pin .flashWpN false :: d.outbox } ∧
      RegsKept [rFLASH_STATUS] s t ∧ bit (rg rFLASH_STATUS t.dev) 1 = false ∧ bit (rg rFLASH_STATUS t.dev) 2 = true ∧
      bit (rg rFLASH_STATUS t.dev) 0 = bit (rg rFLASH_STATUS d) 0) ∧
    (HostUp d →
      (bit v 0 = false ∨ 8 ≤ rgN rPWR_DBG_FAIL d → exec submit s = .next s) ∧
      (bit v 0 = true → rgN rPWR_DBG_FAIL d < 8 → valid = false → ∃ t, exec submit s = .next t ∧ OnlyRegisters [rPWR_DBG_FAIL] s t ∧ Counts rPWR_DBG_FAIL 1 s t) ∧
      (bit v 0 = true → rgN rPWR_DBG_FAIL d < 8 → valid = true → ∃ t, exec submit s = .next t ∧ t.pending = s.pending ∧ t.dev.path = { d.path with keys := [] } ∧
        t.dev.pwr = { d.pwr with debug := true } ∧ CauseUp 2 4 t ∧ (p < 1024 → partState p d = 1 → partState p t.dev = 2 ∧ p ∈ t.dev.closing) ∧
        (p < 1024 → partState p d ≠ 1 → partState p t.dev = partState p d) ∧ t.dev.slots = d.slots ∧ t.dev.tb = d.tb)) ∧
    (∃ t, exec (.agingRead percent) s = .next t ∧ Became { d with regs := t.dev.regs } s t ∧ RegsKept [rPWR_AGE] s t ∧ rgN rPWR_AGE t.dev = min percent 255 ∧
      (80 ≤ percent → CauseUp 2 5 t))
end

