-- ==== Sys2Proof/Laws/State.lean ====
section
/-! SUPPORT. One lemma for each field of the device and each operation that changes one field: the others stay. -/
namespace Sys2Proof.Machine

/-! ### setRg changes regs only -/

@[simp] theorem setRg_pages (k : Nat) (v : W64) (d : Dev) : (setRg k v d).pages = d.pages := rfl
@[simp] theorem setRg_frozen (k : Nat) (v : W64) (d : Dev) : (setRg k v d).frozen = d.frozen := rfl
@[simp] theorem setRg_raised (k : Nat) (v : W64) (d : Dev) : (setRg k v d).raised = d.raised := rfl
@[simp] theorem setRg_hif (k : Nat) (v : W64) (d : Dev) : (setRg k v d).hif = d.hif := rfl
@[simp] theorem setRg_rings (k : Nat) (v : W64) (d : Dev) : (setRg k v d).rings = d.rings := rfl
@[simp] theorem setRg_tb (k : Nat) (v : W64) (d : Dev) : (setRg k v d).tb = d.tb := rfl
@[simp] theorem setRg_weir (k : Nat) (v : W64) (d : Dev) : (setRg k v d).weir = d.weir := rfl
@[simp] theorem setRg_slots (k : Nat) (v : W64) (d : Dev) : (setRg k v d).slots = d.slots := rfl
@[simp] theorem setRg_buses (k : Nat) (v : W64) (d : Dev) : (setRg k v d).buses = d.buses := rfl
@[simp] theorem setRg_path (k : Nat) (v : W64) (d : Dev) : (setRg k v d).path = d.path := rfl
@[simp] theorem setRg_ports (k : Nat) (v : W64) (d : Dev) : (setRg k v d).ports = d.ports := rfl
@[simp] theorem setRg_mgmt (k : Nat) (v : W64) (d : Dev) : (setRg k v d).mgmt = d.mgmt := rfl
@[simp] theorem setRg_twin (k : Nat) (v : W64) (d : Dev) : (setRg k v d).twin = d.twin := rfl
@[simp] theorem setRg_recd (k : Nat) (v : W64) (d : Dev) : (setRg k v d).recd = d.recd := rfl
@[simp] theorem setRg_flash (k : Nat) (v : W64) (d : Dev) : (setRg k v d).flash = d.flash := rfl
@[simp] theorem setRg_lfe (k : Nat) (v : W64) (d : Dev) : (setRg k v d).lfe = d.lfe := rfl
@[simp] theorem setRg_sce (k : Nat) (v : W64) (d : Dev) : (setRg k v d).sce = d.sce := rfl
@[simp] theorem setRg_tarns (k : Nat) (v : W64) (d : Dev) : (setRg k v d).tarns = d.tarns := rfl
@[simp] theorem setRg_clu (k : Nat) (v : W64) (d : Dev) : (setRg k v d).clu = d.clu := rfl
@[simp] theorem setRg_fab (k : Nat) (v : W64) (d : Dev) : (setRg k v d).fab = d.fab := rfl
@[simp] theorem setRg_chw (k : Nat) (v : W64) (d : Dev) : (setRg k v d).chw = d.chw := rfl
@[simp] theorem setRg_progs (k : Nat) (v : W64) (d : Dev) : (setRg k v d).progs = d.progs := rfl
@[simp] theorem setRg_load (k : Nat) (v : W64) (d : Dev) : (setRg k v d).load = d.load := rfl
@[simp] theorem setRg_closing (k : Nat) (v : W64) (d : Dev) : (setRg k v d).closing = d.closing := rfl
@[simp] theorem setRg_nextFree (k : Nat) (v : W64) (d : Dev) : (setRg k v d).nextFree = d.nextFree := rfl
@[simp] theorem setRg_basin (k : Nat) (v : W64) (d : Dev) : (setRg k v d).basin = d.basin := rfl
@[simp] theorem setRg_poison (k : Nat) (v : W64) (d : Dev) : (setRg k v d).poison = d.poison := rfl
@[simp] theorem setRg_dram (k : Nat) (v : W64) (d : Dev) : (setRg k v d).dram = d.dram := rfl
@[simp] theorem setRg_pwr (k : Nat) (v : W64) (d : Dev) : (setRg k v d).pwr = d.pwr := rfl
@[simp] theorem setRg_fresh (k : Nat) (v : W64) (d : Dev) : (setRg k v d).fresh = d.fresh := rfl
@[simp] theorem setRg_outbox (k : Nat) (v : W64) (d : Dev) : (setRg k v d).outbox = d.outbox := rfl

/-! ### setRgN changes regs only -/

@[simp] theorem setRgN_pages (k n : Nat) (d : Dev) : (setRgN k n d).pages = d.pages := rfl
@[simp] theorem setRgN_frozen (k n : Nat) (d : Dev) : (setRgN k n d).frozen = d.frozen := rfl
@[simp] theorem setRgN_raised (k n : Nat) (d : Dev) : (setRgN k n d).raised = d.raised := rfl
@[simp] theorem setRgN_hif (k n : Nat) (d : Dev) : (setRgN k n d).hif = d.hif := rfl
@[simp] theorem setRgN_rings (k n : Nat) (d : Dev) : (setRgN k n d).rings = d.rings := rfl
@[simp] theorem setRgN_tb (k n : Nat) (d : Dev) : (setRgN k n d).tb = d.tb := rfl
@[simp] theorem setRgN_weir (k n : Nat) (d : Dev) : (setRgN k n d).weir = d.weir := rfl
@[simp] theorem setRgN_slots (k n : Nat) (d : Dev) : (setRgN k n d).slots = d.slots := rfl
@[simp] theorem setRgN_buses (k n : Nat) (d : Dev) : (setRgN k n d).buses = d.buses := rfl
@[simp] theorem setRgN_path (k n : Nat) (d : Dev) : (setRgN k n d).path = d.path := rfl
@[simp] theorem setRgN_ports (k n : Nat) (d : Dev) : (setRgN k n d).ports = d.ports := rfl
@[simp] theorem setRgN_mgmt (k n : Nat) (d : Dev) : (setRgN k n d).mgmt = d.mgmt := rfl
@[simp] theorem setRgN_twin (k n : Nat) (d : Dev) : (setRgN k n d).twin = d.twin := rfl
@[simp] theorem setRgN_recd (k n : Nat) (d : Dev) : (setRgN k n d).recd = d.recd := rfl
@[simp] theorem setRgN_flash (k n : Nat) (d : Dev) : (setRgN k n d).flash = d.flash := rfl
@[simp] theorem setRgN_lfe (k n : Nat) (d : Dev) : (setRgN k n d).lfe = d.lfe := rfl
@[simp] theorem setRgN_sce (k n : Nat) (d : Dev) : (setRgN k n d).sce = d.sce := rfl
@[simp] theorem setRgN_tarns (k n : Nat) (d : Dev) : (setRgN k n d).tarns = d.tarns := rfl
@[simp] theorem setRgN_clu (k n : Nat) (d : Dev) : (setRgN k n d).clu = d.clu := rfl
@[simp] theorem setRgN_fab (k n : Nat) (d : Dev) : (setRgN k n d).fab = d.fab := rfl
@[simp] theorem setRgN_chw (k n : Nat) (d : Dev) : (setRgN k n d).chw = d.chw := rfl
@[simp] theorem setRgN_progs (k n : Nat) (d : Dev) : (setRgN k n d).progs = d.progs := rfl
@[simp] theorem setRgN_load (k n : Nat) (d : Dev) : (setRgN k n d).load = d.load := rfl
@[simp] theorem setRgN_closing (k n : Nat) (d : Dev) : (setRgN k n d).closing = d.closing := rfl
@[simp] theorem setRgN_nextFree (k n : Nat) (d : Dev) : (setRgN k n d).nextFree = d.nextFree := rfl
@[simp] theorem setRgN_basin (k n : Nat) (d : Dev) : (setRgN k n d).basin = d.basin := rfl
@[simp] theorem setRgN_poison (k n : Nat) (d : Dev) : (setRgN k n d).poison = d.poison := rfl
@[simp] theorem setRgN_dram (k n : Nat) (d : Dev) : (setRgN k n d).dram = d.dram := rfl
@[simp] theorem setRgN_pwr (k n : Nat) (d : Dev) : (setRgN k n d).pwr = d.pwr := rfl
@[simp] theorem setRgN_fresh (k n : Nat) (d : Dev) : (setRgN k n d).fresh = d.fresh := rfl
@[simp] theorem setRgN_outbox (k n : Nat) (d : Dev) : (setRgN k n d).outbox = d.outbox := rfl

/-! ### incRg changes regs only -/

@[simp] theorem incRg_pages (k : Nat) (d : Dev) : (incRg k d).pages = d.pages := rfl
@[simp] theorem incRg_frozen (k : Nat) (d : Dev) : (incRg k d).frozen = d.frozen := rfl
@[simp] theorem incRg_raised (k : Nat) (d : Dev) : (incRg k d).raised = d.raised := rfl
@[simp] theorem incRg_hif (k : Nat) (d : Dev) : (incRg k d).hif = d.hif := rfl
@[simp] theorem incRg_rings (k : Nat) (d : Dev) : (incRg k d).rings = d.rings := rfl
@[simp] theorem incRg_tb (k : Nat) (d : Dev) : (incRg k d).tb = d.tb := rfl
@[simp] theorem incRg_weir (k : Nat) (d : Dev) : (incRg k d).weir = d.weir := rfl
@[simp] theorem incRg_slots (k : Nat) (d : Dev) : (incRg k d).slots = d.slots := rfl
@[simp] theorem incRg_buses (k : Nat) (d : Dev) : (incRg k d).buses = d.buses := rfl
@[simp] theorem incRg_path (k : Nat) (d : Dev) : (incRg k d).path = d.path := rfl
@[simp] theorem incRg_ports (k : Nat) (d : Dev) : (incRg k d).ports = d.ports := rfl
@[simp] theorem incRg_mgmt (k : Nat) (d : Dev) : (incRg k d).mgmt = d.mgmt := rfl
@[simp] theorem incRg_twin (k : Nat) (d : Dev) : (incRg k d).twin = d.twin := rfl
@[simp] theorem incRg_recd (k : Nat) (d : Dev) : (incRg k d).recd = d.recd := rfl
@[simp] theorem incRg_flash (k : Nat) (d : Dev) : (incRg k d).flash = d.flash := rfl
@[simp] theorem incRg_lfe (k : Nat) (d : Dev) : (incRg k d).lfe = d.lfe := rfl
@[simp] theorem incRg_sce (k : Nat) (d : Dev) : (incRg k d).sce = d.sce := rfl
@[simp] theorem incRg_tarns (k : Nat) (d : Dev) : (incRg k d).tarns = d.tarns := rfl
@[simp] theorem incRg_clu (k : Nat) (d : Dev) : (incRg k d).clu = d.clu := rfl
@[simp] theorem incRg_fab (k : Nat) (d : Dev) : (incRg k d).fab = d.fab := rfl
@[simp] theorem incRg_chw (k : Nat) (d : Dev) : (incRg k d).chw = d.chw := rfl
@[simp] theorem incRg_progs (k : Nat) (d : Dev) : (incRg k d).progs = d.progs := rfl
@[simp] theorem incRg_load (k : Nat) (d : Dev) : (incRg k d).load = d.load := rfl
@[simp] theorem incRg_closing (k : Nat) (d : Dev) : (incRg k d).closing = d.closing := rfl
@[simp] theorem incRg_nextFree (k : Nat) (d : Dev) : (incRg k d).nextFree = d.nextFree := rfl
@[simp] theorem incRg_basin (k : Nat) (d : Dev) : (incRg k d).basin = d.basin := rfl
@[simp] theorem incRg_poison (k : Nat) (d : Dev) : (incRg k d).poison = d.poison := rfl
@[simp] theorem incRg_dram (k : Nat) (d : Dev) : (incRg k d).dram = d.dram := rfl
@[simp] theorem incRg_pwr (k : Nat) (d : Dev) : (incRg k d).pwr = d.pwr := rfl
@[simp] theorem incRg_fresh (k : Nat) (d : Dev) : (incRg k d).fresh = d.fresh := rfl
@[simp] theorem incRg_outbox (k : Nat) (d : Dev) : (incRg k d).outbox = d.outbox := rfl

/-! ### addRg changes regs only -/

@[simp] theorem addRg_pages (k n : Nat) (d : Dev) : (addRg k n d).pages = d.pages := rfl
@[simp] theorem addRg_frozen (k n : Nat) (d : Dev) : (addRg k n d).frozen = d.frozen := rfl
@[simp] theorem addRg_raised (k n : Nat) (d : Dev) : (addRg k n d).raised = d.raised := rfl
@[simp] theorem addRg_hif (k n : Nat) (d : Dev) : (addRg k n d).hif = d.hif := rfl
@[simp] theorem addRg_rings (k n : Nat) (d : Dev) : (addRg k n d).rings = d.rings := rfl
@[simp] theorem addRg_tb (k n : Nat) (d : Dev) : (addRg k n d).tb = d.tb := rfl
@[simp] theorem addRg_weir (k n : Nat) (d : Dev) : (addRg k n d).weir = d.weir := rfl
@[simp] theorem addRg_slots (k n : Nat) (d : Dev) : (addRg k n d).slots = d.slots := rfl
@[simp] theorem addRg_buses (k n : Nat) (d : Dev) : (addRg k n d).buses = d.buses := rfl
@[simp] theorem addRg_path (k n : Nat) (d : Dev) : (addRg k n d).path = d.path := rfl
@[simp] theorem addRg_ports (k n : Nat) (d : Dev) : (addRg k n d).ports = d.ports := rfl
@[simp] theorem addRg_mgmt (k n : Nat) (d : Dev) : (addRg k n d).mgmt = d.mgmt := rfl
@[simp] theorem addRg_twin (k n : Nat) (d : Dev) : (addRg k n d).twin = d.twin := rfl
@[simp] theorem addRg_recd (k n : Nat) (d : Dev) : (addRg k n d).recd = d.recd := rfl
@[simp] theorem addRg_flash (k n : Nat) (d : Dev) : (addRg k n d).flash = d.flash := rfl
@[simp] theorem addRg_lfe (k n : Nat) (d : Dev) : (addRg k n d).lfe = d.lfe := rfl
@[simp] theorem addRg_sce (k n : Nat) (d : Dev) : (addRg k n d).sce = d.sce := rfl
@[simp] theorem addRg_tarns (k n : Nat) (d : Dev) : (addRg k n d).tarns = d.tarns := rfl
@[simp] theorem addRg_clu (k n : Nat) (d : Dev) : (addRg k n d).clu = d.clu := rfl
@[simp] theorem addRg_fab (k n : Nat) (d : Dev) : (addRg k n d).fab = d.fab := rfl
@[simp] theorem addRg_chw (k n : Nat) (d : Dev) : (addRg k n d).chw = d.chw := rfl
@[simp] theorem addRg_progs (k n : Nat) (d : Dev) : (addRg k n d).progs = d.progs := rfl
@[simp] theorem addRg_load (k n : Nat) (d : Dev) : (addRg k n d).load = d.load := rfl
@[simp] theorem addRg_closing (k n : Nat) (d : Dev) : (addRg k n d).closing = d.closing := rfl
@[simp] theorem addRg_nextFree (k n : Nat) (d : Dev) : (addRg k n d).nextFree = d.nextFree := rfl
@[simp] theorem addRg_basin (k n : Nat) (d : Dev) : (addRg k n d).basin = d.basin := rfl
@[simp] theorem addRg_poison (k n : Nat) (d : Dev) : (addRg k n d).poison = d.poison := rfl
@[simp] theorem addRg_dram (k n : Nat) (d : Dev) : (addRg k n d).dram = d.dram := rfl
@[simp] theorem addRg_pwr (k n : Nat) (d : Dev) : (addRg k n d).pwr = d.pwr := rfl
@[simp] theorem addRg_fresh (k n : Nat) (d : Dev) : (addRg k n d).fresh = d.fresh := rfl
@[simp] theorem addRg_outbox (k n : Nat) (d : Dev) : (addRg k n d).outbox = d.outbox := rfl

/-! ### out changes outbox only -/

@[simp] theorem out_regs (o : Output) (d : Dev) : (out o d).regs = d.regs := rfl
@[simp] theorem out_pages (o : Output) (d : Dev) : (out o d).pages = d.pages := rfl
@[simp] theorem out_frozen (o : Output) (d : Dev) : (out o d).frozen = d.frozen := rfl
@[simp] theorem out_raised (o : Output) (d : Dev) : (out o d).raised = d.raised := rfl
@[simp] theorem out_hif (o : Output) (d : Dev) : (out o d).hif = d.hif := rfl
@[simp] theorem out_rings (o : Output) (d : Dev) : (out o d).rings = d.rings := rfl
@[simp] theorem out_tb (o : Output) (d : Dev) : (out o d).tb = d.tb := rfl
@[simp] theorem out_weir (o : Output) (d : Dev) : (out o d).weir = d.weir := rfl
@[simp] theorem out_slots (o : Output) (d : Dev) : (out o d).slots = d.slots := rfl
@[simp] theorem out_buses (o : Output) (d : Dev) : (out o d).buses = d.buses := rfl
@[simp] theorem out_path (o : Output) (d : Dev) : (out o d).path = d.path := rfl
@[simp] theorem out_ports (o : Output) (d : Dev) : (out o d).ports = d.ports := rfl
@[simp] theorem out_mgmt (o : Output) (d : Dev) : (out o d).mgmt = d.mgmt := rfl
@[simp] theorem out_twin (o : Output) (d : Dev) : (out o d).twin = d.twin := rfl
@[simp] theorem out_recd (o : Output) (d : Dev) : (out o d).recd = d.recd := rfl
@[simp] theorem out_flash (o : Output) (d : Dev) : (out o d).flash = d.flash := rfl
@[simp] theorem out_lfe (o : Output) (d : Dev) : (out o d).lfe = d.lfe := rfl
@[simp] theorem out_sce (o : Output) (d : Dev) : (out o d).sce = d.sce := rfl
@[simp] theorem out_tarns (o : Output) (d : Dev) : (out o d).tarns = d.tarns := rfl
@[simp] theorem out_clu (o : Output) (d : Dev) : (out o d).clu = d.clu := rfl
@[simp] theorem out_fab (o : Output) (d : Dev) : (out o d).fab = d.fab := rfl
@[simp] theorem out_chw (o : Output) (d : Dev) : (out o d).chw = d.chw := rfl
@[simp] theorem out_progs (o : Output) (d : Dev) : (out o d).progs = d.progs := rfl
@[simp] theorem out_load (o : Output) (d : Dev) : (out o d).load = d.load := rfl
@[simp] theorem out_closing (o : Output) (d : Dev) : (out o d).closing = d.closing := rfl
@[simp] theorem out_nextFree (o : Output) (d : Dev) : (out o d).nextFree = d.nextFree := rfl
@[simp] theorem out_basin (o : Output) (d : Dev) : (out o d).basin = d.basin := rfl
@[simp] theorem out_poison (o : Output) (d : Dev) : (out o d).poison = d.poison := rfl
@[simp] theorem out_dram (o : Output) (d : Dev) : (out o d).dram = d.dram := rfl
@[simp] theorem out_pwr (o : Output) (d : Dev) : (out o d).pwr = d.pwr := rfl
@[simp] theorem out_fresh (o : Output) (d : Dev) : (out o d).fresh = d.fresh := rfl

/-! ### spend changes fresh only -/

@[simp] theorem spend_regs (d : Dev) : (spend d).regs = d.regs := rfl
@[simp] theorem spend_pages (d : Dev) : (spend d).pages = d.pages := rfl
@[simp] theorem spend_frozen (d : Dev) : (spend d).frozen = d.frozen := rfl
@[simp] theorem spend_raised (d : Dev) : (spend d).raised = d.raised := rfl
@[simp] theorem spend_hif (d : Dev) : (spend d).hif = d.hif := rfl
@[simp] theorem spend_rings (d : Dev) : (spend d).rings = d.rings := rfl
@[simp] theorem spend_tb (d : Dev) : (spend d).tb = d.tb := rfl
@[simp] theorem spend_weir (d : Dev) : (spend d).weir = d.weir := rfl
@[simp] theorem spend_slots (d : Dev) : (spend d).slots = d.slots := rfl
@[simp] theorem spend_buses (d : Dev) : (spend d).buses = d.buses := rfl
@[simp] theorem spend_path (d : Dev) : (spend d).path = d.path := rfl
@[simp] theorem spend_ports (d : Dev) : (spend d).ports = d.ports := rfl
@[simp] theorem spend_mgmt (d : Dev) : (spend d).mgmt = d.mgmt := rfl
@[simp] theorem spend_twin (d : Dev) : (spend d).twin = d.twin := rfl
@[simp] theorem spend_recd (d : Dev) : (spend d).recd = d.recd := rfl
@[simp] theorem spend_flash (d : Dev) : (spend d).flash = d.flash := rfl
@[simp] theorem spend_lfe (d : Dev) : (spend d).lfe = d.lfe := rfl
@[simp] theorem spend_sce (d : Dev) : (spend d).sce = d.sce := rfl
@[simp] theorem spend_tarns (d : Dev) : (spend d).tarns = d.tarns := rfl
@[simp] theorem spend_clu (d : Dev) : (spend d).clu = d.clu := rfl
@[simp] theorem spend_fab (d : Dev) : (spend d).fab = d.fab := rfl
@[simp] theorem spend_chw (d : Dev) : (spend d).chw = d.chw := rfl
@[simp] theorem spend_progs (d : Dev) : (spend d).progs = d.progs := rfl
@[simp] theorem spend_load (d : Dev) : (spend d).load = d.load := rfl
@[simp] theorem spend_closing (d : Dev) : (spend d).closing = d.closing := rfl
@[simp] theorem spend_nextFree (d : Dev) : (spend d).nextFree = d.nextFree := rfl
@[simp] theorem spend_basin (d : Dev) : (spend d).basin = d.basin := rfl
@[simp] theorem spend_poison (d : Dev) : (spend d).poison = d.poison := rfl
@[simp] theorem spend_dram (d : Dev) : (spend d).dram = d.dram := rfl
@[simp] theorem spend_pwr (d : Dev) : (spend d).pwr = d.pwr := rfl
@[simp] theorem spend_outbox (d : Dev) : (spend d).outbox = d.outbox := rfl

/-! ### modHdr changes pages only -/

@[simp] theorem modHdr_regs (k : Nat) (f : Hdr → Hdr) (d : Dev) : (modHdr k f d).regs = d.regs := rfl
@[simp] theorem modHdr_frozen (k : Nat) (f : Hdr → Hdr) (d : Dev) : (modHdr k f d).frozen = d.frozen := rfl
@[simp] theorem modHdr_raised (k : Nat) (f : Hdr → Hdr) (d : Dev) : (modHdr k f d).raised = d.raised := rfl
@[simp] theorem modHdr_hif (k : Nat) (f : Hdr → Hdr) (d : Dev) : (modHdr k f d).hif = d.hif := rfl
@[simp] theorem modHdr_rings (k : Nat) (f : Hdr → Hdr) (d : Dev) : (modHdr k f d).rings = d.rings := rfl
@[simp] theorem modHdr_tb (k : Nat) (f : Hdr → Hdr) (d : Dev) : (modHdr k f d).tb = d.tb := rfl
@[simp] theorem modHdr_weir (k : Nat) (f : Hdr → Hdr) (d : Dev) : (modHdr k f d).weir = d.weir := rfl
@[simp] theorem modHdr_slots (k : Nat) (f : Hdr → Hdr) (d : Dev) : (modHdr k f d).slots = d.slots := rfl
@[simp] theorem modHdr_buses (k : Nat) (f : Hdr → Hdr) (d : Dev) : (modHdr k f d).buses = d.buses := rfl
@[simp] theorem modHdr_path (k : Nat) (f : Hdr → Hdr) (d : Dev) : (modHdr k f d).path = d.path := rfl
@[simp] theorem modHdr_ports (k : Nat) (f : Hdr → Hdr) (d : Dev) : (modHdr k f d).ports = d.ports := rfl
@[simp] theorem modHdr_mgmt (k : Nat) (f : Hdr → Hdr) (d : Dev) : (modHdr k f d).mgmt = d.mgmt := rfl
@[simp] theorem modHdr_twin (k : Nat) (f : Hdr → Hdr) (d : Dev) : (modHdr k f d).twin = d.twin := rfl
@[simp] theorem modHdr_recd (k : Nat) (f : Hdr → Hdr) (d : Dev) : (modHdr k f d).recd = d.recd := rfl
@[simp] theorem modHdr_flash (k : Nat) (f : Hdr → Hdr) (d : Dev) : (modHdr k f d).flash = d.flash := rfl
@[simp] theorem modHdr_lfe (k : Nat) (f : Hdr → Hdr) (d : Dev) : (modHdr k f d).lfe = d.lfe := rfl
@[simp] theorem modHdr_sce (k : Nat) (f : Hdr → Hdr) (d : Dev) : (modHdr k f d).sce = d.sce := rfl
@[simp] theorem modHdr_tarns (k : Nat) (f : Hdr → Hdr) (d : Dev) : (modHdr k f d).tarns = d.tarns := rfl
@[simp] theorem modHdr_clu (k : Nat) (f : Hdr → Hdr) (d : Dev) : (modHdr k f d).clu = d.clu := rfl
@[simp] theorem modHdr_fab (k : Nat) (f : Hdr → Hdr) (d : Dev) : (modHdr k f d).fab = d.fab := rfl
@[simp] theorem modHdr_chw (k : Nat) (f : Hdr → Hdr) (d : Dev) : (modHdr k f d).chw = d.chw := rfl
@[simp] theorem modHdr_progs (k : Nat) (f : Hdr → Hdr) (d : Dev) : (modHdr k f d).progs = d.progs := rfl
@[simp] theorem modHdr_load (k : Nat) (f : Hdr → Hdr) (d : Dev) : (modHdr k f d).load = d.load := rfl
@[simp] theorem modHdr_closing (k : Nat) (f : Hdr → Hdr) (d : Dev) : (modHdr k f d).closing = d.closing := rfl
@[simp] theorem modHdr_nextFree (k : Nat) (f : Hdr → Hdr) (d : Dev) : (modHdr k f d).nextFree = d.nextFree := rfl
@[simp] theorem modHdr_basin (k : Nat) (f : Hdr → Hdr) (d : Dev) : (modHdr k f d).basin = d.basin := rfl
@[simp] theorem modHdr_poison (k : Nat) (f : Hdr → Hdr) (d : Dev) : (modHdr k f d).poison = d.poison := rfl
@[simp] theorem modHdr_dram (k : Nat) (f : Hdr → Hdr) (d : Dev) : (modHdr k f d).dram = d.dram := rfl
@[simp] theorem modHdr_pwr (k : Nat) (f : Hdr → Hdr) (d : Dev) : (modHdr k f d).pwr = d.pwr := rfl
@[simp] theorem modHdr_fresh (k : Nat) (f : Hdr → Hdr) (d : Dev) : (modHdr k f d).fresh = d.fresh := rfl
@[simp] theorem modHdr_outbox (k : Nat) (f : Hdr → Hdr) (d : Dev) : (modHdr k f d).outbox = d.outbox := rfl

/-! ### modRing changes rings only -/

@[simp] theorem modRing_regs (k : Nat) (f : Ring → Ring) (d : Dev) : (modRing k f d).regs = d.regs := rfl
@[simp] theorem modRing_pages (k : Nat) (f : Ring → Ring) (d : Dev) : (modRing k f d).pages = d.pages := rfl
@[simp] theorem modRing_frozen (k : Nat) (f : Ring → Ring) (d : Dev) : (modRing k f d).frozen = d.frozen := rfl
@[simp] theorem modRing_raised (k : Nat) (f : Ring → Ring) (d : Dev) : (modRing k f d).raised = d.raised := rfl
@[simp] theorem modRing_hif (k : Nat) (f : Ring → Ring) (d : Dev) : (modRing k f d).hif = d.hif := rfl
@[simp] theorem modRing_tb (k : Nat) (f : Ring → Ring) (d : Dev) : (modRing k f d).tb = d.tb := rfl
@[simp] theorem modRing_weir (k : Nat) (f : Ring → Ring) (d : Dev) : (modRing k f d).weir = d.weir := rfl
@[simp] theorem modRing_slots (k : Nat) (f : Ring → Ring) (d : Dev) : (modRing k f d).slots = d.slots := rfl
@[simp] theorem modRing_buses (k : Nat) (f : Ring → Ring) (d : Dev) : (modRing k f d).buses = d.buses := rfl
@[simp] theorem modRing_path (k : Nat) (f : Ring → Ring) (d : Dev) : (modRing k f d).path = d.path := rfl
@[simp] theorem modRing_ports (k : Nat) (f : Ring → Ring) (d : Dev) : (modRing k f d).ports = d.ports := rfl
@[simp] theorem modRing_mgmt (k : Nat) (f : Ring → Ring) (d : Dev) : (modRing k f d).mgmt = d.mgmt := rfl
@[simp] theorem modRing_twin (k : Nat) (f : Ring → Ring) (d : Dev) : (modRing k f d).twin = d.twin := rfl
@[simp] theorem modRing_recd (k : Nat) (f : Ring → Ring) (d : Dev) : (modRing k f d).recd = d.recd := rfl
@[simp] theorem modRing_flash (k : Nat) (f : Ring → Ring) (d : Dev) : (modRing k f d).flash = d.flash := rfl
@[simp] theorem modRing_lfe (k : Nat) (f : Ring → Ring) (d : Dev) : (modRing k f d).lfe = d.lfe := rfl
@[simp] theorem modRing_sce (k : Nat) (f : Ring → Ring) (d : Dev) : (modRing k f d).sce = d.sce := rfl
@[simp] theorem modRing_tarns (k : Nat) (f : Ring → Ring) (d : Dev) : (modRing k f d).tarns = d.tarns := rfl
@[simp] theorem modRing_clu (k : Nat) (f : Ring → Ring) (d : Dev) : (modRing k f d).clu = d.clu := rfl
@[simp] theorem modRing_fab (k : Nat) (f : Ring → Ring) (d : Dev) : (modRing k f d).fab = d.fab := rfl
@[simp] theorem modRing_chw (k : Nat) (f : Ring → Ring) (d : Dev) : (modRing k f d).chw = d.chw := rfl
@[simp] theorem modRing_progs (k : Nat) (f : Ring → Ring) (d : Dev) : (modRing k f d).progs = d.progs := rfl
@[simp] theorem modRing_load (k : Nat) (f : Ring → Ring) (d : Dev) : (modRing k f d).load = d.load := rfl
@[simp] theorem modRing_closing (k : Nat) (f : Ring → Ring) (d : Dev) : (modRing k f d).closing = d.closing := rfl
@[simp] theorem modRing_nextFree (k : Nat) (f : Ring → Ring) (d : Dev) : (modRing k f d).nextFree = d.nextFree := rfl
@[simp] theorem modRing_basin (k : Nat) (f : Ring → Ring) (d : Dev) : (modRing k f d).basin = d.basin := rfl
@[simp] theorem modRing_poison (k : Nat) (f : Ring → Ring) (d : Dev) : (modRing k f d).poison = d.poison := rfl
@[simp] theorem modRing_dram (k : Nat) (f : Ring → Ring) (d : Dev) : (modRing k f d).dram = d.dram := rfl
@[simp] theorem modRing_pwr (k : Nat) (f : Ring → Ring) (d : Dev) : (modRing k f d).pwr = d.pwr := rfl
@[simp] theorem modRing_fresh (k : Nat) (f : Ring → Ring) (d : Dev) : (modRing k f d).fresh = d.fresh := rfl
@[simp] theorem modRing_outbox (k : Nat) (f : Ring → Ring) (d : Dev) : (modRing k f d).outbox = d.outbox := rfl

/-! ### modTb changes tb only -/

@[simp] theorem modTb_regs (f : TimeBase → TimeBase) (d : Dev) : (modTb f d).regs = d.regs := rfl
@[simp] theorem modTb_pages (f : TimeBase → TimeBase) (d : Dev) : (modTb f d).pages = d.pages := rfl
@[simp] theorem modTb_frozen (f : TimeBase → TimeBase) (d : Dev) : (modTb f d).frozen = d.frozen := rfl
@[simp] theorem modTb_raised (f : TimeBase → TimeBase) (d : Dev) : (modTb f d).raised = d.raised := rfl
@[simp] theorem modTb_hif (f : TimeBase → TimeBase) (d : Dev) : (modTb f d).hif = d.hif := rfl
@[simp] theorem modTb_rings (f : TimeBase → TimeBase) (d : Dev) : (modTb f d).rings = d.rings := rfl
@[simp] theorem modTb_weir (f : TimeBase → TimeBase) (d : Dev) : (modTb f d).weir = d.weir := rfl
@[simp] theorem modTb_slots (f : TimeBase → TimeBase) (d : Dev) : (modTb f d).slots = d.slots := rfl
@[simp] theorem modTb_buses (f : TimeBase → TimeBase) (d : Dev) : (modTb f d).buses = d.buses := rfl
@[simp] theorem modTb_path (f : TimeBase → TimeBase) (d : Dev) : (modTb f d).path = d.path := rfl
@[simp] theorem modTb_ports (f : TimeBase → TimeBase) (d : Dev) : (modTb f d).ports = d.ports := rfl
@[simp] theorem modTb_mgmt (f : TimeBase → TimeBase) (d : Dev) : (modTb f d).mgmt = d.mgmt := rfl
@[simp] theorem modTb_twin (f : TimeBase → TimeBase) (d : Dev) : (modTb f d).twin = d.twin := rfl
@[simp] theorem modTb_recd (f : TimeBase → TimeBase) (d : Dev) : (modTb f d).recd = d.recd := rfl
@[simp] theorem modTb_flash (f : TimeBase → TimeBase) (d : Dev) : (modTb f d).flash = d.flash := rfl
@[simp] theorem modTb_lfe (f : TimeBase → TimeBase) (d : Dev) : (modTb f d).lfe = d.lfe := rfl
@[simp] theorem modTb_sce (f : TimeBase → TimeBase) (d : Dev) : (modTb f d).sce = d.sce := rfl
@[simp] theorem modTb_tarns (f : TimeBase → TimeBase) (d : Dev) : (modTb f d).tarns = d.tarns := rfl
@[simp] theorem modTb_clu (f : TimeBase → TimeBase) (d : Dev) : (modTb f d).clu = d.clu := rfl
@[simp] theorem modTb_fab (f : TimeBase → TimeBase) (d : Dev) : (modTb f d).fab = d.fab := rfl
@[simp] theorem modTb_chw (f : TimeBase → TimeBase) (d : Dev) : (modTb f d).chw = d.chw := rfl
@[simp] theorem modTb_progs (f : TimeBase → TimeBase) (d : Dev) : (modTb f d).progs = d.progs := rfl
@[simp] theorem modTb_load (f : TimeBase → TimeBase) (d : Dev) : (modTb f d).load = d.load := rfl
@[simp] theorem modTb_closing (f : TimeBase → TimeBase) (d : Dev) : (modTb f d).closing = d.closing := rfl
@[simp] theorem modTb_nextFree (f : TimeBase → TimeBase) (d : Dev) : (modTb f d).nextFree = d.nextFree := rfl
@[simp] theorem modTb_basin (f : TimeBase → TimeBase) (d : Dev) : (modTb f d).basin = d.basin := rfl
@[simp] theorem modTb_poison (f : TimeBase → TimeBase) (d : Dev) : (modTb f d).poison = d.poison := rfl
@[simp] theorem modTb_dram (f : TimeBase → TimeBase) (d : Dev) : (modTb f d).dram = d.dram := rfl
@[simp] theorem modTb_pwr (f : TimeBase → TimeBase) (d : Dev) : (modTb f d).pwr = d.pwr := rfl
@[simp] theorem modTb_fresh (f : TimeBase → TimeBase) (d : Dev) : (modTb f d).fresh = d.fresh := rfl
@[simp] theorem modTb_outbox (f : TimeBase → TimeBase) (d : Dev) : (modTb f d).outbox = d.outbox := rfl

/-! ### modWeir changes weir only -/

@[simp] theorem modWeir_regs (f : Weir → Weir) (d : Dev) : (modWeir f d).regs = d.regs := rfl
@[simp] theorem modWeir_pages (f : Weir → Weir) (d : Dev) : (modWeir f d).pages = d.pages := rfl
@[simp] theorem modWeir_frozen (f : Weir → Weir) (d : Dev) : (modWeir f d).frozen = d.frozen := rfl
@[simp] theorem modWeir_raised (f : Weir → Weir) (d : Dev) : (modWeir f d).raised = d.raised := rfl
@[simp] theorem modWeir_hif (f : Weir → Weir) (d : Dev) : (modWeir f d).hif = d.hif := rfl
@[simp] theorem modWeir_rings (f : Weir → Weir) (d : Dev) : (modWeir f d).rings = d.rings := rfl
@[simp] theorem modWeir_tb (f : Weir → Weir) (d : Dev) : (modWeir f d).tb = d.tb := rfl
@[simp] theorem modWeir_slots (f : Weir → Weir) (d : Dev) : (modWeir f d).slots = d.slots := rfl
@[simp] theorem modWeir_buses (f : Weir → Weir) (d : Dev) : (modWeir f d).buses = d.buses := rfl
@[simp] theorem modWeir_path (f : Weir → Weir) (d : Dev) : (modWeir f d).path = d.path := rfl
@[simp] theorem modWeir_ports (f : Weir → Weir) (d : Dev) : (modWeir f d).ports = d.ports := rfl
@[simp] theorem modWeir_mgmt (f : Weir → Weir) (d : Dev) : (modWeir f d).mgmt = d.mgmt := rfl
@[simp] theorem modWeir_twin (f : Weir → Weir) (d : Dev) : (modWeir f d).twin = d.twin := rfl
@[simp] theorem modWeir_recd (f : Weir → Weir) (d : Dev) : (modWeir f d).recd = d.recd := rfl
@[simp] theorem modWeir_flash (f : Weir → Weir) (d : Dev) : (modWeir f d).flash = d.flash := rfl
@[simp] theorem modWeir_lfe (f : Weir → Weir) (d : Dev) : (modWeir f d).lfe = d.lfe := rfl
@[simp] theorem modWeir_sce (f : Weir → Weir) (d : Dev) : (modWeir f d).sce = d.sce := rfl
@[simp] theorem modWeir_tarns (f : Weir → Weir) (d : Dev) : (modWeir f d).tarns = d.tarns := rfl
@[simp] theorem modWeir_clu (f : Weir → Weir) (d : Dev) : (modWeir f d).clu = d.clu := rfl
@[simp] theorem modWeir_fab (f : Weir → Weir) (d : Dev) : (modWeir f d).fab = d.fab := rfl
@[simp] theorem modWeir_chw (f : Weir → Weir) (d : Dev) : (modWeir f d).chw = d.chw := rfl
@[simp] theorem modWeir_progs (f : Weir → Weir) (d : Dev) : (modWeir f d).progs = d.progs := rfl
@[simp] theorem modWeir_load (f : Weir → Weir) (d : Dev) : (modWeir f d).load = d.load := rfl
@[simp] theorem modWeir_closing (f : Weir → Weir) (d : Dev) : (modWeir f d).closing = d.closing := rfl
@[simp] theorem modWeir_nextFree (f : Weir → Weir) (d : Dev) : (modWeir f d).nextFree = d.nextFree := rfl
@[simp] theorem modWeir_basin (f : Weir → Weir) (d : Dev) : (modWeir f d).basin = d.basin := rfl
@[simp] theorem modWeir_poison (f : Weir → Weir) (d : Dev) : (modWeir f d).poison = d.poison := rfl
@[simp] theorem modWeir_dram (f : Weir → Weir) (d : Dev) : (modWeir f d).dram = d.dram := rfl
@[simp] theorem modWeir_pwr (f : Weir → Weir) (d : Dev) : (modWeir f d).pwr = d.pwr := rfl
@[simp] theorem modWeir_fresh (f : Weir → Weir) (d : Dev) : (modWeir f d).fresh = d.fresh := rfl
@[simp] theorem modWeir_outbox (f : Weir → Weir) (d : Dev) : (modWeir f d).outbox = d.outbox := rfl

/-! ### setDl changes weir only -/

@[simp] theorem setDl_regs (n : Nat) (l : List DEvent) (d : Dev) : (setDl n l d).regs = d.regs := rfl
@[simp] theorem setDl_pages (n : Nat) (l : List DEvent) (d : Dev) : (setDl n l d).pages = d.pages := rfl
@[simp] theorem setDl_frozen (n : Nat) (l : List DEvent) (d : Dev) : (setDl n l d).frozen = d.frozen := rfl
@[simp] theorem setDl_raised (n : Nat) (l : List DEvent) (d : Dev) : (setDl n l d).raised = d.raised := rfl
@[simp] theorem setDl_hif (n : Nat) (l : List DEvent) (d : Dev) : (setDl n l d).hif = d.hif := rfl
@[simp] theorem setDl_rings (n : Nat) (l : List DEvent) (d : Dev) : (setDl n l d).rings = d.rings := rfl
@[simp] theorem setDl_tb (n : Nat) (l : List DEvent) (d : Dev) : (setDl n l d).tb = d.tb := rfl
@[simp] theorem setDl_slots (n : Nat) (l : List DEvent) (d : Dev) : (setDl n l d).slots = d.slots := rfl
@[simp] theorem setDl_buses (n : Nat) (l : List DEvent) (d : Dev) : (setDl n l d).buses = d.buses := rfl
@[simp] theorem setDl_path (n : Nat) (l : List DEvent) (d : Dev) : (setDl n l d).path = d.path := rfl
@[simp] theorem setDl_ports (n : Nat) (l : List DEvent) (d : Dev) : (setDl n l d).ports = d.ports := rfl
@[simp] theorem setDl_mgmt (n : Nat) (l : List DEvent) (d : Dev) : (setDl n l d).mgmt = d.mgmt := rfl
@[simp] theorem setDl_twin (n : Nat) (l : List DEvent) (d : Dev) : (setDl n l d).twin = d.twin := rfl
@[simp] theorem setDl_recd (n : Nat) (l : List DEvent) (d : Dev) : (setDl n l d).recd = d.recd := rfl
@[simp] theorem setDl_flash (n : Nat) (l : List DEvent) (d : Dev) : (setDl n l d).flash = d.flash := rfl
@[simp] theorem setDl_lfe (n : Nat) (l : List DEvent) (d : Dev) : (setDl n l d).lfe = d.lfe := rfl
@[simp] theorem setDl_sce (n : Nat) (l : List DEvent) (d : Dev) : (setDl n l d).sce = d.sce := rfl
@[simp] theorem setDl_tarns (n : Nat) (l : List DEvent) (d : Dev) : (setDl n l d).tarns = d.tarns := rfl
@[simp] theorem setDl_clu (n : Nat) (l : List DEvent) (d : Dev) : (setDl n l d).clu = d.clu := rfl
@[simp] theorem setDl_fab (n : Nat) (l : List DEvent) (d : Dev) : (setDl n l d).fab = d.fab := rfl
@[simp] theorem setDl_chw (n : Nat) (l : List DEvent) (d : Dev) : (setDl n l d).chw = d.chw := rfl
@[simp] theorem setDl_progs (n : Nat) (l : List DEvent) (d : Dev) : (setDl n l d).progs = d.progs := rfl
@[simp] theorem setDl_load (n : Nat) (l : List DEvent) (d : Dev) : (setDl n l d).load = d.load := rfl
@[simp] theorem setDl_closing (n : Nat) (l : List DEvent) (d : Dev) : (setDl n l d).closing = d.closing := rfl
@[simp] theorem setDl_nextFree (n : Nat) (l : List DEvent) (d : Dev) : (setDl n l d).nextFree = d.nextFree := rfl
@[simp] theorem setDl_basin (n : Nat) (l : List DEvent) (d : Dev) : (setDl n l d).basin = d.basin := rfl
@[simp] theorem setDl_poison (n : Nat) (l : List DEvent) (d : Dev) : (setDl n l d).poison = d.poison := rfl
@[simp] theorem setDl_dram (n : Nat) (l : List DEvent) (d : Dev) : (setDl n l d).dram = d.dram := rfl
@[simp] theorem setDl_pwr (n : Nat) (l : List DEvent) (d : Dev) : (setDl n l d).pwr = d.pwr := rfl
@[simp] theorem setDl_fresh (n : Nat) (l : List DEvent) (d : Dev) : (setDl n l d).fresh = d.fresh := rfl
@[simp] theorem setDl_outbox (n : Nat) (l : List DEvent) (d : Dev) : (setDl n l d).outbox = d.outbox := rfl

/-! ### modSlot changes slots only -/

@[simp] theorem modSlot_regs (k : Nat) (f : Slot → Slot) (d : Dev) : (modSlot k f d).regs = d.regs := rfl
@[simp] theorem modSlot_pages (k : Nat) (f : Slot → Slot) (d : Dev) : (modSlot k f d).pages = d.pages := rfl
@[simp] theorem modSlot_frozen (k : Nat) (f : Slot → Slot) (d : Dev) : (modSlot k f d).frozen = d.frozen := rfl
@[simp] theorem modSlot_raised (k : Nat) (f : Slot → Slot) (d : Dev) : (modSlot k f d).raised = d.raised := rfl
@[simp] theorem modSlot_hif (k : Nat) (f : Slot → Slot) (d : Dev) : (modSlot k f d).hif = d.hif := rfl
@[simp] theorem modSlot_rings (k : Nat) (f : Slot → Slot) (d : Dev) : (modSlot k f d).rings = d.rings := rfl
@[simp] theorem modSlot_tb (k : Nat) (f : Slot → Slot) (d : Dev) : (modSlot k f d).tb = d.tb := rfl
@[simp] theorem modSlot_weir (k : Nat) (f : Slot → Slot) (d : Dev) : (modSlot k f d).weir = d.weir := rfl
@[simp] theorem modSlot_buses (k : Nat) (f : Slot → Slot) (d : Dev) : (modSlot k f d).buses = d.buses := rfl
@[simp] theorem modSlot_path (k : Nat) (f : Slot → Slot) (d : Dev) : (modSlot k f d).path = d.path := rfl
@[simp] theorem modSlot_ports (k : Nat) (f : Slot → Slot) (d : Dev) : (modSlot k f d).ports = d.ports := rfl
@[simp] theorem modSlot_mgmt (k : Nat) (f : Slot → Slot) (d : Dev) : (modSlot k f d).mgmt = d.mgmt := rfl
@[simp] theorem modSlot_twin (k : Nat) (f : Slot → Slot) (d : Dev) : (modSlot k f d).twin = d.twin := rfl
@[simp] theorem modSlot_recd (k : Nat) (f : Slot → Slot) (d : Dev) : (modSlot k f d).recd = d.recd := rfl
@[simp] theorem modSlot_flash (k : Nat) (f : Slot → Slot) (d : Dev) : (modSlot k f d).flash = d.flash := rfl
@[simp] theorem modSlot_lfe (k : Nat) (f : Slot → Slot) (d : Dev) : (modSlot k f d).lfe = d.lfe := rfl
@[simp] theorem modSlot_sce (k : Nat) (f : Slot → Slot) (d : Dev) : (modSlot k f d).sce = d.sce := rfl
@[simp] theorem modSlot_tarns (k : Nat) (f : Slot → Slot) (d : Dev) : (modSlot k f d).tarns = d.tarns := rfl
@[simp] theorem modSlot_clu (k : Nat) (f : Slot → Slot) (d : Dev) : (modSlot k f d).clu = d.clu := rfl
@[simp] theorem modSlot_fab (k : Nat) (f : Slot → Slot) (d : Dev) : (modSlot k f d).fab = d.fab := rfl
@[simp] theorem modSlot_chw (k : Nat) (f : Slot → Slot) (d : Dev) : (modSlot k f d).chw = d.chw := rfl
@[simp] theorem modSlot_progs (k : Nat) (f : Slot → Slot) (d : Dev) : (modSlot k f d).progs = d.progs := rfl
@[simp] theorem modSlot_load (k : Nat) (f : Slot → Slot) (d : Dev) : (modSlot k f d).load = d.load := rfl
@[simp] theorem modSlot_closing (k : Nat) (f : Slot → Slot) (d : Dev) : (modSlot k f d).closing = d.closing := rfl
@[simp] theorem modSlot_nextFree (k : Nat) (f : Slot → Slot) (d : Dev) : (modSlot k f d).nextFree = d.nextFree := rfl
@[simp] theorem modSlot_basin (k : Nat) (f : Slot → Slot) (d : Dev) : (modSlot k f d).basin = d.basin := rfl
@[simp] theorem modSlot_poison (k : Nat) (f : Slot → Slot) (d : Dev) : (modSlot k f d).poison = d.poison := rfl
@[simp] theorem modSlot_dram (k : Nat) (f : Slot → Slot) (d : Dev) : (modSlot k f d).dram = d.dram := rfl
@[simp] theorem modSlot_pwr (k : Nat) (f : Slot → Slot) (d : Dev) : (modSlot k f d).pwr = d.pwr := rfl
@[simp] theorem modSlot_fresh (k : Nat) (f : Slot → Slot) (d : Dev) : (modSlot k f d).fresh = d.fresh := rfl
@[simp] theorem modSlot_outbox (k : Nat) (f : Slot → Slot) (d : Dev) : (modSlot k f d).outbox = d.outbox := rfl

/-! ### modLeg changes slots only -/

@[simp] theorem modLeg_regs (k l : Nat) (f : Leg → Leg) (d : Dev) : (modLeg k l f d).regs = d.regs := rfl
@[simp] theorem modLeg_pages (k l : Nat) (f : Leg → Leg) (d : Dev) : (modLeg k l f d).pages = d.pages := rfl
@[simp] theorem modLeg_frozen (k l : Nat) (f : Leg → Leg) (d : Dev) : (modLeg k l f d).frozen = d.frozen := rfl
@[simp] theorem modLeg_raised (k l : Nat) (f : Leg → Leg) (d : Dev) : (modLeg k l f d).raised = d.raised := rfl
@[simp] theorem modLeg_hif (k l : Nat) (f : Leg → Leg) (d : Dev) : (modLeg k l f d).hif = d.hif := rfl
@[simp] theorem modLeg_rings (k l : Nat) (f : Leg → Leg) (d : Dev) : (modLeg k l f d).rings = d.rings := rfl
@[simp] theorem modLeg_tb (k l : Nat) (f : Leg → Leg) (d : Dev) : (modLeg k l f d).tb = d.tb := rfl
@[simp] theorem modLeg_weir (k l : Nat) (f : Leg → Leg) (d : Dev) : (modLeg k l f d).weir = d.weir := rfl
@[simp] theorem modLeg_buses (k l : Nat) (f : Leg → Leg) (d : Dev) : (modLeg k l f d).buses = d.buses := rfl
@[simp] theorem modLeg_path (k l : Nat) (f : Leg → Leg) (d : Dev) : (modLeg k l f d).path = d.path := rfl
@[simp] theorem modLeg_ports (k l : Nat) (f : Leg → Leg) (d : Dev) : (modLeg k l f d).ports = d.ports := rfl
@[simp] theorem modLeg_mgmt (k l : Nat) (f : Leg → Leg) (d : Dev) : (modLeg k l f d).mgmt = d.mgmt := rfl
@[simp] theorem modLeg_twin (k l : Nat) (f : Leg → Leg) (d : Dev) : (modLeg k l f d).twin = d.twin := rfl
@[simp] theorem modLeg_recd (k l : Nat) (f : Leg → Leg) (d : Dev) : (modLeg k l f d).recd = d.recd := rfl
@[simp] theorem modLeg_flash (k l : Nat) (f : Leg → Leg) (d : Dev) : (modLeg k l f d).flash = d.flash := rfl
@[simp] theorem modLeg_lfe (k l : Nat) (f : Leg → Leg) (d : Dev) : (modLeg k l f d).lfe = d.lfe := rfl
@[simp] theorem modLeg_sce (k l : Nat) (f : Leg → Leg) (d : Dev) : (modLeg k l f d).sce = d.sce := rfl
@[simp] theorem modLeg_tarns (k l : Nat) (f : Leg → Leg) (d : Dev) : (modLeg k l f d).tarns = d.tarns := rfl
@[simp] theorem modLeg_clu (k l : Nat) (f : Leg → Leg) (d : Dev) : (modLeg k l f d).clu = d.clu := rfl
@[simp] theorem modLeg_fab (k l : Nat) (f : Leg → Leg) (d : Dev) : (modLeg k l f d).fab = d.fab := rfl
@[simp] theorem modLeg_chw (k l : Nat) (f : Leg → Leg) (d : Dev) : (modLeg k l f d).chw = d.chw := rfl
@[simp] theorem modLeg_progs (k l : Nat) (f : Leg → Leg) (d : Dev) : (modLeg k l f d).progs = d.progs := rfl
@[simp] theorem modLeg_load (k l : Nat) (f : Leg → Leg) (d : Dev) : (modLeg k l f d).load = d.load := rfl
@[simp] theorem modLeg_closing (k l : Nat) (f : Leg → Leg) (d : Dev) : (modLeg k l f d).closing = d.closing := rfl
@[simp] theorem modLeg_nextFree (k l : Nat) (f : Leg → Leg) (d : Dev) : (modLeg k l f d).nextFree = d.nextFree := rfl
@[simp] theorem modLeg_basin (k l : Nat) (f : Leg → Leg) (d : Dev) : (modLeg k l f d).basin = d.basin := rfl
@[simp] theorem modLeg_poison (k l : Nat) (f : Leg → Leg) (d : Dev) : (modLeg k l f d).poison = d.poison := rfl
@[simp] theorem modLeg_dram (k l : Nat) (f : Leg → Leg) (d : Dev) : (modLeg k l f d).dram = d.dram := rfl
@[simp] theorem modLeg_pwr (k l : Nat) (f : Leg → Leg) (d : Dev) : (modLeg k l f d).pwr = d.pwr := rfl
@[simp] theorem modLeg_fresh (k l : Nat) (f : Leg → Leg) (d : Dev) : (modLeg k l f d).fresh = d.fresh := rfl
@[simp] theorem modLeg_outbox (k l : Nat) (f : Leg → Leg) (d : Dev) : (modLeg k l f d).outbox = d.outbox := rfl

/-! ### modBus changes buses only -/

@[simp] theorem modBus_regs (k : Nat) (f : Bus → Bus) (d : Dev) : (modBus k f d).regs = d.regs := rfl
@[simp] theorem modBus_pages (k : Nat) (f : Bus → Bus) (d : Dev) : (modBus k f d).pages = d.pages := rfl
@[simp] theorem modBus_frozen (k : Nat) (f : Bus → Bus) (d : Dev) : (modBus k f d).frozen = d.frozen := rfl
@[simp] theorem modBus_raised (k : Nat) (f : Bus → Bus) (d : Dev) : (modBus k f d).raised = d.raised := rfl
@[simp] theorem modBus_hif (k : Nat) (f : Bus → Bus) (d : Dev) : (modBus k f d).hif = d.hif := rfl
@[simp] theorem modBus_rings (k : Nat) (f : Bus → Bus) (d : Dev) : (modBus k f d).rings = d.rings := rfl
@[simp] theorem modBus_tb (k : Nat) (f : Bus → Bus) (d : Dev) : (modBus k f d).tb = d.tb := rfl
@[simp] theorem modBus_weir (k : Nat) (f : Bus → Bus) (d : Dev) : (modBus k f d).weir = d.weir := rfl
@[simp] theorem modBus_slots (k : Nat) (f : Bus → Bus) (d : Dev) : (modBus k f d).slots = d.slots := rfl
@[simp] theorem modBus_path (k : Nat) (f : Bus → Bus) (d : Dev) : (modBus k f d).path = d.path := rfl
@[simp] theorem modBus_ports (k : Nat) (f : Bus → Bus) (d : Dev) : (modBus k f d).ports = d.ports := rfl
@[simp] theorem modBus_mgmt (k : Nat) (f : Bus → Bus) (d : Dev) : (modBus k f d).mgmt = d.mgmt := rfl
@[simp] theorem modBus_twin (k : Nat) (f : Bus → Bus) (d : Dev) : (modBus k f d).twin = d.twin := rfl
@[simp] theorem modBus_recd (k : Nat) (f : Bus → Bus) (d : Dev) : (modBus k f d).recd = d.recd := rfl
@[simp] theorem modBus_flash (k : Nat) (f : Bus → Bus) (d : Dev) : (modBus k f d).flash = d.flash := rfl
@[simp] theorem modBus_lfe (k : Nat) (f : Bus → Bus) (d : Dev) : (modBus k f d).lfe = d.lfe := rfl
@[simp] theorem modBus_sce (k : Nat) (f : Bus → Bus) (d : Dev) : (modBus k f d).sce = d.sce := rfl
@[simp] theorem modBus_tarns (k : Nat) (f : Bus → Bus) (d : Dev) : (modBus k f d).tarns = d.tarns := rfl
@[simp] theorem modBus_clu (k : Nat) (f : Bus → Bus) (d : Dev) : (modBus k f d).clu = d.clu := rfl
@[simp] theorem modBus_fab (k : Nat) (f : Bus → Bus) (d : Dev) : (modBus k f d).fab = d.fab := rfl
@[simp] theorem modBus_chw (k : Nat) (f : Bus → Bus) (d : Dev) : (modBus k f d).chw = d.chw := rfl
@[simp] theorem modBus_progs (k : Nat) (f : Bus → Bus) (d : Dev) : (modBus k f d).progs = d.progs := rfl
@[simp] theorem modBus_load (k : Nat) (f : Bus → Bus) (d : Dev) : (modBus k f d).load = d.load := rfl
@[simp] theorem modBus_closing (k : Nat) (f : Bus → Bus) (d : Dev) : (modBus k f d).closing = d.closing := rfl
@[simp] theorem modBus_nextFree (k : Nat) (f : Bus → Bus) (d : Dev) : (modBus k f d).nextFree = d.nextFree := rfl
@[simp] theorem modBus_basin (k : Nat) (f : Bus → Bus) (d : Dev) : (modBus k f d).basin = d.basin := rfl
@[simp] theorem modBus_poison (k : Nat) (f : Bus → Bus) (d : Dev) : (modBus k f d).poison = d.poison := rfl
@[simp] theorem modBus_dram (k : Nat) (f : Bus → Bus) (d : Dev) : (modBus k f d).dram = d.dram := rfl
@[simp] theorem modBus_pwr (k : Nat) (f : Bus → Bus) (d : Dev) : (modBus k f d).pwr = d.pwr := rfl
@[simp] theorem modBus_fresh (k : Nat) (f : Bus → Bus) (d : Dev) : (modBus k f d).fresh = d.fresh := rfl
@[simp] theorem modBus_outbox (k : Nat) (f : Bus → Bus) (d : Dev) : (modBus k f d).outbox = d.outbox := rfl

/-! ### modFlow changes path only -/

@[simp] theorem modFlow_regs (k : Nat) (f : Flow → Flow) (d : Dev) : (modFlow k f d).regs = d.regs := rfl
@[simp] theorem modFlow_pages (k : Nat) (f : Flow → Flow) (d : Dev) : (modFlow k f d).pages = d.pages := rfl
@[simp] theorem modFlow_frozen (k : Nat) (f : Flow → Flow) (d : Dev) : (modFlow k f d).frozen = d.frozen := rfl
@[simp] theorem modFlow_raised (k : Nat) (f : Flow → Flow) (d : Dev) : (modFlow k f d).raised = d.raised := rfl
@[simp] theorem modFlow_hif (k : Nat) (f : Flow → Flow) (d : Dev) : (modFlow k f d).hif = d.hif := rfl
@[simp] theorem modFlow_rings (k : Nat) (f : Flow → Flow) (d : Dev) : (modFlow k f d).rings = d.rings := rfl
@[simp] theorem modFlow_tb (k : Nat) (f : Flow → Flow) (d : Dev) : (modFlow k f d).tb = d.tb := rfl
@[simp] theorem modFlow_weir (k : Nat) (f : Flow → Flow) (d : Dev) : (modFlow k f d).weir = d.weir := rfl
@[simp] theorem modFlow_slots (k : Nat) (f : Flow → Flow) (d : Dev) : (modFlow k f d).slots = d.slots := rfl
@[simp] theorem modFlow_buses (k : Nat) (f : Flow → Flow) (d : Dev) : (modFlow k f d).buses = d.buses := rfl
@[simp] theorem modFlow_ports (k : Nat) (f : Flow → Flow) (d : Dev) : (modFlow k f d).ports = d.ports := rfl
@[simp] theorem modFlow_mgmt (k : Nat) (f : Flow → Flow) (d : Dev) : (modFlow k f d).mgmt = d.mgmt := rfl
@[simp] theorem modFlow_twin (k : Nat) (f : Flow → Flow) (d : Dev) : (modFlow k f d).twin = d.twin := rfl
@[simp] theorem modFlow_recd (k : Nat) (f : Flow → Flow) (d : Dev) : (modFlow k f d).recd = d.recd := rfl
@[simp] theorem modFlow_flash (k : Nat) (f : Flow → Flow) (d : Dev) : (modFlow k f d).flash = d.flash := rfl
@[simp] theorem modFlow_lfe (k : Nat) (f : Flow → Flow) (d : Dev) : (modFlow k f d).lfe = d.lfe := rfl
@[simp] theorem modFlow_sce (k : Nat) (f : Flow → Flow) (d : Dev) : (modFlow k f d).sce = d.sce := rfl
@[simp] theorem modFlow_tarns (k : Nat) (f : Flow → Flow) (d : Dev) : (modFlow k f d).tarns = d.tarns := rfl
@[simp] theorem modFlow_clu (k : Nat) (f : Flow → Flow) (d : Dev) : (modFlow k f d).clu = d.clu := rfl
@[simp] theorem modFlow_fab (k : Nat) (f : Flow → Flow) (d : Dev) : (modFlow k f d).fab = d.fab := rfl
@[simp] theorem modFlow_chw (k : Nat) (f : Flow → Flow) (d : Dev) : (modFlow k f d).chw = d.chw := rfl
@[simp] theorem modFlow_progs (k : Nat) (f : Flow → Flow) (d : Dev) : (modFlow k f d).progs = d.progs := rfl
@[simp] theorem modFlow_load (k : Nat) (f : Flow → Flow) (d : Dev) : (modFlow k f d).load = d.load := rfl
@[simp] theorem modFlow_closing (k : Nat) (f : Flow → Flow) (d : Dev) : (modFlow k f d).closing = d.closing := rfl
@[simp] theorem modFlow_nextFree (k : Nat) (f : Flow → Flow) (d : Dev) : (modFlow k f d).nextFree = d.nextFree := rfl
@[simp] theorem modFlow_basin (k : Nat) (f : Flow → Flow) (d : Dev) : (modFlow k f d).basin = d.basin := rfl
@[simp] theorem modFlow_poison (k : Nat) (f : Flow → Flow) (d : Dev) : (modFlow k f d).poison = d.poison := rfl
@[simp] theorem modFlow_dram (k : Nat) (f : Flow → Flow) (d : Dev) : (modFlow k f d).dram = d.dram := rfl
@[simp] theorem modFlow_pwr (k : Nat) (f : Flow → Flow) (d : Dev) : (modFlow k f d).pwr = d.pwr := rfl
@[simp] theorem modFlow_fresh (k : Nat) (f : Flow → Flow) (d : Dev) : (modFlow k f d).fresh = d.fresh := rfl
@[simp] theorem modFlow_outbox (k : Nat) (f : Flow → Flow) (d : Dev) : (modFlow k f d).outbox = d.outbox := rfl

/-! ### modKey changes path only -/

@[simp] theorem modKey_regs (k : Nat) (f : Key → Key) (d : Dev) : (modKey k f d).regs = d.regs := rfl
@[simp] theorem modKey_pages (k : Nat) (f : Key → Key) (d : Dev) : (modKey k f d).pages = d.pages := rfl
@[simp] theorem modKey_frozen (k : Nat) (f : Key → Key) (d : Dev) : (modKey k f d).frozen = d.frozen := rfl
@[simp] theorem modKey_raised (k : Nat) (f : Key → Key) (d : Dev) : (modKey k f d).raised = d.raised := rfl
@[simp] theorem modKey_hif (k : Nat) (f : Key → Key) (d : Dev) : (modKey k f d).hif = d.hif := rfl
@[simp] theorem modKey_rings (k : Nat) (f : Key → Key) (d : Dev) : (modKey k f d).rings = d.rings := rfl
@[simp] theorem modKey_tb (k : Nat) (f : Key → Key) (d : Dev) : (modKey k f d).tb = d.tb := rfl
@[simp] theorem modKey_weir (k : Nat) (f : Key → Key) (d : Dev) : (modKey k f d).weir = d.weir := rfl
@[simp] theorem modKey_slots (k : Nat) (f : Key → Key) (d : Dev) : (modKey k f d).slots = d.slots := rfl
@[simp] theorem modKey_buses (k : Nat) (f : Key → Key) (d : Dev) : (modKey k f d).buses = d.buses := rfl
@[simp] theorem modKey_ports (k : Nat) (f : Key → Key) (d : Dev) : (modKey k f d).ports = d.ports := rfl
@[simp] theorem modKey_mgmt (k : Nat) (f : Key → Key) (d : Dev) : (modKey k f d).mgmt = d.mgmt := rfl
@[simp] theorem modKey_twin (k : Nat) (f : Key → Key) (d : Dev) : (modKey k f d).twin = d.twin := rfl
@[simp] theorem modKey_recd (k : Nat) (f : Key → Key) (d : Dev) : (modKey k f d).recd = d.recd := rfl
@[simp] theorem modKey_flash (k : Nat) (f : Key → Key) (d : Dev) : (modKey k f d).flash = d.flash := rfl
@[simp] theorem modKey_lfe (k : Nat) (f : Key → Key) (d : Dev) : (modKey k f d).lfe = d.lfe := rfl
@[simp] theorem modKey_sce (k : Nat) (f : Key → Key) (d : Dev) : (modKey k f d).sce = d.sce := rfl
@[simp] theorem modKey_tarns (k : Nat) (f : Key → Key) (d : Dev) : (modKey k f d).tarns = d.tarns := rfl
@[simp] theorem modKey_clu (k : Nat) (f : Key → Key) (d : Dev) : (modKey k f d).clu = d.clu := rfl
@[simp] theorem modKey_fab (k : Nat) (f : Key → Key) (d : Dev) : (modKey k f d).fab = d.fab := rfl
@[simp] theorem modKey_chw (k : Nat) (f : Key → Key) (d : Dev) : (modKey k f d).chw = d.chw := rfl
@[simp] theorem modKey_progs (k : Nat) (f : Key → Key) (d : Dev) : (modKey k f d).progs = d.progs := rfl
@[simp] theorem modKey_load (k : Nat) (f : Key → Key) (d : Dev) : (modKey k f d).load = d.load := rfl
@[simp] theorem modKey_closing (k : Nat) (f : Key → Key) (d : Dev) : (modKey k f d).closing = d.closing := rfl
@[simp] theorem modKey_nextFree (k : Nat) (f : Key → Key) (d : Dev) : (modKey k f d).nextFree = d.nextFree := rfl
@[simp] theorem modKey_basin (k : Nat) (f : Key → Key) (d : Dev) : (modKey k f d).basin = d.basin := rfl
@[simp] theorem modKey_poison (k : Nat) (f : Key → Key) (d : Dev) : (modKey k f d).poison = d.poison := rfl
@[simp] theorem modKey_dram (k : Nat) (f : Key → Key) (d : Dev) : (modKey k f d).dram = d.dram := rfl
@[simp] theorem modKey_pwr (k : Nat) (f : Key → Key) (d : Dev) : (modKey k f d).pwr = d.pwr := rfl
@[simp] theorem modKey_fresh (k : Nat) (f : Key → Key) (d : Dev) : (modKey k f d).fresh = d.fresh := rfl
@[simp] theorem modKey_outbox (k : Nat) (f : Key → Key) (d : Dev) : (modKey k f d).outbox = d.outbox := rfl

/-! ### modPort changes ports only -/

@[simp] theorem modPort_regs (k : Nat) (f : Port → Port) (d : Dev) : (modPort k f d).regs = d.regs := rfl
@[simp] theorem modPort_pages (k : Nat) (f : Port → Port) (d : Dev) : (modPort k f d).pages = d.pages := rfl
@[simp] theorem modPort_frozen (k : Nat) (f : Port → Port) (d : Dev) : (modPort k f d).frozen = d.frozen := rfl
@[simp] theorem modPort_raised (k : Nat) (f : Port → Port) (d : Dev) : (modPort k f d).raised = d.raised := rfl
@[simp] theorem modPort_hif (k : Nat) (f : Port → Port) (d : Dev) : (modPort k f d).hif = d.hif := rfl
@[simp] theorem modPort_rings (k : Nat) (f : Port → Port) (d : Dev) : (modPort k f d).rings = d.rings := rfl
@[simp] theorem modPort_tb (k : Nat) (f : Port → Port) (d : Dev) : (modPort k f d).tb = d.tb := rfl
@[simp] theorem modPort_weir (k : Nat) (f : Port → Port) (d : Dev) : (modPort k f d).weir = d.weir := rfl
@[simp] theorem modPort_slots (k : Nat) (f : Port → Port) (d : Dev) : (modPort k f d).slots = d.slots := rfl
@[simp] theorem modPort_buses (k : Nat) (f : Port → Port) (d : Dev) : (modPort k f d).buses = d.buses := rfl
@[simp] theorem modPort_path (k : Nat) (f : Port → Port) (d : Dev) : (modPort k f d).path = d.path := rfl
@[simp] theorem modPort_mgmt (k : Nat) (f : Port → Port) (d : Dev) : (modPort k f d).mgmt = d.mgmt := rfl
@[simp] theorem modPort_twin (k : Nat) (f : Port → Port) (d : Dev) : (modPort k f d).twin = d.twin := rfl
@[simp] theorem modPort_recd (k : Nat) (f : Port → Port) (d : Dev) : (modPort k f d).recd = d.recd := rfl
@[simp] theorem modPort_flash (k : Nat) (f : Port → Port) (d : Dev) : (modPort k f d).flash = d.flash := rfl
@[simp] theorem modPort_lfe (k : Nat) (f : Port → Port) (d : Dev) : (modPort k f d).lfe = d.lfe := rfl
@[simp] theorem modPort_sce (k : Nat) (f : Port → Port) (d : Dev) : (modPort k f d).sce = d.sce := rfl
@[simp] theorem modPort_tarns (k : Nat) (f : Port → Port) (d : Dev) : (modPort k f d).tarns = d.tarns := rfl
@[simp] theorem modPort_clu (k : Nat) (f : Port → Port) (d : Dev) : (modPort k f d).clu = d.clu := rfl
@[simp] theorem modPort_fab (k : Nat) (f : Port → Port) (d : Dev) : (modPort k f d).fab = d.fab := rfl
@[simp] theorem modPort_chw (k : Nat) (f : Port → Port) (d : Dev) : (modPort k f d).chw = d.chw := rfl
@[simp] theorem modPort_progs (k : Nat) (f : Port → Port) (d : Dev) : (modPort k f d).progs = d.progs := rfl
@[simp] theorem modPort_load (k : Nat) (f : Port → Port) (d : Dev) : (modPort k f d).load = d.load := rfl
@[simp] theorem modPort_closing (k : Nat) (f : Port → Port) (d : Dev) : (modPort k f d).closing = d.closing := rfl
@[simp] theorem modPort_nextFree (k : Nat) (f : Port → Port) (d : Dev) : (modPort k f d).nextFree = d.nextFree := rfl
@[simp] theorem modPort_basin (k : Nat) (f : Port → Port) (d : Dev) : (modPort k f d).basin = d.basin := rfl
@[simp] theorem modPort_poison (k : Nat) (f : Port → Port) (d : Dev) : (modPort k f d).poison = d.poison := rfl
@[simp] theorem modPort_dram (k : Nat) (f : Port → Port) (d : Dev) : (modPort k f d).dram = d.dram := rfl
@[simp] theorem modPort_pwr (k : Nat) (f : Port → Port) (d : Dev) : (modPort k f d).pwr = d.pwr := rfl
@[simp] theorem modPort_fresh (k : Nat) (f : Port → Port) (d : Dev) : (modPort k f d).fresh = d.fresh := rfl
@[simp] theorem modPort_outbox (k : Nat) (f : Port → Port) (d : Dev) : (modPort k f d).outbox = d.outbox := rfl

/-! ### modTwin changes twin only -/

@[simp] theorem modTwin_regs (f : Twin → Twin) (d : Dev) : (modTwin f d).regs = d.regs := rfl
@[simp] theorem modTwin_pages (f : Twin → Twin) (d : Dev) : (modTwin f d).pages = d.pages := rfl
@[simp] theorem modTwin_frozen (f : Twin → Twin) (d : Dev) : (modTwin f d).frozen = d.frozen := rfl
@[simp] theorem modTwin_raised (f : Twin → Twin) (d : Dev) : (modTwin f d).raised = d.raised := rfl
@[simp] theorem modTwin_hif (f : Twin → Twin) (d : Dev) : (modTwin f d).hif = d.hif := rfl
@[simp] theorem modTwin_rings (f : Twin → Twin) (d : Dev) : (modTwin f d).rings = d.rings := rfl
@[simp] theorem modTwin_tb (f : Twin → Twin) (d : Dev) : (modTwin f d).tb = d.tb := rfl
@[simp] theorem modTwin_weir (f : Twin → Twin) (d : Dev) : (modTwin f d).weir = d.weir := rfl
@[simp] theorem modTwin_slots (f : Twin → Twin) (d : Dev) : (modTwin f d).slots = d.slots := rfl
@[simp] theorem modTwin_buses (f : Twin → Twin) (d : Dev) : (modTwin f d).buses = d.buses := rfl
@[simp] theorem modTwin_path (f : Twin → Twin) (d : Dev) : (modTwin f d).path = d.path := rfl
@[simp] theorem modTwin_ports (f : Twin → Twin) (d : Dev) : (modTwin f d).ports = d.ports := rfl
@[simp] theorem modTwin_mgmt (f : Twin → Twin) (d : Dev) : (modTwin f d).mgmt = d.mgmt := rfl
@[simp] theorem modTwin_recd (f : Twin → Twin) (d : Dev) : (modTwin f d).recd = d.recd := rfl
@[simp] theorem modTwin_flash (f : Twin → Twin) (d : Dev) : (modTwin f d).flash = d.flash := rfl
@[simp] theorem modTwin_lfe (f : Twin → Twin) (d : Dev) : (modTwin f d).lfe = d.lfe := rfl
@[simp] theorem modTwin_sce (f : Twin → Twin) (d : Dev) : (modTwin f d).sce = d.sce := rfl
@[simp] theorem modTwin_tarns (f : Twin → Twin) (d : Dev) : (modTwin f d).tarns = d.tarns := rfl
@[simp] theorem modTwin_clu (f : Twin → Twin) (d : Dev) : (modTwin f d).clu = d.clu := rfl
@[simp] theorem modTwin_fab (f : Twin → Twin) (d : Dev) : (modTwin f d).fab = d.fab := rfl
@[simp] theorem modTwin_chw (f : Twin → Twin) (d : Dev) : (modTwin f d).chw = d.chw := rfl
@[simp] theorem modTwin_progs (f : Twin → Twin) (d : Dev) : (modTwin f d).progs = d.progs := rfl
@[simp] theorem modTwin_load (f : Twin → Twin) (d : Dev) : (modTwin f d).load = d.load := rfl
@[simp] theorem modTwin_closing (f : Twin → Twin) (d : Dev) : (modTwin f d).closing = d.closing := rfl
@[simp] theorem modTwin_nextFree (f : Twin → Twin) (d : Dev) : (modTwin f d).nextFree = d.nextFree := rfl
@[simp] theorem modTwin_basin (f : Twin → Twin) (d : Dev) : (modTwin f d).basin = d.basin := rfl
@[simp] theorem modTwin_poison (f : Twin → Twin) (d : Dev) : (modTwin f d).poison = d.poison := rfl
@[simp] theorem modTwin_dram (f : Twin → Twin) (d : Dev) : (modTwin f d).dram = d.dram := rfl
@[simp] theorem modTwin_pwr (f : Twin → Twin) (d : Dev) : (modTwin f d).pwr = d.pwr := rfl
@[simp] theorem modTwin_fresh (f : Twin → Twin) (d : Dev) : (modTwin f d).fresh = d.fresh := rfl
@[simp] theorem modTwin_outbox (f : Twin → Twin) (d : Dev) : (modTwin f d).outbox = d.outbox := rfl

/-! ### modRec changes recd only -/

@[simp] theorem modRec_regs (f : Recorder → Recorder) (d : Dev) : (modRec f d).regs = d.regs := rfl
@[simp] theorem modRec_pages (f : Recorder → Recorder) (d : Dev) : (modRec f d).pages = d.pages := rfl
@[simp] theorem modRec_frozen (f : Recorder → Recorder) (d : Dev) : (modRec f d).frozen = d.frozen := rfl
@[simp] theorem modRec_raised (f : Recorder → Recorder) (d : Dev) : (modRec f d).raised = d.raised := rfl
@[simp] theorem modRec_hif (f : Recorder → Recorder) (d : Dev) : (modRec f d).hif = d.hif := rfl
@[simp] theorem modRec_rings (f : Recorder → Recorder) (d : Dev) : (modRec f d).rings = d.rings := rfl
@[simp] theorem modRec_tb (f : Recorder → Recorder) (d : Dev) : (modRec f d).tb = d.tb := rfl
@[simp] theorem modRec_weir (f : Recorder → Recorder) (d : Dev) : (modRec f d).weir = d.weir := rfl
@[simp] theorem modRec_slots (f : Recorder → Recorder) (d : Dev) : (modRec f d).slots = d.slots := rfl
@[simp] theorem modRec_buses (f : Recorder → Recorder) (d : Dev) : (modRec f d).buses = d.buses := rfl
@[simp] theorem modRec_path (f : Recorder → Recorder) (d : Dev) : (modRec f d).path = d.path := rfl
@[simp] theorem modRec_ports (f : Recorder → Recorder) (d : Dev) : (modRec f d).ports = d.ports := rfl
@[simp] theorem modRec_mgmt (f : Recorder → Recorder) (d : Dev) : (modRec f d).mgmt = d.mgmt := rfl
@[simp] theorem modRec_twin (f : Recorder → Recorder) (d : Dev) : (modRec f d).twin = d.twin := rfl
@[simp] theorem modRec_flash (f : Recorder → Recorder) (d : Dev) : (modRec f d).flash = d.flash := rfl
@[simp] theorem modRec_lfe (f : Recorder → Recorder) (d : Dev) : (modRec f d).lfe = d.lfe := rfl
@[simp] theorem modRec_sce (f : Recorder → Recorder) (d : Dev) : (modRec f d).sce = d.sce := rfl
@[simp] theorem modRec_tarns (f : Recorder → Recorder) (d : Dev) : (modRec f d).tarns = d.tarns := rfl
@[simp] theorem modRec_clu (f : Recorder → Recorder) (d : Dev) : (modRec f d).clu = d.clu := rfl
@[simp] theorem modRec_fab (f : Recorder → Recorder) (d : Dev) : (modRec f d).fab = d.fab := rfl
@[simp] theorem modRec_chw (f : Recorder → Recorder) (d : Dev) : (modRec f d).chw = d.chw := rfl
@[simp] theorem modRec_progs (f : Recorder → Recorder) (d : Dev) : (modRec f d).progs = d.progs := rfl
@[simp] theorem modRec_load (f : Recorder → Recorder) (d : Dev) : (modRec f d).load = d.load := rfl
@[simp] theorem modRec_closing (f : Recorder → Recorder) (d : Dev) : (modRec f d).closing = d.closing := rfl
@[simp] theorem modRec_nextFree (f : Recorder → Recorder) (d : Dev) : (modRec f d).nextFree = d.nextFree := rfl
@[simp] theorem modRec_basin (f : Recorder → Recorder) (d : Dev) : (modRec f d).basin = d.basin := rfl
@[simp] theorem modRec_poison (f : Recorder → Recorder) (d : Dev) : (modRec f d).poison = d.poison := rfl
@[simp] theorem modRec_dram (f : Recorder → Recorder) (d : Dev) : (modRec f d).dram = d.dram := rfl
@[simp] theorem modRec_pwr (f : Recorder → Recorder) (d : Dev) : (modRec f d).pwr = d.pwr := rfl
@[simp] theorem modRec_fresh (f : Recorder → Recorder) (d : Dev) : (modRec f d).fresh = d.fresh := rfl
@[simp] theorem modRec_outbox (f : Recorder → Recorder) (d : Dev) : (modRec f d).outbox = d.outbox := rfl

/-! ### modSpool changes recd only -/

@[simp] theorem modSpool_regs (k : Nat) (f : Spool → Spool) (d : Dev) : (modSpool k f d).regs = d.regs := rfl
@[simp] theorem modSpool_pages (k : Nat) (f : Spool → Spool) (d : Dev) : (modSpool k f d).pages = d.pages := rfl
@[simp] theorem modSpool_frozen (k : Nat) (f : Spool → Spool) (d : Dev) : (modSpool k f d).frozen = d.frozen := rfl
@[simp] theorem modSpool_raised (k : Nat) (f : Spool → Spool) (d : Dev) : (modSpool k f d).raised = d.raised := rfl
@[simp] theorem modSpool_hif (k : Nat) (f : Spool → Spool) (d : Dev) : (modSpool k f d).hif = d.hif := rfl
@[simp] theorem modSpool_rings (k : Nat) (f : Spool → Spool) (d : Dev) : (modSpool k f d).rings = d.rings := rfl
@[simp] theorem modSpool_tb (k : Nat) (f : Spool → Spool) (d : Dev) : (modSpool k f d).tb = d.tb := rfl
@[simp] theorem modSpool_weir (k : Nat) (f : Spool → Spool) (d : Dev) : (modSpool k f d).weir = d.weir := rfl
@[simp] theorem modSpool_slots (k : Nat) (f : Spool → Spool) (d : Dev) : (modSpool k f d).slots = d.slots := rfl
@[simp] theorem modSpool_buses (k : Nat) (f : Spool → Spool) (d : Dev) : (modSpool k f d).buses = d.buses := rfl
@[simp] theorem modSpool_path (k : Nat) (f : Spool → Spool) (d : Dev) : (modSpool k f d).path = d.path := rfl
@[simp] theorem modSpool_ports (k : Nat) (f : Spool → Spool) (d : Dev) : (modSpool k f d).ports = d.ports := rfl
@[simp] theorem modSpool_mgmt (k : Nat) (f : Spool → Spool) (d : Dev) : (modSpool k f d).mgmt = d.mgmt := rfl
@[simp] theorem modSpool_twin (k : Nat) (f : Spool → Spool) (d : Dev) : (modSpool k f d).twin = d.twin := rfl
@[simp] theorem modSpool_flash (k : Nat) (f : Spool → Spool) (d : Dev) : (modSpool k f d).flash = d.flash := rfl
@[simp] theorem modSpool_lfe (k : Nat) (f : Spool → Spool) (d : Dev) : (modSpool k f d).lfe = d.lfe := rfl
@[simp] theorem modSpool_sce (k : Nat) (f : Spool → Spool) (d : Dev) : (modSpool k f d).sce = d.sce := rfl
@[simp] theorem modSpool_tarns (k : Nat) (f : Spool → Spool) (d : Dev) : (modSpool k f d).tarns = d.tarns := rfl
@[simp] theorem modSpool_clu (k : Nat) (f : Spool → Spool) (d : Dev) : (modSpool k f d).clu = d.clu := rfl
@[simp] theorem modSpool_fab (k : Nat) (f : Spool → Spool) (d : Dev) : (modSpool k f d).fab = d.fab := rfl
@[simp] theorem modSpool_chw (k : Nat) (f : Spool → Spool) (d : Dev) : (modSpool k f d).chw = d.chw := rfl
@[simp] theorem modSpool_progs (k : Nat) (f : Spool → Spool) (d : Dev) : (modSpool k f d).progs = d.progs := rfl
@[simp] theorem modSpool_load (k : Nat) (f : Spool → Spool) (d : Dev) : (modSpool k f d).load = d.load := rfl
@[simp] theorem modSpool_closing (k : Nat) (f : Spool → Spool) (d : Dev) : (modSpool k f d).closing = d.closing := rfl
@[simp] theorem modSpool_nextFree (k : Nat) (f : Spool → Spool) (d : Dev) : (modSpool k f d).nextFree = d.nextFree := rfl
@[simp] theorem modSpool_basin (k : Nat) (f : Spool → Spool) (d : Dev) : (modSpool k f d).basin = d.basin := rfl
@[simp] theorem modSpool_poison (k : Nat) (f : Spool → Spool) (d : Dev) : (modSpool k f d).poison = d.poison := rfl
@[simp] theorem modSpool_dram (k : Nat) (f : Spool → Spool) (d : Dev) : (modSpool k f d).dram = d.dram := rfl
@[simp] theorem modSpool_pwr (k : Nat) (f : Spool → Spool) (d : Dev) : (modSpool k f d).pwr = d.pwr := rfl
@[simp] theorem modSpool_fresh (k : Nat) (f : Spool → Spool) (d : Dev) : (modSpool k f d).fresh = d.fresh := rfl
@[simp] theorem modSpool_outbox (k : Nat) (f : Spool → Spool) (d : Dev) : (modSpool k f d).outbox = d.outbox := rfl

/-! ### modFlash changes flash only -/

@[simp] theorem modFlash_regs (f : Flash → Flash) (d : Dev) : (modFlash f d).regs = d.regs := rfl
@[simp] theorem modFlash_pages (f : Flash → Flash) (d : Dev) : (modFlash f d).pages = d.pages := rfl
@[simp] theorem modFlash_frozen (f : Flash → Flash) (d : Dev) : (modFlash f d).frozen = d.frozen := rfl
@[simp] theorem modFlash_raised (f : Flash → Flash) (d : Dev) : (modFlash f d).raised = d.raised := rfl
@[simp] theorem modFlash_hif (f : Flash → Flash) (d : Dev) : (modFlash f d).hif = d.hif := rfl
@[simp] theorem modFlash_rings (f : Flash → Flash) (d : Dev) : (modFlash f d).rings = d.rings := rfl
@[simp] theorem modFlash_tb (f : Flash → Flash) (d : Dev) : (modFlash f d).tb = d.tb := rfl
@[simp] theorem modFlash_weir (f : Flash → Flash) (d : Dev) : (modFlash f d).weir = d.weir := rfl
@[simp] theorem modFlash_slots (f : Flash → Flash) (d : Dev) : (modFlash f d).slots = d.slots := rfl
@[simp] theorem modFlash_buses (f : Flash → Flash) (d : Dev) : (modFlash f d).buses = d.buses := rfl
@[simp] theorem modFlash_path (f : Flash → Flash) (d : Dev) : (modFlash f d).path = d.path := rfl
@[simp] theorem modFlash_ports (f : Flash → Flash) (d : Dev) : (modFlash f d).ports = d.ports := rfl
@[simp] theorem modFlash_mgmt (f : Flash → Flash) (d : Dev) : (modFlash f d).mgmt = d.mgmt := rfl
@[simp] theorem modFlash_twin (f : Flash → Flash) (d : Dev) : (modFlash f d).twin = d.twin := rfl
@[simp] theorem modFlash_recd (f : Flash → Flash) (d : Dev) : (modFlash f d).recd = d.recd := rfl
@[simp] theorem modFlash_lfe (f : Flash → Flash) (d : Dev) : (modFlash f d).lfe = d.lfe := rfl
@[simp] theorem modFlash_sce (f : Flash → Flash) (d : Dev) : (modFlash f d).sce = d.sce := rfl
@[simp] theorem modFlash_tarns (f : Flash → Flash) (d : Dev) : (modFlash f d).tarns = d.tarns := rfl
@[simp] theorem modFlash_clu (f : Flash → Flash) (d : Dev) : (modFlash f d).clu = d.clu := rfl
@[simp] theorem modFlash_fab (f : Flash → Flash) (d : Dev) : (modFlash f d).fab = d.fab := rfl
@[simp] theorem modFlash_chw (f : Flash → Flash) (d : Dev) : (modFlash f d).chw = d.chw := rfl
@[simp] theorem modFlash_progs (f : Flash → Flash) (d : Dev) : (modFlash f d).progs = d.progs := rfl
@[simp] theorem modFlash_load (f : Flash → Flash) (d : Dev) : (modFlash f d).load = d.load := rfl
@[simp] theorem modFlash_closing (f : Flash → Flash) (d : Dev) : (modFlash f d).closing = d.closing := rfl
@[simp] theorem modFlash_nextFree (f : Flash → Flash) (d : Dev) : (modFlash f d).nextFree = d.nextFree := rfl
@[simp] theorem modFlash_basin (f : Flash → Flash) (d : Dev) : (modFlash f d).basin = d.basin := rfl
@[simp] theorem modFlash_poison (f : Flash → Flash) (d : Dev) : (modFlash f d).poison = d.poison := rfl
@[simp] theorem modFlash_dram (f : Flash → Flash) (d : Dev) : (modFlash f d).dram = d.dram := rfl
@[simp] theorem modFlash_pwr (f : Flash → Flash) (d : Dev) : (modFlash f d).pwr = d.pwr := rfl
@[simp] theorem modFlash_fresh (f : Flash → Flash) (d : Dev) : (modFlash f d).fresh = d.fresh := rfl
@[simp] theorem modFlash_outbox (f : Flash → Flash) (d : Dev) : (modFlash f d).outbox = d.outbox := rfl

/-! ### modLfe changes lfe only -/

@[simp] theorem modLfe_regs (f : Lfe → Lfe) (d : Dev) : (modLfe f d).regs = d.regs := rfl
@[simp] theorem modLfe_pages (f : Lfe → Lfe) (d : Dev) : (modLfe f d).pages = d.pages := rfl
@[simp] theorem modLfe_frozen (f : Lfe → Lfe) (d : Dev) : (modLfe f d).frozen = d.frozen := rfl
@[simp] theorem modLfe_raised (f : Lfe → Lfe) (d : Dev) : (modLfe f d).raised = d.raised := rfl
@[simp] theorem modLfe_hif (f : Lfe → Lfe) (d : Dev) : (modLfe f d).hif = d.hif := rfl
@[simp] theorem modLfe_rings (f : Lfe → Lfe) (d : Dev) : (modLfe f d).rings = d.rings := rfl
@[simp] theorem modLfe_tb (f : Lfe → Lfe) (d : Dev) : (modLfe f d).tb = d.tb := rfl
@[simp] theorem modLfe_weir (f : Lfe → Lfe) (d : Dev) : (modLfe f d).weir = d.weir := rfl
@[simp] theorem modLfe_slots (f : Lfe → Lfe) (d : Dev) : (modLfe f d).slots = d.slots := rfl
@[simp] theorem modLfe_buses (f : Lfe → Lfe) (d : Dev) : (modLfe f d).buses = d.buses := rfl
@[simp] theorem modLfe_path (f : Lfe → Lfe) (d : Dev) : (modLfe f d).path = d.path := rfl
@[simp] theorem modLfe_ports (f : Lfe → Lfe) (d : Dev) : (modLfe f d).ports = d.ports := rfl
@[simp] theorem modLfe_mgmt (f : Lfe → Lfe) (d : Dev) : (modLfe f d).mgmt = d.mgmt := rfl
@[simp] theorem modLfe_twin (f : Lfe → Lfe) (d : Dev) : (modLfe f d).twin = d.twin := rfl
@[simp] theorem modLfe_recd (f : Lfe → Lfe) (d : Dev) : (modLfe f d).recd = d.recd := rfl
@[simp] theorem modLfe_flash (f : Lfe → Lfe) (d : Dev) : (modLfe f d).flash = d.flash := rfl
@[simp] theorem modLfe_sce (f : Lfe → Lfe) (d : Dev) : (modLfe f d).sce = d.sce := rfl
@[simp] theorem modLfe_tarns (f : Lfe → Lfe) (d : Dev) : (modLfe f d).tarns = d.tarns := rfl
@[simp] theorem modLfe_clu (f : Lfe → Lfe) (d : Dev) : (modLfe f d).clu = d.clu := rfl
@[simp] theorem modLfe_fab (f : Lfe → Lfe) (d : Dev) : (modLfe f d).fab = d.fab := rfl
@[simp] theorem modLfe_chw (f : Lfe → Lfe) (d : Dev) : (modLfe f d).chw = d.chw := rfl
@[simp] theorem modLfe_progs (f : Lfe → Lfe) (d : Dev) : (modLfe f d).progs = d.progs := rfl
@[simp] theorem modLfe_load (f : Lfe → Lfe) (d : Dev) : (modLfe f d).load = d.load := rfl
@[simp] theorem modLfe_closing (f : Lfe → Lfe) (d : Dev) : (modLfe f d).closing = d.closing := rfl
@[simp] theorem modLfe_nextFree (f : Lfe → Lfe) (d : Dev) : (modLfe f d).nextFree = d.nextFree := rfl
@[simp] theorem modLfe_basin (f : Lfe → Lfe) (d : Dev) : (modLfe f d).basin = d.basin := rfl
@[simp] theorem modLfe_poison (f : Lfe → Lfe) (d : Dev) : (modLfe f d).poison = d.poison := rfl
@[simp] theorem modLfe_dram (f : Lfe → Lfe) (d : Dev) : (modLfe f d).dram = d.dram := rfl
@[simp] theorem modLfe_pwr (f : Lfe → Lfe) (d : Dev) : (modLfe f d).pwr = d.pwr := rfl
@[simp] theorem modLfe_fresh (f : Lfe → Lfe) (d : Dev) : (modLfe f d).fresh = d.fresh := rfl
@[simp] theorem modLfe_outbox (f : Lfe → Lfe) (d : Dev) : (modLfe f d).outbox = d.outbox := rfl

/-! ### modLine changes lfe only -/

@[simp] theorem modLine_regs (k : Nat) (f : Line → Line) (d : Dev) : (modLine k f d).regs = d.regs := rfl
@[simp] theorem modLine_pages (k : Nat) (f : Line → Line) (d : Dev) : (modLine k f d).pages = d.pages := rfl
@[simp] theorem modLine_frozen (k : Nat) (f : Line → Line) (d : Dev) : (modLine k f d).frozen = d.frozen := rfl
@[simp] theorem modLine_raised (k : Nat) (f : Line → Line) (d : Dev) : (modLine k f d).raised = d.raised := rfl
@[simp] theorem modLine_hif (k : Nat) (f : Line → Line) (d : Dev) : (modLine k f d).hif = d.hif := rfl
@[simp] theorem modLine_rings (k : Nat) (f : Line → Line) (d : Dev) : (modLine k f d).rings = d.rings := rfl
@[simp] theorem modLine_tb (k : Nat) (f : Line → Line) (d : Dev) : (modLine k f d).tb = d.tb := rfl
@[simp] theorem modLine_weir (k : Nat) (f : Line → Line) (d : Dev) : (modLine k f d).weir = d.weir := rfl
@[simp] theorem modLine_slots (k : Nat) (f : Line → Line) (d : Dev) : (modLine k f d).slots = d.slots := rfl
@[simp] theorem modLine_buses (k : Nat) (f : Line → Line) (d : Dev) : (modLine k f d).buses = d.buses := rfl
@[simp] theorem modLine_path (k : Nat) (f : Line → Line) (d : Dev) : (modLine k f d).path = d.path := rfl
@[simp] theorem modLine_ports (k : Nat) (f : Line → Line) (d : Dev) : (modLine k f d).ports = d.ports := rfl
@[simp] theorem modLine_mgmt (k : Nat) (f : Line → Line) (d : Dev) : (modLine k f d).mgmt = d.mgmt := rfl
@[simp] theorem modLine_twin (k : Nat) (f : Line → Line) (d : Dev) : (modLine k f d).twin = d.twin := rfl
@[simp] theorem modLine_recd (k : Nat) (f : Line → Line) (d : Dev) : (modLine k f d).recd = d.recd := rfl
@[simp] theorem modLine_flash (k : Nat) (f : Line → Line) (d : Dev) : (modLine k f d).flash = d.flash := rfl
@[simp] theorem modLine_sce (k : Nat) (f : Line → Line) (d : Dev) : (modLine k f d).sce = d.sce := rfl
@[simp] theorem modLine_tarns (k : Nat) (f : Line → Line) (d : Dev) : (modLine k f d).tarns = d.tarns := rfl
@[simp] theorem modLine_clu (k : Nat) (f : Line → Line) (d : Dev) : (modLine k f d).clu = d.clu := rfl
@[simp] theorem modLine_fab (k : Nat) (f : Line → Line) (d : Dev) : (modLine k f d).fab = d.fab := rfl
@[simp] theorem modLine_chw (k : Nat) (f : Line → Line) (d : Dev) : (modLine k f d).chw = d.chw := rfl
@[simp] theorem modLine_progs (k : Nat) (f : Line → Line) (d : Dev) : (modLine k f d).progs = d.progs := rfl
@[simp] theorem modLine_load (k : Nat) (f : Line → Line) (d : Dev) : (modLine k f d).load = d.load := rfl
@[simp] theorem modLine_closing (k : Nat) (f : Line → Line) (d : Dev) : (modLine k f d).closing = d.closing := rfl
@[simp] theorem modLine_nextFree (k : Nat) (f : Line → Line) (d : Dev) : (modLine k f d).nextFree = d.nextFree := rfl
@[simp] theorem modLine_basin (k : Nat) (f : Line → Line) (d : Dev) : (modLine k f d).basin = d.basin := rfl
@[simp] theorem modLine_poison (k : Nat) (f : Line → Line) (d : Dev) : (modLine k f d).poison = d.poison := rfl
@[simp] theorem modLine_dram (k : Nat) (f : Line → Line) (d : Dev) : (modLine k f d).dram = d.dram := rfl
@[simp] theorem modLine_pwr (k : Nat) (f : Line → Line) (d : Dev) : (modLine k f d).pwr = d.pwr := rfl
@[simp] theorem modLine_fresh (k : Nat) (f : Line → Line) (d : Dev) : (modLine k f d).fresh = d.fresh := rfl
@[simp] theorem modLine_outbox (k : Nat) (f : Line → Line) (d : Dev) : (modLine k f d).outbox = d.outbox := rfl

/-! ### modSce changes sce only -/

@[simp] theorem modSce_regs (f : Sce → Sce) (d : Dev) : (modSce f d).regs = d.regs := rfl
@[simp] theorem modSce_pages (f : Sce → Sce) (d : Dev) : (modSce f d).pages = d.pages := rfl
@[simp] theorem modSce_frozen (f : Sce → Sce) (d : Dev) : (modSce f d).frozen = d.frozen := rfl
@[simp] theorem modSce_raised (f : Sce → Sce) (d : Dev) : (modSce f d).raised = d.raised := rfl
@[simp] theorem modSce_hif (f : Sce → Sce) (d : Dev) : (modSce f d).hif = d.hif := rfl
@[simp] theorem modSce_rings (f : Sce → Sce) (d : Dev) : (modSce f d).rings = d.rings := rfl
@[simp] theorem modSce_tb (f : Sce → Sce) (d : Dev) : (modSce f d).tb = d.tb := rfl
@[simp] theorem modSce_weir (f : Sce → Sce) (d : Dev) : (modSce f d).weir = d.weir := rfl
@[simp] theorem modSce_slots (f : Sce → Sce) (d : Dev) : (modSce f d).slots = d.slots := rfl
@[simp] theorem modSce_buses (f : Sce → Sce) (d : Dev) : (modSce f d).buses = d.buses := rfl
@[simp] theorem modSce_path (f : Sce → Sce) (d : Dev) : (modSce f d).path = d.path := rfl
@[simp] theorem modSce_ports (f : Sce → Sce) (d : Dev) : (modSce f d).ports = d.ports := rfl
@[simp] theorem modSce_mgmt (f : Sce → Sce) (d : Dev) : (modSce f d).mgmt = d.mgmt := rfl
@[simp] theorem modSce_twin (f : Sce → Sce) (d : Dev) : (modSce f d).twin = d.twin := rfl
@[simp] theorem modSce_recd (f : Sce → Sce) (d : Dev) : (modSce f d).recd = d.recd := rfl
@[simp] theorem modSce_flash (f : Sce → Sce) (d : Dev) : (modSce f d).flash = d.flash := rfl
@[simp] theorem modSce_lfe (f : Sce → Sce) (d : Dev) : (modSce f d).lfe = d.lfe := rfl
@[simp] theorem modSce_tarns (f : Sce → Sce) (d : Dev) : (modSce f d).tarns = d.tarns := rfl
@[simp] theorem modSce_clu (f : Sce → Sce) (d : Dev) : (modSce f d).clu = d.clu := rfl
@[simp] theorem modSce_fab (f : Sce → Sce) (d : Dev) : (modSce f d).fab = d.fab := rfl
@[simp] theorem modSce_chw (f : Sce → Sce) (d : Dev) : (modSce f d).chw = d.chw := rfl
@[simp] theorem modSce_progs (f : Sce → Sce) (d : Dev) : (modSce f d).progs = d.progs := rfl
@[simp] theorem modSce_load (f : Sce → Sce) (d : Dev) : (modSce f d).load = d.load := rfl
@[simp] theorem modSce_closing (f : Sce → Sce) (d : Dev) : (modSce f d).closing = d.closing := rfl
@[simp] theorem modSce_nextFree (f : Sce → Sce) (d : Dev) : (modSce f d).nextFree = d.nextFree := rfl
@[simp] theorem modSce_basin (f : Sce → Sce) (d : Dev) : (modSce f d).basin = d.basin := rfl
@[simp] theorem modSce_poison (f : Sce → Sce) (d : Dev) : (modSce f d).poison = d.poison := rfl
@[simp] theorem modSce_dram (f : Sce → Sce) (d : Dev) : (modSce f d).dram = d.dram := rfl
@[simp] theorem modSce_pwr (f : Sce → Sce) (d : Dev) : (modSce f d).pwr = d.pwr := rfl
@[simp] theorem modSce_fresh (f : Sce → Sce) (d : Dev) : (modSce f d).fresh = d.fresh := rfl
@[simp] theorem modSce_outbox (f : Sce → Sce) (d : Dev) : (modSce f d).outbox = d.outbox := rfl

/-! ### modTarn changes tarns only -/

@[simp] theorem modTarn_regs (k : Nat) (f : Tarn → Tarn) (d : Dev) : (modTarn k f d).regs = d.regs := rfl
@[simp] theorem modTarn_pages (k : Nat) (f : Tarn → Tarn) (d : Dev) : (modTarn k f d).pages = d.pages := rfl
@[simp] theorem modTarn_frozen (k : Nat) (f : Tarn → Tarn) (d : Dev) : (modTarn k f d).frozen = d.frozen := rfl
@[simp] theorem modTarn_raised (k : Nat) (f : Tarn → Tarn) (d : Dev) : (modTarn k f d).raised = d.raised := rfl
@[simp] theorem modTarn_hif (k : Nat) (f : Tarn → Tarn) (d : Dev) : (modTarn k f d).hif = d.hif := rfl
@[simp] theorem modTarn_rings (k : Nat) (f : Tarn → Tarn) (d : Dev) : (modTarn k f d).rings = d.rings := rfl
@[simp] theorem modTarn_tb (k : Nat) (f : Tarn → Tarn) (d : Dev) : (modTarn k f d).tb = d.tb := rfl
@[simp] theorem modTarn_weir (k : Nat) (f : Tarn → Tarn) (d : Dev) : (modTarn k f d).weir = d.weir := rfl
@[simp] theorem modTarn_slots (k : Nat) (f : Tarn → Tarn) (d : Dev) : (modTarn k f d).slots = d.slots := rfl
@[simp] theorem modTarn_buses (k : Nat) (f : Tarn → Tarn) (d : Dev) : (modTarn k f d).buses = d.buses := rfl
@[simp] theorem modTarn_path (k : Nat) (f : Tarn → Tarn) (d : Dev) : (modTarn k f d).path = d.path := rfl
@[simp] theorem modTarn_ports (k : Nat) (f : Tarn → Tarn) (d : Dev) : (modTarn k f d).ports = d.ports := rfl
@[simp] theorem modTarn_mgmt (k : Nat) (f : Tarn → Tarn) (d : Dev) : (modTarn k f d).mgmt = d.mgmt := rfl
@[simp] theorem modTarn_twin (k : Nat) (f : Tarn → Tarn) (d : Dev) : (modTarn k f d).twin = d.twin := rfl
@[simp] theorem modTarn_recd (k : Nat) (f : Tarn → Tarn) (d : Dev) : (modTarn k f d).recd = d.recd := rfl
@[simp] theorem modTarn_flash (k : Nat) (f : Tarn → Tarn) (d : Dev) : (modTarn k f d).flash = d.flash := rfl
@[simp] theorem modTarn_lfe (k : Nat) (f : Tarn → Tarn) (d : Dev) : (modTarn k f d).lfe = d.lfe := rfl
@[simp] theorem modTarn_sce (k : Nat) (f : Tarn → Tarn) (d : Dev) : (modTarn k f d).sce = d.sce := rfl
@[simp] theorem modTarn_clu (k : Nat) (f : Tarn → Tarn) (d : Dev) : (modTarn k f d).clu = d.clu := rfl
@[simp] theorem modTarn_fab (k : Nat) (f : Tarn → Tarn) (d : Dev) : (modTarn k f d).fab = d.fab := rfl
@[simp] theorem modTarn_chw (k : Nat) (f : Tarn → Tarn) (d : Dev) : (modTarn k f d).chw = d.chw := rfl
@[simp] theorem modTarn_progs (k : Nat) (f : Tarn → Tarn) (d : Dev) : (modTarn k f d).progs = d.progs := rfl
@[simp] theorem modTarn_load (k : Nat) (f : Tarn → Tarn) (d : Dev) : (modTarn k f d).load = d.load := rfl
@[simp] theorem modTarn_closing (k : Nat) (f : Tarn → Tarn) (d : Dev) : (modTarn k f d).closing = d.closing := rfl
@[simp] theorem modTarn_nextFree (k : Nat) (f : Tarn → Tarn) (d : Dev) : (modTarn k f d).nextFree = d.nextFree := rfl
@[simp] theorem modTarn_basin (k : Nat) (f : Tarn → Tarn) (d : Dev) : (modTarn k f d).basin = d.basin := rfl
@[simp] theorem modTarn_poison (k : Nat) (f : Tarn → Tarn) (d : Dev) : (modTarn k f d).poison = d.poison := rfl
@[simp] theorem modTarn_dram (k : Nat) (f : Tarn → Tarn) (d : Dev) : (modTarn k f d).dram = d.dram := rfl
@[simp] theorem modTarn_pwr (k : Nat) (f : Tarn → Tarn) (d : Dev) : (modTarn k f d).pwr = d.pwr := rfl
@[simp] theorem modTarn_fresh (k : Nat) (f : Tarn → Tarn) (d : Dev) : (modTarn k f d).fresh = d.fresh := rfl
@[simp] theorem modTarn_outbox (k : Nat) (f : Tarn → Tarn) (d : Dev) : (modTarn k f d).outbox = d.outbox := rfl

/-! ### modClu changes clu only -/

@[simp] theorem modClu_regs (f : Clu → Clu) (d : Dev) : (modClu f d).regs = d.regs := rfl
@[simp] theorem modClu_pages (f : Clu → Clu) (d : Dev) : (modClu f d).pages = d.pages := rfl
@[simp] theorem modClu_frozen (f : Clu → Clu) (d : Dev) : (modClu f d).frozen = d.frozen := rfl
@[simp] theorem modClu_raised (f : Clu → Clu) (d : Dev) : (modClu f d).raised = d.raised := rfl
@[simp] theorem modClu_hif (f : Clu → Clu) (d : Dev) : (modClu f d).hif = d.hif := rfl
@[simp] theorem modClu_rings (f : Clu → Clu) (d : Dev) : (modClu f d).rings = d.rings := rfl
@[simp] theorem modClu_tb (f : Clu → Clu) (d : Dev) : (modClu f d).tb = d.tb := rfl
@[simp] theorem modClu_weir (f : Clu → Clu) (d : Dev) : (modClu f d).weir = d.weir := rfl
@[simp] theorem modClu_slots (f : Clu → Clu) (d : Dev) : (modClu f d).slots = d.slots := rfl
@[simp] theorem modClu_buses (f : Clu → Clu) (d : Dev) : (modClu f d).buses = d.buses := rfl
@[simp] theorem modClu_path (f : Clu → Clu) (d : Dev) : (modClu f d).path = d.path := rfl
@[simp] theorem modClu_ports (f : Clu → Clu) (d : Dev) : (modClu f d).ports = d.ports := rfl
@[simp] theorem modClu_mgmt (f : Clu → Clu) (d : Dev) : (modClu f d).mgmt = d.mgmt := rfl
@[simp] theorem modClu_twin (f : Clu → Clu) (d : Dev) : (modClu f d).twin = d.twin := rfl
@[simp] theorem modClu_recd (f : Clu → Clu) (d : Dev) : (modClu f d).recd = d.recd := rfl
@[simp] theorem modClu_flash (f : Clu → Clu) (d : Dev) : (modClu f d).flash = d.flash := rfl
@[simp] theorem modClu_lfe (f : Clu → Clu) (d : Dev) : (modClu f d).lfe = d.lfe := rfl
@[simp] theorem modClu_sce (f : Clu → Clu) (d : Dev) : (modClu f d).sce = d.sce := rfl
@[simp] theorem modClu_tarns (f : Clu → Clu) (d : Dev) : (modClu f d).tarns = d.tarns := rfl
@[simp] theorem modClu_fab (f : Clu → Clu) (d : Dev) : (modClu f d).fab = d.fab := rfl
@[simp] theorem modClu_chw (f : Clu → Clu) (d : Dev) : (modClu f d).chw = d.chw := rfl
@[simp] theorem modClu_progs (f : Clu → Clu) (d : Dev) : (modClu f d).progs = d.progs := rfl
@[simp] theorem modClu_load (f : Clu → Clu) (d : Dev) : (modClu f d).load = d.load := rfl
@[simp] theorem modClu_closing (f : Clu → Clu) (d : Dev) : (modClu f d).closing = d.closing := rfl
@[simp] theorem modClu_nextFree (f : Clu → Clu) (d : Dev) : (modClu f d).nextFree = d.nextFree := rfl
@[simp] theorem modClu_basin (f : Clu → Clu) (d : Dev) : (modClu f d).basin = d.basin := rfl
@[simp] theorem modClu_poison (f : Clu → Clu) (d : Dev) : (modClu f d).poison = d.poison := rfl
@[simp] theorem modClu_dram (f : Clu → Clu) (d : Dev) : (modClu f d).dram = d.dram := rfl
@[simp] theorem modClu_pwr (f : Clu → Clu) (d : Dev) : (modClu f d).pwr = d.pwr := rfl
@[simp] theorem modClu_fresh (f : Clu → Clu) (d : Dev) : (modClu f d).fresh = d.fresh := rfl
@[simp] theorem modClu_outbox (f : Clu → Clu) (d : Dev) : (modClu f d).outbox = d.outbox := rfl

/-! ### modFab changes fab only -/

@[simp] theorem modFab_regs (f : Fab → Fab) (d : Dev) : (modFab f d).regs = d.regs := rfl
@[simp] theorem modFab_pages (f : Fab → Fab) (d : Dev) : (modFab f d).pages = d.pages := rfl
@[simp] theorem modFab_frozen (f : Fab → Fab) (d : Dev) : (modFab f d).frozen = d.frozen := rfl
@[simp] theorem modFab_raised (f : Fab → Fab) (d : Dev) : (modFab f d).raised = d.raised := rfl
@[simp] theorem modFab_hif (f : Fab → Fab) (d : Dev) : (modFab f d).hif = d.hif := rfl
@[simp] theorem modFab_rings (f : Fab → Fab) (d : Dev) : (modFab f d).rings = d.rings := rfl
@[simp] theorem modFab_tb (f : Fab → Fab) (d : Dev) : (modFab f d).tb = d.tb := rfl
@[simp] theorem modFab_weir (f : Fab → Fab) (d : Dev) : (modFab f d).weir = d.weir := rfl
@[simp] theorem modFab_slots (f : Fab → Fab) (d : Dev) : (modFab f d).slots = d.slots := rfl
@[simp] theorem modFab_buses (f : Fab → Fab) (d : Dev) : (modFab f d).buses = d.buses := rfl
@[simp] theorem modFab_path (f : Fab → Fab) (d : Dev) : (modFab f d).path = d.path := rfl
@[simp] theorem modFab_ports (f : Fab → Fab) (d : Dev) : (modFab f d).ports = d.ports := rfl
@[simp] theorem modFab_mgmt (f : Fab → Fab) (d : Dev) : (modFab f d).mgmt = d.mgmt := rfl
@[simp] theorem modFab_twin (f : Fab → Fab) (d : Dev) : (modFab f d).twin = d.twin := rfl
@[simp] theorem modFab_recd (f : Fab → Fab) (d : Dev) : (modFab f d).recd = d.recd := rfl
@[simp] theorem modFab_flash (f : Fab → Fab) (d : Dev) : (modFab f d).flash = d.flash := rfl
@[simp] theorem modFab_lfe (f : Fab → Fab) (d : Dev) : (modFab f d).lfe = d.lfe := rfl
@[simp] theorem modFab_sce (f : Fab → Fab) (d : Dev) : (modFab f d).sce = d.sce := rfl
@[simp] theorem modFab_tarns (f : Fab → Fab) (d : Dev) : (modFab f d).tarns = d.tarns := rfl
@[simp] theorem modFab_clu (f : Fab → Fab) (d : Dev) : (modFab f d).clu = d.clu := rfl
@[simp] theorem modFab_chw (f : Fab → Fab) (d : Dev) : (modFab f d).chw = d.chw := rfl
@[simp] theorem modFab_progs (f : Fab → Fab) (d : Dev) : (modFab f d).progs = d.progs := rfl
@[simp] theorem modFab_load (f : Fab → Fab) (d : Dev) : (modFab f d).load = d.load := rfl
@[simp] theorem modFab_closing (f : Fab → Fab) (d : Dev) : (modFab f d).closing = d.closing := rfl
@[simp] theorem modFab_nextFree (f : Fab → Fab) (d : Dev) : (modFab f d).nextFree = d.nextFree := rfl
@[simp] theorem modFab_basin (f : Fab → Fab) (d : Dev) : (modFab f d).basin = d.basin := rfl
@[simp] theorem modFab_poison (f : Fab → Fab) (d : Dev) : (modFab f d).poison = d.poison := rfl
@[simp] theorem modFab_dram (f : Fab → Fab) (d : Dev) : (modFab f d).dram = d.dram := rfl
@[simp] theorem modFab_pwr (f : Fab → Fab) (d : Dev) : (modFab f d).pwr = d.pwr := rfl
@[simp] theorem modFab_fresh (f : Fab → Fab) (d : Dev) : (modFab f d).fresh = d.fresh := rfl
@[simp] theorem modFab_outbox (f : Fab → Fab) (d : Dev) : (modFab f d).outbox = d.outbox := rfl

/-! ### modPtp changes tb only -/

@[simp] theorem modPtp_regs (k : Nat) (f : PtpPort → PtpPort) (d : Dev) : (modPtp k f d).regs = d.regs := rfl
@[simp] theorem modPtp_pages (k : Nat) (f : PtpPort → PtpPort) (d : Dev) : (modPtp k f d).pages = d.pages := rfl
@[simp] theorem modPtp_frozen (k : Nat) (f : PtpPort → PtpPort) (d : Dev) : (modPtp k f d).frozen = d.frozen := rfl
@[simp] theorem modPtp_raised (k : Nat) (f : PtpPort → PtpPort) (d : Dev) : (modPtp k f d).raised = d.raised := rfl
@[simp] theorem modPtp_hif (k : Nat) (f : PtpPort → PtpPort) (d : Dev) : (modPtp k f d).hif = d.hif := rfl
@[simp] theorem modPtp_rings (k : Nat) (f : PtpPort → PtpPort) (d : Dev) : (modPtp k f d).rings = d.rings := rfl
@[simp] theorem modPtp_weir (k : Nat) (f : PtpPort → PtpPort) (d : Dev) : (modPtp k f d).weir = d.weir := rfl
@[simp] theorem modPtp_slots (k : Nat) (f : PtpPort → PtpPort) (d : Dev) : (modPtp k f d).slots = d.slots := rfl
@[simp] theorem modPtp_buses (k : Nat) (f : PtpPort → PtpPort) (d : Dev) : (modPtp k f d).buses = d.buses := rfl
@[simp] theorem modPtp_path (k : Nat) (f : PtpPort → PtpPort) (d : Dev) : (modPtp k f d).path = d.path := rfl
@[simp] theorem modPtp_ports (k : Nat) (f : PtpPort → PtpPort) (d : Dev) : (modPtp k f d).ports = d.ports := rfl
@[simp] theorem modPtp_mgmt (k : Nat) (f : PtpPort → PtpPort) (d : Dev) : (modPtp k f d).mgmt = d.mgmt := rfl
@[simp] theorem modPtp_twin (k : Nat) (f : PtpPort → PtpPort) (d : Dev) : (modPtp k f d).twin = d.twin := rfl
@[simp] theorem modPtp_recd (k : Nat) (f : PtpPort → PtpPort) (d : Dev) : (modPtp k f d).recd = d.recd := rfl
@[simp] theorem modPtp_flash (k : Nat) (f : PtpPort → PtpPort) (d : Dev) : (modPtp k f d).flash = d.flash := rfl
@[simp] theorem modPtp_lfe (k : Nat) (f : PtpPort → PtpPort) (d : Dev) : (modPtp k f d).lfe = d.lfe := rfl
@[simp] theorem modPtp_sce (k : Nat) (f : PtpPort → PtpPort) (d : Dev) : (modPtp k f d).sce = d.sce := rfl
@[simp] theorem modPtp_tarns (k : Nat) (f : PtpPort → PtpPort) (d : Dev) : (modPtp k f d).tarns = d.tarns := rfl
@[simp] theorem modPtp_clu (k : Nat) (f : PtpPort → PtpPort) (d : Dev) : (modPtp k f d).clu = d.clu := rfl
@[simp] theorem modPtp_fab (k : Nat) (f : PtpPort → PtpPort) (d : Dev) : (modPtp k f d).fab = d.fab := rfl
@[simp] theorem modPtp_chw (k : Nat) (f : PtpPort → PtpPort) (d : Dev) : (modPtp k f d).chw = d.chw := rfl
@[simp] theorem modPtp_progs (k : Nat) (f : PtpPort → PtpPort) (d : Dev) : (modPtp k f d).progs = d.progs := rfl
@[simp] theorem modPtp_load (k : Nat) (f : PtpPort → PtpPort) (d : Dev) : (modPtp k f d).load = d.load := rfl
@[simp] theorem modPtp_closing (k : Nat) (f : PtpPort → PtpPort) (d : Dev) : (modPtp k f d).closing = d.closing := rfl
@[simp] theorem modPtp_nextFree (k : Nat) (f : PtpPort → PtpPort) (d : Dev) : (modPtp k f d).nextFree = d.nextFree := rfl
@[simp] theorem modPtp_basin (k : Nat) (f : PtpPort → PtpPort) (d : Dev) : (modPtp k f d).basin = d.basin := rfl
@[simp] theorem modPtp_poison (k : Nat) (f : PtpPort → PtpPort) (d : Dev) : (modPtp k f d).poison = d.poison := rfl
@[simp] theorem modPtp_dram (k : Nat) (f : PtpPort → PtpPort) (d : Dev) : (modPtp k f d).dram = d.dram := rfl
@[simp] theorem modPtp_pwr (k : Nat) (f : PtpPort → PtpPort) (d : Dev) : (modPtp k f d).pwr = d.pwr := rfl
@[simp] theorem modPtp_fresh (k : Nat) (f : PtpPort → PtpPort) (d : Dev) : (modPtp k f d).fresh = d.fresh := rfl
@[simp] theorem modPtp_outbox (k : Nat) (f : PtpPort → PtpPort) (d : Dev) : (modPtp k f d).outbox = d.outbox := rfl

/-! ### setChw changes chw only -/

@[simp] theorem setChw_regs (p : Nat) (o : Option ChwOp) (d : Dev) : (setChw p o d).regs = d.regs := rfl
@[simp] theorem setChw_pages (p : Nat) (o : Option ChwOp) (d : Dev) : (setChw p o d).pages = d.pages := rfl
@[simp] theorem setChw_frozen (p : Nat) (o : Option ChwOp) (d : Dev) : (setChw p o d).frozen = d.frozen := rfl
@[simp] theorem setChw_raised (p : Nat) (o : Option ChwOp) (d : Dev) : (setChw p o d).raised = d.raised := rfl
@[simp] theorem setChw_hif (p : Nat) (o : Option ChwOp) (d : Dev) : (setChw p o d).hif = d.hif := rfl
@[simp] theorem setChw_rings (p : Nat) (o : Option ChwOp) (d : Dev) : (setChw p o d).rings = d.rings := rfl
@[simp] theorem setChw_tb (p : Nat) (o : Option ChwOp) (d : Dev) : (setChw p o d).tb = d.tb := rfl
@[simp] theorem setChw_weir (p : Nat) (o : Option ChwOp) (d : Dev) : (setChw p o d).weir = d.weir := rfl
@[simp] theorem setChw_slots (p : Nat) (o : Option ChwOp) (d : Dev) : (setChw p o d).slots = d.slots := rfl
@[simp] theorem setChw_buses (p : Nat) (o : Option ChwOp) (d : Dev) : (setChw p o d).buses = d.buses := rfl
@[simp] theorem setChw_path (p : Nat) (o : Option ChwOp) (d : Dev) : (setChw p o d).path = d.path := rfl
@[simp] theorem setChw_ports (p : Nat) (o : Option ChwOp) (d : Dev) : (setChw p o d).ports = d.ports := rfl
@[simp] theorem setChw_mgmt (p : Nat) (o : Option ChwOp) (d : Dev) : (setChw p o d).mgmt = d.mgmt := rfl
@[simp] theorem setChw_twin (p : Nat) (o : Option ChwOp) (d : Dev) : (setChw p o d).twin = d.twin := rfl
@[simp] theorem setChw_recd (p : Nat) (o : Option ChwOp) (d : Dev) : (setChw p o d).recd = d.recd := rfl
@[simp] theorem setChw_flash (p : Nat) (o : Option ChwOp) (d : Dev) : (setChw p o d).flash = d.flash := rfl
@[simp] theorem setChw_lfe (p : Nat) (o : Option ChwOp) (d : Dev) : (setChw p o d).lfe = d.lfe := rfl
@[simp] theorem setChw_sce (p : Nat) (o : Option ChwOp) (d : Dev) : (setChw p o d).sce = d.sce := rfl
@[simp] theorem setChw_tarns (p : Nat) (o : Option ChwOp) (d : Dev) : (setChw p o d).tarns = d.tarns := rfl
@[simp] theorem setChw_clu (p : Nat) (o : Option ChwOp) (d : Dev) : (setChw p o d).clu = d.clu := rfl
@[simp] theorem setChw_fab (p : Nat) (o : Option ChwOp) (d : Dev) : (setChw p o d).fab = d.fab := rfl
@[simp] theorem setChw_progs (p : Nat) (o : Option ChwOp) (d : Dev) : (setChw p o d).progs = d.progs := rfl
@[simp] theorem setChw_load (p : Nat) (o : Option ChwOp) (d : Dev) : (setChw p o d).load = d.load := rfl
@[simp] theorem setChw_closing (p : Nat) (o : Option ChwOp) (d : Dev) : (setChw p o d).closing = d.closing := rfl
@[simp] theorem setChw_nextFree (p : Nat) (o : Option ChwOp) (d : Dev) : (setChw p o d).nextFree = d.nextFree := rfl
@[simp] theorem setChw_basin (p : Nat) (o : Option ChwOp) (d : Dev) : (setChw p o d).basin = d.basin := rfl
@[simp] theorem setChw_poison (p : Nat) (o : Option ChwOp) (d : Dev) : (setChw p o d).poison = d.poison := rfl
@[simp] theorem setChw_dram (p : Nat) (o : Option ChwOp) (d : Dev) : (setChw p o d).dram = d.dram := rfl
@[simp] theorem setChw_pwr (p : Nat) (o : Option ChwOp) (d : Dev) : (setChw p o d).pwr = d.pwr := rfl
@[simp] theorem setChw_fresh (p : Nat) (o : Option ChwOp) (d : Dev) : (setChw p o d).fresh = d.fresh := rfl
@[simp] theorem setChw_outbox (p : Nat) (o : Option ChwOp) (d : Dev) : (setChw p o d).outbox = d.outbox := rfl

/-! ### modTokens changes weir only -/

@[simp] theorem modTokens_regs (p : Token → Bool) (f : Token → Token) (d : Dev) : (modTokens p f d).regs = d.regs := rfl
@[simp] theorem modTokens_pages (p : Token → Bool) (f : Token → Token) (d : Dev) : (modTokens p f d).pages = d.pages := rfl
@[simp] theorem modTokens_frozen (p : Token → Bool) (f : Token → Token) (d : Dev) : (modTokens p f d).frozen = d.frozen := rfl
@[simp] theorem modTokens_raised (p : Token → Bool) (f : Token → Token) (d : Dev) : (modTokens p f d).raised = d.raised := rfl
@[simp] theorem modTokens_hif (p : Token → Bool) (f : Token → Token) (d : Dev) : (modTokens p f d).hif = d.hif := rfl
@[simp] theorem modTokens_rings (p : Token → Bool) (f : Token → Token) (d : Dev) : (modTokens p f d).rings = d.rings := rfl
@[simp] theorem modTokens_tb (p : Token → Bool) (f : Token → Token) (d : Dev) : (modTokens p f d).tb = d.tb := rfl
@[simp] theorem modTokens_slots (p : Token → Bool) (f : Token → Token) (d : Dev) : (modTokens p f d).slots = d.slots := rfl
@[simp] theorem modTokens_buses (p : Token → Bool) (f : Token → Token) (d : Dev) : (modTokens p f d).buses = d.buses := rfl
@[simp] theorem modTokens_path (p : Token → Bool) (f : Token → Token) (d : Dev) : (modTokens p f d).path = d.path := rfl
@[simp] theorem modTokens_ports (p : Token → Bool) (f : Token → Token) (d : Dev) : (modTokens p f d).ports = d.ports := rfl
@[simp] theorem modTokens_mgmt (p : Token → Bool) (f : Token → Token) (d : Dev) : (modTokens p f d).mgmt = d.mgmt := rfl
@[simp] theorem modTokens_twin (p : Token → Bool) (f : Token → Token) (d : Dev) : (modTokens p f d).twin = d.twin := rfl
@[simp] theorem modTokens_recd (p : Token → Bool) (f : Token → Token) (d : Dev) : (modTokens p f d).recd = d.recd := rfl
@[simp] theorem modTokens_flash (p : Token → Bool) (f : Token → Token) (d : Dev) : (modTokens p f d).flash = d.flash := rfl
@[simp] theorem modTokens_lfe (p : Token → Bool) (f : Token → Token) (d : Dev) : (modTokens p f d).lfe = d.lfe := rfl
@[simp] theorem modTokens_sce (p : Token → Bool) (f : Token → Token) (d : Dev) : (modTokens p f d).sce = d.sce := rfl
@[simp] theorem modTokens_tarns (p : Token → Bool) (f : Token → Token) (d : Dev) : (modTokens p f d).tarns = d.tarns := rfl
@[simp] theorem modTokens_clu (p : Token → Bool) (f : Token → Token) (d : Dev) : (modTokens p f d).clu = d.clu := rfl
@[simp] theorem modTokens_fab (p : Token → Bool) (f : Token → Token) (d : Dev) : (modTokens p f d).fab = d.fab := rfl
@[simp] theorem modTokens_chw (p : Token → Bool) (f : Token → Token) (d : Dev) : (modTokens p f d).chw = d.chw := rfl
@[simp] theorem modTokens_progs (p : Token → Bool) (f : Token → Token) (d : Dev) : (modTokens p f d).progs = d.progs := rfl
@[simp] theorem modTokens_load (p : Token → Bool) (f : Token → Token) (d : Dev) : (modTokens p f d).load = d.load := rfl
@[simp] theorem modTokens_closing (p : Token → Bool) (f : Token → Token) (d : Dev) : (modTokens p f d).closing = d.closing := rfl
@[simp] theorem modTokens_nextFree (p : Token → Bool) (f : Token → Token) (d : Dev) : (modTokens p f d).nextFree = d.nextFree := rfl
@[simp] theorem modTokens_basin (p : Token → Bool) (f : Token → Token) (d : Dev) : (modTokens p f d).basin = d.basin := rfl
@[simp] theorem modTokens_poison (p : Token → Bool) (f : Token → Token) (d : Dev) : (modTokens p f d).poison = d.poison := rfl
@[simp] theorem modTokens_dram (p : Token → Bool) (f : Token → Token) (d : Dev) : (modTokens p f d).dram = d.dram := rfl
@[simp] theorem modTokens_pwr (p : Token → Bool) (f : Token → Token) (d : Dev) : (modTokens p f d).pwr = d.pwr := rfl
@[simp] theorem modTokens_fresh (p : Token → Bool) (f : Token → Token) (d : Dev) : (modTokens p f d).fresh = d.fresh := rfl
@[simp] theorem modTokens_outbox (p : Token → Bool) (f : Token → Token) (d : Dev) : (modTokens p f d).outbox = d.outbox := rfl

/-! ### setJobs changes weir only -/

@[simp] theorem setJobs_regs (c : Nat) (l : List Job) (d : Dev) : (setJobs c l d).regs = d.regs := rfl
@[simp] theorem setJobs_pages (c : Nat) (l : List Job) (d : Dev) : (setJobs c l d).pages = d.pages := rfl
@[simp] theorem setJobs_frozen (c : Nat) (l : List Job) (d : Dev) : (setJobs c l d).frozen = d.frozen := rfl
@[simp] theorem setJobs_raised (c : Nat) (l : List Job) (d : Dev) : (setJobs c l d).raised = d.raised := rfl
@[simp] theorem setJobs_hif (c : Nat) (l : List Job) (d : Dev) : (setJobs c l d).hif = d.hif := rfl
@[simp] theorem setJobs_rings (c : Nat) (l : List Job) (d : Dev) : (setJobs c l d).rings = d.rings := rfl
@[simp] theorem setJobs_tb (c : Nat) (l : List Job) (d : Dev) : (setJobs c l d).tb = d.tb := rfl
@[simp] theorem setJobs_slots (c : Nat) (l : List Job) (d : Dev) : (setJobs c l d).slots = d.slots := rfl
@[simp] theorem setJobs_buses (c : Nat) (l : List Job) (d : Dev) : (setJobs c l d).buses = d.buses := rfl
@[simp] theorem setJobs_path (c : Nat) (l : List Job) (d : Dev) : (setJobs c l d).path = d.path := rfl
@[simp] theorem setJobs_ports (c : Nat) (l : List Job) (d : Dev) : (setJobs c l d).ports = d.ports := rfl
@[simp] theorem setJobs_mgmt (c : Nat) (l : List Job) (d : Dev) : (setJobs c l d).mgmt = d.mgmt := rfl
@[simp] theorem setJobs_twin (c : Nat) (l : List Job) (d : Dev) : (setJobs c l d).twin = d.twin := rfl
@[simp] theorem setJobs_recd (c : Nat) (l : List Job) (d : Dev) : (setJobs c l d).recd = d.recd := rfl
@[simp] theorem setJobs_flash (c : Nat) (l : List Job) (d : Dev) : (setJobs c l d).flash = d.flash := rfl
@[simp] theorem setJobs_lfe (c : Nat) (l : List Job) (d : Dev) : (setJobs c l d).lfe = d.lfe := rfl
@[simp] theorem setJobs_sce (c : Nat) (l : List Job) (d : Dev) : (setJobs c l d).sce = d.sce := rfl
@[simp] theorem setJobs_tarns (c : Nat) (l : List Job) (d : Dev) : (setJobs c l d).tarns = d.tarns := rfl
@[simp] theorem setJobs_clu (c : Nat) (l : List Job) (d : Dev) : (setJobs c l d).clu = d.clu := rfl
@[simp] theorem setJobs_fab (c : Nat) (l : List Job) (d : Dev) : (setJobs c l d).fab = d.fab := rfl
@[simp] theorem setJobs_chw (c : Nat) (l : List Job) (d : Dev) : (setJobs c l d).chw = d.chw := rfl
@[simp] theorem setJobs_progs (c : Nat) (l : List Job) (d : Dev) : (setJobs c l d).progs = d.progs := rfl
@[simp] theorem setJobs_load (c : Nat) (l : List Job) (d : Dev) : (setJobs c l d).load = d.load := rfl
@[simp] theorem setJobs_closing (c : Nat) (l : List Job) (d : Dev) : (setJobs c l d).closing = d.closing := rfl
@[simp] theorem setJobs_nextFree (c : Nat) (l : List Job) (d : Dev) : (setJobs c l d).nextFree = d.nextFree := rfl
@[simp] theorem setJobs_basin (c : Nat) (l : List Job) (d : Dev) : (setJobs c l d).basin = d.basin := rfl
@[simp] theorem setJobs_poison (c : Nat) (l : List Job) (d : Dev) : (setJobs c l d).poison = d.poison := rfl
@[simp] theorem setJobs_dram (c : Nat) (l : List Job) (d : Dev) : (setJobs c l d).dram = d.dram := rfl
@[simp] theorem setJobs_pwr (c : Nat) (l : List Job) (d : Dev) : (setJobs c l d).pwr = d.pwr := rfl
@[simp] theorem setJobs_fresh (c : Nat) (l : List Job) (d : Dev) : (setJobs c l d).fresh = d.fresh := rfl
@[simp] theorem setJobs_outbox (c : Nat) (l : List Job) (d : Dev) : (setJobs c l d).outbox = d.outbox := rfl

/-! ### modShed changes weir only -/

@[simp] theorem modShed_regs (p : Nat) (f : Shed → Shed) (d : Dev) : (modShed p f d).regs = d.regs := rfl
@[simp] theorem modShed_pages (p : Nat) (f : Shed → Shed) (d : Dev) : (modShed p f d).pages = d.pages := rfl
@[simp] theorem modShed_frozen (p : Nat) (f : Shed → Shed) (d : Dev) : (modShed p f d).frozen = d.frozen := rfl
@[simp] theorem modShed_raised (p : Nat) (f : Shed → Shed) (d : Dev) : (modShed p f d).raised = d.raised := rfl
@[simp] theorem modShed_hif (p : Nat) (f : Shed → Shed) (d : Dev) : (modShed p f d).hif = d.hif := rfl
@[simp] theorem modShed_rings (p : Nat) (f : Shed → Shed) (d : Dev) : (modShed p f d).rings = d.rings := rfl
@[simp] theorem modShed_tb (p : Nat) (f : Shed → Shed) (d : Dev) : (modShed p f d).tb = d.tb := rfl
@[simp] theorem modShed_slots (p : Nat) (f : Shed → Shed) (d : Dev) : (modShed p f d).slots = d.slots := rfl
@[simp] theorem modShed_buses (p : Nat) (f : Shed → Shed) (d : Dev) : (modShed p f d).buses = d.buses := rfl
@[simp] theorem modShed_path (p : Nat) (f : Shed → Shed) (d : Dev) : (modShed p f d).path = d.path := rfl
@[simp] theorem modShed_ports (p : Nat) (f : Shed → Shed) (d : Dev) : (modShed p f d).ports = d.ports := rfl
@[simp] theorem modShed_mgmt (p : Nat) (f : Shed → Shed) (d : Dev) : (modShed p f d).mgmt = d.mgmt := rfl
@[simp] theorem modShed_twin (p : Nat) (f : Shed → Shed) (d : Dev) : (modShed p f d).twin = d.twin := rfl
@[simp] theorem modShed_recd (p : Nat) (f : Shed → Shed) (d : Dev) : (modShed p f d).recd = d.recd := rfl
@[simp] theorem modShed_flash (p : Nat) (f : Shed → Shed) (d : Dev) : (modShed p f d).flash = d.flash := rfl
@[simp] theorem modShed_lfe (p : Nat) (f : Shed → Shed) (d : Dev) : (modShed p f d).lfe = d.lfe := rfl
@[simp] theorem modShed_sce (p : Nat) (f : Shed → Shed) (d : Dev) : (modShed p f d).sce = d.sce := rfl
@[simp] theorem modShed_tarns (p : Nat) (f : Shed → Shed) (d : Dev) : (modShed p f d).tarns = d.tarns := rfl
@[simp] theorem modShed_clu (p : Nat) (f : Shed → Shed) (d : Dev) : (modShed p f d).clu = d.clu := rfl
@[simp] theorem modShed_fab (p : Nat) (f : Shed → Shed) (d : Dev) : (modShed p f d).fab = d.fab := rfl
@[simp] theorem modShed_chw (p : Nat) (f : Shed → Shed) (d : Dev) : (modShed p f d).chw = d.chw := rfl
@[simp] theorem modShed_progs (p : Nat) (f : Shed → Shed) (d : Dev) : (modShed p f d).progs = d.progs := rfl
@[simp] theorem modShed_load (p : Nat) (f : Shed → Shed) (d : Dev) : (modShed p f d).load = d.load := rfl
@[simp] theorem modShed_closing (p : Nat) (f : Shed → Shed) (d : Dev) : (modShed p f d).closing = d.closing := rfl
@[simp] theorem modShed_nextFree (p : Nat) (f : Shed → Shed) (d : Dev) : (modShed p f d).nextFree = d.nextFree := rfl
@[simp] theorem modShed_basin (p : Nat) (f : Shed → Shed) (d : Dev) : (modShed p f d).basin = d.basin := rfl
@[simp] theorem modShed_poison (p : Nat) (f : Shed → Shed) (d : Dev) : (modShed p f d).poison = d.poison := rfl
@[simp] theorem modShed_dram (p : Nat) (f : Shed → Shed) (d : Dev) : (modShed p f d).dram = d.dram := rfl
@[simp] theorem modShed_pwr (p : Nat) (f : Shed → Shed) (d : Dev) : (modShed p f d).pwr = d.pwr := rfl
@[simp] theorem modShed_fresh (p : Nat) (f : Shed → Shed) (d : Dev) : (modShed p f d).fresh = d.fresh := rfl
@[simp] theorem modShed_outbox (p : Nat) (f : Shed → Shed) (d : Dev) : (modShed p f d).outbox = d.outbox := rfl

/-! ### dramWrite changes dram only -/

@[simp] theorem dramWrite_regs (a : Nat) (b : Byte) (d : Dev) : (dramWrite a b d).regs = d.regs := rfl
@[simp] theorem dramWrite_pages (a : Nat) (b : Byte) (d : Dev) : (dramWrite a b d).pages = d.pages := rfl
@[simp] theorem dramWrite_frozen (a : Nat) (b : Byte) (d : Dev) : (dramWrite a b d).frozen = d.frozen := rfl
@[simp] theorem dramWrite_raised (a : Nat) (b : Byte) (d : Dev) : (dramWrite a b d).raised = d.raised := rfl
@[simp] theorem dramWrite_hif (a : Nat) (b : Byte) (d : Dev) : (dramWrite a b d).hif = d.hif := rfl
@[simp] theorem dramWrite_rings (a : Nat) (b : Byte) (d : Dev) : (dramWrite a b d).rings = d.rings := rfl
@[simp] theorem dramWrite_tb (a : Nat) (b : Byte) (d : Dev) : (dramWrite a b d).tb = d.tb := rfl
@[simp] theorem dramWrite_weir (a : Nat) (b : Byte) (d : Dev) : (dramWrite a b d).weir = d.weir := rfl
@[simp] theorem dramWrite_slots (a : Nat) (b : Byte) (d : Dev) : (dramWrite a b d).slots = d.slots := rfl
@[simp] theorem dramWrite_buses (a : Nat) (b : Byte) (d : Dev) : (dramWrite a b d).buses = d.buses := rfl
@[simp] theorem dramWrite_path (a : Nat) (b : Byte) (d : Dev) : (dramWrite a b d).path = d.path := rfl
@[simp] theorem dramWrite_ports (a : Nat) (b : Byte) (d : Dev) : (dramWrite a b d).ports = d.ports := rfl
@[simp] theorem dramWrite_mgmt (a : Nat) (b : Byte) (d : Dev) : (dramWrite a b d).mgmt = d.mgmt := rfl
@[simp] theorem dramWrite_twin (a : Nat) (b : Byte) (d : Dev) : (dramWrite a b d).twin = d.twin := rfl
@[simp] theorem dramWrite_recd (a : Nat) (b : Byte) (d : Dev) : (dramWrite a b d).recd = d.recd := rfl
@[simp] theorem dramWrite_flash (a : Nat) (b : Byte) (d : Dev) : (dramWrite a b d).flash = d.flash := rfl
@[simp] theorem dramWrite_lfe (a : Nat) (b : Byte) (d : Dev) : (dramWrite a b d).lfe = d.lfe := rfl
@[simp] theorem dramWrite_sce (a : Nat) (b : Byte) (d : Dev) : (dramWrite a b d).sce = d.sce := rfl
@[simp] theorem dramWrite_tarns (a : Nat) (b : Byte) (d : Dev) : (dramWrite a b d).tarns = d.tarns := rfl
@[simp] theorem dramWrite_clu (a : Nat) (b : Byte) (d : Dev) : (dramWrite a b d).clu = d.clu := rfl
@[simp] theorem dramWrite_fab (a : Nat) (b : Byte) (d : Dev) : (dramWrite a b d).fab = d.fab := rfl
@[simp] theorem dramWrite_chw (a : Nat) (b : Byte) (d : Dev) : (dramWrite a b d).chw = d.chw := rfl
@[simp] theorem dramWrite_progs (a : Nat) (b : Byte) (d : Dev) : (dramWrite a b d).progs = d.progs := rfl
@[simp] theorem dramWrite_load (a : Nat) (b : Byte) (d : Dev) : (dramWrite a b d).load = d.load := rfl
@[simp] theorem dramWrite_closing (a : Nat) (b : Byte) (d : Dev) : (dramWrite a b d).closing = d.closing := rfl
@[simp] theorem dramWrite_nextFree (a : Nat) (b : Byte) (d : Dev) : (dramWrite a b d).nextFree = d.nextFree := rfl
@[simp] theorem dramWrite_basin (a : Nat) (b : Byte) (d : Dev) : (dramWrite a b d).basin = d.basin := rfl
@[simp] theorem dramWrite_poison (a : Nat) (b : Byte) (d : Dev) : (dramWrite a b d).poison = d.poison := rfl
@[simp] theorem dramWrite_pwr (a : Nat) (b : Byte) (d : Dev) : (dramWrite a b d).pwr = d.pwr := rfl
@[simp] theorem dramWrite_fresh (a : Nat) (b : Byte) (d : Dev) : (dramWrite a b d).fresh = d.fresh := rfl
@[simp] theorem dramWrite_outbox (a : Nat) (b : Byte) (d : Dev) : (dramWrite a b d).outbox = d.outbox := rfl

end Sys2Proof.Machine
end

