-- ==== Sys2Proof/Laws/Tab.lean ====
section
/-! SUPPORT. What sparse tables do: a read after a write, and the canonical form. -/
namespace Sys2Proof.Machine

variable {α : Type}

theorem tabGet_drop (dflt : Nat → α) (k j : Nat) : ∀ t : Tab α,
    tabGet dflt (t.filter fun e => decide (e.1 ≠ k)) j = if j = k then dflt j else tabGet dflt t j
  | [] => by simp [tabGet]
  | (i, w) :: t => by
    have ih := tabGet_drop dflt k j t
    by_cases h : i = k
    · subst h
      by_cases hj : j = i
      · simpa [List.filter_cons, hj] using (by simpa [hj] using ih)
      · rw [if_neg hj] at ih ⊢
        simp only [List.filter_cons, ne_eq, not_true_eq_false, decide_false, Bool.false_eq_true, if_false, tabGet,
          if_neg (Ne.symm hj)]
        exact ih
    · by_cases hj : j = k
      · rw [if_pos hj] at ih ⊢
        have : i ≠ j := fun e => h (e.trans hj)
        simp only [List.filter_cons, ne_eq, h, not_false_eq_true, decide_true, if_true, tabGet, if_neg this]
        exact ih
      · rw [if_neg hj] at ih ⊢
        simp only [List.filter_cons, ne_eq, h, not_false_eq_true, decide_true, if_true, tabGet]
        by_cases hi : i = j
        · simp [hi]
        · rw [if_neg hi, if_neg hi]; exact ih

theorem tabGet_ins_self (dflt : Nat → α) (k : Nat) (v : α) : ∀ t : Tab α, (∀ e ∈ t, e.1 ≠ k) →
    tabGet dflt (tabIns k v t) k = v
  | [], _ => by simp [tabIns, tabGet]
  | (i, w) :: t, h => by
    have hi : i ≠ k := h (i, w) (by simp)
    unfold tabIns
    split
    · simp [tabGet]
    · simp only [tabGet, if_neg hi]
      exact tabGet_ins_self dflt k v t fun e he => h e (by simp [he])

theorem tabGet_ins_other (dflt : Nat → α) (k j : Nat) (v : α) (hj : j ≠ k) : ∀ t : Tab α,
    tabGet dflt (tabIns k v t) j = tabGet dflt t j
  | [] => by simp [tabIns, tabGet, Ne.symm hj]
  | (i, w) :: t => by
    unfold tabIns
    split
    · simp [tabGet, Ne.symm hj]
    · simp only [tabGet]
      by_cases hi : i = j
      · simp [hi]
      · rw [if_neg hi, if_neg hi]; exact tabGet_ins_other dflt k j v hj t

/-- A read after a write: the value written at its key, and every other key as before. -/
@[simp] theorem tabGet_tabSet [DecidableEq α] (dflt : Nat → α) (t : Tab α) (k j : Nat) (v : α) :
    tabGet dflt (tabSet dflt t k v) j = if j = k then v else tabGet dflt t j := by
  unfold tabSet
  simp only
  split
  · rename_i hv
    rw [tabGet_drop]
    by_cases hj : j = k
    · simp [hj, hv]
    · simp [hj]
  · by_cases hj : j = k
    · subst hj
      rw [if_pos rfl]
      exact tabGet_ins_self dflt j v _ fun e he => by simpa using (List.mem_filter.1 he).2
    · rw [tabGet_ins_other dflt k j v hj, tabGet_drop, if_neg hj, if_neg hj]

@[simp] theorem tabGet_tabMod [DecidableEq α] (dflt : Nat → α) (t : Tab α) (k j : Nat) (f : α → α) :
    tabGet dflt (tabMod dflt t k f) j = if j = k then f (tabGet dflt t k) else tabGet dflt t j := by
  simp [tabMod]

theorem tabGet_tabFilter (dflt : Nat → α) (p : Nat → Bool) (j : Nat) : ∀ t : Tab α,
    tabGet dflt (tabFilter (fun k _ => p k) t) j = if p j then tabGet dflt t j else dflt j
  | [] => by simp [tabFilter, tabGet]
  | (i, w) :: t => by
    have ih := tabGet_tabFilter dflt p j t
    simp only [tabFilter] at ih ⊢
    by_cases hp : p i
    · simp only [List.filter_cons, hp, if_true, tabGet]
      by_cases hi : i = j
      · subst hi; simp [hp]
      · rw [if_neg hi, if_neg hi]; exact ih
    · simp only [List.filter_cons, hp, Bool.false_eq_true, if_false, tabGet]
      by_cases hi : i = j
      · subst hi; rw [ih]; simp [hp]
      · rw [if_neg hi]; exact ih

theorem tabWfFrom_weaken [DecidableEq α] (dflt : Nat → α) (lo : Option Nat) (m : Nat) (hm : ∀ l, lo = some l → l ≤ m) :
    ∀ t : Tab α, tabWfFrom dflt (some m) t = true → tabWfFrom dflt lo t = true
  | [], _ => by simp [tabWfFrom]
  | (j, v) :: t, h => by
    simp only [tabWfFrom, Bool.and_eq_true, decide_eq_true_eq] at h ⊢
    refine ⟨⟨?_, h.1.2⟩, h.2⟩
    cases lo with
    | none => rfl
    | some l => simpa using lt_of_le_of_lt (hm l rfl) h.1.1

theorem tabWfFrom_filter [DecidableEq α] (dflt : Nat → α) (p : Nat × α → Bool) : ∀ (t : Tab α) (lo : Option Nat),
    tabWfFrom dflt lo t = true → tabWfFrom dflt lo (t.filter p) = true
  | [], _, _ => by simp [tabWfFrom]
  | (j, v) :: t, lo, h => by
    simp only [tabWfFrom, Bool.and_eq_true] at h
    have ih := tabWfFrom_filter dflt p t (some j) h.2
    by_cases hp : p (j, v)
    · simp only [List.filter_cons, hp, if_true, tabWfFrom, Bool.and_eq_true]
      exact ⟨h.1, ih⟩
    · simp only [List.filter_cons, hp, Bool.false_eq_true, if_false]
      refine tabWfFrom_weaken dflt lo j ?_ _ ih
      intro l hl
      subst hl
      simpa using le_of_lt (by simpa using h.1.1)

theorem tabWfFrom_ins [DecidableEq α] (dflt : Nat → α) (k : Nat) (v : α) (hv : v ≠ dflt k) : ∀ (t : Tab α) (lo : Option Nat),
    (∀ l, lo = some l → l < k) → (∀ e ∈ t, e.1 ≠ k) → tabWfFrom dflt lo t = true → tabWfFrom dflt lo (tabIns k v t) = true
  | [], lo, hl, _, _ => by
    cases lo with
    | none => simp [tabIns, tabWfFrom, hv]
    | some l => simp [tabIns, tabWfFrom, hv, hl l rfl]
  | (j, w) :: t, lo, hl, hk, h => by
    simp only [tabWfFrom, Bool.and_eq_true] at h
    unfold tabIns
    split
    · rename_i hlt
      simp only [tabWfFrom, Bool.and_eq_true, hlt, decide_true, true_and]
      refine ⟨⟨?_, by simp [hv]⟩, h.1.2, h.2⟩
      cases lo with
      | none => rfl
      | some l => simpa using hl l rfl
    · rename_i hge
      have hjk : j ≠ k := hk (j, w) (by simp)
      simp only [tabWfFrom, Bool.and_eq_true]
      refine ⟨h.1, tabWfFrom_ins dflt k v hv t (some j) ?_ (fun e he => hk e (by simp [he])) h.2⟩
      intro l hlj
      injection hlj with e
      omega

/-- A write keeps the canonical form. -/
theorem tabWf_tabSet [DecidableEq α] (dflt : Nat → α) (t : Tab α) (k : Nat) (v : α) (h : tabWf dflt t = true) :
    tabWf dflt (tabSet dflt t k v) = true := by
  have hf := tabWfFrom_filter dflt (fun e => decide (e.1 ≠ k)) t none h
  unfold tabSet tabWf
  simp only
  split
  · exact hf
  · rename_i hv
    exact tabWfFrom_ins dflt k v hv _ none (by simp) (fun e he => by simpa using (List.mem_filter.1 he).2) hf

theorem tabWf_tabMod [DecidableEq α] (dflt : Nat → α) (t : Tab α) (k : Nat) (f : α → α) (h : tabWf dflt t = true) :
    tabWf dflt (tabMod dflt t k f) = true := tabWf_tabSet dflt t k _ h

theorem tabWf_tabFilter [DecidableEq α] (dflt : Nat → α) (t : Tab α) (p : Nat → α → Bool) (h : tabWf dflt t = true) :
    tabWf dflt (tabFilter p t) = true := tabWfFrom_filter dflt _ t none h

end Sys2Proof.Machine
end

