-- ==== Sys2Proof/Laws/Ops.lean ====
section
/-! SUPPORT. What the shared operations do, said once: registers, headers and causes, rings, faults, and the memories. -/
namespace Sys2Proof.Machine

/-! ### Reading after a change -/

@[simp] theorem rg_setRg (k j : Nat) (v : W64) (d : Dev) : rg j (setRg k v d) = if j = k then v else rg j d := by
  simp [rg, setRg]
@[simp] theorem rg_setRgN (k j n : Nat) (d : Dev) : rg j (setRgN k n d) = if j = k then BitVec.ofNat 64 n else rg j d := by
  simp [setRgN]
theorem rgN_setRgN (k n : Nat) (d : Dev) (h : n < 2 ^ 64) : rgN k (setRgN k n d) = n := by
  simp only [rgN, rg_setRgN, if_true, BitVec.toNat_ofNat]
  exact Nat.mod_eq_of_lt h
/-- A counter advances modulo 2³² and no other register changes (R136). -/
theorem rgN_addRg (k n : Nat) (d : Dev) : rgN k (addRg k n d) = (rgN k d + n) % 2 ^ 32 := by
  unfold addRg
  exact rgN_setRgN _ _ _ (by omega)
theorem rg_addRg_other (k j n : Nat) (d : Dev) (h : j ≠ k) : rg j (addRg k n d) = rg j d := by simp [addRg, h]
@[simp] theorem hdr_modHdr (k j : Nat) (f : Hdr → Hdr) (d : Dev) : hdr j (modHdr k f d) = if j = k then f (hdr k d) else hdr j d := by
  simp [hdr, modHdr]
@[simp] theorem ring_modRing (k j : Nat) (f : Ring → Ring) (d : Dev) : ring j (modRing k f d) = if j = k then f (ring k d) else ring j d := by
  simp [ring, modRing]
@[simp] theorem slot_modSlot (k j : Nat) (f : Slot → Slot) (d : Dev) : slot j (modSlot k f d) = if j = k then f (slot k d) else slot j d := by
  simp [slot, modSlot]
@[simp] theorem port_modPort (k j : Nat) (f : Port → Port) (d : Dev) : port j (modPort k f d) = if j = k then f (port k d) else port j d := by
  simp [port, modPort]
@[simp] theorem line_modLine (k j : Nat) (f : Line → Line) (d : Dev) : line j (modLine k f d) = if j = k then f (line k d) else line j d := by
  simp [line, modLine, modLfe]
@[simp] theorem spool_modSpool (k j : Nat) (f : Spool → Spool) (d : Dev) :
    spool j (modSpool k f d) = if j = k then f (spool k d) else spool j d := by
  simp [spool, modSpool, modRec]

/-! ### Causes (R44, R58, R59) -/

/-- What a cause, a record or a fault may change of the device: page headers, the causes of the tick in progress, messages owed, the
log of outputs, rings and the journal's event log. -/
def Touched (d e : Dev) : Prop :=
  e = { d with pages := e.pages, raised := e.raised, hif := { d.hif with msgs := e.hif.msgs }, outbox := e.outbox, rings := e.rings, flash := e.flash }

theorem Touched.refl (d : Dev) : Touched d d := rfl
theorem Touched.trans {a b c : Dev} (h : Touched a b) (k : Touched b c) : Touched a c := by
  unfold Touched at *
  rw [h] at k
  exact k

theorem latch_cause (h : Hdr) (bits : W32) (t : NT32) (tick : Nat) : (h.latch bits t tick).cause = h.cause ||| bits := by
  unfold Hdr.latch
  simp only
  split
  · rfl
  · split <;> rfl

theorem attend_touched (b : Dev) (fn : Nat) (d : Dev) : Touched d (attend b fn d) := by
  unfold attend
  split
  · rfl
  · rfl
theorem attend_pages (b : Dev) (fn : Nat) (d : Dev) : (attend b fn d).pages = d.pages := by
  unfold attend
  split <;> rfl
theorem driveIrq_touched (b d : Dev) : Touched d (driveIrq b d) := by
  unfold driveIrq
  simp only
  split
  · rfl
  · rfl
theorem driveIrq_pages (b d : Dev) : (driveIrq b d).pages = d.pages := by
  unfold driveIrq
  simp only
  split <;> rfl

theorem setCause_touched (pg : Nat) (bits : W32) (d : Dev) : Touched d (setCause pg bits d) :=
  have h : Touched d (modHdr pg (fun h => h.latch bits (now d) d.tb.ticks) d) := rfl
  (h.trans (attend_touched _ _ _)).trans (driveIrq_touched _ _)
/-- The headers after causes latch: that page's has them, the others are as before. -/
theorem hdr_setCause (pg j : Nat) (bits : W32) (d : Dev) :
    hdr j (setCause pg bits d) = if j = pg then (hdr pg d).latch bits (now d) d.tb.ticks else hdr j d := by
  have : hdr j (setCause pg bits d) = hdr j (modHdr pg (fun h => h.latch bits (now d) d.tb.ticks) d) := by
    unfold setCause hdr
    rw [driveIrq_pages, attend_pages]
  rw [this, hdr_modHdr]
theorem setCause_rings (pg : Nat) (bits : W32) (d : Dev) : (setCause pg bits d).rings = d.rings := by
  unfold setCause driveIrq attend
  simp only
  split <;> split <;> rfl

/-! ### Records (R52, R53) -/

theorem ringPut_touched (k : Nat) (x : Rec) (d : Dev) : Touched d (ringPut k x d) := rfl

/-- A ring other than a partition's on a standby: a record offered changes rings, causes and outputs only. -/
theorem ringOffer_touched (k : Nat) (x : Rec) (d : Dev) (h : ¬ ((d.twin.role = .standby ∨ d.twin.role = .pairing) ∧ 4 ≤ k ∧ k < 0x10000)) :
    Touched d (ringOffer k x d) := by
  unfold ringOffer
  simp only
  rw [if_neg h]
  have put (y : Dev) (hy : Touched d y) : Touched d (setCause (ringCause k false).1 ((1 <<< (ringCause k false).2 : Nat)) (ringPut k x y)) :=
    (hy.trans (ringPut_touched k x y)).trans (setCause_touched _ _ _)
  by_cases hl : (ring k d).lost = 0
  · simp only [hl, if_true]
    split
    · exact put d rfl
    · exact Touched.trans (b := modRing k _ d) rfl (setCause_touched _ _ _)
  · simp only [hl, if_false]
    split
    · exact put _ rfl
    · exact Touched.trans (b := modRing k _ d) rfl (setCause_touched _ _ _)

theorem logEvent_touched (x : Rec) (d : Dev) : Touched d (logEvent x d) := by
  unfold logEvent
  split
  · rfl
  · rfl

theorem faultRec_touched (x : Rec) (d : Dev) : Touched d (faultRec x d) := by
  unfold faultRec
  refine Touched.trans (logEvent_touched x d) (ringOffer_touched _ _ _ ?_)
  simp [ringKey]

theorem foldInto_touched (pg src : Nat) (d : Dev) : Touched d (foldInto pg src d) := rfl

theorem unlatch_touched (pg b : Nat) (l : List Nat) (d : Dev) : Touched d (unlatch pg b l d) := by
  unfold unlatch
  simp only
  split
  · exact Touched.trans (b := modHdr pg _ d) rfl (driveIrq_touched _ _)
  · exact Touched.trans (b := { modHdr pg _ d with hif := _ }) rfl (driveIrq_touched _ _)

/-- A fold over a list of changes that each are within `Touched` is within it. -/
theorem foldl_touched {α : Type} (f : Dev → α → Dev) (hf : ∀ x a, Touched x (f x a)) (l : List α) (d : Dev) : Touched d (l.foldl f d) := by
  induction l generalizing d with
  | nil => exact rfl
  | cons a l ih => exact (hf d a).trans (ih _)

theorem foldTick_touched (src : Nat) (d : Dev) : Touched d (foldTick src d) := by
  unfold foldTick
  refine Touched.trans (b := { d with raised := _ }) rfl (foldl_touched _ (fun x e => ?_) _ _)
  split
  · exact (unlatch_touched _ _ _ _).trans (foldInto_touched _ _ _)
  · rfl

/-- A cause raised, whatever its page and bit. -/
theorem raise_touched (pg b : Nat) (d : Dev) : Touched d (raise pg b d) := by
  unfold raise
  split
  · exact (((setCause_touched pg 1 d).trans (show Touched _ (modHdr pg _ (setCause pg 1 d)) from rfl)).trans
      (faultRec_touched _ _)).trans (foldTick_touched _ _)
  · exact setCause_touched _ _ _

theorem raiseF_touched (pg b src : Nat) (d : Dev) : Touched d (raiseF pg b src d) := by
  unfold raiseF
  split
  · exact foldInto_touched _ _ _
  · split
    · exact raise_touched _ _ _
    · exact (raise_touched pg b d).trans rfl

/-- A cause other than UNIT_FAULT stands once raised. -/
theorem raise_stands (pg b : Nat) (d : Dev) (hb : b ≠ 0) (h32 : b < 32) : bit (hdr pg (raise pg b d)).cause b = true := by
  have e : raise pg b d = setCause pg (1 <<< b) d := by
    unfold raise
    rw [if_neg (fun h => hb h.1)]
  rw [e, hdr_setCause, if_pos rfl, latch_cause]
  unfold bit
  rw [BitVec.getLsbD_or]
  have : (1#32 <<< b).getLsbD b = true := by
    rw [BitVec.getLsbD_shiftLeft]
    simp [h32]
  exact Bool.or_eq_true_iff.2 (.inr this)

/-! ### The memories (R12, R42) -/

theorem memoryWf_of_same (d e : Dev) (h : memoryWf d = true) (hb : e.basin = d.basin) (hd : e.dram = d.dram)
    (hr : e.regs = d.regs) (ht : e.tarns = d.tarns) : memoryWf e = true := by
  unfold memoryWf at *
  rw [hb, hd, hr, ht]
  exact h

theorem Touched.memoryWf {d e : Dev} (h : Touched d e) (w : Machine.memoryWf d = true) : Machine.memoryWf e = true :=
  memoryWf_of_same d e w (by rw [h]) (by rw [h]) (by rw [h]) (by rw [h])

theorem setRg_memoryWf (k : Nat) (v : W64) (d : Dev) (w : memoryWf d = true) : memoryWf (setRg k v d) = true := by
  unfold memoryWf at *
  simp only [Bool.and_eq_true] at w ⊢
  exact ⟨⟨w.1.1, tabWf_tabSet _ _ _ _ w.1.2⟩, w.2⟩

/-- A byte written to the DRAM: that byte, no other, and the canonical form. -/
theorem dramRead_dramWrite (a j : Nat) (b : Byte) (d : Dev) : dramRead j (dramWrite a b d) = if j = a then b else dramRead j d := by
  simp [dramRead, dramWrite]
theorem dramWrite_memoryWf (a : Nat) (b : Byte) (d : Dev) (w : memoryWf d = true) : memoryWf (dramWrite a b d) = true := by
  unfold memoryWf at *
  simp only [Bool.and_eq_true] at w ⊢
  exact ⟨⟨⟨w.1.1.1, tabWf_tabSet _ _ _ _ w.1.1.2⟩, w.1.2⟩, w.2⟩
theorem dramPut_memoryWf (a n v : Nat) (d : Dev) (w : memoryWf d = true) : memoryWf (dramPut a n v d) = true := by
  unfold dramPut
  generalize List.range n = l
  induction l generalizing d with
  | nil => exact w
  | cons i l ih => exact ih _ (dramWrite_memoryWf _ _ _ w)

/-- A word stored in the Basin: that word, no other, and the canonical form. -/
@[simp] theorem basinRead_basinPut (a j : Nat) (v : Word) (d : Dev) :
    basinRead j (basinPut [(a, v)] d) = if j = a then v else basinRead j d := by
  simp [basinRead, basinPut]
theorem basinPut_memoryWf (ws : List (Nat × Word)) (d : Dev) (w : memoryWf d = true) : memoryWf (basinPut ws d) = true := by
  have h : ∀ (l : List (Nat × Word)) (t : Tab Word), tabWf (fun _ => 0) t = true →
      tabWf (fun _ => 0) (l.foldl (fun t e => tabSet (fun _ => 0) t e.1 e.2) t) = true := by
    intro l
    induction l with
    | nil => exact fun t h => h
    | cons e l ih => exact fun t h => ih _ (tabWf_tabSet _ _ _ _ h)
  unfold memoryWf at *
  simp only [Bool.and_eq_true] at w ⊢
  exact ⟨⟨⟨h ws _ w.1.1.1, w.1.1.2⟩, w.1.2⟩, w.2⟩

/-- A word at none of the addresses stored to reads as before. -/
theorem basinRead_basinPut_other (ws : List (Nat × Word)) (j : Nat) (d : Dev) (h : ∀ e ∈ ws, e.1 ≠ j) :
    basinRead j (basinPut ws d) = basinRead j d := by
  simp only [basinRead, basinPut]
  generalize d.basin = t
  induction ws generalizing t with
  | nil => rfl
  | cons e ws ih =>
    rw [List.foldl_cons, ih (fun x hx => h x (List.mem_cons_of_mem _ hx)), tabGet_tabSet,
      if_neg (fun hj => h e List.mem_cons_self hj.symm)]

/-- Tenant granules wiped: their words read 0, all others as before, and the memories keep their form. -/
theorem basinRead_wipeTenant (gs : List Nat) (j : Nat) (d : Dev) :
    basinRead j (wipeTenant gs d) =
      if 0xA800 ≤ j / 1024 ∧ j / 1024 - 0xA800 ∈ gs then 0 else basinRead j d := by
  unfold wipeTenant
  by_cases hg : gs = []
  · simp [hg, basinRead]
  · simp only [hg, if_false, basinRead]
    rw [tabGet_tabFilter (fun _ => 0) (fun a => !(decide (0xA800 ≤ a / 1024) && gs.contains (a / 1024 - 0xA800))) j]
    by_cases h : 0xA800 ≤ j / 1024 ∧ j / 1024 - 0xA800 ∈ gs
    · simp [h]
    · simp [h]
theorem wipeTenant_memoryWf (gs : List Nat) (d : Dev) (w : memoryWf d = true) : memoryWf (wipeTenant gs d) = true := by
  unfold wipeTenant
  split
  · exact w
  · unfold memoryWf at *
    simp only [Bool.and_eq_true] at w ⊢
    exact ⟨⟨⟨tabWf_tabFilter _ _ _ w.1.1.1, w.1.1.2⟩, w.1.2⟩, w.2⟩

/-- The image of a program loaded keeps the memories' form. -/
theorem installProg_memoryWf (p id code : Nat) (image : List Word) (gs : List Nat) (pages : Nat) (d : Dev) (w : memoryWf d = true) :
    memoryWf (installProg p id code image gs pages d) = true :=
  basinPut_memoryWf _ _ (memoryWf_of_same _ _ w rfl rfl rfl rfl)

/-- A word written to the Basin from outside the jobs: as a store. -/
theorem basinRead_basinWrite (a j : Nat) (v : Word) (d : Dev) : basinRead j (basinWrite a v d) = if j = a then v else basinRead j d := by
  rw [← basinRead_basinPut]
  unfold basinWrite
  simp only
  split <;> rfl
theorem basinWrite_memoryWf (a : Nat) (v : Word) (d : Dev) (w : memoryWf d = true) : memoryWf (basinWrite a v d) = true := by
  have h := basinPut_memoryWf [(a, v)] d w
  unfold basinWrite
  simp only
  split
  · exact memoryWf_of_same _ _ h rfl rfl rfl rfl
  · exact h

/-- The memories are in canonical form after reset. -/
theorem reset_memoryWf : memoryWf State.reset.dev = true := by decide

end Sys2Proof.Machine
end

