-- ==== Sys2Proof/Laws/Word.lean ====
section
/-! SUPPORT. Fields of words: what reading a bit after replacing a field gives. -/
namespace Sys2Proof

/-- A bit of a value with field `[hi:lo]` replaced by `n`: the field's bit of `n`, every other bit as before (R8). -/
theorem bit_setFld {w : Nat} (v : BitVec w) (hi lo n k : Nat) (hk : k < w) :
    bit (setFld v hi lo n) k = if lo ≤ k ∧ k < lo + (hi + 1 - lo) then Nat.testBit n (k - lo) else bit v k := by
  unfold bit setFld
  simp only [BitVec.getLsbD, BitVec.toNat_ofNat, Nat.testBit_mod_two_pow, hk, decide_true, Bool.true_and, Nat.testBit_or,
    Nat.testBit_and, Nat.testBit_xor, Nat.testBit_shiftLeft, Nat.testBit_two_pow_sub_one]
  by_cases h1 : lo ≤ k
  · by_cases h2 : k < lo + (hi + 1 - lo)
    · have : k - lo < hi + 1 - lo := by omega
      simp [h1, h2, this]
    · have : ¬ k - lo < hi + 1 - lo := by omega
      simp [h1, h2, this]
  · simp [h1]

/-- One bit replaced. -/
theorem bit_setBit {w : Nat} (v : BitVec w) (i k : Nat) (b : Bool) (hk : k < w) :
    bit (setFld v i i (b2n b)) k = if k = i then b else bit v k := by
  rw [bit_setFld v i i _ k hk]
  by_cases h : k = i
  · subst h
    cases b <;> simp [b2n]
  · rw [if_neg (by omega), if_neg h]

end Sys2Proof
end

