-- ==== Sys2Proof/Laws/Tarn.lean ====
section
/-! SUPPORT. What the shared operations of a Tarn do: registers, memory behind the store buffer, and one instruction that completes. -/
namespace Sys2Proof.Machine

/-! ### Registers -/

@[simp] theorem tr_setTr (n k : Nat) (v : W64) (t : Tarn) : tr k (setTr n v t) = if k = n then v else tr k t := by simp [tr, setTr]
@[simp] theorem setTr_pc (n : Nat) (v : W64) (t : Tarn) : (setTr n v t).pc = t.pc := rfl
@[simp] theorem setTr_dm (n : Nat) (v : W64) (t : Tarn) : (setTr n v t).dm = t.dm := rfl
@[simp] theorem setTr_cs (n : Nat) (v : W64) (t : Tarn) : (setTr n v t).cs = t.cs := rfl
@[simp] theorem setTr_pm (n : Nat) (v : W64) (t : Tarn) : (setTr n v t).pm = t.pm := rfl
@[simp] theorem setTr_sb (n : Nat) (v : W64) (t : Tarn) : (setTr n v t).sb = t.sb := rfl
@[simp] theorem setTr_st (n : Nat) (v : W64) (t : Tarn) : (setTr n v t).st = t.st := rfl
@[simp] theorem setTr_past (n : Nat) (v : W64) (t : Tarn) : (setTr n v t).past = t.past := rfl
@[simp] theorem setTr_slots (n : Nat) (v : W64) (t : Tarn) : (setTr n v t).slots = t.slots := rfl
@[simp] theorem setTr_rpt (n : Nat) (v : W64) (t : Tarn) : (setTr n v t).rpt = t.rpt := rfl
@[simp] theorem setTr_cache (n : Nat) (v : W64) (t : Tarn) : (setTr n v t).cache = t.cache := rfl
@[simp] theorem setTr_waiting (n : Nat) (v : W64) (t : Tarn) : (setTr n v t).waiting = t.waiting := rfl
@[simp] theorem setTr_mail (n : Nat) (v : W64) (t : Tarn) : (setTr n v t).mail = t.mail := rfl

@[simp] theorem tr_hide (p : Nat) (o : W64) (m n : Nat) (t : Tarn) : tr n (hide p o m t) = tr n t := rfl
@[simp] theorem hide_dm (p : Nat) (o : W64) (m : Nat) (t : Tarn) : (hide p o m t).dm = t.dm := rfl
@[simp] theorem hide_cs (p : Nat) (o : W64) (m : Nat) (t : Tarn) : (hide p o m t).cs = t.cs := rfl
@[simp] theorem hide_pm (p : Nat) (o : W64) (m : Nat) (t : Tarn) : (hide p o m t).pm = t.pm := rfl
@[simp] theorem hide_sb (p : Nat) (o : W64) (m : Nat) (t : Tarn) : (hide p o m t).sb = t.sb := rfl
@[simp] theorem hide_pc (p : Nat) (o : W64) (m : Nat) (t : Tarn) : (hide p o m t).pc = t.pc := rfl
@[simp] theorem hide_slots (p : Nat) (o : W64) (m : Nat) (t : Tarn) : (hide p o m t).slots = t.slots := rfl
@[simp] theorem hide_rpt (p : Nat) (o : W64) (m : Nat) (t : Tarn) : (hide p o m t).rpt = t.rpt := rfl
@[simp] theorem hide_st (p : Nat) (o : W64) (m : Nat) (t : Tarn) : (hide p o m t).st = t.st := rfl
@[simp] theorem tr_reveal (p n : Nat) (t : Tarn) : tr n (reveal p t) = tr n t := rfl
@[simp] theorem reveal_dm (p : Nat) (t : Tarn) : (reveal p t).dm = t.dm := rfl
@[simp] theorem reveal_cs (p : Nat) (t : Tarn) : (reveal p t).cs = t.cs := rfl
@[simp] theorem reveal_pm (p : Nat) (t : Tarn) : (reveal p t).pm = t.pm := rfl
@[simp] theorem reveal_sb (p : Nat) (t : Tarn) : (reveal p t).sb = t.sb := rfl
@[simp] theorem reveal_pc (p : Nat) (t : Tarn) : (reveal p t).pc = t.pc := rfl
@[simp] theorem reveal_slots (p : Nat) (t : Tarn) : (reveal p t).slots = t.slots := rfl
@[simp] theorem reveal_rpt (p : Nat) (t : Tarn) : (reveal p t).rpt = t.rpt := rfl
@[simp] theorem reveal_st (p : Nat) (t : Tarn) : (reveal p t).st = t.st := rfl
@[simp] theorem tr_ageAll (n : Nat) (t : Tarn) : tr n (ageAll t) = tr n t := rfl
@[simp] theorem ageAll_dm (t : Tarn) : (ageAll t).dm = t.dm := rfl
@[simp] theorem ageAll_cs (t : Tarn) : (ageAll t).cs = t.cs := rfl
@[simp] theorem ageAll_pm (t : Tarn) : (ageAll t).pm = t.pm := rfl
@[simp] theorem ageAll_sb (t : Tarn) : (ageAll t).sb = t.sb := rfl
@[simp] theorem ageAll_pc (t : Tarn) : (ageAll t).pc = t.pc := rfl
@[simp] theorem ageAll_slots (t : Tarn) : (ageAll t).slots = t.slots := rfl
@[simp] theorem ageAll_rpt (t : Tarn) : (ageAll t).rpt = t.rpt := rfl
@[simp] theorem ageAll_st (t : Tarn) : (ageAll t).st = t.st := rfl
@[simp] theorem ageAll_cache (t : Tarn) : (ageAll t).cache = t.cache := rfl
@[simp] theorem userMode_ageAll (t : Tarn) : userMode (ageAll t) = userMode t := rfl

@[simp] theorem tarn_modTarn (c k : Nat) (f : Tarn → Tarn) (d : Dev) :
    tarn k (modTarn c f d) = if k = c then f (tarn c d) else tarn k d := by simp [tarn, modTarn]

/-- A write of a D register by an operation other than a load: seen at once by every reader (R229). -/
theorem writeReg_d (n : Nat) (v : Word) (t : Tarn) (h : n < 16) :
    writeReg n v false t = reveal n (setTr n (v.zeroExtend 64) t) := by
  have hw : regWidth n = 36 := by simp [regWidth, h]
  have hv : (BitVec.ofNat 64 (v.toNat % 2 ^ 36) : W64) = v.zeroExtend 64 := by
    have := v.isLt
    apply BitVec.eq_of_toNat_eq
    simp only [BitVec.toNat_ofNat, BitVec.toNat_setWidth]
    omega
  unfold writeReg
  rw [if_neg (by omega), if_pos h, hw, hv]
  simp

/-- ST after flags are set: N and Z from the value where given, C where given, V and DZ raised where true, nothing else. -/
theorem bit_setFlags (v : Word) (c : Option Bool) (ov dz : Bool) (t : Tarn) (k : Nat) (hk : k < 64) :
    bit (tr 0x30 (setFlags (some v) c ov dz t)) k =
      if k = 2 then bit v 35 else if k = 1 then decide (v = 0) else if k = 0 then c.getD (bit (tr 0x30 t) 0)
      else if k = 3 then ov || bit (tr 0x30 t) 3 else if k = 4 then dz || bit (tr 0x30 t) 4 else bit (tr 0x30 t) k := by
  have one : (1 : Nat) = b2n true := rfl
  unfold setFlags
  simp only [tr_hide, tr_setTr, if_true, stOf]
  rcases c with _ | c <;> rcases ov with _ | _ <;> rcases dz with _ | _ <;>
    simp only [one, if_true, Bool.false_eq_true, if_false, bit_setBit _ _ _ _ hk, Option.getD, Bool.true_or, Bool.false_or] <;>
    (split_ifs <;> first | rfl | omega | simp_all)

theorem tr_setFlags (nz : Option Word) (c : Option Bool) (ov dz : Bool) (t : Tarn) (k : Nat) (hk : k ≠ 0x30) :
    tr k (setFlags nz c ov dz t) = tr k t := by
  unfold setFlags
  simp [hk]

/-- Setting flags touches no memory and no pipeline state but ST's. -/
theorem setFlags_rest (nz : Option Word) (c : Option Bool) (ov dz : Bool) (t : Tarn) :
    (setFlags nz c ov dz t).dm = t.dm ∧ (setFlags nz c ov dz t).cs = t.cs ∧ (setFlags nz c ov dz t).pm = t.pm ∧
      (setFlags nz c ov dz t).sb = t.sb := ⟨rfl, rfl, rfl, rfl⟩

/-! ### Data memory as a load reads it -/

theorem drained_append (a b : List PendStore) (m : Tab Word) : drained (a ++ b) m = drained b (drained a m) := by
  simp [drained]

/-- Stores that have retired and stores still pending give loads the same memory. -/
theorem drained_split (l : List PendStore) (g : Nat) (m : Tab Word) : drained (l.drop g) (drained (l.take g) m) = drained l m := by
  rw [← drained_append, List.take_append_drop]

/-! ### Cycles and the store buffer -/

theorem loadWait_drop (sp : Nat) (l : List Nat) (sb : List PendStore) : ∃ g, (loadWait sp l sb).2 = sb.drop g := by
  unfold loadWait
  split
  · exact ⟨0, rfl⟩
  · split
    · split
      · exact ⟨0, rfl⟩
      · exact ⟨_, rfl⟩
    · exact ⟨0, rfl⟩

theorem waits_drop (sp : Nat) : ∀ (ls : List (List Nat)) (x : Nat × List PendStore),
    ∃ g, (ls.foldl (fun x l => let y := loadWait sp l x.2; (x.1 + y.1, y.2)) x).2 = x.2.drop g
  | [], x => ⟨0, rfl⟩
  | l :: ls, x => by
    obtain ⟨g, hg⟩ := loadWait_drop sp l x.2
    obtain ⟨k, hk⟩ := waits_drop sp ls (x.1 + (loadWait sp l x.2).1, (loadWait sp l x.2).2)
    refine ⟨g + k, ?_⟩
    simp only [List.foldl_cons]
    rw [hk, hg, List.drop_drop]

/-- The store buffer after an instruction: the stores pending before it and its own, less those that have retired. -/
theorem costOf_sb (i : TI) (three par : Bool) (u : Use) (t : Tarn) :
    ∃ g, (costOf i three par u t).sb = (t.sb ++ u.stores).drop g ∧ g ≤ (t.sb ++ u.stores).length := by
  have h0 : ∃ g, (if (three && decide (0 < (u.loads.map fun l => ceilDiv l.length 2).foldl (· + ·) 0) && decide (4 ≤ t.sb.length))
      then t.sb.drop 1 else t.sb) = t.sb.drop g := by
    split
    · exact ⟨1, rfl⟩
    · exact ⟨0, rfl⟩
  obtain ⟨g0, h0⟩ := h0
  unfold costOf pushStores
  simp only
  rw [h0]
  obtain ⟨g1, h1⟩ := waits_drop (if three then 1 else 2) (waiters i u) (0, t.sb.drop g0)
  simp only [List.drop_drop] at h1
  rw [h1]
  simp only [List.drop_drop]
  generalize g0 + g1 + _ + _ = g
  refine ⟨min g t.sb.length, ?_, by simp only [List.length_append]; omega⟩
  rw [List.drop_append_of_le_length (Nat.min_le_right _ _)]
  congr 1
  by_cases h : g ≤ t.sb.length
  · rw [min_eq_left h]
  · rw [min_eq_right (by omega), List.drop_eq_nil_of_le (by omega), List.drop_length]

theorem costOf_all (i : TI) (three par : Bool) (u : Use) (t : Tarn) : ∃ (x y : Bool) (w : Nat), (costOf i three par u t).all =
    1 + b2n i.ext + (match i.op with | .mpyl => 1 | .div => 19 | .callu => 3 | _ => 0) + 2 * b2n par + b2n x + b2n y + min 6 w :=
  ⟨_, _, _, rfl⟩

/-- No instruction but a far access takes more than 31 cycles of its own (R272). -/
theorem costOf_le (i : TI) (three par : Bool) (u : Use) (t : Tarn) : (costOf i three par u t).all ≤ 31 := by
  have b (x : Bool) : b2n x ≤ 1 := by cases x <;> decide
  obtain ⟨x, y, w, h⟩ := costOf_all i three par u t
  have h1 := b x
  have h2 := b y
  have h3 := b par
  have h4 := b i.ext
  have h5 : (match i.op with | .mpyl => 1 | .div => 19 | .callu => 3 | _ => 0 : Nat) ≤ 19 := by split <;> omega
  rw [h]
  omega

/-! ### One instruction that completes -/

theorem tr_setSeen (p n k : Nat) (v : W64) (t : Tarn) (h : k ≠ n) : tr k (setSeen p n v t) = tr k t := by
  unfold setSeen
  simp only
  split
  · rfl
  · rw [tr_setTr, if_neg h]; rfl

theorem setSeen_rest (p n : Nat) (v : W64) (t : Tarn) : (setSeen p n v t).dm = t.dm ∧ (setSeen p n v t).cs = t.cs ∧
    (setSeen p n v t).pm = t.pm ∧ (setSeen p n v t).sb = t.sb ∧ (setSeen p n v t).slots = t.slots ∧ (setSeen p n v t).st = t.st ∧
    (setSeen p n v t).waiting = t.waiting ∧ (setSeen p n v t).rpt = t.rpt := by
  unfold setSeen
  simp only
  split <;> exact ⟨rfl, rfl, rfl, rfl, rfl, rfl, rfl, rfl⟩

theorem loopEnd_rest (pc next : Nat) (was t : Tarn) : (loopEnd pc next was t).2.dm = t.dm ∧ (loopEnd pc next was t).2.cs = t.cs ∧
    (loopEnd pc next was t).2.pm = t.pm ∧ (loopEnd pc next was t).2.sb = t.sb ∧ (loopEnd pc next was t).2.slots = t.slots ∧
    (loopEnd pc next was t).2.st = t.st ∧ (loopEnd pc next was t).2.waiting = t.waiting ∧ (loopEnd pc next was t).2.rpt = t.rpt ∧
    ∀ k, k ≠ 0x31 → tr k (loopEnd pc next was t).2 = tr k t := by
  unfold loopEnd
  simp only
  split
  · simp
  · split
    · refine ⟨(setSeen_rest ..).1, (setSeen_rest ..).2.1, (setSeen_rest ..).2.2.1, (setSeen_rest ..).2.2.2.1,
        (setSeen_rest ..).2.2.2.2.1, (setSeen_rest ..).2.2.2.2.2.1, (setSeen_rest ..).2.2.2.2.2.2.1, (setSeen_rest ..).2.2.2.2.2.2.2,
        fun k hk => tr_setSeen _ _ _ _ _ hk⟩
    · refine ⟨(setSeen_rest ..).1, (setSeen_rest ..).2.1, (setSeen_rest ..).2.2.1, (setSeen_rest ..).2.2.2.1,
        (setSeen_rest ..).2.2.2.2.1, (setSeen_rest ..).2.2.2.2.2.1, (setSeen_rest ..).2.2.2.2.2.2.1, (setSeen_rest ..).2.2.2.2.2.2.2,
        fun k hk => tr_setSeen _ _ _ _ _ hk⟩

theorem loopEnd_next (pc next : Nat) (was t : Tarn) (h : loopReg 0x31 was = 0) : (loopEnd pc next was t).1 = next := by
  simp [loopEnd, h]

/-- What `advance` leaves where no repeat and no delay slot is in progress. -/
theorem advance_plain (i : TI) (was t : Tarn) (skip : Option Nat) (h1 : was.rpt = none) (h2 : was.slots = none) :
    (advance i was t skip).dm = t.dm ∧ (advance i was t skip).cs = t.cs ∧ (advance i was t skip).pm = t.pm ∧
    (advance i was t skip).sb = t.sb ∧ (advance i was t skip).slots = t.slots ∧ (advance i was t skip).st = t.st ∧
    (advance i was t skip).rpt = t.rpt ∧ (advance i was t skip).waiting = t.waiting ∧
    (∀ k, k ≠ 0x31 → tr k (advance i was t skip) = tr k t) ∧
    (loopReg 0x31 was = 0 → (advance i was t skip).pc = BitVec.ofNat 14 (skip.getD (was.pc.toNat + 1 + b2n i.ext))) := by
  have l := loopEnd_rest was.pc.toNat (was.pc.toNat + 1 + b2n i.ext) was t
  unfold advance
  simp only [h1, h2, slotEnd]
  refine ⟨l.1, l.2.1, l.2.2.1, l.2.2.2.1, l.2.2.2.2.1, l.2.2.2.2.2.1, l.2.2.2.2.2.2.2.1, l.2.2.2.2.2.2.1,
    l.2.2.2.2.2.2.2.2, fun h => ?_⟩
  simp [loopEnd_next _ _ _ _ h]

/-- The core after its operation gave `t`: the stores that retire have retired and the program counter has moved on. -/
def landed (c : Nat) (i : TI) (t : Tarn) (u : Use) (skip : Option Nat) (d : Dev) : Tarn :=
  let was := ageAll (tarn c d)
  let k := costOf i (threeBus c d) (cacheError c was) u was
  let gone := was.sb.length + u.stores.length - k.sb.length
  let t1 := { t with sb := k.sb, dm := drained ((was.sb ++ u.stores).take gone) t.dm }
  let t2 := if userMode was then setTr 0x3F (BitVec.ofNat 64 ((tr 0x3F was).toNat - k.all)) t1 else t1
  let x := advance i was t2 skip
  { x with
    fetches := x.fetches + b2n (cached was), refetched := x.rpt.isSome && (cacheError c was || (was.rpt.isSome && was.refetched))
    cyc := x.cyc + k.all, stall3 := x.stall3 + k.bus, stallSb := x.stallSb + k.wait }

theorem completeInstr_lands (c : Nat) (i : TI) (t : Tarn) (u : Use) (skip : Option Nat) (d : Dev) (hs : (tarn c d).slots = none)
    (h : userMode (tarn c d) = true → (costOf i (threeBus c d) (cacheError c (ageAll (tarn c d))) u (ageAll (tarn c d))).all < (tr 0x3F (tarn c d)).toNat) :
    completeInstr c i (.go t u skip) d = if userMode (tarn c d) then modTarn c (fun _ => landed c i t u skip d) d
      else chargeWdog c (costOf i (threeBus c d) (cacheError c (ageAll (tarn c d))) u (ageAll (tarn c d))).all (modTarn c (fun _ => landed c i t u skip d) d) := by
  have hafter : slotEnd (ageAll (tarn c d)) = none := by simp [slotEnd, hs]
  unfold completeInstr
  simp only [hafter, afterSlots, ite_self]
  rw [if_neg]
  · rfl
  · rintro ⟨h1, h2⟩
    have := h h1
    exact absurd h2 (by simpa using this)

/-- What the core holds after an instruction that completes with no repeat and no delay slot in progress. -/
theorem landed_plain (c : Nat) (i : TI) (t : Tarn) (u : Use) (skip : Option Nat) (d : Dev) (hs : (tarn c d).slots = none)
    (hr : (tarn c d).rpt = none) :
    (∀ n, n ≠ 0x31 → n ≠ 0x3F → tr n (landed c i t u skip d) = tr n t) ∧
      loadsSee (landed c i t u skip d) = drained ((tarn c d).sb ++ u.stores) t.dm ∧ (landed c i t u skip d).cs = t.cs ∧
      (landed c i t u skip d).pm = t.pm ∧ (landed c i t u skip d).slots = t.slots ∧ (landed c i t u skip d).st = t.st ∧
      (landed c i t u skip d).rpt = t.rpt ∧ (landed c i t u skip d).waiting = t.waiting ∧
      (loopReg 0x31 (ageAll (tarn c d)) = 0 →
        (landed c i t u skip d).pc = BitVec.ofNat 14 (skip.getD ((tarn c d).pc.toNat + 1 + b2n i.ext))) := by
  obtain ⟨g, hg, hgl⟩ := costOf_sb i (threeBus c d) (cacheError c (ageAll (tarn c d))) u (ageAll (tarn c d))
  have hgone : (ageAll (tarn c d)).sb.length + u.stores.length - (costOf i (threeBus c d) (cacheError c (ageAll (tarn c d))) u (ageAll (tarn c d))).sb.length = g := by
    rw [hg]
    simp only [List.length_drop, List.length_append] at *
    omega
  unfold landed
  simp only [hgone]
  generalize costOf i (threeBus c d) (cacheError c (ageAll (tarn c d))) u (ageAll (tarn c d)) = k at *
  generalize hy : (if userMode (ageAll (tarn c d)) then _ else _ : Tarn) = y
  have ad := advance_plain i (ageAll (tarn c d)) y skip hr hs
  have hd : y.dm = drained (((tarn c d).sb ++ u.stores).take g) t.dm := by rw [← hy]; split <;> rfl
  have hb : y.sb = k.sb := by rw [← hy]; split <;> rfl
  refine ⟨fun n h1 h3 => ?_, ?_, ?_, ?_, ?_, ?_, ?_, ?_, ?_⟩
  · refine (ad.2.2.2.2.2.2.2.2.1 n h1).trans ?_
    rw [← hy]
    split
    · rw [tr_setTr, if_neg h3]; rfl
    · rfl
  · show drained (advance i (ageAll (tarn c d)) y skip).sb (advance i (ageAll (tarn c d)) y skip).dm = _
    rw [ad.1, ad.2.2.2.1, hd, hb, hg]
    exact drained_split _ _ _
  · exact ad.2.1.trans (by rw [← hy]; split <;> rfl)
  · exact ad.2.2.1.trans (by rw [← hy]; split <;> rfl)
  · exact ad.2.2.2.2.1.trans (by rw [← hy]; split <;> rfl)
  · exact ad.2.2.2.2.2.1.trans (by rw [← hy]; split <;> rfl)
  · exact ad.2.2.2.2.2.2.1.trans (by rw [← hy]; split <;> rfl)
  · exact ad.2.2.2.2.2.2.2.1.trans (by rw [← hy]; split <;> rfl)
  · exact ad.2.2.2.2.2.2.2.2.2

/-- The job a core runs depends on nothing of the core but its state. -/
theorem headJob_modTarn (c : Nat) (f : Tarn → Tarn) (d : Dev) (h : (f (tarn c d)).st = (tarn c d).st) :
    headJob c (modTarn c f d) = headJob c d := by
  have hj : jobs c (modTarn c f d) = jobs c d := rfl
  simp [headJob, hj, h]

theorem chargeWdog_rest (c n : Nat) (d : Dev) (h : isControlCore c = true ∨ headJob c d = none ∨ n < (tr 0x34 (tarn c d)).toNat) :
    ∃ v, chargeWdog c n d = d ∨ chargeWdog c n d = modTarn c (setTr 0x34 v) d := by
  unfold chargeWdog
  split
  · exact ⟨0, .inl rfl⟩
  · rename_i hn
    simp only [Bool.or_eq_true, not_or, Bool.not_eq_true] at hn
    rcases h with h | h | h
    · simp [h] at hn
    · simp [h] at hn
    · simp only
      rw [if_neg (by omega)]
      exact ⟨_, .inr rfl⟩

/-- What an instruction leaves that completes undisturbed: nothing of the device but its core; of the core the registers its operation
gave, data memory with its stores behind those pending before it, and the other memories as its operation left them. -/
theorem completeInstr_steady (c : Nat) (i : TI) (t : Tarn) (u : Use) (skip : Option Nat) (d : Dev) (h : Steady c d) 
    (hw : tr 0x34 t = tr 0x34 (tarn c d)) (hst : t.st = (tarn c d).st) :
    completeInstr c i (.go t u skip) d = { d with tarns := (completeInstr c i (.go t u skip) d).tarns } ∧
      (∀ k, k ≠ c → tarn k (completeInstr c i (.go t u skip) d) = tarn k d) ∧
      ∃ x : Tarn, tarn c (completeInstr c i (.go t u skip) d) = x ∧
      (∀ n, n ≠ 0x31 → n ≠ 0x34 → n ≠ 0x3F → tr n x = tr n t) ∧
      loadsSee x = drained ((tarn c d).sb ++ u.stores) t.dm ∧ x.cs = t.cs ∧ x.pm = t.pm ∧ x.slots = t.slots ∧ x.st = t.st ∧
      x.rpt = t.rpt ∧ x.waiting = t.waiting ∧
      (loopReg 0x31 (ageAll (tarn c d)) = 0 → x.pc = BitVec.ofNat 14 (skip.getD ((tarn c d).pc.toNat + 1 + b2n i.ext))) := by
  obtain ⟨hs, hr, hc⟩ := h
  have hle := costOf_le i (threeBus c d) (cacheError c (ageAll (tarn c d))) u (ageAll (tarn c d))
  have lp := landed_plain c i t u skip d hs hr
  have hl := completeInstr_lands c i t u skip d hs (fun hu => by rw [if_pos hu] at hc; omega)
  rw [hl]
  split
  · refine ⟨rfl, fun j hj => by simp [hj], _, rfl, ?_⟩
    simp only [tarn_modTarn, if_true]
    exact ⟨fun n h1 _ h3 => lp.1 n h1 h3, lp.2⟩
  · rename_i hu
    rw [if_neg hu] at hc
    have hw' : tr 0x34 (landed c i t u skip d) = tr 0x34 (tarn c d) := (lp.1 0x34 (by decide) (by decide)).trans hw
    obtain ⟨v, hv⟩ := chargeWdog_rest c (costOf i (threeBus c d) (cacheError c (ageAll (tarn c d))) u (ageAll (tarn c d))).all
      (modTarn c (fun _ => landed c i t u skip d) d) (by
        rcases hc with hc | hc | hc
        · exact .inl hc
        · refine .inr (.inl ((headJob_modTarn c _ d ?_).trans hc))
          exact lp.2.2.2.2.2.1.trans hst
        · refine .inr (.inr ?_)
          simp only [tarn_modTarn, if_true, hw']
          omega)
    rcases hv with hv | hv
    · rw [hv]
      refine ⟨rfl, fun j hj => by simp [hj], _, rfl, ?_⟩
      simp only [tarn_modTarn, if_true]
      exact ⟨fun n h1 _ h3 => lp.1 n h1 h3, lp.2⟩
    · rw [hv]
      refine ⟨rfl, fun j hj => by simp [hj], _, rfl, ?_⟩
      simp only [tarn_modTarn, if_true]
      exact ⟨fun n h1 h2 h3 => by simpa [h2] using lp.1 n h1 h3, lp.2⟩

/-- The same of an instruction command, by what the core fetches and what its operation gives. -/
theorem runTarn_go (c : Nat) (op : TOp) (sem : TI → Tarn → Eff) (i : TI) (t : Tarn) (u : Use) (skip : Option Nat) (d : Dev)
    (hf : fetchTarn c op d = .ok i) (hg : sem i (ageAll (tarn c d)) = .go t u skip) :
    runTarn c op sem d = completeInstr c i (.go t u skip) d := by
  simp only [runTarn, hf, hg]

end Sys2Proof.Machine
end

