-- ==== Sys2Proof/WellFormed.lean ====
section
/-! DEFINITION. Well-formed commands: operands inside the ranges the rules give the things they number. Every command has its
meaning on any operands; a numbered thing outside its range is one the device does not have. -/
namespace Sys2Proof

/-- Function numbers: the PF is 0, VF p is p (R37). -/
def fnOk (fn : Nat) : Bool := decide (fn ≤ 1023)
/-- Partitions (R64). -/
def partOk (p : Nat) : Bool := decide (p ≤ 1023)
/-- Tarn cores: 64 media and 4 control cores (R225). -/
def coreNumOk (c : Nat) : Bool := decide (c ≤ 67)
/-- Media ports (R303). -/
def portOk (p : Nat) : Bool := decide (p ≤ 3)
/-- Ports with a transmit ring: the media ports and the management port (R311). -/
def txPortOk (p : Nat) : Bool := decide (p ≤ 4)
/-- Legs: 0 A, 1 B (R27). -/
def legOk (leg : Nat) : Bool := decide (leg ≤ 1)
/-- Lines of the Line Front End (R385). -/
def lineOk (n : Nat) : Bool := decide (n ≤ 31)
/-- Channel slots (R64). -/
def slotOk (k : Nat) : Bool := decide (k ≤ 16383)
/-- Rings of a partition: event, exception and recording, and the fault ring of the HIF page (R51). -/
def ringOk (r : Nat) : Bool := decide (r ≤ 3)
/-- TYPE of a record (R51). -/
def typeOk (t : Nat) : Bool := decide (t ≤ 255)
/-- Transmit queues that PFC names (R308). -/
def queueOk (q : Nat) : Bool := decide (q ≤ 7)
/-- Workers of a cluster (R413). -/
def workerOk (w : Nat) : Bool := decide (1 ≤ w) && decide (w ≤ 15)
/-- Fabric addresses (R420). -/
def fabricOk (a : Nat) : Bool := decide (a ≤ 4095)
/-- Controllers of the board management bus (R323). -/
def controllerOk (c : Nat) : Bool := decide (c ≤ 1)
/-- Module cages (R323). -/
def cageOk (c : Nat) : Bool := decide (c ≤ 3)
/-- Bytes of one transfer of the board management bus (R323). -/
def bytesOk (n : Nat) : Bool := decide (n ≤ 32)
/-- Sizes of a host access in bytes (R46). -/
def sizeOk (n : Nat) : Bool := decide (n = 1 ∨ n = 2 ∨ n = 4 ∨ n = 8)
/-- BARs that answer accesses (R40). -/
def barOk (b : Nat) : Bool := decide (b = 0 ∨ b = 2)
/-- Offsets of BAR2 (R41, R42). -/
def barOffOk (off : Nat) : Bool := decide (off < 2 ^ 32)
/-- Lanes of the Twin Link that can train (R330). -/
def lanesOk (n : Nat) : Bool := decide (n = 1 ∨ n = 2 ∨ n = 4)
/-- Bits of a SHIFT (R405). -/
def bitsOk (n : Nat) : Bool := decide (n ≤ 32)
/-- A frame comes in at a media port, or at the management port as 4. -/
def frameOk (f : RxFrame) : Bool := txPortOk f.port
/-- A PTP message comes in at a media port. -/
def ptpOk (m : PtpMsg) : Bool := portOk m.port

/-- The checks on a command's operands. -/
def Instr.wellFormed : Instr → Bool
  | .passBoundary => true
  | .dispatchDeadline => true
  | .operandVisible _ leg => legOk leg
  | .quiesceEnd slot => slotOk slot
  | .partitionClosed p => partOk p
  | .prefetch _ leg _ => legOk leg
  | .prefetchArrive _ leg => legOk leg
  | .playoutEvent _ leg => legOk leg
  | .rtcpReport _ leg => legOk leg
  | .toneEventEnd _ => true
  | .inactivityTimeout _ => true
  | .firmwareTimer _ => true
  | .channelJob core => coreNumOk core
  | .busJob core => coreNumOk core
  | .streamInComplete core => coreNumOk core
  | .jobComplete core => coreNumOk core
  | .streamOutComplete core _ => coreNumOk core
  | .coreFault core _ _ => coreNumOk core
  | .watchdogExpiry core => coreNumOk core
  | .coreReturn _ => true
  | .selftestDone core _ => coreNumOk core
  | .basinScrub _ _ => true
  | .dramScrub _ _ => true
  | .writeFail _ part _ _ => partOk part
  | .vfFlr p => partOk p
  | .pfFlr => true
  | .registerWrite fn _ size _ => fnOk fn && sizeOk size
  | .unalignedRead fn bar _ size => fnOk fn && barOk bar && sizeOk size
  | .writeLatchLow fn _ _ => fnOk fn
  | .writeHighHalf fn _ _ => fnOk fn
  | .bar2Write off size _ => barOffOk off && sizeOk size
  | .bar2Read off size => barOffOk off && sizeOk size
  | .perrPop => true
  | .perrOvfClear => true
  | .softReset fn _ _ => fnOk fn
  | .causeClear fn _ _ => fnOk fn
  | .causeForce fn _ _ => fnOk fn
  | .pgFirstClear fn _ => fnOk fn
  | .pgFoldClear fn _ _ => fnOk fn
  | .pageLock fn _ => fnOk fn
  | .msixMessage fn => fnOk fn
  | .eoi fn _ => fnOk fn
  | .ringRecordOffer part r typ _ _ => partOk part && ringOk r && typeOk typ
  | .ringEnable fn part r => fnOk fn && partOk part && ringOk r
  | .ringDisable fn part r => fnOk fn && partOk part && ringOk r
  | .ringConsWrite fn part r _ => fnOk fn && partOk part && ringOk r
  | .chwRead fn part => fnOk fn && partOk part
  | .chwWrite fn part => fnOk fn && partOk part
  | .activate fn part _ => fnOk fn && partOk part
  | .chwRelease fn part _ => fnOk fn && partOk part
  | .modifyAt fn part => fnOk fn && partOk part
  | .chwOpComplete part => partOk part
  | .tbTickInc => true
  | .tbIncWrite _ => true
  | .tbStepWrite _ => true
  | .stepApply => true
  | .rearm _ => true
  | .tbExtNextWrite _ => true
  | .tbSrcWrite _ => true
  | .refclkLoss => true
  | .refclkHoldExpiry => true
  | .servoMeasurement _ _ => true
  | .sourceQualified => true
  | .sourceLost => true
  | .integerSecond _ => true
  | .ppsOutPulseEnd => true
  | .ptpSync m => ptpOk m
  | .ptpFollowUp m => ptpOk m
  | .ptpDelayReq m => ptpOk m
  | .ptpDelayResp m => ptpOk m
  | .ptpPdelayReq m => ptpOk m
  | .ptpPdelayResp m => ptpOk m
  | .ptpPdelayRespFollowUp m => ptpOk m
  | .ptpAnnounce m _ => ptpOk m
  | .ptpSignaling m _ => ptpOk m
  | .ptpMessageTx port _ => portOk port
  | .ppsInEdge _ => true
  | .ppsInMissing => true
  | .zdaSentence _ _ => true
  | .todError => true
  | .frameRx f _ _ => frameOk f
  | .pauseFrame port _ => portOk port
  | .pfcFrame port _ _ => portOk port
  | .pauseExpiry port q => portOk port && queueOk q
  | .lldpRx port _ => portOk port
  | .lldpTx => true
  | .eeeNegotiationExpiry port => portOk port
  | .flwRead fn part => fnOk fn && partOk part
  | .flwAdd fn part => fnOk fn && partOk part
  | .flwRemove fn part => fnOk fn && partOk part
  | .flwModify fn part => fnOk fn && partOk part
  | .keyInstall fn part => fnOk fn && partOk part
  | .keyErase fn part => fnOk fn && partOk part
  | .bindingWrite _ => true
  | .clsSeedWrite _ => true
  | .jbCtrlWrite _ => true
  | .egressLaunch port => portOk port
  | .txRingProdWrite port _ => txPortOk port
  | .txDescriptorDone port _ _ _ _ _ => txPortOk port
  | .linkUp port _ _ _ => portOk port
  | .linkDown port => portOk port
  | .anFail port => portOk port
  | .lpiEnter port => portOk port
  | .lpiWake port => portOk port
  | .mgmtFrameRx f => frameOk f
  | .mgmtCollision _ => true
  | .mgmtBackoffExpiry => true
  | .mdioAddress _ => true
  | .mdioWrite _ => true
  | .mdioRead _ => true
  | .mdioDone _ => true
  | .bmbCmd c _ => controllerOk c
  | .bmbDone c n _ _ _ => controllerOk c && bytesOk n
  | .busRecovery c _ _ => controllerOk c
  | .sclStuck c => controllerOk c
  | .modulePresenceChange cage _ => cageOk cage
  | .modInt cage _ => cageOk cage
  | .twinLinkUp lanes => lanesOk lanes
  | .twinLinkDown => true
  | .pairing _ => true
  | .pairRetry _ => true
  | .heartbeatTx => true
  | .heartbeat _ => true
  | .heartbeatMiss => true
  | .ingress _ => true
  | .payloadReq _ => true
  | .payload _ f => frameOk f
  | .twinOrphan => true
  | .horizon _ => true
  | .horizonTimeout _ => true
  | .line _ leg _ _ => legOk leg
  | .digest _ _ _ => true
  | .contextRequest _ => true
  | .context _ _ _ _ _ => true
  | .op _ => true
  | .opAck => true
  | .step _ _ => true
  | .stepAck => true
  | .bulk _ => true
  | .bulkComplete => true
  | .fenceAssert => true
  | .fenceRelease => true
  | .peerActFall => true
  | .peerActRise => true
  | .fenceConflict => true
  | .switchover => true
  | .switchoverBoundary => true
  | .detach => true
  | .attach => true
  | .spoolDrain p => partOk p
  | .spoolDiscard => true
  | .flashRead => true
  | .flashWrite _ => true
  | .flashErase => true
  | .calStore _ => true
  | .format => true
  | .xfDone _ => true
  | .flashPatrol _ _ => true
  | .grownBad => true
  | .wearLevel _ _ _ => true
  | .ringOn n => lineOk n
  | .ringOff n => lineOk n
  | .ringStop n => lineOk n
  | .supervisionSample n _ _ _ _ => lineOk n
  | .rangeChange n _ _ _ _ => lineOk n
  | .lineBlankChange _ => true
  | .settleEnd n => lineOk n
  | .resetNext => true
  | .resetAt => true
  | .syncClu => true
  | .decimatorReset => true
  | .lineOperandWrite n _ _ => lineOk n
  | .lineBind n _ => lineOk n
  | .lineModeWrite n _ => lineOk n
  | .sceRun => true
  | .sceHalt => true
  | .sceTxqPush _ => true
  | .sceRxqPop => true
  | .scePmWrite _ => true
  | .sceNop => true
  | .scePop => true
  | .sceLdi => true
  | .sceShift _ => true
  | .scePush => true
  | .sceGap => true
  | .sceJmp => true
  | .sceJqe => true
  | .sceHaltInstr => true
  | .drvReadyLow bits => bitsOk bits
  | .drvReadyRise _ => true
  | .stallTimeout => true
  | .clusterSyncPulse _ _ => true
  | .pulseMiss => true
  | .sync _ _ _ _ _ => true
  | .poll w => workerOk w
  | .status w _ _ _ _ => workerOk w
  | .cluStep _ _ => true
  | .cluMessageTx => true
  | .helloTx => true
  | .hello port addr _ => portOk port && fabricOk addr
  | .neighbourLoss port addr => portOk port && fabricOk addr
  | .routeTx => true
  | .route port src _ => portOk port && fabricOk src
  | .routeExpiry dst => fabricOk dst
  | .trunk port _ _ => portOk port
  | .trunkBind _ => true
  | .partitionOpen p _ => partOk p
  | .partitionClose p _ => partOk p
  | .quotaWrite p _ _ => partOk p
  | .egressWindowWrite p port _ => partOk p && portOk port
  | .prgLoad fn part => fnOk fn && partOk part
  | .prgLoadComplete part _ _ _ _ => partOk part
  | .prgUnload fn part => fnOk fn && partOk part
  | .prgQuery fn part => fnOk fn && partOk part
  | .imageRestore part _ _ => partOk part
  | .por _ => true
  | .warmReset _ => true
  | .perstAssert => true
  | .perstDeassert => true
  | .pfReady => true
  | .boot _ => true
  | .recoveryGo _ _ => true
  | .rollbackCommit _ => true
  | .pwrService => true
  | .pwrDormant => true
  | .pwrWake _ => true
  | .pwrReset => true
  | .releaseMem => true
  | .powerFail => true
  | .flushComplete => true
  | .debugSubmit _ _ => true
  | .agingRead _ => true
  | .interruptEntry core => coreNumOk core.core
  | .budgetAbort core => coreNumOk core
  | .dmaComplete core => coreNumOk core
  | .nop core => coreNumOk core
  | .add core => coreNumOk core
  | .sub core => coreNumOk core
  | .cmp core => coreNumOk core
  | .andI core => coreNumOk core
  | .orI core => coreNumOk core
  | .xor core => coreNumOk core
  | .notI core => coreNumOk core
  | .neg core => coreNumOk core
  | .abs core => coreNumOk core
  | .min core => coreNumOk core
  | .max core => coreNumOk core
  | .ash core => coreNumOk core
  | .lsh core => coreNumOk core
  | .div core => coreNumOk core
  | .mov core => coreNumOk core
  | .mva core => coreNumOk core
  | .acrd core => coreNumOk core
  | .acwr core => coreNumOk core
  | .acset core => coreNumOk core
  | .acclr core => coreNumOk core
  | .acsh core => coreNumOk core
  | .acrnd core => coreNumOk core
  | .mpyl core => coreNumOk core
  | .fld core => coreNumOk core
  | .fst core => coreNumOk core
  | .ldi core => coreNumOk core
  | .ldih core => coreNumOk core
  | .addi core => coreNumOk core
  | .subi core => coreNumOk core
  | .cmpi core => coreNumOk core
  | .andi core => coreNumOk core
  | .ori core => coreNumOk core
  | .xori core => coreNumOk core
  | .ashi core => coreNumOk core
  | .lshi core => coreNumOk core
  | .ld core => coreNumOk core
  | .st core => coreNumOk core
  | .ldh core => coreNumOk core
  | .sth core => coreNumOk core
  | .ldd core => coreNumOk core
  | .std core => coreNumOk core
  | .sta core => coreNumOk core
  | .cmac core => coreNumOk core
  | .cmacj core => coreNumOk core
  | .dmac core => coreNumOk core
  | .pmov core => coreNumOk core
  | .br core => coreNumOk core
  | .bri core => coreNumOk core
  | .call core => coreNumOk core
  | .calli core => coreNumOk core
  | .reti core => coreNumOk core
  | .callu core => coreNumOk core
  | .retu core => coreNumOk core
  | .loop core => coreNumOk core
  | .loopr core => coreNumOk core
  | .rpt core => coreNumOk core
  | .rptr core => coreNumOk core
  | .done core => coreNumOk core
  | .wait core => coreNumOk core
  | .mbox core => coreNumOk core
  | .strm core => coreNumOk core
  | .dma core => coreNumOk core
  | .tarnScrub core _ _ _ => coreNumOk core
  | .unitFailure _ => true
  | .controlCoreRestart core => coreNumOk core
  | .pcieLinkDown => true
  | .pcieLinkUp _ _ => true
  | .configWrite _ _ => true
  | .readLowHalf fn _ => fnOk fn
  | .challengeRead => true
  | .lateMaxRead => true
  | .mgmtLinkChange _ _ _ => true
  | .laneFallback lanes => lanesOk lanes
  | .linkFrameError => true
  | .cluMessageError => true
  | .spoolCommit => true
  | .blankGuardEnd n => lineOk n

end Sys2Proof
end

