-- ==== Sys2Proof/Tests/Slice0.lean ====
section
/-! SUPPORT. Tests: an ill-formed operand each check of WellFormed.lean refuses, the worked examples of the spec, and, for the
statements of Obligations.lean, a concrete state and operands that meet the hypotheses of each of their clauses together. An
obligation made of named parts has its witnesses under the parts' names; a clause with no hypothesis needs none. -/
open Sys2Proof Sys2Proof.Machine
namespace Sys2Proof.Tests
set_option Elab.async false

/-! ### Ill-formed operands -/

theorem test_wf_fn : (Instr.registerWrite 1024 0x44 4 0).wellFormed = false := by decide
theorem test_wf_size : (Instr.registerWrite 0 0x44 3 0).wellFormed = false := by decide
theorem test_wf_part : (Instr.partitionClosed 1024).wellFormed = false := by decide
theorem test_wf_core : (Instr.channelJob 68).wellFormed = false := by decide
theorem test_wf_port : (Instr.pauseFrame 4 0).wellFormed = false := by decide
theorem test_wf_txPort : (Instr.txRingProdWrite 5 0).wellFormed = false := by decide
theorem test_wf_leg : (Instr.operandVisible 0 2).wellFormed = false := by decide
theorem test_wf_line : (Instr.ringOn 32).wellFormed = false := by decide
theorem test_wf_slot : (Instr.quiesceEnd 16384).wellFormed = false := by decide
theorem test_wf_ring : (Instr.ringEnable 0 1 4).wellFormed = false := by decide
theorem test_wf_type : (Instr.ringRecordOffer 1 0 256 0 0).wellFormed = false := by decide
theorem test_wf_queue : (Instr.pauseExpiry 0 8).wellFormed = false := by decide
theorem test_wf_worker : (Instr.poll 0).wellFormed = false := by decide
theorem test_wf_fabric : (Instr.routeExpiry 4096).wellFormed = false := by decide
theorem test_wf_controller : (Instr.sclStuck 2).wellFormed = false := by decide
theorem test_wf_cage : (Instr.modulePresenceChange 4 true).wellFormed = false := by decide
theorem test_wf_bytes : (Instr.bmbDone 0 33 false false []).wellFormed = false := by decide
theorem test_wf_bar : (Instr.unalignedRead 0 1 0x44 4).wellFormed = false := by decide
theorem test_wf_barOff : (Instr.bar2Read 0x100000000 4).wellFormed = false := by decide
theorem test_wf_lanes : (Instr.twinLinkUp 3).wellFormed = false := by decide
theorem test_wf_bits : (Instr.drvReadyLow 33).wellFormed = false := by decide
theorem test_wf_frame : frameOk ⟨5, 0, 0, 64, true, true, 0, 0, [], 0, 0, none, []⟩ = false := by decide
theorem test_wf_ptp : ptpOk ⟨4, 0, 0, 0, 0, 2, 0, false, false, false, 0, 0, 0, false, 0, 0, 0, 0⟩ = false := by decide
theorem test_wf_accepts : (Instr.ringEnable 1023 1023 3).wellFormed = true := by decide
/-- No row of the opcode table gives bits. -/
theorem test_no_word_spells_a_command : decodeTableWord 36 0x412285665 = none := by decide

/-! ### Worked examples of the spec -/

/-- The CMAC word of R276's example. -/
theorem test_decode_cmac : decodeTarn 0x412285665 0 =
    some { TI.of .cmac with f := true, acn := 1, xs := 2, ys := 33, mv1 := 44, mv2 := 101 } := by decide +kernel
/-- ACCLR, RPT and STA of the band filter at the end of spec/08. -/
theorem test_decode_acclr : decodeTarn 0x014000010 0 = some { TI.of .acclr with acn := 1 } := by decide +kernel
theorem test_decode_rpt : (decodeTarn 0x61400001F 0).map (fun i => (i.op, i.cnt)) = some (.rpt, 32) := by decide +kernel
theorem test_decode_sta : decodeTarn 0x230500900 0 = some { TI.of .sta with mode := 1, an := 2, sz := 2, acn := 1 } := by decide +kernel
/-- ADD D3, D1, D2, laid out by R267 and R273. -/
theorem test_decode_add : decodeTarn 0x0010C1080 0 = some { TI.of .add with rd := 3, rs := 1, rt := 2 } := by decide +kernel
/-- ADDI D5, −1, laid out by R268 and R274. -/
theorem test_decode_addi : decodeTarn 0x10417FFFF 0 = some { TI.of .addi with rd := 5, imm := 0xFFFFFFFFF } := by decide +kernel
/-- BR EQ, 0x0123, laid out by R271 and R277. -/
theorem test_decode_br : decodeTarn 0x600200123 0 = some { TI.of .br with cond := 1, tgt := 0x123 } := by decide +kernel
/-- A reserved bit of format A set (R264). -/
theorem test_decode_reserved_bit : decodeTarn 0x0010C1081 0 = none := by decide +kernel
/-- The circular buffer of R235's example. -/
theorem test_circular : updated 0x1026 0x1000 40 5 = 0x1003 ∧ updated 0x1026 0x1000 40 (-45) = 0x1021 := by decide +kernel
/-- The narrowing table of R237's example. -/
theorem test_narrow_half : narrowHalf true true 0x20000 = (0, false) ∧ narrowHalf true true 0x60000 = (2, false) ∧
    narrowHalf true true 0x70000 = (2, false) ∧ narrowHalf true true 0x800000000 = (0x1FFFF, true) ∧
    narrowHalf true false 0x800000000 = (-0x20000, true) := by decide +kernel
theorem test_narrow_word : narrowWord true 0x800000000 = (0x7FFFFFFFF, true) := by decide +kernel
/-- The coded unit of R363's example, after its verbatim sample. -/
theorem test_rice : (codedPayload 1 2 0 [] [100, 104, 107, 109]).drop 2 = [0x23, 0x20] := by decide +kernel

/-! ### States and operands the witnesses use -/

/-- The state of a step that answers next. -/
def resOf (o : Host.Outcome State Fault Refusal) : State := match o with | .next t => t | _ => State.reset
def isNext (o : Host.Outcome State Fault Refusal) : Bool := match o with | .next _ => true | _ => false
theorem next_resOf (o : Host.Outcome State Fault Refusal) (h : isNext o = true) : o = .next (resOf o) := by
  cases o with
  | next t => rfl
  | fault _ => cases h
  | refused _ => cases h
theorem bit_beyond {w : Nat} (v : BitVec w) (k : Nat) (h : w ≤ k) : bit v k = false := BitVec.getLsbD_of_ge v k h
/-- The outputs of a job that spoke nothing. -/
def outL : JobOut := ⟨[], [], [], [], [], [], [], [], 1, Media.reset, none, [], [], none, none, [], [], [], [], false, false⟩
/-- A device in SERVICE that its host reaches: time 5 ms, the boundary of 6 ms next. -/
def tDev : Dev := { Dev.reset with
  hif := { Dev.reset.hif with perst := false, linkUp := true, pfReady := true, pfRid := 0x100, vfEnable := true, numVFs := 8, busMaster := true, vfBus := (List.range 8).map fun p => (p + 1, true) }
  tb := { TimeBase.reset with acc := 5000000#32 ++ 0#32, servo := .locked, everLocked := true, firstLocked := true }
  weir := { Weir.reset with seeded := true, nextP := 6000000, lastP := 5000000 }
  pwr := { Pwr.reset with st := .service, bootStep := 5 }
  twin := { Twin.reset with own := true }
  regs := [(rDRAM_CFG, 8)] }
def tSt (d : Dev) : State := ⟨d, []⟩
def row (fn off : Nat) : RegRow := (findRow (pageOf fn (off/4096)) (off%4096)).getD ⟨0,0,0,0,.ro,0,0,false⟩
def withRing (k : Nat) (r : Ring) (d : Dev) : Dev := { d with rings := [(k, r)] }
def slotDev (k : Nat) (c : Slot) (d : Dev) : Dev := { d with slots := tabSet (fun _ => Slot.reset) d.slots k c }
def setr (l : List (Nat × Nat)) (d : Dev) : Dev := l.foldl (fun d e => setRg e.1 (BitVec.ofNat 64 e.2) d) d
def zd : List W32 := List.replicate 64 0
def tPart : Dev := setr [(kPart 1 oPART_STATE, 1), (kPart 1 oPART_Q_CHANNELS, 4), (kPart 1 oPART_Q_CYCLES, 100000), (kPart 1 oPART_Q_BASIN, 4), (kPart 1 oPART_Q_TENANT, 0x10004), (kPart 1 oPART_Q_DRAM, 1000), (kPart 1 oPART_Q_REC, 2)] tDev
def hnd (gen part k : Nat) : W32 := mkHandle gen part k
def withChw (p : Nat) (o : ChwOp) (d : Dev) : Dev := { d with chw := [(p, some o)] }
def actSlot (p : Nat) : Slot := { Slot.reset with st := .active, part := p, desc := zd }

/-! ### Witnesses: host interface -/

namespace C02
def s0 := tSt tDev
def sLow := tSt { tDev with hif := { tDev.hif with wLatch := [(0, some (rFLASH_XF_HOST, 7))] } }
def pgL : Hdr := { Hdr.reset with locked := true }
def sLock := tSt { tDev with pages := [(0, pgL)] }
theorem witness_RejectedRegisterWrites_1 : (Reaches 0 s0.dev) ∧
    (68 < barBytes 0) ∧
    (2 ≠ 4 ∧ 2 ≠ 8 ∨ 68 % 2 ≠ 0) ∧
    (68 % 4 = 0) ∧
    (hasPage 0 (68 / 4096 : ℕ) s0.dev = true) ∧
    (64 ≤ 68 % 4096) ∧
    (findRow (pageOf 0 (68 / 4096 : ℕ)) (68 % 4096) = some (row 0 68)) ∧
    ((row 0 68).width = 32) ∧
    (laneless (pageOf 0 (68 / 4096 : ℕ)) s0.dev = false) ∧
    ((row 0 68).acc = Acc.ro) := by decide +kernel
theorem witness_RejectedRegisterWrites_2 : (Reaches 0 s0.dev) ∧
    (1044480 < barBytes 0) ∧
    (4 = 4 ∨ 4 = 8) ∧
    (1044480 % 4 = 0) ∧
    (hasPage 0 (1044480 / 4096 : ℕ) s0.dev = false) := by decide +kernel
theorem witness_RejectedRegisterWrites_3 : (Reaches 0 s0.dev) ∧
    (4092 < barBytes 0) ∧
    (4092 % 4 = 0) ∧
    (hasPage 0 (4092 / 4096 : ℕ) s0.dev = true) ∧
    (64 ≤ 4092 % 4096) ∧
    (findRow (pageOf 0 (4092 / 4096 : ℕ)) (4092 % 4096) = none) ∧
    (findRow (pageOf 0 (4092 / 4096 : ℕ)) (4092 % 4096 - 4) = none) := by decide +kernel
theorem witness_RejectedRegisterWrites_4 : (Reaches 0 sLock.dev) ∧
    (72 < barBytes 0) ∧
    (72 % 4 = 0) ∧
    (hasPage 0 (72 / 4096 : ℕ) sLock.dev = true) ∧
    (64 ≤ 72 % 4096) ∧
    (findRow (pageOf 0 (72 / 4096 : ℕ)) (72 % 4096) = some (row 0 72)) ∧
    ((row 0 72).width = 32) ∧
    (laneless (pageOf 0 (72 / 4096 : ℕ)) sLock.dev = false) ∧
    ((row 0 72).acc = Acc.rwl) ∧
    ((hdr (pageOf 0 (72 / 4096 : ℕ)) sLock.dev).locked = true) := by decide +kernel
theorem witness_RejectedRegisterWrites_5 : (Reaches 0 s0.dev) ∧
    (rFLASH_XF_HOST + 4 < barBytes 0) ∧
    ((rFLASH_XF_HOST + 4) % 4 = 0) ∧
    (hasPage 0 ((rFLASH_XF_HOST + 4) / 4096) s0.dev = true) ∧
    (64 ≤ (rFLASH_XF_HOST + 4) % 4096) ∧
    (findRow (pageOf 0 ((rFLASH_XF_HOST + 4) / 4096)) ((rFLASH_XF_HOST + 4) % 4096) = none) ∧
    (findRow (pageOf 0 ((rFLASH_XF_HOST + 4) / 4096)) ((rFLASH_XF_HOST + 4) % 4096 - 4) = some (row 0 rFLASH_XF_HOST)) ∧
    ((row 0 rFLASH_XF_HOST).width = 64) ∧
    (Option.map Prod.fst (tabGet (fun _ => none) s0.dev.hif.wLatch 0) ≠ some (rFLASH_XF_HOST + 4 - 4)) := by decide +kernel
theorem witness_PerformedRegisterAccesses_1 : (Reaches 0 sLow.dev) ∧
    (rFLASH_XF_HOST < barBytes 0) ∧
    ((hdr 0 sLow.dev).locked = false) ∧
    (0 = 0) ∧
    (tabGet (fun _ => none) sLow.dev.hif.wLatch 0 = some (rFLASH_XF_HOST, (7 : W32))) ∧
    (rFLASH_XF_HOST % 4 = 0) ∧
    (hasPage 0 (rFLASH_XF_HOST / 4096) sLow.dev = true) ∧
    (64 ≤ rFLASH_XF_HOST % 4096) ∧
    (findRow (pageOf 0 (rFLASH_XF_HOST / 4096)) (rFLASH_XF_HOST % 4096) = some (row 0 rFLASH_XF_HOST)) ∧
    ((row 0 rFLASH_XF_HOST).width = 64) ∧
    (findRow (pageOf 0 (rFLASH_XF_HOST / 4096)) (rFLASH_XF_HOST % 4096 + 4) = none) ∧
    (rFLASH_XF_HOST % 4096 + 4 < 4096) ∧
    (rFLASH_XF_HOST % 8 = 0) ∧
    (laneless (pageOf 0 (rFLASH_XF_HOST / 4096)) sLow.dev = false) ∧
    ((row 0 rFLASH_XF_HOST).acc ≠ Acc.rwl ∨ (hdr (pageOf 0 (rFLASH_XF_HOST / 4096)) sLow.dev).locked = false) ∧
    (pageOf 0 (rFLASH_XF_HOST / 4096) * 4096 + rFLASH_XF_HOST % 4096 ≠ rSCE_RXQ) := by decide +kernel
theorem witness_WordWindow_1 : (HostUp s0.dev) ∧
    (0 < 2 ^ 32) ∧
    (0 < 402653184) ∧
    (0 % 8 = 0) ∧
    (0 % 4 = 0) := by decide +kernel
theorem witness_WordWindow_2 : (HostUp s0.dev) ∧
    (402653184 < 2 ^ 32) ∧
    (8 = 4 ∨ 8 = 8) ∧
    (402653184 % 8 = 0) ∧
    (402653184 ≤ 402653184) ∧
    (402653184 < 2147483648 ∨ dramBytes s0.dev ≤ rgN rHIF_DRAM_WIN s0.dev * 2 ^ 31 + (402653184 - 2147483648)) := by decide +kernel
theorem witness_WordWindow_3 : (HostUp s0.dev) ∧
    (402653186 < 2 ^ 32) ∧
    (8 ≠ 4 ∧ 8 ≠ 8 ∨ 402653186 % 8 ≠ 0) := by decide +kernel
theorem witness_WordWindow_4 : (HostUp s0.dev) ∧
    (2147483648 < 2 ^ 32) ∧
    (4 = 4 ∨ 4 = 8) ∧
    (2147483648 % 4 = 0) ∧
    (2147483648 ≤ 2147483648) ∧
    (rgN rHIF_DRAM_WIN s0.dev * 2 ^ 31 + (2147483648 - 2147483648) + 4 ≤ dramBytes s0.dev) := by decide +kernel
def sUp := tSt { tDev with pages := [(0, { Hdr.reset with cause := 3, folded := 2 }), (0x190, { Hdr.reset with cause := 1 })] }
theorem witness_PageHeaders_1 : (Reaches 0 s0.dev) ∧
    (hasPage 0 0 s0.dev = true) ∧
    (bit (7 : W32) 0 = false ∨ bit (hdr (pageOf 0 0) s0.dev).cause 0 = false ∨ 512 ≤ pageOf 0 0) := by decide +kernel
theorem witness_PageHeaders_2 : (Reaches 0 sUp.dev) ∧
    (hasPage 0 0 sUp.dev = true) ∧
    (bit (1 : W32) 0 = true) ∧
    (bit (hdr (pageOf 0 0) sUp.dev).cause 0 = true) ∧
    (pageOf 0 0 < 512) := by decide +kernel
theorem witness_SoftReset_1 : (Reaches 0 s0.dev) ∧
    (hasPage 0 144 s0.dev = true) ∧
    (softRefusal (pageOf 0 144) s0.dev = none) ∧
    (bit (2 : W32) 1 = true) := by decide +kernel
theorem witness_SoftReset_2 : (Reaches 0 sLock.dev) ∧
    (hasPage 0 0 sLock.dev = true) ∧
    ((hdr (pageOf 0 0) sLock.dev).locked = true) := by decide +kernel
def rg0 : Ring := { Ring.reset with base := 0x10000, sizeLog2 := 6 }
def rOn : Ring := { rg0 with enable := true, prod := 5, seq := 7, writes := 69, cons := 3 }
def sRing (k : Nat) (r : Ring) := tSt { tDev with rings := [(k, r)] }
theorem witness_Rings_1 : (Reaches 0 (sRing 0 rg0).dev) ∧
    (winPart 0 0 < 1024) ∧
    (0 < 3 ∨ winPart 0 0 = 0 ∧ 0 = 3) ∧
    (6 ≤ (ring (ringKey (winPart 0 0) 0) (sRing 0 rg0).dev).sizeLog2) ∧
    ((ring (ringKey (winPart 0 0) 0) (sRing 0 rg0).dev).sizeLog2 ≤ 15) ∧
    ((ring (ringKey (winPart 0 0) 0) (sRing 0 rg0).dev).enable = false) := by decide +kernel
def w2 := (sRing 0 {rOn with lost := 3, lostFirst := 8, lostLast := 12})
theorem witness_Rings_2 : (0 = 0) ∧
    (0 < 1024) ∧
    (0 < 3 ∨ 0 = 0 ∧ 0 = 3) ∧
    (w2.dev.twin.role ≠ Role.standby ∧ w2.dev.twin.role ≠ Role.pairing ∨ 0 = 0) ∧
    (0 = 0 ∨ (65537 : W32) = (0 : W32) ∨ hPart (65537 : W32) = 0) ∧
    (160 < 256) ∧
    ((ring (ringKey (winPart 0 0) 0) w2.dev).enable = true) ∧
    ((ring (ringKey (winPart 0 0) 0) w2.dev).lost ≠ (0 : W32)) ∧
    (2 ≤ 2 ^ (ring (ringKey (winPart 0 0) 0) w2.dev).sizeLog2 - BitVec.toNat ((ring (ringKey (winPart 0 0) 0) w2.dev).prod - (ring (ringKey (winPart 0 0) 0) w2.dev).cons)) := by decide +kernel
def w3 := (sRing 0 {rOn with cons := 0xFFFFFFC5})
theorem witness_Rings_3 : (0 = 0) ∧
    (0 < 1024) ∧
    (0 < 3 ∨ 0 = 0 ∧ 0 = 3) ∧
    (w3.dev.twin.role ≠ Role.standby ∧ w3.dev.twin.role ≠ Role.pairing ∨ 0 = 0) ∧
    (0 = 0 ∨ (65537 : W32) = (0 : W32) ∨ hPart (65537 : W32) = 0) ∧
    (160 < 256) ∧
    ((ring (ringKey (winPart 0 0) 0) w3.dev).enable = true) ∧
    (2 ^ (ring (ringKey (winPart 0 0) 0) w3.dev).sizeLog2 - BitVec.toNat ((ring (ringKey (winPart 0 0) 0) w3.dev).prod - (ring (ringKey (winPart 0 0) 0) w3.dev).cons) < if (ring (ringKey (winPart 0 0) 0) w3.dev).lost = (0 : W32) then 1 else 2) := by decide +kernel
theorem witness_Rings_4 : (Reaches 0 (sRing 0 rOn).dev) ∧
    (winPart 0 0 < 1024) ∧
    (0 < 3 ∨ winPart 0 0 = 0 ∧ 0 = 3) ∧
    (2 ^ (ring (ringKey (winPart 0 0) 0) (sRing 0 rOn).dev).sizeLog2 < BitVec.toNat ((ring (ringKey (winPart 0 0) 0) (sRing 0 rOn).dev).prod - (6 : W32))) ∧
    (0 = 0) ∧
    (0 < 1024) ∧
    (0 < 3 ∨ 0 = 0 ∧ 0 = 3) ∧
    ((sRing 0 rOn).dev.twin.role ≠ Role.standby ∧ (sRing 0 rOn).dev.twin.role ≠ Role.pairing ∨ 0 = 0) ∧
    (0 = 0 ∨ (65537 : W32) = (0 : W32) ∨ hPart (65537 : W32) = 0) ∧
    (160 < 256) ∧
    ((ring (ringKey (winPart 0 0) 0) (sRing 0 rOn).dev).enable = true) ∧
    ((ring (ringKey (winPart 0 0) 0) (sRing 0 rOn).dev).lost = (0 : W32)) ∧
    (1 ≤ 2 ^ (ring (ringKey (winPart 0 0) 0) (sRing 0 rOn).dev).sizeLog2 - BitVec.toNat ((ring (ringKey (winPart 0 0) 0) (sRing 0 rOn).dev).prod - (ring (ringKey (winPart 0 0) 0) (sRing 0 rOn).dev).cons)) := by decide +kernel
def w6 := (sRing 3 {rg0 with sizeLog2 := 5})
theorem witness_Rings_5 : (Reaches 0 w6.dev) ∧
    (winPart 0 0 < 1024) ∧
    (3 < 3 ∨ winPart 0 0 = 0 ∧ 3 = 3) ∧
    ((ring (ringKey (winPart 0 0) 3) w6.dev).sizeLog2 < 6 ∨ 15 < (ring (ringKey (winPart 0 0) 3) w6.dev).sizeLog2) ∧
    (BitVec.toNat ((ring (ringKey (winPart 0 0) 3) w6.dev).prod - (0 : W32)) ≤ 2 ^ (ring (ringKey (winPart 0 0) 3) w6.dev).sizeLog2) ∧
    (0 = 0) ∧
    (0 < 1024) ∧
    (3 < 3 ∨ 0 = 0 ∧ 3 = 3) ∧
    (w6.dev.twin.role ≠ Role.standby ∧ w6.dev.twin.role ≠ Role.pairing ∨ 0 = 0) ∧
    (0 = 0 ∨ (0 : W32) = (0 : W32) ∨ hPart (0 : W32) = 0) ∧
    (255 < 256) ∧
    ((ring (ringKey (winPart 0 0) 3) w6.dev).enable = false) := by decide +kernel
def sMsg (b : Bool) := tSt { tDev with hif := { tDev.hif with msgs := [(1,3),(0, 5), (0, 6)], masked := [(0, b)], perr := [⟨0,0,0,0,0,0⟩], ovf := 3 }, pages := [(0, { Hdr.reset with cause := 2, mask := 2 })] }
theorem witness_MessagesAndErrors_1 : (Reaches 0 (sMsg true).dev) ∧
    (bit (1 : W32) 0 = true) ∧
    (attention (sMsg true).dev 0 = true) ∧
    (List.find? (fun x => decide (x.1 = 0)) (sMsg true).dev.hif.msgs = some (0, (5 : NT32))) ∧
    (tabGet (fun _ => false) (sMsg true).dev.hif.masked 0 = true) ∧
    (HostUp (sMsg true).dev) := by decide +kernel
theorem witness_MessagesAndErrors_2 : (Reaches 0 (sMsg false).dev) ∧
    (bit (0 : W32) 0 = false ∨ attention (sMsg false).dev 0 = false) ∧
    (List.find? (fun x => decide (x.1 = 0)) (sMsg false).dev.hif.msgs = some (0, (5 : NT32))) ∧
    (tabGet (fun _ => false) (sMsg false).dev.hif.masked 0 = false) := by decide +kernel
def theOp : ChwOp := ⟨1, false, 5000000, hnd 1 1 3, zd, none, 6000000, none, none⟩
theorem witness_ChannelOperationStarts_1 : (Reaches 0 (tSt tPart).dev) ∧
    (winPart 0 1 < 1024) ∧
    ((1, false, Instr.chwRead 0 1) ∈ [(1, false, Instr.chwRead 0 1), (2, false, Instr.chwWrite 0 1), (3, false, Instr.activate 0 1 false), (4, false, Instr.chwRelease 0 1 false), (5, false, Instr.modifyAt 0 1)]) ∧
    (tabGet (fun _ => none) (tSt tPart).dev.chw (winPart 0 1) = none) := by decide +kernel
def cSt (o : ChwOp) (f : Dev → Dev) := tSt (f (withChw 1 o (slotDev 3 (actSlot 1) tPart)))
def unserv (d : Dev) : Dev := { d with pwr := { d.pwr with st := .ready } }
theorem witness_ChannelOperationCompletes_1 : (1 < 1024) ∧
    (tabGet (fun _ => none) (cSt theOp id).dev.chw 1 = some theOp) ∧
    (theOp.op ∈ [1, 2, 3, 4, 5]) ∧
    (paired (cSt theOp id).dev = false) ∧
    (theOp.op = 1) ∧
    ((slot (hSlot theOp.handle) (cSt theOp id).dev).part = 1 ∧ (slot (hSlot theOp.handle) (cSt theOp id).dev).gen.toNat = hGen theOp.handle) ∧
    ((slot (hSlot theOp.handle) (cSt theOp id).dev).st = SlotSt.active) ∧
    ((slot (hSlot theOp.handle) (cSt theOp id).dev).desc ≠ []) := by decide +kernel
def w8 := (cSt {theOp with handle := hnd 2 1 3} id)
def w9 := {theOp with handle := hnd 2 1 3}
theorem witness_ChannelOperationCompletes_2 : (1 < 1024) ∧
    (tabGet (fun _ => none) w8.dev.chw 1 = some w9) ∧
    (w9.op ∈ [1, 2, 3, 4, 5]) ∧
    (paired w8.dev = false) ∧
    (w9.op = 1) ∧
    ((slot (hSlot w9.handle) w8.dev).st ≠ SlotSt.free) ∧
    (¬((slot (hSlot w9.handle) w8.dev).part = 1 ∧ (slot (hSlot w9.handle) w8.dev).gen.toNat = hGen w9.handle)) := by decide +kernel
def w10 := (cSt {theOp with op := 4} id)
def w11 := {theOp with op := 4}
theorem witness_ChannelOperationCompletes_3 : (1 < 1024) ∧
    (tabGet (fun _ => none) w10.dev.chw 1 = some w11) ∧
    (w11.op ∈ [1, 2, 3, 4, 5]) ∧
    (paired w10.dev = false) ∧
    (w11.op = 4) ∧
    (w11.at_ = false) ∧
    ((slot (hSlot w11.handle) w10.dev).part = 1 ∧ (slot (hSlot w11.handle) w10.dev).gen.toNat = hGen w11.handle) ∧
    ((slot (hSlot w11.handle) w10.dev).st = SlotSt.active) ∧
    ((slot (hSlot w11.handle) w10.dev).pend = none) ∧
    (w10.dev.pwr.st = DevSt.service) ∧
    (isStandby w10.dev = false) ∧
    (listFull (hSlot w11.handle) w10.dev (chwApply 4 1 (hSlot w11.handle) (if w11.at_ = true ∨ w11.op = 5 then w11.target.getD (0 : NT32) else nextFor w10.dev) w11.desc w10.dev) = false) := by decide +kernel
def w12 := (cSt {theOp with op := 4} unserv)
theorem witness_ChannelOperationCompletes_4 : (1 < 1024) ∧
    (tabGet (fun _ => none) w12.dev.chw 1 = some w11) ∧
    (w11.op ∈ [1, 2, 3, 4, 5]) ∧
    (paired w12.dev = false) ∧
    (w11.op ≠ 1) ∧
    (w12.dev.pwr.st ≠ DevSt.service) := by decide +kernel
def w13 := (cSt {theOp with op := 4, at_ := true, target := some 7000001} id)
def w14 := {theOp with op := 4, at_ := true, target := some 7000001}
theorem witness_ChannelOperationCompletes_5 : (1 < 1024) ∧
    (tabGet (fun _ => none) w13.dev.chw 1 = some w14) ∧
    (w14.op ∈ [1, 2, 3, 4, 5]) ∧
    (paired w13.dev = false) ∧
    (w14.op ∈ [1, 2, 4, 5]) ∧
    (w13.dev.pwr.st = DevSt.service ∨ w14.op = 1) ∧
    (isStandby w13.dev = false) ∧
    (w14.op = 5 ∨ w14.op ≠ 1 ∧ w14.at_ = true) ∧
    (atOk (if w14.at_ = true ∨ w14.op = 5 then w14.target.getD (0 : NT32) else nextFor w13.dev) w14.startP = false) := by decide +kernel
def w15 := (cSt {theOp with op := 5, target := some 7000000} id)
def w16 := {theOp with op := 5, target := some 7000000}
theorem witness_ChannelOperationCompletes_6 : (1 < 1024) ∧
    (tabGet (fun _ => none) w15.dev.chw 1 = some w16) ∧
    (w16.op ∈ [1, 2, 3, 4, 5]) ∧
    (paired w15.dev = false) ∧
    (w16.op = 5) ∧
    ((slot (hSlot w16.handle) w15.dev).part = 1 ∧ (slot (hSlot w16.handle) w15.dev).gen.toNat = hGen w16.handle) ∧
    ((slot (hSlot w16.handle) w15.dev).st = SlotSt.active) ∧
    ((slot (hSlot w16.handle) w15.dev).pend = none) ∧
    (w15.dev.pwr.st = DevSt.service) ∧
    (isStandby w15.dev = false) ∧
    (atOk (if w16.at_ = true ∨ w16.op = 5 then w16.target.getD (0 : NT32) else nextFor w15.dev) w16.startP = true) ∧
    ((20000 : ℤ) ≤ sdiff (if w16.at_ = true ∨ w16.op = 5 then w16.target.getD (0 : NT32) else nextFor w15.dev) w16.startAt) ∧
    ((20000 : ℤ) < sdiff (if w16.at_ = true ∨ w16.op = 5 then w16.target.getD (0 : NT32) else nextFor w15.dev) (now w15.dev)) ∧
    (descRefused 1 (hSlot w16.handle) w16 (if w16.at_ = true ∨ w16.op = 5 then w16.target.getD (0 : NT32) else nextFor w15.dev) w15.dev = false) ∧
    (admitCheck 1 (hSlot w16.handle) w15.dev (chwApply 5 1 (hSlot w16.handle) (if w16.at_ = true ∨ w16.op = 5 then w16.target.getD (0 : NT32) else nextFor w15.dev) w16.desc w15.dev) = 0) ∧
    (listFull (hSlot w16.handle) w15.dev (chwApply 5 1 (hSlot w16.handle) (if w16.at_ = true ∨ w16.op = 5 then w16.target.getD (0 : NT32) else nextFor w15.dev) w16.desc w15.dev) = false) := by decide +kernel
def w19 := (cSt {theOp with op := 3, handle := hnd 0 1 0} id)
def w20 := {theOp with op := 3, handle := hnd 0 1 0}
theorem witness_ChannelOperationCompletes_7 : (1 < 1024) ∧
    (tabGet (fun _ => none) w19.dev.chw 1 = some w20) ∧
    (w20.op ∈ [1, 2, 3, 4, 5]) ∧
    (paired w19.dev = false) ∧
    (w20.op = 3) ∧
    (w20.at_ = false) ∧
    (hGen w20.handle = 0) ∧
    (w19.dev.pwr.st = DevSt.service) ∧
    (isStandby w19.dev = false) ∧
    (fld (rg (kPart 1 oPART_STATE) w19.dev) 1 0 = 1) ∧
    (freeSlot w19.dev = some 0) ∧
    (0 < 16384) ∧
    (descRefused 1 0 w20 (if w20.at_ = true ∨ w20.op = 5 then w20.target.getD (0 : NT32) else nextFor w19.dev) w19.dev = false) ∧
    (admitCheck 1 0 w19.dev (chwApply 3 1 0 (if w20.at_ = true ∨ w20.op = 5 then w20.target.getD (0 : NT32) else nextFor w19.dev) w20.desc w19.dev) = 0) ∧
    (listFull 0 w19.dev (chwApply 3 1 0 (if w20.at_ = true ∨ w20.op = 5 then w20.target.getD (0 : NT32) else nextFor w19.dev) w20.desc w19.dev) = false) := by decide +kernel
theorem witness_ConfigurationAndFunctionResets_1 : (HostUp s0.dev) ∧
    (s0.dev.pwr.recovery = false) ∧
    (vfExists s0.dev 8 = true) ∧
    (s0.dev.recd.spools = []) := by decide +kernel
end C02

/-! ### Witnesses: Time Base -/

namespace C03
def tb (f : TimeBase → TimeBase) : State := tSt { tDev with tb := f tDev.tb }
def wrap (n : W32) := tb fun t => { t with acc := BitVec.allOnes 64, extHi := 9, extNext := n }
theorem witness_TicksAdvanceTime_1 : ((wrap (10 : W32)).dev.tb.step = none) ∧
    (2 ^ 64 ≤ BitVec.toNat (wrap (10 : W32)).dev.tb.acc + (if (wrap (10 : W32)).dev.tb.refHold.isSome = true then (wrap (10 : W32)).dev.tb.inc else (wrap (10 : W32)).dev.tb.incNext.getD (wrap (10 : W32)).dev.tb.inc).toNat) ∧
    ((wrap (10 : W32)).dev.tb.extNext = (wrap (10 : W32)).dev.tb.extHi + (1 : W32)) := by decide +kernel
theorem witness_TicksAdvanceTime_2 : ((wrap (9 : W32)).dev.tb.step = none) ∧
    (2 ^ 64 ≤ BitVec.toNat (wrap (9 : W32)).dev.tb.acc + (if (wrap (9 : W32)).dev.tb.refHold.isSome = true then (wrap (9 : W32)).dev.tb.inc else (wrap (9 : W32)).dev.tb.incNext.getD (wrap (9 : W32)).dev.tb.inc).toNat) ∧
    ((wrap (9 : W32)).dev.tb.extNext ≠ (wrap (9 : W32)).dev.tb.extHi + (1 : W32)) := by decide +kernel
def man := tb fun t => { t with src := 0 }
theorem witness_HostTimeWrites_1 : (Reaches 0 man.dev) ∧
    (fld (4294967205 : W32) 7 0 = 165) ∧
    (man.dev.tb.src = 0) ∧
    (5366024766 ≤ fld (5366024766 : W64) 39 0) ∧
    (fld (5366024766 : W64) 39 0 ≤ 5371393474) := by decide +kernel
theorem witness_HostTimeWrites_2 : (Reaches 0 man.dev) ∧
    (man.dev.tb.src = 0) ∧
    (fld (5 : W64) 39 0 < 5366024766 ∨ 5371393474 < fld (5 : W64) 39 0) ∧
    (man.dev.tb.armed = true) ∧
    (man.dev.tb.step = none) ∧
    (BitVec.toInt (5 : W64) ≠ (0 : ℤ)) ∧
    ((0 : ℤ) ≤ ↑(BitVec.toNat (now64 man.dev)) + BitVec.toInt (5 : W64)) ∧
    (anyChannel man.dev = true → (BitVec.toInt (5 : W64)).natAbs ≤ rgN rTB_STEP_MAX_ACTIVE man.dev) ∧
    (paired man.dev = false) ∧
    (fld (0 : W32) 2 0 ≤ 3) ∧
    (isStandby man.dev = false) := by decide +kernel
def stp (S : Int) (f : Weir → Weir) := tSt { tDev with tb := { tDev.tb with step := some ⟨S, none⟩ }, weir := f tDev.weir }
def w1 := (stp 490000 fun w => { w with nextP := 5005000 })
theorem witness_StepMovesTimeAndGrid_1 : (w1.dev.tb.step = some { s := (490000 : ℤ), tick := none : StepPend }) ∧
    ((0 : ℤ) ≤ ↑(BitVec.toNat (now64 w1.dev)) + (490000 : ℤ)) ∧
    (↑(BitVec.toNat (now64 w1.dev)) + (490000 : ℤ) < (2 : ℤ) ^ 64) := by decide +kernel
def w3 := (tb fun t => { t with servo := .freerun })
theorem witness_ServoStates_1 : (w3.dev.pwr.st = DevSt.service) ∧
    (isWorker w3.dev = false) ∧
    (w3.dev.tb.step = none) ∧
    (w3.dev.tb.servo = Servo.freerun) ∧
    (w3.dev.tb.refHold = none) := by decide +kernel
def w4 := (tb fun t => { t with servo := .locking, lockRun := 15 })
theorem witness_ServoStates_2 : (w4.dev.pwr.st = DevSt.service) ∧
    (isWorker w4.dev = false) ∧
    (w4.dev.tb.step = none) ∧
    (w4.dev.tb.src ≠ 0) ∧
    (w4.dev.tb.servo = Servo.locking) ∧
    (((BitVec.toInt (0 : W64)).fdiv (65536 : ℤ)).natAbs < rgN rTB_LOCK_LIMIT w4.dev) ∧
    (((BitVec.toInt (0 : W64)).fdiv (65536 : ℤ)).natAbs ≤ rgN rTB_JUMP_LIMIT w4.dev) ∧
    (w4.dev.tb.lockRun = 15) := by decide +kernel
def w5 := (tb fun t => { t with servo := .locked, src := 2, refHold := some 3 })
theorem witness_ServoStates_3 : (w5.dev.pwr.st = DevSt.service) ∧
    (isWorker w5.dev = false) ∧
    (w5.dev.tb.step = none) ∧
    (w5.dev.tb.src ≠ 0) ∧
    (w5.dev.tb.servo = Servo.locked) ∧
    (rgN rTB_JUMP_LIMIT w5.dev < ((BitVec.toInt (1152921504606846975 : W64)).fdiv (65536 : ℤ)).natAbs) ∧
    (w5.dev.tb.src ≠ 1) ∧
    (w5.dev.tb.refHold ≠ none) := by decide +kernel
def w6 := (tb fun t => { t with servo := .acquiring, src := 0 })
theorem witness_ServoStates_4 : (w6.dev.pwr.st = DevSt.service) ∧
    (isWorker w6.dev = false) ∧
    (w6.dev.tb.step = none) ∧
    (w6.dev.tb.servo = Servo.acquiring) ∧
    (w6.dev.tb.src ≠ 1) := by decide +kernel
def w8 := (tSt (setr [(rTB_PPS_IN_CTRL, 7)] { tDev with tb := { tDev.tb with secIdx := 1, ppsOut := true, src := 1 } }))
theorem witness_SecondsAndPulses_1 : (BitVec.toNat (now64 w8.dev) / 1000000000 ≠ w8.dev.tb.secIdx) ∧
    (w8.dev.tb.ppsOut = true) ∧
    (↑(fld (rg rTB_PPS_OUT_CTRL w8.dev) 27 8 * 1000) ≤ sdiff (now w8.dev) w8.dev.tb.ppsRise) ∧
    (bit (rg rTB_PPS_IN_CTRL w8.dev) 0 = true) ∧
    (w8.dev.tb.src ≠ 2) ∧
    (w8.dev.tb.step = none) ∧
    (w8.dev.pwr.st = DevSt.service) ∧
    (isWorker w8.dev = false) ∧
    (bit (rg rTB_PPS_IN_CTRL w8.dev) 1 = true) ∧
    (w8.dev.tb.todThisEdge = false) := by decide +kernel
def pd (v : Nat) (q : PtpPort) := tSt (setr [(kPtpPort 0, v), (rTB_PTP_CTRL, 0x18)] { tDev with tb := { tDev.tb with ptp := [(0, q)] } })
def m0 : PtpMsg := ⟨0, 4000000, 5, 2, 1, 2, 0, false, false, false, 0x1122, 1, 7, true, 3999000, 0x20000, 5, 1⟩
def g0 : PtpTlv := ⟨4, 0, -3, 300⟩
def an : PtpAnnounce := ⟨5, 128, 6, 33, 0x4E5D, 128, 1, true, true, 37, []⟩
def q0 : PtpPort := { PtpPort.reset with waitFu := true, syncSeq := 7, delayOut := true, delaySeq := 7, t1 := some 3998000, t2 := 63985600, t3 := 63992000, pOut := true, pSeq := 7, pT1 := 63968000, pT2 := some 3998500, pT4 := 3999000 }
theorem witness_PtpMessages_1 : ((pd 100663297 q0).dev.tb.step = none) ∧
    ((pd 100663297 q0).dev.pwr.st = DevSt.service) ∧
    (isWorker (pd 100663297 q0).dev = false) ∧
    (ptpOn m0.port (pd 100663297 q0).dev = true) ∧
    (m0.transport = ptpTransport (pd 100663297 q0).dev) ∧
    (m0.tags ≤ 2) ∧
    (ptpBad m0 (pd 100663297 q0).dev = false) ∧
    (m0.twoStep = true) ∧
    ((ptpPort m0.port (pd 100663297 q0).dev).waitFu = true) ∧
    ((ptpPort m0.port (pd 100663297 q0).dev).syncSeq = m0.seq) ∧
    ((ptpPort m0.port (pd 100663297 q0).dev).delayOut = true) ∧
    ((ptpPort m0.port (pd 100663297 q0).dev).delaySeq = m0.seq) ∧
    ((ptpPort m0.port (pd 100663297 q0).dev).t1 = some (3998000 : W64)) ∧
    ((ptpPort m0.port (pd 100663297 q0).dev).pOut = true) ∧
    ((ptpPort m0.port (pd 100663297 q0).dev).pSeq = m0.seq) ∧
    ((ptpPort m0.port (pd 100663297 q0).dev).pT2 = some (3998500 : W64)) ∧
    (an.path.contains (rg rFAB_DEV_ID (pd 100663297 q0).dev) = false) ∧
    (ptpProfile (pd 100663297 q0).dev ≠ 3) ∧
    (ptpState m0.port (pd 100663297 q0).dev = 6) := by decide +kernel
def w9 := { m0 with twoStep := false }
theorem witness_PtpMessages_2 : ((pd 150994949 q0).dev.tb.step = none) ∧
    ((pd 150994949 q0).dev.pwr.st = DevSt.service) ∧
    (isWorker (pd 150994949 q0).dev = false) ∧
    (ptpOn w9.port (pd 150994949 q0).dev = true) ∧
    (w9.transport = ptpTransport (pd 150994949 q0).dev) ∧
    (w9.tags ≤ 2) ∧
    (ptpBad w9 (pd 150994949 q0).dev = false) ∧
    (w9.twoStep = false) := by decide +kernel
def w10 := { m0 with domain := 1 }
theorem witness_PtpMessages_3 : ((pd 150994949 q0).dev.tb.step = none) ∧
    ((pd 150994949 q0).dev.pwr.st = DevSt.service) ∧
    (isWorker (pd 150994949 q0).dev = false) ∧
    (ptpOn w10.port (pd 150994949 q0).dev = true) ∧
    (w10.transport = ptpTransport (pd 150994949 q0).dev) ∧
    (w10.tags ≤ 2) ∧
    (ptpBad w10 (pd 150994949 q0).dev = true) ∧
    (faulted (macPage w10.port) (pd 150994949 q0).dev = false) := by decide +kernel
def w11 := (tb fun t => { t with refHold := some 3, incNext := some 7, servo := .locking, incRuns := [(5, 2)], src := 1 })
theorem witness_TicksAdvanceTime_3 : (w11.dev.tb.step = none) ∧
    (BitVec.toNat w11.dev.tb.acc + (if w11.dev.tb.refHold.isSome = true then w11.dev.tb.inc else w11.dev.tb.incNext.getD w11.dev.tb.inc).toNat < 2 ^ 64) := by decide +kernel
def pu (v : Nat) (c : Nat) := tSt (setr [(kPtpPort 0, v), (rTB_PTP_CTRL, c), (kMac 0 0 oMAC_STATUS, 0x21)] { tDev with pages := (0x100, { Hdr.reset with ctrl := 1 }) :: tDev.pages })
theorem witness_PtpMessages_4 : ((pu 100663297 24).dev.tb.step = none) ∧
    ((pu 100663297 24).dev.pwr.st = DevSt.service) ∧
    (isWorker (pu 100663297 24).dev = false) ∧
    (ptpOn m0.port (pu 100663297 24).dev = true) ∧
    (m0.transport = ptpTransport (pu 100663297 24).dev) ∧
    (m0.tags ≤ 2) ∧
    (ptpBad m0 (pu 100663297 24).dev = false) ∧
    (ptpState m0.port (pu 100663297 24).dev = 6) ∧
    (ptpP2p m0.port (pu 100663297 24).dev = false) ∧
    (ptpProfile (pu 100663297 24).dev ≠ 3) ∧
    ((portOn m0.port (pu 100663297 24).dev && (port m0.port (pu 100663297 24).dev).ctl.isEmpty && (port m0.port (pu 100663297 24).dev).q6.isEmpty && decide (rg (kMac m0.port 0 oMAC_PAUSE_STATE) (pu 100663297 24).dev = (0 : W64))) = true) := by decide +kernel
theorem witness_PtpMessages_5 : ((pu 100663301 24).dev.tb.step = none) ∧
    ((pu 100663301 24).dev.pwr.st = DevSt.service) ∧
    (isWorker (pu 100663301 24).dev = false) ∧
    (ptpOn m0.port (pu 100663301 24).dev = true) ∧
    (m0.transport = ptpTransport (pu 100663301 24).dev) ∧
    (m0.tags ≤ 2) ∧
    (ptpBad m0 (pu 100663301 24).dev = false) ∧
    (ptpP2p m0.port (pu 100663301 24).dev = true) ∧
    (ptpOneStep (pu 100663301 24).dev = true) ∧
    ((portOn m0.port (pu 100663301 24).dev && (port m0.port (pu 100663301 24).dev).ctl.isEmpty && (port m0.port (pu 100663301 24).dev).q6.isEmpty && decide (rg (kMac m0.port 0 oMAC_PAUSE_STATE) (pu 100663301 24).dev = (0 : W64))) = true) := by decide +kernel
def w12 := { m0 with domain := 44 }
theorem witness_PtpMessages_6 : ((pu 100663297 11275).dev.tb.step = none) ∧
    ((pu 100663297 11275).dev.pwr.st = DevSt.service) ∧
    (isWorker (pu 100663297 11275).dev = false) ∧
    (ptpOn w12.port (pu 100663297 11275).dev = true) ∧
    (w12.transport = ptpTransport (pu 100663297 11275).dev) ∧
    (w12.tags ≤ 2) ∧
    (ptpBad w12 (pu 100663297 11275).dev = false) ∧
    (ptpProfile (pu 100663297 11275).dev = 3) ∧
    (ptpState w12.port (pu 100663297 11275).dev = 6) ∧
    (g0.kind = 4) ∧
    (grantable g0 = true) ∧
    ((ptpPort w12.port (pu 100663297 11275).dev).grants = []) := by decide +kernel
end C03

/-! ### Witnesses: the Weir, memories and their ends -/

namespace C04
def at6 : Dev := { tDev with tb := { tDev.tb with acc := 6000000#32 ++ 0#32 } }
theorem witness_PassBoundary_1 : (Alone (tSt tDev).dev) ∧
    ((tSt tDev).dev.lfe.lines = []) ∧
    ((tSt tDev).dev.recd.spools = []) ∧
    (cluOn (tSt tDev).dev = false) ∧
    ((tSt tDev).dev.clu.driving = false) ∧
    (tabWf (fun _ => Slot.reset) (tSt tDev).dev.slots = true) ∧
    ((tSt tDev).dev.weir.seeded = true) ∧
    (sdiff (now (tSt tDev).dev) (tSt tDev).dev.weir.nextP < (0 : ℤ) ∨ (tSt tDev).dev.pwr.st = DevSt.fault) := by decide +kernel
def w1 := (tSt { tDev with weir := { tDev.weir with seeded := false } })
theorem witness_PassBoundary_2 : (Alone w1.dev) ∧
    (w1.dev.lfe.lines = []) ∧
    (w1.dev.recd.spools = []) ∧
    (cluOn w1.dev = false) ∧
    (w1.dev.clu.driving = false) ∧
    (tabWf (fun _ => Slot.reset) w1.dev.slots = true) ∧
    (w1.dev.weir.seeded = false) := by decide +kernel
theorem witness_PassBoundary_3 : (Alone (tSt (slotDev 3 (actSlot 1) at6)).dev) ∧
    ((tSt (slotDev 3 (actSlot 1) at6)).dev.lfe.lines = []) ∧
    ((tSt (slotDev 3 (actSlot 1) at6)).dev.recd.spools = []) ∧
    (cluOn (tSt (slotDev 3 (actSlot 1) at6)).dev = false) ∧
    ((tSt (slotDev 3 (actSlot 1) at6)).dev.clu.driving = false) ∧
    (tabWf (fun _ => Slot.reset) (tSt (slotDev 3 (actSlot 1) at6)).dev.slots = true) ∧
    (WeirWorks (tSt (slotDev 3 (actSlot 1) at6)).dev) ∧
    ((0 : ℤ) ≤ sdiff (now (tSt (slotDev 3 (actSlot 1) at6)).dev) (tSt (slotDev 3 (actSlot 1) at6)).dev.weir.nextP) ∧
    ((tSt (slotDev 3 (actSlot 1) at6)).dev.weir.rel = []) ∧
    ((tSt (slotDev 3 (actSlot 1) at6)).dev.weir.tokens = []) ∧
    ((tSt (slotDev 3 (actSlot 1) at6)).dev.weir.rejoin = []) ∧
    ((tSt (slotDev 3 (actSlot 1) at6)).dev.weir.shedStep = none) ∧
    ((tSt (slotDev 3 (actSlot 1) at6)).dev.hif.flr = []) ∧
    ((tSt (slotDev 3 (actSlot 1) at6)).dev.closing = []) ∧
    ((tSt (slotDev 3 (actSlot 1) at6)).dev.buses = []) ∧
    ((tSt (slotDev 3 (actSlot 1) at6)).dev.tb.rebase = none) ∧
    ((tSt (slotDev 3 (actSlot 1) at6)).dev.path.nextJb = []) ∧
    ((tSt (slotDev 3 (actSlot 1) at6)).dev.recd.staged = []) ∧
    (∀ e ∈ (tSt (slotDev 3 (actSlot 1) at6)).dev.slots, e.2.pend = none ∧ e.2.write = [] ∧ e.2.suspect = false ∧ busOf e.2.desc = none ∧ isRtp e.2.desc 0 = false ∧ isRtp e.2.desc 1 = false) := by decide +kernel
def wd (f : Weir → Weir) : Dev := { slotDev 3 (actSlot 1) tPart with tb := { tDev.tb with acc := 5900000#32 ++ 0#32 }, weir := f tPart.weir }
def tok : Token := ⟨false, hnd 1 1 3, 5000000, true, true, true, true, .pcm [1,2] 0, .none, [], false, false, false, true, 1580, 0⟩
def w3 := (tSt (wd fun w => { w with tokens := [{ tok with fillA := false, fillProg := false }], healthy := w.healthy &&& ~~~1 }))
def w4 := { tok with fillA := false, fillProg := false }
theorem witness_DispatchDeadline_1 : (WeirWorks w3.dev) ∧
    (Alone w3.dev) ∧
    (↑(rgN rWEIR_DEADLINE w3.dev) ≤ sdiff (now w3.dev) w3.dev.weir.lastP) ∧
    (reached w3.dev (w3.dev.weir.lastP + BitVec.ofNat 32 (rgN rWEIR_DEADLINE w3.dev)) = true) ∧
    (w3.dev.recd.staged = []) ∧
    (w3.dev.weir.tokens = [w4]) ∧
    (w4.elig = true) ∧
    (w4.bus = false) ∧
    (w3.dev.weir.lists = []) ∧
    (1 < 64) ∧
    (bit w3.dev.weir.healthy 1 = true) ∧
    (∀ x < 1, bit w3.dev.weir.healthy x = false) ∧
    (current w4.handle w3.dev = true) ∧
    (w4.fillCtx = true) := by decide +kernel
def w5 := (tSt (wd fun w => { w with tokens := [{ tok with fillCtx := false }] }))
def w6 := { tok with fillCtx := false }
theorem witness_DispatchDeadline_2 : (WeirWorks w5.dev) ∧
    (Alone w5.dev) ∧
    (↑(rgN rWEIR_DEADLINE w5.dev) ≤ sdiff (now w5.dev) w5.dev.weir.lastP) ∧
    (reached w5.dev (w5.dev.weir.lastP + BitVec.ofNat 32 (rgN rWEIR_DEADLINE w5.dev)) = true) ∧
    (w5.dev.recd.staged = []) ∧
    (w5.dev.weir.tokens = [w6]) ∧
    (w6.elig = true) ∧
    (w6.bus = false) ∧
    (w5.dev.weir.lists = []) ∧
    (0 < 64) ∧
    (bit w5.dev.weir.healthy 0 = true) ∧
    (∀ x < 0, bit w5.dev.weir.healthy x = false) ∧
    (current w6.handle w5.dev = true) ∧
    (w6.fillCtx = false) ∧
    ((w5.dev.weir.rel.any fun r => r.late) = false) ∧
    (chSt (hSlot w6.handle) w5.dev ≠ ChSt.copying) := by decide +kernel
def w7 := (tSt (wd fun w => { w with tokens := [{ tok with handle := hnd 2 1 3 }] }))
def w8 := { tok with handle := hnd 2 1 3 }
theorem witness_DispatchDeadline_3 : (WeirWorks w7.dev) ∧
    (Alone w7.dev) ∧
    (↑(rgN rWEIR_DEADLINE w7.dev) ≤ sdiff (now w7.dev) w7.dev.weir.lastP) ∧
    (reached w7.dev (w7.dev.weir.lastP + BitVec.ofNat 32 (rgN rWEIR_DEADLINE w7.dev)) = true) ∧
    (w7.dev.recd.staged = []) ∧
    (w7.dev.weir.tokens = [w8]) ∧
    (w8.elig = true) ∧
    (w8.bus = false) ∧
    (w7.dev.weir.lists = []) ∧
    (0 < 64) ∧
    (bit w7.dev.weir.healthy 0 = true) ∧
    (∀ x < 0, bit w7.dev.weir.healthy x = false) ∧
    (current w8.handle w7.dev = false) ∧
    ((w7.dev.weir.rel.any fun r => r.late) = false) := by decide +kernel
def jb : Job := ⟨false, hnd 1 1 3, 5000000, 5000000, 1580, false, false, false, false, 0, .staging, false, 0, false, 0, .none, .none, [], [], false, actSlot 1, 5000000, 0, none, none⟩
def o1 : JobOut := outL
def js (j : Job) : State := tSt { wd (fun w => { w with lists := [(2, [j])], rel := [⟨false, hnd 1 1 3, 5000000, 5000000, none, false⟩] }) with tarns := [(2, { Tarn.reset with st := .running })] }
theorem witness_JobOnItsCore_1 : ((js jb).dev.weir.lists = [(2, [jb])]) ∧
    (2 < 64) ∧
    (bit (js jb).dev.weir.healthy 2 = true) ∧
    (Alone (js jb).dev) ∧
    ((js jb).dev.weir.tokens = []) ∧
    ((js jb).dev.weir.lateFrom = none) ∧
    ((js jb).dev.poison = []) ∧
    (jb.st = JobSt.staging) := by decide +kernel
def w9 := (js { jb with st := .ready })
def w10 := { jb with st := .ready }
theorem witness_JobOnItsCore_2 : (w9.dev.weir.lists = [(2, [w10])]) ∧
    (2 < 64) ∧
    (bit w9.dev.weir.healthy 2 = true) ∧
    (Alone w9.dev) ∧
    (w9.dev.weir.tokens = []) ∧
    (w9.dev.weir.lateFrom = none) ∧
    (w9.dev.poison = []) ∧
    (w10.st = JobSt.ready) ∧
    (w10.bus = false) := by decide +kernel
def w11 := (js { jb with st := .ready, bus := true, handle := 5 })
def w12 := { jb with st := .ready, bus := true, handle := 5 }
theorem witness_JobOnItsCore_3 : (w11.dev.weir.lists = [(2, [w12])]) ∧
    (2 < 64) ∧
    (bit w11.dev.weir.healthy 2 = true) ∧
    (Alone w11.dev) ∧
    (w11.dev.weir.tokens = []) ∧
    (w11.dev.weir.lateFrom = none) ∧
    (w11.dev.poison = []) ∧
    (w12.st = JobSt.ready) ∧
    (w12.bus = true) := by decide +kernel
def w13 := (js { jb with st := .done, out := some o1 })
def w14 := { jb with st := .done, out := some o1 }
theorem witness_JobOnItsCore_4 : (w13.dev.weir.lists = [(2, [w14])]) ∧
    (2 < 64) ∧
    (bit w13.dev.weir.healthy 2 = true) ∧
    (Alone w13.dev) ∧
    (w13.dev.weir.tokens = []) ∧
    (w13.dev.weir.lateFrom = none) ∧
    (w13.dev.poison = []) ∧
    (w14.st = JobSt.done) ∧
    (w14.out = some o1) ∧
    (w14.bus = false) ∧
    (w14.replay = false) ∧
    (current w14.handle w13.dev = true) ∧
    ((slot (hSlot w14.handle) w13.dev).inits = w14.snap.inits) ∧
    (∀ r ∈ o1.recs, r.typ ≠ 37 ∧ r.typ ≠ 36) := by decide +kernel
def w15 := (js { jb with st := .done, out := some o1, handle := hnd 2 1 3 })
def w16 := { jb with st := .done, out := some o1, handle := hnd 2 1 3 }
theorem witness_JobOnItsCore_5 : (w15.dev.weir.lists = [(2, [w16])]) ∧
    (2 < 64) ∧
    (bit w15.dev.weir.healthy 2 = true) ∧
    (Alone w15.dev) ∧
    (w15.dev.weir.tokens = []) ∧
    (w15.dev.weir.lateFrom = none) ∧
    (w15.dev.poison = []) ∧
    (w16.st = JobSt.done) ∧
    (w16.out = some o1) ∧
    (w16.bus = false) ∧
    (current w16.handle w15.dev = false) := by decide +kernel
def w17 := (js { jb with st := .streamOut })
def w18 := { jb with st := .streamOut }
theorem witness_JobOnItsCore_6 : (w17.dev.weir.lists = [(2, [w18])]) ∧
    (2 < 64) ∧
    (bit w17.dev.weir.healthy 2 = true) ∧
    (Alone w17.dev) ∧
    (w17.dev.weir.tokens = []) ∧
    (w17.dev.weir.lateFrom = none) ∧
    (w17.dev.poison = []) ∧
    (w18.st = JobSt.streamOut) ∧
    (w18.bus = false) ∧
    (current w18.handle w17.dev = true) ∧
    ((slot (hSlot w18.handle) w17.dev).inits = w18.snap.inits) ∧
    ((w18.out.bind fun x => x.data) = none) ∧
    ((slot (hSlot w18.handle) w17.dev).granules.Nodup) := by decide +kernel
def lin : Slot := { actSlot 1 with desc := (zd.set 4 2).set 18 2 }
def w19 := { jb with snap := lin, inA := .pcm [1,2,3,4,5,6,7,8] 0, inB := .pcm [9,2,3,4,5,6,7,0x20000] 0 }
theorem witness_MediaOutputs_1 : (kind w19.snap.desc 0 = 2) ∧
    (kind w19.snap.desc 1 = 2) ∧
    (w19.markA = false) ∧
    (w19.markB = false) ∧
    (w19.inA = Oper.pcm [(1 : BitVec 18), (2 : BitVec 18), (3 : BitVec 18), (4 : BitVec 18), (5 : BitVec 18), (6 : BitVec 18), (7 : BitVec 18), (8 : BitVec 18)] 0) ∧
    (w19.inB = Oper.pcm [(9 : BitVec 18), (2 : BitVec 18), (3 : BitVec 18), (4 : BitVec 18), (5 : BitVec 18), (6 : BitVec 18), (7 : BitVec 18), (131072 : BitVec 18)] 0) ∧
    ([(1 : BitVec 18), (2 : BitVec 18), (3 : BitVec 18), (4 : BitVec 18), (5 : BitVec 18), (6 : BitVec 18), (7 : BitVec 18), (8 : BitVec 18)].length = samplesPerPass w19.snap.desc) ∧
    ([(9 : BitVec 18), (2 : BitVec 18), (3 : BitVec 18), (4 : BitVec 18), (5 : BitVec 18), (6 : BitVec 18), (7 : BitVec 18), (131072 : BitVec 18)].length = samplesPerPass w19.snap.desc) ∧
    (ecTail w19.snap.desc = 0) ∧
    (toneDet w19.snap.desc 0 = false) ∧
    (toneDet w19.snap.desc 1 = false) ∧
    (agcOn w19.snap.desc 0 = false) ∧
    (agcOn w19.snap.desc 1 = false) ∧
    (nsOn w19.snap.desc 0 = false) ∧
    (nsOn w19.snap.desc 1 = false) ∧
    (progOn w19.snap.desc = false) ∧
    (dw w19.snap.desc 33 = (0 : W32)) ∧
    (w19.snap.media.passThrough = false) ∧
    (w19.snap.media.gen.kind = 0) ∧
    (w19.snap.genAt = 0) ∧
    (w19.snap.legA.evts = []) ∧
    (w19.snap.legB.evts = []) := by decide +kernel
theorem witness_CoreFaults_1 : (1 ≤ 5) ∧
    (5 ≤ 5) ∧
    (2 < 64) ∧
    (bit (tSt (wd id)).dev.weir.healthy 2 = true) ∧
    ((tSt (wd id)).dev.weir.lateFrom = none) ∧
    ((tSt (wd id)).dev.weir.lists = []) := by decide +kernel
def w21 := (js { jb with st := .done })
def w22 := { jb with st := .done }
theorem witness_CoreFaults_2 : (1 ≤ 3) ∧
    (3 ≤ 5) ∧
    (2 < 64) ∧
    (bit w21.dev.weir.healthy 2 = true) ∧
    (w21.dev.weir.lateFrom = none) ∧
    (w21.dev.weir.lists = [(2, [w22])]) ∧
    (w22.st = JobSt.done) ∧
    (w22.bus = false) ∧
    (current w22.handle w21.dev = true) ∧
    (w21.dev.weir.tokens = []) ∧
    (w22.replay = false) ∧
    (w22.lostOperand = false) ∧
    (0 < 64) ∧
    (0 ≠ 2) ∧
    (bit w21.dev.weir.healthy 0 = true) ∧
    (∀ q < 0, q ≠ 2 → bit w21.dev.weir.healthy q = false) ∧
    (3 = 3) ∧
    (false = false) := by decide +kernel
def w23 := (js { jb with st := .done, replay := true })
def w24 := { jb with st := .done, replay := true }
theorem witness_CoreFaults_3 : (1 ≤ 1) ∧
    (1 ≤ 5) ∧
    (2 < 64) ∧
    (bit w23.dev.weir.healthy 2 = true) ∧
    (w23.dev.weir.lateFrom = none) ∧
    (w23.dev.weir.lists = [(2, [w24])]) ∧
    (w24.st = JobSt.done) ∧
    (w24.bus = false) ∧
    (current w24.handle w23.dev = true) ∧
    (w23.dev.weir.tokens = []) ∧
    (w24.replay = true ∨ w24.lostOperand = true) ∧
    (0 < 64) ∧
    (0 ≠ 2) ∧
    (bit w23.dev.weir.healthy 0 = true) ∧
    ((slot (hSlot w24.handle) w23.dev).running = true) := by decide +kernel
def cr (f : Weir → Weir) (l : Tab Tarn) : State := tSt { wd f with tarns := l }
def w25 := (cr (fun w => { w with healthy := ~~~4 }) [(2, { Tarn.reset with st := .faulted })])
theorem witness_CoresReturnAndUnitsFail_1 : (HostUp w25.dev) ∧
    (2 < 64) ∧
    (bit (4 : W64) 2 = true) ∧
    (bit w25.dev.weir.healthy 2 = false) ∧
    ((tarn 2 w25.dev).st = CoreSt.faulted ∨ (tarn 2 w25.dev).st = CoreSt.offline) ∧
    (∀ (x : ℕ), x ≠ 2 → bit (4 : W64) x = false) ∧
    (2 < 68) ∧
    (w25.dev.pwr.st ≠ DevSt.fault) := ⟨by decide +kernel,
    by decide +kernel,
    by decide +kernel,
    by decide +kernel,
    by decide +kernel,
    fun k hk => by
      by_cases h : k < 64
      · have e : ∀ j < 64, j ≠ 2 → bit (4 : W64) j = false := by decide +kernel
        exact e k h hk
      · exact bit_beyond _ k (by omega),
    by decide +kernel,
    by decide +kernel⟩
def w26 := (cr (fun w => { w with healthy := ~~~4, selftest := [2] }) [(2, { Tarn.reset with st := .selftest })])
theorem witness_CoresReturnAndUnitsFail_2 : (2 ∈ w26.dev.weir.selftest) ∧
    (2 < 68) ∧
    (pagePresent w26.dev 352 = true) ∧
    (352 ∈ [160, 272, 304, 320, 336, 384, 416, 432] ∨ 352 ≤ 352 ∧ 352 < 384 ∨ 352 = 400 ∧ isWorker w26.dev = false) := by decide +kernel
def w27 := (cr id [(67, { Tarn.reset with st := .faulted, pc := 7 }), (64, { Tarn.reset with st := .running })])
theorem witness_CoresReturnAndUnitsFail_3 : (64 ≤ 67) ∧
    (67 < 68) ∧
    ((tarn 67 w27.dev).st = CoreSt.faulted) ∧
    (∃ x, 64 ≤ x ∧ x < 68 ∧ x ≠ 67 ∧ (tarn x w27.dev).st = CoreSt.running) := ⟨by decide +kernel,
    by decide +kernel,
    by decide +kernel,
    ⟨64, by decide +kernel⟩⟩
def scr (f : Dev → Dev) : State := tSt (f (setr [(rBASIN_SCRUB_CTRL, 0x80000001), (rDRAM_SCRUB_CTRL, 0x80000001)] (wd id)))
def w28 := (scr (slotDev 3 { actSlot 1 with granules := [5] }))
def w29 := (3, { actSlot 1 with granules := [5] })
theorem witness_MemoryErrors_1 : (bit (rg rBASIN_SCRUB_CTRL w28.dev) 31 = true) ∧
    (5 * 1024 + 3 < 50331647) ∧
    (5 * 1024 + 3 < 41943040) ∧
    (List.find? (fun x => x.2.granules.contains ((5 * 1024 + 3) / 1024)) w28.dev.slots = some w29) ∧
    (w29.2.running = true) ∧
    (slot w29.1 w28.dev = w29.2) ∧
    (bit (rg rDRAM_SCRUB_CTRL w28.dev) 31 = true) ∧
    (0 < 5 * 1024 + 3) ∧
    (5 * 1024 + 3 < dramBytes w28.dev) ∧
    (faulted 160 w28.dev = false) ∧
    (w28.dev.weir.lists = []) ∧
    (w28.dev.recd.staged = []) ∧
    (w28.dev.recd.retained = []) ∧
    (hnd 1 1 3 ≠ (0 : W32)) ∧
    (current (hnd 1 1 3) w28.dev = true) ∧
    ((slot (hSlot (hnd 1 1 3)) w28.dev).running = true) := by decide +kernel
def ru : RecUnit := ⟨1, 6, hnd 1 1 3, 7, false, false, false, 5000000, [1,2,3], 5000000⟩
def w31 := (scr fun d => { d with recd := { d.recd with staged := [ru] } })
theorem witness_MemoryErrors_2 : (bit (rg rDRAM_SCRUB_CTRL w31.dev) 31 = true) ∧
    (0 < 50331646) ∧
    (50331646 < dramBytes w31.dev) ∧
    (w31.dev.weir.lists = []) ∧
    (w31.dev.recd.staged = [ru]) ∧
    (w31.dev.recd.retained = []) := by decide +kernel
def ev (n : Nat) (k : DKind) (h : W32) : DEvent := ⟨5000000, h, k, false⟩
def dl (n : Nat) (e : DEvent) : State := tSt (wd fun w => { w with dl := [(n, [e])] })
def h1 : W32 := hnd 1 1 3
def h2 : W32 := hnd 2 1 3
theorem witness_DelayListEvents_1 : (1 < 2) ∧
    (dlist 2 (dl 2 (ev 2 (DKind.playout 1) h1)).dev = [ev 2 (DKind.playout 1) h1] ∧ reached (dl 2 (ev 2 (DKind.playout 1) h1)).dev (ev 2 (DKind.playout 1) h1).target = true ∧ (ev 2 (DKind.playout 1) h1).clip = false) ∧
    ((2, (ev 2 (DKind.playout 1) h1).kind, Instr.playoutEvent h1 1) ∈ [(2, DKind.playout 1, Instr.playoutEvent h1 1), (7, DKind.firmware 0, Instr.firmwareTimer 0)] ∨ 2 = 4 ∧ Instr.playoutEvent h1 1 = Instr.toneEventEnd h1 ∨ 2 = 5 ∧ Instr.playoutEvent h1 1 = Instr.inactivityTimeout h1) ∧
    ((ev 2 (DKind.playout 1) h1).handle = h1) ∧
    (∀ m ∈ List.range 8, ∀ x ∈ List.take 1 (dlist m (dl 2 (ev 2 (DKind.playout 1) h1)).dev), m ≠ 2 → reached (dl 2 (ev 2 (DKind.playout 1) h1)).dev x.target = true → (0 : ℤ) ≤ sdiff x.target (ev 2 (DKind.playout 1) h1).target ∧ (x.target = (ev 2 (DKind.playout 1) h1).target → 2 < m)) ∧
    (h1 ≠ (0 : W32)) ∧
    (current h1 (dl 2 (ev 2 (DKind.playout 1) h1)).dev = true) ∧
    (handleOf (hSlot h1) (dl 2 (ev 2 (DKind.playout 1) h1)).dev = h1) ∧
    (2 = 2 ∧ (legOf (hSlot h1) 1 (dl 2 (ev 2 (DKind.playout 1) h1)).dev).held = [] ∨ 2 = 4 ∧ toneEnds (hSlot h1) { regs := (dl 2 (ev 2 (DKind.playout 1) h1)).dev.regs, pages := (dl 2 (ev 2 (DKind.playout 1) h1)).dev.pages, frozen := (dl 2 (ev 2 (DKind.playout 1) h1)).dev.frozen, raised := (dl 2 (ev 2 (DKind.playout 1) h1)).dev.raised, hif := (dl 2 (ev 2 (DKind.playout 1) h1)).dev.hif, rings := (dl 2 (ev 2 (DKind.playout 1) h1)).dev.rings, tb := (dl 2 (ev 2 (DKind.playout 1) h1)).dev.tb, weir := { seeded := (dl 2 (ev 2 (DKind.playout 1) h1)).dev.weir.seeded, nextP := (dl 2 (ev 2 (DKind.playout 1) h1)).dev.weir.nextP, lastP := (dl 2 (ev 2 (DKind.playout 1) h1)).dev.weir.lastP, tokens := (dl 2 (ev 2 (DKind.playout 1) h1)).dev.weir.tokens, dl := tabSet (fun _ => []) (dl 2 (ev 2 (DKind.playout 1) h1)).dev.weir.dl 2 [], lists := (dl 2 (ev 2 (DKind.playout 1) h1)).dev.weir.lists, rel := (dl 2 (ev 2 (DKind.playout 1) h1)).dev.weir.rel, healthy := (dl 2 (ev 2 (DKind.playout 1) h1)).dev.weir.healthy, rejoin := (dl 2 (ev 2 (DKind.playout 1) h1)).dev.weir.rejoin, selftest := (dl 2 (ev 2 (DKind.playout 1) h1)).dev.weir.selftest, shed := (dl 2 (ev 2 (DKind.playout 1) h1)).dev.weir.shed, shedStep := (dl 2 (ev 2 (DKind.playout 1) h1)).dev.weir.shedStep, lateFrom := (dl 2 (ev 2 (DKind.playout 1) h1)).dev.weir.lateFrom, lateRaised := (dl 2 (ev 2 (DKind.playout 1) h1)).dev.weir.lateRaised, jump := (dl 2 (ev 2 (DKind.playout 1) h1)).dev.weir.jump, lastDone := (dl 2 (ev 2 (DKind.playout 1) h1)).dev.weir.lastDone, sweep := (dl 2 (ev 2 (DKind.playout 1) h1)).dev.weir.sweep, dramCe := (dl 2 (ev 2 (DKind.playout 1) h1)).dev.weir.dramCe, strm := (dl 2 (ev 2 (DKind.playout 1) h1)).dev.weir.strm : Weir }, slots := (dl 2 (ev 2 (DKind.playout 1) h1)).dev.slots, buses := (dl 2 (ev 2 (DKind.playout 1) h1)).dev.buses, path := (dl 2 (ev 2 (DKind.playout 1) h1)).dev.path, ports := (dl 2 (ev 2 (DKind.playout 1) h1)).dev.ports, mgmt := (dl 2 (ev 2 (DKind.playout 1) h1)).dev.mgmt, twin := (dl 2 (ev 2 (DKind.playout 1) h1)).dev.twin, recd := (dl 2 (ev 2 (DKind.playout 1) h1)).dev.recd, flash := (dl 2 (ev 2 (DKind.playout 1) h1)).dev.flash, lfe := (dl 2 (ev 2 (DKind.playout 1) h1)).dev.lfe, sce := (dl 2 (ev 2 (DKind.playout 1) h1)).dev.sce, tarns := (dl 2 (ev 2 (DKind.playout 1) h1)).dev.tarns, clu := (dl 2 (ev 2 (DKind.playout 1) h1)).dev.clu, fab := (dl 2 (ev 2 (DKind.playout 1) h1)).dev.fab, chw := (dl 2 (ev 2 (DKind.playout 1) h1)).dev.chw, progs := (dl 2 (ev 2 (DKind.playout 1) h1)).dev.progs, load := (dl 2 (ev 2 (DKind.playout 1) h1)).dev.load, closing := (dl 2 (ev 2 (DKind.playout 1) h1)).dev.closing, nextFree := (dl 2 (ev 2 (DKind.playout 1) h1)).dev.nextFree, basin := (dl 2 (ev 2 (DKind.playout 1) h1)).dev.basin, poison := (dl 2 (ev 2 (DKind.playout 1) h1)).dev.poison, dram := (dl 2 (ev 2 (DKind.playout 1) h1)).dev.dram, pwr := (dl 2 (ev 2 (DKind.playout 1) h1)).dev.pwr, fresh := (dl 2 (ev 2 (DKind.playout 1) h1)).dev.fresh, outbox := (dl 2 (ev 2 (DKind.playout 1) h1)).dev.outbox : Dev } = []) := by decide +kernel
theorem witness_DelayListEvents_2 : (1 < 2) ∧
    (dlist 4 (dl 4 (ev 4 (DKind.toneEnd 1) h2)).dev = [ev 4 (DKind.toneEnd 1) h2] ∧ reached (dl 4 (ev 4 (DKind.toneEnd 1) h2)).dev (ev 4 (DKind.toneEnd 1) h2).target = true ∧ (ev 4 (DKind.toneEnd 1) h2).clip = false) ∧
    ((4, (ev 4 (DKind.toneEnd 1) h2).kind, Instr.toneEventEnd h2) ∈ [(2, DKind.playout 1, Instr.playoutEvent h2 1), (7, DKind.firmware 9, Instr.firmwareTimer 9)] ∨ 4 = 4 ∧ Instr.toneEventEnd h2 = Instr.toneEventEnd h2 ∨ 4 = 5 ∧ Instr.toneEventEnd h2 = Instr.inactivityTimeout h2) ∧
    ((ev 4 (DKind.toneEnd 1) h2).handle = h2) ∧
    (∀ m ∈ List.range 8, ∀ x ∈ List.take 1 (dlist m (dl 4 (ev 4 (DKind.toneEnd 1) h2)).dev), m ≠ 4 → reached (dl 4 (ev 4 (DKind.toneEnd 1) h2)).dev x.target = true → (0 : ℤ) ≤ sdiff x.target (ev 4 (DKind.toneEnd 1) h2).target ∧ (x.target = (ev 4 (DKind.toneEnd 1) h2).target → 4 < m)) ∧
    (h2 ≠ (0 : W32)) ∧
    (current h2 (dl 4 (ev 4 (DKind.toneEnd 1) h2)).dev = false) := by decide +kernel
theorem witness_DelayListEvents_3 : (1 < 2) ∧
    (dlist 5 (dl 5 (ev 5 DKind.inactivity h1)).dev = [ev 5 DKind.inactivity h1] ∧ reached (dl 5 (ev 5 DKind.inactivity h1)).dev (ev 5 DKind.inactivity h1).target = true ∧ (ev 5 DKind.inactivity h1).clip = false) ∧
    ((5, (ev 5 DKind.inactivity h1).kind, Instr.inactivityTimeout h1) ∈ [(2, DKind.playout 1, Instr.playoutEvent h1 1), (7, DKind.firmware 9, Instr.firmwareTimer 9)] ∨ 5 = 4 ∧ Instr.inactivityTimeout h1 = Instr.toneEventEnd h1 ∨ 5 = 5 ∧ Instr.inactivityTimeout h1 = Instr.inactivityTimeout h1) ∧
    ((ev 5 DKind.inactivity h1).handle = h1) ∧
    (∀ m ∈ List.range 8, ∀ x ∈ List.take 1 (dlist m (dl 5 (ev 5 DKind.inactivity h1)).dev), m ≠ 5 → reached (dl 5 (ev 5 DKind.inactivity h1)).dev x.target = true → (0 : ℤ) ≤ sdiff x.target (ev 5 DKind.inactivity h1).target ∧ (x.target = (ev 5 DKind.inactivity h1).target → 5 < m)) ∧
    (h1 = (0 : W32) ∨ current h1 (dl 5 (ev 5 DKind.inactivity h1)).dev = true) ∧
    (5 = 5 ∨ 5 = 7) := by decide +kernel
theorem witness_DelayListEvents_4 : (0 < 2) ∧
    (dlist 1 (dl 1 (ev 1 (DKind.prefetch 0) h1)).dev = [ev 1 (DKind.prefetch 0) h1] ∧ reached (dl 1 (ev 1 (DKind.prefetch 0) h1)).dev (ev 1 (DKind.prefetch 0) h1).target = true ∧ (ev 1 (DKind.prefetch 0) h1).clip = false) ∧
    (1 = 1) ∧
    ((ev 1 (DKind.prefetch 0) h1).handle = h1) ∧
    ((ev 1 (DKind.prefetch 0) h1).kind = DKind.prefetch 0) ∧
    (h1 ≠ (0 : W32)) ∧
    (current h1 (dl 1 (ev 1 (DKind.prefetch 0) h1)).dev = true) ∧
    (∀ m ∈ List.range 8, ∀ x ∈ List.take 1 (dlist m (dl 1 (ev 1 (DKind.prefetch 0) h1)).dev), m ≠ 1 → reached (dl 1 (ev 1 (DKind.prefetch 0) h1)).dev x.target = true → (0 : ℤ) ≤ sdiff x.target (ev 1 (DKind.prefetch 0) h1).target ∧ (x.target = (ev 1 (DKind.prefetch 0) h1).target → 1 < m)) ∧
    ((0 : ℤ) ≤ sdiff ((ev 1 (DKind.prefetch 0) h1).target + (1000000 : NT32)) (now (dl 1 (ev 1 (DKind.prefetch 0) h1)).dev)) ∧
    (sdiff ((ev 1 (DKind.prefetch 0) h1).target + (1000000 : NT32)) (now (dl 1 (ev 1 (DKind.prefetch 0) h1)).dev) ≤ (2000000000 : ℤ)) := by decide +kernel
def w32 := (tSt (wd fun w => { w with dl := [(5, [⟨4000000, h1, .inactivity, false⟩]), (7, [ev 7 (.firmware 9) 0])] }))
def w33 := (⟨4000000, h1, .inactivity, false⟩ : DEvent)
theorem witness_DelayListEvents_5 : (1 < 2) ∧
    (dlist 7 w32.dev = [ev 7 (DKind.firmware 9) (0 : W32)] ∧ reached w32.dev (ev 7 (DKind.firmware 9) (0 : W32)).target = true ∧ (ev 7 (DKind.firmware 9) (0 : W32)).clip = false) ∧
    ((7, (ev 7 (DKind.firmware 9) (0 : W32)).kind, Instr.firmwareTimer 9) ∈ [(2, DKind.playout 1, Instr.playoutEvent (0 : W32) 1), (7, DKind.firmware 9, Instr.firmwareTimer 9)] ∨ 7 = 4 ∧ Instr.firmwareTimer 9 = Instr.toneEventEnd (0 : W32) ∨ 7 = 5 ∧ Instr.firmwareTimer 9 = Instr.inactivityTimeout (0 : W32)) ∧
    ((ev 7 (DKind.firmware 9) (0 : W32)).handle = (0 : W32)) ∧
    (1 ≤ 5) ∧
    (5 < 8) ∧
    (5 ≠ 7) ∧
    ((dlist 5 w32.dev).head? = some w33) ∧
    (reached w32.dev w33.target = true) ∧
    (sdiff w33.target (ev 7 (DKind.firmware 9) (0 : W32)).target < (0 : ℤ)) ∧
    (current (0 : W32) w32.dev = false) := by decide +kernel
def lgd (g : Leg) (t : List Token) : State := tSt { wd (fun w => { w with tokens := t }) with slots := [(3, { actSlot 1 with legA := g })] }
def g1 : Leg := { Leg.reset with ops := [⟨5000000, .bytes [1,2], false⟩] }
def o5 : PreOp := ⟨5000000, .bytes [1,2], false⟩
theorem witness_DelayListEvents_6 : (0 < 2) ∧
    (current h1 (lgd g1 []).dev = true) ∧
    (List.find? (fun x => !x.there) (legOf (hSlot h1) 0 (lgd g1 []).dev).ops = some o5) ∧
    (o5.op = Oper.none ∨ (lgd g1 []).dev.weir.tokens = []) := by decide +kernel
def w34 := (lgd g1 [{ tok with fillA := false, elig := false }])
def w35 := { tok with fillA := false, elig := false }
theorem witness_DelayListEvents_7 : (0 < 2) ∧
    (current h1 w34.dev = true) ∧
    (List.find? (fun x => !x.there) (legOf (hSlot h1) 0 w34.dev).ops = some o5) ∧
    (o5.op ≠ Oper.none) ∧
    (w34.dev.weir.tokens = [w35]) ∧
    (w35.elig = false) ∧
    (w35.bus = false) ∧
    (w35.handle = h1) ∧
    (w35.pass = o5.pass) ∧
    (0 = 0) ∧
    (w35.fillA = false) := by decide +kernel
def vis (h : W32) : Visible := ⟨h, 0, 5000000, ⟨1, 0, false, 8, 5000000, [1,2]⟩, false, none⟩
def vd (h : W32) (st : SlotSt) : State := tSt { wd id with path := { Path.reset with visible := [vis h] }, slots := [(3, { actSlot 1 with st := st })] }
theorem witness_LegsSlotsAndPartitionsEnd_1 : (0 < 2) ∧
    ((vd h1 SlotSt.activating).dev.path.visible = [vis h1]) ∧
    ((vis h1).handle = h1) ∧
    ((vis h1).leg = 0) ∧
    (reached (vd h1 SlotSt.activating).dev (vis h1).at_ = true) ∧
    (current h1 (vd h1 SlotSt.activating).dev = true) ∧
    ((vd h1 SlotSt.activating).dev.weir.tokens = []) ∧
    ((legOf (hSlot h1) 0 (vd h1 SlotSt.activating).dev).ops = []) := by decide +kernel
theorem witness_LegsSlotsAndPartitionsEnd_2 : (0 < 2) ∧
    ((vd h2 SlotSt.quiesce).dev.path.visible = [vis h2]) ∧
    ((vis h2).handle = h2) ∧
    ((vis h2).leg = 0) ∧
    (reached (vd h2 SlotSt.quiesce).dev (vis h2).at_ = true) ∧
    (current h2 (vd h2 SlotSt.quiesce).dev = false) ∧
    ((slot 3 (vd h2 SlotSt.quiesce).dev).st = SlotSt.quiesce) ∧
    (reached (vd h2 SlotSt.quiesce).dev (slot 3 (vd h2 SlotSt.quiesce).dev).quiesceAt = true) := by decide +kernel
def rtpL : List W32 := (((zd.set 4 0x201).set 6 9).set 13 1000).set 11 300
def rt : State := tSt { wd (fun w => { w with dl := [(3, [ev 3 (.rtcp 0) h1])] }) with
  tb := { tDev.tb with acc := BitVec.ofNat 32 500000000 ++ 0#32 }
  path := { Path.reset with flows := [(9, { Flow.reset with held := true, words := (List.replicate 16 (0 : W32)).set 1 h1 })] }, slots := [(3, { actSlot 1 with desc := rtpL })] }
theorem witness_LegsSlotsAndPartitionsEnd_3 : (0 < 2) ∧
    (dlist 3 rt.dev = [ev 3 (DKind.rtcp 0) h1]) ∧
    (∀ m < 8, m ≠ 3 → dlist m rt.dev = []) ∧
    ((ev 3 (DKind.rtcp 0) h1).clip = false) ∧
    ((ev 3 (DKind.rtcp 0) h1).handle = h1) ∧
    (reached rt.dev (ev 3 (DKind.rtcp 0) h1).target = true) ∧
    (h1 ≠ (0 : W32)) ∧
    (current h1 rt.dev = true) ∧
    (handleOf (hSlot h1) rt.dev = h1) ∧
    (reports (hSlot h1) 0 rt.dev = true) ∧
    (reports (hSlot h1) (1 - 0) rt.dev = false) ∧
    (BitVec.toNat (slot (hSlot h1) rt.dev).actAt + (hSlot h1 * 1009 % fld (lw (slot (hSlot h1) rt.dev).desc 0 9) 15 0 + (legOf (hSlot h1) 0 rt.dev).reports * fld (lw (slot (hSlot h1) rt.dev).desc 0 9) 15 0) * 1000000 ≤ BitVec.toNat (now64 rt.dev)) ∧
    (BitVec.toNat (slot (hSlot h1) rt.dev).actAt + (hSlot h1 * 1009 % fld (lw (slot (hSlot h1) rt.dev).desc 0 9) 15 0 + (legOf (hSlot h1) 0 rt.dev).reports * fld (lw (slot (hSlot h1) rt.dev).desc 0 9) 15 0) * 1000000 < 2 ^ 64) ∧
    (trunkOf (hSlot h1) 0 rt.dev = none) ∧
    (legSuite (slot (hSlot h1) rt.dev).desc 0 = 0) ∧
    ((flow (txFlow (slot (hSlot h1) rt.dev).desc 0) rt.dev).held = true) ∧
    (fHandle (flow (txFlow (slot (hSlot h1) rt.dev).desc 0) rt.dev) = h1) ∧
    (fLeg (flow (txFlow (slot (hSlot h1) rt.dev).desc 0) rt.dev) = 0) ∧
    (bit (fw (flow (txFlow (slot (hSlot h1) rt.dev).desc 0) rt.dev) 0) 2 = false) ∧
    ((port (portOf (slot (hSlot h1) rt.dev).desc 0 rt.dev) rt.dev).q6.length < 16384) := by decide +kernel
def clo : State := tSt (setr [(kPart 1 oPART_STATE, 2)] (wd id))
theorem witness_LegsSlotsAndPartitionsEnd_4 : (1 < 2) ∧
    (1 < 1024) ∧
    (fld (rg (kPart 1 oPART_STATE) clo.dev) 1 0 = 2) ∧
    (1 ∉ clo.dev.closing) := by decide +kernel
end C04

/-! ### Witnesses: packet path -/

namespace C05
def macs : List (Nat × Nat) := [(kMac 0 0 oMAC_STATUS, 1), (kMac 0 0 oMAC_CFG, 1522), (kMac 0 0 oMAC_ADDR, 0x020000000001), (kMac 0 3 oMAC_RXQ_LIMIT, 16), (kMac 0 0 oMAC_RX_PRIMAP, 0)]
def pd (f : Dev → Dev) : Dev := f (setr macs { slotDev 3 (actSlot 1) tPart with pages := [(macPage 0, { Hdr.reset with ctrl := 1 })] })
def rp : RtpPkt := ⟨2, true, false, false, 8, 100, 0x1000, 0x55AA, 0, 0, false, List.replicate 160 (5 : Byte), [], []⟩
def ip : IpPkt := ⟨false, 0x0A000001, 0x0A000002, false, false, true, false, false, false, false, 4000, 5000, rp⟩
def fr : RxFrame := ⟨0, 4900000, 0, 218, true, true, 0x020000000001, 0x020000000002, [], 0, 0x800, none, [1, 2, 3]⟩
def ps (f : Dev → Dev) : State := tSt (pd f)
theorem witness_FramesThatAreNoPackets_1 : (portOn fr.port (tSt tDev).dev = false) := by decide +kernel
def w1 := { fr with len := 63 }
theorem witness_FramesThatAreNoPackets_2 : (portOn w1.port (ps id).dev = true) ∧
    (w1.len < 64) := by decide +kernel
def w2 := { fr with len := 64 }
theorem witness_FramesThatAreNoPackets_3 : (portOn w2.port (ps id).dev = true) ∧
    (64 ≤ w2.len) ∧
    (fld (rg (kMac w2.port 3 (oMAC_RXQ_LIMIT + 4 * rxQueue w2 (ps id).dev)) (ps id).dev) 6 0 * 1024 < 16384 - 1521 + fld (rg (kMac w2.port 0 oMAC_CFG) (ps id).dev) 13 0 ∨ 65536 < 0 + fld (rg (kMac w2.port 0 oMAC_CFG) (ps id).dev) 13 0) := by decide +kernel
def w3 := { fr with len := 1523 }
theorem witness_FramesThatAreNoPackets_4 : (portOn w3.port (ps id).dev = true) ∧
    (64 ≤ w3.len) ∧
    (¬(fld (rg (kMac w3.port 3 (oMAC_RXQ_LIMIT + 4 * rxQueue w3 (ps id).dev)) (ps id).dev) 6 0 * 1024 < 16384 - 1522 + fld (rg (kMac w3.port 0 oMAC_CFG) (ps id).dev) 13 0 ∨ 65536 < 65536 - 1522 + fld (rg (kMac w3.port 0 oMAC_CFG) (ps id).dev) 13 0)) ∧
    (fld (rg (kMac w3.port 0 oMAC_CFG) (ps id).dev) 13 0 < w3.len) := by decide +kernel
def w4 := { fr with len := 1522, fcsOk := false, aligned := false }
theorem witness_FramesThatAreNoPackets_5 : (portOn w4.port (ps id).dev = true) ∧
    (64 ≤ w4.len) ∧
    (¬(fld (rg (kMac w4.port 3 (oMAC_RXQ_LIMIT + 4 * rxQueue w4 (ps id).dev)) (ps id).dev) 6 0 * 1024 < 16384 - 1522 + fld (rg (kMac w4.port 0 oMAC_CFG) (ps id).dev) 13 0 ∨ 65536 < 65536 - 1522 + fld (rg (kMac w4.port 0 oMAC_CFG) (ps id).dev) 13 0)) ∧
    (w4.len ≤ fld (rg (kMac w4.port 0 oMAC_CFG) (ps id).dev) 13 0) ∧
    (w4.fcsOk = false) := by decide +kernel
def w5 := { fr with len := 1522, aligned := false }
theorem witness_FramesThatAreNoPackets_6 : (portOn w5.port (ps id).dev = true) ∧
    (64 ≤ w5.len) ∧
    (¬(fld (rg (kMac w5.port 3 (oMAC_RXQ_LIMIT + 4 * rxQueue w5 (ps id).dev)) (ps id).dev) 6 0 * 1024 < 16384 - 1522 + fld (rg (kMac w5.port 0 oMAC_CFG) (ps id).dev) 13 0 ∨ 65536 < 65536 - 1522 + fld (rg (kMac w5.port 0 oMAC_CFG) (ps id).dev) 13 0)) ∧
    (w5.len ≤ fld (rg (kMac w5.port 0 oMAC_CFG) (ps id).dev) 13 0) ∧
    (w5.fcsOk = true) ∧
    (w5.aligned = false) := by decide +kernel
def w6 := { fr with len := 1522, dst := 5 }
theorem witness_FramesThatAreNoPackets_7 : (portOn w6.port (ps id).dev = true) ∧
    (64 ≤ w6.len) ∧
    (¬(fld (rg (kMac w6.port 3 (oMAC_RXQ_LIMIT + 4 * rxQueue w6 (ps id).dev)) (ps id).dev) 6 0 * 1024 < 16384 - 1522 + fld (rg (kMac w6.port 0 oMAC_CFG) (ps id).dev) 13 0 ∨ 65536 < 65536 - 1522 + fld (rg (kMac w6.port 0 oMAC_CFG) (ps id).dev) 13 0)) ∧
    (w6.len ≤ fld (rg (kMac w6.port 0 oMAC_CFG) (ps id).dev) 13 0) ∧
    (w6.fcsOk = true) ∧
    (w6.aligned = true) ∧
    (addrOk w6 (ps id).dev = false) := by decide +kernel
def w7 := (ps fun d => { d with rings := [(ringKey 0 1, { Ring.reset with sizeLog2 := 6, enable := true, prod := 7, cons := 0xFFFFFFC8, seq := 7, writes := 7 })] })
def w8 := { fr with len := 1522, etherType := 0x806 }
theorem witness_FramesThatAreNoPackets_8 : (PassesStage1 w8 (16384 - 1522) (65536 - 1522) w7.dev) ∧
    (Serves w7.dev) ∧
    (MediaFrame w8) ∧
    (w8.ip = none) ∧
    (w8.tags.length ≤ 2) ∧
    (Unpoliced 0 w7.dev) := by decide +kernel
def w11 := { fr with len := 64, etherType := 0x8808 }
theorem witness_FramesThatAreNoPackets_9 : (PassesStage1 w11 0 0 (ps id).dev) ∧
    (Serves (ps id).dev) ∧
    (w11.etherType = (34824 : BitVec 16)) := by decide +kernel
-- first packet
def fe : Flow := { Flow.reset with held := true, words := [2, hnd 1 1 3, 0, 0x0FA01388, 0, 0, 0, 0x0A000001, 0, 0, 0, 0x0A000002, 0, 0, 0, 0] }
def rtpD : List W32 := ((((zd.set 4 1).set 7 0x14A01F40).set 1 0x00080001).set 8 (0x03C0500A)).set 12 60
def pkd (d : Dev) : Dev := { slotDev 3 { actSlot 1 with desc := rtpD } d with path := { d.path with flows := [(7, fe)], binds := [(0, ⟨0x80010020, 0xFFFF0000, [0, 0, 0, 0x0A000002]⟩)] } }
def w12 := { fr with ip := some ip }
theorem witness_FirstPacketOfALeg_1 : (PassesStage1 w12 0 0 (ps pkd).dev) ∧
    (Serves (ps pkd).dev) ∧
    (MediaFrame w12) ∧
    (w12.ip = some ip) ∧
    (w12.tags = []) ∧
    (ip.sumBad = false) ∧
    (ip.lenBad = false) ∧
    (ip.options = false) ∧
    (ip.fragment = false) ∧
    (ip.udp = true) ∧
    (ip.udpSumBad = false) ∧
    (ip.udpSumZero = false) ∧
    (ownerOf ip.v6 ip.dst ip.dport.toNat (ps pkd).dev = some 1) ∧
    (lookupFlow ip [] (ps pkd).dev = some 7) ∧
    (Unpoliced (hPart (fHandle (flow 7 (ps pkd).dev))) (ps pkd).dev) ∧
    (fld (fw (flow 7 (ps pkd).dev) 14) 31 16 = 0) ∧
    (ip.rtp.version = 2) ∧
    (ip.rtp.inHead = true) ∧
    (ip.rtp.padBad = false) ∧
    (bit (fw (flow 7 (ps pkd).dev) 0) 3 = false) ∧
    (bit (lw (descNow (hSlot (fHandle (flow 7 (ps pkd).dev))) (ps pkd).dev) (fLeg (flow 7 (ps pkd).dev)) 0) 8 = false) ∧
    (isRtp (descNow (hSlot (fHandle (flow 7 (ps pkd).dev))) (ps pkd).dev) (fLeg (flow 7 (ps pkd).dev)) = true) ∧
    (ip.rtp.pt = rxPt (descNow (hSlot (fHandle (flow 7 (ps pkd).dev))) (ps pkd).dev) (fLeg (flow 7 (ps pkd).dev))) ∧
    (evtPt (descNow (hSlot (fHandle (flow 7 (ps pkd).dev))) (ps pkd).dev) (fLeg (flow 7 (ps pkd).dev)) = 0) ∧
    (fld (fw (flow 7 (ps pkd).dev) 0) 5 4 = 0) ∧
    (legSuite (descNow (hSlot (fHandle (flow 7 (ps pkd).dev))) (ps pkd).dev) (fLeg (flow 7 (ps pkd).dev)) = 0) ∧
    (bit (lw (descNow (hSlot (fHandle (flow 7 (ps pkd).dev))) (ps pkd).dev) (fLeg (flow 7 (ps pkd).dev)) 0) 4 = false) ∧
    ((slot (hSlot (fHandle (flow 7 (ps pkd).dev))) (ps pkd).dev).media.passThrough = false) ∧
    ((slot (hSlot (fHandle (flow 7 (ps pkd).dev))) (ps pkd).dev).part = hPart (fHandle (flow 7 (ps pkd).dev))) ∧
    (handleOf (hSlot (fHandle (flow 7 (ps pkd).dev))) (ps pkd).dev = fHandle (flow 7 (ps pkd).dev)) ∧
    ((legOf (hSlot (fHandle (flow 7 (ps pkd).dev))) (fLeg (flow 7 (ps pkd).dev)) (ps pkd).dev).anchor = none) ∧
    ((legOf (hSlot (fHandle (flow 7 (ps pkd).dev))) (fLeg (flow 7 (ps pkd).dev)) (ps pkd).dev).held = []) ∧
    ((ps pkd).dev.path.visible = []) ∧
    (0 < jbTarget (descNow (hSlot (fHandle (flow 7 (ps pkd).dev))) (ps pkd).dev) (fLeg (flow 7 (ps pkd).dev))) ∧
    (jbTarget (descNow (hSlot (fHandle (flow 7 (ps pkd).dev))) (ps pkd).dev) (fLeg (flow 7 (ps pkd).dev)) ≤ jbMax (descNow (hSlot (fHandle (flow 7 (ps pkd).dev))) (ps pkd).dev) (fLeg (flow 7 (ps pkd).dev))) ∧
    ((legOf (hSlot (fHandle (flow 7 (ps pkd).dev))) (fLeg (flow 7 (ps pkd).dev)) (ps pkd).dev).heard = false) ∧
    (BitVec.toNat (nt64Of (ps pkd).dev (stampNt (rxStamp16 w12.port w12.stamp w12.frac (ps pkd).dev))) < 2 ^ 63) := by decide +kernel
-- flow operations
def fl (idx : Nat) (ws : List Nat) (f : Dev → Dev) : State := ps fun d => f (setr ([(kFlw 1 oFLW_IDX, idx), (kPart 1 oPART_Q_FLOWS, 2)] ++ (List.range 16).map (fun j => (kFlw 1 (oFLW_ENTRY + 4 * j), ws.getD j 0))) (pkd d))
def wsA : List Nat := [2, (hnd 1 1 3).toNat, 0, 0x0FA11388, 0, 0, 0, 0x0A000001, 0, 0, 0, 0x0A000002, 0, 0, 0, 5]
def w13 := (fl 0 wsA (setr [(kFlw 1 oFLW_STATUS, 0x80000000)]))
theorem witness_FlowOperations_1 : (Reaches 1 w13.dev) ∧
    (winPart 1 0 < 1024) ∧
    (w13.dev.twin.role = Role.alone) ∧
    (bit (rg (kFlw (winPart 1 0) oFLW_STATUS) w13.dev) 31 = true) := by decide +kernel
theorem witness_FlowOperations_2 : (Reaches 0 (fl 0 (wsA.set 0 0) id).dev) ∧
    (winPart 0 1 < 1024) ∧
    ((fl 0 (wsA.set 0 0) id).dev.twin.role = Role.alone) ∧
    (bit (rg (kFlw (winPart 0 1) oFLW_STATUS) (fl 0 (wsA.set 0 0) id).dev) 31 = false) ∧
    (badEntry (newFlow (stagedFlow (winPart 0 1) (fl 0 (wsA.set 0 0) id).dev) (fl 0 (wsA.set 0 0) id).dev) = false) ∧
    (hPart (fHandle (newFlow (stagedFlow (winPart 0 1) (fl 0 (wsA.set 0 0) id).dev) (fl 0 (wsA.set 0 0) id).dev)) = winPart 0 1) ∧
    (ownerOf (bit ((stagedFlow (winPart 0 1) (fl 0 (wsA.set 0 0) id).dev).getD 0 (0 : W32) &&& ~~~(128 : W32)) 0) (fLocal (newFlow (stagedFlow (winPart 0 1) (fl 0 (wsA.set 0 0) id).dev) (fl 0 (wsA.set 0 0) id).dev)) (fLocalPort (newFlow (stagedFlow (winPart 0 1) (fl 0 (wsA.set 0 0) id).dev) (fl 0 (wsA.set 0 0) id).dev)) (fl 0 (wsA.set 0 0) id).dev = some (winPart 0 1)) ∧
    (leased (fHandle (newFlow (stagedFlow (winPart 0 1) (fl 0 (wsA.set 0 0) id).dev) (fl 0 (wsA.set 0 0) id).dev)) (fl 0 (wsA.set 0 0) id).dev = true) ∧
    (partState (winPart 0 1) (fl 0 (wsA.set 0 0) id).dev = 1) ∧
    (flowsOf (winPart 0 1) (fl 0 (wsA.set 0 0) id).dev + 1 ≤ rgN (kPart (winPart 0 1) oPART_Q_FLOWS) (fl 0 (wsA.set 0 0) id).dev) ∧
    (flowsHeld (fl 0 (wsA.set 0 0) id).dev < 32768) ∧
    (duplicate (newFlow (stagedFlow (winPart 0 1) (fl 0 (wsA.set 0 0) id).dev) (fl 0 (wsA.set 0 0) id).dev) (fl 0 (wsA.set 0 0) id).dev = false) ∧
    (tabWf (fun _ => Flow.reset) (fl 0 (wsA.set 0 0) id).dev.path.flows = true) ∧
    (0 < 32768) ∧
    ((flow 0 (fl 0 (wsA.set 0 0) id).dev).held = false) ∧
    ((flow 0 (fl 0 (wsA.set 0 0) id).dev).freeAt = none) ∧
    (∀ j < 0, (flow j (fl 0 (wsA.set 0 0) id).dev).held = true) ∧
    (bit ((stagedFlow (winPart 0 1) (fl 0 (wsA.set 0 0) id).dev).getD 0 (0 : W32) &&& ~~~(128 : W32)) 1 = false) := by decide +kernel
theorem witness_FlowOperations_3 : (Reaches 0 (fl 0 (wsA.set 0 1024) id).dev) ∧
    (winPart 0 1 < 1024) ∧
    ((fl 0 (wsA.set 0 1024) id).dev.twin.role = Role.alone) ∧
    (bit (rg (kFlw (winPart 0 1) oFLW_STATUS) (fl 0 (wsA.set 0 1024) id).dev) 31 = false) ∧
    ((flow (flwIdx (winPart 0 1) (fl 0 (wsA.set 0 1024) id).dev) (fl 0 (wsA.set 0 1024) id).dev).held = false) ∧
    (badEntry (newFlow (stagedFlow (winPart 0 1) (fl 0 (wsA.set 0 1024) id).dev) (fl 0 (wsA.set 0 1024) id).dev) = true) := by decide +kernel
def w14 := (fl 7 ((fe.words.map (·.toNat)).set 0 0x12) id)
theorem witness_FlowOperations_4 : (Reaches 1 w14.dev) ∧
    (winPart 1 0 < 1024) ∧
    (w14.dev.twin.role = Role.alone) ∧
    (bit (rg (kFlw (winPart 1 0) oFLW_STATUS) w14.dev) 31 = false) ∧
    ((flow (flwIdx (winPart 1 0) w14.dev) w14.dev).held = true) ∧
    (hPart (fHandle (flow (flwIdx (winPart 1 0) w14.dev) w14.dev)) = winPart 1 0) ∧
    (badEntry { held := (flow (flwIdx (winPart 1 0) w14.dev) w14.dev).held, words := (stagedFlow (winPart 1 0) w14.dev).set 0 ((stagedFlow (winPart 1 0) w14.dev).getD 0 (0 : W32) &&& ~~~(128 : W32)), stash := (flow (flwIdx (winPart 1 0) w14.dev) w14.dev).stash, bucket := (flow (flwIdx (winPart 1 0) w14.dev) w14.dev).bucket, tok := (flow (flwIdx (winPart 1 0) w14.dev) w14.dev).tok, tokAt := (flow (flwIdx (winPart 1 0) w14.dev) w14.dev).tokAt, freeAt := (flow (flwIdx (winPart 1 0) w14.dev) w14.dev).freeAt : Machine.Flow } = false) ∧
    (∀ j < 16, ((stagedFlow (winPart 1 0) w14.dev).getD j (0 : W32) ^^^ fw (flow (flwIdx (winPart 1 0) w14.dev) w14.dev) j) &&& BitVec.ofNat 32 (fixedBits j) = (0 : W32)) ∧
    (fld ((stagedFlow (winPart 1 0) w14.dev).getD 0 (0 : W32) &&& ~~~(128 : W32)) 5 4 ≠ fld (fw (flow (flwIdx (winPart 1 0) w14.dev) w14.dev) 0) 5 4) ∧
    (ownerOf (bit (fw (flow (flwIdx (winPart 1 0) w14.dev) w14.dev) 0) 0) (fLocal (flow (flwIdx (winPart 1 0) w14.dev) w14.dev)) (fLocalPort (flow (flwIdx (winPart 1 0) w14.dev) w14.dev)) w14.dev = some (winPart 1 0)) ∧
    (leased (fHandle (flow (flwIdx (winPart 1 0) w14.dev) w14.dev)) w14.dev = true) ∧
    (badEntry (newFlow (stagedFlow (winPart 1 0) w14.dev) w14.dev) = false) ∧
    (hPart (fHandle (newFlow (stagedFlow (winPart 1 0) w14.dev) w14.dev)) = winPart 1 0) ∧
    (ownerOf (bit ((stagedFlow (winPart 1 0) w14.dev).getD 0 (0 : W32) &&& ~~~(128 : W32)) 0) (fLocal (newFlow (stagedFlow (winPart 1 0) w14.dev) w14.dev)) (fLocalPort (newFlow (stagedFlow (winPart 1 0) w14.dev) w14.dev)) w14.dev = some (winPart 1 0)) ∧
    (leased (fHandle (newFlow (stagedFlow (winPart 1 0) w14.dev) w14.dev)) w14.dev = true) ∧
    (partState (winPart 1 0) w14.dev = 1) ∧
    (flowsOf (winPart 1 0) w14.dev + 1 ≤ rgN (kPart (winPart 1 0) oPART_Q_FLOWS) w14.dev) ∧
    (flowsHeld w14.dev < 32768) ∧
    (duplicate (newFlow (stagedFlow (winPart 1 0) w14.dev) w14.dev) w14.dev = true) := by decide +kernel
def w16 := (fl 7 (wsA.set 1 (hnd 1 2 3).toNat) fun d => { d with path := { d.path with flows := [(7, { fe with words := fe.words.set 1 (hnd 1 2 3) })] } })
theorem witness_FlowOperations_5 : (Reaches 1 w16.dev) ∧
    (winPart 1 0 < 1024) ∧
    (w16.dev.twin.role = Role.alone) ∧
    (bit (rg (kFlw (winPart 1 0) oFLW_STATUS) w16.dev) 31 = false) ∧
    ((flow (flwIdx (winPart 1 0) w16.dev) w16.dev).held = true) ∧
    (hPart (fHandle (flow (flwIdx (winPart 1 0) w16.dev) w16.dev)) ≠ winPart 1 0) ∧
    (badEntry (newFlow (stagedFlow (winPart 1 0) w16.dev) w16.dev) = false) ∧
    (hPart (fHandle (newFlow (stagedFlow (winPart 1 0) w16.dev) w16.dev)) ≠ winPart 1 0) := by decide +kernel
def w17 := (fl 7 wsA fun d => slotDev 3 { actSlot 1 with desc := rtpD.set 6 7 } d)
theorem witness_FlowOperations_6 : (Reaches 1 w17.dev) ∧
    (winPart 1 0 < 1024) ∧
    (w17.dev.twin.role = Role.alone) ∧
    (bit (rg (kFlw (winPart 1 0) oFLW_STATUS) w17.dev) 31 = false) ∧
    ((flow (flwIdx (winPart 1 0) w17.dev) w17.dev).held = true) ∧
    (hPart (fHandle (flow (flwIdx (winPart 1 0) w17.dev) w17.dev)) = winPart 1 0) ∧
    (flowInUse (winPart 1 0) (flwIdx (winPart 1 0) w17.dev) w17.dev = true) ∧
    (∃ j < 16, ((stagedFlow (winPart 1 0) w17.dev).getD j (0 : W32) ^^^ fw (flow (flwIdx (winPart 1 0) w17.dev) w17.dev) j) &&& BitVec.ofNat 32 (fixedBits j) ≠ (0 : W32)) := by decide +kernel
def w19 := (fl 7 ((fe.words.map (·.toNat)).set 0 0x12) fun d => { d with path := { d.path with binds := [] } })
theorem witness_FlowOperations_7 : (Reaches 1 w19.dev) ∧
    (winPart 1 0 < 1024) ∧
    (w19.dev.twin.role = Role.alone) ∧
    (bit (rg (kFlw (winPart 1 0) oFLW_STATUS) w19.dev) 31 = false) ∧
    ((flow (flwIdx (winPart 1 0) w19.dev) w19.dev).held = true) ∧
    (hPart (fHandle (flow (flwIdx (winPart 1 0) w19.dev) w19.dev)) = winPart 1 0) ∧
    (badEntry { held := (flow (flwIdx (winPart 1 0) w19.dev) w19.dev).held, words := (stagedFlow (winPart 1 0) w19.dev).set 0 ((stagedFlow (winPart 1 0) w19.dev).getD 0 (0 : W32) &&& ~~~(128 : W32)), stash := (flow (flwIdx (winPart 1 0) w19.dev) w19.dev).stash, bucket := (flow (flwIdx (winPart 1 0) w19.dev) w19.dev).bucket, tok := (flow (flwIdx (winPart 1 0) w19.dev) w19.dev).tok, tokAt := (flow (flwIdx (winPart 1 0) w19.dev) w19.dev).tokAt, freeAt := (flow (flwIdx (winPart 1 0) w19.dev) w19.dev).freeAt : Machine.Flow } = false) ∧
    (∀ j < 16, ((stagedFlow (winPart 1 0) w19.dev).getD j (0 : W32) ^^^ fw (flow (flwIdx (winPart 1 0) w19.dev) w19.dev) j) &&& BitVec.ofNat 32 (fixedBits j) = (0 : W32)) ∧
    (fld ((stagedFlow (winPart 1 0) w19.dev).getD 0 (0 : W32) &&& ~~~(128 : W32)) 5 4 ≠ fld (fw (flow (flwIdx (winPart 1 0) w19.dev) w19.dev) 0) 5 4) ∧
    (ownerOf (bit (fw (flow (flwIdx (winPart 1 0) w19.dev) w19.dev) 0) 0) (fLocal (flow (flwIdx (winPart 1 0) w19.dev) w19.dev)) (fLocalPort (flow (flwIdx (winPart 1 0) w19.dev) w19.dev)) w19.dev ≠ some (winPart 1 0)) := by decide +kernel
def w20 := (fl 7 ((fe.words.map (·.toNat)).set 0 0x12) fun d => { d with slots := d.slots.map fun e => (e.1, { e.2 with st := .releasing }) })
theorem witness_FlowOperations_8 : (Reaches 1 w20.dev) ∧
    (winPart 1 0 < 1024) ∧
    (w20.dev.twin.role = Role.alone) ∧
    (bit (rg (kFlw (winPart 1 0) oFLW_STATUS) w20.dev) 31 = false) ∧
    ((flow (flwIdx (winPart 1 0) w20.dev) w20.dev).held = true) ∧
    (hPart (fHandle (flow (flwIdx (winPart 1 0) w20.dev) w20.dev)) = winPart 1 0) ∧
    (flowInUse (winPart 1 0) (flwIdx (winPart 1 0) w20.dev) w20.dev = false) ∧
    (badEntry { held := (flow (flwIdx (winPart 1 0) w20.dev) w20.dev).held, words := (stagedFlow (winPart 1 0) w20.dev).set 0 ((stagedFlow (winPart 1 0) w20.dev).getD 0 (0 : W32) &&& ~~~(128 : W32)), stash := (flow (flwIdx (winPart 1 0) w20.dev) w20.dev).stash, bucket := (flow (flwIdx (winPart 1 0) w20.dev) w20.dev).bucket, tok := (flow (flwIdx (winPart 1 0) w20.dev) w20.dev).tok, tokAt := (flow (flwIdx (winPart 1 0) w20.dev) w20.dev).tokAt, freeAt := (flow (flwIdx (winPart 1 0) w20.dev) w20.dev).freeAt : Machine.Flow } = false) ∧
    (∀ j < 16, ((stagedFlow (winPart 1 0) w20.dev).getD j (0 : W32) ^^^ fw (flow (flwIdx (winPart 1 0) w20.dev) w20.dev) j) &&& BitVec.ofNat 32 (fixedBits j) = (0 : W32)) ∧
    (fld ((stagedFlow (winPart 1 0) w20.dev).getD 0 (0 : W32) &&& ~~~(128 : W32)) 5 4 ≠ fld (fw (flow (flwIdx (winPart 1 0) w20.dev) w20.dev) 0) 5 4) ∧
    (ownerOf (bit (fw (flow (flwIdx (winPart 1 0) w20.dev) w20.dev) 0) 0) (fLocal (flow (flwIdx (winPart 1 0) w20.dev) w20.dev)) (fLocalPort (flow (flwIdx (winPart 1 0) w20.dev) w20.dev)) w20.dev = some (winPart 1 0)) ∧
    (leased (fHandle (flow (flwIdx (winPart 1 0) w20.dev) w20.dev)) w20.dev = false) ∧
    (badEntry (newFlow (stagedFlow (winPart 1 0) w20.dev) w20.dev) = false) ∧
    (hPart (fHandle (newFlow (stagedFlow (winPart 1 0) w20.dev) w20.dev)) = winPart 1 0) ∧
    (ownerOf (bit ((stagedFlow (winPart 1 0) w20.dev).getD 0 (0 : W32) &&& ~~~(128 : W32)) 0) (fLocal (newFlow (stagedFlow (winPart 1 0) w20.dev) w20.dev)) (fLocalPort (newFlow (stagedFlow (winPart 1 0) w20.dev) w20.dev)) w20.dev = some (winPart 1 0)) ∧
    (leased (fHandle (newFlow (stagedFlow (winPart 1 0) w20.dev) w20.dev)) w20.dev = false) := by decide +kernel
-- keys
def ky (sel ctrl : Nat) (desc : List W32) (l : List (Nat × Nat)) : State := ps fun d => setr ([(kKey 1 oKEY_SEL, sel), (kKey 1 oKEY_CTRL, ctrl), (kKey 1 oKEY_MKI, 0x12345678), (kKey 1 oKEY_ROC, 9), (kKey 1 oKEY_MASTER, 0xAABBCCDD), (kKey 1 oKEY_SALT, 0x11223344)] ++ l) (slotDev 3 { actSlot 1 with desc := desc } d)
def h13 : Nat := (hnd 1 1 3).toNat
def w21 := (ky (hnd 1 2 3).toNat 0x20 (rtpD.set 4 0x21) [])
theorem witness_KeyOperations_1 : (Reaches 1 w21.dev) ∧
    (winPart 1 0 < 1024) ∧
    (w21.dev.twin.role = Role.alone) ∧
    (bit (rg (kKey (winPart 1 0) oKEY_STATUS) w21.dev) 31 = false) ∧
    (hPart (BitVec.extractLsb' 0 32 (rg (kKey (winPart 1 0) oKEY_SEL) w21.dev)) ≠ winPart 1 0) := by decide +kernel
def w22 := (ky (hnd 2 1 3).toNat 0x20 (rtpD.set 4 0x21) [])
theorem witness_KeyOperations_2 : (Reaches 0 w22.dev) ∧
    (winPart 0 1 < 1024) ∧
    (w22.dev.twin.role = Role.alone) ∧
    (bit (rg (kKey (winPart 0 1) oKEY_STATUS) w22.dev) 31 = false) ∧
    (hPart (BitVec.extractLsb' 0 32 (rg (kKey (winPart 0 1) oKEY_SEL) w22.dev)) = winPart 0 1) ∧
    (leased (BitVec.extractLsb' 0 32 (rg (kKey (winPart 0 1) oKEY_SEL) w22.dev)) w22.dev = false) := by decide +kernel
theorem witness_KeyOperations_3 : (Reaches 1 (ky h13 38 (rtpD.set 4 (33 : W32)) []).dev) ∧
    (winPart 1 0 < 1024) ∧
    ((ky h13 38 (rtpD.set 4 (33 : W32)) []).dev.twin.role = Role.alone) ∧
    (bit (rg (kKey (winPart 1 0) oKEY_STATUS) (ky h13 38 (rtpD.set 4 (33 : W32)) []).dev) 31 = false) ∧
    (hPart (BitVec.extractLsb' 0 32 (rg (kKey (winPart 1 0) oKEY_SEL) (ky h13 38 (rtpD.set 4 (33 : W32)) []).dev)) = winPart 1 0) ∧
    (leased (BitVec.extractLsb' 0 32 (rg (kKey (winPart 1 0) oKEY_SEL) (ky h13 38 (rtpD.set 4 (33 : W32)) []).dev)) (ky h13 38 (rtpD.set 4 (33 : W32)) []).dev = true) ∧
    (legSuite (descNow (hSlot (BitVec.extractLsb' 0 32 (rg (kKey (winPart 1 0) oKEY_SEL) (ky h13 38 (rtpD.set 4 (33 : W32)) []).dev))) (ky h13 38 (rtpD.set 4 (33 : W32)) []).dev) (fld (BitVec.extractLsb' 0 32 (rg (kKey (winPart 1 0) oKEY_CTRL) (ky h13 38 (rtpD.set 4 (33 : W32)) []).dev)) 0 0) ≠ 0) ∧
    (isRtp (descNow (hSlot (BitVec.extractLsb' 0 32 (rg (kKey (winPart 1 0) oKEY_SEL) (ky h13 38 (rtpD.set 4 (33 : W32)) []).dev))) (ky h13 38 (rtpD.set 4 (33 : W32)) []).dev) (fld (BitVec.extractLsb' 0 32 (rg (kKey (winPart 1 0) oKEY_CTRL) (ky h13 38 (rtpD.set 4 (33 : W32)) []).dev)) 0 0) = true) ∧
    (fld (BitVec.extractLsb' 0 32 (rg (kKey (winPart 1 0) oKEY_CTRL) (ky h13 38 (rtpD.set 4 (33 : W32)) []).dev)) 5 3 ≤ 4) ∧
    (∀ (b : ℕ), (if legSuite (descNow (hSlot (BitVec.extractLsb' 0 32 (rg (kKey (winPart 1 0) oKEY_SEL) (ky h13 38 (rtpD.set 4 (33 : W32)) []).dev))) (ky h13 38 (rtpD.set 4 (33 : W32)) []).dev) (fld (BitVec.extractLsb' 0 32 (rg (kKey (winPart 1 0) oKEY_CTRL) (ky h13 38 (rtpD.set 4 (33 : W32)) []).dev)) 0 0) = 4 then 32 else 16) ≤ b → b < 32 → stagedByte (List.map (fun i => BitVec.extractLsb' 0 32 (rg (kKey (winPart 1 0) (oKEY_MASTER + 4 * i)) (ky h13 38 (rtpD.set 4 (33 : W32)) []).dev)) (List.range 8)) b = 0) ∧
    (∀ (b : ℕ), (if legSuite (descNow (hSlot (BitVec.extractLsb' 0 32 (rg (kKey (winPart 1 0) oKEY_SEL) (ky h13 38 (rtpD.set 4 (33 : W32)) []).dev))) (ky h13 38 (rtpD.set 4 (33 : W32)) []).dev) (fld (BitVec.extractLsb' 0 32 (rg (kKey (winPart 1 0) oKEY_CTRL) (ky h13 38 (rtpD.set 4 (33 : W32)) []).dev)) 0 0) ≤ 2 then 14 else 12) ≤ b → b < 16 → stagedByte (List.map (fun i => BitVec.extractLsb' 0 32 (rg (kKey (winPart 1 0) (oKEY_SALT + 4 * i)) (ky h13 38 (rtpD.set 4 (33 : W32)) []).dev)) (List.range 4)) b = 0) := by decide +kernel
theorem witness_KeyOperations_4 : (Reaches 1 (ky h13 32 rtpD []).dev) ∧
    (winPart 1 0 < 1024) ∧
    ((ky h13 32 rtpD []).dev.twin.role = Role.alone) ∧
    (bit (rg (kKey (winPart 1 0) oKEY_STATUS) (ky h13 32 rtpD []).dev) 31 = false) ∧
    (hPart (BitVec.extractLsb' 0 32 (rg (kKey (winPart 1 0) oKEY_SEL) (ky h13 32 rtpD []).dev)) = winPart 1 0) ∧
    (leased (BitVec.extractLsb' 0 32 (rg (kKey (winPart 1 0) oKEY_SEL) (ky h13 32 rtpD []).dev)) (ky h13 32 rtpD []).dev = true) ∧
    (legSuite (descNow (hSlot (BitVec.extractLsb' 0 32 (rg (kKey (winPart 1 0) oKEY_SEL) (ky h13 32 rtpD []).dev))) (ky h13 32 rtpD []).dev) (fld (BitVec.extractLsb' 0 32 (rg (kKey (winPart 1 0) oKEY_CTRL) (ky h13 32 rtpD []).dev)) 0 0) = 0 ∨ isRtp (descNow (hSlot (BitVec.extractLsb' 0 32 (rg (kKey (winPart 1 0) oKEY_SEL) (ky h13 32 rtpD []).dev))) (ky h13 32 rtpD []).dev) (fld (BitVec.extractLsb' 0 32 (rg (kKey (winPart 1 0) oKEY_CTRL) (ky h13 32 rtpD []).dev)) 0 0) = false ∨ 4 < fld (BitVec.extractLsb' 0 32 (rg (kKey (winPart 1 0) oKEY_CTRL) (ky h13 32 rtpD []).dev)) 5 3) := by decide +kernel
-- bindings, launch
def pk : TxPkt := ⟨hnd 1 1 3, 0, [], 1, 0, 64, false, 5, 8, false, 3, 7, 0, [1,2], []⟩
def q6 (a : NT32) : Q6Ent := ⟨a, hnd 1 1 3, 0, 1, 218, 0, some pk, none⟩
def bn (f : Dev → Dev) : State := ps f
def w24 := (bn fun d => setr [(rCLS_BIND_SEL, 1)] { pkd d with path := { (pkd d).path with binds := [(1, ⟨0, 0xFFFF0000, [0,0,0,0x0A000002]⟩), (0, ⟨0x80010020, 0xFFFF0000, [0, 0, 0, 0x0A000002]⟩)] } })
theorem witness_BindingsAndLaunch_1 : (w24.dev.twin.role = Role.alone) ∧
    (HostUp w24.dev) ∧
    ((hdr 176 w24.dev).locked = false) ∧
    ((have __src := binding (fld (rg rCLS_BIND_SEL w24.dev) 9 0) w24.dev; { ctrl := (2147549215 : W32) &&& (3288269055 : W32), ports := __src.ports, ip := __src.ip : Binding }).valid = true ∧ ((∃ x ∈ w24.dev.path.binds, x.1 ≠ fld (rg rCLS_BIND_SEL w24.dev) 9 0 ∧ x.2.valid = true ∧ x.2.overlaps (have __src := binding (fld (rg rCLS_BIND_SEL w24.dev) 9 0) w24.dev; { ctrl := (2147549215 : W32) &&& (3288269055 : W32), ports := __src.ports, ip := __src.ip : Binding }) = true) ∨ (have __src := binding (fld (rg rCLS_BIND_SEL w24.dev) 9 0) w24.dev; { ctrl := (2147549215 : W32) &&& (3288269055 : W32), ports := __src.ports, ip := __src.ip : Binding }).width < fld (have __src := binding (fld (rg rCLS_BIND_SEL w24.dev) 9 0) w24.dev; { ctrl := (2147549215 : W32) &&& (3288269055 : W32), ports := __src.ports, ip := __src.ip : Binding }).ctrl 7 0)) ∧
    (∃ y ∈ w24.dev.path.flows, y.2.held = true) ∧
    ((hdr 208 w24.dev).locked = false) ∧
    (¬(1 ≤ fld ((16852753 : W32) &&& (4279238655 : W32)) 31 24 ∧ 1 ≤ fld ((16852753 : W32) &&& (4279238655 : W32)) 19 16 ∧ 200 ≤ fld ((16852753 : W32) &&& (4279238655 : W32)) 15 0 ∧ fld ((16852753 : W32) &&& (4279238655 : W32)) 15 0 ≤ 10000)) := by decide +kernel
def lau (a : NT32) : State := ps fun d => { setr [(kPart 1 oPART_EGR, 0x03E80000)] d with ports := [(0, { Port.reset with q6 := [q6 a, q6 9000000] })] }
theorem witness_BindingsAndLaunch_2 : ((lau (5000021 : NT32)).dev.twin.role = Role.alone) ∧
    (HostUp (lau (5000021 : NT32)).dev) ∧
    ((hdr 176 (lau (5000021 : NT32)).dev).locked = false) ∧
    (¬((have __src := binding (fld (rg rCLS_BIND_SEL (lau (5000021 : NT32)).dev) 9 0) (lau (5000021 : NT32)).dev; { ctrl := (2147549215 : W32) &&& (3288269055 : W32), ports := __src.ports, ip := __src.ip : Binding }).valid = true ∧ ((∃ x ∈ (lau (5000021 : NT32)).dev.path.binds, x.1 ≠ fld (rg rCLS_BIND_SEL (lau (5000021 : NT32)).dev) 9 0 ∧ x.2.valid = true ∧ x.2.overlaps (have __src := binding (fld (rg rCLS_BIND_SEL (lau (5000021 : NT32)).dev) 9 0) (lau (5000021 : NT32)).dev; { ctrl := (2147549215 : W32) &&& (3288269055 : W32), ports := __src.ports, ip := __src.ip : Binding }) = true) ∨ (have __src := binding (fld (rg rCLS_BIND_SEL (lau (5000021 : NT32)).dev) 9 0) (lau (5000021 : NT32)).dev; { ctrl := (2147549215 : W32) &&& (3288269055 : W32), ports := __src.ports, ip := __src.ip : Binding }).width < fld (have __src := binding (fld (rg rCLS_BIND_SEL (lau (5000021 : NT32)).dev) 9 0) (lau (5000021 : NT32)).dev; { ctrl := (2147549215 : W32) &&& (3288269055 : W32), ports := __src.ports, ip := __src.ip : Binding }).ctrl 7 0))) ∧
    ((have __src := binding (fld (rg rCLS_BIND_SEL (lau (5000021 : NT32)).dev) 9 0) (lau (5000021 : NT32)).dev; { ctrl := (2147549215 : W32) &&& (3288269055 : W32), ports := __src.ports, ip := __src.ip : Binding }).valid = true ∨ (binding (fld (rg rCLS_BIND_SEL (lau (5000021 : NT32)).dev) 9 0) (lau (5000021 : NT32)).dev).valid = false) ∧
    (∀ y ∈ (lau (5000021 : NT32)).dev.path.flows, y.2.held = false) ∧
    ((hdr 208 (lau (5000021 : NT32)).dev).locked = false) ∧
    (1 ≤ fld ((16852751 : W32) &&& (4279238655 : W32)) 31 24 ∧ 1 ≤ fld ((16852751 : W32) &&& (4279238655 : W32)) 19 16 ∧ 200 ≤ fld ((16852751 : W32) &&& (4279238655 : W32)) 15 0 ∧ fld ((16852751 : W32) &&& (4279238655 : W32)) 15 0 ≤ 10000) ∧
    ((lau (5000021 : NT32)).dev.path.nextJb = []) ∧
    (0 < 4) ∧
    ((port 0 (lau (5000021 : NT32)).dev).q6 = [q6 (5000021 : NT32), q6 (9000000 : NT32)]) ∧
    ((port 0 (lau (5000021 : NT32)).dev).ctl = []) ∧
    ((20 : ℤ) < sdiff (q6 (5000021 : NT32)).at_ (now (lau (5000021 : NT32)).dev)) := by decide +kernel
theorem witness_BindingsAndLaunch_3 : ((lau (5000020 : NT32)).dev.twin.role = Role.alone) ∧
    (0 < 4) ∧
    ((port 0 (lau (5000020 : NT32)).dev).q6 = [q6 (5000020 : NT32), q6 (9000000 : NT32)]) ∧
    ((port 0 (lau (5000020 : NT32)).dev).ctl = []) ∧
    ((q6 (5000020 : NT32)).pkt = some pk) ∧
    (sdiff (q6 (5000020 : NT32)).at_ (now (lau (5000020 : NT32)).dev) ≤ (20 : ℤ)) ∧
    (sdiff (now (lau (5000020 : NT32)).dev) (q6 (5000020 : NT32)).at_ ≤ (20 : ℤ)) ∧
    (mayLaunch (lau (5000020 : NT32)).dev = true) ∧
    (bit (rg (kMac 0 0 oMAC_PAUSE_STATE) (lau (5000020 : NT32)).dev) 6 = false) ∧
    (linkUp 0 (lau (5000020 : NT32)).dev = true) ∧
    (bit (macStatus 0 (lau (5000020 : NT32)).dev) 3 = false) ∧
    ((port 0 (lau (5000020 : NT32)).dev).wakeAt = none) ∧
    ((port 0 (lau (5000020 : NT32)).dev).busy = none) ∧
    (↑(wireNs 0 (q6 (5000020 : NT32)).octets (lau (5000020 : NT32)).dev) ≤ sdiff (passOf (q6 (5000020 : NT32)).at_ (lau (5000020 : NT32)).dev + BitVec.ofNat 32 ((egrWindow (q6 (5000020 : NT32)).part (if mode1 (lau (5000020 : NT32)).dev = true then 0 else 0) (lau (5000020 : NT32)).dev).2 * 1000)) (if (0 : ℤ) ≤ sdiff (now (lau (5000020 : NT32)).dev) (q6 (5000020 : NT32)).at_ then now (lau (5000020 : NT32)).dev else (q6 (5000020 : NT32)).at_)) := by decide +kernel
end C05

/-! ### Witnesses: Tarn cores -/

namespace C07
/-- The instruction core `c` executes next. -/
def fi (c : Nat) (op : TOp) (s : State) : TI := match fetchTarn c op s.dev with | .ok i => i | _ => TI.of .nop
/-- A core about to execute the word `w` at `pc`, `e` after it. -/
def core (pc w e : Nat) (user : Bool) : Tarn := { Tarn.reset with
  st := .running, pc := BitVec.ofNat 14 pc, pm := [(pc, BitVec.ofNat 36 w), (pc + 1, BitVec.ofNat 36 e)]
  r := [(2, 0xFFFFFFFF6), (3, 0x800000003), (4, 0x1000), (0x10, 0x20), (0x11, 0x31), (0x12, 0x40), (0x13, 0x51), (0x14, 0x60), (0x18, 0x20), (0x20, 8), (0x28, 0xFFFF),
    (0x30, if user then 0x8180 else 0x4180), (0x38, 0x66), (0x39, 0x4183), (0x3A, if user then 0xC000 else 0xC000), (0x3B, 0xFFFF), (0x3C, 0x55), (0x3E, 777), (0x3F, 5000), (0x40, 0x800000020000), (0x42, 0x7FFFFFFFFFFF), (0x44, 0x60000)]
  dm := [(0x20, 0x123456789), (0x30, 7), (0x31, 0xFEDCBA987), (0xFFFF, 0xABCDEF012)], cs := [(0x1F, 5), (0x20, 9)] }
/-- The device with that core. -/
def cst (c pc w e : Nat) (user : Bool) : State := tSt { tDev with tarns := [(c, core pc w e user)] }
def w5 := (fi 64 .addi (cst 64 512 4382785536 34359738367 false))
def w6 := (cst 64 512 4382785536 34359738367 false)
theorem witness_ArithmeticResults_1 : ((TOp.addi, Instr.addi 64) ∈ [(TOp.add, Instr.add 64), (TOp.sub, Instr.sub 64), (TOp.neg, Instr.neg 64), (TOp.abs, Instr.abs 64), (TOp.min, Instr.min 64), (TOp.max, Instr.max 64), (TOp.cmp, Instr.cmp 64), (TOp.addi, Instr.addi 64), (TOp.subi, Instr.subi 64), (TOp.cmpi, Instr.cmpi 64)]) ∧
    (Next 64 TOp.addi w5 w6) ∧
    (w5.rd < 16) := by decide +kernel
def w11 := (fi 5 .ash (cst 5 512 201334976 0 false))
theorem witness_ShiftResults_1 : ((TOp.ash, Instr.ash 5) ∈ [(TOp.ash, Instr.ash 5), (TOp.lsh, Instr.lsh 5), (TOp.ashi, Instr.ashi 5), (TOp.lshi, Instr.lshi 5)]) ∧
    (Next 5 TOp.ash w11 (cst 5 512 201334976 0 false)) ∧
    (w11.rd < 16) := by decide +kernel
def w16 := (fi 5 .xor (cst 5 512 100933824 0 false))
theorem witness_LogicResults_1 : ((TOp.xor, Instr.xor 5) ∈ [(TOp.and_, Instr.andI 5), (TOp.or_, Instr.orI 5), (TOp.xor, Instr.xor 5), (TOp.not_, Instr.notI 5), (TOp.andi, Instr.andi 5), (TOp.ori, Instr.ori 5), (TOp.xori, Instr.xori 5)]) ∧
    (Next 5 TOp.xor w16 (cst 5 512 100933824 0 false)) ∧
    (w16.rd < 16) := by decide +kernel
theorem witness_MoveResults_1 : (Next 5 TOp.nop (fi 5 TOp.nop (cst 5 512 0 0 false)) (cst 5 512 0 0 false)) := by decide +kernel
def w21 := (fi 5 .mov (cst 5 512 264253440 0 false))
theorem witness_MoveResults_2 : (Next 5 TOp.mov w21 (cst 5 512 264253440 0 false)) := by decide +kernel
def w22 := (fi 5 .ldi (cst 5 512 4310695935 0 false))
theorem witness_MoveResults_3 : (Next 5 TOp.ldi w22 (cst 5 512 4310695935 0 false)) := by decide +kernel
def w23 := (fi 5 .ldih (cst 5 16383 4332584960 0 true))
theorem witness_MoveResults_4 : (Next 5 TOp.ldih w23 (cst 5 16383 4332584960 0 true)) := by decide +kernel
def w34 := (fi 5 .div (cst 5 512 238559232 0 false))
theorem witness_DivideAndReadAccumulator_1 : (Next 5 TOp.div w34 (cst 5 512 238559232 0 false)) := by decide +kernel
def w36 := (fi 5 .mva (cst 5 512 268697904 0 false))
theorem witness_DivideAndReadAccumulator_2 : (Next 5 TOp.mva w36 (cst 5 512 268697904 0 false)) := by decide +kernel
def w37 := (fi 5 .acrd (cst 5 512 285474992 0 false))
theorem witness_DivideAndReadAccumulator_3 : (Next 5 TOp.acrd w37 (cst 5 512 285474992 0 false)) := by decide +kernel
def w38 := (fi 5 .acset (cst 5 512 318775536 0 false))
theorem witness_AccumulatorResults_1 : (Next 5 TOp.acset w38 (cst 5 512 318775536 0 false)) := by decide +kernel
def w39 := (fi 5 .acclr (cst 5 512 335544336 0 false))
theorem witness_AccumulatorResults_2 : (Next 5 TOp.acclr w39 (cst 5 512 335544336 0 false)) := by decide +kernel
def w40 := (fi 5 .acwr (cst 5 512 301998224 0 false))
theorem witness_AccumulatorResults_3 : (Next 5 TOp.acwr w40 (cst 5 512 301998224 0 false)) := by decide +kernel
def w41 := (fi 5 .acsh (cst 5 512 352333840 0 false))
theorem witness_AccumulatorResults_4 : (Next 5 TOp.acsh w41 (cst 5 512 352333840 0 false)) := by decide +kernel
def w42 := (fi 5 .acrnd (cst 5 512 369098784 0 false))
theorem witness_AccumulatorResults_5 : (Next 5 TOp.acrnd w42 (cst 5 512 369098784 0 false)) := by decide +kernel
def w43 := (fi 5 .mpyl (cst 5 512 385884360 0 false))
theorem witness_AccumulatorResults_6 : (Next 5 TOp.mpyl w43 (cst 5 512 385884360 0 false)) := by decide +kernel
def w44 := (fi 5 .cmac (cst 5 512 17985450304 0 false))
def w45 := ((xWord 5 (fi 5 .cmac (cst 5 512 17985450304 0 false)) (issuing 5 (cst 5 512 17985450304 0 false))).getD 0)
def w46 := ((yWord 5 (fi 5 .cmac (cst 5 512 17985450304 0 false)) (issuing 5 (cst 5 512 17985450304 0 false))).getD 0)
theorem witness_MacResults_1 : ((TOp.cmac, Instr.cmac 5) ∈ [(TOp.cmac, Instr.cmac 5), (TOp.cmacj, Instr.cmacj 5), (TOp.dmac, Instr.dmac 5), (TOp.pmov, Instr.pmov 5)]) ∧
    (Next 5 TOp.cmac w44 (cst 5 512 17985450304 0 false)) ∧
    (TOp.cmac ≠ TOp.pmov → xWord 5 w44 (issuing 5 (cst 5 512 17985450304 0 false)) = some w45 ∧ yWord 5 w44 (issuing 5 (cst 5 512 17985450304 0 false)) = some w46) ∧
    (mvKind w44.mv1 ≠ 0 → pointed 2 (issuing 5 (cst 5 512 17985450304 0 false)) ≠ none) ∧
    (mvKind w44.mv2 ≠ 0 → pointed 3 (issuing 5 (cst 5 512 17985450304 0 false)) ≠ none) := by decide +kernel
def w60 := (fi 5 .ld (cst 5 512 8636219392 0 false))
def w61 := ((spaceWord (fi 5 .ld (cst 5 512 8636219392 0 false)).sp (address (fi 5 .ld (cst 5 512 8636219392 0 false)) (issuing 5 (cst 5 512 8636219392 0 false))) (issuing 5 (cst 5 512 8636219392 0 false))).getD 0)
theorem witness_LoadResults_1 : (Next 5 TOp.ld w60 (cst 5 512 8636219392 0 false)) ∧
    (spaceWord w60.sp (address w60 (issuing 5 (cst 5 512 8636219392 0 false))) (issuing 5 (cst 5 512 8636219392 0 false)) = some w61) := by decide +kernel
def w63 := (fi 5 .ldh (cst 5 512 8883556352 65535 false))
def w64 := ((spaceWord (fi 5 .ldh (cst 5 512 8883556352 65535 false)).sp (address (fi 5 .ldh (cst 5 512 8883556352 65535 false)) (issuing 5 (cst 5 512 8883556352 65535 false))) (issuing 5 (cst 5 512 8883556352 65535 false))).getD 0)
theorem witness_LoadResults_2 : (Next 5 TOp.ldh w63 (cst 5 512 8883556352 65535 false)) ∧
    (spaceWord w63.sp (address w63 (issuing 5 (cst 5 512 8883556352 65535 false))) (issuing 5 (cst 5 512 8883556352 65535 false)) = some w64) := by decide +kernel
def w66 := (fi 5 .ldd (cst 5 512 9131540480 0 false))
def w67 := ((spaceWord (fi 5 .ldd (cst 5 512 9131540480 0 false)).sp (address (fi 5 .ldd (cst 5 512 9131540480 0 false)) (issuing 5 (cst 5 512 9131540480 0 false)) &&& 0xFFFE) (issuing 5 (cst 5 512 9131540480 0 false))).getD 0)
def w68 := ((spaceWord (fi 5 .ldd (cst 5 512 9131540480 0 false)).sp ((address (fi 5 .ldd (cst 5 512 9131540480 0 false)) (issuing 5 (cst 5 512 9131540480 0 false)) &&& 0xFFFE)+1) (issuing 5 (cst 5 512 9131540480 0 false))).getD 0)
theorem witness_LoadResults_3 : (Next 5 TOp.ldd w66 (cst 5 512 9131540480 0 false)) ∧
    (spaceWord w66.sp (address w66 (issuing 5 (cst 5 512 9131540480 0 false)) &&& (65534 : BitVec 16)) (issuing 5 (cst 5 512 9131540480 0 false)) = some w67) ∧
    (spaceWord w66.sp ((address w66 (issuing 5 (cst 5 512 9131540480 0 false)) &&& (65534 : BitVec 16)) + (1 : BitVec 16)) (issuing 5 (cst 5 512 9131540480 0 false)) = some w68) := by decide +kernel
def w69 := (fi 5 .st (cst 5 512 8732688384 0 false))
def w70 := ((dmAddr (address (fi 5 .st (cst 5 512 8732688384 0 false)) (issuing 5 (cst 5 512 8732688384 0 false))) (issuing 5 (cst 5 512 8732688384 0 false))).getD 0)
theorem witness_StoreResults_1 : (Next 5 TOp.st w69 (cst 5 512 8732688384 0 false)) ∧
    (w69.sp = 0) ∧
    (dmAddr (address w69 (issuing 5 (cst 5 512 8732688384 0 false))) (issuing 5 (cst 5 512 8732688384 0 false)) = some w70) := by decide +kernel
def w71 := (fi 5 .sth (cst 5 512 9009385600 0 false))
def w72 := ((dmAddr (address (fi 5 .sth (cst 5 512 9009385600 0 false)) (issuing 5 (cst 5 512 9009385600 0 false))) (issuing 5 (cst 5 512 9009385600 0 false))).getD 0)
theorem witness_StoreResults_2 : (Next 5 TOp.sth w71 (cst 5 512 9009385600 0 false)) ∧
    (w71.sp = 0) ∧
    (dmAddr (address w71 (issuing 5 (cst 5 512 9009385600 0 false))) (issuing 5 (cst 5 512 9009385600 0 false)) = some w72) := by decide +kernel
def w73 := (fi 5 .std (cst 5 512 9286205440 65535 false))
def w74 := ((dmAddr (address (fi 5 .std (cst 5 512 9286205440 65535 false)) (issuing 5 (cst 5 512 9286205440 65535 false)) &&& 0xFFFE) (issuing 5 (cst 5 512 9286205440 65535 false))).getD 0)
theorem witness_StoreResults_3 : (Next 5 TOp.std w73 (cst 5 512 9286205440 65535 false)) ∧
    (w73.sp = 0) ∧
    (dmAddr (address w73 (issuing 5 (cst 5 512 9286205440 65535 false)) &&& (65534 : BitVec 16)) (issuing 5 (cst 5 512 9286205440 65535 false)) = some w74) ∧
    (dmAddr ((address w73 (issuing 5 (cst 5 512 9286205440 65535 false)) &&& (65534 : BitVec 16)) + (1 : BitVec 16)) (issuing 5 (cst 5 512 9286205440 65535 false)) ≠ none) := by decide +kernel
def w75 := (fi 5 .sta (cst 5 512 9416744448 65535 false))
def w76 := ((dmAddr (address (fi 5 .sta (cst 5 512 9416744448 65535 false)) (issuing 5 (cst 5 512 9416744448 65535 false))) (issuing 5 (cst 5 512 9416744448 65535 false))).getD 0)
theorem witness_StoreResults_4 : (Next 5 TOp.sta w75 (cst 5 512 9416744448 65535 false)) ∧
    (dmAddr (address w75 (issuing 5 (cst 5 512 9416744448 65535 false))) (issuing 5 (cst 5 512 9416744448 65535 false)) = some w76) := by decide +kernel
def w77 := (fi 67 .st (cst 67 512 8757723136 0 false))
theorem witness_SupervisorStores_1 : (Next 67 TOp.st w77 (cst 67 512 8757723136 0 false)) ∧
    (w77.sp = 1) := by decide +kernel
def w78 := (fi 67 .sth (cst 67 512 9051328512 65535 false))
theorem witness_SupervisorStores_2 : (Next 67 TOp.sth w78 (cst 67 512 9051328512 65535 false)) ∧
    (w78.sp = 1) := by decide +kernel
def w79 := (fi 67 .std (cst 67 512 9319759872 65535 false))
theorem witness_SupervisorStores_3 : (Next 67 TOp.std w79 (cst 67 512 9319759872 65535 false)) ∧
    (w79.sp = 1) := by decide +kernel
def w80 := (fi 67 .st (cst 67 512 8816443392 16383 false))
theorem witness_SupervisorStores_4 : (Next 67 TOp.st w80 (cst 67 512 8816443392 16383 false)) ∧
    (w80.sp = 2) ∧
    (loopReg 49 (issuing 67 (cst 67 512 8816443392 16383 false)) = 0) := by decide +kernel
def w81 := (fi 5 .br (cst 5 512 25794985983 0 false))
theorem witness_BranchResults_1 : (Next 5 TOp.br w81 (cst 5 512 25794985983 0 false)) := by decide +kernel
def w82 := (fi 5 .bri (cst 5 512 25805193216 0 false))
theorem witness_BranchResults_2 : (Next 5 TOp.bri w82 (cst 5 512 25805193216 0 false)) := by decide +kernel
def w83 := (fi 5 .call (cst 5 512 25845301249 0 false))
theorem witness_BranchResults_3 : (Next 5 TOp.call w83 (cst 5 512 25845301249 0 false)) := by decide +kernel
def w84 := (fi 5 .calli (cst 5 512 25876234240 0 false))
theorem witness_BranchResults_4 : (Next 5 TOp.calli w84 (cst 5 512 25876234240 0 false)) := by decide +kernel
def w85 := (fi 5 .reti (cst 5 512 25904021504 0 false))
theorem witness_BranchResults_5 : (Next 5 TOp.reti w85 (cst 5 512 25904021504 0 false)) := by decide +kernel
def w86 := (fi 5 .callu (cst 5 512 25937575936 0 false))
theorem witness_BranchResults_6 : (Next 5 TOp.callu w86 (cst 5 512 25937575936 0 false)) ∧
    (headJob 5 (cst 5 512 25937575936 0 false).dev = none) := by decide +kernel
def w87 := (fi 5 .retu (cst 5 14336 25971130368 0 true))
theorem witness_BranchResults_7 : (Next 5 TOp.retu w87 (cst 5 14336 25971130368 0 true)) := by decide +kernel
def w88 := (fi 5 .loop (cst 5 512 26038239750 0 false))
theorem witness_LoopResults_1 : (loopReg 49 (issuing 5 (cst 5 512 26038239750 0 false)) = 0) ∧
    (Next 5 TOp.loop w88 (cst 5 512 26038239750 0 false)) := by decide +kernel
def w90 := (fi 5 .loopr (cst 5 512 26071826950 0 false))
theorem witness_LoopResults_2 : (loopReg 49 (issuing 5 (cst 5 512 26071826950 0 false)) = 0) ∧
    (Next 5 TOp.loopr w90 (cst 5 512 26071826950 0 false)) := by decide +kernel
def w91 := (fi 5 .rpt (cst 5 512 26105352191 0 false))
theorem witness_LoopResults_3 : (loopReg 49 (issuing 5 (cst 5 512 26105352191 0 false)) = 0) ∧
    (Next 5 TOp.rpt w91 (cst 5 512 26105352191 0 false)) ∧
    (w91.cnt ≤ 4096 ∧ (userMode (issuing 5 (cst 5 512 26105352191 0 false)) = true → w91.cnt ≤ 1024)) ∧
    (1 ≤ w91.cnt) := by decide +kernel
def w92 := (fi 5 .rptr (cst 5 512 26138968064 0 false))
theorem witness_LoopResults_4 : (loopReg 49 (issuing 5 (cst 5 512 26138968064 0 false)) = 0) ∧
    (Next 5 TOp.rptr w92 (cst 5 512 26138968064 0 false)) ∧
    ((BitVec.extractLsb' 0 13 (readReg 5 w92.dn (issuing 5 (cst 5 512 26138968064 0 false)))).toNat ≤ 4096 ∧ (userMode (issuing 5 (cst 5 512 26138968064 0 false)) = true → (BitVec.extractLsb' 0 13 (readReg 5 w92.dn (issuing 5 (cst 5 512 26138968064 0 false)))).toNat ≤ 1024)) ∧
    ((BitVec.extractLsb' 0 13 (readReg 5 w92.dn (issuing 5 (cst 5 512 26138968064 0 false)))).toNat = 0 → ∃ j, decodeTarn (pmFetch ((issuing 5 (cst 5 512 26138968064 0 false)).pc.toNat + 1) (issuing 5 (cst 5 512 26138968064 0 false))) (pmFetch ((issuing 5 (cst 5 512 26138968064 0 false)).pc.toNat + 2) (issuing 5 (cst 5 512 26138968064 0 false))) = some j ∧ repeatable j = true) := by decide +kernel
def slotSt (k : Nat) (u : Bool) : State := tSt { tDev with tarns := [(5, { core (if u then 0x3810 else 0x210) 0 0 u with slots := some ⟨k, 0x155, 1⟩, dm := [(0x20, 5), (0xC000, 7), (0xFFFF, 9)] })] }
theorem witness_AfterDelaySlots_1 : (loopReg 49 (issuing 5 (slotSt 0 false)) = 0) ∧
    (LastSlot 5 0 (341 : BitVec 14) (fi 5 TOp.nop (slotSt 0 false)) (slotSt 0 false)) := by decide +kernel
theorem witness_AfterDelaySlots_2 : (loopReg 49 (issuing 5 (slotSt 1 false)) = 0) ∧
    (LastSlot 5 1 (341 : BitVec 14) (fi 5 TOp.nop (slotSt 1 false)) (slotSt 1 false)) ∧
    (userMode (tarn 5 (slotSt 1 false).dev) = false) := by decide +kernel
theorem witness_AfterDelaySlots_3 : (loopReg 49 (issuing 5 (slotSt 2 false)) = 0) ∧
    (LastSlot 5 2 (341 : BitVec 14) (fi 5 TOp.nop (slotSt 2 false)) (slotSt 2 false)) ∧
    (userMode (tarn 5 (slotSt 2 false).dev) = false) := by decide +kernel
theorem witness_AfterDelaySlots_4 : (loopReg 49 (issuing 5 (slotSt 3 true)) = 0) ∧
    (LastSlot 5 3 (341 : BitVec 14) (fi 5 TOp.nop (slotSt 3 true)) (slotSt 3 true)) ∧
    (userMode (tarn 5 (slotSt 3 true).dev) = true) ∧
    (headJob 5 (slotSt 3 true).dev = none) := by decide +kernel
def reps (f : Tarn → Tarn) (u : Bool) : State := tSt { tDev with tarns := [(5, f (core (if u then 0x3810 else 0x210) 0 0 u))] }
def lp (lc : W64) (t : Tarn) : Tarn := { t with r := tabSet tarnRegReset (tabSet tarnRegReset (tabSet tarnRegReset t.r 0x31 lc) 0x33 0x210) 0x32 0x205 }
def w95 := (fi 5 .nop (reps (fun t => { t with rpt := some 2 }) true))
def w96 := (reps (fun t => { t with rpt := some 2 }) true)
theorem witness_RepeatsAndLoopEnds_1 : (fetchTarn 5 TOp.nop w96.dev = Fetched.ok w95) ∧
    ((tarn 5 w96.dev).slots = none) ∧
    (if userMode (tarn 5 w96.dev) = true then 30 < BitVec.toNat (tr 63 (tarn 5 w96.dev)) else headJob 5 w96.dev = none) ∧
    ((tarn 5 w96.dev).rpt = some (0 + 2)) := by decide +kernel
def w97 := (fi 5 .nop (reps (fun t => { t with rpt := some 1 }) false))
def w98 := (reps (fun t => { t with rpt := some 1 }) false)
theorem witness_RepeatsAndLoopEnds_2 : (fetchTarn 5 TOp.nop w98.dev = Fetched.ok w97) ∧
    ((tarn 5 w98.dev).slots = none) ∧
    (if userMode (tarn 5 w98.dev) = true then 30 < BitVec.toNat (tr 63 (tarn 5 w98.dev)) else headJob 5 w98.dev = none) ∧
    (loopReg 49 (issuing 5 w98) = 0) ∧
    ((tarn 5 w98.dev).rpt = some 1) := by decide +kernel
theorem witness_RepeatsAndLoopEnds_3 : (fetchTarn 5 TOp.nop (reps (lp (1 : W64)) false).dev = Fetched.ok (fi 5 TOp.nop (reps (lp (1 : W64)) false))) ∧
    ((tarn 5 (reps (lp (1 : W64)) false).dev).slots = none) ∧
    (if userMode (tarn 5 (reps (lp (1 : W64)) false).dev) = true then 30 < BitVec.toNat (tr 63 (tarn 5 (reps (lp (1 : W64)) false).dev)) else headJob 5 (reps (lp (1 : W64)) false).dev = none) ∧
    ((tarn 5 (reps (lp (1 : W64)) false).dev).rpt = none) ∧
    (loopReg 51 (issuing 5 (reps (lp (1 : W64)) false)) = (issuing 5 (reps (lp (1 : W64)) false)).pc.toNat) ∧
    (1 ≤ loopReg 49 (issuing 5 (reps (lp (1 : W64)) false))) := by decide +kernel
def w99 := (reps (fun t => { t with job := true }) false)
theorem witness_InterruptEntry_1 : (executes 5 w99.dev = true) ∧
    (bit (tr 48 (tarn 5 w99.dev)) 14 = true) ∧
    ((tarn 5 w99.dev).rpt = none) ∧
    ((tarn 5 w99.dev).slots = none) ∧
    (true = true ∨ (tarn 5 w99.dev).dbg = true ∨ (tarn 5 w99.dev).mail ≠ [] ∨ (tarn 5 w99.dev).job = true ∨ (tarn 5 w99.dev).sout = true) := by decide +kernel
def far (w : Nat) (lo hi val : W64) : State := tSt { setr [(rDRAM_CFG, 8)] tDev with dram := [(0x1008, 0x81), (0x1009, 0x42), (0x100F, 0x9C)], basin := [(3, 0xABCDEF123)], tarns := [(66, { core 0x200 w 0 false with r := tabSet tarnRegReset (tabSet tarnRegReset (tabSet tarnRegReset (core 0 0 0 false).r 2 lo) 3 hi) 4 val, mpu := [(1, { en := true, r := true, w := true, lock := false, base := 0, limit := 2 ^ 33 })] })] }
theorem witness_FarAccess_1 : ((farOf 66 (fi 66 TOp.fld (far 403972096 (4104 : W64) (0 : W64) (0 : W64))).rs (issuing 66 (far 403972096 (4104 : W64) (0 : W64) (0 : W64))) % if (fi 66 TOp.fld (far 403972096 (4104 : W64) (0 : W64) (0 : W64))).p = true then 8 else 4) = 0) ∧
    (Next 66 TOp.fld (fi 66 TOp.fld (far 403972096 (4104 : W64) (0 : W64) (0 : W64))) (far 403972096 (4104 : W64) (0 : W64) (0 : W64))) ∧
    (Permitted false (farOf 66 (fi 66 TOp.fld (far 403972096 (4104 : W64) (0 : W64) (0 : W64))).rs (issuing 66 (far 403972096 (4104 : W64) (0 : W64) (0 : W64)))) (if (fi 66 TOp.fld (far 403972096 (4104 : W64) (0 : W64) (0 : W64))).p = true then 8 else 4) (tarn 66 (far 403972096 (4104 : W64) (0 : W64) (0 : W64)).dev)) ∧
    ((farOf 66 (fi 66 TOp.fld (far 403972096 (4104 : W64) (0 : W64) (0 : W64))).rs (issuing 66 (far 403972096 (4104 : W64) (0 : W64) (0 : W64))) + if (fi 66 TOp.fld (far 403972096 (4104 : W64) (0 : W64) (0 : W64))).p = true then 8 else 4) ≤ dramBytes (far 403972096 (4104 : W64) (0 : W64) (0 : W64)).dev) := by decide +kernel
def w104 := (fi 66 .fld (far 403972104 0x18 0x100 0))
theorem witness_FarAccess_2 : ((farOf 66 w104.rs (issuing 66 (far 403972104 (24 : W64) (256 : W64) (0 : W64))) % if w104.p = true then 8 else 4) = 0) ∧
    (Next 66 TOp.fld w104 (far 403972104 (24 : W64) (256 : W64) (0 : W64))) ∧
    (w104.p = true) ∧
    (Permitted false (farOf 66 w104.rs (issuing 66 (far 403972104 (24 : W64) (256 : W64) (0 : W64)))) (if w104.p = true then 8 else 4) (tarn 66 (far 403972104 (24 : W64) (256 : W64) (0 : W64)).dev)) ∧
    (17592186044416 ≤ farOf 66 w104.rs (issuing 66 (far 403972104 (24 : W64) (256 : W64) (0 : W64)))) ∧
    (farOf 66 w104.rs (issuing 66 (far 403972104 (24 : W64) (256 : W64) (0 : W64))) < 17592588697600) ∧
    ((farOf 66 w104.rs (issuing 66 (far 403972104 (24 : W64) (256 : W64) (0 : W64))) - 17592186044416) / 8 ∉ (far 403972104 (24 : W64) (256 : W64) (0 : W64)).dev.poison) := by decide +kernel
def w105 := (fi 66 .fst (far 419438856 0x1FFFFFFF8 0 0xFEDCBA987))
def w106 := (far 419438856 0x1FFFFFFF8 0 0xFEDCBA987)
theorem witness_FarAccess_3 : ((farOf 66 w105.rs (issuing 66 w106) % if w105.p = true then 8 else 4) = 0) ∧
    (Next 66 TOp.fst w105 w106) ∧
    (Permitted true (farOf 66 w105.rs (issuing 66 w106)) (if w105.p = true then 8 else 4) (tarn 66 w106.dev)) ∧
    ((farOf 66 w105.rs (issuing 66 w106) + if w105.p = true then 8 else 4) ≤ dramBytes w106.dev) := by decide +kernel
def w108 := (fi 66 .fst (far 419438856 0x17FFFFF8 0x100 0xFEDCBA987))
def w109 := (far 419438856 0x17FFFFF8 0x100 0xFEDCBA987)
theorem witness_FarAccess_4 : ((farOf 66 w108.rs (issuing 66 w109) % if w108.p = true then 8 else 4) = 0) ∧
    (Next 66 TOp.fst w108 w109) ∧
    (w108.p = true) ∧
    (Permitted true (farOf 66 w108.rs (issuing 66 w109)) (if w108.p = true then 8 else 4) (tarn 66 w109.dev)) ∧
    (17592186044416 ≤ farOf 66 w108.rs (issuing 66 w109)) ∧
    (farOf 66 w108.rs (issuing 66 w109) < 17592588697600) := by decide +kernel
def w110 := (fi 63 .mbox (cst 63 0x200 26239598592 0 false))
theorem witness_SystemInstructions_1 : (Next 63 TOp.mbox w110 (cst 63 512 26239598592 0 false)) ∧
    (63 < 64) := by decide +kernel
def w111 := (fi 64 .mbox (cst 64 0x200 26239598659 0 false))
theorem witness_SystemInstructions_2 : (Next 64 TOp.mbox w111 (cst 64 512 26239598659 0 false)) ∧
    (64 ≤ 64) := by decide +kernel
def w112 := (fi 64 .wait (cst 64 0x200 26206011392 0 false))
theorem witness_SystemInstructions_3 : (Next 64 TOp.wait w112 (cst 64 512 26206011392 0 false)) := by decide +kernel
def w113 := (fi 5 .done (cst 5 0x200 26172456960 0 false))
theorem witness_SystemInstructions_4 : (Next 5 TOp.done w113 (cst 5 512 26172456960 0 false)) ∧
    (headJob 5 (cst 5 512 26172456960 0 false).dev = none) := by decide +kernel
def dmaSt : State := tSt { tDev with tarns := [(64, { core 0x200 26306674688 0 false with dm := [(0x20, 0x1000), (0x22, 0x2000), (0x23, 0x10000)], mpu := [(1, { en := true, r := true, w := true, lock := false, base := 0, limit := 2 ^ 33 })] })] }
theorem witness_SystemInstructions_5 : (Next 64 TOp.dma (fi 64 TOp.dma dmaSt) dmaSt) ∧
    (fld (loadWord (tarn 64 dmaSt.dev) (((agReg (16 + (fi 64 TOp.dma dmaSt).an) (issuing 64 dmaSt)).toNat + 3) % 65536)) 35 12 % 8 = 0) ∧
    (0 < fld (loadWord (tarn 64 dmaSt.dev) (((agReg (16 + (fi 64 TOp.dma dmaSt).an) (issuing 64 dmaSt)).toNat + 3) % 65536)) 35 12) ∧
    (fld (loadWord (tarn 64 dmaSt.dev) (((agReg (16 + (fi 64 TOp.dma dmaSt).an) (issuing 64 dmaSt)).toNat + 3) % 65536)) 35 12 ≤ 2 ^ 24) ∧
    ((fld (loadWord (tarn 64 dmaSt.dev) (((agReg (16 + (fi 64 TOp.dma dmaSt).an) (issuing 64 dmaSt)).toNat + 1) % 65536)) 11 0 * 2 ^ 36 + BitVec.toNat (loadWord (tarn 64 dmaSt.dev) (((agReg (16 + (fi 64 TOp.dma dmaSt).an) (issuing 64 dmaSt)).toNat + 0) % 65536))) % 8 = 0) ∧
    ((fld (loadWord (tarn 64 dmaSt.dev) (((agReg (16 + (fi 64 TOp.dma dmaSt).an) (issuing 64 dmaSt)).toNat + 3) % 65536)) 11 0 * 2 ^ 36 + BitVec.toNat (loadWord (tarn 64 dmaSt.dev) (((agReg (16 + (fi 64 TOp.dma dmaSt).an) (issuing 64 dmaSt)).toNat + 2) % 65536))) % 8 = 0) ∧
    (fld (loadWord (tarn 64 dmaSt.dev) (((agReg (16 + (fi 64 TOp.dma dmaSt).an) (issuing 64 dmaSt)).toNat + 1) % 65536)) 11 0 * 2 ^ 36 + BitVec.toNat (loadWord (tarn 64 dmaSt.dev) (((agReg (16 + (fi 64 TOp.dma dmaSt).an) (issuing 64 dmaSt)).toNat + 0) % 65536)) + fld (loadWord (tarn 64 dmaSt.dev) (((agReg (16 + (fi 64 TOp.dma dmaSt).an) (issuing 64 dmaSt)).toNat + 3) % 65536)) 35 12 ≤ dramBytes dmaSt.dev) ∧
    (fld (loadWord (tarn 64 dmaSt.dev) (((agReg (16 + (fi 64 TOp.dma dmaSt).an) (issuing 64 dmaSt)).toNat + 3) % 65536)) 11 0 * 2 ^ 36 + BitVec.toNat (loadWord (tarn 64 dmaSt.dev) (((agReg (16 + (fi 64 TOp.dma dmaSt).an) (issuing 64 dmaSt)).toNat + 2) % 65536)) + fld (loadWord (tarn 64 dmaSt.dev) (((agReg (16 + (fi 64 TOp.dma dmaSt).an) (issuing 64 dmaSt)).toNat + 3) % 65536)) 35 12 ≤ dramBytes dmaSt.dev) ∧
    (Permitted false (fld (loadWord (tarn 64 dmaSt.dev) (((agReg (16 + (fi 64 TOp.dma dmaSt).an) (issuing 64 dmaSt)).toNat + 1) % 65536)) 11 0 * 2 ^ 36 + BitVec.toNat (loadWord (tarn 64 dmaSt.dev) (((agReg (16 + (fi 64 TOp.dma dmaSt).an) (issuing 64 dmaSt)).toNat + 0) % 65536))) (fld (loadWord (tarn 64 dmaSt.dev) (((agReg (16 + (fi 64 TOp.dma dmaSt).an) (issuing 64 dmaSt)).toNat + 3) % 65536)) 35 12) (tarn 64 dmaSt.dev)) ∧
    (Permitted true (fld (loadWord (tarn 64 dmaSt.dev) (((agReg (16 + (fi 64 TOp.dma dmaSt).an) (issuing 64 dmaSt)).toNat + 3) % 65536)) 11 0 * 2 ^ 36 + BitVec.toNat (loadWord (tarn 64 dmaSt.dev) (((agReg (16 + (fi 64 TOp.dma dmaSt).an) (issuing 64 dmaSt)).toNat + 2) % 65536))) (fld (loadWord (tarn 64 dmaSt.dev) (((agReg (16 + (fi 64 TOp.dma dmaSt).an) (issuing 64 dmaSt)).toNat + 3) % 65536)) 35 12) (tarn 64 dmaSt.dev)) := by decide +kernel
def jobS : Job := ⟨false, hnd 1 1 3, 5000000, 5000000, 1580, false, false, false, false, 0, .done, false, 0, false, 0, .none, .none, [], [], false, { actSlot 1 with granules := [5] }, 5000000, 0, none, none⟩
def strmSt (out : Bool) : State := tSt { slotDev 3 { actSlot 1 with granules := [5] } tPart with
  weir := { tPart.weir with lists := [(5, [jobS])] }, basin := [(5121, 0x77), (5122, 0x78)]
  tarns := [(5, { core 0x200 26273218560 0 false with r := tabSet tarnRegReset (tabSet tarnRegReset (tabSet tarnRegReset (core 0 0 0 false).r 6 (if out then 0x800001401 else 0x1401)) 7 0x1FFFF) 0x34 20000 })] }
theorem witness_StreamerTransfer_1 : (Next 5 TOp.strm (fi 5 TOp.strm (strmSt false)) (strmSt false)) ∧
    (headJob 5 (strmSt false).dev = some jobS) ∧
    (fld (readReg 5 (fi 5 TOp.strm (strmSt false)).dn (issuing 5 (strmSt false))) 25 0 + (fld (readReg 5 ((fi 5 TOp.strm (strmSt false)).dn + 1) (issuing 5 (strmSt false))) 29 16 + 1) ≤ 50331648) ∧
    ((tarn 5 (strmSt false).dev).sb = []) ∧
    (110 + 80 * ((fld (readReg 5 ((fi 5 TOp.strm (strmSt false)).dn + 1) (issuing 5 (strmSt false))) 29 16 + 1 + 1023) / 1024) < BitVec.toNat (tr 52 (tarn 5 (strmSt false).dev))) ∧
    (∀ k < fld (readReg 5 ((fi 5 TOp.strm (strmSt false)).dn + 1) (issuing 5 (strmSt false))) 29 16 + 1, wordOwner (fld (readReg 5 (fi 5 TOp.strm (strmSt false)).dn (issuing 5 (strmSt false))) 25 0 + k) (strmSt false).dev = some (jobPart jobS (strmSt false).dev)) ∧
    (bit (readReg 5 (fi 5 TOp.strm (strmSt false)).dn (issuing 5 (strmSt false))) 35 = false) ∧
    (∀ k < fld (readReg 5 ((fi 5 TOp.strm (strmSt false)).dn + 1) (issuing 5 (strmSt false))) 29 16 + 1, fld (readReg 5 (fi 5 TOp.strm (strmSt false)).dn (issuing 5 (strmSt false))) 25 0 + k ∉ (strmSt false).dev.poison) := by decide +kernel
theorem witness_StreamerTransfer_2 : (Next 5 TOp.strm (fi 5 TOp.strm (strmSt true)) (strmSt true)) ∧
    (headJob 5 (strmSt true).dev = some jobS) ∧
    (fld (readReg 5 (fi 5 TOp.strm (strmSt true)).dn (issuing 5 (strmSt true))) 25 0 + (fld (readReg 5 ((fi 5 TOp.strm (strmSt true)).dn + 1) (issuing 5 (strmSt true))) 29 16 + 1) ≤ 50331648) ∧
    ((tarn 5 (strmSt true).dev).sb = []) ∧
    (110 + 80 * ((fld (readReg 5 ((fi 5 TOp.strm (strmSt true)).dn + 1) (issuing 5 (strmSt true))) 29 16 + 1 + 1023) / 1024) < BitVec.toNat (tr 52 (tarn 5 (strmSt true).dev))) ∧
    (∀ k < fld (readReg 5 ((fi 5 TOp.strm (strmSt true)).dn + 1) (issuing 5 (strmSt true))) 29 16 + 1, wordOwner (fld (readReg 5 (fi 5 TOp.strm (strmSt true)).dn (issuing 5 (strmSt true))) 25 0 + k) (strmSt true).dev = some (jobPart jobS (strmSt true).dev)) ∧
    (bit (readReg 5 (fi 5 TOp.strm (strmSt true)).dn (issuing 5 (strmSt true))) 35 = true) := by decide +kernel
def tenL : List W32 := (zd.set 0 0x8000).set 37 0x10007
def tenS : State := tSt { slotDev 3 { actSlot 1 with desc := tenL, tgranules := [4] } tPart with
  progs := [(1 * 65536 + 7, ⟨true, [0x1234, 0x77], 2, [5], 1, false⟩)], weir := { tPart.weir with lists := [(5, [{ jobS with snap := { actSlot 1 with desc := tenL } }])] }, basin := [(0xA804 * 1024, 0x99)]
  tarns := [(5, { core 0x200 25937575936 0 false with r := tabSet tarnRegReset (core 0 0 0 false).r 0x34 20000 })] }
def w114 := { jobS with snap := { actSlot 1 with desc := tenL } }
theorem witness_BranchResults_8 : (Next 5 TOp.callu (fi 5 TOp.callu tenS) tenS) ∧
    (headJob 5 tenS.dev = some w114) ∧
    (tenantRuns w114 = true) ∧
    (w114.bus = false) ∧
    (1055 + 80 * (((jobImage w114 tenS.dev).length + 1023) / 1024 + (slot (hSlot w114.handle) tenS.dev).tgranules.length) < BitVec.toNat (tr 52 (tarn 5 tenS.dev))) := by decide +kernel
def cpy : State := tSt { tDev with dram := [(0x1000, 1), (0x1007, 9)], tarns := [(64, { core 0x200 0 0 false with dmaq := [⟨0xFFFE, 0x1000, 0x1008, 8⟩], dm := [(1, 0x8005)] })] }
theorem witness_CopyCompletesAndBudgetEnds_1 : ((tarn 64 cpy.dev).dmaq = [{ blk := 65534, src := 4096, dst := 4104, len := 8 : DmaBlock }]) ∧
    ({ blk := 65534, src := 4096, dst := 4104, len := 8 : DmaBlock }.len % 8 = 0) ∧
    ({ blk := 65534, src := 4096, dst := 4104, len := 8 : DmaBlock }.src + { blk := 65534, src := 4096, dst := 4104, len := 8 : DmaBlock }.len ≤ dramBytes cpy.dev) ∧
    ({ blk := 65534, src := 4096, dst := 4104, len := 8 : DmaBlock }.dst + { blk := 65534, src := 4096, dst := 4104, len := 8 : DmaBlock }.len ≤ dramBytes cpy.dev) ∧
    ({ blk := 65534, src := 4096, dst := 4104, len := 8 : DmaBlock }.src + { blk := 65534, src := 4096, dst := 4104, len := 8 : DmaBlock }.len ≤ { blk := 65534, src := 4096, dst := 4104, len := 8 : DmaBlock }.dst ∨ { blk := 65534, src := 4096, dst := 4104, len := 8 : DmaBlock }.dst + { blk := 65534, src := 4096, dst := 4104, len := 8 : DmaBlock }.len ≤ { blk := 65534, src := 4096, dst := 4104, len := 8 : DmaBlock }.src) := by decide +kernel
theorem witness_CopyCompletesAndBudgetEnds_2 : (executes 5 (cst 5 14352 0 0 true).dev = true) ∧
    (userMode (tarn 5 (cst 5 14352 0 0 true).dev) = true) ∧
    (headJob 5 (cst 5 14352 0 0 true).dev = none) := by decide +kernel
theorem witness_IllegalInstruction_1 : (fetchTarn 5 TOp.add (cst 5 14352 1 0 true).dev = Fetched.illegal) ∧
    (userMode (tarn 5 (cst 5 14352 1 0 true).dev) = true) ∧
    (headJob 5 (cst 5 14352 1 0 true).dev = none) := by decide +kernel
theorem witness_IllegalInstruction_2 : (fetchTarn 64 TOp.add (cst 64 512 1 0 false).dev = Fetched.illegal) ∧
    (userMode (tarn 64 (cst 64 512 1 0 false).dev) = false) ∧
    (64 ≤ 64) ∧
    ((cst 64 512 1 0 false).dev.weir.lateFrom = none) := by decide +kernel
def w115 := (resOf (execNop 5 (cst 5 0x3810 0 0 true)))
theorem witness_UserModeConfines_1 : (Instr.nop 5 ∈ [Instr.nop 5, Instr.add 5, Instr.sub 5, Instr.cmp 5, Instr.andI 5, Instr.orI 5, Instr.xor 5, Instr.notI 5, Instr.neg 5, Instr.abs 5, Instr.min 5, Instr.max 5, Instr.ash 5, Instr.lsh 5, Instr.div 5, Instr.mov 5, Instr.mva 5, Instr.acrd 5, Instr.acwr 5, Instr.acset 5, Instr.acclr 5, Instr.acsh 5, Instr.acrnd 5, Instr.mpyl 5, Instr.fld 5, Instr.fst 5, Instr.ldi 5, Instr.ldih 5, Instr.addi 5, Instr.subi 5, Instr.cmpi 5, Instr.andi 5, Instr.ori 5, Instr.xori 5, Instr.ashi 5, Instr.lshi 5, Instr.ld 5, Instr.st 5, Instr.ldh 5, Instr.sth 5, Instr.ldd 5, Instr.std 5, Instr.sta 5, Instr.cmac 5, Instr.cmacj 5, Instr.dmac 5, Instr.pmov 5, Instr.br 5, Instr.bri 5, Instr.call 5, Instr.calli 5, Instr.reti 5, Instr.callu 5, Instr.retu 5, Instr.loop 5, Instr.loopr 5, Instr.rpt 5, Instr.rptr 5, Instr.done 5, Instr.wait 5, Instr.mbox 5, Instr.strm 5, Instr.dma 5]) ∧
    ((userMode (tarn 5 (cst 5 14352 0 0 true).dev) = true → ∀ (p : Slots), (tarn 5 (cst 5 14352 0 0 true).dev).slots = some p → p.kind ≠ 1 ∧ p.kind ≠ 2) ∧ (BitVec.toNat (tr 58 (tarn 5 (cst 5 14352 0 0 true).dev)) < 65536 ∧ BitVec.toNat (tr 59 (tarn 5 (cst 5 14352 0 0 true).dev)) < 65536 ∧ bit (tr 58 (tarn 5 (cst 5 14352 0 0 true).dev)) 15 = true ∧ bit (tr 58 (tarn 5 (cst 5 14352 0 0 true).dev)) 14 = true ∧ bit (tr 59 (tarn 5 (cst 5 14352 0 0 true).dev)) 15 = true ∧ bit (tr 59 (tarn 5 (cst 5 14352 0 0 true).dev)) 14 = true) ∧ ∀ (k : ℕ), bit (tr 48 (tarn 5 (cst 5 14352 0 0 true).dev)) k = true → k ∈ [0, 1, 2, 3, 4, 7, 8, 14, 15]) ∧
    (userMode (tarn 5 (cst 5 14352 0 0 true).dev) = true) ∧
    (BitVec.toNat (tr 58 (tarn 5 (cst 5 14352 0 0 true).dev)) ≤ BitVec.toNat (tr 59 (tarn 5 (cst 5 14352 0 0 true).dev))) ∧
    (execNop 5 (cst 5 14352 0 0 true) = Host.Outcome.next w115) := ⟨by decide +kernel,
    ⟨fun _ p h => (by rw [show (tarn 5 (cst 5 14352 0 0 true).dev).slots = none by decide +kernel] at h; cases h), by decide +kernel, fun k hk => by
      by_cases h : k < 64
      · have e : ∀ j < 64, bit (tr 48 (tarn 5 (cst 5 14352 0 0 true).dev)) j = true → j ∈ [0, 1, 2, 3, 4, 7, 8, 14, 15] := by decide +kernel
        exact e k h hk
      · rw [bit_beyond _ k (by omega)] at hk; cases hk⟩,
    by decide +kernel,
    by decide +kernel,
    next_resOf _ (by decide +kernel)⟩
def doneJ : JobOut := outL
def doneS : State := tSt { slotDev 3 (actSlot 1) tPart with weir := { tPart.weir with lists := [(5, [{ jobS with st := .done, snap := actSlot 1, out := some doneJ }])], rel := [⟨false, hnd 1 1 3, 5000000, 5000000, none, false⟩] }, tarns := [(5, { core 0x200 26172456960 0 false with sb := [⟨0x20, 3, 0x55, none⟩], r := tabSet tarnRegReset (core 0 0 0 false).r 0x34 20000 })] }
def w116 := { jobS with st := .done, snap := actSlot 1, out := some doneJ }
theorem witness_DoneOfAJob_1 : (Next 5 TOp.done (fi 5 TOp.done doneS) doneS) ∧
    (doneS.dev.weir.lists = [(5, [w116])]) ∧
    (5 < 64) ∧
    (bit doneS.dev.weir.healthy 5 = true) ∧
    (Alone doneS.dev) ∧
    (doneS.dev.weir.tokens = []) ∧
    (doneS.dev.weir.lateFrom = none) ∧
    (w116.st = JobSt.done) ∧
    (w116.out = some doneJ) ∧
    (w116.ten = none) ∧
    (w116.bus = false) ∧
    (w116.replay = false) ∧
    (current w116.handle doneS.dev = true) ∧
    ((slot (hSlot w116.handle) doneS.dev).inits = w116.snap.inits) ∧
    (∀ r ∈ doneJ.recs, r.typ ≠ 37 ∧ r.typ ≠ 36) := by decide +kernel
end C07

/-! ### Witnesses: partitions -/

namespace C09
def ps (n : Nat) (f : Dev → Dev) : State := tSt (f (setr [(kPart 1 oPART_STATE, n)] tDev))
def lk (d : Dev) : Dev := { d with pages := [(0x201, { Hdr.reset with locked := true })] }
theorem witness_PartitionsAndQuotas_1 : (HostUp (ps 1 id).dev) ∧
    ((ps 1 id).dev.twin.role = Role.alone) ∧
    (1 < 1024) ∧
    (partState 1 (ps 1 id).dev = 1) ∧
    ((hdr (512 + 1) (ps 1 id).dev).locked = false) ∧
    (tabWf regReset (ps 1 id).dev.regs = true) ∧
    ((oPART_Q_CHANNELS, 14, 16384) ∈ [(oPART_Q_CHANNELS, 14, 16384), (oPART_Q_FLOWS, 15, 32768), (oPART_Q_CYCLES, 26, 89600000), (oPART_Q_BASIN, 15, 40960), (oPART_Q_DRAM, 16, dramTotal (ps 1 id).dev)]) ∧
    (fld (2 : W32) 14 0 ≤ 16384) ∧
    (∀ x < 1024, x ≠ 1 → fld (rg (kPart x oPART_Q_CHANNELS) (ps 1 id).dev) 14 0 = 0) := by decide +kernel
theorem witness_PartitionsAndQuotas_2 : (HostUp (ps 2 id).dev) ∧
    ((ps 2 id).dev.twin.role = Role.alone) ∧
    (1 < 1024) ∧
    (partState 1 (ps 2 id).dev = 2) := by decide +kernel
def w1 := (ps 0 (setr [(kPart 2 oPART_Q_CHANNELS, 16384), (kPart 1023 oPART_EGR, 0x00290028)]))
theorem witness_PartitionsAndQuotas_3 : (HostUp w1.dev) ∧
    (w1.dev.twin.role = Role.alone) ∧
    (1 < 1024) ∧
    (partState 1 w1.dev = 0) ∧
    (w1.dev.pwr.st = DevSt.service) ∧
    ((hdr (512 + 1) w1.dev).locked = false) ∧
    (tabWf regReset w1.dev.regs = true) ∧
    ((oPART_Q_CHANNELS, 14, 16384) ∈ [(oPART_Q_CHANNELS, 14, 16384), (oPART_Q_FLOWS, 15, 32768), (oPART_Q_CYCLES, 26, 89600000), (oPART_Q_BASIN, 15, 40960), (oPART_Q_DRAM, 16, dramTotal w1.dev)]) ∧
    (16384 < fld (2686977 : W32) 14 0 ∨ 2 < 1024 ∧ 2 ≠ 1 ∧ 16384 < fld (2686977 : W32) 14 0 + fld (rg (kPart 2 oPART_Q_CHANNELS) w1.dev) 14 0) ∧
    (0 < 4) ∧
    (¬(fld (2686977 : W32) 9 0 = 0 ∧ fld (2686977 : W32) 25 16 = 0)) ∧
    (fld (2686977 : W32) 9 0 < 40 ∨ fld (2686977 : W32) 25 16 ≤ fld (2686977 : W32) 9 0 ∨ 990 < fld (2686977 : W32) 25 16) := by decide +kernel
theorem witness_PartitionsAndQuotas_4 : (HostUp w1.dev) ∧
    (w1.dev.twin.role = Role.alone) ∧
    (1 < 1024) ∧
    (0 < 4) ∧
    ((hdr (512 + 1) w1.dev).locked = false) ∧
    (fld (2687016 : W32) 9 0 = 0 ∧ fld (2687016 : W32) 25 16 = 0 ∨ 40 ≤ fld (2687016 : W32) 9 0 ∧ fld (2687016 : W32) 9 0 < fld (2687016 : W32) 25 16 ∧ fld (2687016 : W32) 25 16 ≤ 990) ∧
    (tabWf regReset w1.dev.regs = true) ∧
    (∀ e ∈ w1.dev.slots, e.2.part = 1 → e.2.st ≠ SlotSt.active) ∧
    (∃ x < 1024, x ≠ 1 ∧ fld (2687016 : W32) 9 0 < fld (rg (kPart x (oPART_EGR + 4 * 0)) w1.dev) 25 16 ∧ fld (rg (kPart x (oPART_EGR + 4 * 0)) w1.dev) 9 0 < fld (2687016 : W32) 25 16) := by decide +kernel
theorem witness_PartitionsAndQuotas_5 : (HostUp w1.dev) ∧
    (w1.dev.twin.role = Role.alone) ∧
    (1 < 1024) ∧
    (0 < 4) ∧
    ((hdr (512 + 1) w1.dev).locked = false) ∧
    (fld (2752553 : W32) 9 0 = 0 ∧ fld (2752553 : W32) 25 16 = 0 ∨ 40 ≤ fld (2752553 : W32) 9 0 ∧ fld (2752553 : W32) 9 0 < fld (2752553 : W32) 25 16 ∧ fld (2752553 : W32) 25 16 ≤ 990) ∧
    (tabWf regReset w1.dev.regs = true) ∧
    (∀ e ∈ w1.dev.slots, e.2.part = 1 → e.2.st ≠ SlotSt.active) ∧
    (∀ x < 1024, x ≠ 1 → fld (rg (kPart x (oPART_EGR + 4 * 0)) w1.dev) 25 16 ≤ fld (2752553 : W32) 9 0 ∨ fld (2752553 : W32) 25 16 ≤ fld (rg (kPart x (oPART_EGR + 4 * 0)) w1.dev) 9 0) := by decide +kernel
theorem witness_PartitionsAndQuotas_6 : (HostUp (ps 0 lk).dev) ∧
    ((ps 0 lk).dev.twin.role = Role.alone) ∧
    (1 < 1024) ∧
    ((hdr (512 + 1) (ps 0 lk).dev).locked = true) ∧
    (oPART_Q_BASIN ∈ [oPART_Q_CHANNELS, oPART_Q_FLOWS, oPART_Q_CYCLES, oPART_Q_BASIN, oPART_Q_DRAM]) := by decide +kernel
def g (st i len code : Nat) (f : Dev → Dev) : State := tSt (f (setr [(kPrg 1 oPRG_STATUS, st), (kPrg 1 oPRG_ID, i), (kPrg 1 oPRG_LEN, len + code * 2 ^ 16), (kPrg 1 oPRG_SRC, 0x10000)] { tPart with progs := [] }))
def pl (b r : Bool) (im : List Word) (d : Dev) : Dev := { d with progs := [(progKey 1 7, ⟨b, im, 1, [3], 0, r⟩)] }
def ld : PrgLoad := ⟨1, 7, 2, 1, 0x10000, 0⟩
theorem witness_TenantPrograms_1 : ((g 2147483648 7 2 1 id).dev.twin.role = Role.alone) ∧
    (Reaches 1 (g 2147483648 7 2 1 id).dev) ∧
    (winPart 1 0 < 1024) ∧
    (bit (rg (kPrg (winPart 1 0) oPRG_STATUS) (g 2147483648 7 2 1 id).dev) 31 = true) := by decide +kernel
theorem witness_TenantPrograms_2 : ((g 0 7 2 1 id).dev.twin.role = Role.alone) ∧
    (Reaches 0 (g 0 7 2 1 id).dev) ∧
    (winPart 0 1 < 1024) ∧
    (bit (rg (kPrg (winPart 0 1) oPRG_STATUS) (g 0 7 2 1 id).dev) 31 = false) ∧
    ((g 0 7 2 1 id).dev.load = []) ∧
    ((prog (winPart 0 1) (fld (rg (kPrg (winPart 0 1) oPRG_ID) (g 0 7 2 1 id).dev) 15 0) (g 0 7 2 1 id).dev).loaded = false) ∧
    (loadRefusal (winPart 0 1) (fld (rg (kPrg (winPart 0 1) oPRG_ID) (g 0 7 2 1 id).dev) 15 0) (fld (rg (kPrg (winPart 0 1) oPRG_LEN) (g 0 7 2 1 id).dev) 11 0) (fld (rg (kPrg (winPart 0 1) oPRG_LEN) (g 0 7 2 1 id).dev) 27 16) (g 0 7 2 1 id).dev = 0) := by decide +kernel
theorem witness_TenantPrograms_3 : ((g 0 7 2 3 id).dev.twin.role = Role.alone) ∧
    (Reaches 0 (g 0 7 2 3 id).dev) ∧
    (winPart 0 1 < 1024) ∧
    (bit (rg (kPrg (winPart 0 1) oPRG_STATUS) (g 0 7 2 3 id).dev) 31 = false) ∧
    ((g 0 7 2 3 id).dev.load = []) ∧
    ((prog (winPart 0 1) (fld (rg (kPrg (winPart 0 1) oPRG_ID) (g 0 7 2 3 id).dev) 15 0) (g 0 7 2 3 id).dev).loaded = false) ∧
    (fld (rg (kPrg (winPart 0 1) oPRG_ID) (g 0 7 2 3 id).dev) 15 0 = 0 ∨ fld (rg (kPrg (winPart 0 1) oPRG_LEN) (g 0 7 2 3 id).dev) 11 0 = 0 ∨ 2048 < fld (rg (kPrg (winPart 0 1) oPRG_LEN) (g 0 7 2 3 id).dev) 11 0 ∨ fld (rg (kPrg (winPart 0 1) oPRG_LEN) (g 0 7 2 3 id).dev) 27 16 = 0 ∨ fld (rg (kPrg (winPart 0 1) oPRG_LEN) (g 0 7 2 3 id).dev) 11 0 < fld (rg (kPrg (winPart 0 1) oPRG_LEN) (g 0 7 2 3 id).dev) 27 16) := by decide +kernel
def us : Dev → Dev := fun d => slotDev 3 { actSlot 1 with desc := (zd.set 0 0x8000).set 37 7 } d
def w2 := (g 0 7 2 1 (fun d => us (pl true true [0, 0] d)))
theorem witness_TenantPrograms_4 : (w2.dev.twin.role = Role.alone) ∧
    (Reaches 1 w2.dev) ∧
    (winPart 1 0 < 1024) ∧
    (bit (rg (kPrg (winPart 1 0) oPRG_STATUS) w2.dev) 31 = false) ∧
    (w2.dev.load = []) ∧
    ((prog (winPart 1 0) (fld (rg (kPrg (winPart 1 0) oPRG_ID) w2.dev) 15 0) w2.dev).loaded = true) ∧
    (prgUse (winPart 1 0) (fld (rg (kPrg (winPart 1 0) oPRG_ID) w2.dev) 15 0) w2.dev ≠ 0) := by decide +kernel
def w3 := (g 0 7 2 1 (fun d => { pl false false [] d with load := [ld] }))
theorem witness_TenantPrograms_5 : (w3.dev.twin.role = Role.alone) ∧
    (w3.dev.load = [ld]) ∧
    (ld.part < 1024) ∧
    ([(0 : Word), (5 : Word)].length = ld.len) ∧
    (validateImage ld.code [(0 : Word), (5 : Word)] = none) ∧
    ((prog ld.part ld.id w3.dev).loaded = false) ∧
    (prog ld.part ld.id w3.dev ≠ Prog.reset) ∧
    ((prog ld.part ld.id w3.dev).granules.Nodup) ∧
    ([(0 : Word), (5 : Word)].length ≤ 1024 * (prog ld.part ld.id w3.dev).granules.length) ∧
    ((prog 1 7 w3.dev).restoring = false) := by decide +kernel
theorem witness_TenantPrograms_6 : ((g 0 7 2 1 (pl true true [(9 : Word), (5 : Word)])).dev.twin.role = Role.alone) ∧
    (Reaches 0 (g 0 7 2 1 (pl true true [(9 : Word), (5 : Word)])).dev) ∧
    (winPart 0 1 < 1024) ∧
    (bit (rg (kPrg (winPart 0 1) oPRG_STATUS) (g 0 7 2 1 (pl true true [(9 : Word), (5 : Word)])).dev) 31 = false) ∧
    ((g 0 7 2 1 (pl true true [(9 : Word), (5 : Word)])).dev.load = []) ∧
    ((prog (winPart 0 1) (fld (rg (kPrg (winPart 0 1) oPRG_ID) (g 0 7 2 1 (pl true true [(9 : Word), (5 : Word)])).dev) 15 0) (g 0 7 2 1 (pl true true [(9 : Word), (5 : Word)])).dev).loaded = true) ∧
    (prgUse (winPart 0 1) (fld (rg (kPrg (winPart 0 1) oPRG_ID) (g 0 7 2 1 (pl true true [(9 : Word), (5 : Word)])).dev) 15 0) (g 0 7 2 1 (pl true true [(9 : Word), (5 : Word)])).dev = 0) ∧
    ((prog 1 7 (g 0 7 2 1 (pl true true [(9 : Word), (5 : Word)])).dev).restoring = true) ∧
    (∀ e ∈ (g 0 7 2 1 (pl true true [(9 : Word), (5 : Word)])).dev.slots, e.2.part = 1 → progOn e.2.desc = false ∨ progId e.2.desc ≠ 7) := by decide +kernel
end C09

/-! ### Witnesses: Ethernet ports -/

namespace C10
def macs (st cfg : Nat) : List (Nat × Nat) := [(kMac 0 0 oMAC_STATUS, st), (kMac 0 0 oMAC_CFG, cfg), (kMac 0 0 oMAC_ADDR, 0x020000000001), (kMac 0 3 oMAC_RXQ_LIMIT, 16)]
def ps (st cfg : Nat) (f : Dev → Dev) : State := tSt (f (setr (macs st cfg) { tDev with pages := [(macPage 0, { Hdr.reset with ctrl := 1 })] }))
def w1 := (ps 1 (1522 + 2 ^ 23) (setr [(kMac 0 0 oMAC_PAUSE_STATE, 0xFF)]))
theorem witness_MediaPortEvents_1 : ((port 0 w1.dev).ctl = []) ∧
    (portOn 0 w1.dev = true) ∧
    (bit (rg (kMac 0 0 oMAC_CFG) w1.dev) 22 = false) ∧
    (bit (rg (kMac 0 0 oMAC_CFG) w1.dev) 23 = true) ∧
    (∀ x < 4, portOn x w1.dev = decide (x = 0)) ∧
    (0 < 4) ∧
    (bit (rg (kMac 0 0 oMAC_PAUSE_STATE) w1.dev) 4 = true) := by decide +kernel
theorem witness_MediaPortEvents_2 : ((port 0 (ps 1 (1522 + 2 ^ 22) id).dev).ctl = []) ∧
    (portOn 0 (ps 1 (1522 + 2 ^ 22) id).dev = true) ∧
    (bit (rg (kMac 0 0 oMAC_CFG) (ps 1 (1522 + 2 ^ 22) id).dev) 22 = true) := by decide +kernel
def q6 (a : NT32) : Q6Ent := ⟨a, hnd 1 1 3, 0, 1, 218, 0, none, none⟩
def w3 := (ps 1 (1522 + 2 ^ 24) (fun d => { setr [(kMac 0 3 oMAC_EEE, 0x80000010), (kMac 0 3 oMAC_EEE_CFG, 0x10064)] d with ports := [(0, { Port.reset with q6 := [q6 5016001] })] }))
theorem witness_MediaPortEvents_3 : ((port 0 w3.dev).ctl = []) ∧
    (portOn 0 w3.dev = true) ∧
    (bit (rg (kMac 0 0 oMAC_CFG) w3.dev) 24 = true) ∧
    (bit (rg (kMac 0 3 oMAC_EEE) w3.dev) 31 = true) ∧
    (bit (rg (kMac 0 0 oMAC_STATUS) w3.dev) 3 = false) ∧
    (rgN (kMac 0 0 oMAC_STATUS) w3.dev < 2 ^ 32) ∧
    (BitVec.toNat (port 0 w3.dev).lastSent + fld (rg (kMac 0 3 oMAC_EEE_CFG) w3.dev) 15 0 ≤ BitVec.toNat (now64 w3.dev)) ∧
    (∀ x ∈ Option.map (fun e => sdiff e.at_ (now w3.dev)) (port 0 w3.dev).q6.head?, ↑(fld (rg (kMac 0 3 oMAC_EEE) w3.dev) 15 0) * (1000 : ℤ) + ↑(fld (rg (kMac 0 3 oMAC_EEE_CFG) w3.dev) 31 16) ≤ x) := by decide +kernel
theorem witness_MediaPortEvents_4 : ((port 0 (ps 0 1522 id).dev).ctl = []) ∧
    (portEnabled 0 (ps 0 1522 id).dev = true) ∧
    (linkUp 0 (ps 0 1522 id).dev = false) ∧
    (¬if mode1 (ps 0 1522 id).dev = true then 3 = 3 else 3 = 2 ∨ 3 = 1 ∧ true = false) := by decide +kernel
def w5 := (ps 1 1522 (fun d => { setr [(kMac 0 3 oMAC_EEE_CFG, 100)] d with ports := [(0, { Port.reset with lastSent := 4999999 })] }))
theorem witness_MediaPortEvents_5 : ((port 0 w5.dev).ctl = []) ∧
    (portOn 0 w5.dev = true) ∧
    (bit (rg (kMac 0 0 oMAC_CFG) w5.dev) 22 = false) ∧
    (bit (rg (kMac 0 0 oMAC_CFG) w5.dev) 23 = false) ∧
    (0 < 4) ∧
    (0 < 8) ∧
    (∀ x < 4, portOn x w5.dev = decide (x = 0)) ∧
    (bit (rg (kMac 0 0 oMAC_PAUSE_STATE) w5.dev) 4 = false) ∧
    ((port 0 w5.dev).q6 = []) ∧
    (BitVec.toNat (now64 w5.dev) < BitVec.toNat (port 0 w5.dev).lastSent + fld (rg (kMac 0 3 oMAC_EEE_CFG) w5.dev) 15 0 ∨ ∃ x ∈ Option.map (fun e => sdiff e.at_ (now w5.dev)) (port 0 w5.dev).q6.head?, x < ↑(fld (rg (kMac 0 3 oMAC_EEE) w5.dev) 15 0) * (1000 : ℤ) + ↑(fld (rg (kMac 0 3 oMAC_EEE_CFG) w5.dev) 31 16)) ∧
    (∀ x ∈ Option.map (fun e => sdiff e.at_ (now w5.dev)) (port 0 w5.dev).q6.head?, ↑(fld (rg (kMac 0 3 oMAC_EEE) w5.dev) 15 0) * (1000 : ℤ) + (200 : ℤ) < x) ∧
    (portEnabled 0 w5.dev = true) ∧
    (linkUp 0 w5.dev = true) ∧
    (∀ n ∈ w5.dev.fab.nbrs, n.port ≠ 0) := by decide +kernel
def w6 := (ps 9 (1522 + 2 ^ 24) (fun d => { setr [(kMac 0 3 oMAC_EEE, 0x80000010)] d with ports := [(0, { Port.reset with q6 := [q6 5016001] })] }))
theorem witness_MediaPortEvents_6 : ((port 0 w6.dev).ctl = []) ∧
    (0 < 4) ∧
    (bit (rg (kMac 0 0 oMAC_STATUS) w6.dev) 3 = true) ∧
    (∃ x ∈ Option.map (fun e => sdiff e.at_ (now w6.dev)) (port 0 w6.dev).q6.head?, x ≤ ↑(fld (rg (kMac 0 3 oMAC_EEE) w6.dev) 15 0) * (1000 : ℤ) + (200 : ℤ)) := by decide +kernel
theorem witness_MediaPortEvents_7 : ((port 0 (ps 0 1522 id).dev).ctl = []) ∧
    (portEnabled 0 (ps 0 1522 id).dev = true) ∧
    (linkUp 0 (ps 0 1522 id).dev = false) ∧
    (if mode1 (ps 0 1522 id).dev = true then 2 = 3 else 2 = 2 ∨ 2 = 1 ∧ true = false) := by decide +kernel
def rr (f : Ring → Ring) (k : Nat) (d : Dev) : Dev := { d with rings := [(k, f { Ring.reset with base := 0x4000, sizeLog2 := 6, enable := true, prod := 5, cons := 4 })] }
def fr : RxFrame := ⟨0, 4900000, 0, 218, true, true, 0x020000000001, 0x020000000002, [], 0, 0x800, none, [1, 2, 3]⟩
theorem witness_TransmitRingsAndManagementPort_1 : (HostUp (ps 1 1522 (rr id (txRing 0))).dev) ∧
    (0 ≤ 4) ∧
    (mode1 (ps 1 1522 (rr id (txRing 0))).dev = false) ∧
    (BitVec.toNat ((68 : W32) - (ring (txRing 0) (ps 1 1522 (rr id (txRing 0))).dev).cons) ≤ 2 ^ (ring (txRing 0) (ps 1 1522 (rr id (txRing 0))).dev).sizeLog2) ∧
    (0 < 4) ∧
    ((ring (txRing 0) (ps 1 1522 (rr id (txRing 0))).dev).enable = true) ∧
    ((ring (txRing 0) (ps 1 1522 (rr id (txRing 0))).dev).prod ≠ (ring (txRing 0) (ps 1 1522 (rr id (txRing 0))).dev).cons) ∧
    ((ps 1 1522 (rr id (txRing 0))).dev.pwr.st ≠ DevSt.dormant) ∧
    ((port 0 (ps 1 1522 (rr id (txRing 0))).dev).ctl = []) ∧
    ((port 0 (ps 1 1522 (rr id (txRing 0))).dev).q6 = []) ∧
    (bit (rg (kMac 0 0 oMAC_PAUSE_STATE) (ps 1 1522 (rr id (txRing 0))).dev) (0 % 4) = false) ∧
    (mgmtOn (ps 1 1522 (rr id (txRing 0))).dev = false) := by decide +kernel
def mg (l : List (Nat × Nat)) (at_ : Nat) : State := tSt (setr ([(rMGMT_ADDR, 0x020000000001)] ++ l) { tDev with pages := [(0x110, { Hdr.reset with ctrl := 1 })], mgmt := { tDev.mgmt with attempts := at_ }, rings := [(mgmtRing, { Ring.reset with base := 0x4000, dataBase := 0x8000, sizeLog2 := 6, enable := true, prod := 67, cons := 4 }), (txRing 4, { Ring.reset with base := 0x9000, sizeLog2 := 6, enable := true, prod := 5, cons := 4 })] })
def w8 := { fr with len := 63 }
theorem witness_TransmitRingsAndManagementPort_2 : (HostUp (mg [(rMGMT_STATUS, 9)] 14).dev) ∧
    (0 ≤ 4) ∧
    (mode1 (mg [(rMGMT_STATUS, 9)] 14).dev = false) ∧
    (2 ^ (ring (txRing 0) (mg [(rMGMT_STATUS, 9)] 14).dev).sizeLog2 < BitVec.toNat ((69 : W32) - (ring (txRing 0) (mg [(rMGMT_STATUS, 9)] 14).dev).cons)) ∧
    ((ring (txRing 0) (mg [(rMGMT_STATUS, 9)] 14).dev).enable = false ∨ (ring (txRing 0) (mg [(rMGMT_STATUS, 9)] 14).dev).prod = (ring (txRing 0) (mg [(rMGMT_STATUS, 9)] 14).dev).cons) ∧
    (mgmtOn (mg [(rMGMT_STATUS, 9)] 14).dev = true) ∧
    (w8.len < 64) ∧
    (mgmtOn (mg [(rMGMT_STATUS, 9)] 14).dev = true ∧ bit (rg rMGMT_STATUS (mg [(rMGMT_STATUS, 9)] 14).dev) 3 = true ∧ (ring (txRing 4) (mg [(rMGMT_STATUS, 9)] 14).dev).enable = true ∧ (ring (txRing 4) (mg [(rMGMT_STATUS, 9)] 14).dev).prod ≠ (ring (txRing 4) (mg [(rMGMT_STATUS, 9)] 14).dev).cons ∧ (mg [(rMGMT_STATUS, 9)] 14).dev.mgmt.backoff = 0 ∧ (mg [(rMGMT_STATUS, 9)] 14).dev.mgmt.attempts < 16) ∧
    ((mg [(rMGMT_STATUS, 9)] 14).dev.mgmt.attempts + 1 < 16) ∧
    (bit (rg rMGMT_MDIO (mg [(rMGMT_STATUS, 9)] 14).dev) 31 = false) ∧
    (bit (rg rMGMT_CFG (mg [(rMGMT_STATUS, 9)] 14).dev) 4 = false) ∧
    (1 < 3) := by decide +kernel
def w9 := { fr with len := mgmtMax + 1 }
theorem witness_TransmitRingsAndManagementPort_3 : (mgmtOn (mg [(rMGMT_STATUS, 9)] 15).dev = true) ∧
    (64 ≤ w9.len) ∧
    (mgmtMax < w9.len) ∧
    (mgmtOn (mg [(rMGMT_STATUS, 9)] 15).dev = true ∧ bit (rg rMGMT_STATUS (mg [(rMGMT_STATUS, 9)] 15).dev) 3 = true ∧ (ring (txRing 4) (mg [(rMGMT_STATUS, 9)] 15).dev).enable = true ∧ (ring (txRing 4) (mg [(rMGMT_STATUS, 9)] 15).dev).prod ≠ (ring (txRing 4) (mg [(rMGMT_STATUS, 9)] 15).dev).cons ∧ (mg [(rMGMT_STATUS, 9)] 15).dev.mgmt.backoff = 0 ∧ (mg [(rMGMT_STATUS, 9)] 15).dev.mgmt.attempts < 16) ∧
    (16 ≤ (mg [(rMGMT_STATUS, 9)] 15).dev.mgmt.attempts + 1) := by decide +kernel
def w10 := { fr with len := mgmtMax, fcsOk := false, aligned := false }
theorem witness_TransmitRingsAndManagementPort_4 : (mgmtOn (mg [(rMGMT_STATUS, 1)] 15).dev = true) ∧
    (64 ≤ w10.len) ∧
    (w10.len ≤ mgmtMax) ∧
    (w10.fcsOk = false) := by decide +kernel
def w11 := (mg [(rMGMT_STATUS, 1), (rMGMT_MDIO, 0xA0000000)] 15)
def w12 := { fr with len := 64, aligned := false }
theorem witness_TransmitRingsAndManagementPort_5 : (mgmtOn w11.dev = true) ∧
    (64 ≤ w12.len) ∧
    (w12.len ≤ mgmtMax) ∧
    (w12.fcsOk = true) ∧
    (w12.aligned = false) ∧
    (¬(mgmtOn w11.dev = true ∧ bit (rg rMGMT_STATUS w11.dev) 3 = true ∧ (ring (txRing 4) w11.dev).enable = true ∧ (ring (txRing 4) w11.dev).prod ≠ (ring (txRing 4) w11.dev).cons ∧ w11.dev.mgmt.backoff = 0 ∧ w11.dev.mgmt.attempts < 16)) ∧
    (HostUp w11.dev) ∧
    (bit (rg rMGMT_MDIO w11.dev) 31 = true) := by decide +kernel
def w13 := (mg [(rMGMT_STATUS, 1), (rMGMT_MDIO, 0x90000123)] 15)
def w14 := { fr with len := 64, etherType := 0x8808 }
theorem witness_TransmitRingsAndManagementPort_6 : (mgmtOn w13.dev = true) ∧
    (64 ≤ w14.len) ∧
    (w14.len ≤ mgmtMax) ∧
    (w14.fcsOk = true) ∧
    (w14.aligned = true) ∧
    (w14.etherType = (34824 : BitVec 16)) := by decide +kernel
def w15 := { fr with len := 64, dst := 5 }
theorem witness_TransmitRingsAndManagementPort_7 : (mgmtOn (mg [(rMGMT_STATUS, 1)] 15).dev = true) ∧
    (64 ≤ w15.len) ∧
    (w15.len ≤ mgmtMax) ∧
    (w15.fcsOk = true) ∧
    (w15.aligned = true) ∧
    (w15.etherType ≠ (34824 : BitVec 16)) ∧
    (w15.dst ≠ BitVec.extractLsb' 0 48 (rg rMGMT_ADDR (mg [(rMGMT_STATUS, 1)] 15).dev)) ∧
    (bit w15.dst 40 = false) := by decide +kernel
theorem witness_TransmitRingsAndManagementPort_8 : (mgmtOn (mg [(rMGMT_STATUS, 1)] 15).dev = true) ∧
    (64 ≤ fr.len) ∧
    (fr.len ≤ mgmtMax) ∧
    (fr.fcsOk = true) ∧
    (fr.aligned = true) ∧
    (fr.etherType ≠ (34824 : BitVec 16)) ∧
    (fr.dst = BitVec.extractLsb' 0 48 (rg rMGMT_ADDR (mg [(rMGMT_STATUS, 1)] 15).dev) ∨ bit fr.dst 40 = true) ∧
    ((mg [(rMGMT_STATUS, 1)] 15).dev.pwr.st ≠ DevSt.dormant) ∧
    ((ring mgmtRing (mg [(rMGMT_STATUS, 1)] 15).dev).enable = true) ∧
    ((ring mgmtRing (mg [(rMGMT_STATUS, 1)] 15).dev).lost = (0 : W32)) ∧
    (1 ≤ (ring mgmtRing (mg [(rMGMT_STATUS, 1)] 15).dev).room) := by decide +kernel
def w16 := (ps 1 1522 (fun d => setr [(kMac 0 0 oMAC_PAUSE_STATE, 1)] (rr id (txRing 0) d)))
theorem witness_TransmitRingsAndManagementPort_9 : (0 < 4) ∧
    ((ring (txRing 0) w16.dev).enable = true) ∧
    ((ring (txRing 0) w16.dev).prod ≠ (ring (txRing 0) w16.dev).cons) ∧
    (portOn 0 w16.dev = true) ∧
    (60 ≤ 60) ∧
    (60 + 4 ≤ fld (rg (kMac 0 0 oMAC_CFG) w16.dev) 13 0) ∧
    (bit (rg (kMac 0 0 oMAC_PAUSE_STATE) w16.dev) (0 % 4) = true) := by decide +kernel
def mt (b a : Nat) : State := let x := mg [(rMGMT_STATUS, 1)] a
  tSt (rr id (txRing 4) { x.dev with mgmt := { x.dev.mgmt with backoff := b } })
theorem witness_TransmitRingsAndManagementPort_10 : (4 = 4) ∧
    ((ring (txRing 4) (mt 3 2).dev).enable = true) ∧
    ((ring (txRing 4) (mt 3 2).dev).prod ≠ (ring (txRing 4) (mt 3 2).dev).cons) ∧
    (mgmtOn (mt 3 2).dev = true) ∧
    ((mt 3 2).dev.pwr.st ≠ DevSt.dormant) ∧
    (60 ≤ 60) ∧
    (60 + 4 ≤ mgmtMax) ∧
    ((mt 3 2).dev.mgmt.attempts < 16) ∧
    ((mt 3 2).dev.mgmt.backoff ≠ 0) := by decide +kernel
theorem witness_TransmitRingsAndManagementPort_11 : (4 = 4) ∧
    ((ring (txRing 4) (mt 0 0).dev).enable = true) ∧
    ((ring (txRing 4) (mt 0 0).dev).prod ≠ (ring (txRing 4) (mt 0 0).dev).cons) ∧
    (mgmtOn (mt 0 0).dev = true) ∧
    ((mt 0 0).dev.pwr.st ≠ DevSt.dormant) ∧
    (60 ≤ 60) ∧
    (60 + 4 ≤ mgmtMax) ∧
    ((mt 0 0).dev.mgmt.attempts < 16) ∧
    ((mt 0 0).dev.mgmt.backoff = 0) := by decide +kernel
theorem witness_TransmitRingsAndManagementPort_12 : (4 = 4) ∧
    ((ring (txRing 4) (mt 0 16).dev).enable = true) ∧
    ((ring (txRing 4) (mt 0 16).dev).prod ≠ (ring (txRing 4) (mt 0 16).dev).cons) ∧
    (mgmtOn (mt 0 16).dev = true) ∧
    ((mt 0 16).dev.pwr.st ≠ DevSt.dormant) ∧
    (60 ≤ 60) ∧
    (60 + 4 ≤ mgmtMax) ∧
    (16 ≤ (mt 0 16).dev.mgmt.attempts) := by decide +kernel
def bm (f : List (Nat × Nat)) (cmd : W32) : State := tSt (setr ([(kBmb 0 rBMB_CTRL, 1)] ++ f) { tDev with mgmt := { tDev.mgmt with cmd := [(0, cmd)] } })
theorem witness_BoardManagementBus_1 : (HostUp (bm [] (0 : W32)).dev) ∧
    (0 < 2) ∧
    (1 ≤ fld (4202656 : W32) 15 8) ∧
    (fld (4202656 : W32) 15 8 ≤ 32) ∧
    (bit (4202656 : W32) 22 = false ∨ mode1 (bm [] (0 : W32)).dev = false) ∧
    (bit (rg (kBmb 0 rBMB_STAT) (bm [] (0 : W32)).dev) 0 = false ∧ bit (rg (kBmb 0 rBMB_STAT) (bm [] (0 : W32)).dev) 6 = false ∧ bit (rg (kBmb 0 rBMB_STAT) (bm [] (0 : W32)).dev) 4 = false ∧ bit (rg (kBmb 0 rBMB_CTRL) (bm [] (0 : W32)).dev) 0 = true ∧ 0 ∉ (bm [] (0 : W32)).dev.mgmt.recovering) := by decide +kernel
theorem witness_BoardManagementBus_2 : (HostUp (bm [] (0 : W32)).dev) ∧
    (0 < 2) ∧
    (fld (8608 : W32) 15 8 = 0 ∨ 32 < fld (8608 : W32) 15 8) ∧
    (bit (rg (kBmb 0 rBMB_STAT) (bm [] (0 : W32)).dev) 0 = false) ∧
    (0 ∉ (bm [] (0 : W32)).dev.mgmt.recovering) ∧
    (3 < 4) ∧
    (bit (rg rBMB_MOD_STATE (bm [] (0 : W32)).dev) 3 = false) := by decide +kernel
def rv : State := let x := bm [] 0
  tSt { x.dev with mgmt := { x.dev.mgmt with recovering := [0] } }
theorem witness_BoardManagementBus_3 : (0 < 2) ∧
    (0 ∈ rv.dev.mgmt.recovering) ∧
    (4 ≤ 9) := by decide +kernel
def w17 := (bm [(kBmb 0 rBMB_STAT, 0x301), (rBMB_MOD_STATE, 0x88)] 0x00400280)
theorem witness_BoardManagementBus_4 : (HostUp w17.dev) ∧
    (0 < 2) ∧
    (1 ≤ fld (8352 : W32) 15 8) ∧
    (fld (8352 : W32) 15 8 ≤ 32) ∧
    (bit (8352 : W32) 22 = false ∨ mode1 w17.dev = false) ∧
    (¬(bit (rg (kBmb 0 rBMB_STAT) w17.dev) 0 = false ∧ bit (rg (kBmb 0 rBMB_STAT) w17.dev) 6 = false ∧ bit (rg (kBmb 0 rBMB_STAT) w17.dev) 4 = false ∧ bit (rg (kBmb 0 rBMB_CTRL) w17.dev) 0 = true ∧ 0 ∉ w17.dev.mgmt.recovering)) ∧
    (bit (rg (kBmb 0 rBMB_STAT) w17.dev) 0 = true) ∧
    (2 ≤ 32) ∧
    (3 < 4) ∧
    (bit (rg rBMB_MOD_STATE w17.dev) 3 ≠ false) := by decide +kernel
end C10

/-! ### Witnesses: twins -/

namespace C11
def tw (f : Twin → Twin) (g : Dev → Dev) : State := tSt (g (setr [(rHIF_FUSE_CAP, 4), (rTWIN_CFG, 1)] { slotDev 3 (actSlot 1) tPart with twin := f tPart.twin }))
def me : TwinPeer := ⟨7, 7, false, 0, true, true⟩
def str1 (d : Dev) : Dev := { d with pwr := { d.pwr with straps := 1 } }
def w1 := (tw (fun w => { w with link := true, lanes := 4 }) str1)
theorem witness_TwinLinkAndRoles_1 : (hasTwin w1.dev = true) ∧
    (w1.dev.twin.link = true) ∧
    (bit (rg rTWIN_CFG w1.dev) 0 = true) ∧
    (w1.dev.twin.role = Role.alone) ∧
    (w1.dev.twin.seen = false) ∧
    (me.pairId = me.ownId) ∧
    (me.certOk = true) ∧
    (me.side ≠ bit w1.dev.pwr.straps 0) ∧
    (w1.dev.twin.own = true) ∧
    (w1.dev.twin.fence = false) ∧
    (w1.dev.pwr.st ≠ DevSt.fault) := by decide +kernel
def w2 := (tw (fun w => { w with link := true, lanes := 4, own := false }) str1)
theorem witness_TwinLinkAndRoles_2 : (hasTwin w2.dev = true) ∧
    (w2.dev.twin.link = true) ∧
    (bit (rg rTWIN_CFG w2.dev) 0 = true) ∧
    (w2.dev.twin.role = Role.alone) ∧
    (w2.dev.twin.seen = false) ∧
    (me.pairId = me.ownId) ∧
    (me.certOk = true) ∧
    (me.side ≠ bit w2.dev.pwr.straps 0) ∧
    (w2.dev.twin.own = false) ∧
    (me.active = true) := by decide +kernel
def w3 := (tw (fun w => { w with link := true, lanes := 4 }) id)
def w4 := { me with pairId := 8 }
theorem witness_TwinLinkAndRoles_3 : (hasTwin w3.dev = true) ∧
    (w3.dev.twin.seen = false) ∧
    (w3.dev.twin.link = true) ∧
    (w3.dev.twin.role = Role.alone) ∧
    (bit (rg rTWIN_CFG w3.dev) 0 = true) ∧
    (w4.pairId ≠ w4.ownId ∨ w4.certOk = false ∨ w4.side = bit w3.dev.pwr.straps 0) ∧
    (HostUp w3.dev) ∧
    (w3.dev.twin.role ≠ Role.standby) := by decide +kernel
def stb (w : Twin) : Twin := { w with role := .standby, link := true, lanes := 4, own := false, peer := true, seen := true, ch := [(3, .shadow)] }
def w5 := (tw (fun w => { stb w with peer := false, missRun := 2 }) id)
theorem witness_TwinLinkAndRoles_4 : (QuietStandby w5.dev) ∧
    (w5.dev.twin.peer = false) ∧
    (w5.dev.twin.seen = true) ∧
    (w5.dev.twin.missRun = 2) ∧
    (QuietStandby { regs := w5.dev.regs, pages := w5.dev.pages, frozen := w5.dev.frozen, raised := w5.dev.raised, hif := w5.dev.hif, rings := w5.dev.rings, tb := w5.dev.tb, weir := w5.dev.weir, slots := w5.dev.slots, buses := w5.dev.buses, path := w5.dev.path, ports := w5.dev.ports, mgmt := w5.dev.mgmt, twin := { role := w5.dev.twin.role, link := w5.dev.twin.link, lanes := w5.dev.twin.lanes, fence := false, own := w5.dev.twin.own, peer := w5.dev.twin.peer, seen := w5.dev.twin.seen, attach := w5.dev.twin.attach, attachStep := w5.dev.twin.attachStep, hbSeq := w5.dev.twin.hbSeq, hbAt := w5.dev.twin.hbAt, missRun := w5.dev.twin.missRun, unlockRun := w5.dev.twin.unlockRun, locked := w5.dev.twin.locked, launched := w5.dev.twin.launched, written := w5.dev.twin.written, peerRole := w5.dev.twin.peerRole, ch := w5.dev.twin.ch, installed := w5.dev.twin.installed, digests := w5.dev.twin.digests, ingress := w5.dev.twin.ingress, fetched := w5.dev.twin.fetched, horizon := w5.dev.twin.horizon, retained := w5.dev.twin.retained, taking := w5.dev.twin.taking, acks := w5.dev.twin.acks, lines := w5.dev.twin.lines, want := w5.dev.twin.want, atBoundary := w5.dev.twin.atBoundary, step := w5.dev.twin.step, handover := w5.dev.twin.handover, cfgSrc := w5.dev.twin.cfgSrc, before := w5.dev.twin.before, sent := w5.dev.twin.sent : Twin }, recd := w5.dev.recd, flash := w5.dev.flash, lfe := w5.dev.lfe, sce := w5.dev.sce, tarns := w5.dev.tarns, clu := w5.dev.clu, fab := w5.dev.fab, chw := w5.dev.chw, progs := w5.dev.progs, load := w5.dev.load, closing := w5.dev.closing, nextFree := w5.dev.nextFree, basin := w5.dev.basin, poison := w5.dev.poison, dram := w5.dev.dram, pwr := w5.dev.pwr, fresh := w5.dev.fresh, outbox := w5.dev.outbox : Dev }) ∧
    (w5.dev.twin.own = false) ∧
    (w5.dev.clu.driving = driveLevel { regs := w5.dev.regs, pages := w5.dev.pages, frozen := w5.dev.frozen, raised := w5.dev.raised, hif := w5.dev.hif, rings := w5.dev.rings, tb := w5.dev.tb, weir := w5.dev.weir, slots := w5.dev.slots, buses := w5.dev.buses, path := w5.dev.path, ports := w5.dev.ports, mgmt := w5.dev.mgmt, twin := { role := w5.dev.twin.role, link := w5.dev.twin.link, lanes := w5.dev.twin.lanes, fence := false, own := w5.dev.twin.own, peer := w5.dev.twin.peer, seen := w5.dev.twin.seen, attach := w5.dev.twin.attach, attachStep := w5.dev.twin.attachStep, hbSeq := w5.dev.twin.hbSeq, hbAt := w5.dev.twin.hbAt, missRun := w5.dev.twin.missRun, unlockRun := w5.dev.twin.unlockRun, locked := w5.dev.twin.locked, launched := w5.dev.twin.launched, written := w5.dev.twin.written, peerRole := w5.dev.twin.peerRole, ch := w5.dev.twin.ch, installed := w5.dev.twin.installed, digests := w5.dev.twin.digests, ingress := w5.dev.twin.ingress, fetched := w5.dev.twin.fetched, horizon := w5.dev.twin.horizon, retained := w5.dev.twin.retained, taking := w5.dev.twin.taking, acks := w5.dev.twin.acks, lines := w5.dev.twin.lines, want := w5.dev.twin.want, atBoundary := w5.dev.twin.atBoundary, step := w5.dev.twin.step, handover := w5.dev.twin.handover, cfgSrc := w5.dev.twin.cfgSrc, before := w5.dev.twin.before, sent := w5.dev.twin.sent : Twin }, recd := w5.dev.recd, flash := w5.dev.flash, lfe := w5.dev.lfe, sce := w5.dev.sce, tarns := w5.dev.tarns, clu := w5.dev.clu, fab := w5.dev.fab, chw := w5.dev.chw, progs := w5.dev.progs, load := w5.dev.load, closing := w5.dev.closing, nextFree := w5.dev.nextFree, basin := w5.dev.basin, poison := w5.dev.poison, dram := w5.dev.dram, pwr := w5.dev.pwr, fresh := w5.dev.fresh, outbox := w5.dev.outbox : Dev }) := by decide +kernel
def w9 := (tw (fun w => { stb w with taking := some (4990000, 3) }) id)
theorem witness_TwinLinkAndRoles_5 : (w9.dev.twin.taking = some ((4990000 : NT32), 3)) ∧
    (w9.dev.twin.peer = true) ∧
    ((10000 : ℤ) ≤ sdiff (now w9.dev) (4990000 : NT32)) := by decide +kernel
def w10 := (tw (fun w => { stb w with taking := some (4990001, 3) }) id)
theorem witness_TwinLinkAndRoles_6 : (w10.dev.twin.taking = some ((4990001 : NT32), 3)) ∧
    (w10.dev.twin.peer = true) ∧
    (sdiff (now w10.dev) (4990001 : NT32) < (10000 : ℤ)) := by decide +kernel
def w11 := (tw (fun w => { w with role := .active, link := true, lanes := 4, seen := true, peerRole := 3 }) id)
theorem witness_TwinLinkAndRoles_7 : (HostUp w11.dev) ∧
    (hasTwin w11.dev = true) ∧
    (w11.dev.twin.role = Role.active) ∧
    (w11.dev.twin.link = true) ∧
    (w11.dev.twin.peerRole = 3) ∧
    (w11.dev.twin.want = []) ∧
    (w11.dev.twin.handover = none) ∧
    ((0 : ℤ) ≤ sdiff w11.dev.weir.nextP (now w11.dev)) ∧
    (sdiff w11.dev.weir.nextP (now w11.dev) ≤ (1000000 : ℤ)) := by decide +kernel
def w12 := (tw (fun w => { w with role := .detached }) id)
theorem witness_TwinLinkAndRoles_8 : (HostUp w12.dev) ∧
    (hasTwin w12.dev = true) ∧
    (w12.dev.twin.role = Role.detached) := by decide +kernel
def w13 := (tw (fun w => { w with role := .active, link := true, lanes := 4, seen := true, handover := some 5000001 }) id)
theorem witness_TwinLinkAndRoles_9 : (hasTwin w13.dev = true) ∧
    (w13.dev.twin.role = Role.active) ∧
    (w13.dev.twin.acks = []) ∧
    (w13.dev.twin.own = true) ∧
    (w13.dev.twin.handover = some (5000001 : NT32)) ∧
    (reached w13.dev (5000001 : NT32) = false) := by decide +kernel
def w14 := (tw (fun w => { w with role := .active, link := true, lanes := 4, seen := true, handover := some 5000000 }) id)
theorem witness_TwinLinkAndRoles_10 : (w14.dev.twin.handover = some (5000000 : NT32)) ∧
    (reached w14.dev (5000000 : NT32) = true) ∧
    (hasTwin w14.dev = true) ∧
    (w14.dev.twin.role = Role.active) ∧
    (w14.dev.twin.acks = []) ∧
    (w14.dev.twin.own = true) := by decide +kernel
def w15 := (tw (fun w => { stb w with handover := some 5000000 }) id)
theorem witness_TwinLinkAndRoles_11 : (w15.dev.twin.link = true) ∧
    (1 = 1 ∨ 1 = 2) ∧
    (1 < w15.dev.twin.lanes) ∧
    (w15.dev.twin.role = Role.standby) ∧
    (QuietStandby w15.dev) ∧
    (w15.dev.twin.peer = true) ∧
    (w15.dev.twin.seen = true) ∧
    (w15.dev.twin.role = Role.active ∨ w15.dev.twin.role = Role.standby) ∧
    (w15.dev.twin.missRun < 2) ∧
    (hasTwin w15.dev = true) ∧
    (w15.dev.twin.own = false) ∧
    (HostUp w15.dev) ∧
    (w15.dev.twin.role ≠ Role.active ∨ w15.dev.twin.peerRole ≠ 3) ∧
    (w15.dev.twin.role ≠ Role.detached) ∧
    (w15.dev.twin.handover = some (5000000 : NT32)) ∧
    (reached w15.dev (5000000 : NT32) = true) := by decide +kernel
def h1 : W32 := hnd 1 1 3
def ir1 : IngressRec := ⟨hnd 1 1 3, 0, 7, 100, 4900000, 9, 0xABCD, none, none⟩
def w18 := (tw (fun w => { w with role := .active, acks := [.binding 1 2 0 []] }) id)
theorem witness_TwinMessages_1 : (w18.dev.twin.hbAt = some (BitVec.ofNat 64 (BitVec.toNat (now64 w18.dev) / 125000 * 125000)) ∨ w18.dev.twin.role = Role.active ∧ paired w18.dev = false) ∧
    (w18.dev.twin.link = false) ∧
    (w18.dev.twin.acks = [TwinOp.binding 1 (2 : W32) (0 : W32) []]) ∧
    (isBinding (TwinOp.binding 1 (2 : W32) (0 : W32) []) = true ∨ isFlowOf 1 (TwinOp.binding 1 (2 : W32) (0 : W32) []) = true) := by decide +kernel
def w19 := (tw (fun w => { stb w with role := .pairing }) id)
theorem witness_TwinMessages_2 : (w19.dev.twin.link = true) ∧
    (w19.dev.twin.seen = true) ∧
    (w19.dev.twin.hbAt ≠ some (BitVec.ofNat 64 (BitVec.toNat (now64 w19.dev) / 125000 * 125000))) ∧
    (w19.dev.twin.role = Role.active → paired w19.dev = true) ∧
    (w19.dev.twin.role = Role.standby ∨ w19.dev.twin.role = Role.pairing) ∧
    (w19.dev.twin.acks = []) ∧
    (w19.dev.twin.role = Role.pairing) ∧
    (hSlot h1 = 3) ∧
    (∀ j ∈ activeSlots w19.dev, chSt j w19.dev = ChSt.shadow) := by decide +kernel
def w20 := (tw (fun w => { stb w with role := .pairing, ch := [(3, .copying)] }) id)
theorem witness_TwinMessages_3 : (w20.dev.twin.role = Role.pairing) ∧
    (w20.dev.twin.link = true) ∧
    (∃ j ∈ activeSlots w20.dev, chSt j w20.dev ≠ ChSt.shadow) := by decide +kernel
def ir : IngressRec := ⟨h1, 0, 7, 100, 4900000, 0, 0xABCD, none, none⟩
def rp : RtpPkt := ⟨2, true, false, false, 8, 100, 0x1000, 0x55AA, 0, 0, false, List.replicate 160 (5 : Byte), [], []⟩
def ip : IpPkt := ⟨false, 0x0A000001, 0x0A000002, false, false, true, false, false, false, false, 4000, 5000, rp⟩
def fr : RxFrame := ⟨0, 4900000, 0, 218, true, true, 0x020000000001, 0x020000000002, [], 0, 0x800, some ip, [1, 2, 3]⟩
def wp (a : NT32) : WaitPkt := ⟨fr, a, 5⟩
def tok : Token := ⟨false, h1, 4000000, true, true, true, true, .pcm [1,2] 0, .none, [], false, false, false, true, 1580, 0⟩
def y0 : WaitTrunk := ⟨0, 0, ⟨0, 0, 0, 1, true, 0, 0, [], 64⟩, 3000000, 5⟩
def dg : PassDigest := ⟨h1, 4000000, 9⟩
def Sh (f : Twin → Twin) (g : Dev → Dev) : State := tw (fun w => f (stb w)) g
def w21 := (Sh (fun w => { w with ingress := [(ir, 4950000)] }) id)
theorem witness_TwinShadow_1 : (w21.dev.twin.link = true) ∧
    (w21.dev.twin.role = Role.standby) ∧
    (w21.dev.twin.ingress = [(ir, (4950000 : NT32))]) ∧
    (ir.frame = none) ∧
    (ir.trunk = none) ∧
    ((50000 : ℤ) ≤ sdiff (now w21.dev) (4950000 : NT32)) ∧
    (ir.digest = ir.digest) := by decide +kernel
def w22 := (Sh (fun w => { w with ingress := [(ir, 4950001)] }) (fun d => { d with path := { d.path with waiting := [wp 3000000] } }))
def w23 := { ir with digest := 1 }
theorem witness_TwinShadow_2 : (w22.dev.twin.link = true) ∧
    (w22.dev.twin.role = Role.standby) ∧
    (w22.dev.twin.ingress = [(ir, (4950001 : NT32))]) ∧
    (ir.frame = none) ∧
    (sdiff (now w22.dev) (4950001 : NT32) < (50000 : ℤ)) ∧
    (w23.digest ≠ ir.digest) ∧
    (w22.dev.path.waiting = [wp (3000000 : NT32)]) ∧
    ((2000000 : ℤ) ≤ sdiff (now w22.dev) (wp (3000000 : NT32)).at_) ∧
    (sdiff (now w22.dev) (4995001 : NT32) < (5000 : ℤ)) := by decide +kernel
def w24 := (Sh id (fun d => { d with path := { d.path with waiting := [wp 3000001] } }))
theorem witness_TwinShadow_3 : (w24.dev.twin.link = true) ∧
    (w24.dev.twin.role = Role.standby) ∧
    (w24.dev.path.waiting = [wp (3000001 : NT32)]) ∧
    (sdiff (now w24.dev) (wp (3000001 : NT32)).at_ < (2000000 : ℤ)) ∧
    (w24.dev.path.trunkIn = []) := by decide +kernel
def w26 := (Sh id (fun d => { d with weir := { d.weir with tokens := [tok], lastP := 4995000 } }))
theorem witness_TwinShadow_4 : (w26.dev.twin.link = true) ∧
    (w26.dev.twin.role = Role.standby) ∧
    (w26.dev.twin.horizon = none) ∧
    (WeirWorks w26.dev) ∧
    (w26.dev.weir.tokens = [tok]) ∧
    (tok.elig = true) ∧
    (tok.bus = false) ∧
    (tok.fillCtx = true) ∧
    (tok.fillA = true) ∧
    (tok.fillB = true) ∧
    (tok.fillProg = true) ∧
    (current tok.handle w26.dev = true) ∧
    (w26.dev.weir.lists = []) ∧
    (0 < 64) ∧
    (bit w26.dev.weir.healthy 0 = true) ∧
    (∀ y < 0, bit w26.dev.weir.healthy y = false) ∧
    (Instr.horizon w26.dev.weir.lastP = Instr.horizon w26.dev.weir.lastP ∨ (5000 : ℤ) ≤ sdiff (now w26.dev) w26.dev.weir.lastP) ∧
    (Instr.horizonTimeout w26.dev.weir.lastP = Instr.horizon w26.dev.weir.lastP ∨ (5000 : ℤ) ≤ sdiff (now w26.dev) w26.dev.weir.lastP) := by decide +kernel
def w27 := (Sh id (fun d => { d with weir := { d.weir with tokens := [{ tok with fillA := false, elig := false }] } }))
def w28 := { tok with fillA := false, elig := false }
theorem witness_TwinShadow_5 : (w27.dev.twin.link = true) ∧
    (w27.dev.twin.role = Role.standby) ∧
    (w27.dev.weir.tokens = [w28]) ∧
    (w28.bus = false) ∧
    (w28.handle = h1) ∧
    (w28.pass = w27.dev.weir.lastP - (1000000 : NT32)) ∧
    (w28.fillA = false) ∧
    (w28.elig = false) := by decide +kernel
def w29 := (Sh (fun w => { w with digests := [dg] }) id)
theorem witness_TwinShadow_6 : (w29.dev.twin.link = true) ∧
    (w29.dev.twin.role = Role.standby) ∧
    (current h1 w29.dev = true) ∧
    (List.find? (fun y => decide (y.handle = h1 ∧ y.pass = (4000000 : NT32))) w29.dev.twin.digests = some dg) ∧
    (chSt (hSlot h1) w29.dev = ChSt.shadow) ∧
    (dg.value = (9 : W32)) := by decide +kernel
theorem witness_TwinShadow_7 : (w29.dev.twin.link = true) ∧
    (w29.dev.twin.role = Role.standby) ∧
    (current h1 w29.dev = true) ∧
    (List.find? (fun y => decide (y.handle = h1 ∧ y.pass = (4000000 : NT32))) w29.dev.twin.digests = some dg) ∧
    (chSt (hSlot h1) w29.dev = ChSt.shadow) ∧
    (dg.value ≠ (8 : W32)) := by decide +kernel
def w30 := (Sh (fun w => { w with digests := [dg], ch := [(3, .resync)], installed := [(h1, 4000000)] }) id)
theorem witness_TwinShadow_8 : (w30.dev.twin.link = true) ∧
    (w30.dev.twin.role = Role.standby) ∧
    (w30.dev.twin.ingress = []) ∧
    (w30.dev.path.waiting = []) ∧
    (w30.dev.path.trunkIn = []) ∧
    (ir.frame = none) ∧
    (ir.trunk = none) ∧
    ((5000 : ℤ) ≤ sdiff (now w30.dev) (4000000 : NT32)) ∧
    (current h1 w30.dev = true) ∧
    (List.find? (fun y => decide (y.handle = h1 ∧ y.pass = (4000000 : NT32))) w30.dev.twin.digests = some dg) ∧
    (chSt (hSlot h1) w30.dev = ChSt.resync) ∧
    ((w30.dev.twin.installed.any fun y => decide (y.1 = h1)) = true) ∧
    (dg.value = (9 : W32)) ∧
    (chSt (hSlot h1) w30.dev = ChSt.copying ∨ chSt (hSlot h1) w30.dev = ChSt.resync) ∧
    (w30.dev.weir.tokens = []) := by decide +kernel
def w33 := (Sh id (fun d => { d with path := { d.path with trunkIn := [y0] } }))
theorem witness_TwinShadow_9 : (w33.dev.twin.link = true) ∧
    (w33.dev.twin.role = Role.standby) ∧
    (w33.dev.path.waiting = []) ∧
    (w33.dev.path.trunkIn = [y0]) ∧
    ((2000000 : ℤ) ≤ sdiff (now w33.dev) y0.at_) := by decide +kernel
def w34 := (Sh id (fun d => { d with path := { d.path with trunkIn := [{ y0 with at_ := 3000001 }] } }))
def w35 := { y0 with at_ := 3000001 }
theorem witness_TwinShadow_10 : (w34.dev.twin.link = true) ∧
    (w34.dev.twin.role = Role.standby) ∧
    (w34.dev.path.waiting = []) ∧
    (w34.dev.path.trunkIn = [w35]) ∧
    (sdiff (now w34.dev) w35.at_ < (2000000 : ℤ)) := by decide +kernel
def w36 := (tw (fun w => { w with role := .active, link := true, seen := true, peerRole := 3, hbAt := some 5000000 }) id)
theorem witness_TwinMessages_4 : (w36.dev.twin.link = true) ∧
    (w36.dev.twin.seen = true) ∧
    (w36.dev.twin.role = Role.active) ∧
    (w36.dev.twin.sent = []) ∧
    (paired w36.dev = true) ∧
    (current h1 w36.dev = true) := by decide +kernel
def w38 := (tw (fun w => { w with role := .active, link := true, seen := true, peerRole := 3, sent := [(ir1, 6000000)] }) id)
theorem witness_TwinMessages_5 : (w38.dev.twin.link = true) ∧
    (w38.dev.twin.role = Role.active) ∧
    (w38.dev.twin.sent = [(ir1, (6000000 : NT32))]) := by decide +kernel
end C11

/-! ### Witnesses: recording and flash -/

namespace C12
def un : RecUnit := ⟨1, 1, hnd 1 1 3, 7, false, false, false, 5000000, [1, 2, 3], 5000000⟩
def sp (st : Nat) (l : List (Nat × RecUnit)) (f : Dev → Dev) : State := tSt (f { tPart with recd := { tPart.recd with spools := [(1, { Spool.reset with st := st, units := l })], wbuf := [(0, 1, 16320), (1, 1, 15 * 16320)] }, rings := [(ringKey 1 2, { Ring.reset with base := 0x4000, dataBase := 0x8000, sizeLog2 := 6, enable := true, prod := 67, cons := 4 })] })
def w1 := (sp 2 [(1, un), (2, un)] (setr [(rREC_SP_SEL, 1)]))
theorem witness_NougatAndSpool_1 : (1 < 1024) ∧
    ((spool 1 w1.dev).st = 2) ∧
    ((spool 1 w1.dev).units = [(1, un), (2, un)]) ∧
    (w1.dev.twin.role ≠ Role.standby) ∧
    ((ring (ringKey 1 2) w1.dev).enable = true) ∧
    ((ring (ringKey 1 2) w1.dev).lost = (0 : W32)) ∧
    (1 ≤ (ring (ringKey 1 2) w1.dev).room) ∧
    (pathDown 1 w1.dev = false) ∧
    (drainDue w1.dev = true) := by decide +kernel
theorem witness_NougatAndSpool_2 : ((spool 1 (sp 2 [] id).dev).units = []) ∧
    (HostUp (sp 2 [] id).dev) ∧
    ((sp 2 [] id).dev.twin.role ≠ Role.standby) ∧
    ((List.map (fun w => w.2.2) (sp 2 [] id).dev.recd.wbuf).sum ≤ 16 * 16320) := by decide +kernel
def w2 := (sp 2 [(1, un)] (fun d => { setr [(rREC_DRAIN, 2)] d with recd := { d.recd with drains := (0, 2) } }))
theorem witness_NougatAndSpool_3 : (1 < 1024) ∧
    ((spool 1 w2.dev).st = 2) ∧
    ((spool 1 w2.dev).units = [(1, un)]) ∧
    (w2.dev.twin.role ≠ Role.standby) ∧
    ((ring (ringKey 1 2) w2.dev).enable = true) ∧
    ((ring (ringKey 1 2) w2.dev).lost = (0 : W32)) ∧
    (1 ≤ (ring (ringKey 1 2) w2.dev).room) ∧
    (pathDown 1 w2.dev = false) ∧
    (drainDue w2.dev = false) := by decide +kernel
def fx (f : Flash → Flash) (flush : Bool) (r off len : Nat) (g : Dev → Dev) : State := tSt (g (setr [(rFLASH_XF_REGION, r), (rFLASH_XF_OFFSET, off), (rFLASH_XF_LEN, len), (rFLASH_XF_HOST, 0x10000), (rFLASH_SCRUB_CTRL, 0x0500001E), (rFLASH_LIFE, 79), (rFLASH_WL_SPREAD, 10)] { tDev with flash := f tDev.flash, recd := { tDev.recd with flushing := flush } }))
def xf (op : Nat) : FlashXf := ⟨op, 1, 2, 3, 0x10000, 77⟩
def cals (a b : Nat) (f : Flash) : Flash := { f with calA := ⟨true, a, 5⟩, calB := ⟨true, b, 6⟩ }
def w3 := (fx (fun f => { f with xf := some (xf 1) }) false 1 0 4096 id)
theorem witness_FlashTransfers_1 : (HostUp w3.dev) ∧
    ((1, Instr.flashRead) ∈ [(1, Instr.flashRead), (2, Instr.flashWrite 77), (3, Instr.flashErase), (4, Instr.calStore 77), (5, Instr.format)]) ∧
    (w3.dev.flash.xf ≠ none) ∧
    (w3.dev.flash.xf = some (xf 1)) ∧
    ((xf 1).op ∈ [1, 2, 3, 5]) ∧
    (3 = 3 ∨ 3 = 4) ∧
    ((xf 1).op = 1) ∧
    (fld (rg rFLASH_SCRUB_CTRL w3.dev) 31 24 < 6 ∨ w3.dev.tb.servo = Servo.locked ∧ fld (rg rFLASH_SCRUB_CTRL w3.dev) 15 0 < 10) := by decide +kernel
theorem witness_FlashTransfers_2 : (HostUp (fx id true 1 0 4096 id).dev) ∧
    ((1, Instr.flashRead) ∈ [(1, Instr.flashRead), (2, Instr.flashWrite 77), (3, Instr.flashErase), (4, Instr.calStore 77), (5, Instr.format)]) ∧
    ((fx id true 1 0 4096 id).dev.flash.xf = none) ∧
    ((fx id true 1 0 4096 id).dev.recd.flushing = true) ∧
    (5 ≤ fld (rg rFLASH_SCRUB_CTRL (fx id true 1 0 4096 id).dev) 31 24) ∧
    ((fx id true 1 0 4096 id).dev.tb.servo ≠ Servo.locked ∨ 30 ≤ fld (rg rFLASH_SCRUB_CTRL (fx id true 1 0 4096 id).dev) 15 0) := by decide +kernel
theorem witness_FlashTransfers_3 : (HostUp (fx id false 0 0 4096 id).dev) ∧
    ((2, Instr.flashWrite 77) ∈ [(1, Instr.flashRead), (2, Instr.flashWrite 77), (3, Instr.flashErase), (4, Instr.calStore 77), (5, Instr.format)]) ∧
    ((fx id false 0 0 4096 id).dev.flash.xf = none) ∧
    ((fx id false 0 0 4096 id).dev.recd.flushing = false) ∧
    (2 = 2 ∨ 2 = 3) ∧
    (bit (rg rPWR_BOOT_SLOT (fx id false 0 0 4096 id).dev) 1 = false) ∧
    (fld (rg rFLASH_XF_REGION (fx id false 0 0 4096 id).dev) 2 0 = fld (rg rPWR_BOOT_SLOT (fx id false 0 0 4096 id).dev) 0 0) := by decide +kernel
theorem witness_FlashTransfers_4 : (HostUp (fx id false 2 0 4096 id).dev) ∧
    ((3, Instr.flashErase) ∈ [(1, Instr.flashRead), (2, Instr.flashWrite 77), (3, Instr.flashErase), (4, Instr.calStore 77), (5, Instr.format)]) ∧
    ((fx id false 2 0 4096 id).dev.flash.xf = none) ∧
    ((fx id false 2 0 4096 id).dev.recd.flushing = false) ∧
    (3 ∈ [2, 3]) ∧
    (fld (rg rFLASH_XF_REGION (fx id false 2 0 4096 id).dev) 2 0 ∉ [0, 1, 3, 4]) := by decide +kernel
theorem witness_FlashTransfers_5 : (HostUp (fx id false 1 0 4096 id).dev) ∧
    ((4, Instr.calStore 77) ∈ [(1, Instr.flashRead), (2, Instr.flashWrite 77), (3, Instr.flashErase), (4, Instr.calStore 77), (5, Instr.format)]) ∧
    ((fx id false 1 0 4096 id).dev.flash.xf = none) ∧
    ((fx id false 1 0 4096 id).dev.recd.flushing = false) ∧
    (4 = 4) ∧
    (fld (rg rFLASH_XF_REGION (fx id false 1 0 4096 id).dev) 2 0 ≠ 2) := by decide +kernel
theorem witness_FlashTransfers_6 : (HostUp (fx id false 3 0 4096 id).dev) ∧
    ((5, Instr.format) ∈ [(1, Instr.flashRead), (2, Instr.flashWrite 77), (3, Instr.flashErase), (4, Instr.calStore 77), (5, Instr.format)]) ∧
    ((fx id false 3 0 4096 id).dev.flash.xf = none) ∧
    ((fx id false 3 0 4096 id).dev.recd.flushing = false) ∧
    (5 = 5) ∧
    (fld (rg rFLASH_XF_REGION (fx id false 3 0 4096 id).dev) 2 0 ≠ 4) ∧
    (fld (rg rFLASH_XF_REGION (fx id false 3 0 4096 id).dev) 2 0 ≠ 5) := by decide +kernel
theorem witness_FlashTransfers_7 : (HostUp (fx id false 1 0 4095 id).dev) ∧
    ((1, Instr.flashRead) ∈ [(1, Instr.flashRead), (2, Instr.flashWrite 77), (3, Instr.flashErase), (4, Instr.calStore 77), (5, Instr.format)]) ∧
    ((fx id false 1 0 4095 id).dev.flash.xf = none) ∧
    ((fx id false 1 0 4095 id).dev.recd.flushing = false) ∧
    (1 ∈ [1, 2, 3]) ∧
    (1 = 1 ∨ fld (rg rFLASH_XF_REGION (fx id false 1 0 4095 id).dev) 2 0 ≠ fld (rg rPWR_BOOT_SLOT (fx id false 1 0 4095 id).dev) 0 0) ∧
    (rgN rFLASH_XF_OFFSET (fx id false 1 0 4095 id).dev % 4096 ≠ 0 ∨ rgN rFLASH_XF_LEN (fx id false 1 0 4095 id).dev % 4096 ≠ 0 ∨ 67108864 < rgN rFLASH_XF_LEN (fx id false 1 0 4095 id).dev) := by decide +kernel
def w4 := (fx id false 1 (64 * 2 ^ 20) 67108864 id)
theorem witness_FlashTransfers_8 : (HostUp w4.dev) ∧
    ((2, Instr.flashWrite 77) ∈ [(1, Instr.flashRead), (2, Instr.flashWrite 77), (3, Instr.flashErase), (4, Instr.calStore 77), (5, Instr.format)]) ∧
    (w4.dev.flash.xf = none) ∧
    (w4.dev.recd.flushing = false) ∧
    (2 ∈ [1, 2, 3]) ∧
    (fld (rg rFLASH_XF_REGION w4.dev) 2 0 ∈ [0, 1, 3]) ∧
    (rgN rFLASH_XF_OFFSET w4.dev % 4096 = 0) ∧
    (rgN rFLASH_XF_LEN w4.dev % 4096 = 0) ∧
    (rgN rFLASH_XF_LEN w4.dev ≤ 67108864) ∧
    (rgN rFLASH_XF_OFFSET w4.dev + rgN rFLASH_XF_LEN w4.dev ≤ (if fld (rg rFLASH_XF_REGION w4.dev) 2 0 = 3 then 64 else 128) * 2 ^ 20) ∧
    (rgN rFLASH_XF_HOST w4.dev % 8 = 0) ∧
    (2 = 1 ∨ fld (rg rFLASH_XF_REGION w4.dev) 2 0 ≠ fld (rg rPWR_BOOT_SLOT w4.dev) 0 0) := by decide +kernel
def w5 := (fx (cals 8 (2 ^ 32 - 3)) false 2 0 4194048 id)
theorem witness_FlashTransfers_9 : (HostUp w5.dev) ∧
    ((4, Instr.calStore 77) ∈ [(1, Instr.flashRead), (2, Instr.flashWrite 77), (3, Instr.flashErase), (4, Instr.calStore 77), (5, Instr.format)]) ∧
    (w5.dev.flash.xf = none) ∧
    (w5.dev.recd.flushing = false) ∧
    (4 = 4) ∧
    (fld (rg rFLASH_XF_REGION w5.dev) 2 0 = 2) ∧
    (rgN rFLASH_XF_LEN w5.dev ≤ 4194048) ∧
    (rgN rFLASH_XF_HOST w5.dev % 8 = 0) ∧
    (w5.dev.flash.calA.seq < 2 ^ 32 - 2) ∧
    (w5.dev.flash.calB.seq < 2 ^ 32 - 2) := by decide +kernel
theorem witness_FlashTransfers_10 : (HostUp (fx id false 4 0 4096 id).dev) ∧
    ((5, Instr.format) ∈ [(1, Instr.flashRead), (2, Instr.flashWrite 77), (3, Instr.flashErase), (4, Instr.calStore 77), (5, Instr.format)]) ∧
    ((fx id false 4 0 4096 id).dev.flash.xf = none) ∧
    ((fx id false 4 0 4096 id).dev.recd.flushing = false) ∧
    (5 = 5) ∧
    (fld (rg rFLASH_XF_REGION (fx id false 4 0 4096 id).dev) 2 0 = 4 ∨ fld (rg rFLASH_XF_REGION (fx id false 4 0 4096 id).dev) 2 0 = 5) := by decide +kernel
def w7 := (fx (fun f => { f with xf := some (xf 3), sectors := [(sectorKey 1 2, 9), (sectorKey 1 5, 8)] }) false 1 0 4096 id)
theorem witness_FlashTransfers_11 : (w7.dev.flash.xf = some (xf 3)) ∧
    ((xf 3).op ∈ [2, 3]) := by decide +kernel
def w8 := (fx (fun f => { cals 9 8 f with xf := some (xf 4) }) false 2 0 4096 id)
theorem witness_FlashTransfers_12 : (w8.dev.flash.xf = some (xf 4)) ∧
    ((xf 4).op = 4) ∧
    (w8.dev.flash.calA.valid = true) ∧
    (w8.dev.flash.calB.valid = true) ∧
    (w8.dev.flash.calB.seq < w8.dev.flash.calA.seq) := by decide +kernel
def w9 := (fx (fun f => { cals 8 8 f with xf := some (xf 4) }) false 2 0 4096 id)
theorem witness_FlashTransfers_13 : (w9.dev.flash.xf = some (xf 4)) ∧
    ((xf 4).op = 4) ∧
    (w9.dev.flash.calA.valid = true) ∧
    (w9.dev.flash.calB.valid = true) ∧
    (w9.dev.flash.calA.seq ≤ w9.dev.flash.calB.seq) := by decide +kernel
def w10 := (fx (fun f => { cals 8 8 f with xf := some (xf 5), log := [3] }) false 2 0 4096 id)
theorem witness_FlashTransfers_14 : (w10.dev.flash.xf = some (xf 5)) ∧
    ((xf 5).op = 5) := by decide +kernel
end C12

/-! ### Witnesses: lines and the SCE -/

namespace C13
def ln (n : Nat) (l : Line) (f : Lfe → Lfe) (regs : List (Nat × Nat)) (g : Dev → Dev) : State := tSt (g (setr ([(rHIF_FUSE_CAP, 3)] ++ regs) { tDev with lfe := f { tDev.lfe with lines := [(n, l)] } }))
def ev (k : DKind) (t : NT32) : DEvent := ⟨t, 0, k, false⟩
def dl (e : DEvent) (d : Dev) : Dev := { d with weir := { d.weir with dl := [(6, [e])] } }
def rr : List (Nat × Nat) := [(kLine 31 oLFE_LN_RING, 2001 * 65536 + 4000), (kLine 31 oLFE_LN_RING_CTRL, 0x0500), (kLine 31 oLFE_LN_RING_ON_CMD, 0x123), (kLine 31 oLFE_LN_RING_OFF_CMD, 0x456), (kLine 31 oLFE_LN_CFG, 0x10000005)]
def rd : Line := { Line.reset with cadence := true }
def w1 := (ln 31 rd id rr (dl (ev (.ringOn 31) 5000000)))
theorem witness_LineCadencesAndResets_1 : (dlist 6 w1.dev = [ev (DKind.ringOn 31) (5000000 : NT32)]) ∧
    ((ev (DKind.ringOn 31) (5000000 : NT32)).handle = (0 : W32)) ∧
    (reached w1.dev (ev (DKind.ringOn 31) (5000000 : NT32)).target = true) ∧
    (drivesLines w1.dev = true) ∧
    (w1.dev.sce.txq.length < 64) ∧
    ((ev (DKind.ringOn 31) (5000000 : NT32)).kind = DKind.ringOn 31) ∧
    ((line 31 w1.dev).cadence = true) ∧
    ((line 31 w1.dev).left = 0) ∧
    (sdiff (now w1.dev) (ev (DKind.ringOn 31) (5000000 : NT32)).target ≤ ↑(min (fld (lnReg 31 oLFE_LN_RING w1.dev) 31 16 * 1000000) 2000000000)) := by decide +kernel
def w2 := (ln 31 { rd with ringOn := true } id rr (dl (ev (.ringOff 31) 4999999)))
theorem witness_LineCadencesAndResets_2 : (dlist 6 w2.dev = [ev (DKind.ringOff 31) (4999999 : NT32)]) ∧
    ((ev (DKind.ringOff 31) (4999999 : NT32)).handle = (0 : W32)) ∧
    (reached w2.dev (ev (DKind.ringOff 31) (4999999 : NT32)).target = true) ∧
    (drivesLines w2.dev = true) ∧
    (w2.dev.sce.txq.length < 64) ∧
    ((ev (DKind.ringOff 31) (4999999 : NT32)).kind = DKind.ringOff 31) ∧
    ((line 31 w2.dev).cadence = true) ∧
    ((line 31 w2.dev).left = 0) ∧
    (sdiff (now w2.dev) (ev (DKind.ringOff 31) (4999999 : NT32)).target ≤ ↑(fld (lnReg 31 oLFE_LN_RING_CTRL w2.dev) 15 8 * 1000000)) ∧
    (sdiff (now w2.dev) (ev (DKind.ringOff 31) (4999999 : NT32)).target ≤ ↑(fld (lnReg 31 oLFE_LN_RING w2.dev) 15 0 * 1000000)) := by decide +kernel
def w3 := (ln 31 { rd with left := 1000000 } id rr (dl (ev (.ringOff 31) 5000000)))
theorem witness_LineCadencesAndResets_3 : (dlist 6 w3.dev = [ev (DKind.ringOff 31) (5000000 : NT32)]) ∧
    ((ev (DKind.ringOff 31) (5000000 : NT32)).handle = (0 : W32)) ∧
    (reached w3.dev (ev (DKind.ringOff 31) (5000000 : NT32)).target = true) ∧
    (drivesLines w3.dev = true) ∧
    (w3.dev.sce.txq.length < 64) ∧
    ((line 31 w3.dev).left ≠ 0) ∧
    ((line 31 w3.dev).cadence = true) ∧
    (sdiff (now w3.dev) (ev (DKind.ringOff 31) (5000000 : NT32)).target ≤ ↑(min (line 31 w3.dev).left 2000000000)) ∧
    ((ev (DKind.ringOff 31) (5000000 : NT32)).kind = (DKind.ringOff 31, Instr.ringOff 31).1) := by decide +kernel
def w4 := (ln 31 { rd with left := 3000000000 } id rr (dl (ev (.ringOn 31) 5000000)))
theorem witness_LineCadencesAndResets_4 : (dlist 6 w4.dev = [ev (DKind.ringOn 31) (5000000 : NT32)]) ∧
    ((ev (DKind.ringOn 31) (5000000 : NT32)).handle = (0 : W32)) ∧
    (reached w4.dev (ev (DKind.ringOn 31) (5000000 : NT32)).target = true) ∧
    (drivesLines w4.dev = true) ∧
    (w4.dev.sce.txq.length < 64) ∧
    ((line 31 w4.dev).left ≠ 0) ∧
    ((line 31 w4.dev).cadence = true) ∧
    (sdiff (now w4.dev) (ev (DKind.ringOn 31) (5000000 : NT32)).target ≤ ↑(min (line 31 w4.dev).left 2000000000)) ∧
    ((ev (DKind.ringOn 31) (5000000 : NT32)).kind = (DKind.ringOn 31, Instr.ringOn 31).1) := by decide +kernel
def w5 := (ln 31 { rd with guardEnd := some 5000000 } id rr (dl (ev (.blankEnd 31) 5000000)))
theorem witness_LineCadencesAndResets_5 : (dlist 6 w5.dev = [ev (DKind.blankEnd 31) (5000000 : NT32)]) ∧
    ((ev (DKind.blankEnd 31) (5000000 : NT32)).handle = (0 : W32)) ∧
    (reached w5.dev (ev (DKind.blankEnd 31) (5000000 : NT32)).target = true) ∧
    (drivesLines w5.dev = true) ∧
    (w5.dev.sce.txq.length < 64) ∧
    ((ev (DKind.blankEnd 31) (5000000 : NT32)).kind = DKind.blankEnd 31) ∧
    ((line 31 w5.dev).guardEnd = some (ev (DKind.blankEnd 31) (5000000 : NT32)).target) := by decide +kernel
def w6 := (ln 31 { rd with stopAt := some 5000001, settleEnd := some 5000001 } id rr id)
theorem witness_LineCadencesAndResets_6 : ((line 31 w6.dev).stopAt = some (5000001 : NT32)) ∧
    (reached w6.dev (5000001 : NT32) = false) ∧
    ((line 31 w6.dev).settleEnd = some (5000001 : NT32)) ∧
    (HostUp w6.dev) ∧
    (hasLfe w6.dev = true) ∧
    (sdiff (BitVec.ofNat 32 (rgN rLFE_COM_RESET_AT w6.dev)) w6.dev.weir.nextP < (0 : ℤ) ∨ (2000000000 : ℤ) < sdiff (BitVec.ofNat 32 (rgN rLFE_COM_RESET_AT w6.dev)) w6.dev.weir.nextP ∨ sdiff (BitVec.ofNat 32 (rgN rLFE_COM_RESET_AT w6.dev)) w6.dev.weir.nextP % (1000000 : ℤ) ≠ (0 : ℤ)) := by decide +kernel
def w7 := (ln 31 { rd with stopAt := some 5000000, settleEnd := some 5000000 } id rr id)
theorem witness_LineCadencesAndResets_7 : ((line 31 w7.dev).stopAt = some (5000000 : NT32)) ∧
    (reached w7.dev (5000000 : NT32) = true) ∧
    (dlist 6 w7.dev = []) ∧
    ((line 31 w7.dev).ringOn = false) ∧
    ((line 31 w7.dev).settleEnd = some (5000000 : NT32)) := by decide +kernel
def w8 := (ln 31 { rd with ringOn := true, stopAt := some 5000000, settleEnd := some 5000000 } id rr id)
theorem witness_LineCadencesAndResets_8 : ((line 31 w8.dev).stopAt = some (5000000 : NT32)) ∧
    (reached w8.dev (5000000 : NT32) = true) ∧
    (dlist 6 w8.dev = []) ∧
    ((line 31 w8.dev).ringOn = true) ∧
    (drivesLines w8.dev = true) ∧
    (w8.dev.sce.txq.length < 64) ∧
    (sdiff (now w8.dev) (5000000 : NT32) ≤ ↑(fld (lnReg 31 oLFE_LN_RING_CTRL w8.dev) 15 8 * 1000000)) := by decide +kernel
def w9 := (ln 31 rd id ([(rLFE_COM_RESET_AT, 6000000)] ++ rr) id)
theorem witness_LineCadencesAndResets_9 : (dlist 6 w9.dev = []) ∧
    ((line 31 w9.dev).stopAt = none) ∧
    ((line 31 w9.dev).settleEnd = none) ∧
    (hasLfe w9.dev = true) ∧
    (HostUp w9.dev) ∧
    ((0 : ℤ) ≤ sdiff (BitVec.ofNat 32 (rgN rLFE_COM_RESET_AT w9.dev)) w9.dev.weir.nextP) ∧
    (sdiff (BitVec.ofNat 32 (rgN rLFE_COM_RESET_AT w9.dev)) w9.dev.weir.nextP ≤ (2000000000 : ℤ)) ∧
    (sdiff (BitVec.ofNat 32 (rgN rLFE_COM_RESET_AT w9.dev)) w9.dev.weir.nextP % (1000000 : ℤ) = (0 : ℤ)) ∧
    (∀ r ∈ w9.dev.lfe.resets, reached w9.dev r = false) := ⟨by decide +kernel,
    by decide +kernel,
    by decide +kernel,
    by decide +kernel,
    by decide +kernel,
    by decide +kernel,
    by decide +kernel,
    by decide +kernel,
    fun r h => by rw [show w9.dev.lfe.resets = [] by decide +kernel] at h; cases h⟩
def w11 := (ln 31 rd (fun l => { l with resets := [5000000] }) rr id)
theorem witness_LineCadencesAndResets_10 : (w11.dev.lfe.resets = [(5000000 : NT32)]) ∧
    (reached w11.dev (5000000 : NT32) = true) := by decide +kernel
theorem witness_LineCadencesAndResets_11 : (hasLfe (tSt (setr [(rHIF_FUSE_CAP, 2)] tDev)).dev = false) := by decide +kernel
def tok : Token := ⟨false, hnd 1 1 3, 5000000, false, true, true, true, .none, .none, [], false, false, false, false, 1580, 0⟩
def sup (l : Line) (cfg : Nat) (regs : List (Nat × Nat)) (g : Dev → Dev) : State := ln 7 l id ([(kLine 7 oLFE_LN_CFG, cfg)] ++ regs) g
def ringD (d : Dev) : Dev := { d with rings := [(0, { Ring.reset with base := 0x1000, sizeLog2 := 6, enable := true })] }
def sw (src deb : Nat) : List (Nat × Nat) := [(kLine 7 oLFE_LN_SW, 16 * 65536 + 2 * 256 + src * 32 + 16 + deb)]
def w18 := (sup { Line.reset with range := 1, rangedAt := some 3000000 } 0x80800000 [] id)
theorem witness_LineSupervisionAndLeg_1 : (hasLfe w18.dev = true) ∧
    (7 < 32) ∧
    (w18.dev.twin.role ≠ Role.standby) ∧
    ((line 7 w18.dev).sw.length = 4) ∧
    ((line 7 w18.dev).deb.length = 4) ∧
    ((line 7 w18.dev).sampled ≠ some (sampleTime w18.dev)) ∧
    (bit (lnReg 7 oLFE_LN_CFG w18.dev) 23 = true) ∧
    ((match (line 7 w18.dev).rangedAt with | some y => decide (BitVec.toNat y + 2000000 ≤ BitVec.toNat (now64 w18.dev)) | none => true) = true) ∧
    (1152 < (BitVec.toInt (25 : BitVec 8)).natAbs * 10 ∧ 0 = (line 7 w18.dev).range + 1 ∨ (BitVec.toInt (25 : BitVec 8)).natAbs * 10 < 256 ∧ 2000 ≤ 2000 ∧ 0 + 1 = (line 7 w18.dev).range) ∧
    (HostUp w18.dev) ∧
    (fld (1 : W32) 22 21 ≤ 2 ∧ fld (1 : W32) 20 19 ≤ 2 ∧ fld (1 : W32) 18 16 ≤ 4 ∧ (fld (1 : W32) 18 16 = 0 ∨ fld (1 : W32) 31 30 = 3) ∧ fld (1 : W32) 9 0 ≤ 1000) ∧
    (bit (1 : W32) 0 = true) ∧
    (lineLeg (BitVec.ofNat 32 (rgN (kLine 7 oLFE_LN_BIND) w18.dev)) (fld (1 : W32) 1 1) w18.dev = false) ∧
    ((line 7 w18.dev).bound = none) ∧
    (decide (0 < 0) = (line 7 w18.dev).sat) := by decide +kernel
def w19 := (sup { Line.reset with range := 2 } 0x80800000 [] id)
theorem witness_LineSupervisionAndLeg_2 : (hasLfe w19.dev = true) ∧
    (7 < 32) ∧
    (w19.dev.twin.role ≠ Role.standby) ∧
    ((line 7 w19.dev).sw.length = 4) ∧
    ((line 7 w19.dev).deb.length = 4) ∧
    (bit (lnReg 7 oLFE_LN_CFG w19.dev) 23 = true) ∧
    ((match (line 7 w19.dev).rangedAt with | some y => decide (BitVec.toNat y + 2000000 ≤ BitVec.toNat (now64 w19.dev)) | none => true) = true) ∧
    (1152 < (BitVec.toInt (25 : BitVec 8)).natAbs * 10 ∧ 1 = (line 7 w19.dev).range + 1 ∨ (BitVec.toInt (25 : BitVec 8)).natAbs * 10 < 256 ∧ 2000 ≤ 2000 ∧ 1 + 1 = (line 7 w19.dev).range) ∧
    (HostUp w19.dev) ∧
    (¬(fld (6291457 : W32) 22 21 ≤ 2 ∧ fld (6291457 : W32) 20 19 ≤ 2 ∧ fld (6291457 : W32) 18 16 ≤ 4 ∧ (fld (6291457 : W32) 18 16 = 0 ∨ fld (6291457 : W32) 31 30 = 3) ∧ fld (6291457 : W32) 9 0 ≤ 1000)) := by decide +kernel
def rtc : List (Nat × Nat) := [(kLine 7 oLFE_LN_RING_CTRL, 0x0502)]
def w23 := (sup { Line.reset with sampled := some 5000000 } 0x80000000 (sw 5 3 ++ rtc) ringD)
theorem witness_LineSupervisionAndLeg_3 : (hasLfe w23.dev = true) ∧
    (7 < 32) ∧
    (w23.dev.twin.role ≠ Role.standby) ∧
    ((line 7 w23.dev).sw.length = 4) ∧
    ((line 7 w23.dev).deb.length = 4) ∧
    ((line 7 w23.dev).sampled = some (sampleTime w23.dev)) ∧
    (bit (lnReg 7 oLFE_LN_CFG w23.dev) 23 = false ∨ (match (line 7 w23.dev).rangedAt with | some y => decide (BitVec.toNat y + 2000000 ≤ BitVec.toNat (now64 w23.dev)) | none => true) = false ∨ (BitVec.toInt (0 : BitVec 8)).natAbs * 10 ≤ 1152 ∧ (256 ≤ (BitVec.toInt (0 : BitVec 8)).natAbs * 10 ∨ 1999 < 2000) ∨ 1152 < (BitVec.toInt (0 : BitVec 8)).natAbs * 10 ∧ 2 ≤ (line 7 w23.dev).range ∨ (BitVec.toInt (0 : BitVec 8)).natAbs * 10 < 256 ∧ (line 7 w23.dev).range = 0) ∧
    (HostUp w23.dev) ∧
    (bit (0 : W32) 0 = false) := by decide +kernel
def lin : Slot := { actSlot 1 with desc := (zd.set 4 2).set 18 2 }
def h1 : W32 := hnd 1 1 3
def w24 := (sup Line.reset 0x80800000 [(kLine 7 oLFE_LN_BIND, h1.toNat)] (slotDev 3 lin))
theorem witness_LineSupervisionAndLeg_4 : (hasLfe w24.dev = true) ∧
    (7 < 32) ∧
    (w24.dev.twin.role ≠ Role.standby) ∧
    ((line 7 w24.dev).sw.length = 4) ∧
    ((line 7 w24.dev).deb.length = 4) ∧
    (HostUp w24.dev) ∧
    (bit (1 : W32) 0 = true) ∧
    (lineLeg (BitVec.ofNat 32 (rgN (kLine 7 oLFE_LN_BIND) w24.dev)) (fld (1 : W32) 1 1) w24.dev = true) ∧
    (∀ j < 32, j ≠ 7 → feeds j (BitVec.ofNat 32 (rgN (kLine 7 oLFE_LN_BIND) w24.dev)) (fld (1 : W32) 1 1) w24.dev = false) := by decide +kernel
def w25 := (sup Line.reset 0x80800000 [(kLine 7 oLFE_LN_BIND, h1.toNat)] (fun d => { slotDev 3 lin d with lfe := { d.lfe with lines := (7, Line.reset) :: [(31, { Line.reset with bound := some (h1, 0) })] } }))
theorem witness_LineSupervisionAndLeg_5 : (hasLfe w25.dev = true) ∧
    (7 < 32) ∧
    (w25.dev.twin.role ≠ Role.standby) ∧
    ((line 7 w25.dev).sw.length = 4) ∧
    ((line 7 w25.dev).deb.length = 4) ∧
    (HostUp w25.dev) ∧
    (bit (1 : W32) 0 = true) ∧
    (lineLeg (BitVec.ofNat 32 (rgN (kLine 7 oLFE_LN_BIND) w25.dev)) (fld (1 : W32) 1 1) w25.dev = true) ∧
    (∃ j < 32, j ≠ 7 ∧ feeds j (BitVec.ofNat 32 (rgN (kLine 7 oLFE_LN_BIND) w25.dev)) (fld (1 : W32) 1 1) w25.dev = true) := by decide +kernel
def w26 := (sup { Line.reset with bound := some (h1, 0), range := 3 } 0x80800000 [] (fun d => { slotDev 3 lin d with weir := { d.weir with tokens := [tok] } }))
theorem witness_LineSupervisionAndLeg_6 : (hasLfe w26.dev = true) ∧
    (7 < 32) ∧
    (w26.dev.twin.role ≠ Role.standby) ∧
    ((line 7 w26.dev).sw.length = 4) ∧
    ((line 7 w26.dev).deb.length = 4) ∧
    (bit (lnReg 7 oLFE_LN_CFG w26.dev) 23 = true) ∧
    ((match (line 7 w26.dev).rangedAt with | some y => decide (BitVec.toNat y + 2000000 ≤ BitVec.toNat (now64 w26.dev)) | none => true) = true) ∧
    (1152 < (BitVec.toInt (25 : BitVec 8)).natAbs * 10 ∧ 2 = (line 7 w26.dev).range + 1 ∨ (BitVec.toInt (25 : BitVec 8)).natAbs * 10 < 256 ∧ 2000 ≤ 2000 ∧ 2 + 1 = (line 7 w26.dev).range) ∧
    ((line 7 w26.dev).bound = some (tok.handle, 0)) ∧
    ((line 7 w26.dev).sat = false) ∧
    ((line 7 w26.dev).rate = 0) ∧
    (w26.dev.twin.role = Role.alone) ∧
    (faulted 336 w26.dev = false) ∧
    (w26.dev.weir.tokens = [tok]) ∧
    (tok.bus = false) ∧
    (tok.pass = w26.dev.weir.nextP - (1000000 : NT32)) ∧
    (tok.fillA = false) ∧
    (tok.elig = false) := by decide +kernel
def sc (f : Sce → Sce) (pm : W32) (g : Dev → Dev) : State := tSt (g (setr [(rHIF_FUSE_CAP, 3), (rSCE_STALL_MAX, 5), (rSCE_START, 0x1FF), (rSCE_PM_ADDR, 511)] { tDev with sce := f { tDev.sce with pm := [(5, pm)], pc := 5, ready := true } }))
def run (f : Sce → Sce) : Sce → Sce := fun e => f { e with st := .running }
theorem witness_SerialControlEngine_1 : (hasSce (sc id (0 : W32) id).dev = true) ∧
    ((sc id (0 : W32) id).dev.sce.st ≠ SceSt.running ∨ fld (sceWord (sc id (0 : W32) id).dev) 31 28 ≤ 8 ∧ fld (sceWord (sc id (0 : W32) id).dev) 31 28 ≠ (7, Instr.sceJqe).1) ∧
    (HostUp (sc id (0 : W32) id).dev) ∧
    ((sc id (0 : W32) id).dev.sce.st = SceSt.halted) := by decide +kernel
theorem witness_SerialControlEngine_2 : (hasSce (sc (run id) (2415919104 : W32) id).dev = true) ∧
    ((sc (run id) (2415919104 : W32) id).dev.sce.st = SceSt.running) ∧
    (8 < fld (sceWord (sc (run id) (2415919104 : W32) id).dev) 31 28) := by decide +kernel
theorem witness_SerialControlEngine_3 : (hasSce (sc (run id) (0 : W32) id).dev = true) ∧
    ((sc (run id) (0 : W32) id).dev.sce.st = SceSt.running) ∧
    (fld (sceWord (sc (run id) (0 : W32) id).dev) 31 28 = 0) ∧
    ((sc (run id) (0 : W32) id).dev.sce.haltPend = false) := by decide +kernel
theorem witness_SerialControlEngine_4 : (hasSce (sc (run id) (268435456 : W32) id).dev = true) ∧
    ((sc (run id) (268435456 : W32) id).dev.sce.st = SceSt.running) ∧
    (fld (sceWord (sc (run id) (268435456 : W32) id).dev) 31 28 = 1) ∧
    ((sc (run id) (268435456 : W32) id).dev.sce.txq = []) := by decide +kernel
def w28 := (sc (run fun e => { e with txq := [9, 4] }) 0x10000000 id)
theorem witness_SerialControlEngine_5 : (hasSce w28.dev = true) ∧
    (w28.dev.sce.st = SceSt.running) ∧
    (fld (sceWord w28.dev) 31 28 = 1) ∧
    (w28.dev.sce.txq = [(9 : W32), (4 : W32)]) ∧
    (w28.dev.sce.haltPend = false) := by decide +kernel
theorem witness_SerialControlEngine_6 : (hasSce (sc (run id) (553648127 : W32) id).dev = true) ∧
    ((sc (run id) (553648127 : W32) id).dev.sce.st = SceSt.running) ∧
    (fld (sceWord (sc (run id) (553648127 : W32) id).dev) 31 28 = 2) ∧
    ((sc (run id) (553648127 : W32) id).dev.sce.haltPend = false) := by decide +kernel
def w29 := (sc (run fun e => { e with sr := 0x80000001, rxsr := 0xFFFFFFFF }) 0x30000060 id)
theorem witness_SerialControlEngine_7 : (hasSce w29.dev = true) ∧
    (w29.dev.sce.st = SceSt.running) ∧
    (fld (sceWord w29.dev) 31 28 = 3) ∧
    (drivesLines w29.dev = true) ∧
    (0 < 31) ∧
    (31 < min (fld (sceWord w29.dev) 5 0) 32) ∧
    (w29.dev.sce.haltPend = false) := by decide +kernel
def w30 := (sc (run fun e => { e with sr := 0x80000001, rxsr := 0xFFFFFFFF, haltPend := true }) 0x30000008 id)
theorem witness_SerialControlEngine_8 : (hasSce w30.dev = true) ∧
    (w30.dev.sce.st = SceSt.running) ∧
    (fld (sceWord w30.dev) 31 28 = 3) ∧
    (drivesLines w30.dev = true) ∧
    (w30.dev.sce.ready = true ∨ min (fld (sceWord w30.dev) 5 0) 32 = 0) ∧
    (0 < 7) ∧
    (7 < min (fld (sceWord w30.dev) 5 0) 32) ∧
    (w30.dev.sce.haltPend = true) := by decide +kernel
def w31 := (sc (run fun e => { e with ready := false }) 0x30000008 id)
theorem witness_SerialControlEngine_9 : (hasSce w31.dev = true) ∧
    (w31.dev.sce.st = SceSt.running) ∧
    (fld (sceWord w31.dev) 31 28 = 3) ∧
    (drivesLines w31.dev = true) ∧
    (w31.dev.sce.ready = false) ∧
    (0 < min (fld (sceWord w31.dev) 5 0) 32) ∧
    (w31.dev.sce.haltPend = false) := by decide +kernel
def w32 := (sc (run fun e => { e with ready := false, haltPend := true }) 0x30000008 id)
theorem witness_SerialControlEngine_10 : (hasSce w32.dev = true) ∧
    (w32.dev.sce.st = SceSt.running) ∧
    (fld (sceWord w32.dev) 31 28 = 3) ∧
    (drivesLines w32.dev = true) ∧
    (w32.dev.sce.ready = false) ∧
    (0 < min (fld (sceWord w32.dev) 5 0) 32) ∧
    (w32.dev.sce.haltPend = true) := by decide +kernel
def w33 := (sc (run id) 0x30000008 fun d => { d with twin := { d.twin with own := false, peer := true } })
theorem witness_SerialControlEngine_11 : (hasSce w33.dev = true) ∧
    (w33.dev.sce.st = SceSt.running) ∧
    (fld (sceWord w33.dev) 31 28 = 3) ∧
    (drivesLines w33.dev = false) := by decide +kernel
def w34 := (sc (run fun e => { e with rxsr := 7 }) 0x40000000 id)
theorem witness_SerialControlEngine_12 : (hasSce w34.dev = true) ∧
    (w34.dev.sce.st = SceSt.running) ∧
    (fld (sceWord w34.dev) 31 28 = 4) ∧
    (w34.dev.sce.rxq.length < 64) ∧
    (w34.dev.sce.haltPend = false) := by decide +kernel
def w35 := (sc (run fun e => { e with rxq := List.replicate 64 1, txq := List.replicate 64 1 }) 0x40000000 id)
theorem witness_SerialControlEngine_13 : (hasSce w35.dev = true) ∧
    (w35.dev.sce.st = SceSt.running) ∧
    (fld (sceWord w35.dev) 31 28 = 4) ∧
    (64 ≤ w35.dev.sce.rxq.length) ∧
    (HostUp w35.dev) ∧
    (64 ≤ w35.dev.sce.txq.length) := by decide +kernel
def w36 := (sc (run fun e => { e with frame := true }) 0x50000001 id)
theorem witness_SerialControlEngine_14 : (hasSce w36.dev = true) ∧
    (w36.dev.sce.st = SceSt.running) ∧
    (fld (sceWord w36.dev) 31 28 = 5) := by decide +kernel
theorem witness_SerialControlEngine_15 : (hasSce (sc (run id) (1610613247 : W32) id).dev = true) ∧
    ((sc (run id) (1610613247 : W32) id).dev.sce.st = SceSt.running) ∧
    (fld (sceWord (sc (run id) (1610613247 : W32) id).dev) 31 28 = 6) ∧
    ((sc (run id) (1610613247 : W32) id).dev.sce.haltPend = false) := by decide +kernel
def w37 := (sc (run fun e => { e with txq := [1] }) 0x700001FF id)
theorem witness_SerialControlEngine_16 : (hasSce w37.dev = true) ∧
    (w37.dev.sce.st ≠ SceSt.running ∨ fld (sceWord w37.dev) 31 28 ≤ 8 ∧ fld (sceWord w37.dev) 31 28 ≠ (0, Instr.sceNop).1) ∧
    (w37.dev.sce.st ≠ SceSt.running ∨ fld (sceWord w37.dev) 31 28 ≤ 8 ∧ fld (sceWord w37.dev) 31 28 ≠ (1, Instr.scePop).1) ∧
    (w37.dev.sce.st ≠ SceSt.running ∨ fld (sceWord w37.dev) 31 28 ≤ 8 ∧ fld (sceWord w37.dev) 31 28 ≠ (2, Instr.sceLdi).1) ∧
    (w37.dev.sce.st ≠ SceSt.running ∨ fld (sceWord w37.dev) 31 28 ≤ 8 ∧ fld (sceWord w37.dev) 31 28 ≠ (3, Instr.sceShift (5 : W32)).1) ∧
    (w37.dev.sce.st ≠ SceSt.running ∨ fld (sceWord w37.dev) 31 28 ≤ 8 ∧ fld (sceWord w37.dev) 31 28 ≠ (4, Instr.scePush).1) ∧
    (w37.dev.sce.st ≠ SceSt.running ∨ fld (sceWord w37.dev) 31 28 ≤ 8 ∧ fld (sceWord w37.dev) 31 28 ≠ (5, Instr.sceGap).1) ∧
    (w37.dev.sce.st ≠ SceSt.running ∨ fld (sceWord w37.dev) 31 28 ≤ 8 ∧ fld (sceWord w37.dev) 31 28 ≠ (6, Instr.sceJmp).1) ∧
    (w37.dev.sce.st ≠ SceSt.running ∨ fld (sceWord w37.dev) 31 28 ≤ 8 ∧ fld (sceWord w37.dev) 31 28 ≠ (8, Instr.sceHaltInstr).1) ∧
    (w37.dev.sce.st = SceSt.running) ∧
    (fld (sceWord w37.dev) 31 28 = 7) ∧
    (w37.dev.sce.haltPend = false) ∧
    (w37.dev.sce.st ≠ SceSt.running ∨ fld (sceWord w37.dev) 31 28 ≠ 3 ∨ drivesLines w37.dev = false ∨ 3 = 0 ∨ min (fld (sceWord w37.dev) 5 0) 32 ≤ 3) ∧
    (w37.dev.sce.st ≠ SceSt.stalled) ∧
    (w37.dev.sce.st ≠ SceSt.stalled ∨ sdiff (now w37.dev) w37.dev.sce.stalledAt ≤ ↑(fld (rg rSCE_STALL_MAX w37.dev) 15 0) * (1000 : ℤ)) ∧
    (HostUp w37.dev) ∧
    (w37.dev.sce.st ≠ SceSt.halted) ∧
    (w37.dev.sce.txq.length < 64) := by decide +kernel
def w38 := (sc (run fun e => { e with haltPend := true }) 0x80000000 id)
theorem witness_SerialControlEngine_17 : (hasSce w38.dev = true) ∧
    (w38.dev.sce.st = SceSt.running) ∧
    (fld (sceWord w38.dev) 31 28 = 8) := by decide +kernel
def w39 := (sc (fun e => { e with st := .stalled, frame := true, shifted := 7, stalledAt := 4994999, ready := false, sr := 5 }) 0x30000048 id)
theorem witness_SerialControlEngine_18 : (hasSce w39.dev = true) ∧
    (w39.dev.sce.st = SceSt.stalled) ∧
    (w39.dev.sce.frame = true) ∧
    (↑(fld (rg rSCE_STALL_MAX w39.dev) 15 0) * (1000 : ℤ) < sdiff (now w39.dev) w39.dev.sce.stalledAt) ∧
    (HostUp w39.dev) ∧
    (7 = w39.dev.sce.shifted) ∧
    (7 < 2 ^ 31) := by decide +kernel
end C13

/-! ### Witnesses: clusters and fabric -/

namespace C14
def cl (cfg src : Nat) (c : Clu) (g : Dev → Dev) : State := tSt (g { setr [(rCLU_CFG, cfg), (rCLU_CABLE, 0xFFFF)] tDev with clu := c, tb := { tDev.tb with src := src } })
def c0 : Clu := tDev.clu
theorem witness_ClusterMessages_1 : (cluOn (cl 0 0 c0 id).dev = false) := by decide +kernel
theorem witness_ClusterMessages_2 : (isWorker (cl 2147483651 3 c0 id).dev = true) ∧
    (3 = fld (rg rCLU_CFG (cl 2147483651 3 c0 id).dev) 3 0) ∧
    ((cl 2147483651 3 c0 id).dev.pwr.st = DevSt.service) ∧
    ((cl 2147483651 3 c0 id).dev.clu.named = none) := by decide +kernel
def w1 := (cl 0x80000003 3 { c0 with named := some 5000000, missRun := 2 } id)
theorem witness_ClusterMessages_3 : (isWorker w1.dev = true) ∧
    (w1.dev.clu.missRun = 2) ∧
    (w1.dev.tb.servo = Servo.locked) := by decide +kernel
def w2 := (cl 0x80000003 3 { c0 with named := some 5000000, missRun := 1 } fun d => { d with lfe := { d.lfe with syncClu := true } })
theorem witness_ClusterMessages_4 : (isWorker w2.dev = true) ∧
    (15 ≠ fld (rg rCLU_CFG w2.dev) 3 0) ∧
    (w2.dev.pwr.st = DevSt.service) ∧
    (w2.dev.clu.named = some (5000000 : W64)) ∧
    (w2.dev.clu.missRun < 2) ∧
    ((0 : ℤ) ≤ ↑(BitVec.toNat (now64 w2.dev)) + BitVec.toInt (1000000 : W64)) ∧
    (↑(BitVec.toNat (now64 w2.dev)) + BitVec.toInt (1000000 : W64) < (2 : ℤ) ^ 64) ∧
    (w2.dev.clu.driving = false ∨ sdiff (now w2.dev) (w2.dev.weir.nextP - (1000000 : NT32)) < (100000 : ℤ)) ∧
    (w2.dev.clu.manager = false ∨ 15 = 0 ∨ 15 < 15) ∧
    (cluOn w2.dev = true) := by decide +kernel
def mg (c : Clu) (g : Dev → Dev) : State := cl 0x80000000 0 { c with manager := true, driving := true } g
def lat (d : Dev) : Dev := { d with weir := { d.weir with nextP := 5799999 } }
def lat1 (d : Dev) : Dev := { d with weir := { d.weir with nextP := 5800001 } }
def w7 := (mg { c0 with seq := 0xFFFF, members := 0x8002, missed := [(1, 2), (15, 2)] } lat1)
theorem witness_ClusterMessages_5 : (w7.dev.clu.driving = true) ∧
    ((100000 : ℤ) ≤ sdiff (now w7.dev) (w7.dev.weir.nextP - (1000000 : NT32))) ∧
    (sdiff (now w7.dev) (w7.dev.weir.nextP - (1000000 : NT32)) < (200000 : ℤ)) ∧
    (w7.dev.clu.sentAt ≠ some (now64 w7.dev + BitVec.ofInt 64 ((100000 : ℤ) - sdiff (now w7.dev) (w7.dev.weir.nextP - (1000000 : NT32))))) := by decide +kernel
def w8 := (mg { c0 with members := 0x8002, missed := [(1, 2), (15, 2)] } lat)
theorem witness_ClusterMessages_6 : (w8.dev.clu.driving = true) ∧
    ((200000 : ℤ) ≤ sdiff (now w8.dev) (w8.dev.weir.nextP - (1000000 : NT32))) ∧
    (w8.dev.clu.sentAt ≠ some (now64 w8.dev + BitVec.ofInt 64 ((200000 : ℤ) - sdiff (now w8.dev) (w8.dev.weir.nextP - (1000000 : NT32))))) ∧
    (1 = rgN rWEIR_PASS_CNT w8.dev % 15 + 1) ∧
    (w8.dev.clu.polled = none) := by decide +kernel
def w9 := (mg { c0 with members := 0x8002, polled := some 15, missed := [(1, 2), (15, 2)] } lat)
theorem witness_ClusterMessages_7 : (w9.dev.clu.driving = true) ∧
    ((200000 : ℤ) ≤ sdiff (now w9.dev) (w9.dev.weir.nextP - (1000000 : NT32))) ∧
    (w9.dev.clu.sentAt ≠ some (now64 w9.dev + BitVec.ofInt 64 ((200000 : ℤ) - sdiff (now w9.dev) (w9.dev.weir.nextP - (1000000 : NT32))))) ∧
    (1 = rgN rWEIR_PASS_CNT w9.dev % 15 + 1) ∧
    (w9.dev.clu.polled = some 15) ∧
    (1 ≤ 15) ∧
    (15 < 16) := by decide +kernel
def w12 := (mg { c0 with sentAt := some 4999999 } lat)
theorem witness_ClusterMessages_8 : (isWorker w12.dev = false) ∧
    (w12.dev.clu.sentAt = some (now64 w12.dev + BitVec.ofInt 64 ((if sdiff (now w12.dev) (w12.dev.weir.nextP - (1000000 : NT32)) < (200000 : ℤ) then (100000 : ℤ) else (200000 : ℤ)) - sdiff (now w12.dev) (w12.dev.weir.nextP - (1000000 : NT32))))) ∧
    (w12.dev.clu.manager = true) ∧
    (1 ≤ 1) ∧
    (1 ≤ 15) := by decide +kernel
def fregs : List (Nat × Nat) := [(rFAB_CFG, 0x80000000), (rFAB_ADDR, 0x80000005), (rFAB_PORTS, 0xF), (rFAB_DEV_ID, 0xAAAA0000FFF), (rFAB_HOP_NS, 700),
  (kMac 0 0 oMAC_STATUS, 1), (kMac 1 0 oMAC_STATUS, 1), (kMac 1 0 oMAC_CFG, 1518), (kMac 0 0 oMAC_CFG, 1518)]
def fb (f : Fab → Fab) (regs : List (Nat × Nat)) (g : Dev → Dev) : State :=
  tSt (g (let d := setr (fregs ++ regs) tDev; { d with fab := f d.fab, pages := [(macPage 0, { Hdr.reset with ctrl := 1 }), (macPage 1, { Hdr.reset with ctrl := 1 })] }))
def nb (p a : Nat) (i : W64) (m : Nat) : Neighbour := ⟨p, a, i, m, false⟩
def rt (a : Nat) (r : Route) : Nat × Option Route := (a, some r)
def r1 : Route := ⟨3, 9, 1, 5⟩
def r2 : Route := ⟨3, 9, 0, 5⟩
def r5 : Route := ⟨9, 4, 0, 5⟩
def r6 : Route := ⟨8, 9, 0, 1000000000⟩
def at4 (d : Dev) : Dev := { d with tb := { d.tb with acc := 4000000000#32 ++ 0#32 } }
theorem witness_FabricDiscoveryAndRoutes_1 : ((fb id [(rFAB_CFG, 0)] id).dev.twin.role ≠ Role.standby) ∧
    ((fb id [(rFAB_CFG, 0)] id).dev.fab.down = []) ∧
    ((fb id [(rFAB_CFG, 0)] id).dev.pwr.st ≠ DevSt.dormant) ∧
    (tabWf (fun _ => none) (fb id [(rFAB_CFG, 0)] id).dev.fab.routes = true) ∧
    (9 < 4096) ∧
    (12 < 4096) ∧
    ((fb id [(rFAB_CFG, 0)] id).dev.fab.helloAt ≠ some (BitVec.ofNat 64 (BitVec.toNat (now64 (fb id [(rFAB_CFG, 0)] id).dev) / 250000000 * 250000000))) ∧
    (fabSends (fb id [(rFAB_CFG, 0)] id).dev = false) ∧
    (fabPortOn 1 (fb id [(rFAB_CFG, 0)] id).dev = false) ∧
    (routeTo 12 (fb id [(rFAB_CFG, 0)] id).dev = none) := by decide +kernel
theorem witness_FabricDiscoveryAndRoutes_2 : ((fb id [] id).dev.twin.role ≠ Role.standby) ∧
    ((fb id [] id).dev.fab.down = []) ∧
    ((fb id [] id).dev.pwr.st ≠ DevSt.dormant) ∧
    (tabWf (fun _ => none) (fb id [] id).dev.fab.routes = true) ∧
    (5 < 4096) ∧
    (12 < 4096) ∧
    (fabPortOn 1 (fb id [] id).dev = true) ∧
    (fabAddr (fb id [] id).dev = some 5) ∧
    (BitVec.toNat (fabId (fb id [] id).dev) ≤ BitVec.toNat (11727945076735 : W64)) := by decide +kernel
def w15 := (fb (fun f => { f with routes := [rt 9 r1], nbrs := [nb 1 9 7 3, nb 1 8 6 2, nb 0 9 7 1] }) [] id)
theorem witness_FabricDiscoveryAndRoutes_3 : (w15.dev.twin.role ≠ Role.standby) ∧
    (w15.dev.fab.down = []) ∧
    (w15.dev.pwr.st ≠ DevSt.dormant) ∧
    (tabWf (fun _ => none) w15.dev.fab.routes = true) ∧
    (9 < 4096) ∧
    (12 < 4096) ∧
    (fabPortOn 1 w15.dev = true) ∧
    ((w15.dev.fab.nbrs.any fun n => decide (n.port = 1) && decide (n.addr = 9)) = true) ∧
    (fabAddr w15.dev ≠ some 12) ∧
    (7 < 8) ∧
    (routeTo 12 w15.dev = none) := by decide +kernel
def w17 := (fb (fun f => { f with routes := [rt 12 r2], nbrs := [nb 1 9 7 3] }) [] id)
theorem witness_FabricDiscoveryAndRoutes_4 : (w17.dev.twin.role ≠ Role.standby) ∧
    (w17.dev.fab.down = []) ∧
    (w17.dev.pwr.st ≠ DevSt.dormant) ∧
    (tabWf (fun _ => none) w17.dev.fab.routes = true) ∧
    (9 < 4096) ∧
    (12 < 4096) ∧
    (fabPortOn 1 w17.dev = true) ∧
    ((w17.dev.fab.nbrs.any fun n => decide (n.port = 1) && decide (n.addr = 9)) = true) ∧
    (fabAddr w17.dev ≠ some 12) ∧
    (2 < 8) ∧
    (routeTo 12 w17.dev = some r2) ∧
    (r2.metric < 9) ∧
    (r2.hop ≠ 9 ∨ r2.port ≠ 1) := by decide +kernel
def w22 := (fb (fun f => { f with routes := [rt 3 r1, rt 7 r5, rt 12 r1, rt 14 r2], nbrs := [nb 0 2 7 4, nb 1 9 7 4, nb 1 9 8 0] }) [] id)
theorem witness_FabricDiscoveryAndRoutes_5 : (w22.dev.twin.role ≠ Role.standby) ∧
    (w22.dev.fab.down = []) ∧
    (w22.dev.pwr.st ≠ DevSt.dormant) ∧
    (tabWf (fun _ => none) w22.dev.fab.routes = true) ∧
    (9 < 4096) ∧
    (12 < 4096) ∧
    (fabPortOn 1 w22.dev = true) ∧
    ((w22.dev.fab.nbrs.any fun n => decide (n.port = 1) && decide (n.addr = 9)) = true) ∧
    (fabAddr w22.dev ≠ some 12) ∧
    (8 ≤ 8) ∧
    (routeTo 12 w22.dev = some r1) ∧
    (r1.metric < 9) ∧
    (r1.hop = 9) ∧
    (r1.port = 1) ∧
    (∃ n ∈ w22.dev.fab.nbrs, n.port = 1 ∧ n.addr = 9 ∧ 4 ≤ n.missed) := by decide +kernel
def w26 := (fb (fun f => { f with routes := [rt 12 r5] }) [(rFAB_ADDR, 0)] id)
theorem witness_FabricDiscoveryAndRoutes_6 : (w26.dev.twin.role ≠ Role.standby) ∧
    (w26.dev.fab.down = []) ∧
    (w26.dev.pwr.st ≠ DevSt.dormant) ∧
    (tabWf (fun _ => none) w26.dev.fab.routes = true) ∧
    (5 < 4096) ∧
    (12 < 4096) ∧
    (w26.dev.fab.helloAt ≠ some (BitVec.ofNat 64 (BitVec.toNat (now64 w26.dev) / 250000000 * 250000000))) ∧
    (fabSends w26.dev = true) ∧
    (fabPortOn 1 w26.dev = true) ∧
    (fabAddr w26.dev ≠ some 5) ∧
    ((w26.dev.fab.nbrs.any fun n => decide (n.port = 1) && decide (n.addr = 5)) = false) ∧
    (∀ n ∈ w26.dev.fab.nbrs, n.port = 1 → n.addr = 5 → n.missed < 4) ∧
    (fabAddr w26.dev = none ∨ fabSends w26.dev = false) ∧
    (routeTo 12 w26.dev = some r5) ∧
    (9 ≤ r5.metric) := by decide +kernel
def w27 := (fb (fun f => { f with routes := [rt 12 r6] }) [(rFAB_ADDR, 0)] at4)
theorem witness_FabricDiscoveryAndRoutes_7 : (w27.dev.twin.role ≠ Role.standby) ∧
    (w27.dev.fab.down = []) ∧
    (w27.dev.pwr.st ≠ DevSt.dormant) ∧
    (tabWf (fun _ => none) w27.dev.fab.routes = true) ∧
    (5 < 4096) ∧
    (12 < 4096) ∧
    (routeTo 12 w27.dev = some r6) ∧
    (r6.metric < 9) ∧
    ((3000000000 : ℤ) ≤ ↑(BitVec.toNat (now64 w27.dev)) - ↑(BitVec.toNat r6.at_)) := by decide +kernel
def w29 := (fb (fun f => { f with routes := [rt 3 r1], routeAt := some 3000000001 }) [] at4)
theorem witness_FabricDiscoveryAndRoutes_8 : (w29.dev.twin.role ≠ Role.standby) ∧
    (w29.dev.fab.down = []) ∧
    (w29.dev.pwr.st ≠ DevSt.dormant) ∧
    (tabWf (fun _ => none) w29.dev.fab.routes = true) ∧
    (5 < 4096) ∧
    (12 < 4096) ∧
    (w29.dev.fab.routeAt = some (3000000001 : W64)) ∧
    (↑(BitVec.toNat (now64 w29.dev)) - ↑(BitVec.toNat (3000000001 : W64)) < if w29.dev.fab.changed = true then (100000000 : ℤ) else (1000000000 : ℤ)) := by decide +kernel
def w30 := (fb (fun f => { f with routes := [rt 12 { r6 with at_ := 1000000001 }], helloAt := some 4000000000 }) [] at4)
def w31 := { r6 with at_ := 1000000001 }
theorem witness_FabricDiscoveryAndRoutes_9 : (w30.dev.twin.role ≠ Role.standby) ∧
    (w30.dev.fab.down = []) ∧
    (w30.dev.pwr.st ≠ DevSt.dormant) ∧
    (tabWf (fun _ => none) w30.dev.fab.routes = true) ∧
    (5 < 4096) ∧
    (12 < 4096) ∧
    (w30.dev.fab.helloAt = some (BitVec.ofNat 64 (BitVec.toNat (now64 w30.dev) / 250000000 * 250000000))) ∧
    (fabPortOn 1 w30.dev = true) ∧
    (fabAddr w30.dev = some 5) ∧
    ((7 : W64) ≠ fabId w30.dev) ∧
    (BitVec.toNat (7 : W64) < BitVec.toNat (fabId w30.dev)) ∧
    (routeTo 5 w30.dev = none) ∧
    (fabSends w30.dev = true) ∧
    (w30.dev.fab.routeAt = none ∨ w30.dev.fab.routeAt = some (1 : W64) ∧ (if w30.dev.fab.changed = true then (100000000 : ℤ) else (1000000000 : ℤ)) ≤ ↑(BitVec.toNat (now64 w30.dev)) - ↑(BitVec.toNat (1 : W64))) ∧
    (routeTo 12 w30.dev = some w31) ∧
    (w31.metric < 9) ∧
    (↑(BitVec.toNat (now64 w30.dev)) - ↑(BitVec.toNat w31.at_) < (3000000000 : ℤ)) := by decide +kernel
def h1 : W32 := hnd 1 1 3
def tz : TrunkEntry := ⟨h1, 1, false, [1, 2, 3]⟩
def tf (dst hops : Nat) (es : List TrunkEntry) : TrunkFrame := ⟨hops, dst, 77, 1, true, 4000000, 5, es, 64⟩
def b1 : Trunk := ⟨h1, 77, 0x11110005, 0⟩
def lg : List W32 := ((((zd.set 18 0x11).set 22 0x800).set 21 0x01001F40).set 2 1).set 25 3000
def sl (x : List W32) : Slot := { actSlot 1 with desc := x, gen := 1 }
def tk (ctl rem : Nat) (l : List W32) (f : Fab → Fab) (regs : List (Nat × Nat)) : State :=
  fb f ([(rFAB_TRK_SEL, h1.toNat), (rFAB_TRK_REMOTE, rem), (rFAB_TRK_CTRL, ctl)] ++ regs) (slotDev 3 (sl l))
def w33 := (tk 0 (hnd 1 1 9).toNat lg (fun f => { f with trunks := [(7, some b1)] }) [])
theorem witness_Trunks_1 : (HostUp w33.dev) ∧
    (bit (65613 : W32) 31 = false) ∧
    (fabPortOn 1 w33.dev = true) ∧
    (w33.dev.pwr.st = DevSt.service) ∧
    (fabAddr w33.dev = some (tf 5 2 [tz]).dst) ∧
    (shadowing w33.dev = false) ∧
    (paired w33.dev = false) ∧
    ((tf 5 2 [tz]).entries = [tz]) ∧
    (hPart tz.remote = (tf 5 2 [tz]).part) ∧
    (current tz.remote w33.dev = true) ∧
    (trunkOf (hSlot tz.remote) (tz.leg % 2) w33.dev = some b1) ∧
    (b1.peer = (tf 5 2 [tz]).src) := by decide +kernel
theorem witness_Trunks_2 : (HostUp (tk 0 (BitVec.toNat (hnd 1 1 9)) lg id []).dev) ∧
    (bit (2147610701 : W32) 31 = true) ∧
    (current (BitVec.extractLsb' 0 32 (rg rFAB_TRK_SEL (tk 0 (BitVec.toNat (hnd 1 1 9)) lg id []).dev)) (tk 0 (BitVec.toNat (hnd 1 1 9)) lg id []).dev = true ∧ ((slot (hSlot (BitVec.extractLsb' 0 32 (rg rFAB_TRK_SEL (tk 0 (BitVec.toNat (hnd 1 1 9)) lg id []).dev))) (tk 0 (BitVec.toNat (hnd 1 1 9)) lg id []).dev).st = SlotSt.activating ∨ (slot (hSlot (BitVec.extractLsb' 0 32 (rg rFAB_TRK_SEL (tk 0 (BitVec.toNat (hnd 1 1 9)) lg id []).dev))) (tk 0 (BitVec.toNat (hnd 1 1 9)) lg id []).dev).st = SlotSt.active) ∧ hPart (BitVec.extractLsb' 0 32 (rg rFAB_TRK_REMOTE (tk 0 (BitVec.toNat (hnd 1 1 9)) lg id []).dev)) = hPart (BitVec.extractLsb' 0 32 (rg rFAB_TRK_SEL (tk 0 (BitVec.toNat (hnd 1 1 9)) lg id []).dev)) ∧ (isRtp (descNow (hSlot (BitVec.extractLsb' 0 32 (rg rFAB_TRK_SEL (tk 0 (BitVec.toNat (hnd 1 1 9)) lg id []).dev))) (tk 0 (BitVec.toNat (hnd 1 1 9)) lg id []).dev) (fld (2147610701 : W32) 16 16) = true ∧ legSuite (descNow (hSlot (BitVec.extractLsb' 0 32 (rg rFAB_TRK_SEL (tk 0 (BitVec.toNat (hnd 1 1 9)) lg id []).dev))) (tk 0 (BitVec.toNat (hnd 1 1 9)) lg id []).dev) (fld (2147610701 : W32) 16 16) = 0 ∧ bit (lw (descNow (hSlot (BitVec.extractLsb' 0 32 (rg rFAB_TRK_SEL (tk 0 (BitVec.toNat (hnd 1 1 9)) lg id []).dev))) (tk 0 (BitVec.toNat (hnd 1 1 9)) lg id []).dev) (fld (2147610701 : W32) 16 16) 0) 4 = true ∧ jbTarget (descNow (hSlot (BitVec.extractLsb' 0 32 (rg rFAB_TRK_SEL (tk 0 (BitVec.toNat (hnd 1 1 9)) lg id []).dev))) (tk 0 (BitVec.toNat (hnd 1 1 9)) lg id []).dev) (fld (2147610701 : W32) 16 16) = 2 ∧ frameMs (descNow (hSlot (BitVec.extractLsb' 0 32 (rg rFAB_TRK_SEL (tk 0 (BitVec.toNat (hnd 1 1 9)) lg id []).dev))) (tk 0 (BitVec.toNat (hnd 1 1 9)) lg id []).dev) (fld (2147610701 : W32) 16 16) = 1 ∧ 1 ≤ codec (descNow (hSlot (BitVec.extractLsb' 0 32 (rg rFAB_TRK_SEL (tk 0 (BitVec.toNat (hnd 1 1 9)) lg id []).dev))) (tk 0 (BitVec.toNat (hnd 1 1 9)) lg id []).dev) (fld (2147610701 : W32) 16 16) ∧ codec (descNow (hSlot (BitVec.extractLsb' 0 32 (rg rFAB_TRK_SEL (tk 0 (BitVec.toNat (hnd 1 1 9)) lg id []).dev))) (tk 0 (BitVec.toNat (hnd 1 1 9)) lg id []).dev) (fld (2147610701 : W32) 16 16) ≤ 4) ∧ ∀ x ∈ trunksTo (fld (2147610701 : W32) 11 0) (tk 0 (BitVec.toNat (hnd 1 1 9)) lg id []).dev, hPart x.2.handle = hPart (BitVec.extractLsb' 0 32 (rg rFAB_TRK_SEL (tk 0 (BitVec.toNat (hnd 1 1 9)) lg id []).dev)) → x.1 ≠ 2 * hSlot (BitVec.extractLsb' 0 32 (rg rFAB_TRK_SEL (tk 0 (BitVec.toNat (hnd 1 1 9)) lg id []).dev)) + fld (2147610701 : W32) 16 16 → egrOffset (descNow (x.1 / 2) (tk 0 (BitVec.toNat (hnd 1 1 9)) lg id []).dev) (x.1 % 2) = egrOffset (descNow (hSlot (BitVec.extractLsb' 0 32 (rg rFAB_TRK_SEL (tk 0 (BitVec.toNat (hnd 1 1 9)) lg id []).dev))) (tk 0 (BitVec.toNat (hnd 1 1 9)) lg id []).dev) (fld (2147610701 : W32) 16 16)) ∧
    (fabPortOn 1 (tk 0 (BitVec.toNat (hnd 1 1 9)) lg id []).dev = true) ∧
    ((tk 0 (BitVec.toNat (hnd 1 1 9)) lg id []).dev.pwr.st = DevSt.service) ∧
    (fabAddr (tk 0 (BitVec.toNat (hnd 1 1 9)) lg id []).dev ≠ some (tf 6 1 [tz]).dst) ∧
    ((tf 6 1 [tz]).hops ≤ 1) := by decide +kernel
def w34 := (tk 0 (hnd 1 2 9).toNat lg (fun f => { f with routes := [rt 6 r1] }) [])
theorem witness_Trunks_3 : (fabPortOn 0 w34.dev = true) ∧
    (w34.dev.pwr.st = DevSt.service) ∧
    (fabAddr w34.dev ≠ some (tf 6 2 [tz]).dst) ∧
    (2 ≤ (tf 6 2 [tz]).hops) ∧
    (routeTo (tf 6 2 [tz]).dst w34.dev = some r1) ∧
    (r1.metric < 9) ∧
    (fabSends w34.dev = true) ∧
    (fabAddr w34.dev ≠ none) ∧
    ((port r1.port w34.dev).q6 = []) := by decide +kernel
theorem witness_Trunks_4 : (HostUp w34.dev) ∧
    (bit (2147610701 : W32) 31 = true) ∧
    (¬(current (BitVec.extractLsb' 0 32 (rg rFAB_TRK_SEL w34.dev)) w34.dev = true ∧ ((slot (hSlot (BitVec.extractLsb' 0 32 (rg rFAB_TRK_SEL w34.dev))) w34.dev).st = SlotSt.activating ∨ (slot (hSlot (BitVec.extractLsb' 0 32 (rg rFAB_TRK_SEL w34.dev))) w34.dev).st = SlotSt.active) ∧ hPart (BitVec.extractLsb' 0 32 (rg rFAB_TRK_REMOTE w34.dev)) = hPart (BitVec.extractLsb' 0 32 (rg rFAB_TRK_SEL w34.dev)) ∧ (isRtp (descNow (hSlot (BitVec.extractLsb' 0 32 (rg rFAB_TRK_SEL w34.dev))) w34.dev) (fld (2147610701 : W32) 16 16) = true ∧ legSuite (descNow (hSlot (BitVec.extractLsb' 0 32 (rg rFAB_TRK_SEL w34.dev))) w34.dev) (fld (2147610701 : W32) 16 16) = 0 ∧ bit (lw (descNow (hSlot (BitVec.extractLsb' 0 32 (rg rFAB_TRK_SEL w34.dev))) w34.dev) (fld (2147610701 : W32) 16 16) 0) 4 = true ∧ jbTarget (descNow (hSlot (BitVec.extractLsb' 0 32 (rg rFAB_TRK_SEL w34.dev))) w34.dev) (fld (2147610701 : W32) 16 16) = 2 ∧ frameMs (descNow (hSlot (BitVec.extractLsb' 0 32 (rg rFAB_TRK_SEL w34.dev))) w34.dev) (fld (2147610701 : W32) 16 16) = 1 ∧ 1 ≤ codec (descNow (hSlot (BitVec.extractLsb' 0 32 (rg rFAB_TRK_SEL w34.dev))) w34.dev) (fld (2147610701 : W32) 16 16) ∧ codec (descNow (hSlot (BitVec.extractLsb' 0 32 (rg rFAB_TRK_SEL w34.dev))) w34.dev) (fld (2147610701 : W32) 16 16) ≤ 4) ∧ ∀ x ∈ trunksTo (fld (2147610701 : W32) 11 0) w34.dev, hPart x.2.handle = hPart (BitVec.extractLsb' 0 32 (rg rFAB_TRK_SEL w34.dev)) → x.1 ≠ 2 * hSlot (BitVec.extractLsb' 0 32 (rg rFAB_TRK_SEL w34.dev)) + fld (2147610701 : W32) 16 16 → egrOffset (descNow (x.1 / 2) w34.dev) (x.1 % 2) = egrOffset (descNow (hSlot (BitVec.extractLsb' 0 32 (rg rFAB_TRK_SEL w34.dev))) w34.dev) (fld (2147610701 : W32) 16 16))) ∧
    (fabPortOn 2 w34.dev = false ∨ w34.dev.pwr.st ≠ DevSt.service) := by decide +kernel
def w37 := (tk 0 (hnd 1 2 9).toNat lg (fun f => { f with trunks := [(7, some { b1 with peer := 78 })] }) [])
def w38 := { b1 with peer := 78 }
theorem witness_Trunks_5 : (fabPortOn 1 w37.dev = true) ∧
    (w37.dev.pwr.st = DevSt.service) ∧
    (fabAddr w37.dev = some (tf 5 2 [tz]).dst) ∧
    (shadowing w37.dev = false) ∧
    (paired w37.dev = false) ∧
    ((tf 5 2 [tz]).entries = [tz]) ∧
    (hPart tz.remote ≠ (tf 5 2 [tz]).part ∨ current tz.remote w37.dev = true ∧ (trunkOf (hSlot tz.remote) (tz.leg % 2) w37.dev = none ∨ trunkOf (hSlot tz.remote) (tz.leg % 2) w37.dev = some w38 ∧ w38.peer ≠ (tf 5 2 [tz]).src)) := by decide +kernel
def w41 := (tf 5 2 [{ tz with remote := hnd 2 1 3 }])
def w42 := { tz with remote := hnd 2 1 3 }
theorem witness_Trunks_6 : (fabPortOn 1 (tk 0 (BitVec.toNat (hnd 1 2 9)) lg id []).dev = true) ∧
    ((tk 0 (BitVec.toNat (hnd 1 2 9)) lg id []).dev.pwr.st = DevSt.service) ∧
    (fabAddr (tk 0 (BitVec.toNat (hnd 1 2 9)) lg id []).dev = some w41.dst) ∧
    (shadowing (tk 0 (BitVec.toNat (hnd 1 2 9)) lg id []).dev = false) ∧
    (paired (tk 0 (BitVec.toNat (hnd 1 2 9)) lg id []).dev = false) ∧
    (w41.entries = [w42]) ∧
    (hPart w42.remote = w41.part) ∧
    (current w42.remote (tk 0 (BitVec.toNat (hnd 1 2 9)) lg id []).dev = false) := by decide +kernel
def w43 := (fb (fun f => { f with trunks := [(7, some b1)] }) [(rTWIN_CFG, 1)] (fun d => slotDev 3 (sl lg) { d with twin := { d.twin with role := .standby, link := true, lanes := 4, own := false } }))
theorem witness_Trunks_7 : (fabPortOn 1 w43.dev = true) ∧
    (w43.dev.pwr.st = DevSt.service) ∧
    (fabAddr w43.dev = some (tf 5 2 [tz]).dst) ∧
    (shadowing w43.dev = true) ∧
    (w43.dev.twin.fetched.contains (trunkDigest (tf 5 2 [tz])) = false) ∧
    (w43.dev.twin.ingress = []) := by decide +kernel
def w44 := (fb (fun f => { f with trunks := [(7, some b1)] }) [(rTWIN_CFG, 3)] (fun d => slotDev 3 (sl lg) { d with twin := { d.twin with role := .active, link := true, lanes := 4, seen := true, peerRole := 3 } }))
theorem witness_Trunks_8 : (fabPortOn 1 w44.dev = true) ∧
    (w44.dev.pwr.st = DevSt.service) ∧
    (fabAddr w44.dev = some (tf 5 2 []).dst) ∧
    (paired w44.dev = true) ∧
    ((tf 5 2 []).entries = []) := by decide +kernel
end C14

/-! ### Witnesses: start-up and power -/

namespace C15
def full (cfg : Nat) : Dev := { setr [(rPWR_CFG, cfg), (rPWR_DBG_FAIL, 3), (rHIF_LINK, 0x85), (rCLU_CFG, 0x80000003)] (slotDev 3 (actSlot 1) tDev) with
  pages := [(0, { Hdr.reset with ctrl := 1 }), (1, { Hdr.reset with ctrl := 1 }), (2, { Hdr.reset with ctrl := 1 })], basin := [(5, 6)], dram := [(7, 8)], rings := [(0, { Ring.reset with base := 0x1000, sizeLog2 := 6, enable := true, prod := 3, cons := 2 })],
  lfe := { tDev.lfe with lines := [(31, { Line.reset with cadence := true })] }, pwr := { tDev.pwr with debug := true, memHeld := true } }
theorem witness_ResetsAndLinks_1 : (HostUp (tSt (full 0)).dev) ∧
    ((tSt (full 0)).dev.pwr.memHeld = true) := by decide +kernel
def w1 := (tSt { full 2 with hif := { (full 2).hif with linkUp := false } })
theorem witness_ResetsAndLinks_2 : (w1.dev.recd.spools = []) ∧
    (w1.dev.hif.perst = false) ∧
    (w1.dev.pwr.bootStep ≠ 0) ∧
    (w1.dev.hif.linkUp = false) ∧
    (3 ≤ 5) ∧
    (5 ≤ 5) ∧
    (8 = 4 ∨ 8 = 8) ∧
    (5 = 5) ∧
    (8 = 8) := by decide +kernel
def w2 := (tSt { full 2 with hif := { (full 2).hif with linkUp := false }, pwr := { (full 2).pwr with memHeld := false } })
theorem witness_ResetsAndLinks_3 : (w2.dev.recd.spools = []) ∧
    (w2.dev.hif.perst = false) ∧
    (w2.dev.pwr.bootStep ≠ 0) ∧
    (w2.dev.hif.linkUp = false) ∧
    (3 ≤ 3) ∧
    (3 ≤ 5) ∧
    (8 = 4 ∨ 8 = 8) ∧
    (3 < 5 ∨ 8 = 4) := by decide +kernel
def w3 := (tSt { full 2 with pwr := { (full 2).pwr with memHeld := false } })
theorem witness_ResetsAndLinks_4 : (HostUp w3.dev) ∧
    (w3.dev.recd.spools = []) ∧
    (w3.dev.hif.perst = false) ∧
    (w3.dev.pwr.bootStep ≠ 0) ∧
    (w3.dev.hif.linkUp = true) ∧
    (w3.dev.pwr.memHeld = false) := by decide +kernel
def w4 := (tSt { full 2 with hif := { (full 2).hif with linkUp := false, perst := true } })
theorem witness_ResetsAndLinks_5 : (w4.dev.hif.perst = true ∨ w4.dev.pwr.bootStep = 0) ∧
    (w4.dev.hif.linkUp = false) := by decide +kernel
def im (ok : Bool) (ver sec : Nat) : BootImage := ⟨ok, ver, sec⟩
def bi (a b : BootImage) (pw ok : Bool) (rb : Nat) : BootIn := ⟨pw, a, b, ok, rb, 8, (if rb = 63 then 1 else 3), ⟨true, 0, 0, 0, 0, 4, 0, 0⟩, 77, [], [0, 1, 1023, 1024], [], [], [], [], []⟩
def bs (step : Nat) (f : Pwr → Pwr) (regs : List (Nat × Nat)) (g : Dev → Dev) : State :=
  tSt (g (setr ([(rPWR_ROLLBACK, 3)] ++ regs) { tDev with pwr := f { tDev.pwr with st := .boot, bootStep := step } }))
def w6 := (bi (im true 1 3) (im true 1 3) true true 65)
theorem witness_BootSteps_1 : ((tSt tDev).dev.pwr.st ≠ DevSt.boot ∨ (tSt tDev).dev.pwr.memHeld = true) ∧
    (HostUp (tSt tDev).dev) ∧
    (bit (1 : W32) 0 = false ∨ (tSt tDev).dev.pwr.recovery = false ∨ (tSt tDev).dev.pwr.bootStep ≠ 1) ∧
    (fld (1 : W32) 7 0 ≠ 165) := by decide +kernel
def w7 := (bs 0 (fun p => { p with powerFail := true }) [] id)
def w8 := (bi (im true 1 3) (im true 1 3) false true 65)
theorem witness_BootSteps_2 : (w7.dev.pwr.st = DevSt.boot) ∧
    (w7.dev.pwr.memHeld = false) ∧
    (w7.dev.pwr.bootStep = 0) ∧
    (w7.dev.pwr.powerFail = true) ∧
    (w8.powerOk = false) := by decide +kernel
theorem witness_BootSteps_3 : (w7.dev.pwr.st = DevSt.boot) ∧
    (w7.dev.pwr.memHeld = false) ∧
    (w7.dev.pwr.bootStep = 0) ∧
    (w7.dev.pwr.powerFail = false ∨ w6.powerOk = true) := by decide +kernel
def w9 := (bi (im true 1 3) (im true 1 3) false true 64)
def w10 := (bs 1 (fun p => { p with recovery := true }) [] id)
theorem witness_BootSteps_4 : (w10.dev.pwr.st = DevSt.boot) ∧
    (w10.dev.pwr.memHeld = false) ∧
    (w10.dev.pwr.bootStep = 1) ∧
    (w10.dev.pwr.recovery = true) ∧
    (HostUp w10.dev) ∧
    (bit (1 : W32) 0 = true) ∧
    ((im true 1 3).ok = true ∧ rgN rPWR_ROLLBACK w10.dev ≤ (im true 1 3).sec) := by decide +kernel
theorem witness_BootSteps_5 : (HostUp w10.dev) ∧
    (bit (1 : W32) 0 = true) ∧
    (w10.dev.pwr.recovery = true) ∧
    (w10.dev.pwr.bootStep = 1) ∧
    (¬((im true 1 2).ok = true ∧ rgN rPWR_ROLLBACK w10.dev ≤ (im true 1 2).sec)) := by decide +kernel
def w11 := (bs 1 (fun p => { p with straps := 4 }) [] id)
theorem witness_BootSteps_6 : (w11.dev.pwr.st = DevSt.boot) ∧
    (w11.dev.pwr.memHeld = false) ∧
    (w11.dev.pwr.bootStep = 1) ∧
    (w11.dev.pwr.recovery = false) ∧
    (bit w11.dev.pwr.straps 2 = true) := by decide +kernel
theorem witness_BootSteps_7 : ((bs 1 id [] id).dev.pwr.st = DevSt.boot) ∧
    ((bs 1 id [] id).dev.pwr.memHeld = false) ∧
    ((bs 1 id [] id).dev.pwr.bootStep = 1) ∧
    ((bs 1 id [] id).dev.pwr.recovery = false) ∧
    (bit (bs 1 id [] id).dev.pwr.straps 2 = false) ∧
    (w9.imageA.ok = true ∧ rgN rPWR_ROLLBACK (bs 1 id [] id).dev ≤ w9.imageA.sec) ∧
    (w9.imageB.ok = true ∧ rgN rPWR_ROLLBACK (bs 1 id [] id).dev ≤ w9.imageB.sec) := by decide +kernel
def w13 := (bi (im true 1 3) (im true 2 2) false true 64)
theorem witness_BootSteps_8 : ((bs 1 id [] id).dev.pwr.st = DevSt.boot) ∧
    ((bs 1 id [] id).dev.pwr.memHeld = false) ∧
    ((bs 1 id [] id).dev.pwr.bootStep = 1) ∧
    ((bs 1 id [] id).dev.pwr.recovery = false) ∧
    (bit (bs 1 id [] id).dev.pwr.straps 2 = false) ∧
    (w13.imageA.ok = true ∧ rgN rPWR_ROLLBACK (bs 1 id [] id).dev ≤ w13.imageA.sec) ∧
    (¬(w13.imageB.ok = true ∧ rgN rPWR_ROLLBACK (bs 1 id [] id).dev ≤ w13.imageB.sec)) := by decide +kernel
def w14 := (bi (im false 1 3) (im true 0 3) false true 64)
theorem witness_BootSteps_9 : ((bs 1 id [] id).dev.pwr.st = DevSt.boot) ∧
    ((bs 1 id [] id).dev.pwr.memHeld = false) ∧
    ((bs 1 id [] id).dev.pwr.bootStep = 1) ∧
    ((bs 1 id [] id).dev.pwr.recovery = false) ∧
    (bit (bs 1 id [] id).dev.pwr.straps 2 = false) ∧
    (¬(w14.imageA.ok = true ∧ rgN rPWR_ROLLBACK (bs 1 id [] id).dev ≤ w14.imageA.sec)) ∧
    (w14.imageB.ok = true ∧ rgN rPWR_ROLLBACK (bs 1 id [] id).dev ≤ w14.imageB.sec) := by decide +kernel
def w15 := (bi (im false 1 3) (im true 0 2) false true 64)
theorem witness_BootSteps_10 : ((bs 1 id [] id).dev.pwr.st = DevSt.boot) ∧
    ((bs 1 id [] id).dev.pwr.memHeld = false) ∧
    ((bs 1 id [] id).dev.pwr.bootStep = 1) ∧
    ((bs 1 id [] id).dev.pwr.recovery = false) ∧
    (bit (bs 1 id [] id).dev.pwr.straps 2 = false) ∧
    (¬(w15.imageA.ok = true ∧ rgN rPWR_ROLLBACK (bs 1 id [] id).dev ≤ w15.imageA.sec)) ∧
    (¬(w15.imageB.ok = true ∧ rgN rPWR_ROLLBACK (bs 1 id [] id).dev ≤ w15.imageB.sec)) := by decide +kernel
def w16 := (bi (im false 1 3) (im true 0 2) false false 64)
theorem witness_BootSteps_11 : ((bs 2 id [] id).dev.pwr.st = DevSt.boot) ∧
    ((bs 2 id [] id).dev.pwr.memHeld = false) ∧
    (2 ≤ (bs 2 id [] id).dev.pwr.bootStep) ∧
    ((bs 2 id [] id).dev.pwr.bootStep ≤ 4) ∧
    (w16.ok = false) := by decide +kernel
def w17 := (bs 2 (fun p => { p with keepMem := true }) [] id)
theorem witness_BootSteps_12 : (w17.dev.pwr.st = DevSt.boot) ∧
    (w17.dev.pwr.memHeld = false) ∧
    (w17.dev.pwr.bootStep = 2) ∧
    (w15.ok = true) ∧
    (HostUp w17.dev) ∧
    (fld (165 : W32) 7 0 = 165) ∧
    (bit (rg rPWR_BOOT_SLOT w17.dev) 1 = false) ∧
    (w17.dev.pwr.secVersion ≤ 64) := by decide +kernel
def w19 := (bs 4 id [] fun d => { d with tb := { d.tb with servo := .locking } })
theorem witness_BootSteps_13 : (w19.dev.pwr.st = DevSt.boot) ∧
    (w19.dev.pwr.memHeld = false) ∧
    (w19.dev.pwr.bootStep = 4) ∧
    (w15.ok = true) ∧
    (w15.config = []) ∧
    (cluOn w19.dev = false ∨ w19.dev.clu.manager = true) ∧
    (w19.dev.tb.servo ≠ Servo.locked) := by decide +kernel
theorem witness_BootSteps_14 : ((bs 3 id [(rHIF_FUSE_CAP, 5)] id).dev.pwr.st = DevSt.boot) ∧
    ((bs 3 id [(rHIF_FUSE_CAP, 5)] id).dev.pwr.memHeld = false) ∧
    ((bs 3 id [(rHIF_FUSE_CAP, 5)] id).dev.pwr.bootStep = 3) ∧
    (w15.ok = true) ∧
    (w15.config = []) ∧
    (hasSce (bs 3 id [(rHIF_FUSE_CAP, 5)] id).dev = false) := by decide +kernel
def w20 := (bs 3 (fun p => { p with secVersion := 65 }) [] id)
theorem witness_BootSteps_15 : (HostUp w20.dev) ∧
    (fld (165 : W32) 7 0 = 165) ∧
    (bit (rg rPWR_BOOT_SLOT w20.dev) 1 = true ∨ 64 < w20.dev.pwr.secVersion) := by decide +kernel
def pst (st : DevSt) (f : Pwr → Pwr) (regs : List (Nat × Nat)) (g : Dev → Dev) : State :=
  tSt (g (setr ([(rHIF_FUSE_CAP, 7)] ++ regs) { tDev with pwr := f { tDev.pwr with st := st }, basin := [(5, 6)], dram := [(7, 8)] }))
def w24 := (pst .ready (fun p => { p with parts := [1, 1023] }) [] id)
theorem witness_PowerStates_1 : (HostUp w24.dev) ∧
    (w24.dev.pwr.st = DevSt.ready) := by decide +kernel
def w25 := (pst .service id [(kPart 7 oPART_STATE, 1)] id)
theorem witness_PowerStates_2 : (HostUp w25.dev) ∧
    (w25.dev.pwr.st = DevSt.service ∧ anyChannel w25.dev = false ∧ w25.dev.twin.role ≠ Role.pairing ∧ w25.dev.twin.role ≠ Role.standby ∧ ¬(w25.dev.twin.role = Role.active ∧ w25.dev.twin.link = true ∧ w25.dev.twin.peerRole = 3)) := by decide +kernel
def w26 := (pst .service id [(rPWR_DBG_FAIL, 7)] (slotDev 3 (actSlot 1)))
theorem witness_PowerStates_3 : (HostUp w26.dev) ∧
    (bit (1 : W32) 0 = true) ∧
    (rgN rPWR_DBG_FAIL w26.dev < 8) ∧
    (false = false) := by decide +kernel
def w27 := (pst .service id [(rPWR_DBG_FAIL, 8)] (slotDev 3 (actSlot 1)))
theorem witness_PowerStates_4 : (HostUp w27.dev) ∧
    (w27.dev.pwr.st ≠ DevSt.ready) ∧
    (¬(w27.dev.pwr.st = DevSt.service ∧ anyChannel w27.dev = false ∧ w27.dev.twin.role ≠ Role.pairing ∧ w27.dev.twin.role ≠ Role.standby ∧ ¬(w27.dev.twin.role = Role.active ∧ w27.dev.twin.link = true ∧ w27.dev.twin.peerRole = 3))) ∧
    (w27.dev.pwr.st ≠ DevSt.dormant) ∧
    ((1 : BitVec 8) ≠ (0 : BitVec 8)) ∧
    (w27.dev.pwr.bootStep ≠ 0) ∧
    (w27.dev.recd.flushing = false) ∧
    (bit (1 : W32) 0 = false ∨ 8 ≤ rgN rPWR_DBG_FAIL w27.dev) := by decide +kernel
theorem witness_PowerStates_5 : (HostUp (pst DevSt.dormant id [(rPWR_CFG, 1)] id).dev) ∧
    ((pst DevSt.dormant id [(rPWR_CFG, 1)] id).dev.pwr.st = DevSt.dormant) ∧
    ((129 : BitVec 8) ≠ (0 : BitVec 8)) ∧
    (bit (1 : W32) 0 = true) ∧
    (rgN rPWR_DBG_FAIL (pst DevSt.dormant id [(rPWR_CFG, 1)] id).dev < 8) ∧
    (true = true) := by decide +kernel
def w28 := (pst .boot (fun p => { p with bootStep := 0 }) [] id)
theorem witness_PowerStates_6 : (w28.dev.pwr.bootStep = 0) := by decide +kernel
def w29 := (pst .fault id [(rFLASH_STATUS, 3)] fun d => { d with recd := { d.recd with flushing := true } })
theorem witness_PowerStates_7 : (w29.dev.recd.flushing = true) := by decide +kernel
end C15

/-! ### Witnesses: invariants -/

theorem witness_CoreInvariantKept : ∃ t, CoreInstruction 5 (.nop 5) ∧ CoreInv (tarn 5 (C07.cst 5 14352 0 0 true).dev) ∧
    exec (.nop 5) (C07.cst 5 14352 0 0 true) = .next t :=
  ⟨_, C07.witness_UserModeConfines_1.1, C07.witness_UserModeConfines_1.2.1, next_resOf _ (by decide +kernel)⟩
theorem witness_MemoryStaysCanonical : ∃ t, memoryWf (tSt tDev).dev = true ∧
    step { tSt tDev with pending := [.registerWrite 0 0x44 4 0x15] } = .next t :=
  ⟨_, by decide +kernel, next_resOf _ (by decide +kernel)⟩

end Sys2Proof.Tests
end

section
/-! PROOF. O40: every step keeps the memories of the device canonical. A memory changes through `tabSet`, `tabMod`, `tabFilter` and the few
ways of listing a buffer or an image anew, each of which answers a canonical table. `MemOk` says this of the device, and each function the
commands run has one lemma `MemOk.<its name>`: it keeps `MemOk` because the functions it calls do, or because the fields it sets hold no
memory (`MemOk.same`). `TarnOk` says the same of one core, `EffOk` of what an instruction leaves of its core. -/
namespace Sys2Proof.Machine

/-! ### Tables -/

section
variable {α : Type}

/-- Keys that start a canonical table from a bound: all lie above it, they rise, and no entry is its default. -/
theorem tabWfFrom_iff [DecidableEq α] (dflt : Nat → α) : ∀ (t : Tab α) (lo : Option Nat), tabWfFrom dflt lo t = true ↔
    (∀ l, lo = some l → ∀ e ∈ t, l < e.1) ∧ t.Pairwise (fun a b => a.1 < b.1) ∧ ∀ e ∈ t, e.2 ≠ dflt e.1
  | [], lo => by simp [tabWfFrom]
  | (j, v) :: t, lo => by
    have ih := tabWfFrom_iff dflt t (some j)
    cases lo with
    | none => simp [tabWfFrom, ih, and_assoc, and_left_comm]
    | some l =>
      simp only [tabWfFrom, Bool.and_eq_true, Bool.not_eq_true', decide_eq_true_eq, decide_eq_false_iff_not, ih, List.pairwise_cons,
        List.forall_mem_cons, Option.some.injEq, forall_eq']
      constructor
      · rintro ⟨⟨hl, hv⟩, hj, hp, hd⟩
        exact ⟨⟨hl, fun e he => hl.trans (hj e he)⟩, ⟨hj, hp⟩, hv, hd⟩
      · rintro ⟨⟨hl, -⟩, ⟨hj, hp⟩, hv, hd⟩
        exact ⟨⟨hl, hv⟩, hj, hp, hd⟩

/-- A table is canonical when its keys rise strictly and no entry is what an unlisted key reads as. -/
theorem tabWf_iff [DecidableEq α] (dflt : Nat → α) (t : Tab α) :
    tabWf dflt t = true ↔ t.Pairwise (fun a b => a.1 < b.1) ∧ ∀ e ∈ t, e.2 ≠ dflt e.1 := by
  simp [tabWf, tabWfFrom_iff]

theorem tabWf_foldl [DecidableEq α] {β : Type} {dflt : Nat → α} {f : Tab α → β → Tab α}
    (hf : ∀ m b, tabWf dflt m = true → tabWf dflt (f m b) = true) (l : List β) {m : Tab α} (h : tabWf dflt m = true) :
    tabWf dflt (l.foldl f m) = true :=
  List.foldlRecOn l f h fun m hm b _ => hf m b hm

/-- What holds of every value listed and of the default holds of what a key reads as. -/
theorem tabGet_of_forall {P : α → Prop} {dflt : Nat → α} {k : Nat} (h0 : P (dflt k)) : ∀ {t : Tab α}, (∀ e ∈ t, P e.2) → P (tabGet dflt t k)
  | [], _ => h0
  | (j, v) :: t, h => by
    unfold tabGet
    split
    · exact h (j, v) List.mem_cons_self
    · exact tabGet_of_forall h0 fun e he => h e (List.mem_cons_of_mem _ he)

theorem forall_mem_tabIns {P : α → Prop} {k : Nat} {v : α} (hv : P v) : ∀ {t : Tab α}, (∀ e ∈ t, P e.2) → ∀ e ∈ tabIns k v t, P e.2
  | [], _ => by simpa [tabIns] using hv
  | (j, w) :: t, h => by
    have ih := forall_mem_tabIns (k := k) hv (t := t) fun e he => h e (List.mem_cons_of_mem _ he)
    unfold tabIns
    split
    · exact List.forall_mem_cons.2 ⟨hv, h⟩
    · exact List.forall_mem_cons.2 ⟨h (j, w) List.mem_cons_self, ih⟩

theorem forall_mem_tabSet [DecidableEq α] {P : α → Prop} {dflt : Nat → α} {t : Tab α} {k : Nat} {v : α} (hv : P v) (h : ∀ e ∈ t, P e.2) :
    ∀ e ∈ tabSet dflt t k v, P e.2 := by
  have hu : ∀ e ∈ t.filter fun e => decide (e.1 ≠ k), P e.2 := fun e he => h e (List.mem_of_mem_filter he)
  unfold tabSet
  dsimp only
  split
  · exact hu
  · exact forall_mem_tabIns hv hu

/-- The keys of a list numbered from 0 rise. -/
theorem pairwise_zip_range (n : Nat) (l : List α) : ((List.range n).zip l).Pairwise (fun a b => a.1 < b.1) := by
  rw [List.pairwise_iff_getElem]
  intro i j hi hj h
  simpa using h

end

theorem tabWf_tabOfList (l : List Word) (n : Nat) : tabWf (fun _ => 0) (tabOfList l n) = true := by
  rw [tabWf_iff]
  refine ⟨(pairwise_zip_range n l).filter _, fun e he => ?_⟩
  simpa using (List.mem_filter.1 he).2

theorem tabWf_placeWords (a : Nat) (ws : List Word) {m : Tab Word} (h : tabWf (fun _ => 0) m = true) :
    tabWf (fun _ => 0) (placeWords a ws m) = true :=
  tabWf_foldl (fun _ _ => tabWf_tabSet _ _ _ _) _ h

theorem tabWf_retire (e : PendStore) {m : Tab Word} (h : tabWf (fun _ => 0) m = true) : tabWf (fun _ => 0) (retire e m) = true := by
  unfold retire
  dsimp only
  split
  · exact tabWf_tabMod _ _ _ _ (tabWf_tabMod _ _ _ _ h)
  · exact tabWf_tabMod _ _ _ _ h

theorem tabWf_drained (sb : List PendStore) {m : Tab Word} (h : tabWf (fun _ => 0) m = true) : tabWf (fun _ => 0) (drained sb m) = true :=
  tabWf_foldl (fun _ e => tabWf_retire e) _ h

/-- A buffer's words between what the memory lists below the buffer and above it. -/
theorem tabWf_buffer (lo : Nat) (ws : List Word) {m : Tab Word} (h : tabWf (fun _ => 0) m = true) :
    tabWf (fun _ => 0) (m.filter (fun e => decide (e.1 < lo))
      ++ ((List.range ws.length).zip ws).filterMap (fun e => if e.2 = 0 then none else some (lo + e.1, e.2))
      ++ m.filter fun e => decide (lo + ws.length ≤ e.1)) = true := by
  obtain ⟨hp, hd⟩ := (tabWf_iff _ _).1 h
  have mid : ∀ e ∈ ((List.range ws.length).zip ws).filterMap (fun e => if e.2 = 0 then none else some (lo + e.1, e.2)),
      lo ≤ e.1 ∧ e.1 < lo + ws.length ∧ e.2 ≠ 0 := by
    intro e he
    obtain ⟨x, hx, he⟩ := List.mem_filterMap.1 he
    have hr := List.mem_range.1 (List.of_mem_zip hx).1
    split at he
    · cases he
    · cases he
      exact ⟨Nat.le_add_right _ _, by simpa using hr, ‹_›⟩
  have rise : (((List.range ws.length).zip ws).filterMap (fun e => if e.2 = 0 then none else some (lo + e.1, e.2))).Pairwise
      (fun a b => a.1 < b.1) := by
    refine (pairwise_zip_range _ ws).filterMap _ fun a b hab x hx y hy => ?_
    split at hx <;> cases hx
    split at hy <;> cases hy
    simpa using hab
  rw [tabWf_iff]
  simp only [List.pairwise_append, List.mem_append, List.mem_filter, decide_eq_true_eq]
  refine ⟨⟨⟨hp.filter _, rise, fun a ha b hb => ?_⟩, hp.filter _, ?_⟩, ?_⟩
  · have := (mid b hb).1
    omega
  · rintro a (ha | ha) b hb
    · omega
    · have := (mid a ha).2.1
      omega
  · rintro e ((he | he) | he)
    · exact hd e he.1
    · exact (mid e he).2.2
    · exact hd e he.1

/-! ### The invariant -/

/-- The memories of a core are in canonical form. -/
def TarnOk (t : Tarn) : Prop :=
  tabWf (fun _ => 0) t.dm = true ∧ tabWf (fun _ => 0) t.cs = true ∧ tabWf (fun _ => 0) t.pm = true

/-- The memories of the device are in canonical form. -/
def MemOk (d : Dev) : Prop :=
  tabWf (fun _ => 0) d.basin = true ∧ tabWf (fun _ => 0) d.dram = true ∧ tabWf regReset d.regs = true ∧ ∀ e ∈ d.tarns, TarnOk e.2

theorem memoryWf_iff (d : Dev) : memoryWf d = true ↔ MemOk d := by
  simp [memoryWf, MemOk, TarnOk, and_assoc]

section
variable {d e : Dev} {t u : Tarn}

theorem TarnOk.dm (w : TarnOk t) : tabWf (fun _ => 0) t.dm = true := w.1
theorem TarnOk.cs (w : TarnOk t) : tabWf (fun _ => 0) t.cs = true := w.2.1
theorem TarnOk.pm (w : TarnOk t) : tabWf (fun _ => 0) t.pm = true := w.2.2
theorem MemOk.basin (w : MemOk d) : tabWf (fun _ => 0) d.basin = true := w.1
theorem MemOk.dram (w : MemOk d) : tabWf (fun _ => 0) d.dram = true := w.2.1
theorem MemOk.regs (w : MemOk d) : tabWf regReset d.regs = true := w.2.2.1
theorem MemOk.tarns (w : MemOk d) : ∀ e ∈ d.tarns, TarnOk e.2 := w.2.2.2

/-- A change that leaves a core's memories as they are keeps their form. -/
theorem TarnOk.same (w : TarnOk t) (h : (u.dm, u.cs, u.pm) = (t.dm, t.cs, t.pm)) : TarnOk u := by
  simp only [Prod.mk.injEq] at h
  obtain ⟨hd, hc, hp⟩ := h
  unfold TarnOk
  rwa [hd, hc, hp]

theorem TarnOk.ite {c : Prop} [Decidable c] (ht : TarnOk t) (hu : TarnOk u) : TarnOk (if c then t else u) := by
  split
  · exact ht
  · exact hu

theorem TarnOk.iteSnd {α : Type} {c : Prop} [Decidable c] {a b : α × Tarn} (ha : TarnOk a.2) (hb : TarnOk b.2) :
    TarnOk (if c then a else b).2 := by
  split
  · exact ha
  · exact hb

theorem TarnOk.reset : TarnOk Tarn.reset := ⟨rfl, rfl, rfl⟩

theorem TarnOk.setDm {m : Tab Word} (w : TarnOk t) (h : tabWf (fun _ => 0) m = true) : TarnOk { t with dm := m } := ⟨h, w.cs, w.pm⟩

theorem TarnOk.setPm {m : Tab Word} (w : TarnOk t) (h : tabWf (fun _ => 0) m = true) : TarnOk { t with pm := m } := ⟨w.dm, w.cs, h⟩

/-- A core with program and constants loaded from address 0, as boot leaves it. -/
theorem TarnOk.load {st p n q m} (w : TarnOk t) : TarnOk { t with st := st, pm := tabOfList p n, cs := tabOfList q m } :=
  ⟨w.dm, tabWf_tabOfList q m, tabWf_tabOfList p n⟩

/-- A change that leaves the memories of the device as they are keeps their form. -/
theorem MemOk.same (w : MemOk d) (h : (e.basin, e.dram, e.regs, e.tarns) = (d.basin, d.dram, d.regs, d.tarns)) : MemOk e := by
  simp only [Prod.mk.injEq] at h
  obtain ⟨hb, hd, hr, ht⟩ := h
  unfold MemOk
  rwa [hb, hd, hr, ht]

theorem MemOk.setBasin {m : Tab Word} (w : MemOk d) (h : tabWf (fun _ => 0) m = true) :
    MemOk { d with basin := m } := ⟨h, w.dram, w.regs, w.tarns⟩

theorem MemOk.setRegs {m : Tab W64} (w : MemOk d) (h : tabWf regReset m = true) :
    MemOk { d with regs := m } := ⟨w.basin, w.dram, h, w.tarns⟩

theorem MemOk.setTarns {m : Tab Tarn} (w : MemOk d) (h : ∀ e ∈ m, TarnOk e.2) : MemOk { d with tarns := m } := ⟨w.basin, w.dram, w.regs, h⟩

theorem MemOk.ite {c : Prop} [Decidable c] (hd : MemOk d) (he : MemOk e) : MemOk (if c then d else e) := by
  split
  · exact hd
  · exact he

theorem MemOk.iteSnd {α : Type} {c : Prop} [Decidable c] {a b : α × Dev} (ha : MemOk a.2) (hb : MemOk b.2) :
    MemOk (if c then a else b).2 := by
  split
  · exact ha
  · exact hb

theorem MemOk.mk_snd {α : Type} {a : α} (w : MemOk d) : MemOk (a, d).2 := w

theorem MemOk.foldl {α : Type} {f : Dev → α → Dev} {l : List α} (w : MemOk d) (hf : ∀ x a, MemOk x → MemOk (f x a)) : MemOk (l.foldl f d) :=
  List.foldlRecOn l f w fun x h a _ => hf x a h

/-! ### Named operations over the device -/

protected theorem MemOk.setRg {key v} (w : MemOk d) : MemOk (setRg key v d) := w.setRegs (tabWf_tabSet _ _ _ _ w.regs)

protected theorem MemOk.setRgN {key n} (w : MemOk d) : MemOk (setRgN key n d) := w.setRg

protected theorem MemOk.incRg {key} (w : MemOk d) : MemOk (incRg key d) := w.setRgN

protected theorem MemOk.addRg {key n} (w : MemOk d) : MemOk (addRg key n d) := w.setRgN

protected theorem MemOk.out {o} (w : MemOk d) : MemOk (out o d) := w

protected theorem MemOk.spend (w : MemOk d) : MemOk (spend d) := w

protected theorem MemOk.modHdr {pg f} (w : MemOk d) : MemOk (modHdr pg f d) := w

protected theorem MemOk.attend {before fn} (w : MemOk d) : MemOk (attend before fn d) := .ite (w.same rfl) w

protected theorem MemOk.driveIrq {before} (w : MemOk d) : MemOk (driveIrq before d) := .ite w w.out

protected theorem MemOk.setCause {pg bits} (w : MemOk d) : MemOk (setCause pg bits d) := w.modHdr.attend.driveIrq

protected theorem MemOk.modRing {k f} (w : MemOk d) : MemOk (modRing k f d) := w

protected theorem MemOk.ringPut {k x} (w : MemOk d) : MemOk (ringPut k x d) := w.out.modRing

protected theorem MemOk.ringOffer {k x} (w : MemOk d) : MemOk (ringOffer k x d) :=
  .ite (w.same rfl) (.ite (.setCause (.ringPut (.ite w w.ringPut.modRing))) w.modRing.setCause)

protected theorem MemOk.logEvent {x} (w : MemOk d) : MemOk (logEvent x d) := .ite (w.same rfl) w

protected theorem MemOk.faultRec {x} (w : MemOk d) : MemOk (faultRec x d) := w.logEvent.ringOffer

protected theorem MemOk.foldInto {pg src} (w : MemOk d) : MemOk (foldInto pg src d) := w.modHdr.modHdr

protected theorem MemOk.unlatch {pg b others} (w : MemOk d) : MemOk (unlatch pg b others d) := .driveIrq (.ite w.modHdr (w.same rfl))

protected theorem MemOk.foldTick {src} (w : MemOk d) : MemOk (foldTick src d) := .foldl (w.same rfl) fun _ _ h => .ite h.unlatch.foldInto h

protected theorem MemOk.raise {pg b} (w : MemOk d) : MemOk (raise pg b d) := .ite w.setCause.modHdr.faultRec.foldTick w.setCause

protected theorem MemOk.raiseF {pg b src} (w : MemOk d) : MemOk (raiseF pg b src d) := .ite w.foldInto (.ite w.raise (.same w.raise rfl))

protected theorem MemOk.raisePart {p b} (w : MemOk d) : MemOk (raisePart p b d) := .ite w.raise.raise w.raise

protected theorem MemOk.raisePartF {p b src} (w : MemOk d) : MemOk (raisePartF p b src d) := .ite w.raiseF.raiseF w.raiseF

protected theorem MemOk.tagFault {unit owner req resource} (w : MemOk d) : MemOk (tagFault unit owner req resource d) :=
  w.faultRec.incRg.raiseF

protected theorem MemOk.offer {p r x} (w : MemOk d) : MemOk (offer p r x d) := .ite w.tagFault w.ringOffer

protected theorem MemOk.event {p x} (w : MemOk d) : MemOk (event p x d) := w.offer

protected theorem MemOk.anchorAll (w : MemOk d) : MemOk (anchorAll d) := .foldl w fun _ _ h => h.ringOffer

protected theorem MemOk.pushPerr {e} (w : MemOk d) : MemOk (pushPerr e d) := .ite (.raise (w.same rfl)) (.raise (w.same rfl))

protected theorem MemOk.logErr {fn r bar addr size} (w : MemOk d) : MemOk (logErr fn r bar addr size d) := w.pushPerr

protected theorem MemOk.reject {fn r bar addr size} (w : MemOk d) : MemOk (reject fn r bar addr size d) := .logErr (.ite w w.incRg)

protected theorem MemOk.setDevSt {st} (w : MemOk d) : MemOk (setDevSt st d) := .ite w (.raise (.setRgN (w.same rfl)))

protected theorem MemOk.actLow (w : MemOk d) : MemOk (actLow d) := .ite w.out w

protected theorem MemOk.enterFault {reason page} (w : MemOk d) : MemOk (enterFault reason page d) :=
  .ite w (.faultRec (.out (.actLow (.same w.setRgN.setDevSt rfl))))

protected theorem MemOk.unitFault {pg} (w : MemOk d) : MemOk (unitFault pg d) := .ite w.raise.enterFault w.raise

/-! ### Time Base -/

protected theorem MemOk.modTb {f} (w : MemOk d) : MemOk (modTb f d) := w

protected theorem MemOk.ntWrap (w : MemOk d) : MemOk (ntWrap d) := .ite w.modTb w.modTb.raise

protected theorem MemOk.tbTick (w : MemOk d) : MemOk (tbTick d) := .ite w.modTb w.modTb.ntWrap

protected theorem MemOk.setInc {v} (w : MemOk d) : MemOk (setInc v d) := w.modTb

protected theorem MemOk.holdStep {s tick} (w : MemOk d) : MemOk (holdStep s tick d) := w.modTb

protected theorem MemOk.applyStep {s} (w : MemOk d) : MemOk (applyStep s d) := .raise (.setRgN (.ite (w.same rfl) (.modTb (w.same rfl))))

protected theorem MemOk.raiseTimeState (w : MemOk d) : MemOk (raiseTimeState d) := .ite (.foldl w fun _ _ h => h.raise) w

protected theorem MemOk.setServo {st} (w : MemOk d) : MemOk (setServo st d) := by
  unfold setServo
  extract_lets was d1 d2 d3
  have w2 : MemOk d2 := .ite w.modTb.setRgN w.modTb
  have w3 : MemOk d3 := .ite w2.raise (.ite w2.raise w2)
  exact .ite w w3.raiseTimeState

protected theorem MemOk.jumpRefuse (w : MemOk d) : MemOk (jumpRefuse d) := w.setInc.modTb.setServo.raise

protected theorem MemOk.holdSource (w : MemOk d) : MemOk (holdSource d) := w.setInc.modTb.setServo

protected theorem MemOk.steer {off} (w : MemOk d) : MemOk (steer off d) := w.spend.modTb.setInc

protected theorem MemOk.servoStep {mean} (w : MemOk d) : MemOk (servoStep mean d) := by
  unfold servoStep
  split
  · exact w.holdStep.setServo
  · exact w.setServo
  · exact w
  · exact w.raise.jumpRefuse

protected theorem MemOk.acquired (w : MemOk d) : MemOk (acquired d) := w.modTb

protected theorem MemOk.measure {off} (w : MemOk d) : MemOk (measure off d) := by
  unfold measure
  dsimp only
  split
  · exact w
  · exact .ite w.modTb (.ite w.modTb.servoStep.acquired (.ite w.modTb.setServo.acquired w.modTb.jumpRefuse))
  · exact .ite w.jumpRefuse (.ite w.steer.setServo w.steer.modTb)
  · exact .ite w.jumpRefuse (.ite w.steer.setServo w.steer.modTb)
  · exact .ite w.modTb.setServo (.ite w.modTb.servoStep w.modTb)

protected theorem MemOk.reportOffset {off mpd} (w : MemOk d) : MemOk (reportOffset off mpd d) := w.modTb.setRg.setRg

protected theorem MemOk.takeMeasurement {off mpd} (w : MemOk d) : MemOk (takeMeasurement off mpd d) := .ite w w.reportOffset.measure

protected theorem MemOk.sourceQualified (w : MemOk d) : MemOk (sourceQualified d) := .ite w.modTb.setServo w.modTb

protected theorem MemOk.raiseSourceLost (w : MemOk d) : MemOk (raiseSourceLost d) := .ite w.raiseF w.raise

protected theorem MemOk.sourceLost (w : MemOk d) : MemOk (sourceLost d) := by
  unfold sourceLost
  dsimp only
  split
  · exact w.modTb
  · exact w.modTb.setServo.raiseSourceLost
  · exact w.modTb.modTb
  · exact w.modTb.holdSource.raiseSourceLost

protected theorem MemOk.setSource {n} (w : MemOk d) : MemOk (setSource n d) :=
  .ite w (.ite (.ite w.modTb.setServo w.modTb) w.modTb.setServo)

protected theorem MemOk.ppsRise (w : MemOk d) : MemOk (ppsRise d) := .ite w.modTb.out w

protected theorem MemOk.ppsFall (w : MemOk d) : MemOk (ppsFall d) := .ite w.modTb.out w

protected theorem MemOk.countSecond (w : MemOk d) : MemOk (countSecond d) := .ite w.incRg w

protected theorem MemOk.ppsEdge {stamp} (w : MemOk d) : MemOk (ppsEdge stamp d) := by
  unfold ppsEdge
  refine .ite w ?_
  extract_lets named d1
  have w1 : MemOk d1 := w.modTb.setRgN
  clear_value d1 named
  split
  · exact w1
  · exact .ite w1 w1.takeMeasurement

protected theorem MemOk.ppsMissing (w : MemOk d) : MemOk (ppsMissing d) := .ite w (.ite w.modTb.raise.sourceLost w.modTb.raise)

protected theorem MemOk.zda {utc ok} (w : MemOk d) : MemOk (zda utc ok d) :=
  .ite w (.ite w.modTb (.ite w.modTb.measure (.ite w.modTb.sourceQualified w.modTb)))

protected theorem MemOk.todError (w : MemOk d) : MemOk (todError d) := .ite w.raise w

protected theorem MemOk.refLoss (w : MemOk d) : MemOk (refLoss d) := .ite w w.modTb.raise

protected theorem MemOk.tbSoftReset (w : MemOk d) : MemOk (tbSoftReset d) := .modTb (.ite w.setServo.out w.setServo)

/-! ### Descriptors -/

protected theorem MemOk.modSlot {k f} (w : MemOk d) : MemOk (modSlot k f d) := w

protected theorem MemOk.modBus {b f} (w : MemOk d) : MemOk (modBus b f d) := w

/-! ### What other units ask of the twin -/

protected theorem MemOk.modTwin {f} (w : MemOk d) : MemOk (modTwin f d) := w

protected theorem MemOk.sendIngress {r} (w : MemOk d) : MemOk (sendIngress r d) := .out (.incRg (w.same rfl))

protected theorem MemOk.tell {kind fields} (w : MemOk d) : MemOk (tell kind fields d) := w.out

protected theorem MemOk.forward {o} (w : MemOk d) : MemOk (forward o d) := .ite w.modTwin.out w

protected theorem MemOk.driveAct (w : MemOk d) : MemOk (driveAct d) := .ite w (.ite w.modTwin.out w.modTwin)

protected theorem MemOk.setCh {k c} (w : MemOk d) : MemOk (setCh k c d) := w.modTwin

protected theorem MemOk.diverge (w : MemOk d) : MemOk (diverge d) := .foldl w fun _ _ h => h.setCh

/-! ### Admission -/

protected theorem MemOk.wipeTenant {gs} (w : MemOk d) : MemOk (wipeTenant gs d) := by
  rw [← memoryWf_iff] at w ⊢
  exact wipeTenant_memoryWf gs d w

protected theorem MemOk.allot {k} (w : MemOk d) : MemOk (allot k d) := w.modSlot.wipeTenant

protected theorem MemOk.recharge {k} (w : MemOk d) : MemOk (recharge k d) := by
  unfold recharge
  extract_lets s c
  exact w.modSlot.allot

protected theorem MemOk.basinPut {ws} (w : MemOk d) : MemOk (basinPut ws d) := by
  rw [← memoryWf_iff] at w ⊢
  exact basinPut_memoryWf ws d w

protected theorem MemOk.basinWrite {a v} (w : MemOk d) : MemOk (basinWrite a v d) := by
  unfold basinWrite
  dsimp only
  split
  · exact w.basinPut.modSlot
  · exact w.basinPut

protected theorem MemOk.putContext {k ctx} (w : MemOk d) : MemOk (putContext k ctx d) := w.basinPut

protected theorem MemOk.putImage {p id} (w : MemOk d) : MemOk (putImage p id d) := w.basinPut

protected theorem MemOk.installProg {p id code image gs pages} (w : MemOk d) : MemOk (installProg p id code image gs pages d) :=
  .putImage (w.same rfl)

protected theorem MemOk.dramWrite {a b} (w : MemOk d) : MemOk (dramWrite a b d) := by
  rw [← memoryWf_iff] at w ⊢
  exact dramWrite_memoryWf a b d w

/-! ### Delay lists -/

protected theorem MemOk.modWeir {f} (w : MemOk d) : MemOk (modWeir f d) := w

protected theorem MemOk.setDl {n l} (w : MemOk d) : MemOk (setDl n l d) := w.modWeir

protected theorem MemOk.dlInsert {n e} (w : MemOk d) : MemOk (dlInsert n e d).2 :=
  .iteSnd w.incRg.raise (.iteSnd w (.ite (.setRgN (.setDl (.ite w.incRg w))) (.setDl (.ite w.incRg w))))

protected theorem MemOk.dlAdd {n e} (w : MemOk d) : MemOk (dlAdd n e d) := w.dlInsert

protected theorem MemOk.dlDrop {n p} (w : MemOk d) : MemOk (dlDrop n p d) := w.setDl

protected theorem MemOk.dlTake {n p} (w : MemOk d) : MemOk (dlTake n p d).2 := by
  unfold dlTake
  split
  · exact w
  · exact w.setDl

protected theorem MemOk.vcnt {p off n} (w : MemOk d) : MemOk (vcnt p off n d) := .ite w.addRg.raise w.addRg

protected theorem MemOk.stale {cnt h} (w : MemOk d) : MemOk (stale cnt h d) := w.incRg.vcnt

protected theorem MemOk.dlPurge {h} (w : MemOk d) : MemOk (dlPurge h d) := .foldl w fun _ _ h => .foldl h.dlDrop fun _ _ h1 => h1.stale

/-! ### Channel window -/

protected theorem MemOk.setPend {k p} (w : MemOk d) : MemOk (setPend k p d) := by
  unfold setPend
  dsimp only
  split
  · exact w.modSlot.dlDrop
  · exact w.modSlot.dlDrop.dlAdd

protected theorem MemOk.chwApply {op p k q l} (w : MemOk d) : MemOk (chwApply op p k q l d) := by
  unfold chwApply
  dsimp only
  split
  · refine .recharge ?_
    split
    · exact .ite w.setPend (.ite w.modSlot.setPend w.modSlot)
    · exact .ite w.modSlot.setPend w.modSlot
  · split
    · exact w.modSlot.setPend.recharge
    · split
      · split
        · exact .ite (.ite w.setPend w) w.modSlot.setPend
        · exact w.modSlot.setPend
      · split
        · refine .recharge ?_
          split
          · exact .ite w.setPend w.setPend
          · exact w.setPend
        · exact w

protected theorem MemOk.chwResult {p o} (w : MemOk d) : MemOk (chwResult p o d).2.2.2.2 := by
  unfold chwResult
  split
  · exact w
  · extract_lets k s scheduled q open_ d1 r
    have w1 : MemOk d1 := w.chwApply
    split_ifs
    iterate 4 exact w
    · exact w.dlInsert
    iterate 2 exact w
    · exact w1

protected theorem MemOk.setResult {p r rep} (w : MemOk d) : MemOk (setResult p r rep d) := .ite w.setRgN.incRg w.setRgN

protected theorem MemOk.loadDesc {p k} (w : MemOk d) : MemOk (loadDesc p k d) := .foldl w fun _ _ h => h.setRg

protected theorem MemOk.setChw {p o} (w : MemOk d) : MemOk (setChw p o d) := w

protected theorem MemOk.chwStart {fn part op at_} (w : MemOk d) : MemOk (chwStart fn part op at_ d) := by
  unfold chwStart
  dsimp only
  split
  · exact w.reject
  · exact w.setChw

protected theorem MemOk.chwComplete {p} (w : MemOk d) : MemOk (chwComplete p d) := by
  unfold chwComplete
  split
  · exact w
  · extract_lets r d1 k d2 h d3
    have w2 : MemOk d2 := w.chwResult.setResult
    have w3 : MemOk d3 := .ite w2.setRg w2
    exact .ite w (.ite w2.setChw (.ite w2.loadDesc.setChw (.ite w3.forward.setChw w3.setChw)))

protected theorem MemOk.moveChange {k q} (w : MemOk d) : MemOk (moveChange k q d) := by
  unfold moveChange
  dsimp only
  split
  · exact .ite w.modSlot.setPend w.modSlot
  · exact w.modSlot

protected theorem MemOk.withdraw {k s} (w : MemOk d) : MemOk (withdraw k s d) := w.setPend.modSlot.setPend

protected theorem MemOk.chwAcked {h q} (w : MemOk d) : MemOk (chwAcked h q d) := by
  unfold chwAcked
  dsimp only
  split
  · split
    · exact .ite w.withdraw.setRg.setResult.setChw.forward (.ite (.ite w.moveChange.setChw.forward w.moveChange.setChw) w.setChw)
    · exact w.setChw
  · exact w

/-! ### Jitter buffers -/

protected theorem MemOk.modLeg {k leg f} (w : MemOk d) : MemOk (modLeg k leg f d) := w.modSlot

protected theorem MemOk.jbRecord {typ k leg b13 v} (w : MemOk d) : MemOk (jbRecord typ k leg b13 v d) := w.event

protected theorem MemOk.reanchor {k leg ts arr} (w : MemOk d) : MemOk (reanchor k leg ts arr d) := w.modLeg.incRg.jbRecord

protected theorem MemOk.rejectPacket {k leg ts arr} (w : MemOk d) : MemOk (rejectPacket k leg ts arr d).2 :=
  .iteSnd w.modLeg.incRg.vcnt.reanchor w.modLeg.incRg.vcnt

protected theorem MemOk.overrunPacket {k leg h} (w : MemOk d) : MemOk (overrunPacket k leg h d).2 :=
  .iteSnd w.modLeg.incRg.vcnt.jbRecord.reanchor w.modLeg.incRg.vcnt.jbRecord

protected theorem MemOk.takePayload {k leg h t'} (w : MemOk d) : MemOk (takePayload k leg h t' d) := w

protected theorem MemOk.firstAnchor {k leg ts arr} (w : MemOk d) : MemOk (firstAnchor k leg ts arr d) := .ite w.modLeg w

protected theorem MemOk.jbAccept {k leg h bound} (w : MemOk d) : MemOk (jbAccept k leg h bound d) := by
  unfold jbAccept
  extract_lets l t d1 g dly on
  have w1 : MemOk d1 := w.firstAnchor
  exact .ite (.ite w1.rejectPacket.takePayload w1.rejectPacket)
    (.ite (.ite w1.overrunPacket.takePayload w1.overrunPacket) (.ite w1.incRg w1.takePayload))

protected theorem MemOk.jbMove {k leg p} (w : MemOk d) : MemOk (jbMove k leg p d) := by
  unfold jbMove
  dsimp only
  split
  · exact w
  · split
    · exact w
    · exact .ite w.modLeg.incRg (.ite (.ite w.modLeg.incRg w.modLeg) w.modLeg)

protected theorem MemOk.jbRebase {k leg kk q} (w : MemOk d) : MemOk (jbRebase k leg kk q d) := .ite w w.modLeg.addRg

protected theorem MemOk.jbRun {k leg marked} (w : MemOk d) : MemOk (jbRun k leg marked d) :=
  .ite w (.ite (.modLeg (.ite w.jbRecord w)) (.ite w w.modLeg.jbRecord))

protected theorem MemOk.syncPrefetch {k l p} (w : MemOk d) : MemOk (syncPrefetch k l p d) :=
  .foldl w fun _ _ h => .ite (.ite h h.dlAdd) h.dlDrop

/-! ### Media functions -/

protected theorem MemOk.initContext {k} (w : MemOk d) : MemOk (initContext k d) :=
  .putContext (.same (w.setBasin (tabWf_tabFilter _ _ _ w.basin)) rfl)

/-! ### Egress -/

protected theorem MemOk.modPort {p f} (w : MemOk d) : MemOk (modPort p f d) := w

protected theorem MemOk.setMacStatus {p n} (w : MemOk d) : MemOk (setMacStatus p n d) := w.setRgN

protected theorem MemOk.leaveLpi {p} (w : MemOk d) : MemOk (leaveLpi p d) := .ite w.setMacStatus w

protected theorem MemOk.macCount {p key n} (w : MemOk d) : MemOk (macCount p key n d) := .ite w.addRg.raise w.addRg

protected theorem MemOk.countFrame {p i len typ ptp} (w : MemOk d) : MemOk (countFrame p i len typ ptp d) :=
  .ite w.macCount.macCount.macCount.macCount.macCount w.macCount.macCount.macCount.macCount

protected theorem MemOk.onWire {p octets n} (w : MemOk d) : MemOk (onWire p octets n d) := w.modPort.leaveLpi

protected theorem MemOk.takeCtl {p c} (w : MemOk d) : MemOk (takeCtl p c d) := w.modPort.onWire.countFrame

protected theorem MemOk.modFlow {i f} (w : MemOk d) : MemOk (modFlow i f d) := w

protected theorem MemOk.modKey {i f} (w : MemOk d) : MemOk (modKey i f d) := w

protected theorem MemOk.q6Offer {p e} (w : MemOk d) : MemOk (q6Offer p e d).2 := .iteSnd w.macCount w.modPort

protected theorem MemOk.cryptoLoad {n} (w : MemOk d) : MemOk (cryptoLoad n d) := w

protected theorem MemOk.withheld {k leg} (w : MemOk d) : ∀ x ∈ withheld k leg d, MemOk x := by
  unfold withheld
  dsimp only
  split
  · rintro _ ⟨⟩
    exact w.incRg
  · split
    · rintro _ ⟨⟩
    · split
      · rintro _ ⟨⟩
        exact w.incRg.vcnt
      · split
        · rintro _ ⟨⟩
          exact .ite w.incRg.raise w.incRg.raise.modKey.jbRecord
        · rintro _ ⟨⟩

protected theorem MemOk.queuePacket {k leg n e x} (w : MemOk d) : MemOk (queuePacket k leg n e x d) := w.q6Offer

protected theorem MemOk.sendRtp {k leg pt marker ts payload e} (w : MemOk d) : MemOk (sendRtp k leg pt marker ts payload e d) := by
  unfold sendRtp
  extract_lets l sq ki d0 d1
  have w1 : MemOk d1 := .modLeg (.ite w.modKey w)
  split
  next x hx => exact w1.withheld x hx
  next => exact .queuePacket (.ite w1.modLeg w1.modLeg.modKey.cryptoLoad)

protected theorem MemOk.closeFrame {k leg endT e} (w : MemOk d) : MemOk (closeFrame k leg endT e d) := by
  unfold closeFrame
  dsimp only
  split
  · exact w.modLeg.sendRtp
  · split
    · split
      · exact w.modLeg
      · exact w.modLeg.sendRtp
    · split
      · exact w.modLeg
      · exact w.modLeg.sendRtp

protected theorem MemOk.jumpFrame {k leg e} (w : MemOk d) : MemOk (jumpFrame k leg e d) := .ite w.modLeg w.modLeg.modLeg.closeFrame

protected theorem MemOk.egressLeg {k leg p e o jump} (w : MemOk d) : MemOk (egressLeg k leg p e o jump d) := by
  unfold egressLeg
  extract_lets l d0 d1 starts gone lead bytes d2 d3
  have w1 : MemOk d1 := .modLeg (.ite w.jumpFrame w)
  have w2 : MemOk d2 := .ite w1.incRg w1
  exact .ite w1 (.ite w2.modLeg.closeFrame w2.modLeg)

protected theorem MemOk.launch {p} (w : MemOk d) : MemOk (launch p d) := by
  unfold launch
  split
  · exact w
  · refine .ite w ?_
    extract_lets d1 t isBusy waking wait start late covered win stopAt dur d3 d4 d2 d5 d6 d8 d9
    have w1 : MemOk d1 := w.modPort
    have w3 : MemOk d3 := w1.incRg.vcnt
    have w2 : MemOk d2 := .ite w1.incRg (.ite (.raiseF (.ite w3.setRgN w3)) w1)
    have w5 : MemOk d5 := .ite w2.macCount w2
    have w6 : MemOk d6 := .ite w5.macCount.raise w5
    have w9 : MemOk d9 := w6.onWire.countFrame.incRg.vcnt
    refine .ite w1.macCount.raiseF (.ite w1.vcnt.incRg ?_)
    split
    · exact w9.out
    · exact w9.spend.out
    · exact w9

/-! ### PTP -/

protected theorem MemOk.modPtp {p f} (w : MemOk d) : MemOk (modPtp p f d) := w.modTb

protected theorem MemOk.setPtpState {p n} (w : MemOk d) : MemOk (setPtpState p n d) := w.setRg

protected theorem MemOk.ptpDrop {p} (w : MemOk d) : MemOk (ptpDrop p d) := w.incRg.raiseF

protected theorem MemOk.ptpRx {m f} (w : MemOk d) (hf : ∀ x, MemOk x → MemOk (f x)) : MemOk (ptpRx m f d) :=
  .ite w (.ite w.ptpDrop (hf d w))

protected theorem MemOk.ctlGoes {p c start} (w : MemOk d) : MemOk (ctlGoes p c start d) :=
  .ite w.out (.ite (.ite w.out w.out.modPort) (.ite w.out.modPtp (.ite w.out.modPtp (.ite (.ite w.out w.out.modPort) w.out))))

protected theorem MemOk.ctlLoop {p} : ∀ {n d}, MemOk d → MemOk (ctlLoop n p d)
  | 0, _, w => w
  | n + 1, d, w => by
    unfold ctlLoop
    split
    · exact w
    · exact w.takeCtl.ctlGoes.ctlLoop

protected theorem MemOk.sendCtl {p} (w : MemOk d) : MemOk (sendCtl p d) := w.ctlLoop

protected theorem MemOk.queueCtl {p c} (w : MemOk d) : MemOk (queueCtl p c d) := .ite w.modPort.sendCtl w

protected theorem MemOk.ptpTx {p kind dst seq rest extra} (w : MemOk d) : MemOk (ptpTx p kind dst seq rest extra d) := w.queueCtl

protected theorem MemOk.syncOffset {p t1 corr} (w : MemOk d) : MemOk (syncOffset p t1 corr d) :=
  .ite w (.ite w.takeMeasurement (.ite w.reportOffset w))

protected theorem MemOk.ptpSync {m} (w : MemOk d) : MemOk (ptpSync m d) := .ptpRx w fun _ h => .ite h.modPtp h.modPtp.syncOffset

protected theorem MemOk.ptpFollowUp {m} (w : MemOk d) : MemOk (ptpFollowUp m d) := .ptpRx w fun _ h => .ite h.modPtp.syncOffset h

protected theorem MemOk.ptpDelayReq {m} (w : MemOk d) : MemOk (ptpDelayReq m d) := .ptpRx w fun _ h => .ite h.ptpTx h

protected theorem MemOk.showDelay {dl} (w : MemOk d) : MemOk (showDelay dl d) := w.setRg

protected theorem MemOk.ptpDelayResp {m} (w : MemOk d) : MemOk (ptpDelayResp m d) := by
  refine .ptpRx w fun x h => ?_
  dsimp only
  split
  · split
    · exact h.modPtp
    · exact h.modPtp.showDelay
  · exact h

protected theorem MemOk.ptpPdelayReq {m} (w : MemOk d) : MemOk (ptpPdelayReq m d) := .ptpRx w fun _ h => .ite h h.ptpTx

protected theorem MemOk.peerDone {p t3 corr} (w : MemOk d) : MemOk (peerDone p t3 corr d) := by
  unfold peerDone
  dsimp only
  split
  · exact w
  · exact .ite w.modPtp.showDelay w.modPtp

protected theorem MemOk.ptpPdelayResp {m} (w : MemOk d) : MemOk (ptpPdelayResp m d) :=
  .ptpRx w fun _ h => .ite (.ite h.modPtp h.modPtp.peerDone) h

protected theorem MemOk.ptpPdelayRespFu {m} (w : MemOk d) : MemOk (ptpPdelayRespFu m d) := .ptpRx w fun _ h => .ite h.peerDone h

protected theorem MemOk.assignRoles (w : MemOk d) : MemOk (assignRoles d) :=
  .foldl w fun _ _ h => .ite h.setPtpState (.ite h.setPtpState (.ite h.setPtpState h.setPtpState))

protected theorem MemOk.adoptGm (w : MemOk d) : MemOk (adoptGm d) := by
  unfold adoptGm
  split
  · exact w
  · split
    · exact w
    · exact .ite w w.modTb.setRg

protected theorem MemOk.setRoles (w : MemOk d) : MemOk (setRoles d) := .adoptGm (.assignRoles (.foldl w fun _ _ h => h.modPtp))

protected theorem MemOk.dropMaster {p id pn} (w : MemOk d) : MemOk (dropMaster p id pn d) := w.modPtp.setRoles

protected theorem MemOk.ptpAnnounce {m a} (w : MemOk d) : MemOk (ptpAnnounce m a d) := .ptpRx w fun _ h => .ite h h.modPtp.setRoles

protected theorem MemOk.lostSource (w : MemOk d) : MemOk (lostSource d) := by
  unfold lostSource
  dsimp only
  split
  · split
    · exact w.sourceLost.dropMaster
    · exact w.sourceLost
  · exact w.sourceLost

protected theorem MemOk.ptpSignaling {m t} (w : MemOk d) : MemOk (ptpSignaling m t d) :=
  .ptpRx w fun _ h => .ite h (.ite (.ite h.modPtp.ptpTx h.ptpTx) (.ite (.ptpTx (.ite h.modPtp.dropMaster h.modPtp)) h))

protected theorem MemOk.ptpSend {p kind} (w : MemOk d) : MemOk (ptpSend p kind d) :=
  .ite w (.ite (.modPtp (.foldl w fun _ _ h => h.ptpTx)) (.ite (.modPtp (.foldl w fun _ _ h => h.ptpTx))
    (.ite w.modPtp.ptpTx.modPtp (.ite w.modPtp.ptpTx.modPtp w))))

/-! ### Recorder and spools -/

protected theorem MemOk.modRec {f} (w : MemOk d) : MemOk (modRec f d) := w

protected theorem MemOk.setStream {key s} (w : MemOk d) : MemOk (setStream key s d) := w.modRec

protected theorem MemOk.modSpool {p f} (w : MemOk d) : MemOk (modSpool p f d) := w.modRec

protected theorem MemOk.recRecord {typ p b12 v} (w : MemOk d) : MemOk (recRecord typ p b12 v d) := w.ringOffer

protected theorem MemOk.loseUnit {u reason} (w : MemOk d) : MemOk (loseUnit u reason d) := by
  unfold loseUnit
  dsimp only
  split
  · exact .ite w.incRg.recRecord.raise.setStream w.incRg.recRecord.raise
  · exact w.incRg.recRecord.raise

protected theorem MemOk.exportUnit {ringPart sp u} (w : MemOk d) : MemOk (exportUnit ringPart sp u d) := w.out.ringOffer

protected theorem MemOk.spoolUnit {u} (w : MemOk d) : MemOk (spoolUnit u d) :=
  .ite w.loseUnit (.ite w.loseUnit (.ite w (.ite w.raiseF.loseUnit (.ite w.loseUnit w.modSpool.modRec.incRg))))

protected theorem MemOk.routeUnit {u} (w : MemOk d) : MemOk (routeUnit u d) :=
  .ite (.ite w.exportUnit w.modSpool.recRecord.raise.spoolUnit) w.spoolUnit

protected theorem MemOk.stagingLoss {u} (w : MemOk d) : MemOk (stagingLoss u d) := w.raiseF.loseUnit

protected theorem MemOk.loseStaged {held u} (w : MemOk d) : MemOk (loseStaged held u d) := w.modRec.stagingLoss

protected theorem MemOk.emitUnit {u raw} (w : MemOk d) : MemOk (emitUnit u raw d) := by
  unfold emitUnit
  extract_lets d1 d2
  have w2 : MemOk d2 := .ite w.modRec.incRg.incRg w.modRec.incRg
  exact .ite w2.stagingLoss (.ite w2.modRec w2.modRec)

protected theorem MemOk.exportStaged (w : MemOk d) : MemOk (exportStaged d) := .foldl w.modRec fun _ _ h => h.routeUnit

protected theorem MemOk.closeUnit {key fin at_} (w : MemOk d) : MemOk (closeUnit key fin at_ d) := by
  unfold closeUnit
  split
  · exact w
  · exact .ite w.setStream w.setStream.emitUnit

protected theorem MemOk.qualityUnit {key at_} (w : MemOk d) : MemOk (qualityUnit key at_ d) := by
  unfold qualityUnit
  split
  · exact w.emitUnit
  · exact w

protected theorem MemOk.openStream {k leg l q} (w : MemOk d) : MemOk (openStream k leg l q d) := w.setStream.qualityUnit

protected theorem MemOk.endStream {key at_} (w : MemOk d) : MemOk (endStream key at_ d) := w.closeUnit.setStream

protected theorem MemOk.syncStreams {k l q} (w : MemOk d) : MemOk (syncStreams k l q d) := by
  unfold syncStreams
  refine .foldl w fun _ _ h => ?_
  dsimp only
  split
  · exact .ite h.endStream (.ite h.endStream.openStream h.setStream)
  · exact .ite h.openStream h

protected theorem MemOk.recordPass {k leg p e o conc jump n} (w : MemOk d) : MemOk (recordPass k leg p e o conc jump n d) := by
  unfold recordPass
  extract_lets key d0 atSec
  split
  · exact w
  · extract_lets s x fresh d1 s1 d2 d3
    have w0 : MemOk d0 := .ite w.closeUnit w
    have w1 : MemOk d1 := .ite w0.qualityUnit w0
    have w3 : MemOk d3 := w1.setStream.modRec
    exact .ite w (.ite w3.closeUnit w3)

protected theorem MemOk.spoolCheck {p} (w : MemOk d) : MemOk (spoolCheck p d) :=
  .ite (.modSpool (.ite w w.modSpool)) (.ite (.raise (.recRecord (.modSpool (.ite w w.modSpool)))) (.ite w w.modSpool))

protected theorem MemOk.spoolCheckAll (w : MemOk d) : MemOk (spoolCheckAll d) := .foldl w fun _ _ h => h.spoolCheck

protected theorem MemOk.noteDrain (w : MemOk d) : MemOk (noteDrain d) := w.modRec

protected theorem MemOk.drainOne {p} (w : MemOk d) : MemOk (drainOne p d) := by
  unfold drainOne
  extract_lets s dst
  clear_value s
  split
  · exact w
  · extract_lets d0 y d1 n
    have w0 : MemOk d0 := w.modSpool.noteDrain.spend
    have w1 : MemOk d1 := .ite w0.loseUnit w0.exportUnit.modSpool.incRg
    exact .ite w.spoolCheck (.ite w (.ite (.modSpool (.ite w1 w1.recRecord)) w1))

protected theorem MemOk.discardSpool {p} (w : MemOk d) : MemOk (discardSpool p d) :=
  .ite w.modSpool.modRec.addRg.recRecord w.modSpool.modRec.addRg.recRecord.raise

protected theorem MemOk.commitSpool (w : MemOk d) : MemOk (commitSpool d) := w.modRec

/-! ### Cluster unit and Peer Fabric -/

protected theorem MemOk.modClu {f} (w : MemOk d) : MemOk (modClu f d) := w

protected theorem MemOk.driveSync (w : MemOk d) : MemOk (driveSync d) := .ite w (.ite w.modClu w.modClu.out)

protected theorem MemOk.lfePulse {t'} (w : MemOk d) : MemOk (lfePulse t' d) := .ite (w.same rfl) w

protected theorem MemOk.syncPulse (w : MemOk d) : MemOk (syncPulse d) := .ite w.out.out.lfePulse w

protected theorem MemOk.earlyPulse (w : MemOk d) : MemOk (earlyPulse d) := .ite w w.modClu.syncPulse

protected theorem MemOk.cluJoined (w : MemOk d) : MemOk (cluJoined d) := .ite w.modClu.raise w

protected theorem MemOk.workerPulse {stamp frac} (w : MemOk d) : MemOk (workerPulse stamp frac d) := by
  unfold workerPulse
  refine .ite w ?_
  extract_lets t d1
  have w1 : MemOk d1 := .ite w w.incRg
  clear_value t
  split
  · exact w1.lfePulse
  · extract_lets off d2 d3 d4
    have w3 : MemOk d3 := w1.modClu.setRg.setRgN
    exact .lfePulse (.cluJoined (.takeMeasurement (.ite w3 w3.sourceQualified)))

protected theorem MemOk.missPulse (w : MemOk d) : MemOk (missPulse d) :=
  .ite w (.ite w.modClu.incRg.raiseF.sourceLost w.modClu.incRg.raiseF)

protected theorem MemOk.cluSend (w : MemOk d) : MemOk (cluSend d) := by
  unfold cluSend
  refine .ite w (.ite w (.ite w.modClu.out (.out (.modClu ?_))))
  split
  · exact w
  · exact .ite w.modClu.modClu.raise w.modClu

protected theorem MemOk.cluStatus {w' servo role off fault} (w : MemOk d) : MemOk (cluStatus w' servo role off fault d) :=
  .ite w w.modClu.setRgN

protected theorem MemOk.cluStepRx {s q} (w : MemOk d) : MemOk (cluStepRx s q d) := .ite w (.ite (.same w.applyStep rfl) w.applyStep.modTb)

protected theorem MemOk.modFab {f} (w : MemOk d) : MemOk (modFab f d) := w

protected theorem MemOk.takeAddr (w : MemOk d) : MemOk (takeAddr d) := by
  unfold takeAddr
  dsimp only
  split
  · exact w.setRgN
  · split
    · split
      · exact w.setRgN
      · exact w.setRgN
    · exact w.setRgN

protected theorem MemOk.setRoute {dst r} (w : MemOk d) : MemOk (setRoute dst r d) := w.modFab

protected theorem MemOk.peerRecord {typ peer} (w : MemOk d) : MemOk (peerRecord typ peer d) :=
  .ite w (.foldl w.ringOffer fun _ _ h => h.ringOffer)

protected theorem MemOk.peerLost {dst port} (w : MemOk d) : MemOk (peerLost dst port d) := w.modFab.raiseF.peerRecord

protected theorem MemOk.peerUp {dst} (w : MemOk d) : MemOk (peerUp dst d) := .ite w.modFab.peerRecord w

protected theorem MemOk.poison {p} (w : MemOk d) : MemOk (poison p d) := by
  unfold poison
  refine .foldl w fun _ _ h => ?_
  split
  · exact .ite h.setRoute.peerLost h
  · exact h

protected theorem MemOk.learnRoute {dst m hop port} (w : MemOk d) : MemOk (learnRoute dst m hop port d) := by
  unfold learnRoute
  dsimp only
  split
  · exact w
  · split
    · exact .ite w.setRoute.peerUp w
    · exact .ite (.ite w.modFab (.ite w.setRoute.peerLost (.ite w.setRoute.peerUp w.setRoute))) (.ite w.setRoute.peerUp w)

protected theorem MemOk.claim {addr id} (w : MemOk d) : MemOk (claim addr id d) := by
  unfold claim
  dsimp only
  split
  · exact w.modFab
  · exact .ite (.ite (.ite w.modFab.setRgN.raise.takeAddr w.modFab.setRgN.raise) w) w.modFab

protected theorem MemOk.helloRx {port addr id} (w : MemOk d) : MemOk (helloRx port addr id d) := .ite w w.claim.modFab.learnRoute

protected theorem MemOk.fabFrame {kind p octets fields} (w : MemOk d) : MemOk (fabFrame kind p octets fields d) := w.queueCtl

protected theorem MemOk.helloTx (w : MemOk d) : MemOk (helloTx d) := .ite w (.ite (.foldl w.modFab fun _ _ h => h.fabFrame) w.modFab)

protected theorem MemOk.nbrLoss {port addr} (w : MemOk d) : MemOk (nbrLoss port addr d) := w.modFab.poison

protected theorem MemOk.routeRx {port src es} (w : MemOk d) : MemOk (routeRx port src es d) :=
  .ite w (.foldl w fun _ _ h => h.claim.learnRoute)

protected theorem MemOk.routeTxDo (w : MemOk d) : MemOk (routeTxDo d) := by
  unfold routeTxDo
  split
  · exact w
  · exact .ite w (.foldl w.modFab fun _ _ h => h.fabFrame)

protected theorem MemOk.routeOld {dst} (w : MemOk d) : MemOk (routeOld dst d) := by
  unfold routeOld
  split
  · exact .ite w.setRoute.peerLost (.ite w.setRoute w)
  · exact w

protected theorem MemOk.trunkBindDo {v} (w : MemOk d) : MemOk (trunkBindDo v d) := .ite w.modFab.setRg (.ite w.reject w.modFab.setRg)

protected theorem MemOk.queueBundle {p part t' nEntries} (w : MemOk d) : MemOk (queueBundle p part t' nEntries d) :=
  .ite (.iteSnd w.q6Offer w) (.ringOffer (.raiseF (.macCount (.iteSnd w.q6Offer w))))

protected theorem MemOk.bundles {e outs} (w : MemOk d) : MemOk (bundles e outs d) := by
  refine .foldl w fun x g h => ?_
  dsimp only
  split
  · exact .ite h.addRg (.foldl h fun _ _ h1 => h1.queueBundle)
  · exact h.addRg

protected theorem MemOk.trunkEntry {port stamp bound t' z} (w : MemOk d) : MemOk (trunkEntry port stamp bound t' z d) := by
  unfold trunkEntry
  dsimp only
  split
  · exact w.incRg
  · split
    · exact w.incRg.raise
    · split
      · exact w.incRg
      · exact .ite w.incRg (w.same rfl)

protected theorem MemOk.trunkForward {stamp t'} (w : MemOk d) : MemOk (trunkForward stamp t' d) := by
  unfold trunkForward
  split
  · exact w.incRg.raise
  · split
    · exact w
    · exact .ite w w.q6Offer

/-! ### Weir, cores' jobs and scrubbing -/

protected theorem MemOk.tarn {c} (w : MemOk d) : TarnOk (tarn c d) := tabGet_of_forall .reset w.tarns

/-- A core changed by `f` keeps the form where `f` keeps the form of that core's memories. -/
protected theorem MemOk.modTarn {c f} (w : MemOk d) (hf : TarnOk (tarn c d) → TarnOk (f (tarn c d))) : MemOk (modTarn c f d) :=
  w.setTarns (forall_mem_tabSet (hf w.tarn) w.tarns)

protected theorem TarnOk.setTr {n v} (w : TarnOk t) : TarnOk (setTr n v t) := w

protected theorem MemOk.statusFault {pg b} (w : MemOk d) : MemOk (statusFault pg b d) := w.modHdr

protected theorem MemOk.setJobs {c l} (w : MemOk d) : MemOk (setJobs c l d) := w.modWeir

protected theorem MemOk.stage {c} : ∀ {n d}, MemOk d → MemOk (stage n c d)
  | 0, _, w => w
  | n + 1, d, w => by
    unfold stage
    dsimp only
    split
    · exact w
    · split
      · exact w
      · split
        · exact w.setJobs.stale.stage
        · exact w.setJobs.stage

protected theorem MemOk.steal {c} (w : MemOk d) : MemOk (steal c d) := by
  unfold steal
  refine .ite w ?_
  extract_lets from_
  clear_value from_
  split
  · exact w
  · split
    · exact w
    · exact w.setJobs.setJobs

protected theorem MemOk.coreNext {c} (w : MemOk d) : MemOk (coreNext c d) := w.steal.stage

protected theorem MemOk.dispatch {j} (w : MemOk d) : MemOk (dispatch j d) := by
  unfold dispatch
  split
  · exact w.unitFault
  · exact w.setJobs.coreNext

protected theorem MemOk.modTokens {p f} (w : MemOk d) : MemOk (modTokens p f d) := w.modWeir

protected theorem MemOk.dropToken {t'} (w : MemOk d) : MemOk (dropToken t' d) := w.modWeir

protected theorem MemOk.weirRecord {typ h due core b17} (w : MemOk d) : MemOk (weirRecord typ h due core b17 d) := w.event

protected theorem MemOk.noteDispatch {k} (w : MemOk d) : MemOk (noteDispatch k d) := w.modSlot

protected theorem MemOk.fireToken {t'} (w : MemOk d) : MemOk (fireToken t' d) :=
  .ite w.dropToken.stale (.dispatch (.ite w.dropToken.modWeir.incRg w.dropToken.modWeir.incRg.jbRun.jbRun.noteDispatch))

protected theorem MemOk.fireReady (w : MemOk d) : MemOk (fireReady d) := .ite w (.foldl w fun _ _ h => h.fireToken)

protected theorem MemOk.fireOne {isBus h} (w : MemOk d) : MemOk (fireOne isBus h d) := by
  unfold fireOne
  split
  · exact w
  · split
    · exact w.fireToken
    · exact w

protected theorem MemOk.fillLeg {h leg p o} (w : MemOk d) : MemOk (fillLeg h leg p o d) := w.modTokens.fireOne

protected theorem MemOk.fillCtx {isBus h} (w : MemOk d) : MemOk (fillCtx isBus h d) := by
  unfold fillCtx
  dsimp only
  split
  · exact w
  · exact w.modTokens.fireOne

protected theorem MemOk.deadlineToken {t'} (w : MemOk d) : MemOk (deadlineToken t' d) :=
  .ite (.ite w (.ite w.dropToken.stale (.ite w.dropToken w.dropToken.modWeir.incRg))) w.fireToken

protected theorem MemOk.deadline (w : MemOk d) : MemOk (deadline d) := .ite (.foldl w fun _ _ h => h.deadlineToken) w

protected theorem MemOk.putJob {c j j'} (w : MemOk d) : MemOk (putJob c j j' d) := w.setJobs

protected theorem MemOk.commitSlot {j o} (w : MemOk d) : MemOk (commitSlot j o d) := .ite w w.modSlot

protected theorem MemOk.noteWords {c n} (w : MemOk d) : MemOk (noteWords c n d) := w.modWeir

protected theorem MemOk.fillBuffer {c b ws} (w : MemOk d) : MemOk (fillBuffer c b ws d) :=
  w.modTarn fun h => h.setDm (tabWf_buffer _ _ h.dm)

protected theorem MemOk.syncToneEnd {k} (w : MemOk d) : MemOk (syncToneEnd k d) := by
  unfold syncToneEnd
  dsimp only
  split
  · exact w.dlDrop
  · exact w.dlDrop.dlAdd

protected theorem MemOk.noteDone {j} (w : MemOk d) : MemOk (noteDone j d) := w.modWeir

protected theorem MemOk.replayedRec {j core} (w : MemOk d) : MemOk (replayedRec j core d) := .ite w.weirRecord w

protected theorem MemOk.lostRecs {j core} (w : MemOk d) : MemOk (lostRecs j core d) := .replayedRec (.ite w.weirRecord w)

protected theorem MemOk.completeJob {c} (w : MemOk d) : MemOk (completeJob c d) := by
  unfold completeJob
  split
  · exact w
  · split
    · exact w
    · extract_lets d1 o d2 d3 d4
      have w1 : MemOk d1 := w.modTarn fun h => (h.setDm (tabWf_drained _ h.dm)).same rfl
      have w3 : MemOk d3 := .modWeir (.replayedRec (.ite w1 w1.commitSlot.syncToneEnd))
      exact .ite w1.setJobs.stale.coreNext (.coreNext (.putJob (.ite w3.fillBuffer w3)))

protected theorem MemOk.suspect {k} (w : MemOk d) : MemOk (suspect k d) := .ite w.modSlot w

protected theorem MemOk.reinit {k} (w : MemOk d) : MemOk (reinit k d) := w.initContext.weirRecord.raisePartF

protected theorem MemOk.loseOperand {k leg p} (w : MemOk d) : MemOk (loseOperand k leg p d) := w.modLeg.modTokens

protected theorem MemOk.loseTenantData {k} (w : MemOk d) : MemOk (loseTenantData k d) :=
  .modTokens (.modWeir (.modSlot (.same (w.setBasin (tabWf_tabFilter _ _ _ w.basin)) rfl)))

protected theorem MemOk.loseImage {key} (w : MemOk d) : MemOk (loseImage key d) := .foldl (w.same rfl) fun _ _ h => .ite h.modTokens h

protected theorem MemOk.basinUe {a} (w : MemOk d) : MemOk (basinUe a d) := by
  unfold basinUe
  dsimp only
  split
  · split
    · exact w.suspect
    · exact w
  · split
    · split
      · exact w.loseOperand
      · exact w
    · split
      · split
        · exact w.loseTenantData
        · split
          · exact w.loseImage
          · exact w
      · split
        · split
          · split
            · exact w.modWeir
            · exact w
          · split
            · exact w.putJob
            · exact w
        · exact .ite w.unitFault w

protected theorem MemOk.basinUeFound {a} (w : MemOk d) : MemOk (basinUeFound a d) := w.incRg.setRgN.setRgN.raise.basinUe

protected theorem MemOk.meetPoison {as} (w : MemOk d) : MemOk (meetPoison as d) := .foldl w fun _ _ h => h.basinUeFound

protected theorem MemOk.basinScrub {a err} (w : MemOk d) : MemOk (basinScrub a err d) := by
  unfold basinScrub
  extract_lets b n x d1
  have w1 : MemOk d1 := .ite (.ite w.incRg.modWeir.raise w.incRg.modWeir) (.ite w.basinUeFound w)
  exact .ite w (.ite w1.modWeir.incRg w1)

protected theorem MemOk.streamIn {c} (w : MemOk d) : MemOk (streamIn c d) := by
  unfold streamIn
  split
  · exact w
  · exact .meetPoison (.noteWords (w.putJob.fillBuffer.modTarn fun h => h.same rfl))

protected theorem MemOk.runJob {isBus c} (w : MemOk d) : MemOk (runJob isBus c d) := by
  unfold runJob
  split
  · exact w
  · extract_lets ds bad d0 j1 o d1 d2
    have w2 : MemOk d2 := .setJobs (w.meetPoison.modTarn fun h => h.same rfl)
    exact .ite w (.ite w2 w2.fillBuffer)

protected theorem MemOk.stageEnds {c x} (w : MemOk d) : MemOk (stageEnds c x d) := by
  unfold stageEnds
  split
  · exact w
  · exact .ite w w.putJob

protected theorem MemOk.streamOut {c ue} (w : MemOk d) : MemOk (streamOut c ue d) := by
  unfold streamOut
  split
  · exact w
  · extract_lets d1 as ts d2 d3 d4
    have w1 : MemOk d1 := .noteDone (w.setJobs.modTarn fun h => h.same rfl)
    have w2 : MemOk d2 := w1.noteWords.basinPut
    have w3 : MemOk d3 := by
      unfold d3
      split
      · exact w2.basinPut
      · exact w2
    have w4 : MemOk d4 := by
      unfold d4
      split
      · exact .ite (.basinUeFound (w3.same rfl)) w3
      · exact w3
    exact .ite w1.stale.coreNext (.ite w1.noteWords.fillCtx.coreNext w4.fillCtx.coreNext)

protected theorem MemOk.dramUe {a} (w : MemOk d) : MemOk (dramUe a d) := w.incRg.setRgN.setRgN.raiseF

protected theorem MemOk.dramLost {a} (w : MemOk d) : MemOk (dramLost a d) := by
  unfold dramLost
  dsimp only
  split
  · exact w.putJob
  · split
    · exact w.loseStaged
    · exact w

protected theorem MemOk.dramScrub {a err} (w : MemOk d) : MemOk (dramScrub a err d) := by
  unfold dramScrub
  extract_lets d0 d1
  have w0 : MemOk d0 := .ite w.modWeir w
  have w1 : MemOk d1 := w0.incRg.modWeir
  exact .ite w (.ite (.ite w1.raise w1) (.ite w0.dramUe.dramLost w0))

protected theorem MemOk.writeFail {page part a h} (w : MemOk d) : MemOk (writeFail page part a h d) :=
  .ite w.incRg.faultRec.raiseF.suspect w.incRg.faultRec.raiseF

protected theorem MemOk.modShed {p f} (w : MemOk d) : MemOk (modShed p f d) := w.modWeir

protected theorem MemOk.decideShed (w : MemOk d) : MemOk (decideShed d) := by
  unfold decideShed
  split
  · exact w
  · split
    · exact w
    · exact w.modWeir.forward

protected theorem MemOk.checkCapacity {was} (w : MemOk d) : MemOk (checkCapacity was d) := .ite w.raise.decideShed w

protected theorem MemOk.replayFail {core j} (w : MemOk d) : MemOk (replayFail core j d) :=
  .fillCtx (.ite w.lostRecs.incRg.raise.raisePartF w.lostRecs.incRg.raise.raisePartF.suspect)

protected theorem MemOk.requeue {core j} (w : MemOk d) : MemOk (requeue core j d) := by
  unfold requeue
  split
  · exact w.replayFail
  · split
    · exact w
    · exact w.setJobs.incRg.vcnt.raisePartF.coreNext

protected theorem MemOk.coreStops {c src cs} (w : MemOk d) : MemOk (coreStops c src cs d) :=
  .raise (.statusFault (w.setRgN.setRgN.modTarn fun h => h.same rfl))

protected theorem MemOk.faultCore {c src cs} (w : MemOk d) : MemOk (faultCore c src cs d) := by
  unfold faultCore
  extract_lets d1 d2 l run gone d3 d4
  have w3 : MemOk d3 := w.coreStops.modWeir.raise.setJobs
  have w4 : MemOk d4 := .ite w3.unitFault (.foldl w3 fun _ _ h => .ite h.replayFail h.requeue)
  exact .ite (.ite w (.ite w.coreStops.raise.enterFault w.coreStops)) (.ite w w4.checkCapacity)

protected theorem MemOk.returnCores {v} (w : MemOk d) : MemOk (returnCores v d) :=
  .foldl w fun _ _ h => .ite (h.modWeir.modTarn fun h => h.same rfl) h

protected theorem MemOk.selftestEnds {c pass} (w : MemOk d) : MemOk (selftestEnds c pass d) :=
  .ite w (.ite w.modWeir.modWeir (.raise (w.modWeir.modTarn fun h => h.same rfl)))

protected theorem MemOk.rejoinCore {c} (w : MemOk d) : MemOk (rejoinCore c d) := .statusFault (w.modWeir.modTarn fun h => h.same rfl)

/-! ### Access by the host -/

protected theorem MemOk.fromHost {fn f} (w : MemOk d) (hf : ∀ x, MemOk x → MemOk (f x)) : MemOk (fromHost fn f d) := .ite w (hf d w)

protected theorem MemOk.fromWindow {fn part k off f} (w : MemOk d) (hf : ∀ x, MemOk x → MemOk (f x)) :
    MemOk (fromWindow fn part k off f d) :=
  w.fromHost fun x h => .ite h.reject (hf x h)

protected theorem MemOk.unlocked {pg off size f} (w : MemOk d) (hf : ∀ x, MemOk x → MemOk (f x)) : MemOk (unlocked pg off size f d) :=
  .ite w.reject (hf d w)

protected theorem MemOk.notStandby {fn addr size f} (w : MemOk d) (hf : ∀ x, MemOk x → MemOk (f x)) : MemOk (notStandby fn addr size f d) :=
  .ite w.reject (hf d w)

protected theorem MemOk.storeReg {pg off v} (w : MemOk d) : MemOk (storeReg pg off v d) := w.setRgN

/-! ### Lines as other units see them -/

protected theorem MemOk.modLfe {f} (w : MemOk d) : MemOk (modLfe f d) := w

protected theorem MemOk.modLine {n f} (w : MemOk d) : MemOk (modLine n f d) := w.modLfe

protected theorem MemOk.retag {n t'} (w : MemOk d) : MemOk (retag n t' d) := .ite w w.modLine

protected theorem MemOk.settle {n t'} (w : MemOk d) : MemOk (settle n t' d) := w.modLine.retag

protected theorem MemOk.scePush {v} (w : MemOk d) : MemOk (scePush v d) := .ite (w.same rfl) (.raise (w.same rfl))

protected theorem MemOk.pushWord {n off} (w : MemOk d) : MemOk (pushWord n off d) := .ite w.scePush w

protected theorem MemOk.cadenceStops {n} (w : MemOk d) : MemOk (cadenceStops n d) := .ite w.modLine w

protected theorem MemOk.bindingStale {n} (w : MemOk d) : MemOk (bindingStale n d) := w.modLine.cadenceStops.setRgN.incRg.raise

protected theorem MemOk.unbindLines {h} (w : MemOk d) : MemOk (unbindLines h d) := by
  unfold unbindLines
  refine .foldl w fun _ _ h => ?_
  split
  · exact .ite h.bindingStale h
  · exact h

/-! ### Partitions and tenant programs -/

protected theorem MemOk.dropFlows {p} (w : MemOk d) : MemOk (dropFlows p d) := .foldl w fun _ _ h => .ite h.modFlow h

protected theorem MemOk.eraseKeys {k} (w : MemOk d) : MemOk (eraseKeys k d) := .foldl w fun _ _ h => h.modKey

protected theorem MemOk.releaseSlot {k q} (w : MemOk d) : MemOk (releaseSlot k q d) :=
  w.endStream.endStream.dropFlows.eraseKeys.dlPurge.unbindLines.modFab.modSlot.setCh

protected theorem MemOk.quiesceEnds {k} (w : MemOk d) : MemOk (quiesceEnds k d) := .ite (w.same rfl) w

protected theorem MemOk.unload {key} (w : MemOk d) : MemOk (unload key d) := .wipeTenant (w.same rfl)

protected theorem MemOk.unloadAll {p} (w : MemOk d) : MemOk (unloadAll p d) := .foldl (w.same rfl) fun _ _ h => h.unload

protected theorem MemOk.stopRing {k} (w : MemOk d) : MemOk (stopRing k d) := w.modRing

protected theorem MemOk.stopRings {p} (w : MemOk d) : MemOk (stopRings p d) := .foldl (.ite w.stopRing w) fun _ _ h => h.stopRing

protected theorem MemOk.flush {p q} (w : MemOk d) : MemOk (flush p q d) := .unloadAll (.dropFlows (.foldl w fun _ _ h => h.releaseSlot))

protected theorem MemOk.setPart {p st} (w : MemOk d) : MemOk (setPart p st d) := .ite w w.setRgN.raisePart

protected theorem MemOk.openPart {p} (w : MemOk d) : MemOk (openPart p d) := w.setRg.setPart

protected theorem MemOk.closePart {p} (w : MemOk d) : MemOk (closePart p d) := .ite (.setPart (.same w.setRg rfl)) w.setRg

protected theorem MemOk.partCtrl {p v} (w : MemOk d) : MemOk (partCtrl p v d) :=
  .ite w.reject (.ite w.reject (w.notStandby fun _ h => .ite h.setRg.openPart.forward h.setRg.closePart.forward))

protected theorem MemOk.partClosed {p} (w : MemOk d) : MemOk (partClosed p d) := .ite w.setPart w

protected theorem MemOk.quotaSet {p off v} (w : MemOk d) : MemOk (quotaSet p off v d) :=
  .ite w.reject (w.unlocked fun _ h => h.notStandby fun _ h1 => .ite h1.storeReg.raisePart.forward h1.reject)

protected theorem MemOk.windowSet {p port v} (w : MemOk d) : MemOk (windowSet p port v d) :=
  .ite w.reject (w.unlocked fun _ h => h.notStandby fun _ h1 => .ite h1.reject (.ite h1.reject h1.storeReg.raisePart.forward))

protected theorem MemOk.prgResult {p id r} (w : MemOk d) : MemOk (prgResult p id r d) := .ite w.setRgN.raise w.setRgN

protected theorem MemOk.loadBegin {p id len code src crc} (w : MemOk d) : MemOk (loadBegin p id len code src crc d) := .out (w.same rfl)

protected theorem MemOk.prgLoadOp {fn part} (w : MemOk d) : MemOk (prgLoadOp fn part d) :=
  .ite w.reject (w.notStandby fun _ h => .ite h.prgResult h.loadBegin.setRgN)

protected theorem MemOk.prgLoadDone {p id image crcOk dmaOk} (w : MemOk d) : MemOk (prgLoadDone p id image crcOk dmaOk d) := by
  unfold prgLoadDone
  split
  · exact w
  · extract_lets d1 img fail
    have w1 : MemOk d1 := w.same rfl
    refine .ite w1.unload.prgResult (.ite w1.unload.prgResult ?_)
    split
    · exact w1.setRgN.unload.prgResult
    · exact .ite w1.installProg.forward w1.installProg.prgResult

protected theorem MemOk.prgUnloadOp {fn part} (w : MemOk d) : MemOk (prgUnloadOp fn part d) :=
  .ite w.reject (w.notStandby fun _ h => .ite h.prgResult (.ite h.prgResult (.ite h.unload.setRgN.forward h.unload.prgResult)))

protected theorem MemOk.prgQueryOp {fn part} (w : MemOk d) : MemOk (prgQueryOp fn part d) := .ite w.reject w.prgResult

protected theorem MemOk.restoreImage {p id ue} (w : MemOk d) : MemOk (restoreImage p id ue d) := by
  unfold restoreImage
  split
  · exact w
  · split
    · exact w.dramUe
    · exact .foldl (.putImage (w.same rfl)) fun _ _ h => .ite h.modTokens.fireOne h

/-! ### From time acquisition to SERVICE -/

protected theorem MemOk.seedWeir (w : MemOk d) : MemOk (seedWeir d) := w.modWeir

protected theorem MemOk.enterService (w : MemOk d) : MemOk (enterService d) := .foldl w.setDevSt.driveAct fun _ _ h => h.openPart

protected theorem MemOk.enterReady (w : MemOk d) : MemOk (enterReady d) := .ite w.seedWeir.setDevSt.enterService w.seedWeir.setDevSt

protected theorem MemOk.acquireDone (w : MemOk d) : MemOk (acquireDone d) := .ite w.enterReady w

protected theorem MemOk.wakeUp {src} (w : MemOk d) : MemOk (wakeUp src d) := by
  have w1 : MemOk (raise 2 7 (setRgN rPWR_WAKE_SRC src { d with basin := [], poison := [] })) :=
    .raise (.setRgN (.same (w.setBasin rfl) rfl))
  exact .ite w (.ite w1.enterReady w1.setDevSt)

protected theorem MemOk.nameStep (w : MemOk d) : MemOk (nameStep d) := by
  unfold nameStep
  split
  · exact .ite w.holdStep.modTwin.tell w
  · exact w

protected theorem MemOk.afterServo (w : MemOk d) : MemOk (afterServo d) := w.nameStep.cluJoined.acquireDone

/-! ### Receive path -/

protected theorem MemOk.setPolicer {p x} (w : MemOk d) : MemOk (setPolicer p x d) := w

protected theorem MemOk.police {p fi n} (w : MemOk d) : MemOk (police p fi n d).2 := by
  unfold police
  extract_lets t x pk by_ pOk fOk d1
  have w1 : MemOk d1 := .ite w w.setPolicer
  refine .iteSnd w (.iteSnd w ?_)
  split
  · exact .iteSnd w1 w1.modFlow
  · exact w1

protected theorem MemOk.policed {which p} (w : MemOk d) : MemOk (policed which p d) := .raisePartF (.ite w.incRg.vcnt w.incRg.vcnt)

protected theorem MemOk.deliverExc {reason p f nt h plain} (w : MemOk d) : MemOk (deliverExc reason p f nt h plain d) :=
  .offer (.vcnt (.ite w.out w))

protected theorem MemOk.exception {reason p f nt h plain done} (w : MemOk d) : MemOk (exception reason p f nt h plain done d) := by
  unfold exception
  extract_lets d0 r
  have w0 : MemOk d0 := .ite w.incRg (.ite w.incRg w)
  have w1 : MemOk r.2 := .iteSnd w0 w0.police
  exact .ite w1.policed (.ite w1.incRg w1.deliverExc)

protected theorem MemOk.unprotect {rtcp k leg r} (w : MemOk d) : MemOk (unprotect rtcp k leg r d).2 := by
  unfold unprotect
  dsimp only
  split
  · exact w
  · split
    · exact w.incRg.vcnt
    · exact .iteSnd w.incRg.vcnt (.iteSnd w.cryptoLoad.incRg.vcnt.raisePartF w.cryptoLoad.modKey)

protected theorem MemOk.eventRx {k leg r b arr} (w : MemOk d) : MemOk (eventRx k leg r b arr d) := by
  unfold eventRx
  extract_lets l code fin vol dur g d1 h dly take on
  have w1 : MemOk d1 := w.firstAnchor
  have hon {x} (h : MemOk x.2) : MemOk (on x) := .ite h.modLeg h
  exact .ite (.ite w w.modLeg) (.ite w.modLeg (.ite (hon w1.rejectPacket) (.ite (hon w1.overrunPacket) w1.modLeg)))

protected theorem MemOk.learnSsrc {fi k leg ssrc} (w : MemOk d) : MemOk (learnSsrc fi k leg ssrc d) := .ite w.modFlow.jbRecord w

protected theorem MemOk.takeRtp {fi f r arr b} (w : MemOk d) : MemOk (takeRtp fi f r arr b d) := by
  unfold takeRtp
  extract_lets h leg k l
  have w1 := w.unprotect (rtcp := false) (k := k) (leg := leg) (r := r)
  split
  next heq => rwa [heq] at w1
  next heq =>
    rw [heq] at w1
    extract_lets d2 d3
    have w3 : MemOk d3 := .ite w1.learnSsrc.modLeg.vcnt.eventRx w1.learnSsrc.modLeg.vcnt.jbAccept
    exact .ite w3.sendIngress w3

protected theorem MemOk.takeRtcp {fi f r nt} (w : MemOk d) : MemOk (takeRtcp fi f r nt d) := by
  unfold takeRtcp
  extract_lets h leg k
  have w1 := w.unprotect (rtcp := true) (k := k) (leg := leg) (r := r)
  split
  next heq => rwa [heq] at w1
  next heq =>
    rw [heq] at w1
    exact .exception (.learnSsrc (.ite w1.modLeg w1))

protected theorem MemOk.takePacket {fi f arr own} (w : MemOk d) : MemOk (takePacket fi f arr own d) := by
  unfold takePacket
  extract_lets fe h leg k p l nt q m
  split
  · exact w
  · extract_lets r rtcp
    have wq : MemOk q.2 := .iteSnd w.police w
    exact .ite w.exception (.ite w.incRg.raiseF (.ite w.exception
      (.ite wq.policed (.ite wq.incRg.vcnt.raisePartF (.ite wq.takeRtcp wq.takeRtp)))))

protected theorem MemOk.classifier {f nt} (w : MemOk d) : MemOk (classifier f nt d) := by
  unfold classifier
  split
  · exact w.incRg.raiseF
  · exact w.exception
  · exact w.incRg.takePacket

protected theorem MemOk.markFetched {n} (w : MemOk d) : MemOk (markFetched n d) := w

protected theorem MemOk.takeTrunk {p stamp t'} (w : MemOk d) : MemOk (takeTrunk p stamp t' d) := .foldl w fun _ _ h => h.trunkEntry

protected theorem MemOk.serveIngress : ∀ {n d}, MemOk d → MemOk (serveIngress n d)
  | 0, _, w => w
  | n + 1, d, w => by
    unfold serveIngress
    split
    · exact w
    · dsimp only
      split
      · exact .serveIngress (.ite w.modTwin.takeTrunk.markFetched w.modTwin.takeTrunk)
      · exact .serveIngress (.ite w.modTwin.takePacket.markFetched w.modTwin.takePacket)
      · split
        · exact .serveIngress (.takePacket (w.same rfl))
        · split
          · exact .serveIngress (.takeTrunk (w.same rfl))
          · exact w

protected theorem MemOk.serveRecords (w : MemOk d) : MemOk (serveRecords d) := w.serveIngress

protected theorem MemOk.holdUnless {digest hold} (w : MemOk d) (hf : ∀ x, MemOk x → MemOk (hold x)) : MemOk (holdUnless digest hold d) :=
  .ite w.modTwin.incRg (hf d w).serveRecords

protected theorem MemOk.holdPacket {f} (w : MemOk d) : MemOk (holdPacket f d) := w.holdUnless fun _ h => h.same rfl

protected theorem MemOk.holdTrunk {p stamp t'} (w : MemOk d) : MemOk (holdTrunk p stamp t' d) := w.holdUnless fun _ h => h.same rfl

protected theorem MemOk.pastStage1 {f} (w : MemOk d) : MemOk (pastStage1 f d) :=
  .ite (.ite w.wakeUp w) (.ite w (.ite w.incRg (.ite w.incRg (.ite w.incRg.holdPacket w.incRg.classifier))))

protected theorem MemOk.frameRx {f held shared} (w : MemOk d) : MemOk (frameRx f held shared d) :=
  .ite w (.ite w.macCount (.ite w.macCount.raiseF (.ite w.macCount (.ite w.macCount
    (.ite w.macCount (.ite w.macCount w.countFrame.pastStage1))))))

/-! ### Ports -/

protected theorem MemOk.pauseQueue {p q quanta} (w : MemOk d) : MemOk (pauseQueue p q quanta d) := w.modPort.setRg

protected theorem MemOk.flowControl {p mode qs} (w : MemOk d) : MemOk (flowControl p mode qs d) :=
  .ite w (.ite w.macCount.macCount (.ite w.macCount (.sendCtl (.raise (.foldl w.macCount fun _ _ h => h.pauseQueue)))))

protected theorem MemOk.pauseEnds {p q} (w : MemOk d) : MemOk (pauseEnds p q d) := .ite w.pauseQueue.sendCtl w

protected theorem MemOk.lldpRx {p tw} (w : MemOk d) : MemOk (lldpRx p tw d) := by
  unfold lldpRx
  split
  · exact .ite w.setRgN w
  · exact w

protected theorem MemOk.lldpTx (w : MemOk d) : MemOk (lldpTx d) := .foldl w fun _ _ h => h.queueCtl

protected theorem MemOk.eeeExpires {p} (w : MemOk d) : MemOk (eeeExpires p d) := .ite w.setRg.leaveLpi w

protected theorem MemOk.lpiEnter {p} (w : MemOk d) : MemOk (lpiEnter p d) := .ite w.setMacStatus w

protected theorem MemOk.lpiWake {p} (w : MemOk d) : MemOk (lpiWake p d) := .ite w.modPort.leaveLpi w

protected theorem MemOk.anFails {p} (w : MemOk d) : MemOk (anFails p d) := .ite w.raise w

protected theorem MemOk.linkComesUp {p trained fec an} (w : MemOk d) : MemOk (linkComesUp p trained fec an d) :=
  .ite w (.ite w.anFails w.setMacStatus.raise)

protected theorem MemOk.linkLost {p} (w : MemOk d) : MemOk (linkLost p d) :=
  .ite w (.foldl (.ite w.modPort.setMacStatus.raise w.modPort.setMacStatus.raise.macCount.raiseF) fun _ _ h => h.nbrLoss)

protected theorem MemOk.txRingProd {p v} (w : MemOk d) : MemOk (txRingProd p v d) := .ite w.reject (.ite w.reject (.ite w.reject w.modRing))

protected theorem MemOk.mgmtCount {i n} (w : MemOk d) : MemOk (mgmtCount i n d) := .ite w.addRg.raise w.addRg

protected theorem MemOk.txDescDone {p len queue ts stamp} (w : MemOk d) : MemOk (txDescDone p len queue ts stamp d) := by
  unfold txDescDone
  extract_lets k r mx up lenOk lost ok at_ d1 typ _ d2 status d3
  have w1 : MemOk d1 := w.out
  clear_value d1
  have w2 : MemOk d2 := .ite (.ite (.mgmtCount (.mgmtCount (.mgmtCount (.spend (w1.same rfl))))) w1.spend.onWire.countFrame)
    (.ite (w1.same rfl) (.ite w1 (.ite w1.mgmtCount w1.macCount.raiseF)))
  have w3 : MemOk d3 := .ite w2.out w2.out
  exact .ite w w3.modRing

protected theorem MemOk.mgmtRx {f} (w : MemOk d) : MemOk (mgmtRx f d) := by
  unfold mgmtRx
  extract_lets d1 m r ahead slotNo d2 first
  have w1 : MemOk d1 := w.mgmtCount.mgmtCount.mgmtCount.mgmtCount
  have w2 : MemOk d2 := .ite w1.out w1
  exact .ite w (.ite w.mgmtCount (.ite w.mgmtCount (.ite w.mgmtCount (.ite w.mgmtCount (.ite w.mgmtCount (.ite w.mgmtCount
    (.ite (.ite w1.wakeUp w1) w2.ringOffer)))))))

protected theorem MemOk.giveUp (w : MemOk d) : MemOk (giveUp d) := w

protected theorem MemOk.collide {late} (w : MemOk d) : MemOk (collide late d) :=
  .ite w (.ite w.giveUp.mgmtCount.raise (.ite w.mgmtCount.giveUp.mgmtCount.raise (.spend (.same w.mgmtCount rfl))))

protected theorem MemOk.backoffEnds (w : MemOk d) : MemOk (backoffEnds d) := w

protected theorem MemOk.mdioStart {op v} (w : MemOk d) : MemOk (mdioStart op v d) := .ite w.reject (.out (.setRgN (w.same rfl)))

protected theorem MemOk.mdioEnds {data} (w : MemOk d) : MemOk (mdioEnds data d) := .ite w (.setRg (w.same rfl))

protected theorem MemOk.mgmtLink {up speed half} (w : MemOk d) : MemOk (mgmtLink up speed half d) := .ite w.setRgN w.setRgN.raise

protected theorem MemOk.setRecovering {c on} (w : MemOk d) : MemOk (setRecovering c on d) := w

protected theorem MemOk.setBmbStat {c n} (w : MemOk d) : MemOk (setBmbStat c n d) := w.setRgN

protected theorem MemOk.deselect {c} (w : MemOk d) : MemOk (deselect c d) := .ite (.out (w.same rfl)) (w.same rfl)

protected theorem MemOk.bmbStart {c v} (w : MemOk d) : MemOk (bmbStart c v d) :=
  .ite w.reject (.ite w.reject (.ite w.reject (.out (.ite (.out (.setBmbStat (w.same rfl))) (.setBmbStat (w.same rfl))))))

protected theorem MemOk.bmbCtrl {c w'} (w : MemOk d) : MemOk (bmbCtrl c w' d) :=
  .ite w.reject (.ite w.storeReg.setRecovering (.ite w.storeReg w.storeReg.setRecovering))

protected theorem MemOk.bmbEnds {c n nack arb data} (w : MemOk d) : MemOk (bmbEnds c n nack arb data d) :=
  .ite w (.raise (.deselect (.ite (.foldl w.setBmbStat fun _ _ h => .ite h.setRgN h) w.setBmbStat)))

protected theorem MemOk.busRecovered {c pulses free} (w : MemOk d) : MemOk (busRecovered c pulses free d) :=
  .ite w (.ite w.setRecovering.setRg w.setRecovering.setRg.raise)

protected theorem MemOk.sclStuck {c} (w : MemOk d) : MemOk (sclStuck c d) := .ite w w.setBmbStat.deselect.raise

protected theorem MemOk.modPresence {cage present} (w : MemOk d) : MemOk (modPresence cage present d) := .ite w w.setRg.raise

protected theorem MemOk.modInterrupt {cage on} (w : MemOk d) : MemOk (modInterrupt cage on d) := .ite w (.ite w.setRg.raise w.setRg)

/-! ### Commands of the fabric -/

protected theorem MemOk.syncRx {nt cls trace} (w : MemOk d) : MemOk (syncRx nt cls trace d) := .ite w w.modClu.modTb

protected theorem MemOk.pollRx {w'} (w : MemOk d) : MemOk (pollRx w' d) := .ite w.out w

protected theorem MemOk.cluBad (w : MemOk d) : MemOk (cluBad d) := .ite w.incRg w

protected theorem MemOk.trunkRx {p stamp t'} (w : MemOk d) : MemOk (trunkRx p stamp t' d) :=
  .ite w (.ite w.trunkForward (.ite w.holdTrunk (.ite w.takeTrunk.sendIngress w.takeTrunk)))

/-! ### Legs at their instants -/

protected theorem MemOk.issue {n p f} (w : MemOk d) (hf : ∀ e x, MemOk x → MemOk (f e x)) : MemOk (issue n p f d) := by
  have w1 := w.dlTake (n := n) (p := fun e => p e && reached d e.target && !(e.clip && d.tb.rebase.isSome) && !waitsBehind n e d)
  unfold issue
  split
  · exact w
  next heq =>
    rw [heq] at w1
    exact .ite w1.stale (hf _ _ w1)

protected theorem MemOk.prefetchEvent {h leg ue} (w : MemOk d) : MemOk (prefetchEvent h leg ue d) := by
  refine w.issue fun e x hx => ?_
  dsimp only
  split
  · exact hx.dlAdd.modLeg.loseOperand.dramUe.modLeg
  · exact hx.dlAdd.modLeg.modLeg

protected theorem MemOk.prefetchArrives {h leg} (w : MemOk d) : MemOk (prefetchArrives h leg d) := by
  unfold prefetchArrives
  refine .ite w.stale ?_
  extract_lets k
  split
  · exact w
  · exact .ite w.modLeg w.modLeg.fillLeg

protected theorem MemOk.latePayload {h leg sq trunk} (w : MemOk d) : MemOk (latePayload h leg sq trunk d) := by
  unfold latePayload
  dsimp only
  split
  · exact w.incRg.vcnt.jbRecord.raisePartF.incRg.raiseF
  · exact w.incRg.vcnt.jbRecord.raisePartF

protected theorem MemOk.directFill {h leg} (w : MemOk d) : MemOk (directFill h leg d) := .foldl w fun _ _ h => .ite h h.modLeg.fillLeg

protected theorem MemOk.syncPlayout {h leg} (w : MemOk d) : MemOk (syncPlayout h leg d) := by
  unfold syncPlayout
  dsimp only
  split
  · exact w.dlDrop
  · exact w.dlDrop.dlAdd

protected theorem MemOk.operandVisible {h leg} (w : MemOk d) : MemOk (operandVisible h leg d) := by
  unfold operandVisible
  split
  · exact w
  · extract_lets _ d1 k l g x pass p late d2
    have w1 : MemOk d1 := w.same rfl
    have w2 : MemOk d2 := .ite (.latePayload (.ite w1.raiseF w1)) w1
    exact .ite w1.stale w2.modLeg.directFill.syncPlayout

protected theorem MemOk.syncRtcp {k} (w : MemOk d) : MemOk (syncRtcp k d) := by
  unfold syncRtcp
  dsimp only
  split
  · exact w.dlDrop
  · exact w.dlDrop.dlAdd

protected theorem MemOk.sendReport {k leg t} (w : MemOk d) : MemOk (sendReport k leg t d) := by
  unfold sendReport
  extract_lets l b d1
  have w1 : MemOk d1 := w.modLeg
  split
  next x hx => exact w1.withheld x hx
  next => exact .queuePacket (.ite w1 w1.modKey.cryptoLoad)

protected theorem MemOk.reportDue {k leg} (w : MemOk d) : MemOk (reportDue k leg d) := .ite w (.ite w (.modLeg (.ite w.sendReport w)))

protected theorem MemOk.rtcpEvent {h} (w : MemOk d) : MemOk (rtcpEvent h d) := w.issue fun _ _ h => h.reportDue.reportDue.syncRtcp

/-! ### Flows, keys and bindings -/

protected theorem MemOk.makeRoom : ∀ {n b d}, MemOk d → ∀ x ∈ makeRoom n b d, MemOk x
  | 0, b, d, w => by
    unfold makeRoom
    split
    · rintro _ ⟨⟩
      exact w
    · rintro _ ⟨⟩
  | n + 1, b, d, w => by
    unfold makeRoom
    dsimp only
    split
    · rintro _ ⟨⟩
      exact w
    · split
      · rintro _ ⟨⟩
        exact w.modFlow
      · split
        · rintro _ ⟨⟩
        · intro x hx
          obtain ⟨y, hy, rfl⟩ := Option.map_eq_some_iff.1 hx
          exact (w.makeRoom y hy).modFlow

protected theorem MemOk.placeFlow {f} (w : MemOk d) : ∀ x ∈ placeFlow f d, MemOk x.2.2 := by
  unfold placeFlow
  dsimp only
  split
  · rintro _ ⟨⟩
    exact w
  · split
    next heq =>
      rintro _ ⟨⟩
      exact w.makeRoom _ heq
    · split
      · rintro _ ⟨⟩
        exact w
      · rintro _ ⟨⟩

protected theorem MemOk.putFlow {i ws} (w : MemOk d) : ∀ x ∈ putFlow i ws d, MemOk x := by
  intro x hx
  obtain ⟨y, hy, rfl⟩ := Option.map_eq_some_iff.1 hx
  exact (w.placeFlow y hy).modFlow

protected theorem MemOk.putFlow_getD {i ws} (w : MemOk d) : MemOk ((putFlow i ws d).getD d) := by
  cases h : putFlow i ws d with
  | none => exact w
  | some x => exact w.putFlow x h

protected theorem MemOk.flwAdd {p} (w : MemOk d) : MemOk (flwAdd p d).2 := by
  unfold flwAdd
  extract_lets ws f
  refine .iteSnd w (.iteSnd w (.iteSnd w (.iteSnd w (.iteSnd w ?_))))
  split
  · exact w
  · split
    · exact w.raise
    next heq => exact (w.putFlow _ heq).setRgN

protected theorem MemOk.flwRead {p} (w : MemOk d) : MemOk (flwRead p d).2 := .iteSnd w (.foldl w fun _ _ h => h.setRg)

protected theorem MemOk.removeFlow {i} (w : MemOk d) : MemOk (removeFlow i d) := w.modFlow

protected theorem MemOk.flwRemove {p} (w : MemOk d) : MemOk (flwRemove p d).2 := .iteSnd w (.iteSnd w w.removeFlow)

protected theorem MemOk.flwModify {p} (w : MemOk d) : MemOk (flwModify p d).2 := .iteSnd w (.iteSnd w (.iteSnd w (.iteSnd w w.modFlow)))

protected theorem MemOk.flwResult {p r} (w : MemOk d) : MemOk (flwResult p r d) := w.setRgN

protected theorem MemOk.flwOp {fn part op} (w : MemOk d) : MemOk (flwOp fn part op d) := by
  refine .ite w.reject (w.notStandby fun x h => ?_)
  extract_lets ws r
  have hr : MemOk r.2 := .iteSnd h.flwRead (.iteSnd h.flwAdd (.iteSnd h.flwRemove h.flwModify))
  exact .ite hr.setRgN.forward hr.flwResult

protected theorem MemOk.loadKey {k leg ctrl suite ms ss mki roc} (w : MemOk d) : MemOk (loadKey k leg ctrl suite ms ss mki roc d) :=
  w.modKey

protected theorem MemOk.zeroStaging {p} (w : MemOk d) : MemOk (zeroStaging p d) :=
  .foldl (.foldl w.setRgN.setRgN fun _ _ h => h.setRgN) fun _ _ h => h.setRgN

protected theorem MemOk.keyOp {fn part op} (w : MemOk d) : MemOk (keyOp fn part op d) := by
  refine .ite w.reject (w.notStandby fun x h => ?_)
  extract_lets hd c ms ss mki roc k leg suite r y z
  have hz : MemOk z := .zeroStaging (.ite h (.ite h.loadKey h.modKey))
  exact .ite hz.setRgN.forward hz.setRgN

protected theorem MemOk.setBinding {i b} (w : MemOk d) : MemOk (setBinding i b d) := w

protected theorem MemOk.bindSet {addr b} (w : MemOk d) : MemOk (bindSet addr b d) :=
  w.unlocked fun _ h => h.notStandby fun _ h1 => .ite h1.reject (.ite h1.reject h1.setBinding.forward)

protected theorem MemOk.bindCtrl {v} (w : MemOk d) : MemOk (bindCtrl v d) := w.bindSet

protected theorem MemOk.bindPorts {v} (w : MemOk d) : MemOk (bindPorts v d) := w.bindSet

protected theorem MemOk.bindIp {n v} (w : MemOk d) : MemOk (bindIp n v d) := w.bindSet

protected theorem MemOk.seedWrite {v} (w : MemOk d) : MemOk (seedWrite v d) := .ite w.reject (w.same rfl)

protected theorem MemOk.policerSet {p pkt byte burst} (w : MemOk d) : MemOk (policerSet p pkt byte burst d) := w.setPolicer

protected theorem MemOk.policerWrite {off v} (w : MemOk d) : MemOk (policerWrite off v d) := w.notStandby fun _ h => h.policerSet.forward

protected theorem MemOk.putJb {b w'} (w : MemOk d) : MemOk (putJb b w' d) := w

protected theorem MemOk.jbCtrlWrite {v} (w : MemOk d) : MemOk (jbCtrlWrite v d) :=
  w.unlocked fun _ h => h.notStandby fun _ h1 => .ite h1.reject (.ite h1.putJb.forward (.setRgN (h1.same rfl)))

protected theorem MemOk.jbCtrlApply {q} (w : MemOk d) : MemOk (jbCtrlApply q d) := by
  unfold jbCtrlApply
  dsimp only
  split
  · exact w
  · exact .setRgN (w.same rfl)

/-! ### Line Front End -/

protected theorem MemOk.lineRecord {typ n b13 b14 v at_} (w : MemOk d) : MemOk (lineRecord typ n b13 b14 v at_ d) :=
  .ite w (.ite w.event.event w.event)

protected theorem MemOk.linePut {n off v} (w : MemOk d) : MemOk (linePut n off v d) := w.modLine.storeReg

protected theorem MemOk.lineWrite {n off v} (w : MemOk d) : MemOk (lineWrite n off v d) :=
  .ite w.reject (.ite (w.unlocked fun _ h => .ite h.linePut h.reject) (.ite w.linePut w.reject))

protected theorem MemOk.lineBind {n v} (w : MemOk d) : MemOk (lineBind n v d) := .ite w.reject (.ite w.reject (.ite w.reject w.linePut))

protected theorem MemOk.lfeCtrl {v} (w : MemOk d) : MemOk (lfeCtrl v d) := .ite w.reject (.ite w.reject w.modLfe)

protected theorem MemOk.decimatorReset (w : MemOk d) : MemOk (decimatorReset d) := by
  unfold decimatorReset
  split
  · exact w
  · exact .raise (.setRgN (.foldl w.modLfe fun _ _ h => h.modLine.settle))

protected theorem MemOk.settleEnds {n} (w : MemOk d) : MemOk (settleEnds n d) := by
  unfold settleEnds
  split
  · exact .ite w.modLine.retag w
  · exact w

protected theorem MemOk.blankPin {high} (w : MemOk d) : MemOk (blankPin high d) := .ite w (.foldl w.modLfe fun _ _ h => h.retag)

protected theorem MemOk.guardEnds {n} (w : MemOk d) : MemOk (guardEnds n d) := w.issue fun _ _ h => .ite h.modLine.retag h

protected theorem MemOk.cadenceAt {n k t' ns} (w : MemOk d) : MemOk (cadenceAt n k t' ns d) := w.modLine.dlAdd

protected theorem MemOk.cadenceStart {n q} (w : MemOk d) : MemOk (cadenceStart n q d) := w.modLine.cadenceAt

protected theorem MemOk.ringEnds {n t'} (w : MemOk d) : MemOk (ringEnds n t' d) :=
  .retag (.ite w.modLine.pushWord w.modLine.pushWord.dlDrop.dlAdd)

protected theorem MemOk.ringOnEvent {n} (w : MemOk d) : MemOk (ringOnEvent n d) :=
  w.issue fun _ _ h => .ite h (.ite h.cadenceAt h.modLine.pushWord.retag.cadenceAt)

protected theorem MemOk.ringOffEvent {n} (w : MemOk d) : MemOk (ringOffEvent n d) :=
  w.issue fun _ _ h => .ite h (.ite h.cadenceAt h.ringEnds.cadenceAt)

protected theorem MemOk.ringStop {n} (w : MemOk d) : MemOk (ringStop n d) := by
  unfold ringStop
  split
  · exact w
  · exact .ite w (.ite w.modLine.dlDrop.ringEnds w.modLine.dlDrop)

protected theorem MemOk.enterHold {n} (w : MemOk d) : MemOk (enterHold n d) := w.setRg.modLine.cadenceStops

protected theorem MemOk.lineFault {n code c on at_} (w : MemOk d) : MemOk (lineFault n code c on at_ d) :=
  .ite (.enterHold (.ite w.lineRecord.raiseF w.lineRecord)) (.ite w.lineRecord.raiseF w.lineRecord)

protected theorem MemOk.openCheck {n which v at_} (w : MemOk d) : MemOk (openCheck n which v at_ d) := .ite w.modLine.lineFault w.modLine

protected theorem MemOk.headroomCheck {n at_} (w : MemOk d) : MemOk (headroomCheck n at_ d) := .ite w.modLine.lineFault w.modLine

protected theorem MemOk.switchCheck {n k tip ring cur trip tagged at_} (w : MemOk d) :
    MemOk (switchCheck n k tip ring cur trip tagged at_ d) :=
  .ite w (.ite w.modLine (.ite w.modLine.lineRecord.raiseF.cadenceStops w.modLine.lineRecord.raiseF))

protected theorem MemOk.supervise {n tip ring cur coarse} (w : MemOk d) : MemOk (supervise n tip ring cur coarse d) := by
  unfold supervise
  extract_lets l at_ tagged held take l1 t r i fine q d1 d2 d3 d4
  have w4 : MemOk d4 := w.modLine.setRgN.setRgN.setRg.setRg.openCheck.openCheck.headroomCheck
  exact .ite w (.ite w4 (.foldl w4 fun _ _ h => h.switchCheck))

protected theorem MemOk.coarseSample {n cur vt vr run} (w : MemOk d) : MemOk (coarseSample n cur vt vr run d) :=
  .ite w (.ite w.setRgN w.setRgN.modLine.incRg)

protected theorem MemOk.lineOperandWrite {n samples sats} (w : MemOk d) : MemOk (lineOperandWrite n samples sats d) := by
  unfold lineOperandWrite
  refine .ite w ?_
  extract_lets l p o keep d1 d2 d3
  have w2 : MemOk d2 := .ite w.modLine.addRg w.modLine.addRg.lineFault
  have w3 : MemOk d3 := .ite w2.raise w2
  split
  · exact w2
  · exact .ite w3 (.fillLeg (.ite w3.modTwin w3))

protected theorem MemOk.bindApply {n q} (w : MemOk d) : MemOk (bindApply n q d) := by
  unfold bindApply
  extract_lets c h d1
  have w1 : MemOk d1 := .ite w.modLine w
  clear_value d1
  split
  · exact w1
  · extract_lets r d2 d3
    have w3 : MemOk d3 := .ite w1.modLine.raise w1.modLine
    exact .ite w1.bindingStale (.ite w3 w3.settle)

protected theorem MemOk.tripped {n} (w : MemOk d) : MemOk (tripped n d) := .ite w.cadenceStops w

protected theorem MemOk.lineApply {n q} (w : MemOk d) : MemOk (lineApply n q d) := by
  unfold lineApply
  extract_lets v was cfg wrote d1 d2 d3 d4 d5
  have w1 : MemOk d1 := w.bindApply.modLine
  have w2 : MemOk d2 := .ite w1.modLine w1
  have w3 : MemOk d3 := .ite w2.settle w2
  have w5 : MemOk d5 := .ite w3.retag.cadenceStops w3.retag
  exact .ite w5 (.ite (.ite w5.cadenceStart.tripped w5) w5.cadenceStops)

protected theorem MemOk.linesBoundary {q} (w : MemOk d) : MemOk (linesBoundary q d) :=
  .ite (.foldl w fun _ _ h => h.lineApply) (.modLfe (.foldl w fun _ _ h => h.lineApply))

protected theorem MemOk.lineRelease {h leg q x} (w : MemOk d) : MemOk (lineRelease h leg q x d) := by
  unfold lineRelease
  split
  · exact w.modLine
  · exact w

protected theorem MemOk.linesTakeover (w : MemOk d) : MemOk (linesTakeover d) :=
  .foldl w fun _ _ h => .ite (.pushWord (.ite h.lineRecord h)) (.ite h.lineRecord h)

/-! ### Twin Link -/

protected theorem MemOk.sendContext {k p} (w : MemOk d) : MemOk (sendContext k p d) := w.out

protected theorem MemOk.copyChannel {k} (w : MemOk d) : MemOk (copyChannel k d) := .ite w.modTwin w.sendContext

protected theorem MemOk.bulkSend (w : MemOk d) : MemOk (bulkSend d) := .foldl (.foldl w fun _ _ h => h.out) fun _ _ h => h.copyChannel

protected theorem MemOk.bulkTake {b} (w : MemOk d) : MemOk (bulkTake b d) := by
  unfold bulkTake
  split
  · exact w
  · split
    · exact w.putFlow_getD.modFlow
    · exact w.modKey
    · exact w.setBinding
    · exact w.policerSet
    · exact w.installProg
    · exact .ite w.setRg w
    · exact w.modShed
    · refine .setCh (.recharge ?_)
      split
      · exact w.modSlot.setPend
      · exact w.modSlot

protected theorem MemOk.installContext {h p ctx m a b} (w : MemOk d) : MemOk (installContext h p ctx m a b d) :=
  .ite w w.modSlot.putContext.syncPrefetch.syncStreams.modTwin.fillCtx

protected theorem MemOk.applyOp {o} (w : MemOk d) : MemOk (applyOp o d) := by
  unfold applyOp
  split
  · dsimp only
    split
    · exact w.moveChange
    · split
      · split
        · exact w.withdraw
        · exact w
      · exact .chwApply (.ite w.modTwin.modSlot.setCh w.modTwin)
  · exact .ite w.putFlow_getD (.ite w.removeFlow w.modFlow)
  · exact .ite w.loadKey w.modKey
  · exact w.installProg
  · exact w.unload
  · exact w.setBinding
  · exact w.policerSet
  · exact w.storeReg.raisePart
  · exact .ite w.openPart w.closePart
  · exact w.putJb
  · exact w.modWeir
  · exact w.modTwin
  · exact w.modTwin
  · exact w.modTwin

protected theorem MemOk.opTake {o} (w : MemOk d) : MemOk (opTake o d) := .ite w.applyOp.tell w

protected theorem MemOk.opDone {o} (w : MemOk d) : MemOk (opDone o d) := by
  unfold opDone
  split
  · exact .ite w w.chwAcked
  · exact w.flwResult
  · exact w.setRgN
  · exact w.prgResult
  · exact w.prgResult
  · exact w

protected theorem MemOk.opAck (w : MemOk d) : MemOk (opAck d) := by
  unfold opAck
  split
  · exact w
  · exact w.modTwin.incRg.opDone

protected theorem MemOk.proceedAlone (w : MemOk d) : MemOk (proceedAlone d) := .foldl w.modTwin fun _ _ h => h.opDone

protected theorem MemOk.twinApply {q} (w : MemOk d) : MemOk (twinApply q d) := by
  unfold twinApply
  dsimp only
  refine .foldl w.modTwin fun _ _ h => ?_
  split
  · exact h.modShed
  · exact h.setRgN
  · exact h

protected theorem MemOk.yieldRole {told} (w : MemOk d) : MemOk (yieldRole told d) := by
  unfold yieldRole
  extract_lets st d1 d2 d3
  have w2 : MemOk d2 := .foldl w.modTwin.proceedAlone.modTwin fun _ _ h => h.setCh
  have w3 : MemOk d3 := w2.setSource.driveAct.driveSync
  exact .ite w3.raise w3

protected theorem MemOk.toActiveParts {x} (w : MemOk d) : MemOk (toActiveParts x d) := .foldl w.event fun _ _ h => h.event

protected theorem MemOk.takeoverSteps {trigger} (w : MemOk d) : MemOk (takeoverSteps trigger d) := by
  unfold takeoverSteps
  extract_lets copying n held trunks recs units d1 d2 d3 _ d4 d5 d6 d7 d8 d9
  have w3 : MemOk d3 := w.modTwin.driveAct.raise.modTb.setServo
  clear_value d3
  have w4 : MemOk d4 := .foldl (.foldl (w3.same rfl) fun _ _ h => h.classifier) fun _ _ h => h.takeTrunk
  have w6 : MemOk d6 := .foldl w4.addRg fun _ _ h => h.ringOffer
  have w7 : MemOk d7 := .foldl w6.modRec fun _ _ h => h.routeUnit
  have w8 : MemOk d8 := .foldl w7.spoolCheckAll fun _ _ h => h.suspect
  exact w8.toActiveParts.incRg.setRgN.driveSync.linesTakeover

protected theorem MemOk.takeover {trigger} (w : MemOk d) : MemOk (takeover trigger d) :=
  .ite w (.ite w.modTwin.out w.modTwin.out.takeoverSteps)

protected theorem MemOk.peerFalls (w : MemOk d) : MemOk (peerFalls d) := by
  unfold peerFalls
  dsimp only
  split
  · exact w.modTwin.takeoverSteps
  · exact w.modTwin.takeover.driveAct.driveSync

protected theorem MemOk.peerRises (w : MemOk d) : MemOk (peerRises d) := .ite w.modTwin.yieldRole w.modTwin.driveAct.driveSync

protected theorem MemOk.fenceConflict (w : MemOk d) : MemOk (fenceConflict d) := by
  unfold fenceConflict
  split
  · exact .ite w.modTwin.out.raise w
  · exact w

protected theorem MemOk.fenceLow (w : MemOk d) : MemOk (fenceLow d) := .ite w (.ite w.modTwin.yieldRole w.modTwin.driveAct.driveSync)

protected theorem MemOk.fenceHigh (w : MemOk d) : MemOk (fenceHigh d) :=
  .ite w (.ite w.modTwin.driveAct.driveSync.takeover w.modTwin.driveAct.driveSync)

protected theorem MemOk.linkTrained {lanes} (w : MemOk d) : MemOk (linkTrained lanes d) := .ite w (.ite w.modTwin.raise w.modTwin)

protected theorem MemOk.laneLost {lanes} (w : MemOk d) : MemOk (laneLost lanes d) := .ite w.modTwin.raise w

protected theorem MemOk.linkGone (w : MemOk d) : MemOk (linkGone d) := by
  unfold linkGone
  split
  · exact w
  · split
    · exact w.modTwin.unitFault.diverge
    · exact w.modTwin.unitFault.diverge.modTwin
    · exact w.modTwin.unitFault.proceedAlone
    · exact w.modTwin.unitFault

protected theorem MemOk.pair {peer} (w : MemOk d) : MemOk (pair peer d) := by
  unfold pair
  extract_lets side d0 mine was first d1 d2
  have w0 : MemOk d0 := w.setRg
  have w2 : MemOk d2 := w0.modTwin.modTwin
  have w3 : MemOk ((activeSlots d2).foldl (fun x k => setCh k .copying x) d2) := .foldl w2 fun _ _ h => h.setCh
  exact .ite w (.ite w0.raise (.ite w0.modTwin.modTwin.driveAct.driveSync.bulkSend w3.setSource.driveAct.driveSync))

protected theorem MemOk.bulkDone (w : MemOk d) : MemOk (bulkDone d) := .ite w.modTwin w

protected theorem MemOk.twinEnable {on} (w : MemOk d) : MemOk (twinEnable on d) := .ite w.modTwin.driveAct.driveSync w

protected theorem MemOk.detachCmd (w : MemOk d) : MemOk (detachCmd d) := .ite w.modTwin.driveAct w.reject

protected theorem MemOk.attachCmd (w : MemOk d) : MemOk (attachCmd d) := .ite w.modTwin w.reject

protected theorem MemOk.switchCmd (w : MemOk d) : MemOk (switchCmd d) := .ite w.modTwin.forward w.reject

protected theorem MemOk.twinCmd {f} (w : MemOk d) (hf : ∀ x, MemOk x → MemOk (f x)) : MemOk (twinCmd f d) :=
  w.fromHost fun x h => .ite (hf x h) h.reject

protected theorem MemOk.switchNow (w : MemOk d) : MemOk (switchNow d) := by
  unfold switchNow
  split
  · split
    · exact w
    · split
      · exact w.yieldRole.modTwin
      · exact .takeoverSteps (.modTwin (.foldl w fun _ _ h => h.modPort))
      · exact w.modTwin
  · exact w

protected theorem MemOk.heartbeatTx (w : MemOk d) : MemOk (heartbeatTx d) := .ite w w.modTwin.tell

protected theorem MemOk.discardTo {launched written} (w : MemOk d) : MemOk (discardTo launched written d) :=
  .modRec (.modTwin (.foldl w fun _ _ h => h.modPort))

protected theorem MemOk.twinTime {off delay} (w : MemOk d) : MemOk (twinTime off delay d) := by
  unfold twinTime
  extract_lets o d1 mag lim run d2 d3 d5 d4 d6
  have w1 : MemOk d1 := w.setRgN.setRgN
  have w3 : MemOk d3 := .ite w1.modTwin.raiseF w1.modTwin
  have w4 : MemOk d4 := .ite w3 (.afterServo (.measure (.ite w3 w3.sourceQualified)))
  have w6 : MemOk d6 := w4.diverge
  exact .ite w1.modTwin.applyStep (.ite (.ite w6.modTwin w6) w4)

protected theorem MemOk.heartbeatRx {h} (w : MemOk d) : MemOk (heartbeatRx h d) := by
  unfold heartbeatRx
  split
  · exact w
  · split
    · exact w.modTwin
    · refine .twinTime ?_
      split
      · exact .ite w.modTwin.discardTo w.modTwin
      · exact w.modTwin

protected theorem MemOk.heartbeatMissed (w : MemOk d) : MemOk (heartbeatMissed d) := by
  unfold heartbeatMissed
  extract_lets n d1
  have w1 : MemOk d1 := w.modTwin.incRg.raiseF
  exact .ite w (.ite w1 (.ite w1.proceedAlone (.ite w1.takeover w1)))

protected theorem MemOk.ingressRx {r} (w : MemOk d) : MemOk (ingressRx r d) := .ite w w.modTwin.incRg.serveRecords

protected theorem MemOk.payloadReq {digest} (w : MemOk d) : MemOk (payloadReq digest d) := by
  unfold payloadReq
  split
  · exact w
  · split
    · split
      · exact w.out
      · exact w
    · split
      · exact w
      · split
        · exact .ite w.incRg.tell w
        · exact w

protected theorem MemOk.payloadRx {r f} (w : MemOk d) : MemOk (payloadRx r f d) := .ite w w.modTwin.serveRecords

protected theorem MemOk.orphans (w : MemOk d) : MemOk (orphans d) := by
  unfold orphans
  dsimp only
  split
  · split
    · exact .incRg (w.same rfl)
    · split
      · exact .ite (.incRg (w.same rfl)) w
      · exact w
  · exact .ite (.incRg (w.same rfl)) w
  · exact w

protected theorem MemOk.horizonNow {t'} (w : MemOk d) : MemOk (horizonNow t' d) :=
  .ite w (.ite w.modTwin (.ite w.modTwin.fireReady w.modTwin.fireReady.deadline))

protected theorem MemOk.horizonMissing {t'} (w : MemOk d) : MemOk (horizonMissing t' d) := .ite w.horizonNow w

protected theorem MemOk.lineRx {h leg x status} (w : MemOk d) : MemOk (lineRx h leg x status d) := .ite w.fillLeg w

protected theorem MemOk.sendHorizon {t'} (w : MemOk d) : MemOk (sendHorizon t' d) :=
  .ite w (.tell (.modTwin (.foldl w fun _ _ h => h.tell)))

protected theorem MemOk.digestOut {h p o} (w : MemOk d) : MemOk (digestOut h p o d) := .ite w.tell (.ite w.modTwin w)

protected theorem MemOk.toShadow {k} (w : MemOk d) : MemOk (toShadow k d) := .ite w.setCh.raise w.setCh

protected theorem MemOk.digestRx {h p v} (w : MemOk d) : MemOk (digestRx h p v d) := by
  unfold digestRx
  dsimp only
  split
  · exact w
  · split
    · exact w
    · split
      · split
        · exact .ite w.incRg.toShadow w
        · exact .ite w.toShadow w
        · exact w
      · exact .ite w w.modTokens.modTwin.setCh.incRg.raiseF.tell

protected theorem MemOk.contextWanted {h} (w : MemOk d) : MemOk (contextWanted h d) := .ite w w.modTwin

protected theorem MemOk.contextCommit {h p} (w : MemOk d) : MemOk (contextCommit h p d) := by
  unfold contextCommit
  split
  · exact w.modTwin
  · exact w.modTwin.sendContext
  · exact w

protected theorem MemOk.stepRx {s t'} (w : MemOk d) : MemOk (stepRx s t' d) := .ite w w.holdStep.modTwin.tell

protected theorem MemOk.stepAck (w : MemOk d) : MemOk (stepAck d) := w.modTwin

/-! ### Pass boundary -/

protected theorem MemOk.jobRecord {r x} (w : MemOk d) : MemOk (jobRecord r x d) :=
  .ite (.raisePart (.ite w.weirRecord.vcnt (.ite w.weirRecord w.event))) (.ite w.weirRecord.vcnt (.ite w.weirRecord w.event))

protected theorem MemOk.contribute {k o} (w : MemOk d) : MemOk (contribute k o d) := by
  unfold contribute
  split
  · exact w
  · exact w.modTokens

protected theorem MemOk.mixDown {b o} (w : MemOk d) : MemOk (mixDown b o d) := .foldl w fun _ _ h => .ite h h.modTokens

protected theorem MemOk.releaseEntry {e p jump r} (w : MemOk d) : MemOk (releaseEntry e p jump r d) := by
  unfold releaseEntry
  refine .ite ?_ (.ite w.stale ?_)
  · split
    · exact w.mixDown
    · exact w
  · extract_lets k d1 n d2
    have w1 : MemOk d1 := by
      unfold d1
      split
      · exact .contribute (.foldl w fun _ _ h => h.jobRecord)
      · exact w
    have w2 : MemOk d2 := by
      refine .foldl w1 fun x leg h => ?_
      extract_lets c x1 x2
      have h1 : MemOk x1 := .ite h.egressLeg h
      exact .recordPass (.ite h1.lineRelease h1)
    exact w2.digestOut

protected theorem MemOk.coreIdle {c} (w : MemOk d) : MemOk (coreIdle c d) := w.modTarn fun h => h.same rfl

protected theorem MemOk.overrun {c j} (w : MemOk d) : MemOk (overrun c j d) := by
  unfold overrun
  extract_lets onIt p d1 d2 d3 core d4
  have w2 : MemOk d2 := .coreNext (.ite w.setJobs.coreIdle w.setJobs)
  have w4 : MemOk d4 := w2.fillCtx.incRg.raise.vcnt.raisePartF.lostRecs
  exact .ite w4 w4.weirRecord

protected theorem MemOk.releaseAll {q atRebase} (w : MemOk d) : MemOk (releaseAll q atRebase d) := by
  refine .bundles (.foldl w.modWeir fun x r h => .releaseEntry ?_)
  split
  · exact .ite h h.overrun
  · exact h

protected theorem MemOk.releaseLateFrom : ∀ {n d}, MemOk d → MemOk (releaseLateFrom n d)
  | 0, _, w => w
  | n + 1, d, w => by
    unfold releaseLateFrom
    split
    · exact .releaseLateFrom (.releaseEntry (.ite w.modWeir.incRg w.modWeir.incRg.modWeir.raiseF))
    · exact w

protected theorem MemOk.releaseLate (w : MemOk d) : MemOk (releaseLate d) := w.releaseLateFrom

protected theorem MemOk.coreFaults {c src cs} (w : MemOk d) : MemOk (coreFaults c src cs d) := w.faultCore.releaseLate

protected theorem MemOk.startPrefetch {k leg q} (w : MemOk d) : MemOk (startPrefetch k leg q d) := w.modLeg.dlDrop.dlAdd

protected theorem MemOk.putInForce {k q} (w : MemOk d) : MemOk (putInForce k q d) := by
  unfold putInForce
  extract_lets l h d1 d2
  have w2 : MemOk d2 := .foldl w.recharge.syncStreams fun _ _ h => .ite h.startPrefetch h
  exact w2.syncPrefetch.syncRtcp.syncToneEnd

protected theorem MemOk.applyDesc {k l q} (w : MemOk d) : MemOk (applyDesc k l q d) := by
  unfold applyDesc
  exact w.modSlot.putInForce

protected theorem MemOk.activateSlot {k l q} (w : MemOk d) : MemOk (activateSlot k l q d) := by
  unfold activateSlot
  extract_lets _ leg d1 d2
  have w1 : MemOk d1 := w.modSlot
  exact .putInForce (.initContext (.ite w1.setCh w1))

protected theorem MemOk.changeSlot {k q atRebase} (w : MemOk d) : MemOk (changeSlot k q atRebase d) := by
  unfold changeSlot
  dsimp only
  split
  · exact .foldl w.modSlot fun _ _ h => h.applyDesc
  · split
    · exact .foldl w.modSlot fun _ _ h => h.applyDesc
    · split
      · exact .activateSlot (.setPend (.foldl w.modSlot fun _ _ h => h.applyDesc))
      · exact .setPend (.foldl w.modSlot fun _ _ h => h.applyDesc)
      · exact .applyDesc (.setPend (.foldl w.modSlot fun _ _ h => h.applyDesc))

protected theorem MemOk.releaseSlots {q} (w : MemOk d) : MemOk (releaseSlots q d) := by
  unfold releaseSlots
  refine .foldl w fun _ _ h => ?_
  split
  · exact .ite h.setPend.releaseSlot h
  · exact h

protected theorem MemOk.rebasePending {q} (w : MemOk d) : MemOk (rebasePending q d) := by
  unfold rebasePending
  refine .foldl w fun _ _ h => ?_
  split
  · exact .ite h.event.setPend h
  · exact h

protected theorem MemOk.clipEvents {q} (w : MemOk d) : MemOk (clipEvents q d) := w.modWeir.addRg

protected theorem MemOk.syncBuses {q} (w : MemOk d) : MemOk (syncBuses q d) := by
  unfold syncBuses
  dsimp only
  refine .foldl w fun _ _ h => ?_
  split
  · exact h.modBus.modWeir
  · exact h.modBus

protected theorem MemOk.flushParts {q} (w : MemOk d) : MemOk (flushParts q d) := by
  unfold flushParts
  extract_lets _ d1
  have w1 : MemOk d1 := .foldl (w.same rfl) fun _ _ h => .ite h.flush h.flush.stopRings
  exact .foldl (w1.same rfl) fun _ _ h => h.flush.exportStaged.stopRings

protected theorem MemOk.changeDescs {p f} (w : MemOk d) : MemOk (changeDescs p f d) := .foldl w fun _ _ h => h.modSlot.recharge

protected theorem MemOk.shedNow {q} (w : MemOk d) : MemOk (shedNow q d) := by
  unfold shedNow
  split
  · exact w
  · extract_lets d1 d2
    have w1 : MemOk d1 := w.modWeir
    have w2 : MemOk d2 := .ite w1.modShed.changeDescs.unloadAll w1.modShed.changeDescs
    exact .ite w (.ite w1 w2.event.raisePart.decideShed)

protected theorem MemOk.reinitAll (w : MemOk d) : MemOk (reinitAll d) :=
  .foldl w fun _ _ h => .foldl h.reinit fun _ _ h1 => h1.dropToken.modWeir.incRg

protected theorem MemOk.rejoinAll (w : MemOk d) : MemOk (rejoinAll d) := .foldl w.modWeir fun _ _ h => h.rejoinCore

protected theorem MemOk.rebaseNow {r} (w : MemOk d) : MemOk (rebaseNow r d) := by
  unfold rebaseNow
  extract_lets x d1 d2 live d3
  have w1 : MemOk d1 := .ite w.incRg w
  have w3 : MemOk d3 := by
    refine .foldl w1.toActiveParts.anchorAll fun y k h => ?_
    extract_lets z v
    have hz : MemOk z := .foldl h fun _ _ h => h.jbRebase
    have hv : MemOk v := .foldl hz fun _ _ h => .ite h.startPrefetch h
    exact hv.modSlot.syncRtcp
  exact w3.modWeir.modLfe.modTb

protected theorem MemOk.coreFigures {c} (w : MemOk d) : MemOk (coreFigures c d) :=
  (w.modTarn fun h => h.same rfl).setRgN.setRgN.setRgN.setRgN

protected theorem MemOk.passFigures (w : MemOk d) : MemOk (passFigures d) :=
  .foldl w.modWeir.setRgN.setRgN.setRgN fun _ _ h => h.coreFigures

protected theorem MemOk.createTokens {q} (w : MemOk d) : MemOk (createTokens q d) := w.modWeir.setRgN

protected theorem MemOk.boundaryChanges {q reb} (w : MemOk d) : MemOk (boundaryChanges q reb d) := by
  unfold boundaryChanges
  extract_lets d1 d2 d3 d4 d5
  have w1 : MemOk d1 := .foldl w fun _ _ h => h.changeSlot
  have w3 : MemOk d3 := w1.jbCtrlApply.twinApply.reinitAll.shedNow.rejoinAll
  have w4 : MemOk d4 := .foldl w3 fun _ _ h => h.jbMove.jbMove
  have w5 : MemOk d5 := by
    unfold d5
    split
    · exact w4.rebaseNow
    · exact w4
  exact w5.syncBuses.linesBoundary

protected theorem MemOk.passBoundary (w : MemOk d) : MemOk (passBoundary d) := by
  unfold passBoundary
  extract_lets q reb d1 d2 d3 d4 d5 d6 d7
  have w1 : MemOk d1 := w.modWeir.incRg.exportStaged.passFigures
  have w2 : MemOk d2 := .ite w1.rebasePending.clipEvents w1
  have w5 : MemOk d5 := w2.releaseSlots.flushParts.releaseAll.modTokens
  have w7 : MemOk d7 := w5.boundaryChanges.fireReady.createTokens
  exact .ite w.driveSync.earlyPulse (.ite w w7.sendHorizon.driveSync.syncPulse.spoolCheckAll)

protected theorem MemOk.deadlinePasses (w : MemOk d) : MemOk (deadlinePasses d) := .ite w w.deadline.sendHorizon.exportStaged

/-! ### Spool commands and flash -/

protected theorem MemOk.modFlash {f} (w : MemOk d) : MemOk (modFlash f d) := w

protected theorem MemOk.xfStart {op data} (w : MemOk d) : MemOk (xfStart op data d) :=
  .ite w.reject (.ite w.setRgN (.ite w.setRgN (.ite w.modFlash.setRgN.out w.modFlash.setRgN)))

protected theorem MemOk.xfEffect {x} (w : MemOk d) : MemOk (xfEffect x d) := by
  unfold xfEffect
  dsimp only
  split
  · exact w.out
  · exact .foldl w fun _ _ h => h.modFlash
  · exact .foldl w fun _ _ h => h.modFlash
  · exact w.modFlash
  · exact w.modFlash.modRec.spend.setRgN.setRgN

protected theorem MemOk.xfDone {err} (w : MemOk d) : MemOk (xfDone err d) := by
  unfold xfDone
  split
  · exact w
  · exact .raise (.setRgN (.modFlash (.ite w.xfEffect (.ite w.modFlash w))))

protected theorem MemOk.stopXf (w : MemOk d) : MemOk (stopXf d) := by
  unfold stopXf
  dsimp only
  refine .modFlash ?_
  split
  · exact .ite w.modFlash w
  · exact w

protected theorem MemOk.xfOp {v data} (w : MemOk d) : MemOk (xfOp v data d) := w.xfStart

protected theorem MemOk.blockMoves (w : MemOk d) : MemOk (blockMoves d) := w.modFlash

protected theorem MemOk.patrol {bits days} (w : MemOk d) : MemOk (patrol bits days d) := .ite w.blockMoves w

protected theorem MemOk.grownBad (w : MemOk d) : MemOk (grownBad d) := w.blockMoves.setRgN.raise

protected theorem MemOk.wear {spread percent days} (w : MemOk d) : MemOk (wear spread percent days d) := by
  unfold wear
  extract_lets was d1 d2 d3
  have w1 : MemOk d1 := w.setRgN
  have w2 : MemOk d2 := .ite w1.raise w1
  have w3 : MemOk d3 := .ite w2.raise w2
  exact .ite w3.blockMoves w3

protected theorem MemOk.selectCal (w : MemOk d) : MemOk (selectCal d) := .ite w.setRgN.setRgN.setRgN.raise w.setRgN.setRgN.setRgN

protected theorem MemOk.mountFlash {m} (w : MemOk d) : MemOk (mountFlash m d) := by
  unfold mountFlash
  extract_lets d1 d2
  have w1 : MemOk d1 := w.setRgN.setRgN.setRgN.setRgN.setRgN.setRgN.setRgN
  have w2 : MemOk d2 := .ite w1.raise w1
  exact .ite w.raise (.selectCal (.ite w2.raise w2))

protected theorem MemOk.flushDone (w : MemOk d) : MemOk (flushDone d) := .ite w w.stopXf.modRec.setRgN.out

/-! ### Rings, causes and attention -/

protected theorem MemOk.ringCtrl {fn addr k on} (w : MemOk d) : MemOk (ringCtrl fn addr k on d) :=
  .ite w.reject (.ite w.modRing (.ite w w.modRing))

protected theorem MemOk.ringBase {fn addr k v} (w : MemOk d) : MemOk (ringBase fn addr k v d) := .ite w.reject w.modRing

protected theorem MemOk.ringSize {fn addr k v} (w : MemOk d) : MemOk (ringSize fn addr k v d) := .ite w.reject (.ite w.reject w.modRing)

protected theorem MemOk.ringCons {fn addr k v} (w : MemOk d) : MemOk (ringCons fn addr k v d) := .ite w.reject w.modRing

protected theorem MemOk.onRing {fn part r off f} (w : MemOk d) (hf : ∀ a k x, MemOk x → MemOk (f a k x)) :
    MemOk (onRing fn part r off f d) :=
  .ite (hf _ _ d w) w.reject

protected theorem MemOk.onHeader {fn page off f} (w : MemOk d) (hf : ∀ a x, MemOk x → MemOk (f a x)) : MemOk (onHeader fn page off f d) :=
  .ite (hf _ d w) w.reject

protected theorem MemOk.faultClear {pg} (w : MemOk d) : MemOk (faultClear pg d) := w.modHdr.faultRec

protected theorem MemOk.causeClear {pg v} (w : MemOk d) : MemOk (causeClear pg v d) := .driveIrq (.ite w.modHdr.faultClear w.modHdr)

protected theorem MemOk.causeForce {pg v} (w : MemOk d) : MemOk (causeForce pg v d) := .ite w (.setCause (.ite w.raise w))

protected theorem MemOk.firstClear {pg} (w : MemOk d) : MemOk (firstClear pg d) := w.modHdr

protected theorem MemOk.foldClear {pg v} (w : MemOk d) : MemOk (foldClear pg v d) := w.modHdr

protected theorem MemOk.pageLock {pg} (w : MemOk d) : MemOk (pageLock pg d) := w.modHdr

protected theorem MemOk.maskWrite {pg v} (w : MemOk d) : MemOk (maskWrite pg v d) := w.modHdr.attend.driveIrq

protected theorem MemOk.freezePage {pg on} (w : MemOk d) : MemOk (freezePage pg on d) := .ite (w.same rfl) (w.same rfl)

protected theorem MemOk.eoi {fn v} (w : MemOk d) : MemOk (eoi fn v d) := .ite (w.same rfl) w

protected theorem MemOk.msixSend {fn} (w : MemOk d) : MemOk (msixSend fn d) := by
  unfold msixSend
  split
  · exact w
  · exact .ite (w.same rfl) (.out (w.same rfl))

protected theorem MemOk.msixMask {fn on} (w : MemOk d) : MemOk (msixMask fn on d) := .ite (.out (w.same rfl)) (w.same rfl)

protected theorem MemOk.perrPop {v} (w : MemOk d) : MemOk (perrPop v d) := w

/-! ### Commands of the Weir -/

protected theorem MemOk.afterCommit {c d0} (w : MemOk d) : MemOk (afterCommit c d0 d) := by
  unfold afterCommit
  dsimp only
  split
  · exact .ite w.releaseLate w.releaseLate.contextCommit
  · exact w.releaseLate

protected theorem MemOk.budgetAbort {c} (w : MemOk d) : MemOk (budgetAbort c d) := w.stageEnds

protected theorem MemOk.tarnScrub {c dm cs pm} (w : MemOk d) : MemOk (tarnScrub c dm cs pm d) :=
  .ite w (.ite w.addRg.addRg.addRg.raise w.addRg.addRg.addRg)

protected theorem MemOk.watchdogExpires {c} (w : MemOk d) : MemOk (watchdogExpires c d) :=
  .ite (.coreFaults (w.modTarn fun h => h.same rfl)) w

protected theorem MemOk.restartControl {c} (w : MemOk d) : MemOk (restartControl c d) :=
  .ite (.statusFault (w.modTarn fun h => h.same rfl)) w

protected theorem MemOk.unitFails {pg} (w : MemOk d) : MemOk (unitFails pg d) := .ite (.ite w.unitFault.sourceLost w.unitFault) w

/-! ### Resets and power -/

protected theorem MemOk.keepFuses {d'} (w : MemOk d) : MemOk (keepFuses d' d) := w.setRg

protected theorem MemOk.resetDev {src straps} (w : MemOk d) : MemOk (resetDev src straps d) := by
  unfold resetDev
  extract_lets n warm keep _ _ _ _ _ _ _ n1 n2
  have kept {α : Type} [DecidableEq α] {dflt : Nat → α} {m : Tab α} (h : tabWf dflt m = true) : tabWf dflt
    (if keep then m else []) = true := by
    split
    · exact h
    · rfl
  have w1 : MemOk n1 := ⟨kept w.basin, kept w.dram, rfl, fun _ h => nomatch h⟩
  exact .out (.actLow (.keepFuses (.ite w1.setRg w1)))

protected theorem MemOk.resetHifAtn {keepLock} (w : MemOk d) : MemOk (resetHifAtn keepLock d) :=
  .driveIrq (.keepFuses (.same (w.setRegs (tabWf_tabFilter _ _ _ w.regs)) rfl))

protected theorem MemOk.clearRing {k} (w : MemOk d) : MemOk (clearRing k d) := w.modRing

protected theorem MemOk.perstLow (w : MemOk d) : MemOk (perstLow d) :=
  .spoolCheckAll (.same (.foldl w.resetHifAtn fun _ _ h => .ite h.clearRing h.stopRing) rfl)

protected theorem MemOk.pfReadies (w : MemOk d) : MemOk (pfReadies d) := .ite w (w.same rfl)

protected theorem MemOk.pcieUp {speed width} (w : MemOk d) : MemOk (pcieUp speed width d) :=
  .ite w (.spoolCheckAll (.ite (.raise (.setRgN (w.same rfl))) (.setRgN (w.same rfl))))

protected theorem MemOk.pcieDown (w : MemOk d) : MemOk (pcieDown d) := .ite (.spoolCheckAll (.setRgN (w.same rfl))) w

protected theorem MemOk.cmdBusy (w : MemOk d) : MemOk (cmdBusy d) := w.reject

protected theorem MemOk.serviceCmd (w : MemOk d) : MemOk (serviceCmd d) := .ite w.enterService w.cmdBusy

protected theorem MemOk.autoService (w : MemOk d) : MemOk (autoService d) := .ite w.enterService w

protected theorem MemOk.dormantCmd (w : MemOk d) : MemOk (dormantCmd d) := by
  have ht : ∀ e ∈ d.tarns.map (fun e => (e.1, if e.1 < 64 ∧ (e.2.st = .idle ∨ e.2.st = .running)
      then { Tarn.reset with st := .idle, pm := e.2.pm, cs := e.2.cs } else e.2)), TarnOk e.2 := by
    intro e he
    obtain ⟨x, hx, rfl⟩ := List.mem_map.1 he
    obtain ⟨hdm, hcs, hpm⟩ := w.tarns x hx
    exact .ite ⟨rfl, hcs, hpm⟩ ⟨hdm, hcs, hpm⟩
  exact .ite w.cmdBusy (.driveSync (.driveAct (.setDevSt (.modWeir (.same ((w.setBasin rfl).setTarns ht) rfl)))))

protected theorem MemOk.wakeCmd (w : MemOk d) : MemOk (wakeCmd d) := .ite w.wakeUp w.cmdBusy

protected theorem MemOk.releaseCmd (w : MemOk d) : MemOk (releaseCmd d) := .ite ⟨rfl, rfl, w.regs, w.tarns⟩ w.cmdBusy

protected theorem MemOk.pwrCmd {v} (w : MemOk d) : MemOk (pwrCmd v d) := by
  unfold pwrCmd
  split
  · exact w.serviceCmd
  · exact w.dormantCmd
  · exact w.wakeCmd
  · exact w.resetDev
  · exact w.releaseCmd
  · exact w.reject

protected theorem MemOk.powerFalls (w : MemOk d) : MemOk (powerFalls d) :=
  .ite (w.same rfl) (.ite (.setRg (.modRec (.enterFault (.raise (w.same rfl))))) (.enterFault (.raise (w.same rfl))))

protected theorem MemOk.runImage {i} (w : MemOk d) : MemOk (runImage i d) := .setRgN (w.same rfl)

protected theorem MemOk.recoverGo {v img} (w : MemOk d) : MemOk (recoverGo v img d) := .ite w (.ite w.setRgN.runImage w.setRgN)

protected theorem MemOk.rollbackSet {v} (w : MemOk d) : MemOk (rollbackSet v d) := .ite w (.ite w.reject w.setRgN)

protected theorem MemOk.freshChallenge (w : MemOk d) : MemOk (freshChallenge d) := .spend (w.same rfl)

protected theorem MemOk.debugSubmit {v valid} (w : MemOk d) : MemOk (debugSubmit v valid d) := by
  unfold debugSubmit
  extract_lets _ d1 open_ d2 _
  have w2 : MemOk d2 := .foldl (w.same rfl) fun _ _ h => h.closePart
  clear_value d2
  exact .ite w (.ite w.incRg (.out (.raise (w2.same rfl))))

protected theorem MemOk.agingRead {percent} (w : MemOk d) : MemOk (agingRead percent d) := .ite w.setRgN.raise w.setRgN

/-! ### Serial Control Engine -/

protected theorem MemOk.modSce {f} (w : MemOk d) : MemOk (modSce f d) := w

protected theorem MemOk.sceFrame {b} (w : MemOk d) : MemOk (sceFrame b d) := .ite w (.ite w.modSce.out w.modSce)

protected theorem MemOk.sceHalted (w : MemOk d) : MemOk (sceHalted d) := w.modSce.raise

protected theorem MemOk.sceNext {pc} (w : MemOk d) : MemOk (sceNext pc d) := .ite w.modSce.sceHalted w.modSce

protected theorem MemOk.sceRun {op f} (w : MemOk d) (hf : ∀ v x, MemOk x → MemOk (f v x)) : MemOk (sceRun op f d) :=
  .ite w (.ite w.sceHalted.raise (.ite w (hf _ d w)))

protected theorem MemOk.shiftDone {w' sdi} (w : MemOk d) : MemOk (shiftDone w' sdi d) := .sceNext (.ite w.out.modSce w.out.modSce.sceFrame)

protected theorem MemOk.sceAbort (w : MemOk d) : MemOk (sceAbort d) := w.sceFrame.modSce.setRgN.sceHalted.raise

protected theorem MemOk.sceStall {bits} (w : MemOk d) : MemOk (sceStall bits d) := .ite w.sceFrame.modSce.sceAbort w.sceFrame.modSce

protected theorem MemOk.sceShift {sdi w'} (w : MemOk d) : MemOk (sceShift sdi w' d) := .ite w (.ite w.sceStall w.sceFrame.shiftDone)

protected theorem MemOk.drvLow {bits} (w : MemOk d) : MemOk (drvLow bits d) := .ite w.modSce.sceStall w.modSce

protected theorem MemOk.drvHigh {sdi} (w : MemOk d) : MemOk (drvHigh sdi d) := .ite w.modSce.shiftDone w.modSce

protected theorem MemOk.stallTimeout (w : MemOk d) : MemOk (stallTimeout d) := .ite w.raise w

protected theorem MemOk.sceCmd {c} (w : MemOk d) : MemOk (sceCmd c d) := by
  unfold sceCmd
  split
  · exact w.reject
  · split
    · exact w.modSce
    · exact w.modSce
    · exact w.sceAbort
    · exact w

protected theorem MemOk.sceTx {v} (w : MemOk d) : MemOk (sceTx v d) := .ite w.scePush w.reject

protected theorem MemOk.sceRx (w : MemOk d) : MemOk (sceRx d) := .ite w.out w.modSce.out

protected theorem MemOk.pmRefused {addr f} (w : MemOk d) (hf : ∀ x, MemOk x → MemOk (f x)) : MemOk (pmRefused addr f d) :=
  .ite w.reject (.ite (hf d w) w.reject.raise)

protected theorem MemOk.pmWrite {v} (w : MemOk d) : MemOk (pmWrite v d) := w.pmRefused fun _ h => h.modSce.setRgN

protected theorem MemOk.pmAddr {v} (w : MemOk d) : MemOk (pmAddr v d) := w.pmRefused fun _ h => h.setRgN

/-! ### Host reads -/

protected theorem MemOk.setRLatch {fn x} (w : MemOk d) : MemOk (setRLatch fn x d) := w

protected theorem MemOk.afterRead {pg o} (w : MemOk d) : MemOk (afterRead pg o d) := .ite w.modSce (.ite w.setRgN (.ite w.freshChallenge w))

protected theorem MemOk.read32 {fn pg o} (w : MemOk d) : MemOk (read32 fn pg o d).2 := by
  unfold read32
  split
  · exact w
  · split
    · exact w
    · split
      · exact w.afterRead
      · split
        · exact .iteSnd w.setRLatch w.afterRead
        · split
          · split
            · exact w
            · split
              · exact .iteSnd w.setRLatch w
              · exact w
          · exact w

protected theorem MemOk.hostRead {fn off size} (w : MemOk d) : MemOk (hostRead fn off size d).2 := by
  unfold hostRead
  extract_lets pg o
  refine .iteSnd w (.iteSnd w.read32 (.iteSnd w.logErr (.iteSnd w.read32 (.iteSnd w ?_))))
  split
  · exact .iteSnd w (.mk_snd w.read32.read32)
  · exact .mk_snd w.read32.read32

/-! ### Commands of the Time Base -/

protected theorem MemOk.incWrite {v} (w : MemOk d) : MemOk (incWrite v d) := .ite w.reject (.ite w.raise w.setInc)

protected theorem MemOk.stepWrite {s} (w : MemOk d) : MemOk (stepWrite s d) := by
  unfold stepWrite
  split
  · exact w.reject
  · split
    · exact w.raise.reject
    · exact w.raise.reject
    · exact w.reject
    · exact w
    · exact w.holdStep.nameStep

protected theorem MemOk.stepNow (w : MemOk d) : MemOk (stepNow d) := by
  unfold stepNow
  split
  · exact w
  · exact .ite (.ite w.applyStep.modTwin.out w.applyStep.modTwin) w

protected theorem MemOk.rearmWrite {v} (w : MemOk d) : MemOk (rearmWrite v d) := .ite w.modTb w.reject

protected theorem MemOk.srcWrite {v} (w : MemOk d) : MemOk (srcWrite v d) := .ite w.reject (.ite w.modTwin w.modTwin.setSource)

protected theorem MemOk.refExpired (w : MemOk d) : MemOk (refExpired d) := .ite w.enterFault w

protected theorem MemOk.servoMeasure {off mpd} (w : MemOk d) : MemOk (servoMeasure off mpd d) := .ite w w.takeMeasurement.afterServo

protected theorem MemOk.tjSecond {tj} (w : MemOk d) : MemOk (tjSecond tj d) := .ite (.raise (.setRgN (w.same rfl))) (.setRgN (w.same rfl))

protected theorem MemOk.secondFigures (w : MemOk d) : MemOk (secondFigures d) := .same w.setRgN.setRgN.setRgN rfl

protected theorem MemOk.fecSecond {p} (w : MemOk d) : MemOk (fecSecond p d) :=
  .ite w (.ite w.spend.spend.macCount.macCount.raise w.spend.spend.macCount.macCount)

protected theorem MemOk.fecFigures (w : MemOk d) : MemOk (fecFigures d) := .foldl w fun _ _ h => h.fecSecond

protected theorem MemOk.integerSecond {tj} (w : MemOk d) : MemOk (integerSecond tj d) := by
  unfold integerSecond
  extract_lets n d0 r d1 d2
  have w1 : MemOk d1 := w.modTb.countSecond.ppsRise.modRec.ringOffer
  have w2 : MemOk d2 := .ite w1.logEvent w1
  exact .ite w w2.modTb.secondFigures.fecFigures.anchorAll.tjSecond

/-! ### Host writes -/

protected theorem MemOk.inRange {pg o ok w'} (w : MemOk d) : MemOk (inRange pg o ok w' d) := .ite w.storeReg w.reject

protected theorem MemOk.ringWrite {fn addr k o v} (w : MemOk d) : MemOk (ringWrite fn addr k o v d) := by
  unfold ringWrite
  dsimp only
  split
  · exact w.ringBase
  · exact w.ringSize
  · exact w.ringCtrl
  · exact w.ringCons
  · exact .ite w.reject w.modRing
  · exact w

protected theorem MemOk.writeHif {o v} (w : MemOk d) : MemOk (writeHif o v d) :=
  .ite w.perrPop (.ite w.storeReg.driveIrq (.ite w.ringWrite w.storeReg))

protected theorem MemOk.writePwr {pg o w'} (w : MemOk d) : MemOk (writePwr pg o w' d) :=
  .ite w.pwrCmd (.ite w.storeReg.autoService (.ite w.rollbackSet (.ite w.spend.spend.spend.recoverGo
    (.ite w.spend.debugSubmit w.storeReg))))

protected theorem MemOk.ptpPortWrite {pg o w'} (w : MemOk d) : MemOk (ptpPortWrite pg o w' d) := w.setRg.setRoles

protected theorem MemOk.ptpCtrlWrite {pg o w'} (w : MemOk d) : MemOk (ptpCtrlWrite pg o w' d) := .ite w.storeReg.setRoles w.reject

protected theorem MemOk.writeTb {pg o v} (w : MemOk d) : MemOk (writeTb pg o v d) :=
  .ite w.incWrite (.ite w.stepWrite (.ite w.rearmWrite (.ite w.modTb (.ite w.srcWrite (.ite w.inRange (.ite w.inRange (.ite w.inRange
    (.ite w.ptpCtrlWrite (.ite w.ptpPortWrite (.ite w.inRange (.ite w.inRange w.storeReg)))))))))))

protected theorem MemOk.weirSet {o w'} (w : MemOk d) : MemOk (weirSet o w' d) :=
  w.notStandby fun _ h => .ite h.reject (.ite h.reject (.ite h.modTwin.forward h.setRgN))

protected theorem MemOk.shedCfgWrite {w'} (w : MemOk d) : MemOk (shedCfgWrite w' d) :=
  w.notStandby fun _ h => .ite h.modTwin.forward h.modShed.decideShed

protected theorem MemOk.writeWeir {pg o v} (w : MemOk d) : MemOk (writeWeir pg o v d) :=
  .ite w.weirSet (.ite w.returnCores (.ite w.shedCfgWrite w.storeReg))

protected theorem MemOk.writePath {pg o v} (w : MemOk d) : MemOk (writePath pg o v d) :=
  .ite w.inRange (.ite w.inRange (.ite w.seedWrite (.ite w.bindCtrl (.ite w.bindPorts (.ite w.bindIp (.ite w.policerWrite
    (.ite w.jbCtrlWrite w.storeReg)))))))

protected theorem MemOk.macCfgWrite {p w'} (w : MemOk d) : MemOk (macCfgWrite p w' d) := .ite w.reject (.ite w.reject w.storeReg)

protected theorem MemOk.writeMac {pg o v} (w : MemOk d) : MemOk (writeMac pg o v d) :=
  .ite (.ite w.macCfgWrite (.ite (.ite w.reject w.storeReg) (.ite w.modPort (.ite w.setRg w.storeReg)))) (.ite w.inRange (.ite w.inRange
    (.ite w.txRingProd (.ite w.ringWrite w.storeReg))))

protected theorem MemOk.writeMgmt {o v} (w : MemOk d) : MemOk (writeMgmt o v d) :=
  .ite w.storeReg.mgmtLink (.ite w.setRg (.ite (.ite w.reject w.mdioStart) (.ite w.txRingProd (.ite w.ringWrite
    (.ite w.ringWrite w.storeReg)))))

protected theorem MemOk.modCtrlWrite {w'} (w : MemOk d) : MemOk (modCtrlWrite w' d) :=
  .foldl w.storeReg fun _ _ h => .ite (.ite h h.out) (.out (.ite h h.out))

protected theorem MemOk.writeBmb {o w'} (w : MemOk d) : MemOk (writeBmb o w' d) :=
  .ite w.modCtrlWrite (.ite w.bmbCtrl (.ite w.bmbStart w.storeReg))

protected theorem MemOk.writeTwin {pg o w'} (w : MemOk d) : MemOk (writeTwin pg o w' d) := by
  unfold writeTwin
  dsimp only
  split
  · exact .ite w.reject w.storeReg.twinEnable
  · split
    · split
      · exact w.switchCmd
      · exact w.detachCmd
      · exact w.attachCmd
      · exact w.reject
    · exact .ite w.inRange w.storeReg

protected theorem MemOk.writeStore {pg o v} (w : MemOk d) : MemOk (writeStore pg o v d) :=
  .ite w.inRange (.ite (.ite w.discardSpool w) (.ite w.inRange (.ite w.inRange (.ite w.inRange (.ite w.setRg
    (.ite w.spend.xfOp w.storeReg))))))

protected theorem MemOk.writeLine {pg o w'} (w : MemOk d) : MemOk (writeLine pg o w' d) :=
  .ite w.lfeCtrl (.ite (.ite w.lineBind w.lineWrite) (.ite w.inRange (.ite (.ite w.sceCmd w.reject) (.ite w.inRange (.ite w.sceTx
    (.ite w.pmAddr (.ite w.pmWrite w.storeReg)))))))

protected theorem MemOk.writeFab {pg o w'} (w : MemOk d) : MemOk (writeFab pg o w' d) :=
  .ite (.ite w.reject w.storeReg.driveSync) (.ite w.inRange (.ite w.storeReg.takeAddr (.ite w.inRange (.ite w.trunkBindDo w.storeReg))))

protected theorem MemOk.writePart {p o w'} (w : MemOk d) : MemOk (writePart p o w' d) := .ite w.partCtrl (.ite w.windowSet w.quotaSet)

protected theorem MemOk.winStore {p k o v} (w : MemOk d) : MemOk (winStore p k o v d) := by
  unfold winStore
  split
  · exact w.setRgN
  · exact w

protected theorem MemOk.writeChw {fn p o v} (w : MemOk d) : MemOk (writeChw fn p o v d) :=
  .ite w.reject (.ite w.reject (.ite (.ite w.chwStart w.reject) w.winStore))

protected theorem MemOk.writeFlw {fn p o v} (w : MemOk d) : MemOk (writeFlw fn p o v d) :=
  .ite w.reject (.ite w.winStore (.ite w.flwOp w.reject))

protected theorem MemOk.writeKey {fn p o v} (w : MemOk d) : MemOk (writeKey fn p o v d) := .ite w.winStore (.ite w.keyOp w.reject)

protected theorem MemOk.writePrg {fn p o v} (w : MemOk d) : MemOk (writePrg fn p o v d) := by
  unfold writePrg
  dsimp only
  split
  · exact w.reject
  · split
    · exact w.winStore
    · split
      · exact w.prgLoadOp
      · exact w.prgUnloadOp
      · exact w.prgQueryOp
      · exact w.reject

protected theorem MemOk.writeWin {fn p k o v} (w : MemOk d) : MemOk (writeWin fn p k o v d) := by
  unfold writeWin
  split
  · exact w.eoi
  · exact w.writeChw
  · exact w.writeFlw
  · exact w.writeKey
  · exact w.writePrg
  · exact w.ringWrite
  · exact w

protected theorem MemOk.writeReg' {fn pg o v} (w : MemOk d) : MemOk (writeReg' fn pg o v d) := by
  unfold writeReg'
  dsimp only
  split
  · exact w.writeWin
  · exact .ite w.writeHif (.ite w.eoi (.ite w.writePwr (.ite w.writeTb (.ite w.writeWeir (.ite w.inRange (.ite w.writePath
      (.ite w.writeMac (.ite w.writeMgmt (.ite w.writeTwin (.ite w.writeStore (.ite w.writeLine (.ite w.writeFab
      (.ite w.writeBmb w.writePart)))))))))))))

protected theorem MemOk.perform {fn addr pg o r size v} (w : MemOk d) : MemOk (perform fn addr pg o r size v d) :=
  .ite w.reject (.ite w (.ite w.reject w.writeReg'))

protected theorem MemOk.resetBindings (w : MemOk d) : MemOk (resetBindings d) := w

protected theorem MemOk.unitReset {pg} (w : MemOk d) : MemOk (unitReset pg d) :=
  .ite w.tbSoftReset (.ite w.setSource (.ite w.modWeir (.ite w.resetBindings (.ite (w.same rfl) (.ite
    (w.setTarns (forall_mem_tabSet .reset w.tarns)) (.ite w.modPort (.ite w.modSce (.ite w.driveSync (.ite (w.same rfl) (.ite w.takeAddr
      (.ite (.ite w.setRg w) w)))))))))))

protected theorem MemOk.resetBlock {pg} (w : MemOk d) : MemOk (resetBlock pg d) :=
  .unitReset (.foldl (.ite (.foldl w fun _ _ h => .foldl h fun _ _ h1 => h1.linePut) (w.setRegs (tabWf_tabFilter _ _ _ w.regs)))
    fun _ _ h => h.clearRing)

protected theorem MemOk.takeCtrl {pg v} (w : MemOk d) : MemOk (takeCtrl pg v d) := .ite w.modHdr w.modHdr.freezePage

protected theorem MemOk.softReset {fn addr pg v} (w : MemOk d) : MemOk (softReset fn addr pg v d) := by
  unfold softReset
  split
  · exact w.reject
  · exact .driveIrq (.takeCtrl (.modHdr (.freezePage (.resetBlock (.ite w.faultClear w)))))

protected theorem MemOk.headerWrite {fn addr pg o w'} (w : MemOk d) : MemOk (headerWrite fn addr pg o w' d) := by
  unfold headerWrite
  split
  · exact .ite w.softReset w.takeCtrl
  · exact w.causeClear
  · exact w.maskWrite
  · exact w.causeForce
  · exact .ite w.firstClear w
  · exact w.foldClear
  · exact .ite w.pageLock w
  · exact .ite w w.reject

protected theorem MemOk.setWLatch {fn x} (w : MemOk d) : MemOk (setWLatch fn x d) := w

protected theorem MemOk.write64 {fn off pg v} (w : MemOk d) : MemOk (write64 fn off pg v d) := by
  unfold write64
  dsimp only
  split
  · exact .ite w.perform w.reject
  · exact .ite w.reject w.reject

protected theorem MemOk.write32 {fn off pg w'} (w : MemOk d) : MemOk (write32 fn off pg w' d) := by
  unfold write32
  dsimp only
  split
  · exact w.headerWrite
  · split
    · exact .ite w.setWLatch w.perform
    · split
      · split
        · exact w.reject
        · split
          · exact .ite w.setWLatch.perform w.reject
          · exact w.reject
      · exact w.reject

protected theorem MemOk.regWrite {fn off size v} (w : MemOk d) : MemOk (regWrite fn off size v d) :=
  .ite w (.ite w.reject (.ite w.reject (.ite w.write64 w.write32)))

/-! ### Operands and memories of a core -/

protected theorem TarnOk.hide {place old need} (w : TarnOk t) : TarnOk (hide place old need t) := w

protected theorem TarnOk.reveal {place} (w : TarnOk t) : TarnOk (reveal place t) := w

protected theorem TarnOk.ageAll (w : TarnOk t) : TarnOk (ageAll t) := w

protected theorem TarnOk.setSeen {p n v} (w : TarnOk t) : TarnOk (setSeen p n v t) := by
  unfold setSeen
  extract_lets l
  split
  · exact w.same rfl
  · exact w.same rfl

protected theorem TarnOk.writeSt {v} (w : TarnOk t) : TarnOk (writeSt v t) := w.setTr.hide.hide.hide

protected theorem TarnOk.writeReg {n v load} (w : TarnOk t) : TarnOk (writeReg n v load t) :=
  .ite w.writeSt (.ite (.ite w.setTr.hide w.setTr.reveal) (.ite w.setTr.hide (.ite w.setTr.hide (.ite w.setTr w.setTr))))

protected theorem TarnOk.setFlags {nz c v dz} (w : TarnOk t) : TarnOk (setFlags nz c v dz t) := w.setTr.hide.hide

protected theorem TarnOk.setAccV {v} (w : TarnOk t) : TarnOk (setAccV v t) := .ite w.setTr.hide w

protected theorem TarnOk.setAcc1 {n part v} (w : TarnOk t) : TarnOk (setAcc1 n part v t) := w.setTr.hide

protected theorem TarnOk.setAcc {n re im} (w : TarnOk t) : TarnOk (setAcc n re im t) := w.setAcc1.setAcc1

protected theorem TarnOk.postMod {i δ} (w : TarnOk t) : TarnOk (postMod i δ t) := w.setSeen

protected theorem TarnOk.modeEA {i step} (w : TarnOk t) : TarnOk (modeEA i step t).2 := by
  unfold modeEA
  dsimp only
  split
  · exact w
  · exact w.postMod
  · exact w.postMod
  · exact w.postMod
  · exact w
  · exact w

protected theorem TarnOk.macEA {i code} (w : TarnOk t) : TarnOk (macEA i code t).2 := by
  unfold macEA
  dsimp only
  split
  · exact w
  · exact w.postMod
  · exact w.postMod
  · exact w.postMod

/-! ### Running one instruction -/

protected theorem TarnOk.clearUser (w : TarnOk t) : TarnOk (clearUser t) := (w.setDm (tabWf_drained _ w.dm)).same rfl

protected theorem MemOk.userExit {c cause} (w : MemOk d) : MemOk (userExit c cause d) := by
  unfold userExit
  extract_lets d1
  have w1 : MemOk d1 := w.modTarn fun h => h.clearUser.same rfl
  refine .ite ?_ w1.incRg.stageEnds
  split
  · exact w1.stageEnds
  · exact w1

protected theorem MemOk.illegalAt {c} (w : MemOk d) : MemOk (illegalAt c d) := .ite w.userExit w.coreFaults

protected theorem MemOk.tenantLoad {c} (w : MemOk d) : TarnOk (tenantLoad c d).2 := by
  unfold tenantLoad
  extract_lets t z
  have hz : TarnOk z := (w.tarn.setDm (tabWf_tabFilter _ _ _ w.tarn.dm)).same rfl
  split
  · exact hz
  · exact .iteSnd hz ⟨tabWf_placeWords _ _ (tabWf_placeWords _ _ (tabWf_placeWords _ _ (tabWf_placeWords _ _ hz.dm))), hz.cs,
      tabWf_placeWords _ _ hz.pm⟩

protected theorem MemOk.chargeWdog {c n} (w : MemOk d) : MemOk (chargeWdog c n d) := by
  unfold chargeWdog
  extract_lets left d1
  have w1 : MemOk d1 := w.modTarn fun h => h.same rfl
  exact .ite w (.ite w1.coreFaults w1)

protected theorem MemOk.prepareWindow {c} (w : MemOk d) : MemOk (prepareWindow c d) := by
  have w0 : MemOk (modTarn c (fun t => { t with dm := drained t.sb t.dm, sb := [] }) d) :=
    w.modTarn fun h => (h.setDm (tabWf_drained _ h.dm)).same rfl
  exact .chargeWdog (w0.modTarn fun _ => w0.tenantLoad.same rfl)

protected theorem MemOk.enterUser {c ret} (w : MemOk d) : MemOk (enterUser c ret d) := w.modTarn fun h => h.clearUser.same rfl

protected theorem TarnOk.loopEnd {pc next was} (w : TarnOk t) : TarnOk (loopEnd pc next was t).2 :=
  .iteSnd w (.iteSnd w.setSeen (.setSeen (w.same rfl)))

protected theorem TarnOk.advance {i was skip} (w : TarnOk t) : TarnOk (advance i was t skip) := by
  unfold advance
  extract_lets pc t1 next l at_ _ t2 dest
  have h1 : TarnOk t1 := .ite (w.same rfl) w
  have h2 : TarnOk t2 := by
    unfold t2
    split
    · exact h1.loopEnd.same rfl
    · exact h1.loopEnd
  split
  · exact w.same rfl
  · exact h2.same rfl

protected theorem MemOk.afterSlots {c s} (w : MemOk d) : MemOk (afterSlots c s d) := by
  unfold afterSlots
  split
  · exact w
  · split
    · exact w.modTarn fun h => h.same rfl
    · exact w.enterUser
    · exact w.userExit
    · exact w

/-- What an instruction leaves of its core keeps the form, when it goes on. -/
inductive EffOk : Eff → Prop
  | stop {cause} : EffOk (.stop cause)
  | go {t use skip} (w : TarnOk t) : EffOk (.go t use skip)

theorem EffOk.of_go {use skip} (h : EffOk (.go t use skip)) : TarnOk t := by
  cases h with
  | go w => exact w

protected theorem MemOk.completeInstr {c i x} (w : MemOk d) (hx : EffOk x) : MemOk (completeInstr c i x d) := by
  unfold completeInstr
  split
  · exact .ite w.illegalAt w.userExit
  · extract_lets was bad k count left gone t1 t2 d1 d2
    have h1 : TarnOk t1 := (hx.of_go.setDm (tabWf_drained _ hx.of_go.dm)).same rfl
    have h2 : TarnOk t2 := .ite h1.setTr h1
    have w1 : MemOk d1 := w.modTarn fun _ => h2.advance.same rfl
    have w2 : MemOk d2 := .ite w1 w1.chargeWdog
    exact .ite (.userExit (w.modTarn fun h => h.same rfl)) (.ite w2.afterSlots w2)

protected theorem MemOk.runTarn {c op sem} (w : MemOk d) (hs : ∀ i t, TarnOk t → EffOk (sem i t)) : MemOk (runTarn c op sem d) := by
  unfold runTarn
  split
  · exact w
  · exact w.illegalAt
  · exact w.completeInstr (hs _ _ w.tarn.ageAll)

protected theorem MemOk.runSystem {c op f} (w : MemOk d) (hf : ∀ i x, MemOk x → MemOk (f i x).2) : MemOk (runSystem c op f d) := by
  unfold runSystem
  split
  · exact w
  · exact w.illegalAt
  next i _ =>
    have w1 := hf i d w
    exact .ite (w1.completeInstr (.go w1.tarn.ageAll)) w1

protected theorem MemOk.interruptEntry {c debug} (w : MemOk d) : MemOk (interruptEntry c debug d) := by
  unfold interruptEntry
  extract_lets d1 t
  have w1 : MemOk d1 := .ite (w.modTarn fun h => h.same rfl) w
  split
  · exact w1
  · extract_lets t1
    refine .ite w1 (w1.modTarn fun h => .ite (h.same rfl) ?_)
    split
    · exact h.same rfl
    · exact .ite (h.same rfl) (h.same rfl)

/-! ### Commands of a host access -/

protected theorem MemOk.dramPut {a n v} (w : MemOk d) : MemOk (dramPut a n v d) := .foldl w fun _ _ h => h.dramWrite

protected theorem MemOk.bar2Write {off size v} (w : MemOk d) : MemOk (bar2Write off size v d) := by
  unfold bar2Write
  split
  · exact w
  · split
    · exact w.reject
    · split
      · exact .ite w.basinWrite w.reject
      · exact w.dramPut
      · exact w.reject

protected theorem MemOk.bar2Read {off size} (w : MemOk d) : MemOk (bar2Read off size d).2 := by
  unfold bar2Read
  split
  · exact w
  · split
    · exact w.logErr
    · split
      · exact w.meetPoison
      · exact w
      · exact w

protected theorem MemOk.answer {fn bar off size} {r : Nat × Dev} (w : MemOk r.2) : MemOk (answer fn bar off size r) := w.out

protected theorem MemOk.anyRead {fn bar off size} (w : MemOk d) : MemOk (anyRead fn bar off size d) :=
  .ite w.hostRead.answer (.ite w.bar2Read.answer w)

protected theorem MemOk.configWrite {busDev item} (w : MemOk d) : MemOk (configWrite busDev item d) := by
  unfold configWrite
  split
  · exact w
  · split
    · exact w.same rfl
    · exact .ite (w.same rfl) (w.same rfl)
    · exact .spoolCheckAll (w.same rfl)
    · exact .ite (.spoolCheckAll (w.same rfl)) (w.same rfl)
    · exact .ite (.msixMask (w.same rfl)) (w.same rfl)

protected theorem MemOk.clearFn {fn} (w : MemOk d) : MemOk (clearFn fn d) := by
  unfold clearFn
  exact .zeroStaging (w.same rfl)

protected theorem MemOk.headerReset {pg} (w : MemOk d) : MemOk (headerReset pg d) := w.freezePage.modHdr

protected theorem MemOk.resetVfa {p} (w : MemOk d) : MemOk (resetVfa p d) := .headerReset (w.setRegs (tabWf_tabFilter _ _ _ w.regs))

protected theorem MemOk.vfFlr {p} (w : MemOk d) : MemOk (vfFlr p d) := by
  unfold vfFlr
  extract_lets d1 _
  have w1 : MemOk d1 := .foldl w.clearFn fun _ _ h => h.headerReset
  clear_value d1
  exact .ite w (w1.same rfl)

protected theorem MemOk.pfFlr (w : MemOk d) : MemOk (pfFlr d) := by
  unfold pfFlr
  extract_lets link d1 vfs d2 d3 d4
  have w1 : MemOk d1 := .foldl w fun _ _ h => .ite h.clearRing (.ite h.stopRing h)
  have w2 : MemOk d2 := .foldl (w1.setRegs (tabWf_tabFilter _ _ _ w1.regs)) fun _ _ h => h.resetVfa
  have w4 : MemOk d4 := w2.resetHifAtn.setRg.zeroStaging
  clear_value d4
  exact .ite w (.spoolCheckAll (w4.same rfl))

/-! ### Steps of boot -/

protected theorem MemOk.bootRom {b} (w : MemOk d) : MemOk (bootRom b d) := by
  have w1 : MemOk (setRgN rPWR_ROLLBACK (min b.rollback 64) d) := w.setRgN
  exact .ite w ((w1.same rfl).modTarn fun h => h.same rfl)

protected theorem MemOk.enterRecovery (w : MemOk d) : MemOk (enterRecovery d) := .setRgN (w.same rfl)

protected theorem MemOk.bootImage {b} (w : MemOk d) : MemOk (bootImage b d) :=
  .ite w.enterRecovery (.ite w.setRgN.runImage (.ite w.setRgN.raise.runImage w.enterRecovery))

protected theorem MemOk.bootFails (w : MemOk d) : MemOk (bootFails d) := w.spend.spend.enterFault

protected theorem MemOk.startControl {b c} (w : MemOk d) : MemOk (startControl b c d) :=
  w.modTarn fun h => (h.setPm (tabWf_tabOfList b.ctl 0x4000)).same rfl

protected theorem MemOk.startMedia {b c} (w : MemOk d) : MemOk (startMedia b c d) := (w.modTarn .load).modHdr

protected theorem MemOk.bootFirmware {b} (w : MemOk d) : MemOk (bootFirmware b d) := by
  unfold bootFirmware
  extract_lets d1 dt d2 _ d3 _
  have w1 : MemOk d1 := .foldl w fun _ _ h => h.startControl
  have w2 : MemOk d2 := .mountFlash (.ite w1.setRgN w1.setRgN.unitFault)
  clear_value d2
  have w3 : MemOk d3 := .foldl (w2.same rfl) fun _ _ h => h.startMedia
  clear_value d3
  exact .ite w1.bootFails (w3.same rfl)

protected theorem MemOk.applySetting {e} (w : MemOk d) : MemOk (applySetting e d) := by
  unfold applySetting
  extract_lets size _ x _
  have wx : MemOk x := .regWrite (w.same rfl)
  exact .ite (wx.same rfl) w

protected theorem MemOk.applySettings {p l} (w : MemOk d) : MemOk (applySettings p l d) := .foldl w fun _ _ h => h.applySetting

protected theorem MemOk.enablePages (w : MemOk d) : MemOk (enablePages d) := .foldl w fun _ _ h => h.modHdr

protected theorem MemOk.bootConfig {b} (w : MemOk d) : MemOk (bootConfig b d) := by
  unfold bootConfig
  extract_lets d1 _ d2
  have w1 : MemOk d1 := w.applySettings.enablePages
  clear_value d1
  have w2 : MemOk d2 := w1.same rfl
  exact .ite w.bootFails (.ite w2.modSce.sceCmd w2)

protected theorem MemOk.bootJoin {b} (w : MemOk d) : MemOk (bootJoin b d) :=
  .ite w.bootFails (.acquireDone (.setDevSt (.same (.ite w.applySettings.setSource w.applySettings) rfl)))

protected theorem MemOk.bootNext {b} (w : MemOk d) : MemOk (bootNext b d) := by
  unfold bootNext
  split
  · exact w
  · split
    · exact w.bootRom
    · exact .ite w w.bootImage
    · exact w.bootFirmware
    · exact w.bootConfig
    · exact w.bootJoin
    · exact w

/-! ### Accumulator moves -/

protected theorem TarnOk.csPut {a v} (w : TarnOk t) : TarnOk (csPut a v t) := ⟨w.dm, tabWf_tabSet _ _ _ _ w.cs, w.pm⟩

protected theorem TarnOk.pmPut {a v} (w : TarnOk t) : TarnOk (pmPut a v t) := ⟨w.dm, w.cs, tabWf_tabSet _ _ _ _ w.pm⟩

/-! ### Leaving and entering user mode -/

protected theorem TarnOk.armLoop {n v} (w : TarnOk t) : TarnOk (armLoop n v t) := w.setTr.reveal

protected theorem MemOk.callUser {c} (w : MemOk d) : MemOk (callUser c d) := by
  unfold callUser
  split
  · exact w
  · exact w.illegalAt
  · exact .ite (w.prepareWindow.completeInstr (.go (w.prepareWindow.tarn.ageAll.same rfl))) w.prepareWindow

/-! ### Instructions that act beyond their core -/

protected theorem MemOk.farFault {c a write bad} (w : MemOk d) : MemOk (farFault c a write bad d) := w.setRgN.setRgN.raise.coreFaults

protected theorem MemOk.farRead {a n} (w : MemOk d) : MemOk (farRead a n d).2 := by
  unfold farRead
  split
  · exact w
  · exact w.meetPoison
  · exact w.hostRead
  · exact w

protected theorem MemOk.farWrite {a n v} (w : MemOk d) : MemOk (farWrite a n v d) := by
  unfold farWrite
  split
  · exact w.dramPut
  · exact w.basinWrite
  · exact w.regWrite
  · exact w

protected theorem MemOk.drainCore {c} (w : MemOk d) : MemOk (drainCore c d) := w.modTarn fun h => (h.setDm (tabWf_drained _ h.dm)).same rfl

/-- The address is held as a variable, so that the kernel compares the cases without computing it. -/
protected theorem MemOk.farLoad {c} (w : MemOk d) : MemOk (farLoad c d) := by
  obtain ⟨address, h⟩ : ∃ f, f = farAddr := ⟨_, rfl⟩
  unfold farLoad
  rw [← h]
  split
  · exact w
  · exact w.illegalAt
  · extract_lets d1 a n
    split
    · exact w.drainCore.farFault
    · exact w.drainCore.farRead.completeInstr (.go w.drainCore.farRead.tarn.ageAll.writeReg)

/-- As for `farLoad`; `farStore` itself is opened unapplied for the same reason. -/
protected theorem MemOk.farStore {c i} (w : MemOk d) : MemOk (farStore c i d).2 := by
  obtain ⟨store, h⟩ : ∃ f, f = farStore := ⟨_, rfl⟩
  obtain ⟨address, ha⟩ : ∃ f, f = farAddr := ⟨_, rfl⟩
  rw [← h]
  delta farStore at h
  rw [← ha] at h
  rw [h]
  beta_reduce
  extract_lets d1 a n v
  split
  · exact w.drainCore.farFault
  · exact w.drainCore.farWrite

protected theorem MemOk.dmaQueue {c i} (w : MemOk d) : MemOk (dmaQueue c i d).2 := by
  unfold dmaQueue
  extract_lets d1 a t
  split
  · exact w.drainCore.farFault
  · exact w.drainCore.modTarn fun h => h.same rfl

protected theorem MemOk.farCopy {b} (w : MemOk d) : MemOk (farCopy b d) := .foldl w fun _ _ h => h.farRead.farWrite

protected theorem MemOk.dmaDone {c} (w : MemOk d) : MemOk (dmaDone c d) := by
  unfold dmaDone
  extract_lets t
  split
  · exact w
  · exact w.farCopy.modTarn fun h => (h.setDm (tabWf_tabMod _ _ _ _ h.dm)).same rfl

protected theorem MemOk.stream {c i} (w : MemOk d) : MemOk (stream c i d).2 := by
  unfold stream
  extract_lets w0 w1 src dm n as cost d1 d2 d3
  have h1 : MemOk d1 := w.modTarn fun h => h.same rfl
  have h2 : MemOk d2 := .ite (.foldl h1 fun _ _ h => h.basinWrite)
    (.meetPoison (h1.modTarn fun h => (h.setDm (tabWf_foldl (fun _ _ => tabWf_tabSet _ _ _ _) _ h.dm)).same rfl))
  split
  · exact w.coreFaults
  · extract_lets p
    refine .iteSnd w.unitFault.coreFaults ?_
    split
    · refine .coreFaults ?_
      split
      · exact w.tagFault
      · exact w
    · exact h2.chargeWdog

protected theorem MemOk.jobEnds {c i} (w : MemOk d) : MemOk (jobEnds c i d) := by
  unfold jobEnds
  extract_lets d1
  have w1 : MemOk d1 := w.drainCore.completeInstr (.go w.drainCore.tarn.ageAll)
  refine .ite w1 ?_
  split
  · exact w1.modTarn fun h => h.same rfl
  · extract_lets d2
    have w2 : MemOk d2 := .ite w1.runJob w1
    exact w2.completeJob.afterCommit

protected theorem MemOk.doneSem {c} (w : MemOk d) : MemOk (doneSem c d) := by
  unfold doneSem
  split
  · exact w
  · exact w.illegalAt
  · exact w.jobEnds

protected theorem MemOk.waitSem {c} (w : MemOk d) : MemOk (waitSem c d) := by
  unfold waitSem
  split
  · exact w
  · exact w.illegalAt
  · extract_lets d1
    have w1 : MemOk d1 := w.completeInstr (.go w.tarn.ageAll)
    exact .ite (w1.modTarn fun h => h.same rfl) w1

protected theorem MemOk.mboxPost {c i} (w : MemOk d) : MemOk (mboxPost c i d).2 := w.modTarn fun h => h.same rfl

protected theorem MemOk.budgetEnds {c} (w : MemOk d) : MemOk (budgetEnds c d) :=
  .ite (.userExit (w.modTarn fun h => h.same rfl)) w.budgetAbort

/-! ### Instructions -/

theorem EffOk.ite {c : Prop} [Decidable c] {a b : Eff} (ha : EffOk a) (hb : EffOk b) : EffOk (if c then a else b) := by
  split
  · exact ha
  · exact hb

protected theorem TarnOk.aluSem {c op i} (w : TarnOk t) : EffOk (aluSem c op i t) := .go (.setFlags (.ite w w.writeReg))

protected theorem TarnOk.immSem {c op i} (w : TarnOk t) : EffOk (immSem c op i t) :=
  .ite (.go (.setFlags (.ite w w.writeReg))) (.go w.writeReg)

protected theorem TarnOk.divSem {c i} (w : TarnOk t) : EffOk (divSem c i t) := .go w.writeReg.writeReg.setFlags

protected theorem TarnOk.movSem {c i} (w : TarnOk t) : EffOk (movSem c i t) := .go w.writeReg

protected theorem TarnOk.mvaSem {c i} (w : TarnOk t) : EffOk (mvaSem c i t) := .go w.writeReg.setFlags

protected theorem TarnOk.acrdSem {c i} (w : TarnOk t) : EffOk (acrdSem c i t) := .go w.writeReg

protected theorem TarnOk.acwrSem {c i} (w : TarnOk t) : EffOk (acwrSem c i t) := by
  refine .go ?_
  split
  · exact w.setAcc1
  · exact w.setAcc1
  · exact w.setAcc

protected theorem TarnOk.acsetSem {c i} (w : TarnOk t) : EffOk (acsetSem c i t) := .go w.setAcc

protected theorem TarnOk.acclrSem {i} (w : TarnOk t) : EffOk (acclrSem i t) := .go w.setAcc

protected theorem TarnOk.acshSem {c i} (w : TarnOk t) : EffOk (acshSem c i t) := .go w.setAcc.setFlags.setAccV

protected theorem TarnOk.acrndSem {i} (w : TarnOk t) : EffOk (acrndSem i t) := .go w.setAcc.setAccV

protected theorem TarnOk.mpylSem {c i} (w : TarnOk t) : EffOk (mpylSem c i t) := .go w.setAcc

protected theorem TarnOk.ldiSem {i} (w : TarnOk t) : EffOk (ldiSem i t) := .go w.writeReg

protected theorem TarnOk.ldihSem {c i} (w : TarnOk t) : EffOk (ldihSem c i t) := .go w.writeReg

protected theorem EffOk.orWindow {x} (hx : ∀ r ∈ x, TarnOk r.1) : EffOk (orWindow x) := by
  cases x with
  | none => exact .stop
  | some r => exact .go (hx r rfl)

protected theorem TarnOk.loadSem {halves f i} (w : TarnOk t) (hf : ∀ v x, TarnOk x → TarnOk (f v x)) : EffOk (loadSem halves f i t) := by
  refine .orWindow fun r hr => ?_
  obtain ⟨x, -, rfl⟩ := Option.map_eq_some_iff.1 hr
  exact hf _ _ w.modeEA

protected theorem TarnOk.ldSem {i} (w : TarnOk t) : EffOk (ldSem i t) := w.loadSem fun _ _ h => h.writeReg

protected theorem TarnOk.ldhSem {c i} (w : TarnOk t) : EffOk (ldhSem c i t) := w.loadSem fun _ _ h => h.writeReg

protected theorem TarnOk.lddSem {i} (w : TarnOk t) : EffOk (lddSem i t) := by
  refine .orWindow fun r hr => ?_
  split at hr
  · cases hr
    exact w.modeEA.writeReg.writeReg
  · cases hr

protected theorem TarnOk.storeSem {halves v f i} (w : TarnOk t) (hf : ∀ x, TarnOk x → TarnOk (f x)) : EffOk (storeSem halves v f i t) := by
  have w1 : TarnOk (f (modeEA i 1 t).2) := hf _ w.modeEA
  refine .orWindow fun r hr => ?_
  split at hr
  · obtain ⟨x, -, rfl⟩ := Option.map_eq_some_iff.1 hr
    exact w1
  · cases hr
    exact w1.csPut
  · cases hr
    exact w1.pmPut

protected theorem TarnOk.stSem {c i} (w : TarnOk t) : EffOk (stSem c i t) := w.storeSem fun _ h => h

protected theorem TarnOk.sthSem {c i} (w : TarnOk t) : EffOk (sthSem c i t) := w.storeSem fun _ h => h

protected theorem TarnOk.stdSem {c i} (w : TarnOk t) : EffOk (stdSem c i t) := by
  refine .orWindow fun r hr => ?_
  split at hr
  · split at hr
    · cases hr
      exact w.modeEA
    · cases hr
  · cases hr
    exact w.modeEA.csPut.csPut

protected theorem TarnOk.staSem {i} (w : TarnOk t) : EffOk (staSem i t) := by
  unfold staSem
  extract_lets a b
  exact w.storeSem fun _ h => .ite h.setFlags h

protected theorem TarnOk.xOperand {c xs} (w : TarnOk t) : ∀ r ∈ xOperand c xs t, TarnOk r.2.1 := by
  intro r hr
  unfold xOperand at hr
  split at hr
  · cases hr
    exact w
  · obtain ⟨x, -, rfl⟩ := Option.map_eq_some_iff.1 hr
    exact w.macEA

protected theorem TarnOk.yOperand {c ys} (w : TarnOk t) : ∀ r ∈ yOperand c ys t, TarnOk r.2.1 := by
  intro r hr
  unfold yOperand at hr
  split at hr
  · cases hr
    exact w
  · obtain ⟨x, -, rfl⟩ := Option.map_eq_some_iff.1 hr
    exact w.macEA

protected theorem TarnOk.moveSem {c n m more was} (w : TarnOk t) : ∀ r ∈ moveSem c n m more was t, TarnOk r.1 := by
  intro r hr
  unfold moveSem at hr
  dsimp only at hr
  split at hr
  · cases hr
    exact w
  · split at hr
    · obtain ⟨x, -, rfl⟩ := Option.map_eq_some_iff.1 hr
      exact w.macEA.writeReg
    · obtain ⟨x, -, rfl⟩ := Option.map_eq_some_iff.1 hr
      exact .ite w.macEA.setFlags w.macEA

protected theorem TarnOk.movesSem {c i was use} (w : TarnOk t) : ∀ r ∈ movesSem c i was t use, TarnOk r.1 := by
  intro r hr
  obtain ⟨a, ha, hr⟩ := Option.bind_eq_some_iff.1 hr
  obtain ⟨b, hb, hr⟩ := Option.bind_eq_some_iff.1 hr
  cases hr
  exact (w.moveSem a ha).moveSem b hb

protected theorem TarnOk.macSem {c op i} (w : TarnOk t) : EffOk (macSem c op i t) := by
  refine .orWindow fun r hr => ?_
  obtain ⟨x, hx, hr⟩ := Option.bind_eq_some_iff.1 hr
  obtain ⟨y, hy, hr⟩ := Option.bind_eq_some_iff.1 hr
  exact ((w.xOperand x hx).yOperand y hy).setAcc.setAccV.movesSem r hr

protected theorem TarnOk.pmovSem {c i} (w : TarnOk t) : EffOk (pmovSem c i t) := .orWindow w.movesSem

protected theorem TarnOk.branchTo {kind target} (w : TarnOk t) : EffOk (branchTo kind target t) := .go (w.same rfl)

protected theorem TarnOk.branchSem {link indirect i} (w : TarnOk t) : EffOk (branchSem link indirect i t) :=
  .ite (TarnOk.branchTo (.ite w.writeReg w)) w.branchTo

protected theorem TarnOk.loopSem {n i} (w : TarnOk t) : EffOk (loopSem n i t) := .go (.armLoop (.armLoop (.armLoop (w.same rfl))))

protected theorem TarnOk.rptSem {n} (w : TarnOk t) : EffOk (rptSem n t) := by
  unfold rptSem
  refine .ite .stop (.ite ?_ (.go (w.same rfl)))
  split
  · exact .ite (.go w) .stop
  · exact .stop

/-! ### Commands -/

/-- What a command leaves keeps the form, where it goes on to a next state. -/
def NextOk (o : Host.Outcome State Fault Refusal) : Prop := ∀ s, o = .next s → MemOk s.dev

theorem NextOk.next {q} (w : MemOk d) : NextOk (.next { dev := d, pending := q }) := by
  rintro _ ⟨⟩
  exact w

protected theorem MemOk.exec {i s} (w : MemOk s.dev) : NextOk (exec i s) := by
  cases i with
  | passBoundary => exact .next w.passBoundary
  | dispatchDeadline => exact .next w.deadlinePasses
  | operandVisible => exact .next w.operandVisible
  | quiesceEnd => exact .next w.quiesceEnds
  | partitionClosed => exact .next w.partClosed
  | prefetch => exact .next w.prefetchEvent
  | prefetchArrive => exact .next w.prefetchArrives
  | playoutEvent => exact .next (w.issue fun _ _ h => h.syncPlayout)
  | rtcpReport => exact .next w.rtcpEvent
  | toneEventEnd => exact .next (w.issue fun _ _ h => h.syncToneEnd)
  | inactivityTimeout | firmwareTimer => exact .next (w.issue fun _ _ h => h)
  | channelJob | busJob => exact .next w.runJob
  | streamInComplete => exact .next w.streamIn
  | jobComplete => exact .next w.completeJob.afterCommit
  | streamOutComplete => exact .next w.streamOut
  | coreFault => exact .next (.ite w.coreFaults w)
  | watchdogExpiry => exact .next w.watchdogExpires
  | coreReturn => exact .next (w.fromHost fun _ h => h.returnCores)
  | selftestDone => exact .next w.selftestEnds
  | basinScrub => exact .next w.basinScrub
  | dramScrub => exact .next w.dramScrub
  | writeFail => exact .next w.writeFail
  | vfFlr => exact .next (w.fromHost fun _ h => h.vfFlr)
  | pfFlr => exact .next w.pfFlr
  | registerWrite => exact .next (w.fromHost fun _ h => h.regWrite)
  | unalignedRead => exact .next (w.fromHost fun _ h => h.anyRead)
  | writeLatchLow | writeHighHalf => exact .next (w.fromHost fun _ h => h.regWrite)
  | bar2Write => exact .next (w.fromHost fun _ h => h.bar2Write)
  | bar2Read => exact .next (w.fromHost fun _ h => h.anyRead)
  | perrPop | perrOvfClear => exact .next (w.fromHost fun _ h => h.perrPop)
  | softReset => exact .next (w.fromHost fun _ h => h.onHeader fun _ _ h => h.softReset)
  | causeClear => exact .next (w.fromHost fun _ h => h.onHeader fun _ _ h => h.causeClear)
  | causeForce => exact .next (w.fromHost fun _ h => h.onHeader fun _ _ h => h.causeForce)
  | pgFirstClear => exact .next (w.fromHost fun _ h => h.onHeader fun _ _ h => h.firstClear)
  | pgFoldClear => exact .next (w.fromHost fun _ h => h.onHeader fun _ _ h => h.foldClear)
  | pageLock => exact .next (w.fromHost fun _ h => h.onHeader fun _ _ h => h.pageLock)
  | msixMessage => exact .next w.msixSend
  | eoi => exact .next (w.fromHost fun _ h => h.eoi)
  | ringRecordOffer => exact .next (.ite w.offer w)
  | ringEnable | ringDisable => exact .next (w.fromHost fun _ h => h.onRing fun _ _ _ h => h.ringCtrl)
  | ringConsWrite => exact .next (w.fromHost fun _ h => h.onRing fun _ _ _ h => h.ringCons)
  | chwRead | chwWrite | activate | chwRelease | modifyAt => exact .next (w.fromWindow fun _ h => h.chwStart)
  | chwOpComplete => exact .next w.chwComplete
  | tbTickInc => exact .next w.tbTick
  | tbIncWrite => exact .next (w.fromHost fun _ h => h.incWrite)
  | tbStepWrite => exact .next (w.fromHost fun _ h => h.stepWrite)
  | stepApply => exact .next w.stepNow
  | rearm => exact .next (w.fromHost fun _ h => h.rearmWrite)
  | tbExtNextWrite => exact .next w.modTb
  | tbSrcWrite => exact .next (w.fromHost fun _ h => h.srcWrite)
  | refclkLoss => exact .next w.refLoss
  | refclkHoldExpiry => exact .next w.refExpired
  | servoMeasurement => exact .next w.servoMeasure
  | sourceQualified => exact .next w.sourceQualified
  | sourceLost => exact .next w.lostSource
  | integerSecond => exact .next w.integerSecond
  | ppsOutPulseEnd => exact .next w.ppsFall
  | ptpSync => exact .next w.ptpSync.afterServo
  | ptpFollowUp => exact .next w.ptpFollowUp.afterServo
  | ptpDelayReq => exact .next w.ptpDelayReq
  | ptpDelayResp => exact .next w.ptpDelayResp
  | ptpPdelayReq => exact .next w.ptpPdelayReq
  | ptpPdelayResp => exact .next w.ptpPdelayResp
  | ptpPdelayRespFollowUp => exact .next w.ptpPdelayRespFu
  | ptpAnnounce => exact .next w.ptpAnnounce
  | ptpSignaling => exact .next w.ptpSignaling
  | ptpMessageTx => exact .next w.ptpSend
  | ppsInEdge => exact .next w.ppsEdge.afterServo
  | ppsInMissing => exact .next w.ppsMissing
  | zdaSentence => exact .next w.zda.afterServo
  | todError => exact .next w.todError
  | frameRx => exact .next w.frameRx
  | pauseFrame | pfcFrame => exact .next w.flowControl
  | pauseExpiry => exact .next w.pauseEnds
  | lldpRx => exact .next w.lldpRx
  | lldpTx => exact .next w.lldpTx
  | eeeNegotiationExpiry => exact .next w.eeeExpires
  | flwRead | flwAdd | flwRemove | flwModify => exact .next (w.fromWindow fun _ h => h.flwOp)
  | keyInstall | keyErase => exact .next (w.fromWindow fun _ h => h.keyOp)
  | bindingWrite => exact .next (w.fromHost fun _ h => h.bindCtrl)
  | clsSeedWrite => exact .next w.seedWrite
  | jbCtrlWrite => exact .next (w.fromHost fun _ h => h.jbCtrlWrite)
  | egressLaunch => exact .next (.ite w.launch.sendCtl w)
  | txRingProdWrite => exact .next (w.fromHost fun _ h => h.txRingProd)
  | txDescriptorDone => exact .next w.txDescDone
  | linkUp => exact .next w.linkComesUp
  | linkDown => exact .next w.linkLost
  | anFail => exact .next w.anFails
  | lpiEnter => exact .next w.lpiEnter
  | lpiWake => exact .next w.lpiWake
  | mgmtFrameRx => exact .next w.mgmtRx
  | mgmtCollision => exact .next w.collide
  | mgmtBackoffExpiry => exact .next w.backoffEnds
  | mdioAddress | mdioWrite | mdioRead => exact .next (w.fromHost fun _ h => h.mdioStart)
  | mdioDone => exact .next w.mdioEnds
  | bmbCmd => exact .next (w.fromHost fun _ h => h.bmbStart)
  | bmbDone => exact .next w.bmbEnds
  | busRecovery => exact .next w.busRecovered
  | sclStuck => exact .next w.sclStuck
  | modulePresenceChange => exact .next w.modPresence
  | modInt => exact .next w.modInterrupt
  | twinLinkUp => exact .next w.linkTrained
  | twinLinkDown => exact .next w.linkGone
  | pairing => exact .next w.pair
  | pairRetry => exact .next (.ite w w.pair)
  | heartbeatTx => exact .next w.heartbeatTx
  | heartbeat => exact .next w.heartbeatRx
  | heartbeatMiss => exact .next w.heartbeatMissed
  | ingress => exact .next w.ingressRx
  | payloadReq => exact .next w.payloadReq
  | payload => exact .next w.payloadRx
  | twinOrphan => exact .next w.orphans
  | horizon => exact .next w.horizonNow
  | horizonTimeout => exact .next w.horizonMissing
  | line => exact .next w.lineRx
  | digest => exact .next w.digestRx
  | contextRequest => exact .next w.contextWanted
  | context => exact .next w.installContext
  | op => exact .next w.opTake
  | opAck => exact .next w.opAck
  | step => exact .next w.stepRx
  | stepAck => exact .next w.stepAck
  | bulk => exact .next w.bulkTake
  | bulkComplete => exact .next w.bulkDone
  | fenceAssert => exact .next w.fenceLow
  | fenceRelease => exact .next w.fenceHigh
  | peerActFall => exact .next (.ite w.peerFalls w)
  | peerActRise => exact .next (.ite w.peerRises w)
  | fenceConflict => exact .next w.fenceConflict
  | switchover => exact .next (w.twinCmd fun _ h => h.switchCmd)
  | switchoverBoundary => exact .next w.switchNow
  | detach => exact .next (w.twinCmd fun _ h => h.detachCmd)
  | attach => exact .next (w.twinCmd fun _ h => h.attachCmd)
  | spoolDrain => exact .next w.drainOne
  | spoolDiscard => exact .next (w.fromHost fun _ h => h.discardSpool)
  | flashRead | flashWrite | flashErase | calStore | format => exact .next (w.fromHost fun _ h => h.xfStart)
  | xfDone => exact .next w.xfDone
  | flashPatrol => exact .next w.patrol
  | grownBad => exact .next w.grownBad
  | wearLevel => exact .next w.wear
  | ringOn => exact .next w.ringOnEvent
  | ringOff => exact .next w.ringOffEvent
  | ringStop => exact .next w.ringStop
  | supervisionSample => exact .next w.supervise
  | rangeChange => exact .next w.coarseSample
  | lineBlankChange => exact .next w.blankPin
  | settleEnd => exact .next w.settleEnds
  | resetNext | resetAt | syncClu => exact .next (w.fromHost fun _ h => h.lfeCtrl)
  | decimatorReset => exact .next w.decimatorReset
  | lineOperandWrite => exact .next w.lineOperandWrite
  | lineBind => exact .next (w.fromHost fun _ h => h.lineBind)
  | lineModeWrite => exact .next (w.fromHost fun _ h => h.lineWrite)
  | sceRun | sceHalt => exact .next (w.fromHost fun _ h => h.sceCmd)
  | sceTxqPush => exact .next (w.fromHost fun _ h => h.sceTx)
  | sceRxqPop => exact .next (w.fromHost fun _ h => h.sceRx)
  | scePmWrite => exact .next (w.fromHost fun _ h => h.pmWrite)
  | sceNop => exact .next (w.sceRun fun _ _ h => h.sceNext)
  | scePop =>
    refine .next (w.sceRun fun _ _ h => ?_)
    split
    · exact h
    · exact h.modSce.sceNext
  | sceLdi => exact .next (w.sceRun fun _ _ h => h.modSce.sceNext)
  | sceShift => exact .next (w.sceRun fun _ _ h => h.sceShift)
  | scePush => exact .next (w.sceRun fun _ _ h => .sceNext (.ite h.modSce h.modSce.raise))
  | sceGap => exact .next (w.sceRun fun _ _ h => h.sceFrame.sceNext)
  | sceJmp | sceJqe => exact .next (w.sceRun fun _ _ h => h.sceNext)
  | sceHaltInstr => exact .next (w.sceRun fun _ _ h => h.modSce.sceHalted)
  | drvReadyLow => exact .next w.drvLow
  | drvReadyRise => exact .next w.drvHigh
  | stallTimeout => exact .next w.stallTimeout
  | clusterSyncPulse => exact .next w.workerPulse.afterServo
  | pulseMiss => exact .next w.missPulse
  | sync => exact .next w.syncRx
  | poll => exact .next w.pollRx
  | status => exact .next w.cluStatus
  | cluStep => exact .next w.cluStepRx
  | cluMessageTx => exact .next w.cluSend
  | helloTx => exact .next (.ite w w.helloTx)
  | hello => exact .next (.ite w.helloRx w)
  | neighbourLoss => exact .next (.ite w.nbrLoss w)
  | routeTx => exact .next (.ite w w.routeTxDo)
  | route => exact .next (.ite w.routeRx w)
  | routeExpiry => exact .next w.routeOld
  | trunk => exact .next w.trunkRx
  | trunkBind => exact .next (w.fromHost fun _ h => h.trunkBindDo)
  | partitionOpen | partitionClose => exact .next (w.fromHost fun _ h => h.partCtrl)
  | quotaWrite => exact .next (w.fromHost fun _ h => h.quotaSet)
  | egressWindowWrite => exact .next (w.fromHost fun _ h => h.windowSet)
  | prgLoad => exact .next (w.fromWindow fun _ h => h.prgLoadOp)
  | prgLoadComplete => exact .next w.prgLoadDone
  | prgUnload => exact .next (w.fromWindow fun _ h => h.prgUnloadOp)
  | prgQuery => exact .next (w.fromWindow fun _ h => h.prgQueryOp)
  | imageRestore => exact .next w.restoreImage
  | por | warmReset => exact .next w.resetDev
  | perstAssert => exact .next w.perstLow
  | perstDeassert => exact .next (w.same rfl)
  | pfReady => exact .next w.pfReadies
  | boot => exact .next w.bootNext
  | recoveryGo => exact .next (w.fromHost fun _ h => h.recoverGo)
  | rollbackCommit => exact .next (w.fromHost fun _ h => h.rollbackSet)
  | pwrService => exact .next (w.fromHost fun _ h => h.serviceCmd)
  | pwrDormant => exact .next (w.fromHost fun _ h => h.dormantCmd)
  | pwrWake => exact .next (.ite (w.fromHost fun _ h => h.wakeCmd) w.wakeUp)
  | pwrReset => exact .next (w.fromHost fun _ h => h.pwrCmd)
  | releaseMem => exact .next (w.fromHost fun _ h => h.releaseCmd)
  | powerFail => exact .next w.powerFalls
  | flushComplete => exact .next w.flushDone
  | debugSubmit => exact .next (w.fromHost fun _ h => h.debugSubmit)
  | agingRead => exact .next w.agingRead
  | interruptEntry => exact .next w.interruptEntry
  | budgetAbort => exact .next w.budgetEnds
  | dmaComplete => exact .next w.dmaDone
  | nop => exact .next (w.runTarn fun _ _ h => .go h)
  | add | sub | cmp | andI | orI | xor | notI | neg | abs | min | max | ash | lsh => exact .next (w.runTarn fun _ _ h => h.aluSem)
  | div => exact .next (w.runTarn fun _ _ h => h.divSem)
  | mov => exact .next (w.runTarn fun _ _ h => h.movSem)
  | mva => exact .next (w.runTarn fun _ _ h => h.mvaSem)
  | acrd => exact .next (w.runTarn fun _ _ h => h.acrdSem)
  | acwr => exact .next (w.runTarn fun _ _ h => h.acwrSem)
  | acset => exact .next (w.runTarn fun _ _ h => h.acsetSem)
  | acclr => exact .next (w.runTarn fun _ _ h => h.acclrSem)
  | acsh => exact .next (w.runTarn fun _ _ h => h.acshSem)
  | acrnd => exact .next (w.runTarn fun _ _ h => h.acrndSem)
  | mpyl => exact .next (w.runTarn fun _ _ h => h.mpylSem)
  | fld => exact .next w.farLoad
  | fst => exact .next (w.runSystem fun _ _ h => h.farStore)
  | ldi => exact .next (w.runTarn fun _ _ h => h.ldiSem)
  | ldih => exact .next (w.runTarn fun _ _ h => h.ldihSem)
  | addi | subi | cmpi | andi | ori | xori | ashi | lshi => exact .next (w.runTarn fun _ _ h => h.immSem)
  | ld => exact .next (w.runTarn fun _ _ h => h.ldSem)
  | st => exact .next (w.runTarn fun _ _ h => h.stSem)
  | ldh => exact .next (w.runTarn fun _ _ h => h.ldhSem)
  | sth => exact .next (w.runTarn fun _ _ h => h.sthSem)
  | ldd => exact .next (w.runTarn fun _ _ h => h.lddSem)
  | std => exact .next (w.runTarn fun _ _ h => h.stdSem)
  | sta => exact .next (w.runTarn fun _ _ h => h.staSem)
  | cmac | cmacj | dmac => exact .next (w.runTarn fun _ _ h => h.macSem)
  | pmov => exact .next (w.runTarn fun _ _ h => h.pmovSem)
  | br | bri | call | calli => exact .next (w.runTarn fun _ _ h => h.branchSem)
  | reti => exact .next (w.runTarn fun _ _ h => h.branchTo)
  | callu => exact .next w.callUser
  | retu => exact .next (w.runTarn fun _ _ h => h.branchTo)
  | loop | loopr => exact .next (w.runTarn fun _ _ h => h.loopSem)
  | rpt | rptr => exact .next (w.runTarn fun _ _ h => h.rptSem)
  | done => exact .next w.doneSem
  | wait => exact .next w.waitSem
  | mbox => exact .next (w.runSystem fun _ _ h => h.mboxPost)
  | strm => exact .next (w.runSystem fun _ _ h => h.stream)
  | dma => exact .next (w.runSystem fun _ _ h => h.dmaQueue)
  | tarnScrub => exact .next w.tarnScrub
  | unitFailure => exact .next w.unitFails
  | controlCoreRestart => exact .next w.restartControl
  | pcieLinkDown => exact .next w.pcieDown
  | pcieLinkUp => exact .next w.pcieUp
  | configWrite => exact .next w.configWrite
  | readLowHalf | challengeRead => exact .next (w.fromHost fun _ h => h.anyRead)
  | lateMaxRead => exact .next (w.fromHost fun _ h => h.out.setRgN)
  | mgmtLinkChange => exact .next w.mgmtLink
  | laneFallback => exact .next w.laneLost
  | linkFrameError => exact .next (.ite w.incRg w)
  | cluMessageError => exact .next w.cluBad
  | spoolCommit => exact .next w.commitSpool
  | blankGuardEnd => exact .next w.guardEnds

protected theorem MemOk.step {s} (w : MemOk s.dev) : NextOk (step s) := by
  unfold step
  split
  · exact .next w
  · exact MemOk.exec w

end

/-- Settles O40, from `MemOk.step`: every command keeps the form, stated as `MemOk`. -/
theorem memoryStaysCanonical : Obligations.MemoryStaysCanonical := by
  intro s t h ht
  rw [memoryWf_iff] at h ⊢
  exact MemOk.step h t ht

end Sys2Proof.Machine
end

section
/-! PROOF. What O19 and O49 rest on: the operations that note something (a counter, a cause, a record, an event of a delay list, a unit of the
Recorder) leave the rest of the device as it was. `Noted` says so once, with one lemma `Noted.<its name>` for each operation. -/
namespace Sys2Proof.Machine

/-! ### Commands that change the device -/

/-- A command that is a change of the device. -/
theorem onDev_eq {F : Dev → Dev} {s : State} {e : Dev} (h : F s.dev = e) : onDev F s = .next { s with dev := e } := by rw [← h]; rfl

/-! ### What a note changes -/

/-- The device without what notes change: registers, headers and causes, rings, the logs, what a standby retains, the delay lists and the
Recorder. -/
def unnoted (d : Dev) : Dev :=
  { d with
    regs := [], pages := [], raised := [], hif := { d.hif with msgs := [] }, rings := [], flash := Flash.reset, outbox := []
    twin := { d.twin with retained := [] }, weir := { d.weir with dl := [] }, recd := Recorder.reset }

/-- From `d` to `e` only notes were made: of the registers below the pages of the partitions only those of `K` changed, and no cause fell. -/
structure Noted (K : Set Nat) (d e : Dev) : Prop where
  same : unnoted e = unnoted d
  regs : ∀ k, k < 0x200000 → k ∉ K → rg k e = rg k d
  causes : ∀ pg b, bit (hdr pg d).cause b = true → bit (hdr pg e).cause b = true

section
variable {K : Set Nat} {a d e : Dev}

theorem Noted.slots (w : Noted K d e) : e.slots = d.slots := congrArg (fun x => x.slots) w.same
theorem Noted.path (w : Noted K d e) : e.path = d.path := congrArg (fun x => x.path) w.same
theorem Noted.ports (w : Noted K d e) : e.ports = d.ports := congrArg (fun x => x.ports) w.same
theorem Noted.weir (w : Noted K d e) : { e.weir with dl := [] } = { d.weir with dl := [] } := congrArg (fun x => x.weir) w.same
theorem Noted.tokens (w : Noted K d e) : e.weir.tokens = d.weir.tokens := congrArg (fun x => x.weir.tokens) w.same
theorem Noted.ingress (w : Noted K d e) : e.twin.ingress = d.twin.ingress := congrArg (fun x => x.twin.ingress) w.same
theorem Noted.fetched (w : Noted K d e) : e.twin.fetched = d.twin.fetched := congrArg (fun x => x.twin.fetched) w.same
theorem Noted.horizon (w : Noted K d e) : e.twin.horizon = d.twin.horizon := congrArg (fun x => x.twin.horizon) w.same
theorem Noted.slot (w : Noted K d e) (k : Nat) : slot k e = slot k d := by rw [Machine.slot, w.slots]; rfl
theorem Noted.legOf (w : Noted K d e) (k leg : Nat) : legOf k leg e = legOf k leg d := by rw [Machine.legOf, w.slot]; rfl
theorem Noted.current (w : Noted K d e) (h : W32) : current h e = current h d := by rw [Machine.current, w.slot]; rfl

theorem Noted.refl : Noted K d d := ⟨rfl, fun _ _ _ => rfl, fun _ _ h => h⟩

theorem Noted.trans (w : Noted K a d) (v : Noted K d e) : Noted K a e :=
  ⟨v.same.trans w.same, fun k hk hn => (v.regs k hk hn).trans (w.regs k hk hn), fun pg b h => v.causes pg b (w.causes pg b h)⟩

theorem Noted.weaken {L : Set Nat} (w : Noted K d e) (h : K ⊆ L) : Noted L d e :=
  ⟨w.same, fun k hk hn => w.regs k hk fun hm => hn (h hm), w.causes⟩

/-- A change of fields that notes change, other than registers and headers. -/
theorem Noted.step (w : Noted K a d) (hu : unnoted e = unnoted d) (hf : (e.regs, e.pages) = (d.regs, d.pages)) : Noted K a e := by
  injection hf with hr hp
  exact w.trans ⟨hu, fun k _ _ => by rw [rg, hr]; rfl, fun pg b h => by rw [hdr, hp]; exact h⟩

theorem Noted.ite {c : Prop} [Decidable c] (hd : Noted K a d) (he : Noted K a e) : Noted K a (if c then d else e) := by
  split
  · exact hd
  · exact he

theorem Noted.foldl {α : Type} {f : Dev → α → Dev} {l : List α} (w : Noted K a d) (hf : ∀ x y, Noted K a x → Noted K a (f x y)) :
    Noted K a (l.foldl f d) := by
  induction l generalizing d with
  | nil => exact w
  | cons y l ih => exact ih (hf d y w)

/-- What raising a cause may change is a note where no cause falls. -/
theorem Noted.touched (w : Noted K a d) (h : Touched d e)
    (hc : ∀ pg b, bit (hdr pg d).cause b = true → bit (hdr pg e).cause b = true) : Noted K a e :=
  w.trans ⟨by rw [h]; rfl, fun k _ _ => by rw [h]; rfl, hc⟩

/-! ### Registers, headers and causes -/

protected theorem Noted.setRg {k v} (w : Noted K a d) (hk : k ∈ K ∨ 0x200000 ≤ k) : Noted K a (setRg k v d) :=
  w.trans ⟨rfl, fun j hj hn => by
    rw [rg_setRg, if_neg]
    rintro rfl
    exact hk.elim hn (by omega), fun _ _ h => h⟩

protected theorem Noted.incRg {k} (w : Noted K a d) (hk : k ∈ K ∨ 0x200000 ≤ k) : Noted K a (incRg k d) := w.setRg hk

protected theorem Noted.addRg {k n} (w : Noted K a d) (hk : k ∈ K ∨ 0x200000 ≤ k) : Noted K a (addRg k n d) := w.setRg hk

protected theorem Noted.setCause {pg bits} (w : Noted K a d) : Noted K a (setCause pg bits d) :=
  w.touched (setCause_touched _ _ _) fun j b h => by
    rw [hdr_setCause]
    split
    · next hj =>
      rw [latch_cause, bit, BitVec.getLsbD_or]
      exact Bool.or_eq_true_iff.2 (.inl (hj ▸ h))
    · exact h

/-- A header change that leaves its causes. -/
theorem Noted.modHdr {pg f} (w : Noted K a d) (hf : ∀ x : Hdr, (f x).cause = x.cause) : Noted K a (modHdr pg f d) :=
  w.trans ⟨rfl, fun _ _ _ => rfl, fun j b h => by
    rw [hdr_modHdr]
    split
    · next hj => rw [hf, ← hj]; exact h
    · exact h⟩

/-- A cause other than UNIT_FAULT takes no other back. -/
protected theorem Noted.raise {pg b} (w : Noted K a d) (hb : b ≠ 0) : Noted K a (raise pg b d) := by
  unfold Machine.raise
  rw [if_neg fun h => hb h.1]
  exact w.setCause

protected theorem Noted.foldInto {pg src} (w : Noted K a d) : Noted K a (foldInto pg src d) :=
  Noted.modHdr (f := fun h => { h with folded := h.folded + 1 }) (w.modHdr fun _ => rfl) fun _ => rfl

protected theorem Noted.raiseF {pg b src} (w : Noted K a d) (hb : b ≠ 0) : Noted K a (raiseF pg b src d) :=
  .ite w.foldInto (.ite (w.raise hb) ((w.raise hb).step rfl rfl))

protected theorem Noted.raisePartF {p b src} (w : Noted K a d) (hb : b ≠ 0) : Noted K a (raisePartF p b src d) :=
  .ite ((w.raiseF hb).raiseF hb) (w.raiseF hb)

/-- A cause raised while the source it folds under stands unfaulted (R60). -/
theorem raiseF_stands {pg b src : Nat} (hs : faulted src d = false) (hb : b ≠ 0) (h32 : b < 32) :
    bit (hdr pg (raiseF pg b src d)).cause b = true := by
  unfold raiseF
  rw [if_neg (by simp [hs])]
  split
  · exact raise_stands pg b d hb h32
  · exact raise_stands pg b d hb h32

/-! ### Records and counters of partitions -/

protected theorem Noted.ringPut {k x} (w : Noted K a d) : Noted K a (ringPut k x d) := w.step rfl rfl

protected theorem Noted.ringOffer {k x} (w : Noted K a d) : Noted K a (ringOffer k x d) := by
  unfold Machine.ringOffer
  refine .ite (w.step rfl rfl) (.ite ?_ (.setCause (w.step rfl rfl)))
  split
  · exact w.ringPut.setCause
  · exact .setCause (.ringPut (.step (w.ringPut (k := k) (x := lossRec (ring k d))) rfl rfl))

protected theorem Noted.logEvent {x} (w : Noted K a d) : Noted K a (logEvent x d) := .ite (w.step rfl rfl) w

protected theorem Noted.faultRec {x} (w : Noted K a d) : Noted K a (faultRec x d) := w.logEvent.ringOffer

protected theorem Noted.tagFault {unit owner req resource} (w : Noted K a d) : Noted K a (tagFault unit owner req resource d) :=
  (w.faultRec.incRg (.inr (by unfold kPart; omega))).raiseF (by decide)

protected theorem Noted.offer {p r x} (w : Noted K a d) : Noted K a (offer p r x d) := .ite w.tagFault w.ringOffer

protected theorem Noted.jbRecord {typ k leg b13 v} (w : Noted K a d) : Noted K a (jbRecord typ k leg b13 v d) := w.offer

protected theorem Noted.vcnt {p off n} (w : Noted K a d) : Noted K a (vcnt p off n d) :=
  have v : Noted K a (addRg (kWin p 6 off) n d) := w.addRg (.inr (by unfold kWin; omega))
  .ite (v.raise (by decide)) v

/-! ### Stale items and delay lists -/

/-- A stale item is counted by its counter and its partition's, and changes nothing but registers and causes (R127). -/
theorem stale_noted (cnt : Nat) (h : W32) (d : Dev) : Noted ∅ (incRg cnt d) (stale cnt h d) := Noted.refl.vcnt

theorem stale_weir (cnt : Nat) (h : W32) (d : Dev) : (stale cnt h d).weir = d.weir := by
  unfold stale vcnt
  extract_lets key was d1
  split
  · rw [raise_touched]
    rfl
  · rfl

theorem rgN_incRg (k : Nat) (d : Dev) : rgN k (incRg k d) = (rgN k d + 1) % 2 ^ 32 := rgN_addRg k 1 d

/-- A counter that only notes elsewhere follow has advanced by one. -/
theorem Noted.counted {k : Nat} (w : Noted K (incRg k d) e) (hk : k < 0x200000) (hn : k ∉ K) : rgN k e = (rgN k d + 1) % 2 ^ 32 := by
  rw [rgN, w.regs k hk hn]
  exact rgN_incRg k d

theorem rgN_stale {cnt : Nat} (h : W32) (d : Dev) (hk : cnt < 0x200000) : rgN cnt (stale cnt h d) = (rgN cnt d + 1) % 2 ^ 32 :=
  (stale_noted cnt h d).counted hk id

/-- The registers that an insertion into list `n` may change (R118, R137). -/
def dlKeys (n : Nat) : Set Nat := {kFull n, kHwm n, rWEIR_CNT_LATE_EVENT}

protected theorem Noted.setDl {n l} (w : Noted K a d) : Noted K a (setDl n l d) := w.step rfl rfl

protected theorem Noted.dlDrop {n p} (w : Noted K a d) : Noted K a (dlDrop n p d) := w.setDl

protected theorem Noted.dlAdd {n e} (w : Noted K a d) (hk : dlKeys n ⊆ K) : Noted K a (dlAdd n e d) := by
  have full : kFull n ∈ K ∨ 0x200000 ≤ kFull n := .inl (hk (by simp [dlKeys]))
  have hwm : kHwm n ∈ K ∨ 0x200000 ≤ kHwm n := .inl (hk (by simp [dlKeys]))
  have late : rWEIR_CNT_LATE_EVENT ∈ K ∨ 0x200000 ≤ rWEIR_CNT_LATE_EVENT := .inl (hk (by simp [dlKeys]))
  have put (p : Bool) (l : List DEvent) : Noted K a (setDl n l (if p then incRg rWEIR_CNT_LATE_EVENT d else d)) :=
    (Noted.ite (w.incRg late) w).setDl
  unfold dlAdd dlInsert
  extract_lets l past d1 e1 l1 d2
  split
  · exact (w.incRg full).raise (by decide : 3 ≠ 0)
  · split
    · exact w
    · exact .ite ((put _ _).setRg hwm) (put _ _)

@[simp] theorem dlist_setDl (n m : Nat) (l : List DEvent) (d : Dev) : dlist m (setDl n l d) = if m = n then l else dlist m d := by
  simp [dlist, setDl, modWeir]

end

/-! ### The Recorder and the delay lists are notes (R116, R361, R368) -/

section
variable {a d : Dev}

protected theorem Noted.modRec {K : Set Nat} {f} (w : Noted K a d) : Noted K a (modRec f d) := w.step rfl rfl
protected theorem Noted.setStream {K : Set Nat} {key s} (w : Noted K a d) : Noted K a (setStream key s d) := w.modRec

/-- The Recorder's own counters. -/
def recKeys : Set Nat := {rREC_CNT_LOST, rREC_CNT_UNITS, rREC_CNT_RAW}

protected theorem Noted.loseUnit {u reason} (w : Noted recKeys a d) : Noted recKeys a (loseUnit u reason d) := by
  unfold Machine.loseUnit
  extract_lets d1
  have lost : Noted recKeys a d1 := (w.incRg (.inl (by simp [recKeys]))).ringOffer.raise (by decide)
  split
  · exact .ite lost.setStream lost
  · exact lost

protected theorem Noted.stagingLoss {u} (w : Noted recKeys a d) : Noted recKeys a (stagingLoss u d) := (w.raiseF (by decide)).loseUnit

protected theorem Noted.emitUnit {u raw} (w : Noted recKeys a d) : Noted recKeys a (emitUnit u raw d) := by
  unfold Machine.emitUnit
  extract_lets d1 d2
  have closed : Noted recKeys a d1 := w.modRec.incRg (.inl (by simp [recKeys]))
  have counted : Noted recKeys a d2 := .ite (closed.incRg (.inl (by simp [recKeys]))) closed
  exact .ite counted.stagingLoss (.ite counted.modRec counted.modRec)

protected theorem Noted.closeUnit {key fin at_} (w : Noted recKeys a d) : Noted recKeys a (closeUnit key fin at_ d) := by
  unfold Machine.closeUnit
  split
  · exact w
  · exact .ite w.setStream w.setStream.emitUnit

protected theorem Noted.qualityUnit {key at_} (w : Noted recKeys a d) : Noted recKeys a (qualityUnit key at_ d) := by
  unfold Machine.qualityUnit
  split
  · exact w.emitUnit
  · exact w

protected theorem Noted.openStream {k leg l q} (w : Noted recKeys a d) : Noted recKeys a (openStream k leg l q d) := w.setStream.qualityUnit

protected theorem Noted.endStream {key at_} (w : Noted recKeys a d) : Noted recKeys a (endStream key at_ d) := w.closeUnit.setStream

protected theorem Noted.syncStreams {k l q} (w : Noted recKeys a d) : Noted recKeys a (syncStreams k l q d) := by
  unfold Machine.syncStreams
  refine w.foldl fun x leg h => ?_
  extract_lets key tap
  split
  · exact .ite h.endStream (.ite h.endStream.openStream h.setStream)
  · exact .ite h.openStream h

protected theorem Noted.syncPrefetch {K : Set Nat} {k l p} (w : Noted K a d) (hk : dlKeys 1 ⊆ K) : Noted K a (syncPrefetch k l p d) := by
  unfold Machine.syncPrefetch
  exact w.foldl fun x leg h => .ite (.ite h (h.dlAdd hk)) h.dlDrop

/-- The prefetch events and streams of a slot are brought to its descriptor: notes only. -/
theorem syncs_noted (k : Nat) (l : List W32) (p : NT32) (q : W64) (d : Dev) : Noted Set.univ d (syncStreams k l q (syncPrefetch k l p d)) :=
  have prefetch : Noted Set.univ d (syncPrefetch k l p d) := Noted.refl.syncPrefetch (Set.subset_univ _)
  prefetch.trans (Noted.refl.syncStreams.weaken (Set.subset_univ _))

end

end Sys2Proof.Machine
end

section
/-! PROOF. O19, the delay lists: whose turn it is (R117), what issuing an event does, prefetch and the arrival of its data. -/
namespace Sys2Proof.Machine

/-! ### Whose turn it is (R117) -/

/-- No due event of another list goes before event `e` of list `n` (R117). -/
def GoesFirst (n : Nat) (e : DEvent) (d : Dev) : Prop :=
  ∀ m ∈ List.range 8, ∀ x ∈ (dlist m d).take 1, m ≠ n → reached d x.target = true →
    0 ≤ sdiff x.target e.target ∧ (x.target = e.target → n < m)

/-- Event `e` heads list `n`, due and not clipped by a step. -/
def Listed (n : Nat) (e : DEvent) (rest : List DEvent) (d : Dev) : Prop :=
  dlist n d = e :: rest ∧ reached d e.target = true ∧ e.clip = false

section
variable {n : Nat} {e : DEvent} {rest : List DEvent} {d : Dev} {p : DEvent → Bool} {f : DEvent → Dev → Dev}

/-- The head of a list waits behind no event when no other list has an earlier one. -/
theorem Listed.waitsBehind (hl : Listed n e rest d) (hf : GoesFirst n e d) : waitsBehind n e d = false := by
  unfold Machine.waitsBehind
  rw [List.any_eq_false]
  intro m hm
  split
  · simp
  · next x xs hx =>
    by_cases hmn : m = n
    · obtain ⟨rfl, -⟩ : x = e ∧ xs = rest := by
        rw [hmn, hl.1] at hx
        simpa [eq_comm] using hx
      simp [hmn]
    · by_cases hr : reached d x.target = true
      · obtain ⟨hge, htie⟩ := hf m hm x (by simp [hx]) hmn hr
        have hlt : ¬ sdiff x.target e.target < 0 := by omega
        have hle : x.target = e.target → ¬ m ≤ n := fun h => by have := htie h; omega
        simp only [hlt, decide_false, Bool.false_or, Bool.and_eq_true, decide_eq_true_eq, not_and]
        exact fun _ => hle
      · simp [hr]

/-- Issuing the head of a list whose turn has come: a stale one is counted, another acts once it has left its list. -/
theorem Listed.issue (hl : Listed n e rest d) (hf : GoesFirst n e d) (hp : p e = true) :
    issue n p f d = if e.handle ≠ 0 ∧ !current e.handle d then stale rWEIR_CNT_STALE_EVENT e.handle (setDl n rest d)
      else f e (setDl n rest d) := by
  have take : dlTake n (fun x => p x && reached d x.target && !(x.clip && d.tb.rebase.isSome) && !Machine.waitsBehind n x d) d
      = (some e, setDl n rest d) := by
    unfold dlTake
    rw [hl.1, List.find?_cons_of_pos (by simp [hp, hl.2.1, hl.2.2, hl.waitsBehind hf])]
    simp only [List.erase_cons_head]
  rw [Machine.issue, take]

/-- The only event of a list waits while another list has an earlier one that is due. -/
theorem Listed.issue_behind {m : Nat} {x : DEvent} (hl : Listed n e [] d) (hm : 1 ≤ m) (h8 : m < 8) (hmn : m ≠ n)
    (hx : (dlist m d).head? = some x) (hr : reached d x.target = true) (hlt : sdiff x.target e.target < 0) : Machine.issue n p f d = d := by
  obtain ⟨xs, hx⟩ := List.head?_eq_some_iff.1 hx
  have hw : Machine.waitsBehind n e d = true := by
    unfold Machine.waitsBehind
    rw [List.any_eq_true]
    refine ⟨m, by simpa using h8, ?_⟩
    simp [hx, hmn, hr, hlt, show m ≠ 0 by omega]
  have take : dlTake n (fun x => p x && reached d x.target && !(x.clip && d.tb.rebase.isSome) && !Machine.waitsBehind n x d) d = (none, d) := by
    unfold dlTake
    rw [hl.1, List.find?_cons_of_neg (by simp [hw])]
    rfl
  rw [Machine.issue, take]

theorem Listed.issue_stale (hl : Listed n e rest d) (hf : GoesFirst n e d) (hp : p e = true) (h0 : e.handle ≠ 0)
    (hc : current e.handle d = false) : Machine.issue n p f d = stale rWEIR_CNT_STALE_EVENT e.handle (setDl n rest d) := by
  rw [hl.issue hf hp, if_pos ⟨h0, by simp [hc]⟩]

theorem Listed.issue_current (hl : Listed n e rest d) (hf : GoesFirst n e d) (hp : p e = true) (hc : e.handle = 0 ∨ current e.handle d = true) :
    Machine.issue n p f d = f e (setDl n rest d) := by
  rw [hl.issue hf hp, if_neg]
  rintro ⟨h0, hn⟩
  exact hc.elim h0 fun h => by simp [h] at hn

end

/-! ### Events without further effect, playout and tone ends (R116, R292) -/

/-- The command of list `n` that issues event `e` of channel `h` (or of firmware timer `tag`). -/
def ListCommand (h : W32) (leg tag n : Nat) (e : DEvent) (cmd : Instr) : Prop :=
  (n, e.kind, cmd) ∈ [(2, DKind.playout leg, Instr.playoutEvent h leg), (7, .firmware tag, .firmwareTimer tag)] ∨
    n = 4 ∧ cmd = .toneEventEnd h ∨ n = 5 ∧ cmd = .inactivityTimeout h

/-- What of list `n` goes with event `e` of channel `h`: the playouts of its leg, or every tone end (R292). -/
def goesWith (h : W32) (n : Nat) (e x : DEvent) : Bool := decide (x.handle = h) && (decide (n = 4) || decide (x.kind = e.kind))

/-- Each of these commands issues the event, by a test that names it, and an event of list 5 or 7 has no further effect. -/
theorem ListCommand.issues {h : W32} {leg tag n : Nat} {e : DEvent} {cmd : Instr} (hc : ListCommand h leg tag n e cmd) (he : e.handle = h)
    (hleg : leg < 2) : ∃ p f, (∀ s, exec cmd s = onDev (issue n p f) s) ∧ p e = true ∧ (n = 5 ∨ n = 7 → ∀ x, f e x = x) ∧
      (n = 2 → e.kind = .playout leg ∧ ∀ x, f e x = syncPlayout h leg x) ∧ (n = 4 → ∀ x, f e x = syncToneEnd (hSlot h) x) := by
  have hmod : leg % 2 = leg := Nat.mod_eq_of_lt hleg
  obtain hm | ⟨rfl, rfl⟩ | ⟨rfl, rfl⟩ := hc
  · simp only [List.mem_cons, List.not_mem_nil, Prod.mk.injEq, or_false] at hm
    obtain ⟨rfl, hk, rfl⟩ | ⟨rfl, hk, rfl⟩ := hm
    · exact ⟨_, _, fun _ => rfl, by simp [he, hk, hmod], by simp, fun _ => ⟨hk, fun x => by rw [hmod]⟩, by simp⟩
    · exact ⟨_, _, fun _ => rfl, by simp [hk], fun _ _ => rfl, by simp, by simp⟩
  · exact ⟨_, _, fun _ => rfl, by simp [he], by simp, by simp, fun _ _ => rfl⟩
  · exact ⟨_, _, fun _ => rfl, by simp [he], fun _ _ => rfl, by simp, by simp⟩

/-- A leg that holds no payload has no playout to come. -/
theorem syncPlayout_of_empty {h : W32} {leg : Nat} {d : Dev} (hh : (legOf (hSlot h) leg d).held = []) :
    syncPlayout h leg d = dlDrop 2 (fun e => decide (e.handle = h ∧ e.kind = .playout leg)) d := by
  simp [syncPlayout, hh]

/-- A channel without a tone or event under way has no end to come. -/
theorem syncToneEnd_of_none {k : Nat} {d : Dev} (ht : toneEnds k d = []) :
    syncToneEnd k d = dlDrop 4 (fun e => decide (e.handle = handleOf k d)) d := by
  simp [syncToneEnd, ht]

/-- Dropping events of a list after its head has left it. -/
theorem dlist_dlDrop_setDl (n : Nat) (p : DEvent → Bool) (rest : List DEvent) (d : Dev) :
    dlist n (dlDrop n p (setDl n rest d)) = rest.filter fun x => !p x := by
  simp [dlDrop]

/-- A playout or a tone end with nothing to follow it: the events that go with it leave the list too. -/
theorem ListCommand.last {h : W32} {leg tag n : Nat} {e : DEvent} {cmd : Instr} {rest : List DEvent} {s : State} (hc : ListCommand h leg tag n e cmd)
    (he : e.handle = h) (hleg : leg < 2) (hl : Listed n e rest s.dev) (hf : GoesFirst n e s.dev) (hcur : current h s.dev = true)
    (hh : handleOf (hSlot h) s.dev = h)
    (hn : n = 2 ∧ (legOf (hSlot h) leg s.dev).held = [] ∨ n = 4 ∧ toneEnds (hSlot h) (setDl n rest s.dev) = []) :
    ∃ q, exec cmd s = .next { s with dev := dlDrop n q (setDl n rest s.dev) } ∧ ∀ x, q x = goesWith h n e x := by
  obtain ⟨p, f, hx, hp, -, h2, h4⟩ := hc.issues he hleg
  have run : exec cmd s = .next { s with dev := f e (setDl n rest s.dev) } := by
    rw [hx, onDev, hl.issue_current hf hp (.inr (he ▸ hcur))]
  obtain ⟨rfl, hheld⟩ | ⟨rfl, ht⟩ := hn
  · obtain ⟨hk, hfe⟩ := h2 rfl
    rw [hfe, syncPlayout_of_empty (d := setDl 2 rest s.dev) hheld] at run
    exact ⟨_, run, fun x => by simp [goesWith, hk]⟩
  · rw [h4 rfl, syncToneEnd_of_none ht] at run
    exact ⟨_, run, fun x => by
      rw [show handleOf (hSlot h) (setDl 4 rest s.dev) = h from hh]
      simp [goesWith]⟩

/-! ### Prefetch (R27, R117, R168) -/

theorem length_dlPut (t : NT32) (e : DEvent) (l : List DEvent) : (dlPut t e l).length = l.length + 1 := by
  induction l with
  | nil => rfl
  | cons x xs ih =>
    unfold dlPut
    split
    · rfl
    · simp [ih]

theorem mem_dlPut (t : NT32) (e : DEvent) (l : List DEvent) : e ∈ dlPut t e l := by
  induction l with
  | nil => simp [dlPut]
  | cons x xs ih =>
    unfold dlPut
    split
    · simp
    · simp [ih]

/-- An insertion that is not refused, of a target not past: the event stands in its list on the grid (R117). -/
theorem dlist_dlAdd {n : Nat} {e : DEvent} {d : Dev} (hcap : (dlist n d).length < dlCap n) (h0 : 0 ≤ sdiff e.target (now d))
    (h2 : sdiff e.target (now d) ≤ 2000000000) :
    dlist n (dlAdd n e d) = dlPut (now d) { e with target := gridUp e.target d } (dlist n d) := by
  unfold dlAdd dlInsert
  extract_lets l past d1 e1 l1 d2
  rw [if_neg (Nat.not_le.2 hcap), if_neg (Int.not_lt.2 h2)]
  have hpast : past = false := by simpa [past] using h0
  have hl1 : dlist n d2 = l1 := by simp [d2]
  have hd : dlist n (if rgN (kHwm n) d < l1.length then setRgN (kHwm n) l1.length d2 else d2) = l1 := by
    split
    · exact hl1
    · exact hl1
  rw [hd]
  simp [l1, e1, l, hpast]

/-- A leg after a change of one leg. -/
@[simp] theorem legOf_modLeg (k leg : Nat) (f : Leg → Leg) (d : Dev) : legOf k leg (modLeg k leg f d) = f (legOf k leg d) := by
  unfold legOf modLeg
  rw [slot_modSlot, if_pos rfl]
  split <;> rfl

/-- The other leg of the slot stays. -/
theorem legOf_modLeg_other (k leg : Nat) (f : Leg → Leg) (d : Dev) (h : leg < 2) : legOf k (1 - leg) (modLeg k leg f d) = legOf k (1 - leg) d := by
  unfold legOf modLeg
  rw [slot_modSlot, if_pos rfl]
  interval_cases leg <;> rfl

/-- A prefetch event whose turn has come (R27, R168): the operand read of the pass that follows, and the event again 1 ms later. -/
theorem prefetchEvent_run {h : W32} {leg : Nat} {e : DEvent} {rest : List DEvent} {d : Dev} (hl : Listed 1 e rest d) (hf : GoesFirst 1 e d)
    (he : e.handle = h) (hk : e.kind = .prefetch leg) (hc : current h d = true) :
    ∃ g : Leg → Leg, (∀ x, (g x).ops = x.ops) ∧ prefetchEvent h leg none d = modLeg (hSlot h) leg g (modLeg (hSlot h) leg
      (fun x => { x with ops := noteRead (e.target + 1000000) (operandOf (hSlot h) leg (e.target + 1000000) d) x.ops })
      (dlAdd 1 { e with target := e.target + 1000000, clip := false } (setDl 1 rest d))) := by
  unfold prefetchEvent
  rw [hl.issue_current hf (by simp [he, hk]) (.inr (he ▸ hc))]
  exact ⟨prune (slot (hSlot h) d).desc leg (nt64Of d (e.target + 1000000)).toNat, fun _ => rfl, rfl⟩

/-- PREFETCH of a leg the slot has. -/
theorem exec_prefetch {h : W32} {leg : Nat} {ue : Option W64} {s : State} (hleg : leg < 2) :
    exec (.prefetch h leg ue) s = .next { s with dev := prefetchEvent h leg ue s.dev } := by
  have hrun : exec (.prefetch h leg ue) s = onDev (prefetchEvent h (leg % 2) ue) s := rfl
  rw [hrun, Nat.mod_eq_of_lt hleg]
  rfl

/-! ### Prefetched data arrives (R127) -/

/-- PREFETCH_ARRIVE of a leg the slot has. -/
theorem exec_prefetchArrive {h : W32} {leg : Nat} {s : State} (hleg : leg < 2) :
    exec (.prefetchArrive h leg) s = .next { s with dev := prefetchArrives h leg s.dev } := by
  have hrun : exec (.prefetchArrive h leg) s = onDev (prefetchArrives h (leg % 2)) s := rfl
  rw [hrun, Nat.mod_eq_of_lt hleg]
  rfl

/-- The operand of a leg's read of pass `p` is there. -/
def markThere (p : NT32) (g : Leg) : Leg := { g with ops := g.ops.map fun x => if x.pass = p then { x with there := true } else x }

/-- Data of the current lease makes the oldest read's operand present, and an operand fills the token of its pass. -/
theorem prefetchArrives_current {h : W32} {leg : Nat} {o : PreOp} {d : Dev} (hc : current h d = true)
    (ho : (legOf (hSlot h) leg d).ops.find? (fun x => !x.there) = some o) :
    prefetchArrives h leg d = if o.op = .none then modLeg (hSlot h) leg (markThere o.pass) d
      else fillLeg h leg o.pass o.op (modLeg (hSlot h) leg (markThere o.pass) d) := by
  simp only [prefetchArrives, hc, ho]
  rfl

/-- Data of an old lease is discarded and counted. -/
theorem prefetchArrives_stale {h : W32} {leg : Nat} {d : Dev} (hc : current h d = false) :
    prefetchArrives h leg d = stale rWEIR_CNT_STALE_PREFETCH h d := by
  simp [prefetchArrives, hc]

/-- A token that waits for its boundary does not fire when a slot of it fills. -/
theorem fillLeg_waiting {h : W32} {p : NT32} {o : Oper} {t : Token} {d : Dev} (ht : d.weir.tokens = [t]) (hbus : t.bus = false)
    (hh : t.handle = h) (hp : t.pass = p) (ha : t.fillA = false) (hel : t.elig = false) :
    fillLeg h 0 p o d = modWeir (fun w => { w with tokens := [{ t with fillA := true, inA := o }] }) d := by
  simp [fillLeg, modTokens, modWeir, ht, hbus, hh, hp, ha, fireOne, hel]

/-- With no token waiting nothing fills or fires. -/
theorem fillLeg_of_none {h : W32} {leg : Nat} {p : NT32} {o : Oper} {d : Dev} (ht : d.weir.tokens = []) : fillLeg h leg p o d = d := by
  have same : modTokens (fun t => !t.bus && decide (t.handle = h) && decide (t.pass = p) && (if leg = 0 then !t.fillA else !t.fillB))
      (fun t => if leg = 0 then { t with fillA := true, inA := o } else { t with fillB := true, inB := o }) d = d := by
    rw [modTokens, modWeir, ht, List.map_nil, ← ht]
  unfold fillLeg
  simp only [same]
  simp [fireOne, ht]

/-! ### The first part of O19 -/

/-- The first part of O19: the delay lists and what their events do. -/
theorem delayListEvents : DelayListEvents := by
  intro s h leg tag n e rest cmd d w k first gone listed hleg
  refine ⟨fun hl hc he => ⟨?_, ?_, ?_, ?_⟩, ?_, ?_, ?_⟩
  · intro hf hcur hn
    obtain ⟨p, f, hx, hp, h57, -, -⟩ := ListCommand.issues hc he hleg
    rw [hx, onDev, Listed.issue_current hl hf hp (he ▸ hcur), h57 hn]
    rfl
  · intro hf h0 hcur hh hn
    obtain ⟨q, hx, hq⟩ := ListCommand.last hc he hleg hl hf hcur hh hn
    refine ⟨_, hx, rfl, rfl, ?_, fun m hm => by simp [dlDrop, hm, d]⟩
    rw [dlist_dlDrop_setDl]
    simp only [hq, goesWith]
  · intro hf h0 hcur
    obtain ⟨p, f, hx, hp, -⟩ := ListCommand.issues hc he hleg
    rw [hx, onDev, Listed.issue_stale hl hf hp (he ▸ h0) (he ▸ hcur)]
    exact ⟨_, rfl, stale_weir _ _ _, (stale_noted _ _ _).slots, rgN_stale _ _ (by decide)⟩
  · rintro m x rfl h1 h8 hmn hx hr hlt
    obtain ⟨p, f, hcmd, -⟩ := ListCommand.issues hc he hleg
    rw [hcmd, onDev, Listed.issue_behind hl h1 h8 hmn hx hr hlt]
  · rintro hl rfl he hk h0 hcur hlen hf hlo hhi p
    obtain ⟨g, hg, hrun⟩ := prefetchEvent_run hl hf he hk hcur
    have hd : dlist 1 (setDl 1 rest d) = rest := by simp
    have hput := dlist_dlAdd (n := 1) (e := { e with target := p, clip := false }) (d := setDl 1 rest d)
      (by rw [hd]; exact Nat.lt_succ_of_lt hlen) hlo hhi
    have hlist : dlist 1 (prefetchEvent h leg none d) = dlPut (now d) { e with target := gridUp p d, clip := false } rest := by
      rw [hrun]
      exact hput.trans (by rw [hd]; rfl)
    have hadd : Noted Set.univ d (dlAdd 1 { e with target := p, clip := false } (setDl 1 rest d)) :=
      Noted.refl.setDl.dlAdd (Set.subset_univ _)
    refine ⟨{ s with dev := prefetchEvent h leg none d }, exec_prefetch hleg, rfl, ?_, ?_, ?_, ?_⟩
    · rw [hrun, legOf_modLeg, hg, legOf_modLeg, hadd.legOf]
      rfl
    · rw [hrun, legOf_modLeg_other _ _ _ _ hleg, legOf_modLeg_other _ _ _ _ hleg, hadd.legOf]
    · rw [hlist, length_dlPut, hl.1, List.length_cons]
    · exact ⟨{ e with target := gridUp p d, clip := false }, by rw [hlist]; exact mem_dlPut _ _ _, he, hk, rfl⟩
  · intro o hcur ho
    rw [exec_prefetchArrive hleg, prefetchArrives_current hcur ho]
    refine ⟨fun hn => ?_, fun x hop ht hel hbus hh hp hl0 ha => ?_⟩
    · split
      · rfl
      · next hop =>
        rw [fillLeg_of_none (d := modLeg k leg (markThere o.pass) d) (hn.resolve_left hop)]
        rfl
    · subst hl0
      rw [if_neg hop, fillLeg_waiting (d := modLeg k 0 (markThere o.pass) d) ht hbus hh hp ha hel]
      exact ⟨_, rfl, rfl⟩
  · intro hcur
    rw [exec_prefetchArrive hleg, prefetchArrives_stale hcur]
    exact ⟨_, rfl, stale_weir _ _ _, (stale_noted _ _ _).slots, rgN_stale _ _ (by decide)⟩

end Sys2Proof.Machine
end

section
/-! PROOF. O19, the rest: a payload becomes visible, RTCP reports, the ends of QUIESCE and of a partition's closing. -/
namespace Sys2Proof.Machine

/-! ### A payload becomes visible (R29, R171, R181) -/

section
variable {K : Set Nat} {a d : Dev} {h : W32} {leg : Nat}

/-- A late payload is counted, recorded and told to its partition, and on a trunk counted there too (R171, R426). -/
theorem latePayload_noted (h : W32) (leg : Nat) (sq : BitVec 16) (trunk : Option Nat) (d : Dev) :
    Noted {rFAB_CNT_LATE} (incRg rJB_CNT_LATE d) (latePayload h leg sq trunk d) := by
  have w : Noted {rFAB_CNT_LATE} (incRg rJB_CNT_LATE d)
      (raisePartF (hPart h) 11 0xD0 (jbRecord 0x33 (hSlot h) leg 0 sq.toNat (vcnt (hPart h) 0x64 1 (incRg rJB_CNT_LATE d)))) :=
    Noted.refl.vcnt.jbRecord.raisePartF (by decide)
  unfold latePayload
  cases trunk with
  | none => exact w
  | some p => exact (w.incRg (.inl rfl)).raiseF (by decide)

/-- The next playout of a leg enters list 2, or leaves it: notes only (R116, R292). -/
protected theorem Noted.syncPlayout (w : Noted K a d) (hk : dlKeys 2 ⊆ K) : Noted K a (syncPlayout h leg d) := by
  unfold Machine.syncPlayout
  extract_lets k l g t d1
  have hd : Noted K a d1 := w.dlDrop
  split
  · exact hd
  · exact hd.dlAdd hk

/-- With no pass read and no token waiting no operand is filled at once. -/
theorem directFill_of_none (ho : (legOf (hSlot h) leg d).ops = []) (ht : d.weir.tokens = []) : directFill h leg d = d := by
  simp [directFill, openPasses, ho, ht]

/-- A payload joins the jitter buffer of its leg. -/
def addHeld (x : Held) (g : Leg) : Leg := { g with held := g.held ++ [x] }

/-- The pass in which a payload of a leg begins to play, NT64 (R171). -/
def playPass (h : W32) (leg : Nat) (x : Held) (d : Dev) : Int :=
  heldPlay x (descNow (hSlot h) d) leg (legOf (hSlot h) leg d) / 1000000 * 1000000

/-- Has that pass fired while the channel ran (R171)? -/
def missedPass (h : W32) (leg : Nat) (x : Held) (d : Dev) : Bool :=
  (slot (hSlot h) d).running && decide (((slot (hSlot h) d).actAt.toNat : Int) ≤ playPass h leg x d)
    && decide (playPass h leg x d ≤ ((nt64Of d d.weir.lastP).toNat : Int)) && passFired h (BitVec.ofInt 32 (playPass h leg x d)) d

/-- The visible payload of a leg leaves the path. -/
def takeVisible (rest : List Visible) (d : Dev) : Dev := { d with path := { d.path with visible := rest } }

/-- The device with a payload told late, where it missed its pass; TWIN_FETCH_FAIL rises for one a fetch recovered (R171, R181). -/
def lateTold (h : W32) (leg : Nat) (v : Visible) (d : Dev) : Dev :=
  latePayload h leg v.held.seq v.trunk (if v.fetched then raiseF 0xD0 1 0x120 d else d)

/-- A payload's instant has come: told late or not, it joins its leg (R29, R171, R181). -/
theorem operandVisible_current {v : Visible} {rest : List Visible} (hv : d.path.visible = v :: rest) (hh : v.handle = h) (hl : v.leg = leg)
    (hr : reached d v.at_ = true) (hc : current h d = true) :
    operandVisible h leg d = syncPlayout h leg (directFill h leg (modLeg (hSlot h) leg (addHeld v.held)
      (if missedPass h leg v.held d then lateTold h leg v (takeVisible rest d) else takeVisible rest d))) := by
  unfold operandVisible
  rw [hv, List.find?_cons_of_pos (by simp [hh, hl, hr])]
  simp only [List.erase_cons_head]
  exact if_neg (by simp [hc])

/-- OPERAND_VISIBLE of a leg the slot has. -/
theorem exec_operandVisible {s : State} (hleg : leg < 2) :
    exec (.operandVisible h leg) s = .next { s with dev := operandVisible h leg s.dev } := by
  have hrun : exec (.operandVisible h leg) s = onDev (operandVisible h (leg % 2)) s := rfl
  rw [hrun, Nat.mod_eq_of_lt hleg]
  rfl

/-- A payload of an old lease is discarded and counted (R127). -/
theorem operandVisible_stale {v : Visible} {rest : List Visible} (hv : d.path.visible = v :: rest) (hh : v.handle = h) (hl : v.leg = leg)
    (hr : reached d v.at_ = true) (hc : current h d = false) :
    operandVisible h leg d = stale rJB_CNT_STALE h (takeVisible rest d) := by
  unfold operandVisible
  rw [hv, List.find?_cons_of_pos (by simp [hh, hl, hr])]
  simp only [List.erase_cons_head]
  exact if_pos (by simp [hc])

/-- Before a late payload is counted at most TWIN_FETCH_FAIL has risen. -/
theorem fetchFail_noted (v : Visible) (d : Dev) : Noted ∅ d (if v.fetched then raiseF 0xD0 1 0x120 d else d) :=
  .ite (Noted.refl.raiseF (by decide)) .refl

theorem lateTold_noted (h : W32) (leg : Nat) (v : Visible) (d : Dev) : Noted {rFAB_CNT_LATE, rJB_CNT_LATE} d (lateTold h leg v d) := by
  have w : Noted {rFAB_CNT_LATE, rJB_CNT_LATE} d (incRg rJB_CNT_LATE (if v.fetched then raiseF 0xD0 1 0x120 d else d)) :=
    (Noted.ite (Noted.refl.raiseF (by decide)) .refl).incRg (.inl (by simp))
  exact w.trans ((latePayload_noted _ _ _ _ _).weaken (by simp))

theorem lateTold_counts (h : W32) (leg : Nat) (v : Visible) (d : Dev) :
    rgN rJB_CNT_LATE (lateTold h leg v d) = (rgN rJB_CNT_LATE d + 1) % 2 ^ 32 := by
  rw [lateTold, (latePayload_noted _ _ _ _ _).counted (by decide) (by decide), rgN, (fetchFail_noted v d).regs _ (by decide) id]
  rfl

theorem lateTold_fetchFail {v : Visible} (hf : v.fetched = true) (hs : faulted 0x120 d = false) :
    bit (hdr 0xD0 (lateTold h leg v d)).cause 1 = true := by
  refine (latePayload_noted _ _ _ _ _).causes 0xD0 1 ?_
  rw [if_pos hf]
  exact raiseF_stands hs (by decide) (by decide)

end

/-- A slot after a change of one leg depends on the slots before only. -/
theorem slot_modLeg_congr {d e : Dev} (k leg : Nat) (f : Leg → Leg) (j : Nat) (h : e.slots = d.slots) :
    slot j (modLeg k leg f e) = slot j (modLeg k leg f d) := by
  simp only [slot, modLeg, modSlot, h]

/-- Where no operand is read or awaited, a visible payload joins its leg, is told late if its pass has fired, and nothing else of the channel
or the path changes. -/
theorem operandVisible_joins {h : W32} {leg : Nat} {v : Visible} {rest : List Visible} {d : Dev} (hv : d.path.visible = v :: rest)
    (hh : v.handle = h) (hl : v.leg = leg) (hr : reached d v.at_ = true) (hc : current h d = true) (ht : d.weir.tokens = [])
    (ho : (legOf (hSlot h) leg d).ops = []) :
    let t := operandVisible h leg d
    let late := missedPass h leg v.held d
    t.path = (takeVisible rest d).path ∧ (∀ j, slot j t = slot j (modLeg (hSlot h) leg (addHeld v.held) d)) ∧
      (late = true → rgN rJB_CNT_LATE t = (rgN rJB_CNT_LATE d + 1) % 2 ^ 32) ∧ (late = false → rg rJB_CNT_LATE t = rg rJB_CNT_LATE d) ∧
      (late = true → v.fetched = true → faulted 0x120 d = false → bit (hdr 0xD0 t).cause 1 = true) := by
  intro t late
  obtain ⟨x, hx, hw⟩ : ∃ x, x = (if late then lateTold h leg v (takeVisible rest d) else takeVisible rest d) ∧
      Noted {rFAB_CNT_LATE, rJB_CNT_LATE} (takeVisible rest d) x := ⟨_, rfl, .ite (lateTold_noted _ _ _ _) .refl⟩
  have hfill : directFill h leg (modLeg (hSlot h) leg (addHeld v.held) x) = modLeg (hSlot h) leg (addHeld v.held) x :=
    directFill_of_none (by rw [legOf_modLeg, hw.legOf]; exact ho) (hw.tokens.trans ht)
  have hsync : Noted (dlKeys 2) (modLeg (hSlot h) leg (addHeld v.held) x) t := by
    have : t = syncPlayout h leg (modLeg (hSlot h) leg (addHeld v.held) x) := by
      rw [← hfill, hx]
      exact operandVisible_current hv hh hl hr hc
    rw [this]
    exact Noted.refl.syncPlayout subset_rfl
  have hreg : rg rJB_CNT_LATE t = rg rJB_CNT_LATE x := hsync.regs _ (by decide) (by simp [dlKeys, kFull, kHwm, rJB_CNT_LATE, rWEIR_CNT_LATE_EVENT])
  refine ⟨hsync.path.trans hw.path, fun j => ?_, fun hlate => ?_, fun hlate => ?_, fun hlate hf hs => ?_⟩
  · rw [hsync.slot, slot_modLeg_congr _ _ _ _ hw.slots]
    rfl
  · rw [rgN, hreg, hx, if_pos hlate]
    exact lateTold_counts _ _ _ _
  · rw [hreg, hx, if_neg (by simp [hlate])]
    rfl
  · refine hsync.causes 0xD0 1 ?_
    show bit (hdr 0xD0 x).cause 1 = true
    rw [hx, if_pos hlate]
    exact lateTold_fetchFail hf hs

/-! ### A slot apart from its legs -/

/-- A slot without its legs. -/
def legless (s : Slot) : Slot := { s with legA := Leg.reset, legB := Leg.reset }

/-- A change of a leg leaves every slot but for its legs. -/
theorem legless_modLeg (k leg j : Nat) (f : Leg → Leg) (d : Dev) : legless (slot j (modLeg k leg f d)) = legless (slot j d) := by
  unfold modLeg
  rw [slot_modSlot]
  split
  · next h =>
    subst h
    split <;> rfl
  · rfl

section
variable (k leg j : Nat) (f : Leg → Leg) (d : Dev)
@[simp] theorem desc_modLeg : (slot j (modLeg k leg f d)).desc = (slot j d).desc := (congrArg Slot.desc (legless_modLeg k leg j f d) :)
@[simp] theorem gen_modLeg : (slot j (modLeg k leg f d)).gen = (slot j d).gen := (congrArg Slot.gen (legless_modLeg k leg j f d) :)
@[simp] theorem part_modLeg : (slot j (modLeg k leg f d)).part = (slot j d).part := (congrArg Slot.part (legless_modLeg k leg j f d) :)
@[simp] theorem st_modLeg : (slot j (modLeg k leg f d)).st = (slot j d).st := (congrArg Slot.st (legless_modLeg k leg j f d) :)
@[simp] theorem running_modLeg : (slot j (modLeg k leg f d)).running = (slot j d).running := by
  simp [Slot.running]
@[simp] theorem handleOf_modLeg : handleOf j (modLeg k leg f d) = handleOf j d := by simp [handleOf]
@[simp] theorem reports_modLeg (leg' : Nat) : reports j leg' (modLeg k leg f d) = reports j leg' d := by simp [reports]
end

/-! ### RTCP reports (R161, R164) -/

section
variable {k leg : Nat} {d : Dev}

/-- The leg sends in the clear on a flow of its own (R161, R176). -/
def SendsPlain (k leg : Nat) (d : Dev) : Prop :=
  let f := flow (txFlow (slot k d).desc leg) d
  f.held = true ∧ fHandle f = handleOf k d ∧ fLeg f = leg ∧ bit (fw f 0) 2 = false ∧ legSuite (slot k d).desc leg = 0

/-- Such a leg withholds nothing. -/
theorem SendsPlain.withheld (h : SendsPlain k leg d) : withheld k leg d = none := by
  obtain ⟨hheld, hh, hl, h2, hs⟩ := h
  simp only [Machine.withheld, hheld, hh, hl, h2, hs]
  simp

theorem SendsPlain.modLeg (h : SendsPlain k leg d) (f : Leg → Leg) : SendsPlain k leg (modLeg k leg f d) := by
  unfold SendsPlain
  rw [desc_modLeg, handleOf_modLeg]
  exact h

/-- A packet for a port with room waits in its Q6 (R175, R309). -/
theorem queuePacket_room {n : Nat} {e : NT32} {x : TxPkt} (hq : (port (portOf (slot k d).desc leg d) d).q6.length < 16384) :
    queuePacket k leg n e x d = modPort (portOf (slot k d).desc leg d) (fun p => { p with
      q6 := q6Put (now d) ⟨e + BitVec.ofNat 32 (egrOffset (slot k d).desc leg), handleOf k d, leg, hPart (handleOf k d),
        frameOctets (flow (txFlow (slot k d).desc leg) d) n, b2n x.rtcp, some x, none⟩ p.q6 }) d := by
  simp only [queuePacket, q6Offer, Nat.not_le.2 hq, if_false]

theorem length_q6Put (t : NT32) (e : Q6Ent) (l : List Q6Ent) : (q6Put t e l).length = l.length + 1 := by
  induction l with
  | nil => rfl
  | cons x xs ih =>
    unfold q6Put
    split
    · rfl
    · simp [ih]

theorem mem_q6Put (t : NT32) (e : Q6Ent) (l : List Q6Ent) : e ∈ q6Put t e l := by
  induction l with
  | nil => simp [q6Put]
  | cons x xs ih =>
    unfold q6Put
    split
    · simp
    · simp [ih]

/-- What a report leaves of its leg: nothing sent since, and what it has told of. -/
def reported (g : Leg) : Leg :=
  { g with sinceReport := false, expPrior := g.rxCycles * 65536 + g.rxHighest.toNat + 1 - g.rxBase.toNat, rcvPrior := g.rxCount }

/-- The packet of a leg's report for time `t`, in the clear. -/
def reportPacket (k leg : Nat) (t : W64) (d : Dev) : TxPkt := { legPacket k leg true d with payload := reportBytes k leg t d }

/-- A report in the clear of a leg that withholds nothing: one packet into Q6 (R164). -/
theorem sendReport_plain {t : W64} (hp : SendsPlain k leg d) :
    sendReport k leg t d = queuePacket k leg (reportBytes k leg t d).length (t.extractLsb' 0 32) (reportPacket k leg t d)
      (modLeg k leg reported d) := by
  have hpkt : legPacket k leg true (modLeg k leg reported d) = legPacket k leg true d := by
    simp only [legPacket, desc_modLeg, handleOf_modLeg]
    rfl
  unfold sendReport
  extract_lets l b d1 ki key suite ssrc word body tail n d2
  have h1 : d1 = modLeg k leg reported d := rfl
  have h0 : suite = 0 := hp.2.2.2.2
  have hd2 : d2 = modLeg k leg reported d := by simp only [d2, h0, if_true, h1]
  have hpay : b.take 8 ++ body = b := by simp [body, h0]
  have htail : tail = [] := by simp [tail, h0]
  have hx : { legPacket k leg true d2 with index := if suite = 0 then 0 else key.rtcpSent, payload := b.take 8 ++ body, trailer := tail }
      = reportPacket k leg t d := by
    rw [hd2, hpkt, hpay, htail, if_pos h0]
    rfl
  rw [h1, (hp.modLeg reported).withheld, ← hx, ← hd2, show (reportBytes k leg t d).length = n by simp [n, htail, b]]

/-- The entry of Q6 that a report for time `t` makes. -/
def reportEntry (k leg : Nat) (t : W64) (d : Dev) : Q6Ent :=
  let l := (slot k d).desc
  ⟨t.extractLsb' 0 32 + BitVec.ofNat 32 (egrOffset l leg), handleOf k d, leg, hPart (handleOf k d),
    frameOctets (flow (txFlow l leg) d) (reportBytes k leg t d).length, 1, some (reportPacket k leg t d), none⟩

/-- One report more of a leg has been sent. -/
def countReport (g : Leg) : Leg := { g with reports := g.reports + 1 }

/-- A leg's report in the clear that is due goes into Q6 of its port and is counted (R164). -/
theorem reportDue_sends {t : Nat} (hrep : reports k leg d = true) (ht : reportAt k leg (legOf k leg d).reports d = t)
    (hle : t ≤ (now64 d).toNat) (htr : trunkOf k leg d = none) (hp : SendsPlain k leg d)
    (hq : (port (portOf (slot k d).desc leg d) d).q6.length < 16384) :
    reportDue k leg d = modLeg k leg countReport (modPort (portOf (slot k d).desc leg d)
      (fun p => { p with q6 := q6Put (now d) (reportEntry k leg (BitVec.ofNat 64 t) d) p.q6 }) (modLeg k leg reported d)) := by
  have hq1 : (port (portOf (slot k (modLeg k leg reported d)).desc leg (modLeg k leg reported d)) (modLeg k leg reported d)).q6.length < 16384 := by
    rw [desc_modLeg]
    exact hq
  unfold reportDue
  rw [hrep, ht, if_neg (by simp), if_neg (Nat.not_lt.2 hle), htr, sendReport_plain hp, queuePacket_room hq1, handleOf_modLeg, desc_modLeg]
  rfl

/-- A leg without reports has none due. -/
theorem reportDue_of_none (h : reports k leg d = false) : reportDue k leg d = d := by simp [reportDue, h]

/-- The report time of a leg with reports (R164). -/
theorem reportAt_of_reports (h : reports k leg d = true) (n : Nat) :
    reportAt k leg n d = (slot k d).actAt.toNat +
      (k * 1009 % fld (lw (slot k d).desc leg 9) 15 0 + n * fld (lw (slot k d).desc leg 9) 15 0) * 1000000 := by
  have hi : fld (lw (slot k d).desc leg 9) 15 0 ≠ 0 := by
    simp only [reports, Bool.and_eq_true, decide_eq_true_eq] at h
    exact h.1.2
  rw [reportAt, Nat.max_eq_right (Nat.one_le_iff_ne_zero.2 hi)]

/-- Both legs' reports, when only one leg has any. -/
theorem reportDue_both (hleg : leg < 2) (hother : reports k (1 - leg) d = false)
    (hkeep : reports k (1 - leg) (reportDue k leg d) = false) : reportDue k 1 (reportDue k 0 d) = reportDue k leg d := by
  interval_cases leg
  · exact reportDue_of_none hkeep
  · rw [reportDue_of_none hother]

/-- The next report time of a channel enters list 3: notes only. -/
protected theorem Noted.syncRtcp {K : Set Nat} {a : Dev} (w : Noted K a d) (hk : dlKeys 3 ⊆ K) : Noted K a (syncRtcp k d) := by
  unfold Machine.syncRtcp
  extract_lets h d1 t c
  have hd : Noted K a d1 := w.dlDrop
  clear_value c
  split
  · exact hd
  · exact hd.dlAdd hk

theorem extractLsb'_low_ofNat (n : Nat) : (BitVec.ofNat 64 n).extractLsb' 0 32 = BitVec.ofNat 32 n := by
  apply BitVec.eq_of_toNat_eq
  simp only [BitVec.extractLsb'_toNat, BitVec.toNat_ofNat, Nat.shiftRight_zero]
  omega

end

/-- A report event whose turn has come, of a channel with one leg that reports, in the clear and not withheld (R164). -/
theorem rtcpEvent_sends {h : W32} {leg t : Nat} {e : DEvent} {rest : List DEvent} {d : Dev} (hleg : leg < 2) (hl : Listed 3 e rest d)
    (hf : GoesFirst 3 e d) (he : e.handle = h) (hc : current h d = true) (hrep : reports (hSlot h) leg d = true)
    (hother : reports (hSlot h) (1 - leg) d = false) (ht : reportAt (hSlot h) leg (legOf (hSlot h) leg d).reports d = t)
    (hle : t ≤ (now64 d).toNat) (htr : trunkOf (hSlot h) leg d = none) (hp : SendsPlain (hSlot h) leg d)
    (hq : (port (portOf (slot (hSlot h) d).desc leg d) d).q6.length < 16384) :
    ∃ x, Noted Set.univ x (rtcpEvent h d) ∧ x.ports = (modPort (portOf (slot (hSlot h) d).desc leg d)
        (fun p => { p with q6 := q6Put (now d) (reportEntry (hSlot h) leg (BitVec.ofNat 64 t) d) p.q6 }) d).ports ∧
      legOf (hSlot h) leg x = countReport (reported (legOf (hSlot h) leg d)) := by
  have ht3 : reportAt (hSlot h) leg (legOf (hSlot h) leg (setDl 3 rest d)).reports (setDl 3 rest d) = t := by
    rw [← ht, reportAt, reportAt]
    rfl
  have hsend := reportDue_sends (d := setDl 3 rest d) hrep ht3 hle htr hp hq
  have hkeep : reports (hSlot h) (1 - leg) (reportDue (hSlot h) leg (setDl 3 rest d)) = false := by
    rw [hsend, reports_modLeg]
    exact (reports_modLeg _ _ _ _ _ _).trans hother
  refine ⟨reportDue (hSlot h) leg (setDl 3 rest d), ?_, ?_, ?_⟩
  · rw [rtcpEvent, hl.issue_current hf (by simp [he]) (.inr (he ▸ hc))]
    simp only [reportDue_both (d := setDl 3 rest d) hleg hother hkeep]
    exact Noted.refl.syncRtcp (Set.subset_univ _)
  · rw [hsend]
    rfl
  · rw [hsend, legOf_modLeg]
    exact congrArg countReport (legOf_modLeg _ _ _ _)

/-! ### The ends of QUIESCE and of closing (R165, R283) -/

/-- QUIESCE that has lasted its time (R120, R165). -/
theorem quiesceEnds_due {k : Nat} {d : Dev} (hs : (slot k d).st = .quiesce) (hr : reached d (slot k d).quiesceAt = true) :
    quiesceEnds k d = { modSlot k (fun _ => { Slot.reset with gen := (slot k d).gen, freed := d.nextFree + 1 }) d with
      nextFree := d.nextFree + 1 } := by
  unfold quiesceEnds
  exact if_pos ⟨hs, hr⟩

theorem raisePart_touched (p b : Nat) (d : Dev) : Touched d (raisePart p b d) := by
  unfold raisePart
  split
  · exact (raise_touched _ _ _).trans (raise_touched _ _ _)
  · exact raise_touched _ _ _

/-- A partition's cause stands once raised. -/
theorem raisePart_stands (p b : Nat) (d : Dev) (hb : b ≠ 0) (h32 : b < 32) : bit (hdr (0x200 + p) (raisePart p b d)).cause b = true := by
  have h := raise_stands (0x200 + p) b d hb h32
  unfold raisePart
  split
  · exact ((Noted.refl (K := ∅)).raise hb).causes _ _ h
  · exact h

/-- A partition that was closing is CLOSED after its last effect (R283). -/
theorem partClosed_closing {p : Nat} {d : Dev} (hp : partState p d = 2) (hc : p ∉ d.closing) :
    partClosed p d = raisePart p 2 (setRgN (kPart p oPART_STATE) 0 d) := by
  unfold partClosed setPart
  rw [if_pos ⟨hp, by simpa using hc⟩, if_neg (by omega)]

/-- What raising a cause may change after registers changed. -/
theorem Touched.withRegs {d d1 e : Dev} (h : Touched d1 e) (hd : d1 = { d with regs := d1.regs }) : Touched { d with regs := e.regs } e := by
  have hr : e.regs = d1.regs := by rw [h]
  rw [hr, ← hd]
  exact h

theorem Touched.twin {d e : Dev} (h : Touched d e) : e.twin = d.twin := by rw [h]

theorem Touched.rg {d e : Dev} (h : Touched d e) (k : Nat) : rg k e = rg k d := by rw [h]; rfl

/-- The second part of O19: legs, slots and partitions at their ends. -/
theorem legsSlotsAndPartitionsEnd : LegsSlotsAndPartitionsEnd := by
  intro s h leg k p v rest d hleg
  refine ⟨fun hv hh hl hr => ?_, fun e hlist hnone hclip he hr h0 hcur hh => ?_, fun hs hr => ?_, fun hp hst hc => ?_⟩
  · intro q x fired
    have hfired : fired ↔ missedPass h leg v.held d = true := by
      simp only [missedPass, Bool.and_eq_true, decide_eq_true_eq, and_assoc]
      exact Iff.rfl
    rw [exec_operandVisible hleg]
    refine ⟨fun hc ht ho => ?_, fun hc => ?_⟩
    · obtain ⟨hpath, hslot, hcount, hkept, hcause⟩ := operandVisible_joins hv hh hl hr hc ht ho
      refine ⟨_, rfl, rfl, hpath, hslot _, fun y hy => ?_, fun hm => hcount (hfired.1 hm), fun hm => hkept ?_, fun hm hf hs => ?_⟩
      · refine (hslot y).trans ?_
        rw [modLeg, slot_modSlot, if_neg hy]
      · simpa [hfired] using hm
      · exact hcause (hfired.1 hm) hf hs
    · rw [operandVisible_stale hv hh hl hr hc]
      have w := stale_noted rJB_CNT_STALE h (takeVisible rest d)
      exact ⟨_, rfl, w.path, w.slots, rgN_stale h (takeVisible rest d) (by decide)⟩
  · intro q l g f due hrep hother hle h64 htr hs hheld hfh hfl hbit hq
    have hfirst : GoesFirst 3 e d := fun m hm x hx hne => by
      simp [hnone m (by simpa using hm) hne] at hx
    have hp : SendsPlain q leg d := ⟨hheld, hfh.trans hh.symm, hfl, hbit, hs⟩
    obtain ⟨y, hnoted, hports, hlegs⟩ := rtcpEvent_sends hleg ⟨hlist, hr, hclip⟩ hfirst he hcur hrep hother
      (reportAt_of_reports hrep _) hle htr hp hq
    have hport : port (portOf l leg d) (rtcpEvent h d) = { port (portOf l leg d) d with
        q6 := q6Put (now d) (reportEntry q leg (BitVec.ofNat 64 due) d) (port (portOf l leg d) d).q6 } := by
      rw [port, hnoted.ports, hports]
      exact (port_modPort _ _ _ _).trans (if_pos rfl)
    refine ⟨{ s with dev := rtcpEvent h d }, reportEntry q leg (BitVec.ofNat 64 due) d, reportPacket q leg (BitVec.ofNat 64 due) d, rfl, rfl, ?_⟩
    have hhandle : handleOf q d = h := hh
    simp only [hnoted.legOf, hport]
    rw [hlegs]
    refine ⟨rfl, rfl, length_q6Put _ _ _, mem_q6Put _ _ _, rfl, hhandle, rfl, ?_, rfl, rfl, rfl, rfl, rfl, rfl, rfl⟩
    rw [reportEntry, extractLsb'_low_ofNat]
  · have hx : exec (.quiesceEnd k) s = .next { s with dev := quiesceEnds k d } := rfl
    rw [hx, quiesceEnds_due hs hr]
    have hslot (x : Nat) := slot_modSlot k x (fun _ => { Slot.reset with gen := (slot k d).gen, freed := d.nextFree + 1 }) d
    exact ⟨_, rfl, rfl, rfl, (hslot k).trans (if_pos rfl), fun x hne => (hslot x).trans (if_neg hne)⟩
  · have hx : exec (.partitionClosed p) s = .next { s with dev := partClosed p d } := rfl
    have htouch := raisePart_touched p 2 (setRgN (kPart p oPART_STATE) 0 d)
    rw [hx, partClosed_closing hst hc]
    refine ⟨_, rfl, ⟨rfl, ?_⟩, ?_, raisePart_stands _ _ _ (by decide) (by decide), fun q hne => ?_⟩
    · exact htouch.withRegs rfl
    · rw [htouch.rg, rg_setRgN, if_pos rfl]
      decide
    · rw [htouch.rg, rg_setRgN, if_neg hne]

/-- Settles O19: an issued event is the head of its list that `waitsBehind` lets go (`Listed.issue`), a visible payload joins its leg
(`operandVisible_joins`), a report is one entry of Q6 (`rtcpEvent_sends`), and what else happens is notes (`Noted`). -/
theorem delayListsLegsAndSlots : Obligations.DelayListsLegsAndSlots := ⟨delayListEvents, legsSlotsAndPartitionsEnd⟩

end Sys2Proof.Machine
end

section
/-! PROOF. O49, ingress records: what a packet or a TRUNK frame taken from them does leaves the records still held and the digests served by a
fetch (`SameRecords`, one lemma for each function on the receive path). -/
namespace Sys2Proof.Machine

/-! ### The receive path leaves the ingress records (R181, R338) -/

/-- The ingress records held and the digests served by a fetch are as they were. -/
def SameRecords (d e : Dev) : Prop := e.twin.ingress = d.twin.ingress ∧ e.twin.fetched = d.twin.fetched

section
variable {K : Set Nat} {a d e : Dev}

theorem SameRecords.refl : SameRecords d d := ⟨rfl, rfl⟩

/-- A change that leaves both fields. -/
theorem SameRecords.step (w : SameRecords a d) (h : (e.twin.ingress, e.twin.fetched) = (d.twin.ingress, d.twin.fetched)) : SameRecords a e := by
  injection h with hi hf
  exact ⟨hi.trans w.1, hf.trans w.2⟩

theorem SameRecords.noted (w : SameRecords a d) (h : Noted K d e) : SameRecords a e := ⟨h.ingress.trans w.1, h.fetched.trans w.2⟩

theorem SameRecords.ite {c : Prop} [Decidable c] (hd : SameRecords a d) (he : SameRecords a e) : SameRecords a (if c then d else e) := by
  split
  · exact hd
  · exact he

theorem SameRecords.iteSnd {α : Type} {c : Prop} [Decidable c] {x y : α × Dev} (hx : SameRecords a x.2) (hy : SameRecords a y.2) :
    SameRecords a (if c then x else y).2 := by
  split
  · exact hx
  · exact hy

theorem SameRecords.foldl {α : Type} {f : Dev → α → Dev} {l : List α} (w : SameRecords a d)
    (hf : ∀ x y, SameRecords a x → SameRecords a (f x y)) : SameRecords a (l.foldl f d) := by
  induction l generalizing d with
  | nil => exact w
  | cons y l ih => exact ih (hf d y w)

protected theorem SameRecords.incRg {k} (w : SameRecords a d) : SameRecords a (incRg k d) := w
protected theorem SameRecords.modLeg {k leg f} (w : SameRecords a d) : SameRecords a (modLeg k leg f d) := w
protected theorem SameRecords.vcnt {p off n} (w : SameRecords a d) : SameRecords a (vcnt p off n d) := w.noted (K := ∅) Noted.refl.vcnt
protected theorem SameRecords.jbRecord {typ k leg b13 v} (w : SameRecords a d) : SameRecords a (jbRecord typ k leg b13 v d) :=
  w.noted (K := ∅) Noted.refl.jbRecord
protected theorem SameRecords.raiseF {pg b src} (w : SameRecords a d) (hb : b ≠ 0) : SameRecords a (raiseF pg b src d) :=
  w.noted (K := ∅) (Noted.refl.raiseF hb)
protected theorem SameRecords.raisePartF {p b src} (w : SameRecords a d) (hb : b ≠ 0) : SameRecords a (raisePartF p b src d) :=
  w.noted (K := ∅) (Noted.refl.raisePartF hb)

protected theorem SameRecords.reanchor {k leg ts arr} (w : SameRecords a d) : SameRecords a (reanchor k leg ts arr d) := w.modLeg.incRg.jbRecord

protected theorem SameRecords.rejectPacket {k leg ts arr} (w : SameRecords a d) : SameRecords a (rejectPacket k leg ts arr d).2 :=
  .iteSnd w.modLeg.incRg.vcnt.reanchor w.modLeg.incRg.vcnt

protected theorem SameRecords.overrunPacket {k leg h} (w : SameRecords a d) : SameRecords a (overrunPacket k leg h d).2 :=
  .iteSnd w.modLeg.incRg.vcnt.jbRecord.reanchor w.modLeg.incRg.vcnt.jbRecord

protected theorem SameRecords.takePayload {k leg h t} (w : SameRecords a d) : SameRecords a (takePayload k leg h t d) := w

protected theorem SameRecords.firstAnchor {k leg ts arr} (w : SameRecords a d) : SameRecords a (firstAnchor k leg ts arr d) := .ite w.modLeg w

protected theorem SameRecords.jbAccept {k leg h bound} (w : SameRecords a d) : SameRecords a (jbAccept k leg h bound d) := by
  unfold jbAccept
  extract_lets l t d1 g dly on
  have anchored : SameRecords a d1 := w.firstAnchor
  have taken {x : Bool × Dev} (h : SameRecords a x.2) : SameRecords a (on x) := .ite h.takePayload h
  exact .ite (taken anchored.rejectPacket) (.ite (taken anchored.overrunPacket) (.ite anchored.incRg anchored.takePayload))

protected theorem SameRecords.police {p fi n} (w : SameRecords a d) : SameRecords a (police p fi n d).2 := by
  unfold police
  extract_lets t x pk by_ pOk fOk d1
  have counted : SameRecords a d1 := .ite w w
  refine .iteSnd w (.iteSnd w ?_)
  split
  · exact .iteSnd counted counted
  · exact counted

protected theorem SameRecords.policed {which p} (w : SameRecords a d) : SameRecords a (policed which p d) :=
  .raisePartF (.ite w.incRg.vcnt w.incRg.vcnt) (by decide)

protected theorem SameRecords.deliverExc {reason p f nt h plain} (w : SameRecords a d) : SameRecords a (deliverExc reason p f nt h plain d) := by
  unfold deliverExc
  extract_lets k r ahead slotNo copy trunc fl d1 first
  have copied : SameRecords a d1 := .ite w w
  exact copied.vcnt.noted (K := ∅) Noted.refl.offer

protected theorem SameRecords.exception {reason p f nt h plain done} (w : SameRecords a d) :
    SameRecords a (exception reason p f nt h plain done d) := by
  unfold exception
  extract_lets d0 r
  have counted : SameRecords a d0 := .ite w.incRg (.ite w.incRg w)
  have admitted : SameRecords a r.2 := .iteSnd counted counted.police
  exact .ite admitted.policed (.ite admitted.incRg admitted.deliverExc)

protected theorem SameRecords.unprotect {rtcp k leg r} (w : SameRecords a d) : SameRecords a (unprotect rtcp k leg r d).2 := by
  unfold unprotect
  extract_lets l p
  split
  · exact w
  · split
    · exact w.incRg.vcnt
    · exact .iteSnd w.incRg.vcnt (.iteSnd (.raisePartF (.vcnt (.incRg w)) (by decide)) w)

protected theorem SameRecords.learnSsrc {fi k leg ssrc} (w : SameRecords a d) : SameRecords a (learnSsrc fi k leg ssrc d) := .ite (.jbRecord w) w

protected theorem SameRecords.eventRx {k leg r b arr} (w : SameRecords a d) : SameRecords a (eventRx k leg r b arr d) := by
  unfold eventRx
  extract_lets l code fin vol dur g d1 h dly take on
  have anchored : SameRecords a d1 := w.firstAnchor
  have taken {x : Bool × Dev} (h : SameRecords a x.2) : SameRecords a (on x) := .ite h.modLeg h
  exact .ite (.ite w w.modLeg) (.ite w.modLeg (.ite (taken anchored.rejectPacket) (.ite (taken anchored.overrunPacket) anchored.modLeg)))

protected theorem SameRecords.takeRtp {fi f r arr b} (w : SameRecords a d) : SameRecords a (takeRtp fi f r arr b d) := by
  unfold takeRtp
  extract_lets h leg k l
  have plain := w.unprotect (rtcp := false) (k := k) (leg := leg) (r := r)
  split
  next heq => rwa [heq] at plain
  next heq =>
    rw [heq] at plain
    extract_lets d2 d3
    have written : SameRecords a d3 := .ite plain.learnSsrc.modLeg.vcnt.eventRx plain.learnSsrc.modLeg.vcnt.jbAccept
    exact .ite (written.step rfl) written

protected theorem SameRecords.takeRtcp {fi f r nt} (w : SameRecords a d) : SameRecords a (takeRtcp fi f r nt d) := by
  unfold takeRtcp
  extract_lets h leg k
  have plain := w.unprotect (rtcp := true) (k := k) (leg := leg) (r := r)
  split
  next heq => rwa [heq] at plain
  next heq =>
    rw [heq] at plain
    exact .exception (.learnSsrc (.ite plain.modLeg plain))

protected theorem SameRecords.takePacket {fi f arr own} (w : SameRecords a d) : SameRecords a (takePacket fi f arr own d) := by
  unfold takePacket
  extract_lets fe h leg k p l nt q m
  split
  · exact w
  · extract_lets r rtcp
    have admitted : SameRecords a q.2 := .iteSnd w.police w
    exact .ite w.exception (.ite (.raiseF w.incRg (by decide)) (.ite w.exception
      (.ite admitted.policed (.ite (.raisePartF admitted.incRg.vcnt (by decide)) (.ite admitted.takeRtcp admitted.takeRtp)))))

protected theorem SameRecords.trunkEntry {port stamp bound t z} (w : SameRecords a d) : SameRecords a (trunkEntry port stamp bound t z d) := by
  unfold trunkEntry
  extract_lets h k leg
  refine .ite w.incRg (.ite (w.noted (K := {rFAB_CNT_STALE}) (.raise (Noted.refl.incRg (.inl (Set.mem_singleton _))) (by decide))) ?_)
  split
  · exact w.incRg
  · exact .ite w.incRg w

protected theorem SameRecords.takeTrunk {p stamp t} (w : SameRecords a d) : SameRecords a (takeTrunk p stamp t d) :=
  .foldl w fun _ _ h => h.trunkEntry

/-! ### Records served and held -/

/-- Records whose payload is not there are held. -/
theorem serveRecords_waits {r : IngressRec} {t : NT32} {rest : List (IngressRec × NT32)} (hi : d.twin.ingress = (r, t) :: rest)
    (hf : r.frame = none) (ht : r.trunk = none) (hw : d.path.waiting = []) (hk : d.path.trunkIn = []) : serveRecords d = d := by
  rw [serveRecords, hi]
  simp only [List.length_cons, serveIngress, hi, hf, ht, hw, hk, List.find?_nil]

/-- The only record is served once its payload is there. -/
theorem serveRecords_one {r : IngressRec} {t : NT32} {f : RxFrame} (hi : d.twin.ingress = [(r, t)]) (hf : r.frame = some f) :
    (serveRecords d).twin.ingress = [] ∧ (serveRecords d).twin.fetched = d.twin.fetched := by
  have none_left : SameRecords (modTwin (fun t => { t with ingress := [] }) d) (serveRecords d) := by
    have start := SameRecords.refl (d := modTwin (fun t => { t with ingress := [] }) d)
    rw [serveRecords, hi]
    simp only [List.length_singleton, serveIngress, hi, hf]
    cases r.trunk with
    | none => exact .ite (.step start.takePacket rfl) start.takePacket
    | some t => exact .ite (.step start.takeTrunk rfl) start.takeTrunk
  exact none_left

end

end Sys2Proof.Machine
end

section
/-! PROOF. O49, firing on a standby: a full token of the only channel that waits is dispatched to an idle core (R108, R111, R339). -/
namespace Sys2Proof.Machine

/-! ### What firing a token leaves (R108, R173) -/

/-- What a firing token's leg runs leave: the Weir but for its delay lists, the last HORIZON, the count of tokens fired, and which handles are
current. -/
structure RunNoted (d e : Dev) : Prop where
  weir : { e.weir with dl := [] } = { d.weir with dl := [] }
  horizon : e.twin.horizon = d.twin.horizon
  fired : rg rWEIR_CNT_FIRED e = rg rWEIR_CNT_FIRED d
  current : ∀ h, current h e = current h d

section
variable {a d e : Dev}

theorem RunNoted.refl : RunNoted d d := ⟨rfl, rfl, rfl, fun _ => rfl⟩

theorem RunNoted.noted (w : RunNoted a d) (h : Noted ∅ d e) : RunNoted a e :=
  ⟨h.weir.trans w.weir, h.horizon.trans w.horizon, (h.regs _ (by decide) id).trans w.fired, fun x => (h.current x).trans (w.current x)⟩

theorem RunNoted.ite {c : Prop} [Decidable c] (hd : RunNoted a d) (he : RunNoted a e) : RunNoted a (if c then d else e) := by
  split
  · exact hd
  · exact he

theorem current_modLeg (k leg : Nat) (f : Leg → Leg) (h : W32) (d : Dev) : current h (modLeg k leg f d) = current h d := by
  simp [current]

protected theorem RunNoted.modLeg {k leg f} (w : RunNoted a d) : RunNoted a (modLeg k leg f d) :=
  ⟨w.weir, w.horizon, w.fired, fun h => (current_modLeg _ _ _ _ _).trans (w.current h)⟩

protected theorem RunNoted.jbRecord {typ k leg b13 v} (w : RunNoted a d) : RunNoted a (jbRecord typ k leg b13 v d) := w.noted Noted.refl.jbRecord

protected theorem RunNoted.jbRun {k leg marked} (w : RunNoted a d) : RunNoted a (jbRun k leg marked d) :=
  .ite w (.ite (.modLeg (.ite w.jbRecord w)) (.ite w w.modLeg.jbRecord))

protected theorem RunNoted.noteDispatch {k} (w : RunNoted a d) : RunNoted a (noteDispatch k d) := by
  refine ⟨w.weir, w.horizon, w.fired, fun h => ?_⟩
  rw [← w.current h]
  simp only [Machine.current, Machine.noteDispatch, slot_modSlot]
  split
  · next hk => rw [hk]
  · rfl

theorem RunNoted.tokens (w : RunNoted d e) : e.weir.tokens = d.weir.tokens := (congrArg Weir.tokens w.weir :)
theorem RunNoted.lists (w : RunNoted d e) : e.weir.lists = d.weir.lists := (congrArg Weir.lists w.weir :)
theorem RunNoted.healthy (w : RunNoted d e) : e.weir.healthy = d.weir.healthy := (congrArg Weir.healthy w.weir :)

/-! ### Dispatch to an idle device (R111) -/

@[simp] theorem jobs_setJobs (c i : Nat) (l : List Job) (d : Dev) : jobs i (setJobs c l d) = if i = c then l else jobs i d := by
  simp [jobs, setJobs, modWeir]

/-- With no job listed the lowest healthy core is the lightest (log entry 17). -/
theorem lightest_idle {c : Nat} (hl : d.weir.lists = []) (hc : c < 64) (hh : bit d.weir.healthy c = true)
    (hlow : ∀ y, y < c → bit d.weir.healthy y = false) : lightest 64 d = some c := by
  have idle (i : Nat) : jobs i d = [] := by simp [jobs, hl, tabGet]
  have keep : ∀ (l : List Nat) (x : Nat), l.foldl (fun (b : Option Nat) i =>
      match b with
      | none => some i
      | some x => if loadOf (jobs i d) < loadOf (jobs x d) then some i else some x) (some x) = some x := by
    intro l x
    induction l with
    | nil => rfl
    | cons i l ih => simpa [idle] using ih
  have first : ((List.range 64).filter fun i => coreOk i d && decide (i ≠ 64)).head? = some c := by
    rw [List.head?_filter, List.find?_range_eq_some]
    refine ⟨by simp [coreOk, hc, hh]; omega, by simpa using hc, fun j hj => by simp [coreOk, hlow j hj]⟩
  obtain ⟨rest, hr⟩ := List.head?_eq_some_iff.1 first
  rw [lightest, hr, List.foldl_cons]
  exact keep rest c

/-- A job dispatched while none is listed is staged at once on the lowest healthy core. -/
theorem dispatch_idle {c : Nat} {j : Job} (hl : d.weir.lists = []) (hc : c < 64) (hh : bit d.weir.healthy c = true)
    (hlow : ∀ y, y < c → bit d.weir.healthy y = false) (hj : j.st = .listed) (hs : itemStale j.bus j.handle d = false) :
    dispatch j d = setJobs c [{ j with st := .staging, buf := 0 }] (setJobs c [j] d) := by
  have idle : jobs c d = [] := by simp [jobs, hl, tabGet]
  have hs1 : itemStale j.bus j.handle (setJobs c [j] d) = false := hs
  have stay : steal c (setJobs c [j] d) = setJobs c [j] d := by
    unfold steal
    rw [if_pos (by simp [hj])]
  unfold dispatch
  rw [lightest_idle hl hc hh hlow]
  simp only [idle, List.nil_append, coreNext, stay]
  simp [stage, Job.buffered, hj, hs1]

/-- A full token of a current channel, the only one that waits, fires: its job is the only one, on the lowest healthy core (R108, R111). -/
theorem fireToken_idle {k : Token} {c : Nat} (ht : d.weir.tokens = [k]) (hbus : k.bus = false) (hfull : tokenFull k d = true)
    (hcur : current k.handle d = true) (hl : d.weir.lists = []) (hc : c < 64) (hh : bit d.weir.healthy c = true)
    (hlow : ∀ y, y < c → bit d.weir.healthy y = false) :
    let t := fireToken k d
    t.weir.tokens = [] ∧ jobs c t = [{ jobOf k d with st := .staging, buf := 0 }] ∧ t.twin.horizon = d.twin.horizon ∧
      rgN rWEIR_CNT_FIRED t = (rgN rWEIR_CNT_FIRED d + 1) % 2 ^ 32 := by
  intro t
  have hs : itemStale false k.handle d = false := by simp [itemStale, hcur]
  obtain ⟨x, hx, hrun⟩ : ∃ x, t = dispatch (jobOf k d) x ∧ RunNoted (incRg rWEIR_CNT_FIRED (modWeir (fun w => { w with
      rel := w.rel ++ [⟨k.bus, k.handle, k.pass, (jobOf k d).due, none, false⟩] }) (dropToken k d))) x := by
    simp only [t, fireToken, hs, hbus, hfull, Bool.false_eq_true, if_false, if_true]
    exact ⟨_, rfl, .noteDispatch (.jbRun (.jbRun .refl))⟩
  have hstale : itemStale (jobOf k d).bus (jobOf k d).handle x = false := by
    have : current k.handle x = true := (hrun.current _).trans hcur
    simp [itemStale, jobOf, this]
  have hdisp := dispatch_idle (j := jobOf k d) (hrun.lists.trans hl) hc (by rw [hrun.healthy]; exact hh)
    (fun y hy => by rw [hrun.healthy]; exact hlow y hy) rfl hstale
  rw [hx, hdisp]
  refine ⟨?_, by simp, hrun.horizon, ?_⟩
  · refine hrun.tokens.trans ?_
    simp [dropToken, modWeir, ht]
  · show rgN rWEIR_CNT_FIRED x = _
    rw [rgN, hrun.fired]
    exact rgN_incRg _ _

/-! ### HORIZON on a standby (R31, R339) -/

/-- HORIZON for an instant has come. -/
def withHorizon (t : NT32) (d : Dev) : Dev := { d with twin := { d.twin with horizon := some t } }

/-- A shadowing device that has had no HORIZON fires what is ready when HORIZON for the last boundary comes. -/
theorem horizonNow_fires (hs : shadowing d = true) (hn : d.twin.horizon = none) (hw : weirRuns d = true) :
    horizonNow d.weir.lastP d = fireReady (withHorizon d.weir.lastP d) := by
  have hw1 : weirRuns (modTwin (fun w => { w with horizon := some d.weir.lastP }) d) = true := hw
  unfold horizonNow
  rw [hn, if_neg (by simp [hs])]
  simp only [hw1]
  exact if_pos rfl

/-- The only token, eligible and full, fires once its HORIZON has come. -/
theorem fireReady_one {k : Token} (hz : d.twin.horizon = some d.weir.lastP) (ht : d.weir.tokens = [k]) (hel : k.elig = true)
    (hfull : tokenFull k d = true) : fireReady d = fireToken k d := by
  have there : horizonAt d.weir.lastP d = true := by simp [horizonAt, hz, sdiff]
  simp [fireReady, there, ht, hel, hfull, sortBy, sortIn]

end

end Sys2Proof.Machine
end

section
/-! PROOF. O49, the rest: a context installed, digests, and what a standby does with records and orphans. -/
namespace Sys2Proof.Machine

section
variable {d : Dev}

/-! ### A context is installed (R342, R351) -/

/-- The slot whose context has been installed. -/
def withContext (ctx : Nat) (m : Media) (a b : Leg) (s : Slot) : Slot :=
  { s with ctx := ctx, media := m, initDone := true, suspect := false, inits := s.inits + 1, legA := a, legB := b }

/-- A context that is awaited becomes the slot's, and is listed as installed; no token waits for it. -/
theorem installContext_awaited {h : W32} {p : NT32} {ctx : Nat} {m : Media} {a b : Leg} (hs : shadowing d = true) (hc : current h d = true)
    (hst : chSt (hSlot h) d = .copying ∨ chSt (hSlot h) d = .resync) (ht : d.weir.tokens = []) :
    let t := installContext h p ctx m a b d
    (∀ j, slot j t = slot j (modSlot (hSlot h) (withContext ctx m a b) d)) ∧ (h, p) ∈ t.twin.installed := by
  intro t
  have hgo : ¬(!shadowing d || !current h d || decide (chSt (hSlot h) d ≠ .copying ∧ chSt (hSlot h) d ≠ .resync)) = true := by
    simp only [hs, hc, Bool.not_true, Bool.false_or, decide_eq_true_eq]
    tauto
  obtain ⟨x, hx, hn⟩ : ∃ x, t = fillCtx false h (modTwin (fun t => { t with
      installed := (h, p) :: t.installed.filter fun e => decide (e.1 ≠ h) }) x) ∧
      Noted Set.univ (putContext (hSlot h) ctx (modSlot (hSlot h) (withContext ctx m a b) d)) x :=
    ⟨_, if_neg hgo, syncs_noted _ _ _ _ _⟩
  have htok : x.weir.tokens = [] := hn.tokens.trans ht
  have hfill : t = modTwin (fun t => { t with installed := (h, p) :: t.installed.filter fun e => decide (e.1 ≠ h) }) x := by
    rw [hx]
    simp [fillCtx, modTwin, htok]
  rw [hfill]
  exact ⟨fun j => hn.slot j, List.mem_cons_self⟩

/-! ### Digests (R342, R343) -/

/-- The channel's digest of the pass differs in SHADOW: its state moves to RESYNC, its tokens wait for the context asked for. -/
def resyncDev (h : W32) (d : Dev) : Dev :=
  setCh (hSlot h) .resync (modTwin (fun t => { t with installed := t.installed.filter fun x => decide (x.1 ≠ h) })
    (modTokens (fun t => !t.bus && decide (t.handle = h)) (fun t => { t with fillCtx := false }) d))

section
variable {h : W32} {p : NT32} {v : W32} {g : PassDigest}

theorem digestRx_agrees_shadow (hf : d.twin.digests.find? (fun y => decide (y.handle = h ∧ y.pass = p)) = some g)
    (hst : chSt (hSlot h) d = .shadow) (hv : g.value = v) : digestRx h p v d = d := by
  unfold digestRx
  extract_lets k st there
  have hst1 : st = .shadow := hst
  rw [hf, hst1]
  simp [hv]

theorem digestRx_differs (hs : shadowing d = true) (hc : current h d = true)
    (hf : d.twin.digests.find? (fun y => decide (y.handle = h ∧ y.pass = p)) = some g) (hst : chSt (hSlot h) d = .shadow) (hv : g.value ≠ v) :
    digestRx h p v d = tell 10 [h.toNat] (raiseF 0x120 4 0x120 (incRg rTWIN_CNT_DIGEST_MISMATCH (resyncDev h d))) := by
  unfold digestRx
  extract_lets k st there
  have hst1 : st = .shadow := hst
  rw [hf, hst1, hs, hc]
  exact if_neg hv

theorem digestRx_agrees_resync (hs : shadowing d = true) (hc : current h d = true)
    (hf : d.twin.digests.find? (fun y => decide (y.handle = h ∧ y.pass = p)) = some g) (hst : chSt (hSlot h) d = .resync)
    (hi : d.twin.installed.any (fun y => decide (y.1 = h)) = true) (hv : g.value = v) :
    digestRx h p v d = toShadow (hSlot h) (incRg rTWIN_CNT_RESYNC d) := by
  unfold digestRx
  extract_lets k st there
  have hst1 : st = .resync := hst
  have hi1 : there = true := hi
  rw [hf, hst1, hs, hc, hi1]
  exact if_pos hv

end

@[simp] theorem chSt_setCh (k j : Nat) (c : ChSt) (d : Dev) : chSt j (setCh k c d) = if j = k then c else chSt j d := by
  simp [chSt, setCh, modTwin]

/-- A channel comes to SHADOW; ALL_SHADOW may rise (R343). -/
theorem toShadow_touched (k : Nat) (d : Dev) : Touched (setCh k .shadow d) (toShadow k d) := by
  unfold toShadow
  extract_lets was d1
  split
  · exact raise_touched _ _ _
  · exact Touched.refl _

end

/-! ### Records, payloads and orphans (R181, R338) -/

section
variable {d : Dev}

/-- A standby with its link up shadows. -/
theorem shadowing_of_standby (hl : d.twin.link = true) (hr : d.twin.role = .standby) : shadowing d = true := by simp [shadowing, hl, hr]

/-- Counting in one register leaves the others. -/
theorem rg_incRg_other {k j : Nat} (h : j ∉ [k]) : rg j (incRg k d) = rg j d := rg_addRg_other k j 1 d (by simpa using h)

/-- A record without its packet is counted and held. -/
theorem ingressRx_held {r : IngressRec} (hs : shadowing d = true) (hi : d.twin.ingress = []) (hw : d.path.waiting = []) (hk : d.path.trunkIn = [])
    (hf : r.frame = none) (ht : r.trunk = none) :
    ingressRx r d = incRg rTWIN_CNT_RECORDS { d with twin := { d.twin with ingress := [(r, now d)] } } := by
  have hrx : ingressRx r d = serveRecords (incRg rTWIN_CNT_RECORDS { d with twin := { d.twin with ingress := [(r, now d)] } }) := by
    simp [ingressRx, hs, hi, modTwin]
  rw [hrx]
  exact serveRecords_waits rfl hf ht hw hk

/-- The oldest frame of those held has waited 2 ms without a record: discarded and counted (R181). -/
theorem orphans_frame_old {x : WaitPkt} {xs : List WaitPkt} (hw : d.path.waiting = x :: xs) (ho : 2000000 ≤ sdiff (now d) x.at_) :
    orphans d = incRg rJB_CNT_TWIN_ORPHAN { d with path := { d.path with waiting := xs } } := by
  simp only [orphans, hw, ho, decide_true, if_true]

theorem orphans_frame_young {x : WaitPkt} {xs : List WaitPkt} (hw : d.path.waiting = x :: xs) (ho : sdiff (now d) x.at_ < 2000000)
    (ht : d.path.trunkIn = []) : orphans d = d := by
  simp [orphans, hw, ht, Int.not_le.2 ho]

theorem orphans_trunk_old {y : WaitTrunk} {ys : List WaitTrunk} (hw : d.path.waiting = []) (ht : d.path.trunkIn = y :: ys)
    (ho : 2000000 ≤ sdiff (now d) y.at_) : orphans d = incRg rJB_CNT_TWIN_ORPHAN { d with path := { d.path with trunkIn := ys } } := by
  simp only [orphans, hw, ht, ho, decide_true, if_true]

theorem orphans_trunk_young {y : WaitTrunk} {ys : List WaitTrunk} (hw : d.path.waiting = []) (ht : d.path.trunkIn = y :: ys)
    (ho : sdiff (now d) y.at_ < 2000000) : orphans d = d := by
  simp [orphans, hw, ht, Int.not_le.2 ho]

/-- A standby asks for the payload of a record that has waited 50 µs for it (R338). -/
theorem payloadReq_old {r : IngressRec} {t : NT32} (hl : d.twin.link = true) (hr : d.twin.role = .standby) (hi : d.twin.ingress = [(r, t)])
    (hf : r.frame = none) (ht : r.trunk = none) (ho : 50000 ≤ sdiff (now d) t) :
    payloadReq r.digest d = tell 3 [r.digest.toNat] (incRg rJB_CNT_TWIN_FETCH d) := by
  simp [payloadReq, hl, hr, shadowing, hi, hf, ht, ho]

theorem payloadReq_young {r : IngressRec} {t : NT32} {x : W64} (hl : d.twin.link = true) (hr : d.twin.role = .standby)
    (hi : d.twin.ingress = [(r, t)]) (ho : sdiff (now d) t < 50000) : payloadReq x d = d := by
  by_cases hm : (decide (r.digest = x) && r.frame.isNone && r.trunk.isNone) = true
  · simp [payloadReq, hl, hr, shadowing, hi, hm, Int.not_le.2 ho]
  · simp [payloadReq, hl, hr, shadowing, hi, hm]

/-- A payload for the only record held serves it. -/
theorem payloadRx_serves {r r0 : IngressRec} {t : NT32} {f : RxFrame} (hs : shadowing d = true) (hi : d.twin.ingress = [(r0, t)])
    (hd : r.digest = r0.digest) :
    (payloadRx r f d).twin.ingress = [] ∧ (payloadRx r f d).twin.fetched = r.digest :: d.twin.fetched := by
  have hrx : payloadRx r f d = serveRecords { d with twin := { d.twin with
      fetched := r.digest :: d.twin.fetched, ingress := [({ r0 with frame := some f, trunk := r.trunk }, t)] } } := by
    simp [payloadRx, hs, hi, hd, modTwin]
  rw [hrx]
  exact serveRecords_one rfl rfl

theorem payloadRx_unknown {r r0 : IngressRec} {t : NT32} {f : RxFrame} (hi : d.twin.ingress = [(r0, t)]) (hd : r.digest ≠ r0.digest) :
    payloadRx r f d = d := by
  simp [payloadRx, hi, Ne.symm hd]

end

/-- HORIZON for the last boundary fires the only token, which is full, onto an idle device (R31, R339). -/
theorem horizonNow_idle {d : Dev} {k : Token} {c : Nat} (hs : shadowing d = true) (hn : d.twin.horizon = none) (hw : WeirWorks d)
    (ht : d.weir.tokens = [k]) (hel : k.elig = true) (hbus : k.bus = false) (hfull : tokenFull k d = true) (hcur : current k.handle d = true)
    (hl : d.weir.lists = []) (hc : c < 64) (hh : bit d.weir.healthy c = true) (hlow : ∀ y, y < c → bit d.weir.healthy y = false) :
    let t := horizonNow d.weir.lastP d
    t.twin.horizon = some d.weir.lastP ∧ t.weir.tokens = [] ∧ (∃ j, jobs c t = [j] ∧ j.handle = k.handle ∧ j.pass = k.pass) ∧
      rgN rWEIR_CNT_FIRED t = (rgN rWEIR_CNT_FIRED d + 1) % 2 ^ 32 := by
  intro t
  have hruns : weirRuns d = true := by simp [weirRuns, hw]
  have hfire : t = fireToken k (withHorizon d.weir.lastP d) := by
    simp only [t]
    rw [horizonNow_fires hs hn hruns]
    exact fireReady_one (d := withHorizon d.weir.lastP d) rfl ht hel hfull
  obtain ⟨htok, hjobs, hhor, hcount⟩ := fireToken_idle (d := withHorizon d.weir.lastP d)
    ht hbus hfull hcur hl hc hh hlow
  rw [hfire]
  exact ⟨hhor, htok, ⟨_, hjobs, rfl, rfl⟩, hcount⟩

/-- A digest that differs in SHADOW: counted, the channel in RESYNC, its context asked for, and nothing else (R342, R343). -/
theorem digestRx_resyncs {s : State} {h v : W32} {p : NT32} {e : PassDigest} (hs : shadowing s.dev = true) (hc : current h s.dev = true)
    (he : s.dev.twin.digests.find? (fun y => decide (y.handle = h ∧ y.pass = p)) = some e) (hst : chSt (hSlot h) s.dev = .shadow)
    (hv : e.value ≠ v) :
    let t : State := { s with dev := digestRx h p v s.dev }
    Became { resyncDev h s.dev with regs := t.dev.regs } s t ∧ t.dev.twin.ch = (resyncDev h s.dev).twin.ch ∧
      Counts rTWIN_CNT_DIGEST_MISMATCH 1 s t ∧ RegsKept [rTWIN_CNT_DIGEST_MISMATCH] s t ∧ .msg .twin 10 [h.toNat] ∈ t.dev.outbox ∧
      (faulted 0x120 s.dev = false → CauseUp 0x120 4 t) := by
  have raised := raiseF_touched 0x120 4 0x120 (incRg rTWIN_CNT_DIGEST_MISMATCH (resyncDev h s.dev))
  rw [digestRx_differs hs hc he hst hv]
  refine ⟨⟨rfl, (raised.withRegs rfl).trans rfl⟩, congrArg Twin.ch raised.twin, ?_, fun j hj => ?_, List.mem_cons_self, fun hf => ?_⟩
  · exact (congrArg BitVec.toNat (raised.rg _)).trans (rgN_incRg _ _)
  · exact (raised.rg j).trans (rg_incRg_other hj)
  · exact raiseF_stands hf (by decide) (by decide)

/-- A digest that agrees after the context's installation: counted, the channel in SHADOW, and nothing else (R343). -/
theorem digestRx_returns {s : State} {h v : W32} {p : NT32} {e : PassDigest} (hs : shadowing s.dev = true) (hc : current h s.dev = true)
    (he : s.dev.twin.digests.find? (fun y => decide (y.handle = h ∧ y.pass = p)) = some e) (hst : chSt (hSlot h) s.dev = .resync)
    (hi : s.dev.twin.installed.any (fun y => decide (y.1 = h)) = true) (hv : e.value = v) :
    let t : State := { s with dev := digestRx h p v s.dev }
    Became { setCh (hSlot h) .shadow s.dev with regs := t.dev.regs } s t ∧ t.dev.twin.ch = (setCh (hSlot h) .shadow s.dev).twin.ch ∧
      Counts rTWIN_CNT_RESYNC 1 s t ∧ RegsKept [rTWIN_CNT_RESYNC] s t := by
  have raised := toShadow_touched (hSlot h) (incRg rTWIN_CNT_RESYNC s.dev)
  rw [digestRx_agrees_resync hs hc he hst hi hv]
  refine ⟨⟨rfl, raised.withRegs rfl⟩, congrArg Twin.ch raised.twin, ?_, fun j hj => ?_⟩
  · exact (congrArg BitVec.toNat (raised.rg _)).trans (rgN_incRg _ _)
  · exact (raised.rg j).trans (rg_incRg_other hj)

/-- A channel's state on the standby is that of its table. -/
theorem chSt_congr {d e : Dev} (h : e.twin.ch = d.twin.ch) (j : Nat) : chSt j e = chSt j d := by rw [chSt, h]; rfl

/-- Settles O49, clause by clause: records held and served, orphans, HORIZON, LINE, digests, the context installed. -/
theorem twinShadow : Obligations.TwinShadow := by
  intro s r r0 f t0 p x xs k c ctx status h v e m a b y ys samples d w q hlink hrole
  have hs : shadowing d = true := shadowing_of_standby hlink hrole
  refine ⟨fun hi hw ht hf hk => ?_, fun hi hf => ⟨fun hk ho => ?_, fun ho => ?_, fun hd => ?_, fun hd => ?_⟩,
    fun hw => ⟨fun ho => ?_, fun ho ht => ?_⟩, fun hw ht => ⟨fun ho => ?_, fun ho => ?_⟩, ?_, fun ho => ?_, fun ho => ?_,
    fun ht hbus hh hp ha hel => ?_, fun hc he => ⟨fun hst hv => ?_, fun hst hv => ?_, fun hst hi hv => ?_⟩, fun hc hst ht => ?_⟩
  · exact ⟨_, onDev_eq (ingressRx_held hs hi hw ht hf hk), rfl, rfl, fun j hj => rg_incRg_other hj, rgN_incRg _ _⟩
  · exact ⟨_, onDev_eq (payloadReq_old hlink hrole hi hf hk ho), ⟨rfl, rfl, fun j hj => rg_incRg_other hj⟩, rgN_incRg _ _, rfl⟩
  · exact onDev_eq (payloadReq_young hlink hrole hi ho)
  · exact ⟨_, rfl, rfl, payloadRx_serves hs hi hd⟩
  · exact onDev_eq (payloadRx_unknown hi hd)
  · exact ⟨_, onDev_eq (orphans_frame_old hw ho), rfl, rfl, fun j hj => rg_incRg_other hj, rgN_incRg _ _⟩
  · exact onDev_eq (orphans_frame_young hw ho ht)
  · exact ⟨_, onDev_eq (orphans_trunk_old hw ht ho), rfl, rfl, fun j hj => rg_incRg_other hj, rgN_incRg _ _⟩
  · exact onDev_eq (orphans_trunk_young hw ht ho)
  · intro hn hw ht hel hbus hctx ha hb hprog hcur hl hc hh hlow cmd hcmd hdue
    have hfull : tokenFull k d = true := by simp [tokenFull, hctx, hbus, ha, hb, hprog]
    have hrun : exec cmd s = .next { s with dev := horizonNow q.lastP d } := by
      simp only [List.mem_cons, List.not_mem_nil, or_false] at hcmd
      obtain rfl | rfl := hcmd
      · rfl
      · exact onDev_eq (if_pos (hdue.resolve_left (by simp)))
    obtain ⟨hhor, htok, ⟨j, hjobs, hjh, hjp⟩, hcount⟩ := horizonNow_idle hs hn hw ht hel hbus hfull hcur hl hc hh hlow
    exact ⟨_, j, hrun, rfl, hhor, htok, hjobs, hjh, hjp, hcount⟩
  · exact onDev_eq (if_pos ho)
  · exact onDev_eq (if_neg (Int.not_le.2 ho))
  · exact onDev_eq ((if_pos hs).trans (fillLeg_waiting ht hbus hh hp ha hel))
  · exact onDev_eq (digestRx_agrees_shadow he hst hv)
  · obtain ⟨hbec, hch, hcount, hkept, hasked, hcause⟩ := digestRx_resyncs (s := s) hs hc he hst hv
    refine ⟨_, rfl, ?_, (chSt_congr hch _).trans (by simp [resyncDev]), fun j hj => (chSt_congr hch j).trans ?_, hcount, hkept, hasked,
      hcause⟩
    · rw [hch]
      exact hbec
    · rw [resyncDev, chSt_setCh, if_neg hj]
      rfl
  · obtain ⟨hbec, hch, hcount, hkept⟩ := digestRx_returns (s := s) hs hc he hst hi hv
    refine ⟨_, rfl, ?_, (chSt_congr hch _).trans (by simp), hcount, hkept⟩
    rw [hch]
    exact hbec
  · obtain ⟨hslot, hin⟩ := installContext_awaited (p := p) (ctx := ctx) (m := m) (a := a) (b := b) hs hc hst ht
    have hk := hslot (hSlot h)
    rw [slot_modSlot, if_pos rfl] at hk
    refine ⟨{ s with dev := installContext h p ctx m a b d }, rfl, rfl, (congrArg Slot.ctx hk :), (congrArg Slot.media hk :),
      (congrArg Slot.legA hk :), (congrArg Slot.legB hk :), (congrArg Slot.desc hk :), hin, fun j hj => ?_⟩
    rw [hslot, slot_modSlot, if_neg hj]

end Sys2Proof.Machine
end

section
/-! PROOF. O2: writes and reads of registers. A host access that reaches the device is its effect (`fromHost_of_reaches`); what the device
rejects is logged and counted as R63 says (`rejected_of_reject`); and each kind of aligned access of a present page has one lemma, a case of
`regWrite`, `write32` or `write64`. -/
namespace Sys2Proof.Machine

/-! ### Accesses that reach the device (R37, R435) -/

section
variable {fn off size : Nat} {v : W64} {w : W32} {d : Dev}

theorem fromHost_of_reaches {f : Dev → Dev} (h : Reaches fn d) : fromHost fn f d = f d := by
  obtain ⟨⟨hperst, hlink, hready⟩, hfn⟩ := h
  simp [fromHost, hperst, hlink, hready, hfn]

/-- A command that is a host's access reaches the device and is its effect. -/
theorem onDev_fromHost {f : Dev → Dev} {s : State} {e : Dev} (h : Reaches fn s.dev) (he : f s.dev = e) :
    onDev (fromHost fn f) s = .next { s with dev := e } :=
  onDev_eq ((fromHost_of_reaches h).trans he)

/-! ### Rejected writes (R63) -/

theorem satInc_ovf (x : BitVec 16) : satInc x = if x = 0xFFFF then 0xFFFF else x + 1 := by
  have hmax : BitVec.allOnes 16 = 0xFFFF := by decide
  rw [satInc, hmax]
  split
  · assumption
  · rfl

/-- An access logged on a device that differs from the one before only outside the interface and the Time Base. -/
theorem logged_of_logErr {s : State} {r : Reason} {bar addr : Nat} (hh : d.hif = s.dev.hif) (ht : d.tb = s.dev.tb) :
    Logged fn r.code bar addr size d s { s with dev := logErr fn r bar addr size d } := by
  have hrid : BitVec.ofNat 16 (ridOf d fn) = BitVec.ofNat 16 (s.dev.hif.pfRid.toNat + fn) := by
    apply BitVec.eq_of_toNat_eq
    simp [ridOf, hh]
  unfold Logged logErr pushPerr
  rw [hrid, now, hh, ht, satInc_ovf]
  split
  · exact ⟨⟨rfl, raise_touched 0 1 _⟩, raise_stands 0 1 _ (by decide) (by decide)⟩
  · exact ⟨⟨rfl, raise_touched 0 2 _⟩, raise_stands 0 2 _ (by decide) (by decide)⟩

/-- Logging an access changes no register. -/
theorem regs_logErr (r : Reason) (bar addr : Nat) : (logErr fn r bar addr size d).regs = d.regs := by
  unfold logErr pushPerr
  split
  · rw [raise_touched]
  · rw [raise_touched]

/-- What a rejected write leaves of the registers: a VF's count of them. -/
theorem regs_reject (r : Reason) (bar addr : Nat) :
    (reject fn r bar addr size d).regs = if fn = 0 then d.regs else (incRg (kVfa fn oVFA_WR_DROP) d).regs := by
  unfold reject
  rw [regs_logErr]
  split <;> rfl

/-- A refused write is rejected as R63 says. -/
theorem rejected_of_reject {s : State} {r : Reason} {bar addr : Nat} :
    Rejected fn r.code bar addr size s { s with dev := reject fn r bar addr size s.dev } := by
  have hregs := regs_reject (fn := fn) (size := size) (d := s.dev) r bar addr
  refine ⟨?_, fun k hk => ?_, fun h0 => ?_⟩
  · dsimp only
    rw [hregs, reject]
    split
    · exact logged_of_logErr rfl rfl
    · exact logged_of_logErr (d := incRg (kVfa fn oVFA_WR_DROP) s.dev) rfl rfl
  · rw [rg, hregs]
    split
    · rfl
    · next h0 => exact rg_addRg_other _ _ 1 _ (hk.resolve_right h0)
  · rw [rgN, rg, hregs, if_neg h0]
    exact rgN_incRg _ _

/-! ### The kinds of a write of BAR0 (R40, R46, R471) -/

theorem regWrite_of_width (hoff : off < barBytes fn) (h : size ≠ 4 ∧ size ≠ 8 ∨ off % size ≠ 0) :
    regWrite fn off size v d = reject fn .width 0 off size d := by
  simp only [regWrite, Nat.not_le.2 hoff, if_false, if_pos h]

theorem regWrite_of_absent (hoff : off < barBytes fn) (hsize : size = 4 ∨ size = 8) (ha : off % size = 0)
    (hp : hasPage fn (off / 0x1000) d = false) : regWrite fn off size v d = reject fn .reserved 0 off size d := by
  have hn : ¬ (size ≠ 4 ∧ size ≠ 8 ∨ off % size ≠ 0) := by omega
  simp only [regWrite, Nat.not_le.2 hoff, if_false, hn, hp, Bool.not_false, if_true]

/-- An aligned write of 4 bytes of a present page. -/
theorem regWrite_four (hoff : off < barBytes fn) (ha : off % 4 = 0) (hp : hasPage fn (off / 0x1000) d = true) :
    regWrite fn off 4 v d = write32 fn off (pageOf fn (off / 0x1000)) (v.extractLsb' 0 32) d := by
  simp [regWrite, Nat.not_le.2 hoff, ha, hp]

/-- An aligned write of 8 bytes of a present page. -/
theorem regWrite_eight (hoff : off < barBytes fn) (ha : off % 8 = 0) (hp : hasPage fn (off / 0x1000) d = true) :
    regWrite fn off 8 v d = write64 fn off (pageOf fn (off / 0x1000)) v d := by
  simp [regWrite, Nat.not_le.2 hoff, ha, hp]

section
variable {pg : Nat} {row : RegRow}

theorem write32_of_reserved (ho : 0x40 ≤ off % 0x1000) (h : findRow pg (off % 0x1000) = none) (h4 : findRow pg (off % 0x1000 - 4) = none) :
    write32 fn off pg w d = reject fn .reserved 0 off 4 d := by
  simp only [write32, Nat.not_lt.2 ho, if_false, h, h4]

/-- A 32-bit register. -/
theorem write32_register (ho : 0x40 ≤ off % 0x1000) (h : findRow pg (off % 0x1000) = some row) (hw : row.width = 32) :
    write32 fn off pg w d = perform fn off pg (off % 0x1000) row 4 (w.zeroExtend 64) d := by
  simp [write32, Nat.not_lt.2 ho, h, hw]

/-- The low half of a 64-bit register. -/
theorem write32_low (ho : 0x40 ≤ off % 0x1000) (h : findRow pg (off % 0x1000) = some row) (hw : row.width = 64) :
    write32 fn off pg w d = setWLatch fn (some (off, w)) d := by
  simp [write32, Nat.not_lt.2 ho, h, hw]

/-- The high half of a 64-bit register after its low half. -/
theorem write32_high {low : W32} (ho : 0x40 ≤ off % 0x1000) (h : findRow pg (off % 0x1000) = none)
    (h4 : findRow pg (off % 0x1000 - 4) = some row) (hw : row.width = 64)
    (hl : tabGet (fun _ => none) d.hif.wLatch fn = some (off - 4, low)) :
    write32 fn off pg w d = perform fn off pg (off % 0x1000 - 4) row 4 (w ++ low) (setWLatch fn none d) := by
  simp only [write32, Nat.not_lt.2 ho, if_false, h, h4, hw, ne_eq, not_true_eq_false, hl, if_true]

/-- The high half of a 64-bit register without its low half. -/
theorem write32_high_unlatched (ho : 0x40 ≤ off % 0x1000) (h : findRow pg (off % 0x1000) = none)
    (h4 : findRow pg (off % 0x1000 - 4) = some row) (hw : row.width = 64)
    (hl : (tabGet (fun _ => none) d.hif.wLatch fn).map Prod.fst ≠ some (off - 4)) :
    write32 fn off pg w d = reject fn .width 0 off 4 d := by
  simp only [write32, Nat.not_lt.2 ho, if_false, h, h4, hw, ne_eq, not_true_eq_false]
  split
  · next k low hk => rw [if_neg fun e => hl (by rw [hk, e]; rfl)]
  · rfl

/-- A 64-bit register whole. -/
theorem write64_register (ho : 0x40 ≤ off % 0x1000) (h : findRow pg (off % 0x1000) = some row) (hw : row.width = 64) :
    write64 fn off pg v d = perform fn off pg (off % 0x1000) row 8 v d := by
  simp [write64, Nat.not_lt.2 ho, h, hw]

/-! ### Performed writes (R17, R46, R304) -/

theorem perform_locked {addr o : Nat} (hl : laneless pg d = false) (ha : row.acc = .rwl) (hlock : (hdr pg d).locked = true) :
    perform fn addr pg o row size v d = reject fn .locked 0 addr size d := by
  simp [perform, hl, ha, hlock]

/-- A write that neither lanes nor the lock stop: discarded by a read-only register, taken by another. -/
theorem perform_free {addr o : Nat} (hl : laneless pg d = false) (hu : row.acc ≠ .rwl ∨ (hdr pg d).locked = false) :
    perform fn addr pg o row size v d = if row.acc = .ro then d else writeReg' fn pg o v d := by
  have hn : ¬ (row.acc = .rwl ∧ (hdr pg d).locked = true) := fun ⟨ha, hlock⟩ => hu.elim (fun h => h ha) fun h => by simp [h] at hlock
  simp only [perform, hl, Bool.false_eq_true, if_false, hn]

end

/-! ### A 64-bit register written whole and by halves (R46, R471) -/

/-- The 32 bits of a 4-byte write. -/
theorem low_zeroExtend (w : W32) : (w.zeroExtend 64).extractLsb' 0 32 = w := by
  ext i hi
  simp [show i < 64 by omega, BitVec.getLsbD_eq_getElem hi]

section
variable {row : RegRow}

/-- An aligned 64-bit register written whole. -/
theorem regWrite_whole (hoff : off < barBytes fn) (ha : off % 8 = 0) (hp : hasPage fn (off / 0x1000) d = true) (ho : 0x40 ≤ off % 0x1000)
    (h : findRow (pageOf fn (off / 0x1000)) (off % 0x1000) = some row) (hw : row.width = 64) :
    regWrite fn off 8 v d = perform fn off (pageOf fn (off / 0x1000)) (off % 0x1000) row 8 v d := by
  rw [regWrite_eight hoff ha hp, write64_register ho h hw]

/-- A function's window ends on a multiple of 8. -/
theorem add_four_lt_barBytes (hoff : off < barBytes fn) (ha : off % 8 = 0) : off + 4 < barBytes fn := by
  have hend : barBytes fn % 8 = 0 := by
    unfold barBytes
    split <;> rfl
  omega

/-- The high half written after the low half: the register as one write of 64 bits leaves it, the latch empty. -/
theorem regWrite_highHalf {low : W32} (hoff : off < barBytes fn) (ha : off % 8 = 0) (hp : hasPage fn (off / 0x1000) d = true)
    (ho : 0x40 ≤ off % 0x1000) (h : findRow (pageOf fn (off / 0x1000)) (off % 0x1000) = some row) (hw : row.width = 64)
    (h4 : findRow (pageOf fn (off / 0x1000)) (off % 0x1000 + 4) = none)
    (hl : tabGet (fun _ => none) d.hif.wLatch fn = some (off, low)) :
    regWrite fn (off + 4) 4 (w.zeroExtend 64) d
      = perform fn (off + 4) (pageOf fn (off / 0x1000)) (off % 0x1000) row 4 (w ++ low) (setWLatch fn none d) := by
  have hpage : (off + 4) / 0x1000 = off / 0x1000 := by omega
  have hat : (off + 4) % 0x1000 = off % 0x1000 + 4 := by omega
  rw [regWrite_four (add_four_lt_barBytes hoff ha) (by omega) (by rw [hpage]; exact hp), low_zeroExtend, hpage,
    write32_high (row := row) (low := low) (by omega) (by rw [hat]; exact h4) (by rw [hat]; exact h) hw hl, hat]
  rfl

end

/-! ### Reads of a low half (R46) -/

/-- A 4-byte read of the low half of a 64-bit register, other than one that a read changes: the other half is latched. -/
theorem hostRead_low {row : RegRow} (hoff : off < barBytes fn) (ha : off % 4 = 0) (hp : hasPage fn (off / 0x1000) d = true)
    (ho : 0x40 ≤ off % 0x1000) (hrx : pageOf fn (off / 0x1000) * 0x1000 + off % 0x1000 ≠ rSCE_RXQ)
    (h : findRow (pageOf fn (off / 0x1000)) (off % 0x1000) = some row) (hw : row.width = 64) :
    let pg := pageOf fn (off / 0x1000)
    let x := regValue pg (off % 0x1000) row d
    hostRead fn off 4 d = (x % 2 ^ 32, setRLatch fn (some (canonKey pg (off % 0x1000), BitVec.ofNat 32 (x / 2 ^ 32))) d) := by
  simp only [hasPage, Bool.and_eq_true, Bool.or_eq_true, decide_eq_true_eq] at hp
  obtain ⟨hfn, hpage⟩ := hp
  have hin : ¬ (barBytes fn ≤ off ∨ fn ≠ 0 ∧ 16 ≤ off / 0x1000) := by omega
  simp only [hostRead, if_neg hin]
  simp [ha, read32, hpage, Nat.not_lt.2 ho, hrx, h, hw]

end

/-! ### Two registers of the PF (R49, R382) -/

/-- HIF_DRAM_WIN of an unlocked page takes BASE and ignores the reserved bits. -/
theorem regWrite_dramWin {v : W64} {d : Dev} (hu : (hdr 0 d).locked = false) :
    regWrite 0 0x48 4 v d = setRgN rHIF_DRAM_WIN (fld v 4 0) d := by
  have hrow : findRow (pageOf 0 (0x48 / 0x1000)) (0x48 % 0x1000) = some ⟨0x48, 1, 4, 32, .rwl, 0x0, 0x1F, false⟩ := by decide
  have hlane : laneless (pageOf 0 (0x48 / 0x1000)) d = false := by simp [laneless, pageOf]
  have hstore (u : W64) : writeReg' 0 0 0x48 u d = setRgN rHIF_DRAM_WIN ((u.extractLsb' 0 32).toNat &&& 0x1F) d := rfl
  have hbase : (v.extractLsb' 0 32).toNat &&& 0x1F = fld v 4 0 := by
    rw [show 0x1F = 2 ^ 5 - 1 from rfl, Nat.and_two_pow_sub_one_eq_mod]
    simp [fld]
  rw [regWrite_four (by decide) (by decide) rfl, write32_register (by decide) hrow rfl, perform_free hlane (.inr hu), if_neg (by decide),
    ← hbase]
  exact (hstore _).trans (by rw [low_zeroExtend])

/-- The row of FLASH_XF_HOST. -/
def xfHostRow : RegRow := ⟨0x50, 1, 4, 64, .rw, 0x0, 0xFFFFFFFFFFFFFFFF, false⟩

/-- FLASH_XF_HOST takes the 64 bits written. -/
theorem perform_xfHost {addr size : Nat} {v : W64} {d : Dev} : perform 0 addr 0x141 0x50 xfHostRow size v d = setRg rFLASH_XF_HOST v d := by
  have hlane : laneless 0x141 d = false := by simp [laneless]
  rw [perform_free hlane (.inl (by decide)), if_neg (by decide)]
  rfl

theorem regWrite_xfHost {v : W64} {d : Dev} : regWrite 0 rFLASH_XF_HOST 8 v d = setRg rFLASH_XF_HOST v d := by
  rw [regWrite_whole (row := xfHostRow) (by decide) (by decide) rfl (by decide) (by decide) rfl]
  exact perform_xfHost

theorem regWrite_xfHost_highHalf {w low : W32} {d : Dev} (hl : tabGet (fun _ => none) d.hif.wLatch 0 = some (rFLASH_XF_HOST, low)) :
    regWrite 0 (rFLASH_XF_HOST + 4) 4 (w.zeroExtend 64) d = setRg rFLASH_XF_HOST (w ++ low) (setWLatch 0 none d) := by
  rw [regWrite_highHalf (row := xfHostRow) (by decide) (by decide) rfl (by decide) (by decide) rfl (by decide) hl]
  exact perform_xfHost

theorem onlyRegisters_setRg (k : Nat) (v : W64) (s : State) : OnlyRegisters [k] s { s with dev := setRg k v s.dev } :=
  ⟨rfl, rfl, fun j hj => (rg_setRg _ _ _ _).trans (if_neg (by simpa using hj))⟩

/-! ### O2 -/


theorem rejectedRegisterWrites : RejectedRegisterWrites := by
  intro s fn off size v w row hr hoff pg o rejected
  have run {r : Reason} {cmd : Instr} {f : Dev → Dev} {n : Nat} (hx : exec cmd s = onDev (fromHost fn f) s)
      (hf : f s.dev = reject fn r 0 off n s.dev) : rejected cmd r.code n :=
    ⟨_, hx.trans (onDev_fromHost hr hf), rejected_of_reject⟩
  refine ⟨fun h => run rfl (regWrite_of_width hoff h), fun hs ha hp => run rfl (regWrite_of_absent hoff hs ha hp), fun ha hp ho => ⟨?_, ?_, ?_⟩⟩
  · intro h h4
    exact run rfl ((regWrite_four hoff ha hp).trans (write32_of_reserved ho h h4))
  · intro h h4 hw hl
    exact run rfl ((regWrite_four hoff ha hp).trans (write32_high_unlatched ho h h4 hw hl))
  · intro h hw hl
    have hperf := (regWrite_four (v := v) hoff ha hp).trans (write32_register ho h hw)
    refine ⟨fun hro => ?_, fun hrwl hlock => run rfl (hperf.trans (perform_locked hl hrwl hlock))⟩
    rw [perform_free hl (.inl (by rw [hro]; decide)), if_pos hro] at hperf
    exact onDev_fromHost hr hperf

theorem performedRegisterAccesses : PerformedRegisterAccesses := by
  intro s fn off v w low row hr hoff pg o
  refine ⟨?_, ?_, ?_, fun ha hp ho h hw => ⟨?_, ?_, ?_⟩⟩
  · rintro hu rfl
    have hfld : fld v 4 0 < 2 ^ 5 := Nat.mod_lt _ (by decide)
    exact ⟨_, onDev_fromHost hr (regWrite_dramWin hu), onlyRegisters_setRg _ _ _, rgN_setRgN _ _ _ (by omega)⟩
  · rintro rfl
    exact ⟨_, onDev_fromHost hr regWrite_xfHost, onlyRegisters_setRg _ _ _, (rg_setRg _ _ _ _).trans (if_pos rfl)⟩
  · rintro rfl hl
    exact ⟨_, onDev_fromHost hr (regWrite_xfHost_highHalf hl), onlyRegisters_setRg _ _ _, (rg_setRg _ _ _ _).trans (if_pos rfl)⟩
  · refine onDev_fromHost hr ?_
    rw [regWrite_four hoff ha hp, write32_low ho h hw, low_zeroExtend]
    rfl
  · intro h4 _ ha8 hl hlane hu
    have hwhole := regWrite_whole (v := w ++ low) (d := setWLatch fn none s.dev) hoff ha8 hp ho h hw
    rw [perform_free (d := setWLatch fn none s.dev) hlane hu] at hwhole
    have hhigh := regWrite_highHalf (w := w) hoff ha8 hp ho h hw h4 hl
    rw [perform_free (d := setWLatch fn none s.dev) hlane hu] at hhigh
    exact (onDev_fromHost hr hhigh).trans (onDev_fromHost (s := { s with dev := setWLatch fn none s.dev }) hr hwhole).symm
  · intro hrx
    exact onDev_fromHost hr (by rw [anyRead, if_pos rfl, answer, hostRead_low hoff ha hp ho hrx h hw]; rfl)

/-- Settles O2: what is rejected (`rejectedRegisterWrites`) and what is performed (`performedRegisterAccesses`). -/
theorem registerAccesses : Obligations.RegisterAccesses := ⟨rejectedRegisterWrites, performedRegisterAccesses⟩

end Sys2Proof.Machine
end

section
/-! PROOF. O7: configuration writes and function-level resets on receipt. What a change of the host's path does to the spools is notes
(`Noted.spoolCheckAll`); headers return to reset page by page (`HeadersReset`); rings stop one by one (`Stopped`). -/
namespace Sys2Proof.Machine

/-! ### The interface's own state -/

/-- The device with another state of the host interface. -/
def withHif (h : Hif) (d : Dev) : Dev := { d with hif := h }

theorem slots_withHif (h : Hif) (d : Dev) : (withHif h d).slots = d.slots := rfl
theorem rings_withHif (h : Hif) (d : Dev) : (withHif h d).rings = d.rings := rfl
theorem hdr_withHif (q : Nat) (h : Hif) (d : Dev) : hdr q (withHif h d) = hdr q d := rfl
theorem ring_withHif (k : Nat) (h : Hif) (d : Dev) : ring k (withHif h d) = ring k d := rfl

/-! ### A change of the host's path is noted by the spools (R366) -/

section
variable {K : Set Nat} {a d : Dev}

protected theorem Noted.modSpool {p f} (w : Noted K a d) : Noted K a (modSpool p f d) := w.modRec

protected theorem Noted.recRecord {typ p b12 v} (w : Noted K a d) : Noted K a (recRecord typ p b12 v d) := w.ringOffer

protected theorem Noted.spoolCheck {p} (w : Noted K a d) : Noted K a (spoolCheck p d) := by
  unfold Machine.spoolCheck
  extract_lets sp r freed d1 why
  have w1 : Noted K a d1 := .ite w w.modSpool
  exact .ite w1.modSpool (.ite (w1.modSpool.recRecord.raise (by decide)) w1)

protected theorem Noted.spoolCheckAll (w : Noted K a d) : Noted K a (spoolCheckAll d) := w.foldl fun _ _ h => h.spoolCheck

end

theorem Noted.hif {K : Set Nat} {d e : Dev} (w : Noted K d e) : { e.hif with msgs := [] } = { d.hif with msgs := [] } :=
  congrArg (fun x => x.hif) w.same
theorem Noted.busMaster {K : Set Nat} {d e : Dev} (w : Noted K d e) : e.hif.busMaster = d.hif.busMaster := (congrArg Hif.busMaster w.hif :)
theorem Noted.vfBus {K : Set Nat} {d e : Dev} (w : Noted K d e) : e.hif.vfBus = d.hif.vfBus := (congrArg Hif.vfBus w.hif :)
theorem Noted.pfRid {K : Set Nat} {d e : Dev} (w : Noted K d e) : e.hif.pfRid = d.hif.pfRid := (congrArg Hif.pfRid w.hif :)
theorem Noted.tb {K : Set Nat} {d e : Dev} (w : Noted K d e) : e.tb = d.tb := congrArg (fun x => x.tb) w.same

/-- Without spools there is nothing to check. -/
theorem spoolCheckAll_of_none {d : Dev} (h : d.recd.spools = []) : spoolCheckAll d = d := by rw [spoolCheckAll, h]; rfl

/-! ### A function's KEY staging is zeroed (R162) -/

/-- From `d` to `e` only registers changed. -/
def RegsOnly (d e : Dev) : Prop := e = { d with regs := e.regs }

theorem RegsOnly.trans {a d e : Dev} (w : RegsOnly a d) (v : RegsOnly d e) : RegsOnly a e := by
  unfold RegsOnly at *
  rw [w] at v
  exact v

theorem RegsOnly.foldl {a : Dev} {f : Dev → Nat → Dev} (hf : ∀ d i, RegsOnly d (f d i)) :
    ∀ (l : List Nat) {d : Dev}, RegsOnly a d → RegsOnly a (l.foldl f d)
  | [], _, w => w
  | i :: l, d, w => RegsOnly.foldl hf l (w.trans (hf d i))

theorem regsOnly_setRgN (k n : Nat) (d : Dev) : RegsOnly d (setRgN k n d) := rfl

theorem regsOnly_zeroStaging (p : Nat) (d : Dev) : RegsOnly d (zeroStaging p d) :=
  have staged : RegsOnly d (setRgN (kKey p oKEY_ROC) 0 (setRgN (kKey p oKEY_MKI) 0 d)) := rfl
  .foldl (fun x _ => regsOnly_setRgN _ _ x) _ (.foldl (fun x _ => regsOnly_setRgN _ _ x) _ staged)

/-! ### Headers at reset (R38, R45) -/

/-- From `d` to `e` registers, frozen values and headers changed only, and of the headers those of `ps` returned to reset with their locks. -/
structure HeadersReset (ps : List Nat) (d e : Dev) : Prop where
  same : e = { d with regs := e.regs, pages := e.pages, frozen := e.frozen }
  hdrs : ∀ q, hdr q e = if q ∈ ps then { Hdr.reset with locked := (hdr q d).locked } else hdr q d

section
variable {ps qs : List Nat} {a d e : Dev}

theorem HeadersReset.trans (w : HeadersReset ps a d) (v : HeadersReset qs d e) : HeadersReset (ps ++ qs) a e where
  same := by
    have h := v.same
    rw [w.same] at h
    exact h
  hdrs q := by
    rw [v.hdrs, w.hdrs]
    by_cases hp : q ∈ ps
    · simp [hp]
    · simp [hp]

theorem HeadersReset.foldl {α : Type} {f : α → Nat} {g : Dev → α → Dev} (hg : ∀ d x, HeadersReset [f x] d (g d x)) :
    ∀ (l : List α) (d : Dev), HeadersReset (l.map f) d (l.foldl g d)
  | [], _ => ⟨rfl, fun _ => rfl⟩
  | x :: l, d => (hg d x).trans (HeadersReset.foldl hg l (g d x))

theorem headersReset_headerReset (pg : Nat) (d : Dev) : HeadersReset [pg] d (headerReset pg d) where
  same := rfl
  hdrs q := by
    have h : hdr q (headerReset pg d) = if q = pg then { Hdr.reset with locked := (hdr pg d).locked } else hdr q d :=
      hdr_modHdr pg q _ (freezePage pg false d)
    rw [h]
    by_cases hq : q = pg
    · simp [hq]
    · simp [hq]

theorem headersReset_resetVfa (p : Nat) (d : Dev) : HeadersReset [vfPage p 0] d (resetVfa p d) where
  same := rfl
  hdrs := (headersReset_headerReset (vfPage p 0) { d with regs := tabFilter (fun k _ => decide (k / 0x1000 ≠ vfPage p 0)) d.regs }).hdrs

theorem HeadersReset.hif (w : HeadersReset ps d e) : e.hif = d.hif := by rw [w.same]
theorem HeadersReset.rings (w : HeadersReset ps d e) : e.rings = d.rings := by rw [w.same]
theorem HeadersReset.slots (w : HeadersReset ps d e) : e.slots = d.slots := by rw [w.same]

/-- The pages of a VF lie above the PF's. -/
theorem le_vfPage (p k : Nat) : 0x1000 ≤ vfPage p k := by
  unfold vfPage
  omega

theorem HeadersReset.hdr_pf {l : List Nat} {f : Nat → Nat} (w : HeadersReset (l.map f) d e) (hf : ∀ x, 0x1000 ≤ f x) {q : Nat} (hq : q < 0x1000) :
    hdr q e = hdr q d := by
  rw [w.hdrs, if_neg]
  rw [List.mem_map]
  rintro ⟨x, -, rfl⟩
  exact absurd (hf x) (by omega)

/-! ### The HIF and ATN pages at reset (R38) -/

/-- What the reset of the HIF and ATN pages changes: registers, frozen values, headers, the FIFO and IRQ_N. -/
theorem resetHifAtn_same (keep : Bool) (d : Dev) : resetHifAtn keep d = { d with
    regs := (resetHifAtn keep d).regs, pages := (resetHifAtn keep d).pages, frozen := (resetHifAtn keep d).frozen,
    outbox := (resetHifAtn keep d).outbox, hif := { d.hif with perr := [], ovf := 0 } } := by
  unfold resetHifAtn driveIrq
  extract_lets fresh d1 lvl
  split <;> rfl

theorem hdr_resetHifAtn (q : Nat) (d : Dev) :
    hdr q (resetHifAtn true d) = if q < 2 then { Hdr.reset with locked := (hdr q d).locked } else hdr q d := by
  have hpages : hdr q (resetHifAtn true d) = hdr q (modHdr 0 (fun h => { Hdr.reset with locked := h.locked })
      (modHdr 1 (fun h => { Hdr.reset with locked := h.locked }) d)) := by
    rw [hdr, resetHifAtn, driveIrq_pages]
    rfl
  rw [hpages]
  match q with
  | 0 => simp
  | 1 => simp
  | q + 2 => simp

end

/-! ### Rings stopped (R38) -/

/-- The ring is disabled and its indices are 0. -/
def Stopped (r : Ring) : Prop := r.enable = false ∧ r.prod = 0 ∧ r.cons = 0

theorem tabGet_of_notMem {α : Type} {dflt : Nat → α} {k : Nat} : ∀ {t : Tab α}, k ∉ t.map Prod.fst → tabGet dflt t k = dflt k
  | [], _ => rfl
  | (j, v) :: t, h => by
    rw [List.map_cons, List.mem_cons, not_or] at h
    rw [tabGet, if_neg (Ne.symm h.1)]
    exact tabGet_of_notMem h.2

/-- What a PF reset does to one ring. -/
def pfStop (d : Dev) (k : Nat) : Dev := if k < 4 then clearRing k d else if k < 0x10000 then stopRing k d else d

/-- From `d` to `e` only rings changed. -/
def RingsOnly (d e : Dev) : Prop := e = { d with rings := e.rings }

theorem RingsOnly.trans {a d e : Dev} (w : RingsOnly a d) (v : RingsOnly d e) : RingsOnly a e := by
  unfold RingsOnly at *
  rw [w] at v
  exact v

theorem ringsOnly_pfStop (d : Dev) (k : Nat) : RingsOnly d (pfStop d k) := by
  unfold pfStop
  split
  · rfl
  · split <;> rfl

theorem ringsOnly_foldl_pfStop : ∀ (l : List Nat) (d : Dev), RingsOnly d (l.foldl pfStop d)
  | [], _ => rfl
  | k :: l, d => (ringsOnly_pfStop d k).trans (ringsOnly_foldl_pfStop l (pfStop d k))

theorem ring_pfStop_same {k : Nat} (d : Dev) (hk : k < 0x10000) : Stopped (ring k (pfStop d k)) := by
  unfold pfStop
  split
  · simp [clearRing, Stopped, Ring.reset]
  · simp [stopRing, Stopped]

theorem ring_pfStop_other {j k : Nat} (d : Dev) (h : j ≠ k) : ring j (pfStop d k) = ring j d := by
  unfold pfStop
  split
  · simp [clearRing, h]
  · split
    · simp [stopRing, h]
    · rfl

theorem foldl_pfStop_stopped {j : Nat} (hj : j < 0x10000) : ∀ (l : List Nat) (d : Dev), j ∈ l ∨ Stopped (ring j d) →
    Stopped (ring j (l.foldl pfStop d))
  | [], _, h => h.resolve_left (by simp)
  | k :: l, d, h => by
    refine foldl_pfStop_stopped hj l (pfStop d k) ?_
    by_cases hk : j = k
    · subst hk
      exact .inr (ring_pfStop_same d hj)
    · rw [ring_pfStop_other d hk]
      simpa [hk] using h

/-- Every ring of the functions is stopped once each ring listed has been. -/
theorem stopped_of_all {j : Nat} (d : Dev) (hj : j < 0x10000) : Stopped (ring j ((d.rings.map Prod.fst).foldl pfStop d)) := by
  refine foldl_pfStop_stopped hj _ d ?_
  by_cases h : j ∈ d.rings.map Prod.fst
  · exact .inl h
  · exact .inr (by rw [ring, tabGet_of_notMem h]; exact ⟨rfl, rfl, rfl⟩)

/-! ### Configuration writes (R37, R58, R63) -/

/-- The PF captures its bus and device number. -/
def captured (bd : BitVec 16) (d : Dev) : Dev := { d with hif := { d.hif with pfRid := bd &&& 0xFFF8 } }

/-- Bus Master Enable of the PF. -/
def withBusMaster (on : Bool) (d : Dev) : Dev := { d with hif := { d.hif with busMaster := on } }
/-- Bus Master Enable of a VF. -/
def withVfBusMaster (p : Nat) (on : Bool) (d : Dev) : Dev :=
  { d with hif := { d.hif with vfBus := tabSet (fun _ => false) d.hif.vfBus p on } }

section
variable {bd : BitVec 16} {d : Dev}

/-- A configuration write reaches the device over a trained link (R37). -/
theorem reached_config (h : HostUp d) : (d.hif.perst || !d.hif.linkUp || !d.hif.pfReady) = false := by
  obtain ⟨hperst, hlink, hready⟩ := h
  simp [hperst, hlink, hready]

theorem configWrite_other (h : HostUp d) : configWrite bd .other d = captured bd d := by
  simp only [configWrite, reached_config h, Bool.false_eq_true, if_false]
  rfl

theorem configWrite_vfEnable {on : Bool} {n : Nat} (h : HostUp d) (hrec : d.pwr.recovery = false) :
    configWrite bd (.vfEnable on n) d = { captured bd d with hif := { (captured bd d).hif with
      vfEnable := on, numVFs := if on = true then min n 1023 else 0, vfBus := if on = true then d.hif.vfBus else [] } } := by
  simp only [configWrite, reached_config h, Bool.false_eq_true, if_false, hrec, Bool.false_and]
  rfl

theorem configWrite_busMaster {on : Bool} (h : HostUp d) :
    configWrite bd (.busMaster on) d = spoolCheckAll (withBusMaster on (captured bd d)) := by
  simp only [configWrite, reached_config h, Bool.false_eq_true, if_false]
  rfl

theorem configWrite_vfBusMaster {p : Nat} {on : Bool} (h : HostUp d) (hp : vfExists d p = true) :
    configWrite bd (.vfBusMaster p on) d = spoolCheckAll (withVfBusMaster p on (captured bd d)) := by
  have hp' : vfExists (captured bd d) p = true := hp
  simp only [configWrite, reached_config h, Bool.false_eq_true, if_false]
  exact if_pos hp'

end

/-! ### A VF reset on receipt (R38) -/

/-- The headers of a VF's eight pages reset, in order. -/
def resetVfHeaders (p : Nat) (d : Dev) : Dev := (List.range 8).foldl (fun x k => headerReset (vfPage p k) x) d

theorem headersReset_resetVfHeaders (p : Nat) (d : Dev) : HeadersReset ((List.range 8).map (vfPage p)) d (resetVfHeaders p d) :=
  .foldl (fun x k => headersReset_headerReset (vfPage p k) x) _ d

/-- The interface's state of a function is empty (R471, R58). -/
def clearedHif (fn : Nat) (h : Hif) : Hif :=
  { h with
    wLatch := tabSet (fun _ => none) h.wLatch fn none
    rLatch := tabSet (fun _ => none) h.rLatch fn none
    masked := tabSet (fun _ => false) h.masked fn false
    pba := tabSet (fun _ => false) h.pba fn false
    msgs := h.msgs.filter fun m => decide (m.1 ≠ fn) }

theorem clearFn_same (fn : Nat) (d : Dev) : clearFn fn d = { d with regs := (clearFn fn d).regs, hif := clearedHif fn d.hif } := by
  have h : clearFn fn d = zeroStaging fn { d with hif := clearedHif fn d.hif } := rfl
  rw [h]
  exact regsOnly_zeroStaging fn _

/-- A VF reset of a VF that exists: its interface state cleared, its headers reset, and the reset noted for the boundary. -/
theorem vfFlr_eq {p : Nat} {d : Dev} (hp : vfExists d p = true) :
    vfFlr p d = withHif { clearedHif p d.hif with flr := d.hif.flr ++ [p], vfBus := tabSet (fun _ => false) d.hif.vfBus p false }
      (resetVfHeaders p (clearFn p d)) := by
  have hrun : vfFlr p d = withHif { (resetVfHeaders p (clearFn p d)).hif with
      flr := (resetVfHeaders p (clearFn p d)).hif.flr ++ [p],
      vfBus := tabSet (fun _ => false) (resetVfHeaders p (clearFn p d)).hif.vfBus p false } (resetVfHeaders p (clearFn p d)) := by
    rw [vfFlr, hp]
    rfl
  have hhif : (resetVfHeaders p (clearFn p d)).hif = clearedHif p d.hif := by
    rw [(headersReset_resetVfHeaders p (clearFn p d)).hif, clearFn_same]
  rw [hrun, hhif]
  rfl

/-! ### A PF reset on receipt (R38) -/

/-- The change of a PF reset before it reaches the interface's own state and the spools. -/
def PfReset (d e : Dev) : Prop :=
  e = { d with regs := e.regs, pages := e.pages, frozen := e.frozen, outbox := e.outbox, rings := e.rings,
               hif := { d.hif with perr := e.hif.perr, ovf := e.hif.ovf } }

section
variable {a d e : Dev}

theorem PfReset.trans (w : PfReset a d) (v : PfReset d e) : PfReset a e := by
  unfold PfReset at *
  rw [w] at v
  exact v

theorem PfReset.hif (w : PfReset d e) : e.hif = { d.hif with perr := e.hif.perr, ovf := e.hif.ovf } := congrArg (fun x => x.hif) w
theorem PfReset.slots (w : PfReset d e) : e.slots = d.slots := congrArg (fun x => x.slots) w
theorem PfReset.recd (w : PfReset d e) : e.recd = d.recd := congrArg (fun x => x.recd) w

theorem HeadersReset.pfReset {ps : List Nat} (w : HeadersReset ps d e) : PfReset d e := by
  unfold PfReset
  rw [w.same]

theorem RingsOnly.pfReset (w : RingsOnly d e) : PfReset d e := by
  unfold PfReset
  rw [w]

theorem pfReset_regs (d : Dev) (r : Tab W64) : PfReset d { d with regs := r } := rfl

theorem pfReset_zeroStaging (p : Nat) (d : Dev) : PfReset d (zeroStaging p d) := by
  unfold PfReset
  rw [regsOnly_zeroStaging]

theorem pfReset_resetHifAtn (keep : Bool) (d : Dev) : PfReset d (resetHifAtn keep d) := by
  unfold PfReset
  rw [resetHifAtn_same]

end

/-- Every ring stopped, as a PF reset does. -/
def pfRings (d : Dev) : Dev := (d.rings.map Prod.fst).foldl pfStop d

/-- The VFs whose VFA pages have headers. -/
def vfsWithHeaders (d : Dev) : List Nat :=
  ((d.pages.map Prod.fst).filter fun pg => decide (0x1000 ≤ pg) && decide (pg % 16 = 0)).map fun pg => (pg - 0x1000) / 16

/-- The rings stopped and the registers of the VFA pages at reset. -/
def pfStart (d : Dev) : Dev :=
  { pfRings d with regs := tabFilter (fun k _ => decide (k < 0x1000000) || decide (k / 0x1000 % 16 ≠ 0)) (pfRings d).regs }

/-- The VFA pages of every VF at reset, once the rings are stopped. -/
def pfVfas (d : Dev) : Dev := (vfsWithHeaders d).foldl (fun x p => resetVfa p x) (pfStart d)

/-- The pages a PF reset returns to reset at once. -/
def pfPages (d : Dev) : Dev := zeroStaging 0 (setRg rHIF_LINK (rg rHIF_LINK d) (resetHifAtn true (pfVfas d)))

/-- A PF reset that reaches the device: the pages, then the interface's own state, then the spools. -/
theorem pfFlr_eq {d : Dev} (h : HostUp d) : pfFlr d = spoolCheckAll (withHif { (pfPages d).hif with
    vfEnable := false, numVFs := 0, busMaster := false, vfBus := [], wLatch := [], rLatch := [], masked := [], pba := [], msgs := [],
    flr := (pfPages d).hif.flr ++ [0] } (pfPages d)) := by
  rw [pfFlr, reached_config h]
  rfl

theorem headersReset_pfVfas (d : Dev) : HeadersReset ((vfsWithHeaders d).map fun p => vfPage p 0) (pfStart d) (pfVfas d) :=
  .foldl (fun x p => headersReset_resetVfa p x) _ _

theorem pfReset_pfVfas (d : Dev) : PfReset d (pfVfas d) :=
  have rings : PfReset d (pfRings d) := (ringsOnly_foldl_pfStop _ d).pfReset
  (rings.trans (pfReset_regs _ _)).trans (headersReset_pfVfas d).pfReset

theorem pfReset_pfPages (d : Dev) : PfReset d (pfPages d) :=
  have hif : PfReset d (resetHifAtn true (pfVfas d)) := (pfReset_pfVfas d).trans (pfReset_resetHifAtn true _)
  (hif.trans (pfReset_regs _ _)).trans (pfReset_zeroStaging 0 _)

/-- The last two steps change registers only. -/
theorem pfPages_same (d : Dev) : pfPages d = { resetHifAtn true (pfVfas d) with regs := (pfPages d).regs } :=
  regsOnly_zeroStaging 0 (setRg _ _ _)

theorem pfPages_rings (d : Dev) : (pfPages d).rings = (pfRings d).rings := by
  rw [pfPages_same, resetHifAtn_same, (headersReset_pfVfas d).rings]
  rfl

theorem pfPages_hif (d : Dev) : (pfPages d).hif = { d.hif with perr := [], ovf := 0 } := by
  rw [pfPages_same, resetHifAtn_same, (pfReset_pfVfas d).hif]

theorem hdr_pfPages (d : Dev) {q : Nat} (hq : q < 0x1000) :
    hdr q (pfPages d) = if q < 2 then { Hdr.reset with locked := (hdr q d).locked } else hdr q d := by
  have hvfas : hdr q (pfVfas d) = hdr q d := by
    rw [(headersReset_pfVfas d).hdr_pf (fun p => le_vfPage p 0) hq, hdr, pfStart, pfRings, ringsOnly_foldl_pfStop]
    rfl
  have h : hdr q (pfPages d) = hdr q (resetHifAtn true (pfVfas d)) := by rw [hdr, pfPages_same]; rfl
  rw [h, hdr_resetHifAtn, hvfas]

/-! ### O7 -/

/-- Settles O7: a configuration write is one change of the interface, which the spools note (`Noted.spoolCheckAll`); a VF reset leaves the VF's
headers at reset (`headersReset_resetVfHeaders`); a PF reset stops every ring (`stopped_of_all`) and resets the two pages (`hdr_pfPages`). -/
theorem configurationAndFunctionResets : Obligations.ConfigurationAndFunctionResets := by
  intro s bd on n p hup h
  refine ⟨onDev_eq (configWrite_other hup), fun hrec => onDev_eq (configWrite_vfEnable hup hrec), ?_, fun hp => ?_, fun hp => ?_,
    fun hnone => ?_⟩
  · have w := (Noted.refl (K := ∅) (d := withBusMaster on (captured bd s.dev))).spoolCheckAll
    exact ⟨_, onDev_eq (configWrite_busMaster hup), rfl, w.busMaster, w.pfRid, w.slots, w.tb⟩
  · have w := (Noted.refl (K := ∅) (d := withVfBusMaster p on (captured bd s.dev))).spoolCheckAll
    refine ⟨_, onDev_eq (configWrite_vfBusMaster hup hp), rfl, ?_, w.pfRid, w.slots, w.tb⟩
    rw [w.vfBus]
    exact (tabGet_tabSet _ _ _ _ _).trans (if_pos rfl)
  · have w := headersReset_resetVfHeaders p (clearFn p s.dev)
    have hclear := clearFn_same p s.dev
    have hlatch : tabGet (fun _ => none) (clearedHif p s.dev.hif).wLatch p = none := by simp [clearedHif]
    have hmsgs : ∀ m ∈ (clearedHif p s.dev.hif).msgs, m.1 ≠ p := by simp [clearedHif]
    have hslots : (clearFn p s.dev).slots = s.dev.slots := by rw [hclear]
    have hrings : (clearFn p s.dev).rings = s.dev.rings := by rw [hclear]
    have hhdr (q : Nat) : hdr q (clearFn p s.dev) = hdr q s.dev := by rw [hdr, hclear]; rfl
    refine ⟨_, onDev_fromHost ⟨hup, rfl⟩ (vfFlr_eq hp), rfl, rfl, hlatch, hmsgs,
      (slots_withHif _ _).trans (w.slots.trans hslots), (rings_withHif _ _).trans (w.rings.trans hrings), fun k hk => ?_,
      fun q hq => (hdr_withHif _ _ _).trans ((w.hdr_pf (le_vfPage p) hq).trans (hhdr q))⟩
    rw [← hhdr]
    exact (hdr_withHif _ _ _).trans <| (w.hdrs _).trans (if_pos (List.mem_map_of_mem (List.mem_range.2 hk)))
  · have w := pfReset_pfPages s.dev
    have hspools : (pfPages s.dev).recd.spools = [] := by rw [w.recd]; exact hnone
    have hrun := (pfFlr_eq hup).trans (spoolCheckAll_of_none hspools)
    rw [pfPages_hif] at hrun
    refine ⟨_, onDev_eq (F := pfFlr) hrun, rfl, rfl, rfl, rfl, rfl, rfl, rfl, (slots_withHif _ _).trans w.slots,
      fun k hk => ?_, fun q hq => ?_, fun q h2 hq _ => ?_⟩
    · have hring : ring k (pfPages s.dev) = ring k (pfRings s.dev) := by rw [ring, pfPages_rings]; rfl
      change Stopped (ring k (withHif _ (pfPages s.dev)))
      rw [ring_withHif, hring]
      exact stopped_of_all s.dev (by omega)
    · exact (hdr_withHif _ _ _).trans ((hdr_pfPages s.dev (by omega)).trans (if_pos hq))
    · exact (hdr_withHif _ _ _).trans ((hdr_pfPages s.dev (by omega)).trans (if_neg (by omega)))

end Sys2Proof.Machine
end

section
/-! PROOF. O3 and O11 fail, each in one clause, at one state. -/
namespace Sys2Proof.Machine

/-! ### O3: a read of a poisoned word (R121, R123) -/

/-- The host reaches the device, and the first word of the Basin was written with poisoned check bits (R121). -/
def poisonedBasin : State :=
  { State.reset with dev := { State.reset.dev with
    hif := { State.reset.dev.hif with perst := false, linkUp := true, pfReady := true }, poison := [0] } }

/-- A register after a command that completes. -/
def regAfter (k : Nat) : Host.Outcome State Fault Refusal → Nat
  | .next t => rgN k t.dev
  | _ => 0

/-- The read is handled as a reader that meets an uncorrectable word: BASIN_UE_CNT counts it (R123). -/
theorem poisonedBasin_read_counted : regAfter rBASIN_UE_CNT (exec (.bar2Read 0 8) poisonedBasin) = 1 := by decide

/-- Refutes O3: that a read of a Basin word leaves the device as it was but for the answer fails for a poisoned word, which the model counts
and reports as R123 says of any reader. -/
theorem not_wordWindow : ¬ Obligations.WordWindow := by
  intro h
  obtain ⟨hbasin, -⟩ := h poisonedBasin 0 0 0 ⟨rfl, rfl, rfl⟩ (by decide)
  obtain ⟨-, hread⟩ := hbasin (by decide) (by decide)
  have hcount := congrArg (regAfter rBASIN_UE_CNT) hread
  rw [poisonedBasin_read_counted] at hcount
  exact absurd hcount (by decide)

/-! ### O11: a UNIT_FAULT that folds under itself (R60) -/

/-- A device in SERVICE whose list of causes latched on this tick names the Time Base's UNIT_FAULT with the Time Base as its fold source. No
command of the model makes this entry; the statement says nothing of the list. -/
def selfCharged : State :=
  { State.reset with dev := { State.reset.dev with
    raised := [(0x10, 0, 0x10, 0)], pwr := { State.reset.dev.pwr with st := .service } } }

/-- The loss of the reference sets UNIT_FAULT, and the causes listed under it on that tick, itself among them, fold (R60). -/
theorem selfCharged_unitFault_folds : bit (hdr 0x10 (refLoss selfCharged.dev)).cause 0 = false := by decide

/-- Refutes O11: that UNIT_FAULT stands after the loss of the reference fails at a state that lists it under itself; the statement
quantifies over every state and its hypotheses do not exclude this one. -/
theorem not_servoSecondsAndPulses : ¬ Obligations.ServoSecondsAndPulses := by
  rintro ⟨hservo, -⟩
  obtain ⟨-, -, -, -, -, hloss, -⟩ := hservo selfCharged 0 0 rfl (by decide) rfl
  obtain ⟨t, ht, -, -, -, hup⟩ := hloss rfl
  cases ht
  exact absurd (selfCharged_unitFault_folds.symm.trans hup) (by decide)

end Sys2Proof.Machine
end

section
/-! PROOF. O8, O9 and O10: the tick of the counter, what the host writes of the Time Base, and a step applied. A cause raised on the way leaves
the Time Base, the Weir and the registers as they were (`Touched`), so each operation is said once by what it makes of the Time Base. -/
namespace Sys2Proof.Machine

/-! ### What a raised cause leaves -/

section
variable {d e : Dev}

theorem Touched.tb (h : Touched d e) : e.tb = d.tb := by rw [h]
theorem Touched.weir (h : Touched d e) : e.weir = d.weir := by rw [h]
theorem Touched.regs (h : Touched d e) : e.regs = d.regs := by rw [h]

end

/-- A cause other than UNIT_FAULT raised on a device `d`: the device became `d`, and the cause stands (R44). -/
theorem became_raise {s : State} {d : Dev} {pg b : Nat} (hb : b ≠ 0) (h32 : b < 32) :
    Became d s { s with dev := raise pg b d } ∧ CauseUp pg b { s with dev := raise pg b d } :=
  ⟨⟨rfl, raise_touched pg b d⟩, raise_stands pg b d hb h32⟩

/-! ### The tick (R72, R73, R75, R76) -/

/-- The increment of the next tick when no step awaits it: one written is used, unless the last frequency is held (R73, R75). -/
def tickInc (b : TimeBase) : BitVec 40 := if b.refHold.isSome then b.inc else b.incNext.getD b.inc

/-- The Time Base after that tick, its wrap left out (R72, R80, R89). -/
def ticked (b : TimeBase) : TimeBase :=
  { b with
    acc := BitVec.ofNat 64 (b.acc.toNat + (tickInc b).toNat), inc := tickInc b, incNext := if b.refHold.isSome then b.incNext else none
    since := b.since + 1, ticks := b.ticks + 1
    incRuns := if servoSteers b then keepRuns meanTicks (noteRun (tickInc b) b.incRuns) else b.incRuns
    sinceLocked := if b.servo = .locked then 0 else b.sinceLocked + (tickInc b).toNat }

/-- The Time Base after a wrap of NT32 (R76). -/
def wrapped (b : TimeBase) : TimeBase := { b with extHi := b.extHi + 1, extNext := b.extHi + 1 }

section
variable {d : Dev}

theorem tbTick_of_no_step (h : d.tb.step = none) :
    tbTick d = if d.tb.acc.toNat + (tickInc d.tb).toNat < 2 ^ 64 then modTb ticked d else ntWrap (modTb ticked d) := by
  simp only [tbTick, h, Bool.or_false]
  rfl

theorem ntWrap_of_loaded (h : d.tb.extNext = d.tb.extHi + 1) : ntWrap d = modTb wrapped d := if_pos h

theorem ntWrap_of_mismatch (h : d.tb.extNext ≠ d.tb.extHi + 1) : ntWrap d = raise 0x10 8 (modTb wrapped d) := if_neg h

end

/-- Settles O8: a tick is `ticked` (`tbTick_of_no_step`), and a wrap is `wrapped`, with EXT_MISMATCH where TB_EXT_NEXT did not hold the value. -/
theorem ticksAdvanceTime : Obligations.TicksAdvanceTime := by
  intro s v hstep
  have tick := tbTick_of_no_step hstep
  refine ⟨fun hsum => ?_, fun hsum hnext => ?_, fun hsum hnext => ?_, rfl, rfl⟩
  · exact onDev_eq (tick.trans (if_pos hsum))
  · exact onDev_eq ((tick.trans (if_neg hsum.not_gt)).trans (ntWrap_of_loaded (d := modTb ticked s.dev) hnext))
  · exact ⟨_, onDev_eq ((tick.trans (if_neg hsum.not_gt)).trans (ntWrap_of_mismatch (d := modTb ticked s.dev) hnext)),
      became_raise (by decide) (by decide)⟩

/-! ### Increments and steps the host writes (R73, R74, R79) -/

section
variable {d : Dev} {w : W64} {S : Int}

theorem incOk_iff (n : Nat) : incOk n = true ↔ 0x13FD70A3E ≤ n ∧ n ≤ 0x14028F5C2 := by simp [incOk]

/-- The low 40 bits of a word, as the number TB_INC is written with and as bits. -/
theorem ofNat_fld_inc (w : W64) : BitVec.ofNat 40 (fld w 39 0) = w.extractLsb' 0 40 := by
  apply BitVec.eq_of_toNat_eq
  simp [fld]

theorem incWrite_of_ok (hsrc : d.tb.src = 0) (hok : incOk (fld w 39 0) = true) :
    incWrite w d = modTb (fun t => { t with incNext := some (w.extractLsb' 0 40) }) d := by
  simp [incWrite, hsrc, hok, setInc, ofNat_fld_inc]

theorem incWrite_of_not_ok (hsrc : d.tb.src = 0) (hok : ¬ incOk (fld w 39 0) = true) : incWrite w d = raise 0x10 4 d := by
  simp [incWrite, hsrc, hok]

/-- The row of R79's table that a permitted step meets. -/
theorem stepCheck_of_permitted (harmed : d.tb.armed = true) (hstep : d.tb.step = none) (h0 : S ≠ 0) (hnt : 0 ≤ ((now64 d).toNat : Int) + S)
    (hmax : anyChannel d = true → S.natAbs ≤ rgN rTB_STEP_MAX_ACTIVE d) : stepCheck S d = .accepted := by
  have hfar : ¬ (anyChannel d = true ∧ (rgN rTB_STEP_MAX_ACTIVE d : Int) < S.natAbs) := fun ⟨hany, hlt⟩ => by
    have := hmax hany
    omega
  have hback : ¬ (S < 0 ∧ ((now64 d).toNat : Int) + S < 0) := by omega
  simp only [stepCheck, harmed, hstep, if_neg hfar, if_neg hback, if_neg h0]
  rfl

/-- Without a peer that attends no tick is named (R345). -/
theorem nameStep_of_unpaired (h : paired d = false) : nameStep d = d := by
  unfold nameStep
  split
  · simp [h]
  · rfl

theorem stepWrite_of_accepted (hsrc : d.tb.src = 0) (hpair : paired d = false) (h : stepCheck S d = .accepted) :
    stepWrite S d = holdStep S none d := by
  simp only [stepWrite, hsrc, h, ne_eq, not_true, if_false]
  exact nameStep_of_unpaired hpair

theorem rearmWrite_of_key {v : W32} (h : fld v 7 0 = 0xA5) :
    rearmWrite v d = modTb (fun t => { t with armed := true, rearmed := decide (t.servo = .holdover) }) d := if_pos h

end

/-! ### The source, and what a change of the servo's state leaves of the time (R81, R98) -/

/-- The time, its rate, whether a step is armed, and the source: what the servo's state does not touch. -/
def clock (b : TimeBase) : W64 × W32 × BitVec 40 × Bool × Nat := (b.acc, b.extHi, b.inc, b.armed, b.src)

theorem raiseTimeState_touched (d : Dev) : Touched d (raiseTimeState d) := by
  unfold raiseTimeState
  split
  · exact foldl_touched _ (fun x p => raise_touched _ _ x) _ _
  · rfl

theorem clock_setServo (st : Servo) (d : Dev) : clock (setServo st d).tb = clock d.tb := by
  unfold setServo
  split
  · rfl
  · extract_lets was d1 d2 d3
    have h2 : d2.tb = d1.tb := by
      simp only [d2]
      split <;> rfl
    have h3 : d3.tb = d2.tb := by
      simp only [d3]
      split
      · exact (raise_touched 0x10 5 d2).tb
      · split
        · exact (raise_touched 0x10 6 d2).tb
        · rfl
    rw [(raiseTimeState_touched d3).tb, h3, h2]
    rfl

/-- A change of source leaves the time, its rate and the arming. -/
theorem clock_setSource (n : Nat) (d : Dev) : clock (setSource n d).tb = clock { d.tb with src := n } := by
  unfold setSource
  extract_lets d1
  split
  · next h => subst h; rfl
  · split
    · split
      · exact clock_setServo .locking d1
      · rfl
    · exact clock_setServo .freerun d1

theorem srcWrite_of_allowed {v : W32} {d : Dev} (hn : fld v 2 0 ≤ 3) (hs : isStandby d = false) :
    srcWrite v d = setSource (fld v 2 0) (modTwin (fun w => { w with cfgSrc := fld v 2 0 }) d) := by
  unfold srcWrite
  extract_lets n
  rw [if_neg (Nat.not_le.2 (Nat.lt_succ_of_le hn))]
  exact if_neg (Bool.eq_false_iff.1 hs)

/-- Settles O9, write by write: the arming, an increment within and outside the range, a permitted step, and the source. -/
theorem hostTimeWrites : Obligations.HostTimeWrites := by
  intro s v w hreach
  refine ⟨fun hkey => ?_, fun hsrc hlo hhi => ?_, fun hsrc hout => ?_, fun hsrc harmed hstep h0 hnt hmax hpair => ?_, fun hn hs => ?_⟩
  · exact onDev_fromHost hreach (rearmWrite_of_key hkey)
  · exact onDev_fromHost hreach (incWrite_of_ok hsrc ((incOk_iff _).2 ⟨hlo, hhi⟩))
  · have hbad : ¬ incOk (fld w 39 0) = true := by
      rw [incOk_iff]
      omega
    exact ⟨_, onDev_fromHost hreach (incWrite_of_not_ok hsrc hbad), became_raise (by decide) (by decide)⟩
  · exact onDev_fromHost hreach (stepWrite_of_accepted hsrc hpair (stepCheck_of_permitted harmed hstep h0 hnt hmax))
  · have hclock := clock_setSource (fld v 2 0) (modTwin (fun w => { w with cfgSrc := fld v 2 0 }) s.dev)
    simp only [clock, Prod.mk.injEq] at hclock
    obtain ⟨hacc, hhi, hinc, harmed, hsrc⟩ := hclock
    exact ⟨_, onDev_fromHost hreach (srcWrite_of_allowed hn hs), rfl, hsrc, hacc, hhi, hinc, harmed⟩

/-! ### A step applied (R79, R82) -/

/-- The NT64 that a step of `S` leaves. -/
def steppedNt (S : Int) (d : Dev) : W64 := BitVec.ofInt 64 ((now64 d).toNat + S)

/-- Q' of R82 for a step of `S`, from the old grid's next boundary. -/
def steppedQ (S : Int) (d : Dev) : Int := rebaseQ ((now64 d).toNat + sdiff d.weir.nextP (now d)) S ((now64 d).toNat + S)

/-- `e` is what a step of `S` makes of `d`, in the Time Base, the registers, the causes and the Weir's grid. -/
structure Stepped (S : Int) (d e : Dev) : Prop where
  time : now64 e = steppedNt S d
  extNext : e.tb.extNext = e.tb.extHi + 1
  disarmed : e.tb.armed = false
  taken : e.tb.step = none
  inc : e.tb.inc = d.tb.inc
  stamped : rgN rTB_LAST_STEP_AT e = (now e).toNat
  applied : bit (hdr 0x10 e).cause 2 = true
  seeded : d.weir.seeded = true →
    e.weir.nextP = BitVec.ofInt 32 (steppedQ S d) ∧ e.tb.rebase = some ⟨S, rebaseK S, BitVec.ofInt 32 (steppedQ S d)⟩
  unseeded : d.weir.seeded = false → e.weir = d.weir ∧ e.tb.rebase = none

theorem stepped_applyStep (S : Int) (d : Dev) : Stepped S d (applyStep S d) := by
  unfold applyStep
  extract_lets old64 b new64 newNt hi frac q lfe d1 weir d2
  have htb : d2.tb = d1.tb := by
    simp only [d2]
    split <;> rfl
  have hraise := raise_touched 0x10 2 (setRgN rTB_LAST_STEP_AT newNt.toNat d2)
  have htb1 := hraise.tb.trans htb
  have hnow : now (raise 0x10 2 (setRgN rTB_LAST_STEP_AT newNt.toNat d2)) = newNt := by
    rw [now, htb1]
    exact BitVec.extractLsb'_append_eq_left
  refine ⟨?_, ?_, congrArg TimeBase.armed htb1, congrArg TimeBase.step htb1, (congrArg TimeBase.inc htb1 :), ?_,
    raise_stands _ _ _ (by decide) (by decide), fun hs => ?_, fun hs => ?_⟩
  · rw [now64, hnow, htb1]
    exact BitVec.extractLsb'_append_extractLsb'
  · rw [htb1]
    rfl
  · rw [hnow, rgN, rg, hraise.regs]
    exact rgN_setRgN _ _ d2 (by omega)
  · have hq : d2.weir.nextP = BitVec.ofInt 32 q := congrArg (fun x => x.weir.nextP) (if_pos hs : d2 = _)
    exact ⟨(congrArg Weir.nextP hraise.weir).trans hq, (congrArg TimeBase.rebase htb1).trans (if_pos hs)⟩
  · have hn : ¬ d.weir.seeded = true := Bool.eq_false_iff.1 hs
    exact ⟨hraise.weir.trans (congrArg (fun x => x.weir) (if_neg hn : d2 = d1)), (congrArg TimeBase.rebase htb1).trans (if_neg hn)⟩

/-- The NT64 after a step that stays within 64 bits. -/
theorem Stepped.toNat_now64 {S : Int} {d e : Dev} (h : Stepped S d e) (hlo : 0 ≤ ((now64 d).toNat : Int) + S)
    (hhi : ((now64 d).toNat : Int) + S < 2 ^ 64) : ((now64 e).toNat : Int) = (now64 d).toNat + S := by
  rw [h.time, steppedNt, BitVec.toNat_ofInt]
  omega

/-- The further pass of Q', compared as R82 words it. -/
theorem rebaseQ_eq (b S nt : Int) :
    rebaseQ b S nt =
      if b + rebaseK S * 1000000 < nt + 20000 then b + rebaseK S * 1000000 + 1000000 else b + rebaseK S * 1000000 :=
  if_congr sub_lt_iff_lt_add' rfl rfl

/-- A step without a named tick is applied, and tells at most the twin and the cluster (R345, R418). -/
theorem stepNow_of_unnamed {S : Int} {d : Dev} (h : d.tb.step = some ⟨S, none⟩) :
    ∃ w o, stepNow d = { applyStep S d with twin := w, outbox := o } := by
  simp only [stepNow, h, if_true]
  split
  · exact ⟨_, _, rfl⟩
  · exact ⟨_, _, rfl⟩

/-- Settles O10: the step is `applyStep` (`stepNow_of_unnamed`), which does to the device what `Stepped` lists. -/
theorem stepMovesTimeAndGrid : Obligations.StepMovesTimeAndGrid := by
  intro s S hstep hlo hhi
  obtain ⟨w, o, hrun⟩ := stepNow_of_unnamed hstep
  have h := stepped_applyStep S s.dev
  have hq := rebaseQ_eq ((now64 s.dev).toNat + sdiff s.dev.weir.nextP (now s.dev)) S ((now64 s.dev).toNat + S)
  have hseeded := h.seeded
  rw [steppedQ, hq] at hseeded
  exact ⟨_, onDev_eq hrun, rfl, h.toNat_now64 hlo hhi, h.extNext, h.disarmed, h.taken, h.inc, h.stamped, h.applied, hseeded, h.unseeded⟩

end Sys2Proof.Machine
end

section
/-! PROOF. O17 and O59 fail, each in one clause: a UNIT_FAULT that sets while the list of causes of the tick names it under itself folds (R60). -/
namespace Sys2Proof.Machine

/-- A device after reset with power state `p`, whose list of causes latched on this tick names the UNIT_FAULT of page `pg` with that page as
its fold source. No command of the model makes this entry; the statements say nothing of the list. -/
def selfChargedBy (pg : Nat) (p : Pwr) : State :=
  { State.reset with dev := { State.reset.dev with raised := [(pg, 0, pg, 0)], pwr := p } }

/-- What a command that changes the device leaves. -/
theorem dev_of_onDev {F : Dev → Dev} {s t : State} (h : onDev F s = .next t) : t.dev = F s.dev := by
  injection h with h
  rw [← h]

/-! ### O17: the UNIT_FAULT of a core that stops -/

/-- The fault of core 0 sets the UNIT_FAULT of its page, and the causes listed under it on that tick, itself among them, fold (R60, R251). -/
theorem selfChargedBy_coreFault_folds :
    bit (hdr 0x40 (coreFaults 0 1 false (selfChargedBy 0x40 Pwr.reset).dev)).cause 0 = false := by decide

/-- Refutes O17: that TARN.UNIT_FAULT stands after a core's fault fails at a state that lists it under itself; the statement quantifies over
every state and its hypotheses do not exclude this one. -/
theorem not_coreFaultsAndReturn : ¬ Obligations.CoreFaultsAndReturn := by
  rintro ⟨hfaults, -⟩
  obtain ⟨hidle, -⟩ := hfaults (selfChargedBy 0x40 Pwr.reset) 0 1 0 false (by decide) (by decide) (by decide) (by decide) rfl
  obtain ⟨t, ht, ⟨-, -, -, -, -, -, -, hup, -⟩, -⟩ := hidle rfl
  have hdev : t.dev = coreFaults 0 1 false (selfChargedBy 0x40 Pwr.reset).dev := dev_of_onDev ht
  rw [CauseUp, hdev, selfChargedBy_coreFault_folds] at hup
  exact Bool.false_ne_true hup

/-! ### O59: the UNIT_FAULT of a DRAM that does not train -/

/-- Boot has completed step 2. -/
def beforeStep3 : Pwr := { Pwr.reset with bootStep := 2 }

/-- What the boot of a device whose DRAM channels both fail their training reads. -/
def untrainedBoot : BootIn where
  powerOk := true
  imageA := ⟨true, 0, 0⟩
  imageB := ⟨true, 0, 0⟩
  ok := true
  rollback := 0
  gib := 8
  trained := 0
  flash := ⟨true, 0, 0, 0, 0, 0, 0, 0⟩
  seed := 0
  config := []
  parts := []
  sce := []
  pm := []
  cs := []
  ctl := []
  mpu := []

/-- The failed training sets DRAM.UNIT_FAULT, and the causes listed under it on that tick, itself among them, fold (R60, R140). -/
theorem untrainedBoot_unitFault_folds :
    bit (hdr 0xA0 (bootNext untrainedBoot (selfChargedBy 0xA0 beforeStep3).dev)).cause 0 = false := by decide +kernel

/-- Refutes O59: that DRAM.UNIT_FAULT stands after a training that fails does not hold at a state that lists it under itself; the statement
quantifies over every state and its hypotheses do not exclude this one. -/
theorem not_bootSteps : ¬ Obligations.BootSteps := by
  intro h
  obtain ⟨-, hsteps, -⟩ := h (selfChargedBy 0xA0 beforeStep3) untrainedBoot 0 ⟨true, 0, 0⟩ 0
  obtain ⟨-, -, -, -, -, -, hstep3, -⟩ := hsteps rfl rfl
  obtain ⟨t, ht, -, -, -, -, -, -, -, -, hdram⟩ := hstep3 rfl rfl
  have hup : CauseUp 0xA0 0 t := hdram (by decide)
  have hdev : t.dev = bootNext untrainedBoot (selfChargedBy 0xA0 beforeStep3).dev := dev_of_onDev ht
  rw [CauseUp, hdev, untrainedBoot_unitFault_folds] at hup
  exact Bool.false_ne_true hup

end Sys2Proof.Machine
end

section
/-! PROOF. O13: a pass boundary at which nothing is due. Each operation of the boundary is said once for such a device (`NothingDue`): it leaves
the device as it was, up to the figures of the pass that ends, the mark of a jump and the end of the lines' freeze. -/
namespace Sys2Proof.Machine

/-! ### Tables read and written back -/

section
variable {α : Type}

/-- An entry of a canonical table is what its key reads as. -/
theorem tabGet_of_mem [DecidableEq α] {dflt : Nat → α} {e : Nat × α} : ∀ {t : Tab α}, tabWf dflt t = true → e ∈ t → tabGet dflt t e.1 = e.2
  | [], _, he => absurd he List.not_mem_nil
  | x :: t, h, he => by
    obtain ⟨hp, hd⟩ := (tabWf_iff _ _).1 h
    obtain ⟨hx, hp⟩ := List.pairwise_cons.1 hp
    rcases List.mem_cons.1 he with rfl | he
    · exact if_pos rfl
    · have ih := tabGet_of_mem ((tabWf_iff dflt t).2 ⟨hp, fun y hy => hd y (List.mem_cons_of_mem _ hy)⟩) he
      exact (if_neg (hx e he).ne).trans ih

theorem tabIns_of_lt {k : Nat} {v : α} : ∀ {t : Tab α}, (∀ e ∈ t, k < e.1) → tabIns k v t = (k, v) :: t
  | [], _ => rfl
  | (_, _) :: _, h => if_pos (h _ List.mem_cons_self)

/-- An entry of a canonical table written with its own value. -/
theorem tabSet_of_mem [DecidableEq α] {dflt : Nat → α} {e : Nat × α} : ∀ {t : Tab α}, tabWf dflt t = true → e ∈ t → tabSet dflt t e.1 e.2 = t
  | [], _, he => absurd he List.not_mem_nil
  | x :: t, h, he => by
    obtain ⟨hp, hd⟩ := (tabWf_iff _ _).1 h
    obtain ⟨hx, hp⟩ := List.pairwise_cons.1 hp
    have hdef : e.2 ≠ dflt e.1 := hd e he
    rcases List.mem_cons.1 he with rfl | he
    · have hkeep : (t.filter fun y => decide (y.1 ≠ e.1)) = t := List.filter_eq_self.2 fun y hy => by simpa using (hx y hy).ne'
      simp only [tabSet, if_neg hdef, List.filter_cons, ne_eq, not_true_eq_false, decide_false, Bool.false_eq_true, if_false]
      rw [hkeep, tabIns_of_lt hx]
    · have ih := tabSet_of_mem ((tabWf_iff dflt t).2 ⟨hp, fun y hy => hd y (List.mem_cons_of_mem _ hy)⟩) he
      have hlt : x.1 < e.1 := hx e he
      simp only [tabSet, if_neg hdef] at ih ⊢
      simp only [List.filter_cons, ne_eq, hlt.ne, not_false_eq_true, decide_true, if_true, tabIns, if_neg hlt.not_gt]
      rw [ih]

end

/-! ### Figures of the pass that ends (R135, R139, R258) -/

/-- The figures of cores are taken: only registers from the cores' pages on and the cores changed. -/
structure Figured (d e : Dev) : Prop where
  same : e = { d with regs := e.regs, tarns := e.tarns }
  regs : ∀ k, k < 0x40000 → rg k e = rg k d

section
variable {a d : Dev}

theorem Figured.setRgN {k n : Nat} (w : Figured a d) (hk : 0x40000 ≤ k) : Figured a (setRgN k n d) := by
  refine ⟨congrArg (fun x => { x with regs := (Machine.setRgN k n d).regs }) w.same, fun j hj => ?_⟩
  rw [rg_setRgN, if_neg (by omega)]
  exact w.regs j hj

theorem Figured.modTarn {c : Nat} {f : Tarn → Tarn} (w : Figured a d) : Figured a (modTarn c f d) :=
  ⟨congrArg (fun x => { x with tarns := (Machine.modTarn c f d).tarns }) w.same, w.regs⟩

theorem Figured.coreFigures (w : Figured a d) (c : Nat) : Figured a (coreFigures c d) := by
  have key (o : Nat) : 0x40000 ≤ kTarn c o := by unfold kTarn tarnPage; omega
  exact (((w.modTarn.setRgN (key _)).setRgN (key _)).setRgN (key _)).setRgN (key _)

end

theorem foldl_coreFigures (l : List (Nat × Tarn)) (d : Dev) : Figured d (l.foldl (fun x e => coreFigures e.1 x) d) := by
  have keep : ∀ x, Figured d x → Figured d (l.foldl (fun x e => coreFigures e.1 x) x) := by
    induction l with
    | nil => exact fun x w => w
    | cons e l ih => exact fun x w => ih _ (w.coreFigures e.1)
  exact keep d ⟨rfl, fun _ _ => rfl⟩

/-- The registers and the Weir before the cores' figures are taken. -/
def weirFigures (d : Dev) : Dev :=
  setRgN rBASIN_STRM_SHARE ((d.weir.strm.foldl (fun m e => max m e.2) 0) * 1024 / 3200000) (setRgN rBASIN_STRM_WORDS (sumL (d.weir.strm.map (·.2)))
    (setRgN rWEIR_LAST_DONE d.weir.lastDone (modWeir (fun w => { w with lastDone := 0, strm := [] }) d)))

theorem passFigures_figured (d : Dev) : Figured (weirFigures d) (passFigures d) := foldl_coreFigures _ _

/-! ### A device with nothing due at a boundary -/

/-- A slot with nothing that a boundary acts on but the token it creates. -/
structure Slot.Quiet (s : Slot) : Prop where
  pend : s.pend = none
  write : s.write = []
  suspect : s.suspect = false
  bus : busOf s.desc = none
  rtpA : isRtp s.desc 0 = false
  rtpB : isRtp s.desc 1 = false

/-- Nothing is due at the boundary: no release, no token, no change, no line, and no unit to export. -/
structure NothingDue (d : Dev) : Prop where
  role : d.twin.role = .alone
  atBoundary : d.twin.atBoundary = []
  lines : d.lfe.lines = []
  spools : d.recd.spools = []
  staged : d.recd.staged = []
  rel : d.weir.rel = []
  tokens : d.weir.tokens = []
  rejoin : d.weir.rejoin = []
  shedStep : d.weir.shedStep = none
  flr : d.hif.flr = []
  closing : d.closing = []
  buses : d.buses = []
  nextJb : d.path.nextJb = []
  slotsWf : tabWf (fun _ => Slot.reset) d.slots = true
  slots : ∀ e ∈ d.slots, e.2.Quiet

theorem foldl_of_id {α β : Type} {f : β → α → β} {b : β} : ∀ {l : List α}, (∀ a ∈ l, f b a = b) → l.foldl f b = b
  | [], _ => rfl
  | a :: l, h => by
    rw [List.foldl_cons, h a List.mem_cons_self]
    exact foldl_of_id fun x hx => h x (List.mem_cons_of_mem _ hx)

section
variable {d : Dev} (q : NT32)

theorem NothingDue.slot_eq (w : NothingDue d) {e : Nat × Slot} (he : e ∈ d.slots) : slot e.1 d = e.2 := tabGet_of_mem w.slotsWf he

theorem NothingDue.quiet (w : NothingDue d) {e : Nat × Slot} (he : e ∈ d.slots) : (slot e.1 d).Quiet := by
  rw [w.slot_eq he]
  exact w.slots e he

theorem exportStaged_of_none (h : d.recd.staged = []) : exportStaged d = d := by
  unfold exportStaged
  rw [h]
  exact (congrArg (fun l => { d with recd := { d.recd with staged := l } }) h.symm :)

theorem NothingDue.flushParts (w : NothingDue d) : flushParts q d = d := by
  unfold Machine.flushParts
  rw [w.closing, w.flr]
  exact (congrArg₂ (fun l m => { d with hif := { d.hif with flr := l }, closing := m }) w.flr.symm w.closing.symm :)

theorem NothingDue.releaseSlots (w : NothingDue d) : releaseSlots q d = d :=
  foldl_of_id fun e he => by rw [(w.slots e he).pend]

/-- With nothing released no peer is sent a bundle (R424). -/
theorem bundles_nil : bundles q [] d = d := by
  have hnone : (d.fab.trunks.filterMap fun b => match b.2 with
      | some t => if current t.handle d ∧ (([] : List (Nat × Option JobOut)).any fun o => decide (o.1 = b.1 / 2)) then some (b.1, t) else none
      | none => none) = [] := by
    rw [List.filterMap_eq_nil_iff]
    intro b _
    cases b.2 <;> simp
  unfold bundles
  extract_lets bound groups
  have hgroups : groups = [] := by
    simp only [groups, show bound = [] from hnone]
    rfl
  rw [hgroups]
  rfl

theorem NothingDue.releaseAll (w : NothingDue d) : releaseAll q false d = modWeir (fun w => { w with jump := false }) d := by
  have hrel : modWeir (fun x : Weir => { x with jump := false, rel := [] }) d = modWeir (fun x => { x with jump := false }) d :=
    (congrArg (fun l => { d with weir := { d.weir with jump := false, rel := l } }) w.rel.symm :)
  rw [← hrel]
  unfold Machine.releaseAll
  simp only [w.rel, modWeir, List.filter_nil, List.map_nil, List.append_nil, sortBy, List.foldr_nil, List.filterMap_nil, List.foldl_nil]
  exact bundles_nil q

theorem NothingDue.changeSlot (w : NothingDue d) {e : Nat × Slot} (he : e ∈ d.slots) : changeSlot e.1 q false d = d := by
  have hslot := w.slot_eq he
  obtain ⟨hpend, hwrite, -⟩ := w.slots e he
  have hkeep : modSlot e.1 (fun s => { s with write := s.write.filter fun x => !(false || decide (0 ≤ sdiff q x.1)) }) d = d := by
    have hnone : (e.2.write.filter fun x => !(false || decide (0 ≤ sdiff q x.1))) = e.2.write := by rw [hwrite, List.filter_nil]
    have hsame := (congrArg (fun l => tabSet (fun _ => Slot.reset) d.slots e.1 { e.2 with write := l }) hnone).trans (tabSet_of_mem w.slotsWf he)
    unfold modSlot tabMod
    rw [show tabGet (fun _ => Slot.reset) d.slots e.1 = e.2 from hslot]
    exact (congrArg (fun t => { d with slots := t }) hsame :)
  unfold Machine.changeSlot
  dsimp only
  rw [hkeep, hslot, hwrite, List.filter_nil, List.foldl_nil, hslot, hpend]

theorem NothingDue.jbCtrlApply (w : NothingDue d) : jbCtrlApply q d = d := by
  unfold Machine.jbCtrlApply
  rw [w.nextJb]
  rfl

theorem NothingDue.twinApply (w : NothingDue d) : twinApply q d = d := by
  unfold Machine.twinApply
  simp only [w.atBoundary, modTwin, List.filter_nil, List.foldl_nil]
  exact (congrArg (fun l => { d with twin := { d.twin with atBoundary := l } }) w.atBoundary.symm :)

theorem NothingDue.reinitAll (w : NothingDue d) : reinitAll d = d := by
  unfold Machine.reinitAll
  rw [List.filter_eq_nil_iff.2 fun e he => by simp [(w.slots e he).suspect]]
  rfl

theorem NothingDue.shedNow (w : NothingDue d) : shedNow q d = d := by
  unfold Machine.shedNow
  rw [w.shedStep]

theorem NothingDue.rejoinAll (w : NothingDue d) : rejoinAll d = d := by
  unfold Machine.rejoinAll
  rw [w.rejoin]
  exact (congrArg (fun l => { d with weir := { d.weir with rejoin := l } }) w.rejoin.symm :)

theorem jbMove_of_not_rtp {k leg : Nat} {p : NT32} (h : isRtp (slot k d).desc leg = false) : jbMove k leg p d = d := by
  unfold jbMove
  dsimp only
  rw [h]
  rfl

theorem NothingDue.jbMoves (w : NothingDue d) (p : NT32) :
    (d.slots.filter (·.2.running)).foldl (fun x e => jbMove e.1 1 p (jbMove e.1 0 p x)) d = d :=
  foldl_of_id fun e he => by
    have hq := w.quiet (List.mem_of_mem_filter he)
    rw [jbMove_of_not_rtp hq.rtpA, jbMove_of_not_rtp hq.rtpB]

theorem NothingDue.syncBuses (w : NothingDue d) : syncBuses q d = d := by
  have hnamed : ((d.slots.filter (·.2.running)).filterMap fun e => busOf e.2.desc) = [] :=
    List.filterMap_eq_nil_iff.2 fun e he => (w.slots e (List.mem_of_mem_filter he)).bus
  unfold Machine.syncBuses
  rw [hnamed, w.buses]
  rfl

/-- Of the lines only the end of their freeze may pass (R402). -/
theorem NothingDue.linesBoundary (w : NothingDue d) : linesBoundary q d = { d with lfe := { d.lfe with rebaseEnd := (linesBoundary q d).lfe.rebaseEnd } } := by
  unfold Machine.linesBoundary
  rw [w.lines, List.foldl_nil]
  dsimp only
  split
  · rfl
  · rfl

/-- What changes at the boundary between the releases and the firing. -/
theorem NothingDue.boundaryChanges (w : NothingDue d) : ∃ x, boundaryChanges q none d = { d with lfe := { d.lfe with rebaseEnd := x } } := by
  refine ⟨_, Eq.trans ?_ (w.linesBoundary q)⟩
  unfold Machine.boundaryChanges
  dsimp only [Option.isSome_none]
  rw [foldl_of_id fun e he => w.changeSlot q he, w.jbCtrlApply, w.twinApply, w.reinitAll, w.shedNow, w.rejoinAll, w.jbMoves, w.syncBuses]

theorem modTokens_of_none (h : d.weir.tokens = []) (p : Token → Bool) (f : Token → Token) : modTokens p f d = d := by
  have hnone : (d.weir.tokens.map fun t => if p t then f t else t) = d.weir.tokens := by rw [h, List.map_nil]
  exact (congrArg (fun l => { d with weir := { d.weir with tokens := l } }) hnone :)

theorem fireReady_of_none (h : d.weir.tokens = []) : fireReady d = d := by
  unfold fireReady
  rw [h]
  exact ite_self d

end

/-! ### The pulse (R414), HORIZON -/

theorem driveSync_same (d : Dev) : driveSync d = { d with clu := { d.clu with driving := (driveSync d).clu.driving }, outbox := (driveSync d).outbox } := by
  unfold driveSync
  dsimp only
  split
  · rfl
  · split
    · rfl
    · rfl

theorem syncPulse_same (d : Dev) : syncPulse d = { d with lfe := (syncPulse d).lfe, outbox := (syncPulse d).outbox } := by
  unfold syncPulse lfePulse
  split
  · split
    · rfl
    · rfl
  · rfl

theorem not_paired_of_alone {d : Dev} (h : d.twin.role = .alone) : paired d = false := by simp [paired, h]

theorem sendHorizon_of_alone {d : Dev} (t : NT32) (h : d.twin.role = .alone) : sendHorizon t d = d := by
  simp [sendHorizon, not_paired_of_alone h]

/-- The pulse of a boundary changes the cluster unit, the lines and the outputs only. -/
theorem pulse_same (d : Dev) : syncPulse (driveSync d) =
    { d with clu := (syncPulse (driveSync d)).clu, lfe := (syncPulse (driveSync d)).lfe, outbox := (syncPulse (driveSync d)).outbox } := by
  have hp := syncPulse_same (driveSync d)
  have hd := driveSync_same d
  generalize syncPulse (driveSync d) = e at hp ⊢
  rw [hd] at hp
  rw [hp]

/-- Of a device that is no manager's cluster unit and drives no pulse, a boundary before the seed notes the instant alone (R414). -/
theorem earlyPulse_idle {d : Dev} (hon : cluOn d = false) (hdrive : d.clu.driving = false) :
    ∃ x, earlyPulse (driveSync d) = { d with clu := { d.clu with pulsed := x } } := by
  have hlevel : driveSync d = d := by
    unfold driveSync driveLevel
    rw [hon, hdrive]
    rfl
  rw [hlevel]
  unfold earlyPulse syncPulse
  dsimp only
  split
  · exact ⟨d.clu.pulsed, rfl⟩
  · refine ⟨_, if_neg ?_⟩
    simp [modClu, hdrive]

/-! ### The boundary -/

/-- What `NothingDue` speaks of. -/
def dueFields (d : Dev) := (d.twin, d.lfe.lines, d.recd, d.hif, d.closing, d.buses, d.path, d.slots, d.weir.rel, d.weir.tokens, d.weir.rejoin, d.weir.shedStep)

theorem NothingDue.of_fields {d e : Dev} (w : NothingDue d) (h : dueFields e = dueFields d) : NothingDue e := by
  obtain ⟨htwin, hlines, hrecd, hhif, hclosing, hbuses, hpath, hslots, hrel, htokens, hrejoin, hshed⟩ := by simpa [dueFields] using h
  constructor
  case role => rw [htwin]; exact w.role
  case atBoundary => rw [htwin]; exact w.atBoundary
  case lines => rw [hlines]; exact w.lines
  case spools => rw [hrecd]; exact w.spools
  case staged => rw [hrecd]; exact w.staged
  case rel => rw [hrel]; exact w.rel
  case tokens => rw [htokens]; exact w.tokens
  case rejoin => rw [hrejoin]; exact w.rejoin
  case shedStep => rw [hshed]; exact w.shedStep
  case flr => rw [hhif]; exact w.flr
  case closing => rw [hclosing]; exact w.closing
  case buses => rw [hbuses]; exact w.buses
  case nextJb => rw [hpath]; exact w.nextJb
  case slotsWf => rw [hslots]; exact w.slotsWf
  case slots => rw [hslots]; exact w.slots

/-- The boundary moves on and is counted (R106, R135). -/
def countPass (d : Dev) : Dev := incRg rWEIR_PASS_CNT (modWeir (fun w => { w with nextP := d.weir.nextP + 1000000, lastP := d.weir.nextP }) d)

/-- The device after the changes of a boundary with nothing due: the mark of a jump cleared, and `x` the end of the lines' freeze. -/
def changed (x : Option NT32) (d : Dev) : Dev :=
  { d with weir := { d.weir with jump := false }, lfe := { d.lfe with rebaseEnd := x } }

theorem dueFields_incRg (k : Nat) (d : Dev) : dueFields (incRg k d) = dueFields d := rfl

theorem dueFields_setRgN (k n : Nat) (d : Dev) : dueFields (setRgN k n d) = dueFields d := rfl

theorem dueFields_setNext (p q : NT32) (d : Dev) : dueFields (modWeir (fun w => { w with nextP := p, lastP := q }) d) = dueFields d := rfl

theorem countPass_dueFields (d : Dev) : dueFields (countPass d) = dueFields d := by
  rw [countPass, dueFields_incRg, dueFields_setNext]

theorem passFigures_dueFields (d : Dev) : dueFields (passFigures d) = dueFields d := by
  have hfigured : dueFields (passFigures d) = dueFields (weirFigures d) := by rw [(passFigures_figured d).same]; rfl
  rw [hfigured, weirFigures, dueFields_setRgN, dueFields_setRgN, dueFields_setRgN]
  rfl

theorem NothingDue.jumpCleared {d : Dev} (w : NothingDue d) : NothingDue (modWeir (fun w => { w with jump := false }) d) := w.of_fields rfl

theorem NothingDue.changed {d : Dev} (w : NothingDue d) (x : Option NT32) : NothingDue (changed x d) := w.of_fields rfl

/-- The releases and changes of the boundary, and the firing. -/
theorem NothingDue.boundary {d : Dev} (w : NothingDue d) (q : NT32) :
    ∃ x, fireReady (Machine.boundaryChanges q none (modTokens (fun _ => true) (fun t => { t with elig := true })
      (Machine.releaseAll q false (Machine.flushParts q (Machine.releaseSlots q d))))) = Machine.changed x d := by
  obtain ⟨x, hx⟩ := w.jumpCleared.boundaryChanges q
  refine ⟨x, ?_⟩
  rw [w.releaseSlots, w.flushParts, w.releaseAll, modTokens_of_none w.jumpCleared.tokens, hx]
  exact fireReady_of_none (w.changed x).tokens

theorem NothingDue.passBoundary {d : Dev} (w : NothingDue d) (hruns : weirRuns d = true) (hdue : reached d d.weir.nextP = true)
    (hreb : d.tb.rebase = none) :
    ∃ x, Machine.passBoundary d = syncPulse (driveSync (createTokens d.weir.nextP (Machine.changed x (passFigures (countPass d))))) := by
  have hseeded : d.weir.seeded = true := by
    simp only [weirRuns, Bool.and_eq_true] at hruns
    exact hruns.1.1
  have wFigures : NothingDue (passFigures (countPass d)) := w.of_fields ((passFigures_dueFields _).trans (countPass_dueFields d))
  have hexport : exportStaged (countPass d) = countPass d := exportStaged_of_none (w.of_fields (countPass_dueFields d)).staged
  obtain ⟨x, hx⟩ := wFigures.boundary d.weir.nextP
  have wTokens := wFigures.changed x
  refine ⟨x, ?_⟩
  unfold Machine.passBoundary
  rw [hseeded, hruns, hdue, hreb]
  simp only [Bool.not_true, Bool.false_eq_true, if_false, Bool.or_self, Option.isSome_none]
  rw [← countPass, hexport, hx]
  generalize passFigures (countPass d) = e at wTokens ⊢
  have hrole : (createTokens d.weir.nextP (Machine.changed x e)).twin.role = .alone := wTokens.role
  rw [sendHorizon_of_alone _ hrole]
  refine spoolCheckAll_of_none ?_
  rw [pulse_same]
  exact wTokens.spools

/-! ### What the boundary leaves -/

section
variable (d : Dev)

theorem pulse_weir : (syncPulse (driveSync d)).weir = d.weir := by rw [pulse_same]
theorem pulse_slots : (syncPulse (driveSync d)).slots = d.slots := by rw [pulse_same]
theorem pulse_rings : (syncPulse (driveSync d)).rings = d.rings := by rw [pulse_same]
theorem rg_pulse (k : Nat) : rg k (syncPulse (driveSync d)) = rg k d := by rw [pulse_same]; rfl

/-- The figures taken clear the counts of the Weir's pass. -/
theorem passFigures_weir : (passFigures d).weir = { d.weir with lastDone := 0, strm := [] } := by
  rw [(passFigures_figured d).same]
  show (weirFigures d).weir = _
  rw [weirFigures, setRgN_weir, setRgN_weir, setRgN_weir]
  rfl

theorem countPass_weir : (countPass d).weir = { d.weir with nextP := d.weir.nextP + 1000000, lastP := d.weir.nextP } := by
  rw [countPass, incRg_weir]
  rfl

theorem passFigures_slots : (passFigures d).slots = d.slots := by
  rw [(passFigures_figured d).same]
  show (weirFigures d).slots = _
  rw [weirFigures, setRgN_slots, setRgN_slots, setRgN_slots]
  rfl

theorem passFigures_rings : (passFigures d).rings = d.rings := by
  rw [(passFigures_figured d).same]
  show (weirFigures d).rings = _
  rw [weirFigures, setRgN_rings, setRgN_rings, setRgN_rings]
  rfl

theorem countPass_slots : (countPass d).slots = d.slots := by rw [countPass, incRg_slots, modWeir_slots]

theorem countPass_rings : (countPass d).rings = d.rings := by rw [countPass, incRg_rings, modWeir_rings]

theorem rg_passFigures {k : Nat} (h : k < 0x40000) (hk : k ≠ rWEIR_LAST_DONE) : rg k (passFigures d) = rg k d := by
  rw [(passFigures_figured d).regs k h, weirFigures, rg_setRgN, if_neg (by unfold rBASIN_STRM_SHARE; omega), rg_setRgN,
    if_neg (by unfold rBASIN_STRM_WORDS; omega), rg_setRgN, if_neg hk]
  rfl

theorem rg_lastDone_passFigures : rg rWEIR_LAST_DONE (passFigures d) = BitVec.ofNat 64 d.weir.lastDone := by
  rw [(passFigures_figured d).regs _ (by decide), weirFigures, rg_setRgN, if_neg (by decide), rg_setRgN, if_neg (by decide), rg_setRgN, if_pos rfl]

theorem rgN_modWeir (k : Nat) (f : Weir → Weir) : rgN k (modWeir f d) = rgN k d := rfl

theorem rgN_passCnt_countPass : rgN rWEIR_PASS_CNT (countPass d) = (rgN rWEIR_PASS_CNT d + 1) % 2 ^ 32 := by
  rw [countPass, rgN_incRg, rgN_modWeir]

/-- The tokens created where no bus is open: one for each running channel (R107). -/
def channelTokens (q : NT32) : List Token := (d.slots.filter (·.2.running)).map fun e => newToken e.1 q d

variable {d}

theorem createTokens_of_no_bus (q : NT32) (h : d.buses = []) (ht : d.weir.tokens = []) :
    createTokens q d = setRgN rWEIR_TOKENS (channelTokens d q).length (modWeir (fun w => { w with tokens := channelTokens d q }) d) := by
  unfold createTokens
  rw [h]
  simp only [List.filter_nil, List.map_nil, List.append_nil, modWeir, ht, List.nil_append]
  rfl

/-- A new token is its channel's, of the pass the boundary names, neither eligible nor marked. -/
theorem channelTokens_fields (q : NT32) : (channelTokens d q).map (fun k => (k.bus, k.handle, k.pass, k.elig, k.markA, k.markB)) =
    (d.slots.filter fun e => e.2.running).map (fun e => (false, mkHandle (slot e.1 d).gen.toNat (slot e.1 d).part e.1, q, false, false, false)) := by
  rw [channelTokens, List.map_map]
  rfl

end

/-- What a boundary with nothing due leaves `e` of `d`: the Weir one pass on with its new tokens, the counters, and the rest. -/
structure PassedBoundary (d e : Dev) : Prop where
  weir : e.weir = { d.weir with
    nextP := d.weir.nextP + 1000000, lastP := d.weir.nextP, jump := false, lastDone := 0, strm := [], tokens := e.weir.tokens }
  tokens : e.weir.tokens.map (fun k => (k.bus, k.handle, k.pass, k.elig, k.markA, k.markB)) =
    (d.slots.filter fun e => e.2.running).map
      (fun e => (false, mkHandle (slot e.1 d).gen.toNat (slot e.1 d).part e.1, d.weir.nextP, false, false, false))
  count : rgN rWEIR_PASS_CNT e = (rgN rWEIR_PASS_CNT d + 1) % 2 ^ 32
  done : rgN rWEIR_LAST_DONE e = d.weir.lastDone % 2 ^ 64
  created : rgN rWEIR_TOKENS e = e.weir.tokens.length % 2 ^ 64
  slots : e.slots = d.slots
  rings : e.rings = d.rings

theorem slot_congr {d e : Dev} (h : e.slots = d.slots) (k : Nat) : slot k e = slot k d := by rw [slot, h]; rfl

theorem NothingDue.passed {d : Dev} (w : NothingDue d) (hruns : weirRuns d = true) (hdue : reached d d.weir.nextP = true)
    (hreb : d.tb.rebase = none) : PassedBoundary d (Machine.passBoundary d) := by
  obtain ⟨x, hx⟩ := w.passBoundary hruns hdue hreb
  have wTokens := ((w.of_fields (countPass_dueFields d)).of_fields (passFigures_dueFields _)).changed x
  have hweir : (passFigures (countPass d)).weir = { d.weir with
      nextP := d.weir.nextP + 1000000, lastP := d.weir.nextP, lastDone := 0, strm := [] } := by rw [passFigures_weir, countPass_weir]
  have hslots : (passFigures (countPass d)).slots = d.slots := by rw [passFigures_slots, countPass_slots]
  have hrings : (passFigures (countPass d)).rings = d.rings := by rw [passFigures_rings, countPass_rings]
  have hcount : rgN rWEIR_PASS_CNT (passFigures (countPass d)) = (rgN rWEIR_PASS_CNT d + 1) % 2 ^ 32 := by
    rw [rgN, rg_passFigures _ (by decide) (by decide)]
    exact rgN_passCnt_countPass d
  have hdone : rg rWEIR_LAST_DONE (passFigures (countPass d)) = BitVec.ofNat 64 d.weir.lastDone := by
    rw [rg_lastDone_passFigures, countPass_weir]
  rw [createTokens_of_no_bus _ wTokens.buses wTokens.tokens] at hx
  rw [hx]
  generalize passFigures (countPass d) = f at *
  have hkept (k : Nat) (hk : k ≠ rWEIR_TOKENS) (n : Nat) (g : Weir → Weir) :
      rg k (syncPulse (driveSync (setRgN rWEIR_TOKENS n (modWeir g (Machine.changed x f))))) = rg k f := by
    rw [rg_pulse, rg_setRgN, if_neg hk]
    rfl
  constructor
  case weir =>
    rw [pulse_weir, setRgN_weir, modWeir, Machine.changed]
    dsimp only
    rw [hweir]
  case tokens =>
    rw [pulse_weir, setRgN_weir]
    refine (channelTokens_fields _).trans ?_
    have hs : (Machine.changed x f).slots = d.slots := hslots
    simp only [slot_congr hs]
    rw [hs]
  case count => rw [rgN, hkept _ (by decide)]; exact hcount
  case done => rw [rgN, hkept _ (by decide), hdone, BitVec.toNat_ofNat]
  case created =>
    rw [rgN, rg_pulse, pulse_weir, rg_setRgN, if_pos rfl, BitVec.toNat_ofNat, setRgN_weir]
    rfl
  case slots =>
    rw [pulse_slots, setRgN_slots]
    exact hslots
  case rings =>
    rw [pulse_rings, setRgN_rings]
    exact hrings

theorem passBoundary_waits {d : Dev} (hseeded : d.weir.seeded = true) (h : sdiff (now d) d.weir.nextP < 0 ∨ d.pwr.st = .fault) :
    passBoundary d = d := by
  unfold passBoundary
  rw [hseeded, if_neg (by simp), if_pos]
  rcases h with hearly | hfault
  · simp [reached, not_le.2 hearly]
  · simp [weirRuns, hfault]

theorem passBoundary_unseeded {d : Dev} (hseeded : d.weir.seeded = false) (hon : cluOn d = false) (hdrive : d.clu.driving = false) :
    ∃ x, passBoundary d = { d with clu := { d.clu with pulsed := x } } := by
  unfold passBoundary
  rw [hseeded]
  exact earlyPulse_idle hon hdrive

end Sys2Proof.Machine

namespace Sys2Proof
open Machine

/-- Settles O13: with nothing due each operation of the boundary leaves the device, and one token is created for every running channel. -/
theorem passBoundary : Obligations.PassBoundary := by
  intro s d w halone hlines hspools hclu hdrive hwf
  obtain ⟨hrole, -, hatBoundary, -⟩ := halone
  refine ⟨fun hseeded hnot => onDev_eq (passBoundary_waits hseeded hnot), fun hseeded => ?_, ?_⟩
  · obtain ⟨x, hx⟩ := passBoundary_unseeded hseeded hclu hdrive
    exact ⟨_, onDev_eq hx, rfl, rfl⟩
  · rintro ⟨hseeded, hfault, hdormant⟩ hreach hrel htokens hrejoin hshed hflr hclosing hbuses hreb hjb hstaged hslots
    have hdue : NothingDue d :=
      { role := hrole, atBoundary := hatBoundary, lines := hlines, spools := hspools, staged := hstaged, rel := hrel, tokens := htokens
        rejoin := hrejoin, shedStep := hshed, flr := hflr, closing := hclosing, buses := hbuses, nextJb := hjb, slotsWf := hwf
        slots := fun e he => by
          obtain ⟨hpend, hwrite, hsuspect, hbus, hrtpA, hrtpB⟩ := hslots e he
          exact ⟨hpend, hwrite, hsuspect, hbus, hrtpA, hrtpB⟩ }
    obtain ⟨hweir, htok, hcount, hdone, hcreated, hslots, hrings⟩ :=
      hdue.passed (by simp [weirRuns, hseeded, hfault, hdormant]) (by simpa [reached] using hreach) hreb
    refine ⟨_, onDev_eq rfl, rfl, ?_, ?_, hcount, hdone, hcreated, htok, ?_, ?_, hslots, hrings⟩
    all_goals
      dsimp only
      rw [hweir]

end Sys2Proof
end

section
/-! PROOF. O14: the dispatch deadline of the only token. What firing notes of a channel's legs leaves the Weir, the Recorder and the registers
below the partitions' pages (`LegsRun`); the job is dispatched to an idle device. -/
namespace Sys2Proof.Machine

/-! ### What firing notes of a channel's legs (R173) -/

/-- From `d` to `e` the runs of concealed passes were followed: the Weir but for its delay lists stands, the twin but for what it retains, the
Recorder, the registers below the partitions' pages, and which handles are current. -/
structure LegsRun (d e : Dev) : Prop where
  weir : { e.weir with dl := [] } = { d.weir with dl := [] }
  twin : { e.twin with retained := [] } = { d.twin with retained := [] }
  recd : e.recd = d.recd
  regs : ∀ k, k < 0x200000 → rg k e = rg k d
  current : ∀ h, current h e = current h d

theorem Touched.recd {d e : Dev} (h : Touched d e) : e.recd = d.recd := by rw [h]

theorem ringOffer_recd (k : Nat) (x : Rec) (d : Dev) : (ringOffer k x d).recd = d.recd := by
  by_cases h : (d.twin.role = .standby ∨ d.twin.role = .pairing) ∧ 4 ≤ k ∧ k < 0x10000
  · unfold ringOffer
    rw [if_pos h]
  · exact (ringOffer_touched k x d h).recd

theorem offer_recd (p r : Nat) (x : Rec) (d : Dev) : (offer p r x d).recd = d.recd := by
  unfold offer tagFault
  split
  · exact (raiseF_touched _ _ _ _).recd.trans ((incRg_recd _ _).trans (faultRec_touched _ _).recd)
  · exact ringOffer_recd _ _ _

section
variable {a d e : Dev}

theorem LegsRun.refl : LegsRun d d := ⟨rfl, rfl, rfl, fun _ _ => rfl, fun _ => rfl⟩

theorem LegsRun.noted (w : LegsRun a d) (h : Noted ∅ d e) (hr : e.recd = d.recd) : LegsRun a e :=
  ⟨h.weir.trans w.weir, (congrArg (fun x => x.twin) h.same :).trans w.twin, hr.trans w.recd, fun k hk => (h.regs k hk id).trans (w.regs k hk),
    fun x => (h.current x).trans (w.current x)⟩

theorem LegsRun.ite {c : Prop} [Decidable c] (hd : LegsRun a d) (he : LegsRun a e) : LegsRun a (if c then d else e) := by
  split
  · exact hd
  · exact he

protected theorem LegsRun.modLeg {k leg f} (w : LegsRun a d) : LegsRun a (modLeg k leg f d) :=
  ⟨w.weir, w.twin, w.recd, w.regs, fun h => (current_modLeg _ _ _ _ _).trans (w.current h)⟩

protected theorem LegsRun.jbRecord {typ k leg b13 v} (w : LegsRun a d) : LegsRun a (jbRecord typ k leg b13 v d) :=
  w.noted Noted.refl.jbRecord (offer_recd _ _ _ _)

protected theorem LegsRun.jbRun {k leg marked} (w : LegsRun a d) : LegsRun a (jbRun k leg marked d) :=
  .ite w (.ite (.modLeg (.ite w.jbRecord w)) (.ite w w.modLeg.jbRecord))

protected theorem LegsRun.noteDispatch {k} (w : LegsRun a d) : LegsRun a (noteDispatch k d) :=
  ⟨w.weir, w.twin, w.recd, w.regs, fun h => ((RunNoted.refl.noteDispatch).current h).trans (w.current h)⟩

theorem LegsRun.lists (w : LegsRun d e) : e.weir.lists = d.weir.lists := (congrArg Weir.lists w.weir :)
theorem LegsRun.healthy (w : LegsRun d e) : e.weir.healthy = d.weir.healthy := (congrArg Weir.healthy w.weir :)
theorem LegsRun.tokens (w : LegsRun d e) : e.weir.tokens = d.weir.tokens := (congrArg Weir.tokens w.weir :)
theorem LegsRun.rel (w : LegsRun d e) : e.weir.rel = d.weir.rel := (congrArg Weir.rel w.weir :)
theorem LegsRun.role (w : LegsRun d e) : e.twin.role = d.twin.role := (congrArg Twin.role w.twin :)

/-! ### The only token fires or is passed over (R108, R127) -/

/-- The device with no token left and a release entry queued for the pass of `k` (R107, R114). -/
def released (k : Token) (d : Dev) : Dev :=
  { d with weir := { d.weir with tokens := [], rel := d.weir.rel ++ [⟨k.bus, k.handle, k.pass, d.weir.lastP, none, false⟩] } }

/-- The only token is dropped. -/
theorem dropToken_one {k : Token} (ht : d.weir.tokens = [k]) : dropToken k d = { d with weir := { d.weir with tokens := [] } } := by
  have hnone : d.weir.tokens.erase k = [] := by rw [ht, List.erase_cons_head]
  exact (congrArg (fun l => { d with weir := { d.weir with tokens := l } }) hnone :)

theorem counted_released (n : Nat) (k : Token) (d : Dev) : rgN n (incRg n (released k d)) = (rgN n d + 1) % 2 ^ 32 := rgN_incRg _ _

theorem weirBecame_released {s : State} (n : Nat) {k : Token} (hbus : k.bus = false) :
    WeirBecame { s.dev.weir with tokens := [], rel := s.dev.weir.rel ++ [⟨false, k.handle, k.pass, s.dev.weir.lastP, none, false⟩] } s
      { s with dev := incRg n (released k s.dev) } := by
  rw [released, hbus]
  exact ⟨rfl, rfl⟩

theorem released_eq {k : Token} (ht : d.weir.tokens = [k]) :
    modWeir (fun w => { w with rel := w.rel ++ [⟨k.bus, k.handle, k.pass, d.weir.lastP, none, false⟩] }) (dropToken k d) = released k d := by
  rw [dropToken_one ht]
  rfl

/-- The only token of a current channel fires: its release entry is queued, the firing counted, and its job staged on the lowest healthy core of
an idle device (R108, R111). -/
theorem fireToken_one {k : Token} {c : Nat} (ht : d.weir.tokens = [k]) (hbus : k.bus = false) (hcur : current k.handle d = true)
    (hl : d.weir.lists = []) (hc : c < 64) (hh : bit d.weir.healthy c = true) (hlow : ∀ y, y < c → bit d.weir.healthy y = false) :
    ∃ x, fireToken k d = setJobs c [{ jobOf k d with st := .staging, buf := 0 }] (setJobs c [jobOf k d] x) ∧
      LegsRun (incRg (if tokenFull k d then rWEIR_CNT_FIRED else rWEIR_CNT_CONCEAL) (released k d)) x := by
  have hs : itemStale false k.handle d = false := by simp [itemStale, hcur]
  obtain ⟨x, hx, hrun⟩ : ∃ x, fireToken k d = dispatch (jobOf k d) x ∧
      LegsRun (incRg (if tokenFull k d then rWEIR_CNT_FIRED else rWEIR_CNT_CONCEAL) (released k d)) x := by
    rw [← released_eq ht]
    simp only [fireToken, hs, hbus, Bool.false_eq_true, if_false]
    exact ⟨_, rfl, .noteDispatch (.jbRun (.jbRun .refl))⟩
  have hstale : itemStale (jobOf k d).bus (jobOf k d).handle x = false := by
    have : current k.handle x = true := (hrun.current _).trans hcur
    simp [itemStale, jobOf, this]
  refine ⟨x, hx.trans (dispatch_idle (hrun.lists.trans hl) hc ?_ (fun y hy => ?_) rfl hstale), hrun⟩
  · rw [hrun.healthy]
    exact hh
  · rw [hrun.healthy]
    exact hlow y hy

/-- A stale item changes registers, and what raising a cause writes (R127). -/
theorem stale_touched (cnt : Nat) (h : W32) (d : Dev) : Touched { d with regs := (stale cnt h d).regs } (stale cnt h d) := by
  unfold stale vcnt
  extract_lets key was d1
  split
  · exact (raise_touched _ _ _).withRegs rfl
  · rfl

theorem stale_twin (cnt : Nat) (h : W32) (d : Dev) : (stale cnt h d).twin = d.twin := (stale_touched cnt h d).twin
theorem stale_recd (cnt : Nat) (h : W32) (d : Dev) : (stale cnt h d).recd = d.recd := (stale_touched cnt h d).recd

/-- The only token, stale, is discarded at its deadline, with its context or without. -/
theorem deadlineToken_stale {k : Token} (ht : d.weir.tokens = [k]) (hbus : k.bus = false) (hcur : current k.handle d = false)
    (hlate : d.weir.rel.any (fun r => r.late) = false) :
    deadlineToken k d = stale rWEIR_CNT_STALE_TOKEN k.handle { d with weir := { d.weir with tokens := [] } } := by
  have hs : itemStale k.bus k.handle d = true := by simp [itemStale, hbus, hcur]
  have hnone : d.weir.rel.any (fun r => r.late && decide (r.bus = k.bus) && decide (r.handle = k.handle)) = false := by
    rw [List.any_eq_false] at hlate ⊢
    intro r hr
    simp [hlate r hr]
  unfold deadlineToken fireToken
  rw [hnone, hs, dropToken_one ht]
  simp only [Bool.false_eq_true, if_false, if_true, ite_self]

/-- The only token, without its context, is not dispatched: it is counted and its pass released as a marker. -/
theorem deadlineToken_noctx {k : Token} (ht : d.weir.tokens = [k]) (hcur : current k.handle d = true)
    (hctx : k.fillCtx = false) (hlate : d.weir.rel.any (fun r => r.late) = false) (hcopy : chSt (hSlot k.handle) d ≠ .copying) :
    deadlineToken k d = incRg rWEIR_CNT_NOCTX (released k d) := by
  have hs : itemStale k.bus k.handle d = false := by simp [itemStale, hcur]
  have hnone : d.weir.rel.any (fun r => r.late && decide (r.bus = k.bus) && decide (r.handle = k.handle)) = false := by
    rw [List.any_eq_false] at hlate ⊢
    intro r hr
    simp [hlate r hr]
  rw [← released_eq ht]
  unfold deadlineToken
  rw [hctx, hnone, hs, decide_eq_false hcopy, Bool.and_false]
  rfl

/-- At its deadline the Weir of a lone device acts on the one token that is eligible, and exports nothing. -/
theorem deadlinePasses_one {k : Token} (hruns : WeirWorks d) (hrole : d.twin.role = .alone)
    (hpast : (rgN rWEIR_DEADLINE d : Int) ≤ sdiff (now d) d.weir.lastP)
    (hreach : reached d (d.weir.lastP + BitVec.ofNat 32 (rgN rWEIR_DEADLINE d)) = true) (ht : d.weir.tokens = [k]) (hel : k.elig = true)
    (hr : (deadlineToken k d).twin.role = .alone) (hst : (deadlineToken k d).recd.staged = []) : deadlinePasses d = deadlineToken k d := by
  obtain ⟨hseeded, hfault, hdormant⟩ := hruns
  have hw : weirRuns d = true := by simp [weirRuns, hseeded, hfault, hdormant]
  have hz (t : NT32) : horizonAt t d = true := by simp [horizonAt, shadowing, hrole]
  have hone : deadline d = deadlineToken k d := by
    unfold deadline
    rw [hw, hz, decide_eq_true hpast, ht]
    simp [hel]
  unfold deadlinePasses
  dsimp only
  rw [hw, hreach, hone, sendHorizon_of_alone _ hr, exportStaged_of_none hst]
  rfl

end

/-- Settles O14: the one token fires, is passed over for want of its context, or is discarded. -/
theorem dispatchDeadline : Obligations.DispatchDeadline := by
  intro s k c d w due hworks halone hpast hreach hstaged ht hel hbus hl hc hh hlow p
  obtain ⟨hrole, -, -, -⟩ := halone
  have passes := deadlinePasses_one hworks hrole hpast hreach ht hel
  refine ⟨fun hcur hctx => ?_, fun hcur hctx hlate hcopy => ?_, fun hcur hlate => ?_⟩
  · have hfire : deadlineToken k d = fireToken k d := by rw [deadlineToken, hctx]; rfl
    obtain ⟨x, hx, hrun⟩ := fireToken_one ht hbus hcur hl hc hh hlow
    rw [hfire, hx] at passes
    have hexec := passes (hrun.role.trans hrole) ((congrArg Recorder.staged hrun.recd).trans hstaged)
    have hcount : rgN (if tokenFull k d then rWEIR_CNT_FIRED else rWEIR_CNT_CONCEAL) x =
        (rgN (if tokenFull k d then rWEIR_CNT_FIRED else rWEIR_CNT_CONCEAL) d + 1) % 2 ^ 32 := by
      rw [rgN, hrun.regs _ (by split <;> decide)]
      exact counted_released _ _ _
    have hfull : tokenFull k d = (k.fillA && k.fillB && k.fillProg) := by simp [tokenFull, hctx, hbus]
    refine ⟨_, { jobOf k d with st := .staging, buf := 0 }, onDev_eq hexec, rfl, hrun.tokens, ?_, fun y hy => ?_, ?_, ?_⟩
    · simp
    · have hidle : jobs y x = [] := by rw [jobs, hrun.lists]; exact hl ▸ rfl
      simp [hy, hidle]
    · have hrel : x.weir.rel = w.rel ++ [⟨false, k.handle, k.pass, due, none, false⟩] := by rw [hrun.rel, incRg_weir, released, hbus]
      exact hrel
    · have hresv : (jobOf k d).resv = (chargeIn p.part p.desc d).cycles := by simp [jobOf, hbus, p]
      have hnoProg : (jobOf k d).noProg = !k.fillProg := by simp [jobOf, hbus]
      have hsnap : (jobOf k d).snap = p := by simp [jobOf, hbus, p]
      refine ⟨hbus, rfl, rfl, rfl, hresv, rfl, rfl, rfl, hnoProg, hsnap, rfl, rfl, rfl, rfl, fun ha hb hprog => ?_, fun hmissing => ?_⟩
      · rw [hfull, ha, hb, hprog] at hcount
        exact hcount
      · have hsome : (k.fillA && k.fillB && k.fillProg) = false := by
          rcases hmissing with h | h | h <;> simp [h]
        rw [hfull, hsome] at hcount
        exact hcount
  · rw [deadlineToken_noctx ht hcur hctx hlate hcopy] at passes
    exact ⟨_, onDev_eq (passes hrole hstaged), weirBecame_released _ hbus, counted_released _ _ _⟩
  · rw [deadlineToken_stale ht hbus hcur hlate] at passes
    exact ⟨_, onDev_eq (passes ((congrArg Twin.role (stale_twin _ _ _)).trans hrole) ((congrArg Recorder.staged (stale_recd _ _ _)).trans hstaged)),
      stale_weir _ _ _, (stale_noted _ _ _).slots, rgN_stale _ _ (by decide)⟩

end Sys2Proof.Machine
end

section
/-! PROOF. O15: a job that is alone in the lists. With nothing listed behind it and no shortened pass left, no other job moves when its core goes
on, so each command is said once by what it makes of the list, of the core and of the channel's slot. -/
namespace Sys2Proof.Machine

/-! ### A context buffer of a core (R121, R226) -/

theorem tabGet_append_of_mem {α : Type} {dflt : Nat → α} {a : Nat} : ∀ {s t : Tab α}, a ∈ s.map Prod.fst → tabGet dflt (s ++ t) a = tabGet dflt s a
  | [], _, h => absurd h List.not_mem_nil
  | (i, v) :: s, t, h => by
    by_cases hi : i = a
    · simp [tabGet, hi]
    · have hs : a ∈ s.map Prod.fst := (List.mem_cons.1 h).resolve_left (Ne.symm hi)
      simpa [tabGet, hi] using tabGet_append_of_mem hs

theorem tabGet_append_of_notMem {α : Type} {dflt : Nat → α} {a : Nat} : ∀ {s t : Tab α}, a ∉ s.map Prod.fst → tabGet dflt (s ++ t) a = tabGet dflt t a
  | [], _, _ => rfl
  | (i, v) :: s, t, h => by
    obtain ⟨hi, hs⟩ := not_or.1 (fun hm => h (List.mem_cons.2 hm))
    simpa [tabGet, Ne.symm hi] using tabGet_append_of_notMem hs

/-- The entries of words placed from an address on: a word of 0 has none. -/
def wordEntries (lo : Nat) (ws : List Word) : Tab Word :=
  ((List.range ws.length).zip ws).filterMap fun e => if e.2 = 0 then none else some (lo + e.1, e.2)

theorem wordEntries_cons (lo : Nat) (w : Word) (ws : List Word) :
    wordEntries lo (w :: ws) = (if w = 0 then [] else [(lo, w)]) ++ wordEntries (lo + 1) ws := by
  have hshift : (List.range (w :: ws).length).zip (w :: ws) = (0, w) :: (((List.range ws.length).zip ws).map fun e => (e.1 + 1, e.2)) := by
    rw [List.length_cons, List.range_succ_eq_map, List.zip_cons_cons, List.zip_map_left]
    rfl
  rw [wordEntries, hshift, List.filterMap_cons, List.filterMap_map]
  have htail : (((List.range ws.length).zip ws).filterMap ((fun e : Nat × Word => if e.2 = 0 then none else some (lo + e.1, e.2)) ∘ fun e => (e.1 + 1, e.2))) =
      wordEntries (lo + 1) ws := by
    unfold wordEntries
    refine congrArg (List.filterMap · _) (funext fun e => ?_)
    simp [Nat.add_assoc, Nat.add_comm 1]
  rw [htail]
  by_cases hw : w = 0
  · rw [if_pos hw, if_pos hw, List.nil_append]
  · rw [if_neg hw, if_neg hw, List.singleton_append]
    rfl

theorem tabGet_wordEntries (a : Nat) : ∀ (lo : Nat) (ws : List Word), tabGet (fun _ => 0) (wordEntries lo ws) a = if lo ≤ a then ws.getD (a - lo) 0 else 0
  | lo, [] => by simp [wordEntries, tabGet]
  | lo, w :: ws => by
    have ih := tabGet_wordEntries a (lo + 1) ws
    rw [wordEntries_cons]
    rcases Nat.lt_trichotomy a lo with hlt | rfl | hgt
    · rw [tabGet_append_of_notMem (by split <;> simp [hlt.ne]), ih, if_neg (by omega), if_neg (by omega)]
    · split
      · next hw =>
        rw [List.nil_append, ih, if_neg (by omega)]
        simp [hw]
      · simp [tabGet]
    · rw [tabGet_append_of_notMem (by split <;> simp [hgt.ne']), ih, if_pos (by omega), if_pos (by omega)]
      obtain ⟨n, rfl⟩ : ∃ n, a = lo + 1 + n := ⟨a - (lo + 1), by omega⟩
      simp [show lo + 1 + n - (lo + 1) = n by omega, show lo + 1 + n - lo = n + 1 by omega]

/-- Data memory once words stand in a context buffer. -/
def placed (lo : Nat) (ws : List Word) (m : Tab Word) : Tab Word :=
  m.filter (fun e => decide (e.1 < lo)) ++ wordEntries lo ws ++ m.filter fun e => decide (lo + ws.length ≤ e.1)

theorem wordEntries_keys {a lo : Nat} {ws : List Word} (h : a ∈ (wordEntries lo ws).map Prod.fst) : lo ≤ a ∧ a < lo + ws.length := by
  simp only [wordEntries, List.mem_map, List.mem_filterMap] at h
  obtain ⟨e, ⟨x, hx, he⟩, rfl⟩ := h
  have hlt : x.1 < ws.length := List.mem_range.1 (List.of_mem_zip (a := x.1) (b := x.2) hx).1
  split at he
  · exact absurd he (by simp)
  · injection he with he
    rw [← he]
    exact ⟨Nat.le_add_right _ _, Nat.add_lt_add_left hlt lo⟩

theorem filter_keys {a : Nat} {p : Nat → Bool} {m : Tab Word} (h : p a = false) : a ∉ (m.filter fun e => p e.1).map Prod.fst := by
  intro hm
  obtain ⟨e, he, rfl⟩ := List.mem_map.1 hm
  rw [(List.mem_filter.1 he).2] at h
  exact Bool.noConfusion h

/-- A word of data memory after words were placed: theirs where they stand, the memory's elsewhere. -/
theorem tabGet_placed (lo : Nat) (ws : List Word) (m : Tab Word) (a : Nat) :
    tabGet (fun _ => 0) (placed lo ws m) a = if lo ≤ a ∧ a < lo + ws.length then ws.getD (a - lo) 0 else tabGet (fun _ => 0) m a := by
  have below (p : Nat → Bool) : tabGet (fun _ => (0 : Word)) (m.filter fun e => p e.1) a = if p a then tabGet (fun _ => 0) m a else 0 :=
    tabGet_tabFilter (fun _ => 0) p a m
  unfold placed
  rw [List.append_assoc]
  by_cases h1 : a < lo
  · rw [if_neg (by omega)]
    by_cases hm : a ∈ (m.filter fun e => decide (e.1 < lo)).map Prod.fst
    · rw [tabGet_append_of_mem hm, below (fun i => decide (i < lo)), if_pos (by simpa using h1)]
    · have hrest : a ∉ (wordEntries lo ws ++ m.filter fun e => decide (lo + ws.length ≤ e.1)).map Prod.fst := by
        rw [List.map_append, List.mem_append]
        rintro (h | h)
        · exact absurd (wordEntries_keys h).1 (by omega)
        · exact filter_keys (p := fun i => decide (lo + ws.length ≤ i)) (by simp; omega) h
      have hget := below (fun i => decide (i < lo))
      rw [if_pos (by simpa using h1), tabGet_of_notMem hm] at hget
      exact (tabGet_append_of_notMem hm).trans ((tabGet_of_notMem hrest).trans hget)
  · rw [tabGet_append_of_notMem (filter_keys (p := fun i => decide (i < lo)) (by simpa using h1))]
    by_cases h2 : a < lo + ws.length
    · rw [if_pos ⟨by omega, h2⟩]
      by_cases hm : a ∈ (wordEntries lo ws).map Prod.fst
      · rw [tabGet_append_of_mem hm, tabGet_wordEntries, if_pos (by omega)]
      · have hget := tabGet_wordEntries a lo ws
        rw [tabGet_of_notMem hm, if_pos (by omega)] at hget
        rw [tabGet_append_of_notMem hm, below (fun i => decide (lo + ws.length ≤ i)), if_neg (by simpa using h2)]
        exact hget
    · rw [if_neg (by omega), tabGet_append_of_notMem (fun h => absurd (wordEntries_keys h).2 h2), below (fun i => decide (lo + ws.length ≤ i)),
        if_pos (by simp; omega)]

theorem fillBuffer_eq (c b : Nat) (ws : List Word) (d : Dev) :
    fillBuffer c b ws d = modTarn c (fun t => { t with dm := placed (0x4000 * b) ws t.dm }) d := rfl

/-! ### A core with one job goes on (R111) -/

section
variable {c : Nat} {j : Job} {o : JobOut} {d : Dev}

/-- Core `c` holds job `j` alone: no other is listed, no pass was shortened and no twin asks for a context. -/
structure OneJob (c : Nat) (j : Job) (d : Dev) : Prop where
  lists : d.weir.lists = [(c, [j])]
  lateFrom : d.weir.lateFrom = none
  want : d.twin.want = []

theorem OneJob.jobs (w : OneJob c j d) : jobs c d = [j] := by simp [Machine.jobs, w.lists, tabGet]

/-- The list of the only core with one, replaced. -/
theorem setJobs_one {l : List Job} (hl : d.weir.lists = [(c, l)]) (x : Job) :
    setJobs c [x] d = { d with weir := { d.weir with lists := [(c, [x])] } } := by
  have hset : tabSet (fun _ => []) d.weir.lists c [x] = [(c, [x])] := by simp [hl, tabSet, tabIns]
  exact congrArg (fun l => { d with weir := { d.weir with lists := l } }) hset

theorem setJobs_none {l : List Job} (hl : d.weir.lists = [(c, l)]) : setJobs c [] d = { d with weir := { d.weir with lists := [] } } := by
  have hset : tabSet (fun _ => []) d.weir.lists c [] = [] := by simp [hl, tabSet]
  exact congrArg (fun l => { d with weir := { d.weir with lists := l } }) hset

/-- With nothing listed but jobs that stream out there is nothing to take and nothing to stage. -/
theorem coreNext_idle (h : ∀ x, ∀ y ∈ jobs x d, y.st = .streamOut) : coreNext c d = d := by
  have hun (x : Nat) : unstaged (jobs x d) = 0 := by
    have hnone : ((jobs x d).filter fun j => decide (j.st = .listed)) = [] := List.filter_eq_nil_iff.2 fun y hy => by simp [h x y hy]
    rw [unstaged, hnone]
    rfl
  have hsteal : steal c d = d := by
    unfold steal
    split
    · rfl
    · simp [hun]
  have hfind : (jobs c d).find? (fun j => decide (j.st = .listed)) = none := List.find?_eq_none.2 fun y hy => by simp [h c y hy]
  rw [coreNext, hsteal]
  simp [stage, hfind]

theorem coreNext_streamOut (hl : d.weir.lists = [(c, [j])]) (hj : j.st = .streamOut) : coreNext c d = d :=
  coreNext_idle fun x y hy => by
    by_cases hx : c = x
    · simp only [jobs, hl, tabGet, hx, if_pos, List.mem_singleton] at hy
      rw [hy, hj]
    · simp [jobs, hl, tabGet, hx] at hy

theorem coreNext_none (hl : d.weir.lists = []) : coreNext c d = d := coreNext_idle fun x y hy => by simp [jobs, hl, tabGet] at hy

theorem meetPoison_none (hp : d.poison = []) (as : List Nat) : meetPoison as d = d := by
  have hnone : (as.filter fun a => d.poison.contains a) = [] := by simp [hp]
  rw [meetPoison, hnone]
  rfl

theorem fillCtx_none (ht : d.weir.tokens = []) (b : Bool) (h : W32) : fillCtx b h d = d := by
  unfold fillCtx
  simp [ht]

theorem releaseLate_none (h : d.weir.lateFrom = none) : releaseLate d = d := by
  unfold releaseLate
  generalize (d.weir.rel.filter (·.late)).length = n
  cases n with
  | zero => rfl
  | succ n => simp [releaseLateFrom, h]

/-- A commit lets nothing else go: no pass was shortened and no twin asks for a context. -/
theorem afterCommit_none (hlate : d.weir.lateFrom = none) (hwant : d.twin.want = []) (d0 : Dev) : afterCommit c d0 d = d := by
  have hctx (h : W32) (p : NT32) : contextCommit h p d = d := by simp [contextCommit, hwant]
  unfold afterCommit
  rw [releaseLate_none hlate]
  split
  · split
    · rfl
    · exact hctx _ _
  · rfl

/-! ### Stream-in (R121, R226, R242) -/

theorem putJob_one (w : OneJob c j d) (j' : Job) : putJob c j j' d = setJobs c [j'] d := by simp [putJob, w.jobs]

@[simp] theorem tarn_setJobs (x i : Nat) (l : List Job) (d : Dev) : tarn x (setJobs i l d) = tarn x d := rfl
@[simp] theorem tarn_noteWords (x i n : Nat) (d : Dev) : tarn x (noteWords i n d) = tarn x d := rfl
theorem tarn_fillBuffer (x i b : Nat) (ws : List Word) (d : Dev) :
    tarn x (fillBuffer i b ws d) = if x = i then { tarn i d with dm := placed (0x4000 * b) ws (tarn i d).dm } else tarn x d := by
  rw [fillBuffer_eq, tarn_modTarn]

/-- The device once the stream-in of its one job is complete. -/
def streamedIn (c : Nat) (j : Job) (d : Dev) : Dev :=
  noteWords c (jobWords j d) (modTarn c (fun t => { t with job := true })
    (fillBuffer c j.buf ((jobAddrs j d).map fun a => basinRead a d) (setJobs c [{ j with st := .ready }] d)))

theorem streamIn_one (w : OneJob c j d) (hst : j.st = .staging) (hp : d.poison = []) : streamIn c d = streamedIn c j d := by
  have hfind : (jobs c d).find? (fun j => decide (j.st = .staging)) = some j := by simp [w.jobs, hst]
  unfold streamIn
  rw [hfind]
  dsimp only
  rw [putJob_one w]
  exact meetPoison_none (by exact hp) _

theorem streamedIn_same (w : OneJob c j d) : streamedIn c j d =
    { d with weir := { d.weir with lists := [(c, [{ j with st := .ready }])], strm := (streamedIn c j d).weir.strm }, tarns := (streamedIn c j d).tarns } := by
  unfold streamedIn
  rw [setJobs_one w.lists]
  rfl

theorem tarn_streamedIn (x c : Nat) (j : Job) (d : Dev) : tarn x (streamedIn c j d) = if x = c then
    { tarn c d with job := true, dm := placed (0x4000 * j.buf) ((jobAddrs j d).map fun a => basinRead a d) (tarn c d).dm } else tarn x d := by
  unfold streamedIn
  by_cases hx : x = c <;> simp [hx, tarn_fillBuffer]

/-- A word of data memory once the context stands in the job's buffer: of the buffer, the Basin's word of the context. -/
theorem loaded_streamedIn (c : Nat) (j : Job) (d : Dev) (a : Nat) : tabGet (fun _ => 0) (tarn c (streamedIn c j d)).dm a =
    if 0x4000 * j.buf ≤ a ∧ a < 0x4000 * j.buf + (jobAddrs j d).length then basinRead ((jobAddrs j d).getD (a - 0x4000 * j.buf) 0) d
    else tabGet (fun _ => 0) (tarn c d).dm a := by
  rw [tarn_streamedIn, if_pos rfl, tabGet_placed, List.length_map]
  split
  · next h =>
    have hlt : a - 0x4000 * j.buf < (jobAddrs j d).length := by omega
    simp [List.getD, hlt]
  · rfl

/-! ### A job runs (R191, R217, R233, R251) -/

/-- The device once its one job has run: its outputs stand with it, and a channel's new context in its buffer. -/
def ran (c : Nat) (j : Job) (d : Dev) : Dev :=
  let o := jobOutputs j d
  let d1 := setJobs c [{ j with st := .done, out := some o }]
    (modTarn c (fun t => { setTr 0x34 (BitVec.ofNat 64 (wdogFor j % 65536)) t with st := .running, cache := none, fill := false }) d)
  if j.bus then d1 else fillBuffer c j.buf (contextWords o.ctx (jobAddrs j d).length) d1

theorem runJob_one (w : OneJob c j d) (hc : coreOk c d = true) (hst : j.st = .ready) (hp : d.poison = []) : runJob j.bus c d = ran c j d := by
  have hfind : (jobs c d).find? Job.onCore = some j := by simp [w.jobs, hst, Job.onCore]
  have hbad (l : List Nat) : (l.any fun a => d.poison.contains a) = false := by simp [hp]
  unfold runJob
  rw [hfind]
  dsimp only
  rw [if_neg (by simp [hc, hst]), hbad, meetPoison_none hp]
  simp only [Bool.false_eq_true, if_false, or_self]
  have hjobs (f : Tarn → Tarn) : (jobs c (modTarn c f d)).map (fun x => if x = j then { j with st := .done, out := some (jobOutputs j d) } else x) =
      [{ j with st := .done, out := some (jobOutputs j d) }] := by
    rw [show jobs c (modTarn c f d) = [j] from w.jobs]
    simp
  rw [hjobs]
  rfl

theorem ran_same (w : OneJob c j d) : ran c j d =
    { d with weir := { d.weir with lists := [(c, [{ j with st := .done, out := some (jobOutputs j d) }])] }, tarns := (ran c j d).tarns } := by
  have hset (f : Tarn → Tarn) (x : Job) : setJobs c [x] (modTarn c f d) = { modTarn c f d with weir := { d.weir with lists := [(c, [x])] } } :=
    setJobs_one (d := modTarn c f d) (by exact w.lists) x
  unfold ran
  dsimp only
  rw [hset]
  split <;> rfl

theorem tarn_ran (x c : Nat) (j : Job) (d : Dev) : tarn x (ran c j d) = if x = c then
    { setTr 0x34 (BitVec.ofNat 64 (wdogFor j % 65536)) (tarn c d) with st := .running, cache := none, fill := false, dm := (tarn c (ran c j d)).dm }
    else tarn x d := by
  unfold ran
  by_cases hb : j.bus = true
  · by_cases hx : x = c <;> simp [hb, hx]
  · by_cases hx : x = c <;> simp [hb, hx, tarn_fillBuffer]

/-- WDOG at the start of a job (R251). -/
theorem wdog_ran (c : Nat) (j : Job) (d : Dev) : (tr 0x34 (tarn c (ran c j d))).toNat = wdogFor j % 65536 := by
  have hlt : wdogFor j % 65536 % 2 ^ 64 = wdogFor j % 65536 := by omega
  rw [tarn_ran, if_pos rfl]
  show (tr 0x34 (setTr 0x34 (BitVec.ofNat 64 (wdogFor j % 65536)) (tarn c d))).toNat = _
  rw [tr_setTr, if_pos rfl, BitVec.toNat_ofNat, hlt]

/-! ### A job completes (R121, R122) -/

theorem syncToneEnd_noted (k : Nat) (d : Dev) : Noted (dlKeys 4) d (syncToneEnd k d) := by
  unfold syncToneEnd
  dsimp only
  split
  · exact Noted.refl.dlDrop
  · exact Noted.refl.dlDrop.dlAdd le_rfl

theorem commitSlot_same (j : Job) (o : JobOut) (d : Dev) : commitSlot j o d = { d with slots := (commitSlot j o d).slots } := by
  unfold commitSlot
  dsimp only
  split <;> rfl

/-- A job's outputs in the release entry of its pass (R122). -/
def handOn (j : Job) (o : JobOut) (r : RelEntry) : RelEntry :=
  if r.bus = false ∧ r.handle = j.handle ∧ r.pass = j.pass ∧ r.out = none then { r with out := some o } else r

/-- The commit of a job `j` with outputs `o` on core `c`, which holds it alone, has taken `d` to `e`. -/
structure Committed (c : Nat) (j : Job) (o : JobOut) (d e : Dev) : Prop where
  jobs : jobs c e = [{ j with st := .streamOut }]
  idle : (tarn c e).st = .idle
  counted : (tarn c e).jobs = (tarn c d).jobs + 1
  drained : j.ten = none → (tarn c e).sb = [] ∧ (tarn c e).dm = drained (tarn c d).sb (tarn c d).dm
  slots : e.slots = (commitSlot j o d).slots
  rel : e.weir.rel = d.weir.rel.map (handOn j o)
  lateFrom : e.weir.lateFrom = none
  want : e.twin.want = []

/-- Everything of a commit but the stream-out it begins: the core is idle, the channel's state and its tone's end stand. -/
def committing (c : Nat) (j : Job) (o : JobOut) (d : Dev) : Dev :=
  syncToneEnd (hSlot j.handle) (commitSlot j o (modTarn c (fun t => { t with st := .idle, jobs := t.jobs + 1, sb := [], dm := drained t.sb t.dm }) d))

theorem Noted.tarns {K : Set Nat} {e : Dev} (w : Noted K d e) : e.tarns = d.tarns := congrArg (fun x => x.tarns) w.same
theorem Noted.want {K : Set Nat} {e : Dev} (w : Noted K d e) : e.twin.want = d.twin.want := congrArg (fun x => x.twin.want) w.same

theorem commitSlot_slots (j : Job) (o : JobOut) (f : Tarn → Tarn) : (commitSlot j o (modTarn c f d)).slots = (commitSlot j o d).slots := by
  unfold commitSlot
  by_cases h : (slot (hSlot j.handle) d).inits ≠ j.snap.inits
  · rw [if_pos h, if_pos (by exact h)]
    rfl
  · rw [if_neg h, if_neg (by exact h)]
    rfl

theorem committing_slots (c : Nat) (j : Job) (o : JobOut) (d : Dev) : (committing c j o d).slots = (commitSlot j o d).slots := by
  rw [committing, (syncToneEnd_noted _ _).slots, commitSlot_slots]

/-- A commit leaves the Weir but the delay lists. -/
theorem committing_weir (c : Nat) (j : Job) (o : JobOut) (d : Dev) : { (committing c j o d).weir with dl := [] } = { d.weir with dl := [] } := by
  rw [committing, (syncToneEnd_noted _ _).weir, commitSlot_same]
  rfl

theorem committing_tarns (c : Nat) (j : Job) (o : JobOut) (d : Dev) : (committing c j o d).tarns =
    (modTarn c (fun t => { t with st := .idle, jobs := t.jobs + 1, sb := [], dm := drained t.sb t.dm }) d).tarns := by
  rw [committing, (syncToneEnd_noted _ _).tarns, commitSlot_same]

theorem committing_want (c : Nat) (j : Job) (o : JobOut) (d : Dev) : (committing c j o d).twin.want = d.twin.want := by
  rw [committing, (syncToneEnd_noted _ _).want, commitSlot_same]
  rfl

/-- Only a record of a program's end names the core that ran it (R143). -/
theorem recs_unmarked (c : Nat) (h : ∀ r ∈ o.recs, r.typ ≠ 0x25 ∧ r.typ ≠ 0x24) :
    (o.recs.map fun r => if r.typ = 0x25 ∨ r.typ = 0x24 then { r with w16 := c } else r) = o.recs := by
  refine (List.map_congr_left fun r hr => ?_).trans (List.map_id _)
  rw [if_neg (not_or.2 (h r hr))]
  rfl

/-- A job's outputs enter the release entry of its pass; the context its tenant stage led to stands in its buffer. -/
def handedOn (c : Nat) (j : Job) (o : JobOut) (d : Dev) : Dev :=
  let d1 := modWeir (fun w => { w with rel := w.rel.map (handOn j o) }) d
  if j.ten.isSome then fillBuffer c j.buf (contextWords o.ctx (jobAddrs j d1).length) d1 else d1

theorem completeJob_one (w : OneJob c j d) (hst : j.st = .done) (ho : j.out = some o) (hbus : j.bus = false) (hrep : j.replay = false)
    (hcur : current j.handle d = true) (hrecs : ∀ r ∈ o.recs, r.typ ≠ 0x25 ∧ r.typ ≠ 0x24) :
    completeJob c d = coreNext c (putJob c j { j with st := .streamOut } (handedOn c j o (committing c j o d))) := by
  have hhead : headJob c d = some j := by simp [headJob, w.jobs, hst, Job.onCore]
  have hj : ({ j with st := .streamOut, out := some o } : Job) = { j with st := .streamOut } := by rw [← ho]
  have hrel (x : Dev) : replayedRec j c x = x := by simp [replayedRec, hrep]
  unfold completeJob
  rw [hhead]
  dsimp only
  rw [ho]
  dsimp only
  rw [if_neg (by simp [itemStale, hcur]), recs_unmarked c hrecs, hj, hrel, hbus]
  rfl

theorem handedOn_weir (c : Nat) (j : Job) (o : JobOut) (d : Dev) : (handedOn c j o d).weir = { d.weir with rel := d.weir.rel.map (handOn j o) } := by
  unfold handedOn
  dsimp only
  split <;> rfl

theorem handedOn_slots (c : Nat) (j : Job) (o : JobOut) (d : Dev) : (handedOn c j o d).slots = d.slots := by
  unfold handedOn
  dsimp only
  split <;> rfl

theorem handedOn_twin (c : Nat) (j : Job) (o : JobOut) (d : Dev) : (handedOn c j o d).twin = d.twin := by
  unfold handedOn
  dsimp only
  split <;> rfl

theorem tarn_handedOn (c : Nat) (j : Job) (o : JobOut) (d : Dev) : tarn c (handedOn c j o d) = { tarn c d with dm := (tarn c (handedOn c j o d)).dm } := by
  unfold handedOn
  dsimp only
  split
  · rw [tarn_fillBuffer, if_pos rfl]
    rfl
  · rfl

/-- Without a tenant stage the core's data memory stays. -/
theorem tarn_handedOn_plain (c : Nat) (o : JobOut) (d : Dev) (h : j.ten = none) : tarn c (handedOn c j o d) = tarn c d := by
  unfold handedOn
  rw [h]
  rfl

theorem OneJob.handedOn (w : OneJob c j d) (o : JobOut) : OneJob c j (handedOn c j o d) := by
  refine ⟨?_, ?_, ?_⟩
  · rw [handedOn_weir]
    exact w.lists
  · rw [handedOn_weir]
    exact w.lateFrom
  · rw [handedOn_twin]
    exact w.want

theorem OneJob.committing (w : OneJob c j d) (o : JobOut) : OneJob c j (committing c j o d) := by
  have hw := committing_weir c j o d
  exact ⟨(congrArg Weir.lists hw : _).trans w.lists, (congrArg Weir.lateFrom hw : _).trans w.lateFrom, (committing_want c j o d).trans w.want⟩

theorem committing_rel (c : Nat) (j : Job) (o : JobOut) (d : Dev) : (committing c j o d).weir.rel = d.weir.rel :=
  (congrArg Weir.rel (committing_weir c j o d) :)

theorem tarn_committing (c : Nat) (j : Job) (o : JobOut) (d : Dev) : tarn c (committing c j o d) =
    { tarn c d with st := .idle, jobs := (tarn c d).jobs + 1, sb := [], dm := drained (tarn c d).sb (tarn c d).dm } := by
  rw [tarn, committing_tarns]
  exact (tarn_modTarn c c _ d).trans (if_pos rfl)

theorem committed_one (w : OneJob c j d) (hst : j.st = .done) (ho : j.out = some o) (hbus : j.bus = false) (hrep : j.replay = false)
    (hcur : current j.handle d = true) (hrecs : ∀ r ∈ o.recs, r.typ ≠ 0x25 ∧ r.typ ≠ 0x24) : Committed c j o d (completeJob c d) := by
  have wh := (w.committing o).handedOn o
  have hcommit : completeJob c d = setJobs c [{ j with st := .streamOut }] (handedOn c j o (committing c j o d)) := by
    rw [completeJob_one w hst ho hbus hrep hcur hrecs, putJob_one wh]
    exact coreNext_streamOut (by rw [setJobs_one wh.lists]) rfl
  rw [hcommit]
  refine ⟨by simp, ?_, ?_, fun hn => ?_, ?_, ?_, wh.lateFrom, wh.want⟩
  · rw [tarn_setJobs, tarn_handedOn, tarn_committing]
  · rw [tarn_setJobs, tarn_handedOn, tarn_committing]
  · rw [tarn_setJobs, tarn_handedOn_plain _ _ _ hn, tarn_committing]
    exact ⟨rfl, rfl⟩
  · exact (handedOn_slots c j o _).trans (committing_slots c j o d)
  · refine (congrArg Weir.rel (handedOn_weir c j o _)).trans ?_
    show (committing c j o d).weir.rel.map (handOn j o) = _
    rw [committing_rel]

theorem Committed.afterCommit {e : Dev} (w : Committed c j o d e) (d0 : Dev) : afterCommit c d0 e = e := afterCommit_none w.lateFrom w.want d0

/-- The channel whose job commits has its new context and media, and keeps its descriptor. -/
theorem Committed.slot {e : Dev} (w : Committed c j o d e) (hinits : (slot (hSlot j.handle) d).inits = j.snap.inits) :
    (slot (hSlot j.handle) e).ctx = o.ctx ∧ (slot (hSlot j.handle) e).media = o.media ∧
      (slot (hSlot j.handle) e).desc = (slot (hSlot j.handle) d).desc ∧ ∀ x, x ≠ hSlot j.handle → slot x e = slot x d := by
  have hslot (x : Nat) : Machine.slot x e = Machine.slot x (commitSlot j o d) := slot_congr w.slots x
  simp only [hslot]
  unfold commitSlot
  dsimp only
  rw [if_neg (not_not.2 hinits)]
  simp only [slot_modSlot, if_true]
  exact ⟨trivial, trivial, trivial, fun x hx => if_neg hx⟩

/-! ### A stale job (R127) -/

/-- The device once a stale job is discarded at its commit. -/
def discarded (c : Nat) (j : Job) (d : Dev) : Dev := stale rWEIR_CNT_STALE_COMMIT j.handle (setJobs c []
  (modTarn c (fun t => { t with st := .idle, jobs := t.jobs + 1, sb := [], dm := drained t.sb t.dm }) d))

theorem OneJob.discarded_weir (w : OneJob c j d) : (discarded c j d).weir = { d.weir with lists := [] } := by
  rw [discarded, stale_weir, setJobs_none (l := [j]) (by exact w.lists)]
  rfl

theorem tarn_congr {e : Dev} (h : e.tarns = d.tarns) (x : Nat) : tarn x e = tarn x d := by rw [tarn, h, tarn]

theorem discarded_slots (c : Nat) (j : Job) (d : Dev) : (discarded c j d).slots = d.slots := (stale_noted _ _ _).slots

theorem discarded_twin (c : Nat) (j : Job) (d : Dev) : (discarded c j d).twin = d.twin := stale_twin _ _ _

theorem discarded_idle (c : Nat) (j : Job) (d : Dev) : (tarn c (discarded c j d)).st = .idle := by
  rw [discarded, tarn_congr (stale_noted _ _ _).tarns, tarn_congr (incRg_tarns _ _), tarn_setJobs, tarn_modTarn, if_pos rfl]

theorem discarded_counted (c : Nat) (j : Job) (d : Dev) :
    rgN rWEIR_CNT_STALE_COMMIT (discarded c j d) = (rgN rWEIR_CNT_STALE_COMMIT d + 1) % 2 ^ 32 := rgN_stale _ _ (by decide)

theorem completeJob_stale (w : OneJob c j d) (hst : j.st = .done) (ho : j.out = some o) (hbus : j.bus = false) (hcur : current j.handle d = false) :
    completeJob c d = discarded c j d := by
  have hhead : headJob c d = some j := by simp [headJob, w.jobs, hst, Job.onCore]
  have herase (f : Tarn → Tarn) : (jobs c (modTarn c f d)).erase j = [] := by
    rw [show jobs c (modTarn c f d) = [j] from w.jobs]
    simp
  unfold completeJob
  rw [hhead]
  dsimp only
  rw [ho]
  dsimp only
  rw [if_pos (by simp [itemStale, hcur, hbus]), herase]
  refine coreNext_none ?_
  exact congrArg Weir.lists w.discarded_weir

/-! ### Stream-out (R120, R121) -/

theorem mem_granWords {a : Nat} {gs : List Nat} : a ∈ granWords gs ↔ a / 1024 ∈ gs := by
  simp only [granWords, List.mem_flatMap, List.mem_map, List.mem_range]
  constructor
  · rintro ⟨g, hg, i, hi, rfl⟩
    rwa [show (g * 1024 + i) / 1024 = g by omega]
  · exact fun h => ⟨a / 1024, h, a % 1024, by omega, by omega⟩

/-- The words of different granules are different. -/
theorem nodup_granWords {gs : List Nat} (h : gs.Nodup) : (granWords gs).Nodup := by
  refine List.nodup_flatMap.2 ⟨fun g _ => List.nodup_range.map fun x y hxy => by simpa using hxy, h.imp fun {x y} hne a hx hy => ?_⟩
  obtain ⟨m, hm, rfl⟩ := List.mem_map.1 hx
  obtain ⟨n, hn, heq⟩ := List.mem_map.1 hy
  have hm := List.mem_range.1 hm
  have hn := List.mem_range.1 hn
  exact hne (by omega)

theorem basinRead_basinPut_cons (a : Nat) (e : Nat × Word) (ws : List (Nat × Word)) (d : Dev) :
    basinRead a (basinPut (e :: ws) d) = basinRead a (basinPut ws (basinPut [e] d)) := rfl

/-- Words stored at different addresses stand where they were stored. -/
theorem basinRead_basinPut_zip {as : List Nat} {ws : List Word} {i : Nat} (d : Dev) (hn : as.Nodup) (hl : as.length = ws.length) (hi : i < as.length) :
    basinRead (as.getD i 0) (basinPut (as.zip ws) d) = ws.getD i 0 := by
  induction as generalizing ws i d with
  | nil => exact absurd hi (Nat.not_lt_zero i)
  | cons a as ih =>
    obtain ⟨hna, hn⟩ := List.nodup_cons.1 hn
    cases ws with
    | nil => exact absurd hl (by simp)
    | cons w ws =>
      rw [List.zip_cons_cons, basinRead_basinPut_cons]
      cases i with
      | zero =>
        have hoff : ∀ e ∈ as.zip ws, e.1 ≠ a := fun e he hea => hna (hea ▸ (List.of_mem_zip (a := e.1) (b := e.2) he).1)
        rw [List.getD_cons_zero, List.getD_cons_zero, basinRead_basinPut_other _ _ _ hoff, basinRead_basinPut, if_pos rfl]
      | succ i =>
        rw [List.getD_cons_succ, List.getD_cons_succ]
        exact ih _ hn (Nat.succ.inj hl) (Nat.lt_of_succ_lt_succ hi)

/-- The device once the context of its one job stands in its granules again. -/
def streamedOut (c : Nat) (j : Job) (d : Dev) : Dev :=
  let as := jobAddrs j d
  basinPut (as.zip (bufferWords c j.buf as.length d))
    (noteWords c as.length (noteDone j (modTarn c (fun t => { t with sout := true }) (setJobs c [] d))))

theorem jobs_streamedOut (c : Nat) (j : Job) (d : Dev) : jobs c (streamedOut c j d) = [] := by
  have hlists : (streamedOut c j d).weir.lists = (setJobs c [] d).weir.lists := by simp [streamedOut, basinPut, noteWords, noteDone, modWeir]
  rw [jobs, hlists]
  exact (jobs_setJobs c c [] d).trans (if_pos rfl)

theorem streamedOut_rest (c : Nat) (j : Job) (d : Dev) : (streamedOut c j d).slots = d.slots ∧ (streamedOut c j d).regs = d.regs := by
  simp [streamedOut, basinPut, noteWords, noteDone]

/-- The streamer tells the core that its stream-out is complete (R242). -/
theorem sout_streamedOut (c : Nat) (j : Job) (d : Dev) : (tarn c (streamedOut c j d)).sout = true := by
  have htarn : tarn c (streamedOut c j d) = tarn c (modTarn c (fun t => { t with sout := true }) (setJobs c [] d)) :=
    tarn_congr (by simp [streamedOut, basinPut, noteWords, noteDone]) c
  rw [htarn, tarn_modTarn, if_pos rfl]

theorem streamOut_one (w : OneJob c j d) (ht : d.weir.tokens = []) (hst : j.st = .streamOut) (hbus : j.bus = false) (hcur : current j.handle d = true)
    (hinits : (slot (hSlot j.handle) d).inits = j.snap.inits) (hdata : j.out.bind (·.data) = none) :
    streamOut c none d = streamedOut c j d := by
  have hfind : (jobs c d).find? (fun j => decide (j.st = .streamOut)) = some j := by simp [w.jobs, hst]
  have herase : (jobs c d).erase j = [] := by simp [w.jobs]
  unfold streamOut
  rw [hfind]
  dsimp only
  rw [if_neg (by simp [itemStale, hcur]), if_neg (by simp [hbus, hinits]), hdata, herase]
  dsimp only
  rw [fillCtx_none (by exact ht)]
  refine coreNext_none ?_
  rw [setJobs_none w.lists]
  rfl

theorem basinRead_streamedOut (hbus : j.bus = false) (hn : (slot (hSlot j.handle) d).granules.Nodup) {i : Nat} (hi : i < (jobAddrs j d).length) :
    basinRead ((jobAddrs j d).getD i 0) (streamedOut c j d) = tabGet (fun _ => 0) (tarn c d).dm (0x4000 * j.buf + i) := by
  have haddrs : (jobAddrs j d).Nodup := by simpa [jobAddrs, hbus] using nodup_granWords hn
  unfold streamedOut
  dsimp only
  rw [basinRead_basinPut_zip _ haddrs (by simp [bufferWords]) hi]
  simp [bufferWords, List.getD, hi]

theorem basinRead_streamedOut_other (hbus : j.bus = false) {a : Nat} (ha : a / 1024 ∉ (slot (hSlot j.handle) d).granules) :
    basinRead a (streamedOut c j d) = basinRead a d := by
  have hoff : ∀ e ∈ (jobAddrs j d).zip (bufferWords c j.buf (jobAddrs j d).length d), e.1 ≠ a := fun e he hea => by
    have hmem := (List.of_mem_zip (a := e.1) (b := e.2) he).1
    rw [hea] at hmem
    simp only [jobAddrs, hbus, Bool.false_eq_true, if_false] at hmem
    exact ha (mem_granWords.1 hmem)
  exact basinRead_basinPut_other _ _ _ hoff

end

/-! ### The commands -/

/-- A command that runs the one job of a core: the job has run on what it captured, and WDOG holds its reservation (R30, R251). -/
theorem OneJob.runs {c : Nat} {j : Job} {s : State} {cmd : Instr} (w : OneJob c j s.dev) (hok : coreOk c s.dev = true) (hst : j.st = .ready)
    (hp : s.dev.poison = []) (hcmd : exec cmd s = onDev (runJob j.bus c) s) :
    ∃ t, exec cmd s = .next t ∧ t.pending = s.pending ∧
      t.dev = { s.dev with weir := { s.dev.weir with lists := [(c, [{ j with st := .done, out := some (jobOutputs j s.dev) }])] }, tarns := t.dev.tarns } ∧
      (tarn c t.dev).st = .running ∧ (tarn c t.dev).cache = none ∧ (∀ x, x ≠ c → tarn x t.dev = tarn x s.dev) ∧
      (tr 0x34 (tarn c t.dev)).toNat = (j.resv - if j.bus = false ∧ progOn j.snap.desc = true then fld (dw j.snap.desc 38) 15 0 else 0) % 65536 := by
  have htarn := tarn_ran c c j s.dev
  rw [if_pos rfl] at htarn
  have hwdog : wdogFor j = j.resv - if j.bus = false ∧ progOn j.snap.desc = true then fld (dw j.snap.desc 38) 15 0 else 0 := by simp [wdogFor]
  rw [← hwdog]
  exact ⟨_, hcmd.trans (onDev_eq (runJob_one w hok hst hp)), rfl, ran_same w, (congrArg Tarn.st htarn).trans rfl, (congrArg Tarn.cache htarn).trans rfl,
    fun x hx => (tarn_ran x c j s.dev).trans (if_neg hx), wdog_ran c j s.dev⟩

theorem jobOnItsCore : JobOnItsCore := by
  intro s c j d w k core as base hl hc hh halone ht hlate hp held
  obtain ⟨hrole, hwant, -, -⟩ := halone
  have one : OneJob c j d := ⟨hl, hlate, hwant⟩
  have hok : coreOk c d = true := by simp [coreOk, hc, show bit d.weir.healthy c = true from hh]
  have hin : tarn c (streamedIn c j d) = { tarn c d with job := true, dm := (tarn c (streamedIn c j d)).dm } := by
    rw [tarn_streamedIn, if_pos rfl]
  refine ⟨fun hst => ⟨_, onDev_eq (streamIn_one one hst hp), rfl, streamedIn_same one, hin,
      fun x hx => (tarn_streamedIn x c j d).trans (if_neg hx), loaded_streamedIn c j d⟩,
    fun hst => ⟨fun hbus => one.runs hok hst hp (by rw [hbus]; rfl), fun hbus => one.runs hok hst hp (by rw [hbus]; rfl)⟩,
    fun o hst ho hbus hrep hcur hinits hrecs => ?_, fun o hst ho hbus hcur => ?_, fun hst hbus hcur hinits hdata hn => ?_⟩
  · have hcommit := committed_one one hst ho hbus hrep hcur hrecs
    have hexec : exec (.jobComplete c) s = .next { s with dev := completeJob c d } :=
      onDev_eq (F := fun d => afterCommit c d (completeJob c d)) (hcommit.afterCommit d)
    obtain ⟨hctx, hmedia, hdesc, hother⟩ := hcommit.slot hinits
    have hrel : (completeJob c d).weir.rel = w.rel.map (handOn j o) := hcommit.rel
    exact ⟨_, hexec, rfl, hcommit.jobs, hcommit.idle, hcommit.counted, hctx, hmedia, hdesc, hother, hrel⟩
  · have hweir := one.discarded_weir
    have hexec : exec (.jobComplete c) s = .next { s with dev := discarded c j d } := by
      refine onDev_eq (F := fun d => afterCommit c d (completeJob c d)) ?_
      show afterCommit c d (completeJob c d) = _
      rw [completeJob_stale one hst ho hbus hcur]
      exact afterCommit_none ((congrArg Weir.lateFrom hweir).trans hlate) (by rw [discarded_twin]; exact hwant) d
    have hjobs : jobs c (discarded c j d) = [] := by rw [jobs, hweir]; rfl
    have hrel : (discarded c j d).weir.rel = w.rel := (congrArg Weir.rel hweir).trans rfl
    exact ⟨_, hexec, hjobs, discarded_idle c j d, discarded_slots c j d, hrel, discarded_counted c j d⟩
  · have hexec : exec (.streamOutComplete c none) s = .next { s with dev := streamedOut c j d } :=
      onDev_eq (F := streamOut c none) (streamOut_one one ht hst hbus hcur hinits hdata)
    obtain ⟨hslots, hregs⟩ := streamedOut_rest c j d
    exact ⟨_, hexec, rfl, jobs_streamedOut c j d, sout_streamedOut c j d, hslots, hregs,
      fun i hi => basinRead_streamedOut hbus hn hi, fun a ha => basinRead_streamedOut_other hbus ha⟩

/-! ### DONE (R249, R278) -/

section
variable {c : Nat} {j : Job} {o : JobOut} {i : TI} {d : Dev}

theorem executes_of_fetch {op : TOp} (h : fetchTarn c op d = .ok i) : executes c d = true := by
  by_contra hno
  rw [Bool.not_eq_true] at hno
  simp [fetchTarn, hno] at h

theorem executes_congr {e : Dev} (h : (tarn c e).st = (tarn c d).st) : executes c e = executes c d := by simp only [executes, h]

theorem tarn_drainCore (c : Nat) (d : Dev) : tarn c (drainCore c d) = { tarn c d with sb := [], dm := loadsSee (tarn c d) } :=
  (tarn_modTarn c c _ d).trans (if_pos rfl)

theorem steady_drainCore (h : Steady c d) : Steady c (drainCore c d) := by
  have hhead : headJob c (drainCore c d) = headJob c d := headJob_modTarn c _ d rfl
  rw [Steady, hhead, tarn_drainCore]
  exact h

/-- The device once DONE has issued on its core: the store buffer is drained, and the rest is as it was. -/
def doneIssued (c : Nat) (i : TI) (d : Dev) : Dev :=
  completeInstr c i (.go (ageAll (tarn c (drainCore c d))) Use.none none) (drainCore c d)

theorem doneIssued_of_steady (i : TI) (h : Steady c d) : doneIssued c i d = { d with tarns := (doneIssued c i d).tarns } ∧
    (tarn c (doneIssued c i d)).st = (tarn c d).st ∧ loadsSee (tarn c (doneIssued c i d)) = loadsSee (tarn c d) := by
  obtain ⟨hsame, -, x, hx, -, hloads, -, -, -, hst, -⟩ :=
    completeInstr_steady c i (ageAll (tarn c (drainCore c d))) Use.none none (drainCore c d) (steady_drainCore h) (tr_ageAll _ _) (ageAll_st _)
  have hcore := tarn_drainCore c d
  refine ⟨hsame, ?_, ?_⟩
  · rw [doneIssued, hx, hst, ageAll_st, hcore]
  · rw [doneIssued, hx, hloads, ageAll_dm, hcore]
    rfl

theorem current_congr {e : Dev} (hs : e.slots = d.slots) (h : W32) : current h e = current h d := by
  rw [current, slot_congr hs, current]

/-- DONE that has issued commits a head job that has run. -/
theorem jobEnds_done (hex : executes c (doneIssued c i d) = true) (hhead : headJob c (doneIssued c i d) = some j) (hst : j.st = .done) :
    jobEnds c i d = afterCommit c (doneIssued c i d) (completeJob c (doneIssued c i d)) := by
  unfold doneIssued at hex hhead ⊢
  unfold jobEnds
  dsimp only
  rw [hex, hhead]
  simp [hst]

theorem done_one (w : OneJob c j d) (hfetch : fetchTarn c .done d = .ok i) (hsteady : Steady c d) (hst : j.st = .done) (ho : j.out = some o)
    (hbus : j.bus = false) (hrep : j.replay = false) (hcur : current j.handle d = true) (hrecs : ∀ r ∈ o.recs, r.typ ≠ 0x25 ∧ r.typ ≠ 0x24) :
    Committed c j o (doneIssued c i d) (doneSem c d) := by
  obtain ⟨hsame, hcore, -⟩ := doneIssued_of_steady i hsteady
  have hex : executes c (doneIssued c i d) = true := (executes_congr hcore).trans (executes_of_fetch hfetch)
  have one : OneJob c j (doneIssued c i d) := by
    rw [hsame]
    exact ⟨w.lists, w.lateFrom, w.want⟩
  have hslots : (doneIssued c i d).slots = d.slots := by rw [hsame]
  have hhead : headJob c (doneIssued c i d) = some j := by simp [headJob, one.jobs, hst, Job.onCore]
  have hcommit := committed_one one hst ho hbus hrep ((current_congr hslots _).trans hcur) hrecs
  have hends : doneSem c d = jobEnds c i d := by rw [doneSem, hfetch]
  rw [hends, jobEnds_done hex hhead hst, hcommit.afterCommit]
  exact hcommit

end

theorem doneOfAJob : DoneOfAJob := by
  intro s c j o i d hnext hl hc hh halone ht hlate hst ho hten hbus hrep hcur hinits hrecs
  obtain ⟨hfetch, hsteady⟩ := hnext
  obtain ⟨hrole, hwant, -, -⟩ := halone
  have hcommit := done_one ⟨hl, hlate, hwant⟩ hfetch hsteady hst ho hbus hrep hcur hrecs
  obtain ⟨hsame, -, hloads⟩ := doneIssued_of_steady i hsteady
  obtain ⟨hsb, hdm⟩ := hcommit.drained hten
  have hslots : (doneIssued c i d).slots = d.slots := by rw [hsame]
  obtain ⟨hctx, -⟩ := hcommit.slot ((congrArg Slot.inits (slot_congr hslots _)).trans hinits)
  have hweir : (doneIssued c i d).weir = d.weir := by rw [hsame]
  have hrel : (doneSem c d).weir.rel = d.weir.rel.map (handOn j o) := hcommit.rel.trans (by rw [hweir])
  refine ⟨{ s with dev := doneSem c d }, rfl, rfl, hcommit.jobs, hcommit.idle, hsb, fun a => ?_, hctx, hrel⟩
  show tabGet _ (drained (tarn c (doneSem c d)).sb (tarn c (doneSem c d)).dm) a = _
  rw [hsb, hdm]
  exact congrArg (tabGet (fun _ => 0) · a) hloads

/-- Settles O15: a job alone in the lists, by what each command makes of it; DONE issues as any instruction does and then commits the job. -/
theorem jobsOnCores : Obligations.JobsOnCores := ⟨jobOnItsCore, doneOfAJob⟩

end Sys2Proof.Machine
end

section
/-! PROOF. O20: a frame at a media port that is no packet of a leg. Counters and causes other than UNIT_FAULT leave the rest of the device as it
was (`Tallied`); stage 1 is then one equation per frame it drops, and one for the frame it passes on. -/
namespace Sys2Proof.Machine

/-! ### Counters and causes -/

/-- From `d` to `e` counters of `K` changed and causes other than UNIT_FAULT rose or folded: beside that, only what raising a cause may change,
without rings, and nothing that left the device was taken back. -/
structure Tallied (K : Set Nat) (d e : Dev) : Prop where
  same : Touched { d with regs := e.regs } e
  regs : ∀ k, k ∉ K → rg k e = rg k d
  rings : e.rings = d.rings
  faults : ∀ pg, faulted pg e = faulted pg d
  outs : d.outbox ⊆ e.outbox

section
variable {K : Set Nat} {a d e : Dev}

theorem Tallied.refl : Tallied K d d := ⟨rfl, fun _ _ => rfl, rfl, fun _ => rfl, List.Subset.refl _⟩

theorem Tallied.trans (w : Tallied K a d) (v : Tallied K d e) : Tallied K a e := by
  refine ⟨?_, fun k hk => (v.regs k hk).trans (w.regs k hk), v.rings.trans w.rings, fun pg => (v.faults pg).trans (w.faults pg),
    List.Subset.trans w.outs v.outs⟩
  have hd := w.same
  have he := v.same
  unfold Touched at *
  rw [hd] at he
  exact he

theorem Tallied.weaken {L : Set Nat} (w : Tallied K d e) (h : K ⊆ L) : Tallied L d e :=
  ⟨w.same, fun k hk => w.regs k fun hm => hk (h hm), w.rings, w.faults, w.outs⟩

theorem Tallied.rgN (w : Tallied K d e) {k : Nat} (hk : k ∉ K) : rgN k e = rgN k d := congrArg BitVec.toNat (w.regs k hk)
theorem Tallied.path (w : Tallied K d e) : e.path = d.path := by rw [w.same]
theorem Tallied.slots (w : Tallied K d e) : e.slots = d.slots := by rw [w.same]
theorem Tallied.tb (w : Tallied K d e) : e.tb = d.tb := by rw [w.same]
theorem Tallied.pwr (w : Tallied K d e) : e.pwr = d.pwr := by rw [w.same]
theorem Tallied.twin (w : Tallied K d e) : e.twin = d.twin := by rw [w.same]
theorem Tallied.pfRid (w : Tallied K d e) : e.hif.pfRid = d.hif.pfRid := by rw [w.same]

/-- What a command that counts and raises causes makes of the device. -/
theorem Tallied.became {s : State} (w : Tallied K s.dev e) : Became { s.dev with regs := e.regs } s { s with dev := e } := ⟨rfl, w.same⟩

protected theorem Tallied.setRg {k : Nat} {v : W64} (w : Tallied K a d) (hk : k ∈ K) : Tallied K a (setRg k v d) :=
  w.trans ⟨rfl, fun j hj => by rw [rg_setRg, if_neg]; rintro rfl; exact hj hk, rfl, fun _ => rfl, List.Subset.refl _⟩

protected theorem Tallied.incRg {k : Nat} (w : Tallied K a d) (hk : k ∈ K) : Tallied K a (incRg k d) := w.setRg hk
protected theorem Tallied.addRg {k n : Nat} (w : Tallied K a d) (hk : k ∈ K) : Tallied K a (addRg k n d) := w.setRg hk

/-- Causes that latch take nothing back that left the device: at most the level of IRQ_N joins it (R59). -/
theorem outbox_setCause (pg : Nat) (bits : W32) (d : Dev) : d.outbox ⊆ (setCause pg bits d).outbox := by
  have hattend (b : Dev) (fn : Nat) (x : Dev) : (attend b fn x).outbox = x.outbox := by
    unfold attend
    split <;> rfl
  have hirq (b x : Dev) : x.outbox ⊆ (driveIrq b x).outbox := by
    unfold driveIrq
    dsimp only
    split
    · exact List.Subset.refl _
    · exact List.subset_cons_self _ _
  have h := hirq d (attend d (fnOfPage pg) (modHdr pg (fun h => h.latch bits (now d) d.tb.ticks) d))
  rw [hattend] at h
  exact h

/-- A cause other than UNIT_FAULT leaves bit 0 of every page's causes. -/
theorem faulted_raise {pg b : Nat} (q : Nat) (hb : b ≠ 0) : faulted q (raise pg b d) = faulted q d := by
  rw [raise, if_neg fun h => hb h.1, faulted, hdr_setCause]
  split
  · next hq =>
    have hbit : (1 <<< b).testBit 0 = false := by simp [hb]
    rw [latch_cause, hq, bit, BitVec.getLsbD_or, BitVec.natCast_eq_ofNat, BitVec.getLsbD_ofNat, hbit]
    simp [faulted, bit]
  · rfl

protected theorem Tallied.raise {pg b : Nat} (w : Tallied K a d) (hb : b ≠ 0) : Tallied K a (raise pg b d) := by
  have ht := raise_touched pg b d
  refine w.trans ⟨ht.withRegs rfl, fun k _ => ht.rg k, ?_, fun q => faulted_raise q hb, ?_⟩
  · rw [Machine.raise, if_neg fun h => hb h.1, setCause_rings]
  · rw [Machine.raise, if_neg fun h => hb h.1]
    exact outbox_setCause pg _ d

/-- A header change that leaves its causes. -/
theorem Tallied.modHdr {pg : Nat} {f : Hdr → Hdr} (w : Tallied K a d) (hf : ∀ x : Hdr, (f x).cause = x.cause) : Tallied K a (modHdr pg f d) :=
  w.trans ⟨rfl, fun _ _ => rfl, rfl, fun q => by
    rw [faulted, hdr_modHdr]
    split
    · next hq => rw [hf, hq]; rfl
    · rfl, List.Subset.refl _⟩

protected theorem Tallied.raiseF {pg b src : Nat} (w : Tallied K a d) (hb : b ≠ 0) : Tallied K a (raiseF pg b src d) := by
  have hraise := w.raise (pg := pg) hb
  unfold Machine.raiseF
  split
  · exact Tallied.modHdr (f := fun h => { h with folded := h.folded + 1 }) (w.modHdr fun _ => rfl) fun _ => rfl
  · split
    · exact hraise
    · exact hraise.trans ⟨rfl, fun _ _ => rfl, rfl, fun _ => rfl, List.Subset.refl _⟩

/-- A counter that only other counters follow has advanced. -/
theorem Tallied.counted {k n : Nat} (w : Tallied K (addRg k n d) e) (hk : k ∉ K) : Machine.rgN k e = (Machine.rgN k d + n) % 2 ^ 32 :=
  (w.rgN hk).trans (rgN_addRg k n d)

/-! ### Counters of ports and partitions (R298, R315, R317) -/

/-- A port's counter advances, and HALF may rise. -/
theorem macCount_tallied (p key n : Nat) (d : Dev) : Tallied K (addRg key n d) (macCount p key n d) := by
  unfold macCount
  dsimp only
  split
  · exact Tallied.refl.raise (by decide)
  · exact .refl

theorem Tallied.macCount {p key n : Nat} (w : Tallied K a d) (hk : key ∈ K) : Tallied K a (macCount p key n d) :=
  (w.addRg hk).trans (macCount_tallied p key n d)

/-- The registers of the statistics page `i` of a port. -/
def macStats (p i : Nat) : Set Nat := {k | k / 0x1000 = macPage p + i}

theorem kMac_mem_macStats {p i off : Nat} (h : off < 0x1000) : kMac p i off ∈ macStats p i := by
  simp only [macStats, Set.mem_ofPred_eq, kMac]
  omega

theorem sizeBucket_le (n : Nat) : sizeBucket n ≤ 6 := by
  unfold sizeBucket
  split_ifs <;> omega

theorem addrType_le (x : BitVec 48) : addrType x ≤ 2 := by
  unfold addrType
  split_ifs <;> omega

/-- A frame counted as received changes its port's received statistics. -/
theorem countFrame_tallied {p i len typ : Nat} {ptp : Bool} (ht : typ ≤ 2) : Tallied (macStats p i) d (countFrame p i len typ ptp d) := by
  have hsize := sizeBucket_le len
  have key {off : Nat} (h : off < 0x1000) : kMac p i off ∈ macStats p i := kMac_mem_macStats h
  have four := (((Tallied.refl (d := d)).macCount (p := p) (n := len) (key (off := 0x40) (by decide))).macCount (p := p) (n := 1)
    (key (off := 0x44) (by decide))).macCount (p := p) (n := 1) (key (off := 0x48 + 4 * sizeBucket len) (by omega))
      |>.macCount (p := p) (n := 1) (key (off := 0x64 + 4 * typ) (by omega))
  unfold countFrame
  dsimp only
  split
  · exact four.macCount (key (by decide))
  · exact four

theorem vcnt_tallied (p off n : Nat) (d : Dev) : Tallied K (addRg (kWin p 6 off) n d) (vcnt p off n d) := by
  unfold vcnt
  dsimp only
  split
  · exact Tallied.refl.raise (by decide)
  · exact .refl

theorem Tallied.vcnt {p off n : Nat} (w : Tallied K a d) (hk : kWin p 6 off ∈ K) : Tallied K a (vcnt p off n d) :=
  (w.addRg hk).trans (vcnt_tallied p off n d)

theorem not_mem_macStats {p i k : Nat} (h : k < 0x100000) : k ∉ macStats p i := by
  simp only [macStats, Set.mem_ofPred_eq, macPage]
  omega

end

/-! ### Stage 1 (R305 to R307) -/

section
variable {f : RxFrame} {held shared off : Nat} {d e : Dev}

/-- A frame that stage 1 drops and counts once. -/
theorem exec_frameRx_dropped {s : State} (hrun : frameRx f held shared s.dev = e) (w : Tallied ∅ (addRg (kMac f.port 1 off) 1 s.dev) e) :
    ∃ t, exec (.frameRx f held shared) s = .next t ∧ Became { s.dev with regs := t.dev.regs } s t ∧ Counts (kMac f.port 1 off) 1 s t ∧
      ∀ k, k ≠ kMac f.port 1 off → rg k t.dev = rg k s.dev := by
  have hcount : Tallied {kMac f.port 1 off} s.dev e := (Tallied.refl.addRg (Set.mem_singleton _)).trans (w.weaken (Set.empty_subset _))
  exact ⟨_, onDev_eq hrun, hcount.became, w.counted id, fun k hk => hcount.regs k hk⟩

/-- The device once a frame has passed stage 1 (R317). -/
def passed (f : RxFrame) (d : Dev) : Dev := countFrame f.port 1 f.len (addrType f.dst) (isPtp f) d

/-- The device once a media frame enters the Classifier (R145). -/
def received (f : RxFrame) (d : Dev) : Dev := incRg rCLS_CNT_RX (passed f d)

/-- The registers that a media frame on its way to the Classifier counts in. -/
def rxKeys (f : RxFrame) : Set Nat := insert rCLS_CNT_RX (macStats f.port 1)

theorem passed_tallied (f : RxFrame) (d : Dev) : Tallied (macStats f.port 1) d (passed f d) := countFrame_tallied (addrType_le _)

theorem received_tallied (f : RxFrame) (d : Dev) : Tallied (rxKeys f) d (received f d) :=
  ((passed_tallied f d).weaken (Set.subset_insert _ _)).incRg (Set.mem_insert _ _)

theorem not_mem_rxKeys {k : Nat} (hk : k < 0x100000) (hne : k ≠ rCLS_CNT_RX) : k ∉ rxKeys f := by
  simp only [rxKeys, Set.mem_insert_iff, hne, false_or]
  exact not_mem_macStats hk

theorem rgN_received (f : RxFrame) (d : Dev) : rgN rCLS_CNT_RX (received f d) = (rgN rCLS_CNT_RX d + 1) % 2 ^ 32 := by
  rw [received, rgN_incRg, (passed_tallied f d).rgN (not_mem_macStats (by decide))]

/-- The frame's queue or the shared buffer does not hold a frame of the port's largest size (R307). -/
abbrev NoRoom (f : RxFrame) (held shared : Nat) (d : Dev) : Prop :=
  fld (rg (kMac f.port 3 (oMAC_RXQ_LIMIT + 4 * rxQueue f d)) d) 6 0 * 1024 < held + fld (rg (kMac f.port 0 oMAC_CFG) d) 13 0 ∨
    65536 < shared + fld (rg (kMac f.port 0 oMAC_CFG) d) 13 0

theorem frameRx_of_off (hoff : portOn f.port d = false) : frameRx f held shared d = d := by simp [frameRx, hoff]

section
variable (hon : portOn f.port d = true)
include hon

theorem frameRx_of_runt (h : f.len < 64) : frameRx f held shared d = macCount f.port (kMac f.port 1 0x7C) 1 d := by simp [frameRx, hon, h]

theorem frameRx_of_noRoom (h : 64 ≤ f.len) (hroom : NoRoom f held shared d) :
    frameRx f held shared d = raiseF (macPage f.port) 3 (macPage f.port) (macCount f.port (kMac f.port 1 (0xC0 + 4 * rxQueue f d)) 1 d) := by
  simp only [frameRx, hon, h.not_gt, if_pos hroom, Bool.not_true, Bool.false_eq_true, if_false]

variable (h : 64 ≤ f.len) (hroom : ¬ NoRoom f held shared d)
include h hroom

theorem frameRx_of_long (hlong : fld (rg (kMac f.port 0 oMAC_CFG) d) 13 0 < f.len) :
    frameRx f held shared d = macCount f.port (kMac f.port 1 0x80) 1 d := by
  simp only [frameRx, hon, h.not_gt, hroom, hlong, Bool.not_true, Bool.false_eq_true, if_false, if_true]

variable (hlong : f.len ≤ fld (rg (kMac f.port 0 oMAC_CFG) d) 13 0)
include hlong

theorem frameRx_of_badFcs (hfcs : f.fcsOk = false) : frameRx f held shared d = macCount f.port (kMac f.port 1 0x74) 1 d := by
  simp only [frameRx, hon, h.not_gt, hroom, hlong.not_gt, hfcs, Bool.not_true, Bool.not_false, Bool.false_eq_true, if_false, if_true]

theorem frameRx_of_unaligned (hfcs : f.fcsOk = true) (hal : f.aligned = false) :
    frameRx f held shared d = macCount f.port (kMac f.port 1 0x78) 1 d := by
  simp only [frameRx, hon, h.not_gt, hroom, hlong.not_gt, hfcs, hal, Bool.not_true, Bool.not_false, Bool.false_eq_true, if_false, if_true]

theorem frameRx_of_foreign (hfcs : f.fcsOk = true) (hal : f.aligned = true) (haddr : addrOk f d = false) :
    frameRx f held shared d = macCount f.port (kMac f.port 1 0x8C) 1 d := by
  simp only [frameRx, hon, h.not_gt, hroom, hlong.not_gt, hfcs, hal, haddr, Bool.not_true, Bool.not_false, Bool.false_eq_true, if_false, if_true]

end

theorem frameRx_of_passes (h : PassesStage1 f held shared d) : frameRx f held shared d = pastStage1 f (passed f d) := by
  obtain ⟨hon, hshort, hlong, hfcs, halign, haddr, hqueue, hshared⟩ := h
  have hroom : ¬ NoRoom f held shared d := by omega
  simp only [frameRx, hon, hshort.not_gt, hroom, hlong.not_gt, hfcs, halign, haddr, Bool.not_true, Bool.false_eq_true, if_false]
  rfl

/-- Statistics do not move the correction of receive stamps (R85). -/
theorem rxStamp16_passed (f : RxFrame) (p : Nat) (stamp : NT32) (frac : BitVec 4) (hp : p < 4) :
    rxStamp16 p stamp frac (passed f d) = rxStamp16 p stamp frac d := by
  have w := passed_tallied f d
  have hstatus : rg (macPage p * 0x1000 + oMAC_STATUS) (passed f d) = rg (macPage p * 0x1000 + oMAC_STATUS) d := w.regs _ (by
    simp only [macStats, Set.mem_ofPred_eq, macPage, oMAC_STATUS]
    omega)
  have htrace : rg (rTB_TSC_RX + 8 * p) (passed f d) = rg (rTB_TSC_RX + 8 * p) d := w.regs _ (not_mem_macStats (by unfold rTB_TSC_RX; omega))
  simp only [rxStamp16, tscOf, trace16, hstatus, htrace]

/-- A media frame in SERVICE goes to the Classifier with its corrected stamp (R145, R147). -/
theorem frameRx_of_media (h : PassesStage1 f held shared d) (hs : Serves d) (hm : MediaFrame f) :
    frameRx f held shared d = classifier f (stampNt (rxStamp16 f.port f.stamp f.frac d)) (received f d) := by
  have w := passed_tallied f d
  obtain ⟨hserve, halone⟩ := hs
  obtain ⟨hptp, hlldp, hfab, hpause⟩ := hm
  have hport : f.port < 4 := by
    have hon := h.1
    simp only [portOn, Bool.and_eq_true, decide_eq_true_eq] at hon
    exact hon.1.1.1
  rw [frameRx_of_passes h, ← rxStamp16_passed f f.port f.stamp f.frac hport, received]
  have hpwr : (passed f d).pwr.st = .service := by rw [w.pwr, hserve]
  have hrole : ¬ shadowing (passed f d) = true := by simp [shadowing, w.twin, halone]
  have hgo : ¬ ((!inService (passed f d)) = true ∨ f.etherType = 0x8808) := fun h => h.elim (by simp [inService, hpwr]) hpause
  unfold pastStage1
  rw [if_neg (by rw [hpwr]; decide), if_neg hgo]
  dsimp only
  rw [if_neg (by simp [hptp, hlldp]), if_neg fun h => hfab h.1, if_neg hrole]

theorem pastStage1_of_pause (hs : d.pwr.st = .service) (hf : f.etherType = 0x8808) : pastStage1 f d = d := by
  simp [pastStage1, inService, hs, hf]

end

/-! ### Exceptions and bad headers (R147 to R150) -/

section
variable {f : RxFrame} {K : Set Nat} {a d : Dev} {x : IpPkt}

/-- Policers that are off admit every frame and take no token (R158, R184). -/
theorem police_of_off {p n : Nat} {fi : Option Nat} (h : Unpoliced p d) (hf : ∀ i, fi = some i → fld (fw (flow i d) 14) 31 16 = 0) :
    police p fi n d = (0, d) := by
  obtain ⟨hpkt, hbyte⟩ := h
  cases fi with
  | none => simp [police, hpkt, hbyte]
  | some i => simp [police, hpkt, hbyte, hf i rfl]

/-- The frame of an exception, taken into its owner's exception ring where there is room (R150). -/
theorem deliverExc_noted (reason p : Nat) (f : RxFrame) (nt : NT32) (h : W32) (plain : Option (List Byte)) (d : Dev) :
    Noted ∅ d (deliverExc reason p f nt h plain d) := by
  unfold deliverExc
  exact Noted.offer (.vcnt (.ite (Noted.refl.step rfl rfl) .refl))

/-- A record that an enabled ring with room and nothing lost takes, on a device that is no twin (R52). -/
theorem ringOffer_taken {k : Nat} {r : Rec} (halone : d.twin.role = .alone) (hon : (ring k d).enable = true) (hlost : (ring k d).lost = 0)
    (hroom : 1 ≤ (ring k d).room) :
    ringOffer k r d = setCause (ringCause k false).1 (1 <<< (ringCause k false).2 : Nat) (ringPut k r d) := by
  simp [ringOffer, halone, hon, hlost, hroom]

theorem ring_of_rings {e : Dev} (h : e.rings = d.rings) (k : Nat) : ring k e = ring k d := by rw [ring, h]; rfl

/-- The record of an exception frame without plaintext of its own (R150). -/
def excRecord (reason : Nat) (f : RxFrame) (nt : NT32) : Rec :=
  ⟨0x40, nt, 0, body ([(12, 1, reason), (13, 1, f.port), (14, 2, f.len), (16, 1, b2n (decide (2048 < f.len)))] ++
    (List.range 44).map fun i => (20 + i, 1, (f.head.getD i 0).toNat))⟩

/-- The frame's copy for partition 0, where the exception ring's next record goes (R150). -/
def excCopy (f : RxFrame) (d : Dev) : Output :=
  let r := ring (ringKey 0 1) d
  .hostCopy (ridPart d 0) (r.dataBase.toNat + 2048 * (r.prod.toNat % r.size)) (f.head.take 2048)

theorem excCopy_tallied {e : Dev} (w : Tallied K d e) : excCopy f e = excCopy f d := by
  have hrid : ridPart e 0 = ridPart d 0 := by simp [ridPart, vfExists, ridOf, w.pfRid]
  rw [excCopy, hrid, ring_of_rings w.rings]
  rfl

theorem deliverExc_of_room {reason : Nat} {nt : NT32} (hon : (ring (ringKey 0 1) d).enable = true) (hlost : (ring (ringKey 0 1) d).lost = 0)
    (hroom : 1 ≤ (ring (ringKey 0 1) d).room) :
    deliverExc reason 0 f nt 0 none d = ringOffer (ringKey 0 1) (excRecord reason f nt) (vcnt 0 0x48 1 (out (excCopy f d) d)) := by
  simp [deliverExc, offer, hon, hlost, hroom, excRecord, excCopy, show b2n false = 0 from rfl]

/-- An exception of partition 0 that its ring takes: the copy leaves before the record (R150). -/
theorem deliverExc_taken {reason : Nat} {nt : NT32} (halone : d.twin.role = .alone) (hon : (ring (ringKey 0 1) d).enable = true)
    (hlost : (ring (ringKey 0 1) d).lost = 0) (hroom : 1 ≤ (ring (ringKey 0 1) d).room) :
    (ring (ringKey 0 1) (deliverExc reason 0 f nt 0 none d)).prod = (ring (ringKey 0 1) d).prod + 1 ∧
      excCopy f d ∈ (deliverExc reason 0 f nt 0 none d).outbox := by
  have w : Tallied Set.univ (out (excCopy f d) d) (vcnt 0 0x48 1 (out (excCopy f d) d)) := Tallied.refl.vcnt (Set.mem_univ _)
  have hring : ring (ringKey 0 1) (vcnt 0 0x48 1 (out (excCopy f d) d)) = ring (ringKey 0 1) d := ring_of_rings w.rings _
  rw [deliverExc_of_room hon hlost hroom, ringOffer_taken (by rw [w.twin]; exact halone) (by rw [hring]; exact hon) (by rw [hring]; exact hlost)
    (by rw [hring]; exact hroom)]
  refine ⟨?_, outbox_setCause _ _ _ (List.mem_cons_of_mem _ (w.outs List.mem_cons_self))⟩
  rw [ring_of_rings (setCause_rings _ _ _), ringPut, ring_modRing, if_pos rfl]
  exact congrArg (fun r => Ring.prod r + 1) hring

/-- A frame that is not IP, of at most two tags, is an exception UNBOUND of partition 0 (R149). -/
theorem classifier_of_nonIp {nt : NT32} (hip : f.ip = none) (htags : f.tags.length ≤ 2) (h : Unpoliced 0 d) :
    classifier f nt d = if bit (rg rCLS_EXC_DROP d) 1 then incRg rCLS_CNT_EXC_DROP (incRg rCLS_CNT_UNBOUND d)
      else deliverExc 1 0 f nt 0 none (incRg rCLS_CNT_UNBOUND d) := by
  have hpolice : police 0 none f.len (incRg rCLS_CNT_UNBOUND d) = (0, incRg rCLS_CNT_UNBOUND d) := police_of_off h (by simp)
  simp only [classifier, classify, hip, htags.not_gt, if_false, exception, if_true, hpolice, Bool.false_eq_true, ne_eq, not_true_eq_false]

/-- The Classifier's exceptions UNBOUND: counted, and dropped or taken by the exception ring of partition 0 (R149, R150). -/
theorem classifier_of_nonIp_noted {nt : NT32} (hip : f.ip = none) (htags : f.tags.length ≤ 2) (h : Unpoliced 0 d) :
    Noted {rCLS_CNT_EXC_DROP} (incRg rCLS_CNT_UNBOUND d) (classifier f nt d) := by
  rw [classifier_of_nonIp hip htags h]
  exact .ite (Noted.refl.incRg (.inl rfl)) ((deliverExc_noted _ _ _ _ _ _ _).weaken (Set.empty_subset _))

theorem rgN_incRg_other {j k : Nat} (h : j ≠ k) (d : Dev) : rgN j (incRg k d) = rgN j d := congrArg BitVec.toNat (rg_addRg_other k j 1 d h)

theorem classifier_of_nonIp_dropped {nt : NT32} (hip : f.ip = none) (htags : f.tags.length ≤ 2) (h : Unpoliced 0 d)
    (hdrop : bit (rg rCLS_EXC_DROP d) 1 = true) : rgN rCLS_CNT_EXC_DROP (classifier f nt d) = (rgN rCLS_CNT_EXC_DROP d + 1) % 2 ^ 32 := by
  rw [classifier_of_nonIp hip htags h, if_pos hdrop, rgN_incRg, rgN_incRg_other (by decide)]

theorem classifier_of_nonIp_taken {nt : NT32} (hip : f.ip = none) (htags : f.tags.length ≤ 2) (h : Unpoliced 0 d)
    (hkeep : bit (rg rCLS_EXC_DROP d) 1 = false) (halone : d.twin.role = .alone) (hon : (ring (ringKey 0 1) d).enable = true)
    (hlost : (ring (ringKey 0 1) d).lost = 0) (hroom : 1 ≤ (ring (ringKey 0 1) d).room) :
    (ring (ringKey 0 1) (classifier f nt d)).prod = (ring (ringKey 0 1) d).prod + 1 ∧ excCopy f d ∈ (classifier f nt d).outbox := by
  rw [classifier_of_nonIp hip htags h, if_neg (ne_true_of_eq_false hkeep)]
  exact deliverExc_taken (d := incRg rCLS_CNT_UNBOUND d) halone hon hlost hroom

/-- A frame that is not IP, past stage 1: received, and counted UNBOUND (R149). -/
theorem classifier_received_counts {nt : NT32} (hip : f.ip = none) (htags : f.tags.length ≤ 2) (h : Unpoliced 0 (received f d)) :
    rgN rCLS_CNT_RX (classifier f nt (received f d)) = (rgN rCLS_CNT_RX d + 1) % 2 ^ 32 ∧
      rgN rCLS_CNT_UNBOUND (classifier f nt (received f d)) = (rgN rCLS_CNT_UNBOUND d + 1) % 2 ^ 32 := by
  have v := classifier_of_nonIp_noted (nt := nt) hip htags h
  have hrx := v.regs rCLS_CNT_RX (by decide) (by decide)
  have hun := v.regs rCLS_CNT_UNBOUND (by decide) (by decide)
  constructor
  · rw [rgN, hrx]
    exact (rgN_incRg_other (by decide) _).trans (rgN_received f d)
  · rw [rgN, hun]
    refine (rgN_incRg _ _).trans ?_
    rw [(received_tallied f d).rgN (not_mem_rxKeys (by decide) (by decide))]

/-- An IP header with a bad checksum (R148). -/
theorem classifier_of_badSum {nt : NT32} (hip : f.ip = some x) (htags : f.tags = []) (hsum : x.sumBad = true) :
    classifier f nt d = raiseF 0xB0 2 (macPage f.port) (incRg rCLS_CNT_BAD_HDR d) := by
  simp [classifier, classify, hip, htags, hsum, tagsOk]

end

/-! ### O20 -/

/-- Settles O20: what stage 1 drops is a count and a cause (`Tallied`), and what passes it is `passed` or `received` with what the Classifier
makes of it. -/
theorem framesThatAreNoPackets : Obligations.FramesThatAreNoPackets := by
  intro s f held shared d p mx q lim full r dropped
  have drop {off : Nat} (hrun : frameRx f held shared d = macCount f.port (kMac f.port 1 off) 1 d) : dropped off :=
    exec_frameRx_dropped hrun (macCount_tallied _ _ _ _)
  refine ⟨fun hoff => onDev_eq (frameRx_of_off hoff), fun hon => ⟨fun h => drop (frameRx_of_runt hon h),
    fun h hfull => exec_frameRx_dropped (frameRx_of_noRoom hon h hfull) ((macCount_tallied _ _ _ _).raiseF (by decide)),
    fun h hfull hmx => drop (frameRx_of_long hon h hfull hmx), fun h hfull hmx hfcs => drop (frameRx_of_badFcs hon h hfull hmx hfcs),
    fun h hfull hmx hfcs hal => drop (frameRx_of_unaligned hon h hfull hmx hfcs hal),
    fun h hfull hmx hfcs hal haddr => drop (frameRx_of_foreign hon h hfull hmx hfcs hal haddr)⟩,
    fun hpass hserve htype => ?_, fun hpass hserve hmedia => ⟨fun hip htags hpol => ?_, fun x hip htags hsum => ?_⟩⟩
  · have w := passed_tallied f d
    exact ⟨_, onDev_eq ((frameRx_of_passes hpass).trans (pastStage1_of_pause (by rw [w.pwr]; exact hserve.1) htype)), w.became,
      w.regs _ (not_mem_macStats (by decide))⟩
  · have w := received_tallied f d
    have old {k : Nat} (hk : k < 0x100000) (hne : k ≠ rCLS_CNT_RX) : rg k (received f d) = rg k d := w.regs k (not_mem_rxKeys hk hne)
    have hdropBit : rg rCLS_EXC_DROP (received f d) = rg rCLS_EXC_DROP d := old (by decide) (by decide)
    have hring : ring (ringKey 0 1) (received f d) = r := ring_of_rings w.rings _
    have hoff : Unpoliced 0 (received f d) := by
      rw [Unpoliced, policer, w.path]
      exact hpol
    have v := classifier_of_nonIp_noted (nt := stampNt (rxStamp16 f.port f.stamp f.frac d)) hip htags hoff
    obtain ⟨hrx, hunbound⟩ := classifier_received_counts (nt := stampNt (rxStamp16 f.port f.stamp f.frac d)) hip htags hoff
    refine ⟨_, onDev_eq (frameRx_of_media hpass hserve hmedia), rfl, v.path.trans w.path, v.slots.trans w.slots, hrx, hunbound, fun hdrop => ?_,
      fun hkeep hon hlost hroom => ?_⟩
    · refine (classifier_of_nonIp_dropped hip htags hoff (by rw [hdropBit]; exact hdrop)).trans ?_
      rw [rgN, old (by decide) (by decide)]
      rfl
    · rw [← hring] at hon hlost hroom
      obtain ⟨hprod, hcopy⟩ := classifier_of_nonIp_taken (nt := stampNt (rxStamp16 f.port f.stamp f.frac d)) hip htags hoff
        (by rw [hdropBit]; exact hkeep) (by rw [w.twin]; exact hserve.2) hon hlost hroom
      rw [hring] at hprod
      rw [excCopy_tallied w] at hcopy
      exact ⟨hprod, hcopy⟩
  · have w := received_tallied f d
    have hrun := (frameRx_of_media hpass hserve hmedia).trans (classifier_of_badSum hip htags hsum)
    have v : Tallied ∅ (incRg rCLS_CNT_BAD_HDR (received f d)) (raiseF 0xB0 2 (macPage f.port) (incRg rCLS_CNT_BAD_HDR (received f d))) :=
      Tallied.refl.raiseF (by decide)
    have hall : Tallied Set.univ d (raiseF 0xB0 2 (macPage f.port) (incRg rCLS_CNT_BAD_HDR (received f d))) :=
      ((w.weaken (Set.subset_univ _)).incRg (Set.mem_univ _)).raiseF (by decide)
    have hbad : Tallied {rCLS_CNT_BAD_HDR} (received f d) (incRg rCLS_CNT_BAD_HDR (received f d)) := Tallied.refl.incRg (Set.mem_singleton _)
    have hunfaulted (hf : faulted (macPage p) d = false) : faulted (macPage p) (incRg rCLS_CNT_BAD_HDR (received f d)) = false :=
      (hbad.faults _).trans ((w.faults _).trans hf)
    refine ⟨_, onDev_eq hrun, hall.became, (v.counted id).trans ?_, (v.rgN id).trans ((rgN_incRg_other (by decide) _).trans (rgN_received f d)),
      fun hf => raiseF_stands (hunfaulted hf) (by decide) (by decide)⟩
    rw [w.rgN (not_mem_rxKeys (by decide) (by decide))]

end Sys2Proof.Machine
end

section
/-! PROOF. O21: the first packet of an adaptive leg. Each stage of the receive path is one equation for such a packet; the device is left with
what counters and causes change (`Tallied`), its leg anchored, and one payload more. -/
namespace Sys2Proof.Machine

/-! ### What a change of a leg leaves -/

section
variable {K : Set Nat} {d e u : Dev} {k leg : Nat} {F : Leg → Leg}

/-- From `d` to `e` registers and slots changed, and what raising a cause may change. -/
def BesideSlots (d e : Dev) : Prop := Touched { d with regs := e.regs, slots := e.slots } e

theorem BesideSlots.trans (h : BesideSlots d e) (v : BesideSlots e u) : BesideSlots d u := by
  unfold BesideSlots Touched at *
  rw [h] at v
  exact v

theorem Tallied.besideSlots (w : Tallied K d e) : BesideSlots d e := by
  rw [BesideSlots, w.slots]
  exact w.same

theorem besideSlots_modLeg : BesideSlots d (modLeg k leg F d) := rfl

theorem legOf_of_slots (h : e.slots = d.slots) (k leg : Nat) : legOf k leg e = legOf k leg d := by rw [legOf, slot_congr h]; rfl
theorem descNow_of_slots (h : e.slots = d.slots) (k : Nat) : descNow k e = descNow k d := by rw [descNow, slot_congr h]; rfl
theorem handleOf_of_slots (h : e.slots = d.slots) (k : Nat) : handleOf k e = handleOf k d := by rw [handleOf, slot_congr h]; rfl

theorem slot_modLeg_other {j : Nat} (h : j ≠ k) : slot j (modLeg k leg F d) = slot j d := by rw [modLeg, slot_modSlot, if_neg h]

theorem descNow_modLeg (j : Nat) : descNow j (modLeg k leg F d) = descNow j d := by
  have hpend : (slot j (modLeg k leg F d)).pend = (slot j d).pend := (congrArg Slot.pend (legless_modLeg k leg j F d) :)
  simp only [descNow, desc_modLeg, hpend]

end

/-! ### Stages 2 to 5: the packet of a flow (R147 to R149, R154, R158, R166) -/

/-- A packet that parsing and lookup bring to flow entry `i`. -/
structure FindsFlow (f : RxFrame) (x : IpPkt) (p i : Nat) (d : Dev) : Prop where
  ip : f.ip = some x
  tags : f.tags = []
  sumGood : x.sumBad = false
  lenGood : x.lenBad = false
  options : x.options = false
  fragment : x.fragment = false
  udp : x.udp = true
  udpSumGood : x.udpSumBad = false
  udpSumSet : x.udpSumZero = false
  owner : ownerOf x.v6 x.dst x.dport.toNat d = some p
  lookup : lookupFlow x [] d = some i

/-- A voice packet in the clear that entry `e` and descriptor `l` accept without looking at its SSRC. -/
structure PlainRtp (e : Flow) (l : List W32) (r : RtpPkt) : Prop where
  version : r.version = 2
  inHead : r.inHead = true
  padGood : r.padBad = false
  flowRtp : bit (fw e 0) 3 = false
  noMux : bit (lw l (fLeg e) 0) 8 = false
  rtp : isRtp l (fLeg e) = true
  pt : r.pt = rxPt l (fLeg e)
  noEvents : evtPt l (fLeg e) = 0
  anySsrc : fld (fw e 0) 5 4 = 0
  clear : legSuite l (fLeg e) = 0

section
variable {f : RxFrame} {x : IpPkt} {p i b : Nat} {r : RtpPkt} {arr : W64} {d e : Dev}

theorem FindsFlow.of_path (w : FindsFlow f x p i d) (h : e.path = d.path) : FindsFlow f x p i e :=
  { w with
    owner := by rw [ownerOf, h]; exact w.owner
    lookup := by unfold lookupFlow; rw [h]; exact w.lookup }

theorem FindsFlow.classify (w : FindsFlow f x p i d) : classify f d = .flow i := by
  obtain ⟨hip, htags, hsum, hlen, hopt, hfrag, hudp, husum, huset, howner, hlookup⟩ := w
  simp [Machine.classify, hip, htags, hsum, hlen, hopt, hfrag, hudp, husum, huset, howner, hlookup, tagsOk]

theorem PlainRtp.isRtcp {fe : Flow} {l : List W32} (w : PlainRtp fe l r) : isRtcp fe l (fLeg fe) r = false := by
  simp only [Machine.isRtcp, w.flowRtp, w.noMux, Bool.false_and, Bool.or_false]

theorem PlainRtp.ptOk {fe : Flow} {l : List W32} (w : PlainRtp fe l r) : ptOk l (fLeg fe) r.pt = true := by
  simp [Machine.ptOk, w.rtp, w.pt]

/-- The slot an entry names. -/
abbrev flowSlot (i : Nat) (d : Dev) : Nat := hSlot (fHandle (flow i d))

/-- Stages 4 and 5 pass the packet on. -/
theorem takePacket_of_plain (hip : f.ip = some x) (w : PlainRtp (flow i d) (descNow (flowSlot i d) d) x.rtp)
    (hoff : Unpoliced (hPart (fHandle (flow i d))) d) (hpps : fld (fw (flow i d) 14) 31 16 = 0) :
    takePacket i f arr true d = takeRtp i f x.rtp arr (ingressBound f.port f.len d) d := by
  have hpolice : police (hPart (fHandle (flow i d))) (some i) f.len d = (0, d) := police_of_off hoff fun j hj => by
    cases hj
    exact hpps
  simp [takePacket, hip, w.isRtcp, w.ptOk, w.version, w.inHead, w.padGood, hpolice, w.anySsrc]

/-- Stage 6 leaves the payload in the clear as it is, and the packet enters the leg's statistics. -/
theorem takeRtp_of_plain (w : PlainRtp (flow i d) (descNow (flowSlot i d) d) r) (halone : d.twin.role = .alone) :
    takeRtp i f r arr b d = jbAccept (flowSlot i d) (fLeg (flow i d)) ⟨r.seq, r.pt, r.marker, r.ts, arr, r.payload⟩ b
      (vcnt (hPart (fHandle (flow i d))) 0x40 1
        (modLeg (flowSlot i d) (fLeg (flow i d)) (fun g => rtpStats g r (rtpClock (descNow (flowSlot i d) d) (fLeg (flow i d))) arr) d)) := by
  have hclear : unprotect false (flowSlot i d) (fLeg (flow i d)) r d = (some r.payload, d) := by simp [unprotect, w.clear]
  have hpaired : paired d = false := by simp [paired, halone]
  have hssrc : learnSsrc i (flowSlot i d) (fLeg (flow i d)) r.ssrc d = d := by simp [learnSsrc, w.anySsrc]
  simp [takeRtp, hclear, hpaired, hssrc, w.noEvents]

end

/-! ### Stage 7: the jitter buffer (R167, R169 to R171, R291) -/

/-- A leg of descriptor `l` that is adaptive and has taken nothing yet. -/
structure FreshLeg (g : Leg) (l : List W32) (leg : Nat) : Prop where
  adaptive : bit (lw l leg 0) 4 = false
  anchor : g.anchor = none
  held : g.held = []
  heard : g.heard = false
  target : jbTarget l leg ≤ jbMax l leg

section
variable {g : Leg} {l : List W32} {k leg b : Nat} {h : Held} {t : W64} {d : Dev}

theorem rtpStats_kept (g : Leg) (r : RtpPkt) (clock : Nat) (arr : W64) :
    (rtpStats g r clock arr).anchor = g.anchor ∧ (rtpStats g r clock arr).held = g.held ∧ (rtpStats g r clock arr).heard = g.heard := by
  unfold rtpStats
  dsimp only
  split
  · exact ⟨rfl, rfl, rfl⟩
  · exact ⟨rfl, rfl, rfl⟩

theorem FreshLeg.rtpStats (w : FreshLeg g l leg) (r : RtpPkt) (clock : Nat) (arr : W64) : FreshLeg (rtpStats g r clock arr) l leg := by
  obtain ⟨hanchor, hheld, hheard⟩ := rtpStats_kept g r clock arr
  exact ⟨w.adaptive, hanchor.trans w.anchor, hheld.trans w.held, hheard.trans w.heard, w.target⟩

theorem adaptLeg_kept (g : Leg) (l : List W32) (leg : Nat) (arr : W64) (dly : Int) :
    (adaptLeg g l leg arr dly).anchor = g.anchor ∧ (adaptLeg g l leg arr dly).held = g.held ∧ (adaptLeg g l leg arr dly).heard = g.heard := by
  unfold adaptLeg
  dsimp only
  split_ifs <;> exact ⟨rfl, rfl, rfl⟩

/-- The packet a leg is anchored on plays at most TARGET after its arrival (R169). -/
theorem heldPlay_anchorOn (g : Leg) (h : Held) (hadapt : bit (lw l leg 0) 4 = false) :
    heldPlay h l leg (anchorOn g l leg h.ts h.arr) - h.arr.toNat ≤ (jbTarget l leg * 1000000 : Nat) := by
  have hmod : (BitVec.ofNat 64 ((h.arr.toNat + jbTarget l leg * 1000000) / 1000000 * 1000000)).toNat ≤ h.arr.toNat + jbTarget l leg * 1000000 := by
    rw [BitVec.toNat_ofNat]
    exact (Nat.mod_le _ _).trans (Nat.div_mul_le_self _ _)
  simp only [heldPlay, playAt, hadapt, anchorOn, Bool.false_eq_true, if_false, BitVec.sub_self, BitVec.toInt_zero, zero_mul, Int.zero_ediv, add_zero]
  omega

/-- The first packet of an adaptive leg is accepted: the leg is anchored on it, whatever ACCEPT_WIN is (R167, R169). -/
theorem jbAccept_of_fresh (w : FreshLeg (legOf k leg d) (descNow k d) leg) (hv : d.path.visible = []) :
    jbAccept k leg h b d =
      takePayload k leg h (h.arr + BitVec.ofNat 64 b) (modLeg k leg (fun g => anchorOn g (descNow k d) leg h.ts h.arr) d) := by
  have hfirst : firstAnchor k leg h.ts h.arr d = modLeg k leg (fun g => anchorOn g (descNow k d) leg h.ts h.arr) d :=
    if_pos ⟨by rw [w.anchor]; rfl, by rw [w.adaptive]; rfl⟩
  have hwin (dly : Int) : inWindow (descNow k d) leg (anchorOn (legOf k leg d) (descNow k d) leg h.ts h.arr) dly = true := by
    simp [inWindow, anchorOn, w.heard]
  have hmax : ¬ (jbMax (descNow k d) leg * 1000000 : Int) <
      heldPlay h (descNow k d) leg (anchorOn (legOf k leg d) (descNow k d) leg h.ts h.arr) - h.arr.toNat := by
    have hplay := heldPlay_anchorOn (legOf k leg d) h w.adaptive
    have htarget := w.target
    omega
  have hheld : (anchorOn (legOf k leg d) (descNow k d) leg h.ts h.arr).held = [] := w.held
  simp only [jbAccept, hfirst, legOf_modLeg, hwin, hmax, hheld, modLeg_path, hv]
  simp

/-- The path with one payload more that waits for its deemed instant. -/
def waitFor (v : Visible) (d : Dev) : Dev := { d with path := { d.path with visible := d.path.visible ++ [v] } }

/-- A payload is taken: its leg has heard one and adapts, with its anchor and what it holds as before (R170, R291). -/
theorem takePayload_eq (k leg : Nat) (h : Held) (t : W64) (d : Dev) : ∃ g : Leg,
    g.anchor = (legOf k leg d).anchor ∧ g.held = (legOf k leg d).held ∧ g.heard = true ∧
      takePayload k leg h t d = waitFor ⟨handleOf k d, leg, t.extractLsb' 0 32, h, false, none⟩ (modLeg k leg (fun _ => g) d) := by
  refine ⟨_, ?_, ?_, ?_, rfl⟩
  all_goals
    dsimp only
    split
    · rfl
  · exact (adaptLeg_kept _ _ _ _ _).1
  · exact (adaptLeg_kept _ _ _ _ _).2.1
  · exact (adaptLeg_kept _ _ _ _ _).2.2

/-- The packet's leg is anchored at `a`, holds nothing and has been heard; beside it only counters of `K` and causes changed. -/
structure LegAnchored (K : Set Nat) (k leg : Nat) (a : W64 × W32) (d e : Dev) : Prop where
  beside : BesideSlots d e
  regs : ∀ j, j ∉ K → rg j e = rg j d
  otherSlots : ∀ j, j ≠ k → slot j e = slot j d
  otherLeg : legOf k (1 - leg) e = legOf k (1 - leg) d
  anchor : (legOf k leg e).anchor = some a
  held : (legOf k leg e).held = []
  heard : (legOf k leg e).heard = true

/-- The pass boundary at or before arrival plus TARGET (R169). -/
def firstBoundary (l : List W32) (leg : Nat) (arr : W64) : W64 :=
  BitVec.ofNat 64 ((arr.toNat + jbTarget l leg * 1000000) / 1000000 * 1000000)

theorem takeRtp_of_fresh {i : Nat} {f : RxFrame} {r : RtpPkt} {arr : W64} (hleg : leg < 2) (hk : flowSlot i d = k) (he : fLeg (flow i d) = leg)
    (w : PlainRtp (flow i d) (descNow k d) r) (hfresh : FreshLeg (legOf k leg d) (descNow k d) leg) (hv : d.path.visible = [])
    (halone : d.twin.role = .alone) :
    ∃ u, LegAnchored {kWin (hPart (fHandle (flow i d))) 6 0x40} k leg (firstBoundary (descNow k d) leg arr, r.ts) d u ∧
      takeRtp i f r arr b d = waitFor ⟨handleOf k d, leg, (arr + BitVec.ofNat 64 b).extractLsb' 0 32,
        ⟨r.seq, r.pt, r.marker, r.ts, arr, r.payload⟩, false, none⟩ u := by
  subst hk he
  obtain ⟨y, hy⟩ : ∃ y, y = modLeg (flowSlot i d) (fLeg (flow i d))
      (fun g => rtpStats g r (rtpClock (descNow (flowSlot i d) d) (fLeg (flow i d))) arr) d := ⟨_, rfl⟩
  obtain ⟨z, hz⟩ : ∃ z, z = vcnt (hPart (fHandle (flow i d))) 0x40 1 y := ⟨_, rfl⟩
  have wz : Tallied {kWin (hPart (fHandle (flow i d))) 6 0x40} y z := hz ▸ Tallied.refl.vcnt (Set.mem_singleton _)
  have hdesc : descNow (flowSlot i d) z = descNow (flowSlot i d) d := by rw [descNow_of_slots wz.slots, hy, descNow_modLeg]
  have hhandle : handleOf (flowSlot i d) z = handleOf (flowSlot i d) d := by rw [handleOf_of_slots wz.slots, hy, handleOf_modLeg]
  have hz0 : FreshLeg (legOf (flowSlot i d) (fLeg (flow i d)) z) (descNow (flowSlot i d) z) (fLeg (flow i d)) := by
    rw [legOf_of_slots wz.slots, hdesc, hy, legOf_modLeg]
    exact hfresh.rtpStats _ _ _
  have hvz : z.path.visible = [] := by rw [wz.path, hy]; exact hv
  have hrun := takeRtp_of_plain (arr := arr) (b := b) (f := f) w halone
  obtain ⟨g, hanchor, hheld, hheard, htake⟩ := takePayload_eq (flowSlot i d) (fLeg (flow i d)) ⟨r.seq, r.pt, r.marker, r.ts, arr, r.payload⟩
    (arr + BitVec.ofNat 64 b)
    (modLeg (flowSlot i d) (fLeg (flow i d)) (fun g => anchorOn g (descNow (flowSlot i d) z) (fLeg (flow i d)) r.ts arr) z)
  rw [← hy, ← hz, jbAccept_of_fresh hz0 hvz, htake, handleOf_modLeg, hhandle] at hrun
  rw [legOf_modLeg] at hanchor hheld
  refine ⟨_, ⟨?_, fun j hj => ?_, fun j hj => ?_, ?_, ?_, ?_, ?_⟩, hrun⟩
  · have hy0 : BesideSlots d y := hy ▸ besideSlots_modLeg
    exact ((hy0.trans wz.besideSlots).trans besideSlots_modLeg).trans besideSlots_modLeg
  · refine (wz.regs j hj).trans ?_
    rw [hy]
    rfl
  · rw [slot_modLeg_other hj, slot_modLeg_other hj, slot_congr wz.slots, hy, slot_modLeg_other hj]
  · rw [legOf_modLeg_other _ _ _ _ hleg, legOf_modLeg_other _ _ _ _ hleg, legOf_of_slots wz.slots, hy, legOf_modLeg_other _ _ _ _ hleg]
  · rw [legOf_modLeg, hanchor, hdesc]
    rfl
  · rw [legOf_modLeg, hheld]
    exact hz0.held
  · rw [legOf_modLeg, hheard]

end

/-! ### O21 -/

theorem flow_of_path {d e : Dev} (h : e.path = d.path) (i : Nat) : flow i e = flow i d := by rw [flow, h]; rfl

theorem nt64Of_of_tb {d e : Dev} (h : e.tb = d.tb) (t : NT32) : nt64Of e t = nt64Of d t := by
  rw [nt64Of, now64, now, h]
  rfl

/-- The device once a media frame has reached a flow entry (R154). -/
def matched (f : RxFrame) (d : Dev) : Dev := incRg rCLS_CNT_MATCH (received f d)

theorem matched_tallied (f : RxFrame) (d : Dev) : Tallied (insert rCLS_CNT_MATCH (rxKeys f)) d (matched f d) :=
  ((received_tallied f d).weaken (Set.subset_insert _ _)).incRg (Set.mem_insert _ _)

/-- Counting does not move the ingress bound (R146). -/
theorem ingressBound_matched (f : RxFrame) (d : Dev) : ingressBound f.port f.len (matched f d) = ingressBound f.port f.len d := by
  have hstatus : macStatus f.port (matched f d) = macStatus f.port d := (matched_tallied f d).regs _ (by
    simp only [Set.mem_insert_iff, rxKeys, macStats, Set.mem_ofPred_eq, kMac, macPage, oMAC_STATUS, rCLS_CNT_MATCH, rCLS_CNT_RX]
    omega)
  rw [ingressBound, bitsPerNs, hstatus]
  rfl

/-- A media frame of a flow, past stages 1 to 3 (R145). -/
theorem frameRx_of_flow {f : RxFrame} {held shared p i : Nat} {x : IpPkt} {d : Dev} (hpass : PassesStage1 f held shared d) (hserve : Serves d)
    (hmedia : MediaFrame f) (w : FindsFlow f x p i d) :
    frameRx f held shared d = takePacket i f (nt64Of d (stampNt (rxStamp16 f.port f.stamp f.frac d))) true (matched f d) := by
  have wr := received_tallied f d
  rw [frameRx_of_media hpass hserve hmedia, classifier, (w.of_path wr.path).classify, ← nt64Of_of_tb wr.tb]
  rfl

/-- A payload that waits alone, on a device of which else only registers and slots changed. -/
theorem became_waitFor {s : State} {u : Dev} (v : Visible) (h : BesideSlots s.dev u) (hv : s.dev.path.visible = []) :
    Became { s.dev with regs := u.regs, slots := u.slots, path := { s.dev.path with visible := [v] } } s { s with dev := waitFor v u } := by
  unfold BesideSlots Touched at h
  refine ⟨rfl, (congrArg (waitFor v) h).trans ?_⟩
  unfold waitFor
  dsimp only
  rw [hv]
  rfl

/-- Settles O21: the frame passes every stage (`takePacket_of_plain`, `takeRtp_of_fresh`) on the device that has counted it (`matched`). -/
theorem firstPacketOfALeg : Obligations.FirstPacketOfALeg := by
  intro s f held shared i p x d e h leg k l g r arr at_ hpass hserve hmedia hip htags hsum hlen hopt hfrag hudp husum huset howner hlookup hoff hpps
    hver hhead hpad hflow hmux hrtp hpt hevt hssrc hclear hadapt hthrough hpart hhandle hanchor hheld hvis htarget hmax hheard harr
  have w := matched_tallied f d
  have he : flow i (matched f d) = e := flow_of_path w.path i
  have hk : flowSlot i (matched f d) = k := by rw [flowSlot, he]
  have hl : descNow k (matched f d) = l := descNow_of_slots w.slots k
  have hplain : PlainRtp e l r := ⟨hver, hhead, hpad, hflow, hmux, hrtp, hpt, hevt, hssrc, hclear⟩
  have hfresh : FreshLeg (legOf k leg (matched f d)) l leg := by
    rw [legOf_of_slots w.slots]
    exact ⟨hadapt, hanchor, hheld, hheard, hmax⟩
  have hleg : leg < 2 := by
    have : fld (fw e 0) 6 6 < 2 ^ 1 := Nat.mod_lt _ (by decide)
    exact this
  have hrun := frameRx_of_flow hpass hserve hmedia ⟨hip, htags, hsum, hlen, hopt, hfrag, hudp, husum, huset, howner, hlookup⟩
  rw [takePacket_of_plain hip (by rw [hk, he, hl]; exact hplain) (by rw [he, Unpoliced, policer, w.path]; exact hoff) (by rw [he]; exact hpps),
    ingressBound_matched] at hrun
  obtain ⟨u, hu, htake⟩ := takeRtp_of_fresh (f := f) (arr := arr) (b := ingressBound f.port f.len d) hleg hk (by rw [he])
    (by rw [he, hl]; exact hplain) (by rw [hl]; exact hfresh) (by rw [w.path]; exact hvis) (by rw [w.twin]; exact hserve.2)
  rw [htake, handleOf_of_slots w.slots, hhandle] at hrun
  have counter {c : Nat} (hc : c < 0x100000) : rgN c u = rgN c (matched f d) := congrArg BitVec.toNat (hu.regs c (by
    simp only [Set.mem_singleton_iff, kWin]
    omega))
  have hanchored := hu.anchor
  rw [hl] at hanchored
  refine ⟨_, onDev_eq hrun, became_waitFor _ (w.besideSlots.trans hu.beside) hvis, ?_, ?_, fun j hj => ?_, ?_, hanchored, hu.held, hu.heard⟩
  · refine (counter (by decide)).trans ((rgN_incRg _ _).trans ?_)
    rw [(received_tallied f d).rgN (not_mem_rxKeys (by decide) (by decide))]
  · exact (counter (by decide)).trans ((rgN_incRg_other (by decide) _).trans (rgN_received f d))
  · exact (hu.otherSlots j hj).trans (slot_congr w.slots j)
  · exact hu.otherLeg.trans (legOf_of_slots w.slots _ _)

end Sys2Proof.Machine
end

section
/-! PROOF. O22: flow operations and key operations of a device that is no twin. An operation of a window that is not BUSY is its own function of
the table and of the key slots, and its result in the status register. -/
namespace Sys2Proof.Machine

/-! ### Registers written in turn -/

section
variable {d : Dev}

/-- Registers zeroed one after another. -/
theorem rg_foldl_zero (q : Nat) : ∀ (l : List Nat) (d : Dev), rg q (l.foldl (fun x k => setRgN k 0 x) d) = if q ∈ l then 0 else rg q d
  | [], d => by simp
  | k :: l, d => by
    rw [List.foldl_cons, rg_foldl_zero q l, rg_setRgN]
    by_cases hk : q = k
    · simp [hk]
    · simp [hk]

/-- Distinct registers written one after another: only registers change, each holds its value, and the others are as before. -/
theorem foldl_setRg {key : Nat → Nat} (hkey : Function.Injective key) (v : Nat → W64) (d : Dev) (n : Nat) :
    let t := (List.range n).foldl (fun x j => setRg (key j) (v j) x) d
    t = { d with regs := t.regs } ∧ (∀ j, j < n → rg (key j) t = v j) ∧ ∀ q, (∀ j, j < n → q ≠ key j) → rg q t = rg q d := by
  induction n with
  | zero => exact ⟨rfl, fun j hj => absurd hj (Nat.not_lt_zero j), fun q _ => rfl⟩
  | succ n ih =>
    rw [List.range_succ, List.foldl_append]
    obtain ⟨hsame, hval, hother⟩ := ih
    refine ⟨congrArg (setRg (key n) (v n)) hsame, fun j hj => ?_, fun q hq => ?_⟩
    · refine (rg_setRg _ _ _ _).trans ?_
      by_cases hn : j = n
      · rw [if_pos (congrArg key hn), hn]
      · rw [if_neg fun h => hn (hkey h)]
        exact hval j (by omega)
    · refine (rg_setRg _ _ _ _).trans ?_
      rw [if_neg (hq n n.lt_succ_self)]
      exact hother q fun j hj => hq j (by omega)

end

/-! ### Accesses of a window (R37, R47, R300) -/

section
variable {fn part k off op : Nat} {s : State} {d e : Dev}

theorem fromWindow_of_reaches {f : Dev → Dev} (h : Reaches fn d) (hp : winPart fn part < 1024) : fromWindow fn part k off f d = f d := by
  have hpart : ¬ (fn = 0 ∧ 1024 ≤ part) := fun ⟨h0, h1⟩ => by
    simp only [winPart, h0, if_true] at hp
    omega
  rw [fromWindow, fromHost_of_reaches h, if_neg hpart]

/-- A command that is an access of a window. -/
theorem onDev_fromWindow {f : Dev → Dev} (h : Reaches fn s.dev) (hp : winPart fn part < 1024) (he : f s.dev = e) :
    onDev (fromWindow fn part k off f) s = .next { s with dev := e } :=
  onDev_eq ((fromWindow_of_reaches h hp).trans he)

theorem notStandby_of_alone {addr size : Nat} {f : Dev → Dev} (h : d.twin.role = .alone) : notStandby fn addr size f d = f d := by
  simp [notStandby, isStandby, h]

end

/-! ### Flow operations (R155 to R157) -/

/-- What a flow operation answers and leaves. -/
def flowRun (op p : Nat) (d : Dev) : Nat × Dev :=
  if op = 1 then flwRead p d else if op = 2 then flwAdd p d else if op = 3 then flwRemove p d else flwModify p d

section
variable {fn part op p i : Nat} {s : State} {d e : Dev}

theorem flwOp_of_busy (h : bit (rg (kFlw (winPart fn part) oFLW_STATUS) d) 31 = true) :
    flwOp fn part op d = reject fn .busy 0 (winAddr fn part 2 oFLW_OP) 4 d := if_pos h

theorem flwOp_of_idle (h : bit (rg (kFlw (winPart fn part) oFLW_STATUS) d) 31 = false) (halone : d.twin.role = .alone) :
    flwOp fn part op d = setRgN (kFlw (winPart fn part) oFLW_STATUS) (flowRun op (winPart fn part) d).1 (flowRun op (winPart fn part) d).2 := by
  unfold flwOp
  dsimp only
  rw [if_neg (ne_true_of_eq_false h), notStandby_of_alone halone, if_neg fun hp => ?_]
  · rfl
  · rw [not_paired_of_alone halone] at hp
    exact absurd hp.2.2 (by decide)

/-- The commands of the flow window. -/
theorem exec_flow_of_mem {cmd : Instr} (h : cmd ∈ [Instr.flwRead fn part, .flwAdd fn part, .flwRemove fn part, .flwModify fn part]) (s : State) :
    ∃ op, exec cmd s = onDev (fromWindow fn part 2 oFLW_OP (flwOp fn part op)) s := by
  simp only [List.mem_cons, List.not_mem_nil, or_false] at h
  rcases h with rfl | rfl | rfl | rfl
  · exact ⟨1, rfl⟩
  · exact ⟨2, rfl⟩
  · exact ⟨3, rfl⟩
  · exact ⟨4, rfl⟩

@[simp] theorem flow_modFlow (i j : Nat) (f : Flow → Flow) (d : Dev) : flow j (modFlow i f d) = if j = i then f (flow i d) else flow j d := by
  simp [flow, modFlow]

/-! ### The entry an operation names -/

theorem namedFlow_of_empty (h : (flow i d).held = false) : namedFlow p i d = 8 := by simp [namedFlow, h]
theorem namedFlow_of_foreign (h : (flow i d).held = true) (hp : hPart (fHandle (flow i d)) ≠ p) : namedFlow p i d = 6 := by simp [namedFlow, h, hp]
theorem namedFlow_of_own (h : (flow i d).held = true) (hp : hPart (fHandle (flow i d)) = p) : namedFlow p i d = 0 := by simp [namedFlow, h, hp]

/-- An operation other than ADD on an entry that is not the partition's reports why. -/
theorem flowRun_of_notOwn (hop : op ≠ 2) (h : namedFlow p (flwIdx p d) d ≠ 0) : flowRun op p d = (namedFlow p (flwIdx p d) d, d) := by
  simp [flowRun, hop, flwRead, flwRemove, flwModify, h]

/-! ### READ and REMOVE -/

/-- The register of FLW_ENTRY that shows word `j`. -/
def kEntry (p j : Nat) : Nat := kFlw p (oFLW_ENTRY + 4 * j)

theorem kEntry_injective (p : Nat) : Function.Injective (kEntry p) := fun a b h => by
  simp only [kEntry, kFlw, kWin] at h
  omega

theorem kEntry_ne_status (p j : Nat) : kEntry p j ≠ kFlw p oFLW_STATUS := by
  simp only [kEntry, kFlw, kWin, oFLW_ENTRY, oFLW_STATUS]
  omega

/-- READ copies the words of the entry into FLW_ENTRY (R156). -/
theorem flwRead_of_own (h : namedFlow p (flwIdx p d) d = 0) : ∃ e, flowRun 1 p d = (0, e) ∧ e = { d with regs := e.regs } ∧
    (∀ j, j < 16 → rgN (kEntry p j) e = (fw (flow (flwIdx p d) d) j).toNat) ∧
    ∀ q, (∀ j, j < 16 → q ≠ kEntry p j) → rg q e = rg q d := by
  obtain ⟨hsame, hval, hother⟩ := foldl_setRg (kEntry_injective p) (fun j => (fw (flow (flwIdx p d) d) j).zeroExtend 64) d 16
  refine ⟨_, ?_, hsame, fun j hj => ?_, hother⟩
  · simp [flowRun, flwRead, h, kEntry]
  · rw [rgN, hval j hj]
    exact BitVec.toNat_setWidth_of_le (by decide)

theorem flwRemove_of_inUse (h : namedFlow p (flwIdx p d) d = 0) (hu : flowInUse p (flwIdx p d) d = true) : flowRun 3 p d = (7, d) := by
  simp [flowRun, flwRemove, h, hu]

theorem flwRemove_of_free (h : namedFlow p (flwIdx p d) d = 0) (hu : flowInUse p (flwIdx p d) d = false) :
    flowRun 3 p d = (0, removeFlow (flwIdx p d) d) := by
  simp [flowRun, flwRemove, h, hu]

/-! ### MODIFY (R156) -/

/-- Validity is a matter of the words of an entry (R153). -/
theorem badEntry_congr {f g : Flow} (h : f.words = g.words) : badEntry f = badEntry g := by
  have hw : fw f = fw g := funext fun i => by rw [fw, h]; rfl
  unfold badEntry
  rw [hw]

/-- SSRC_MODE does not depend on SSRC_LEARNED. -/
theorem ssrcMode_clear (w : W32) : fld (w &&& ~~~0x80) 5 4 = fld w 5 4 := by
  have hmask : (~~~0x80 : W32).toNat = 0xFFFFFF7F := by decide
  apply Nat.eq_of_testBit_eq
  intro n
  rw [fld, fld, BitVec.toNat_and, hmask]
  simp only [Nat.testBit_mod_two_pow, Nat.testBit_shiftRight, Nat.testBit_and]
  by_cases hn : n < 2
  · have hbit : Nat.testBit 0xFFFFFF7F (4 + n) = true := by interval_cases n <;> decide
    rw [hbit, Bool.and_true]
  · simp [hn]

/-- SSRC_LEARNED set from another word and cleared again. -/
theorem clear_learned (w v : W32) : ((w &&& ~~~0x80) ||| (v &&& 0x80)) &&& ~~~0x80 = w &&& ~~~0x80 := by
  ext n hn
  simp only [BitVec.getElem_and, BitVec.getElem_or, BitVec.getElem_not]
  cases w[n] <;> cases (0x80#32)[n] <;> simp

/-- An entry modified with another SSRC_MODE forgets a learned SSRC (R166). -/
theorem modifiedFlow_of_newMode {ws : List W32} {f : Flow} {t : W64} (h : fld (ws.getD 0 0 &&& ~~~0x80) 5 4 ≠ fld (fw f 0) 5 4) :
    modifiedFlow ws f t = { f with
      words := ws.set 0 (ws.getD 0 0 &&& ~~~0x80), tok := fld (ws.getD 15 0) 7 0 * 1000000000, tokAt := t } := by
  have hmode : fld ((ws.getD 0 0 &&& ~~~0x80) ||| (fw f 0 &&& 0x80)) 5 4 ≠ fld (fw f 0) 5 4 := by
    rw [← ssrcMode_clear, clear_learned]
    exact h
  unfold modifiedFlow
  dsimp only
  rw [if_neg hmode, clear_learned]

/-- No fixed field of an entry is changed by staged words (R156). -/
abbrev FixedKept (ws : List W32) (f : Flow) : Prop := ∀ j, j < 16 → (ws.getD j 0 ^^^ fw f j) &&& BitVec.ofNat 32 (fixedBits j) = 0

theorem flwModify_of_fixed (h : namedFlow p (flwIdx p d) d = 0) (hf : ¬ FixedKept (stagedFlow p d) (flow (flwIdx p d) d)) :
    flowRun 4 p d = (5, d) := by
  have hany : ((List.range 16).any fun j =>
      decide (((stagedFlow p d).getD j 0 ^^^ fw (flow (flwIdx p d) d) j) &&& BitVec.ofNat 32 (fixedBits j) ≠ 0)) = true := by
    rw [List.any_eq_true]
    by_contra hno
    refine hf fun j hj => ?_
    by_contra hne
    exact hno ⟨j, List.mem_range.2 hj, decide_eq_true hne⟩
  simp only [flowRun, flwModify, h, hany, Bool.or_true]
  rfl

/-- MODIFY past the checks of the entry's fields. -/
theorem flwModify_of_valid (h : namedFlow p (flwIdx p d) d = 0) (hf : FixedKept (stagedFlow p d) (flow (flwIdx p d) d))
    (hb : badEntry (modifiedFlow (stagedFlow p d) (flow (flwIdx p d) d) 0) = false) :
    let f := flow (flwIdx p d) d
    flowRun 4 p d = if ownerOf (bit (fw f 0) 0) (fLocal f) (fLocalPort f) d ≠ some p then (6, d)
      else if !leased (fHandle f) d then (1, d)
      else (0, modFlow (flwIdx p d) (fun f => modifiedFlow (stagedFlow p d) f (now64 d)) d) := by
  have hany : ((List.range 16).any fun j =>
      decide (((stagedFlow p d).getD j 0 ^^^ fw (flow (flwIdx p d) d) j) &&& BitVec.ofNat 32 (fixedBits j) ≠ 0)) = false := by
    rw [List.any_eq_false]
    exact fun j hj hne => of_decide_eq_true hne (hf j (List.mem_range.1 hj))
  simp only [flowRun, flwModify, h, hb, hany, Bool.or_false]
  rfl

/-! ### ADD (R152, R157) -/

theorem flwAdd_of_badEntry (hb : badEntry (newFlow (stagedFlow p d) d) = true) : flowRun 2 p d = (5, d) := by
  simp [flowRun, flwAdd, hb]

theorem flwAdd_of_foreign (hb : badEntry (newFlow (stagedFlow p d) d) = false) (hp : hPart (fHandle (newFlow (stagedFlow p d) d)) ≠ p) :
    flowRun 2 p d = (6, d) := by
  simp [flowRun, flwAdd, hb, hp]

/-- The first word of an entry as ADD writes it. -/
theorem fw_newFlow_zero (p : Nat) (d : Dev) : fw (newFlow (stagedFlow p d) d) 0 = (stagedFlow p d).getD 0 0 &&& ~~~0x80 := by
  simp [fw, newFlow, stagedFlow]

/-- An entry staged by a partition for an address of its own (R151, R157). -/
structure StagedOwn (p : Nat) (d : Dev) : Prop where
  good : badEntry (newFlow (stagedFlow p d) d) = false
  part : hPart (fHandle (newFlow (stagedFlow p d) d)) = p
  owner : ownerOf (bit (fw (newFlow (stagedFlow p d) d) 0) 0) (fLocal (newFlow (stagedFlow p d) d))
    (fLocalPort (newFlow (stagedFlow p d) d)) d = some p

/-- The partition is OPEN and may hold one entry more (R152, R284). -/
structure FlowQuota (p : Nat) (d : Dev) : Prop where
  isOpen : partState p d = 1
  quota : flowsOf p d + 1 ≤ rgN (kPart p oPART_Q_FLOWS) d
  room : flowsHeld d < 32768

/-- ADD past the checks of the entry's fields, owner and addresses. -/
theorem StagedOwn.passes (w : StagedOwn p d) :
    ¬ badEntry (newFlow (stagedFlow p d) d) = true ∧ ¬ (hPart (fHandle (newFlow (stagedFlow p d) d)) ≠ p ∨
      ownerOf (bit (fw (newFlow (stagedFlow p d) d) 0) 0) (fLocal (newFlow (stagedFlow p d) d))
        (fLocalPort (newFlow (stagedFlow p d) d)) d ≠ some p) :=
  ⟨ne_true_of_eq_false w.good, fun h => h.elim (fun h => h w.part) fun h => h w.owner⟩

theorem flwAdd_of_stale (w : StagedOwn p d) (hl : leased (fHandle (newFlow (stagedFlow p d) d)) d = false) : flowRun 2 p d = (1, d) := by
  obtain ⟨hgood, hown⟩ := StagedOwn.passes w
  show flwAdd p d = _
  rw [flwAdd, if_neg hgood, if_neg hown, if_pos (by rw [hl]; rfl)]

/-- ADD past the quota: an entry with the same key is DUPLICATE, and another goes to the free index. -/
theorem flwAdd_of_quota (w : StagedOwn p d) (hl : leased (fHandle (newFlow (stagedFlow p d) d)) d = true) (hq : FlowQuota p d) :
    (duplicate (newFlow (stagedFlow p d) d) d = true → flowRun 2 p d = (4, d)) ∧
    ∀ i e, duplicate (newFlow (stagedFlow p d) d) d = false → freeIndex d = some i → putFlow i (stagedFlow p d) d = some e →
      flowRun 2 p d = (0, setRgN (kFlw p oFLW_IDX) i e) := by
  obtain ⟨hgood, hown⟩ := StagedOwn.passes w
  obtain ⟨hopen, hquota, hroom⟩ := hq
  have hno : ¬ (partState p d ≠ 1 ∨ rgN (kPart p oPART_Q_FLOWS) d < flowsOf p d + 1 ∨ 32768 ≤ flowsHeld d) := by omega
  refine ⟨fun hdup => ?_, fun i e hdup hfree hput => ?_⟩
  all_goals
    show flwAdd p d = _
    rw [flwAdd, if_neg hgood, if_neg hown, if_neg (by rw [hl]; decide), if_neg hno]
  · exact if_pos hdup
  · rw [if_neg (ne_true_of_eq_false hdup)]
    simp only [hfree, hput]

/-- An entry that is not ENABLE has no place in the buckets: it stands in its index alone (R152). -/
theorem putFlow_of_disabled {ws : List W32} (h : bit (fw (newFlow ws d) 0) 1 = false) :
    putFlow i ws d = some (modFlow i (fun _ => newFlow ws d) d) := by
  have hplace : placeFlow (newFlow ws d) d = some (false, 0, d) := if_pos (by rw [h]; rfl)
  rw [putFlow, hplace]
  rfl

end

/-! ### The lowest free index (R152) -/

theorem mem_of_tabGet_ne {α : Type} {dflt : Nat → α} {k : Nat} : ∀ {t : Tab α}, tabGet dflt t k ≠ dflt k → (k, tabGet dflt t k) ∈ t
  | [], h => absurd rfl h
  | (j, v) :: t, h => by
    by_cases hj : j = k
    · subst hj
      rw [tabGet, if_pos rfl]
      exact List.mem_cons_self
    · rw [tabGet, if_neg hj] at h ⊢
      exact List.mem_cons_of_mem _ (mem_of_tabGet_ne h)

section
variable {used : List Nat} {i : Nat}

theorem lowestFrom_one (hi : i ∉ used) :
    ∀ fuel g, g ≤ i → i < g + fuel → (∀ j, g ≤ j → j < i → j ∈ used) → lowestFrom fuel g 1 used = [i]
  | 0, g, hg, hf, _ => by omega
  | fuel + 1, g, hg, hf, hbelow => by
    have hdone : ∀ n g, lowestFrom n g 0 used = []
      | 0, _ => rfl
      | _ + 1, _ => rfl
    rw [lowestFrom, if_neg one_ne_zero]
    by_cases hgi : g = i
    · subst hgi
      rw [if_neg (by simpa using hi), hdone]
    · rw [if_pos (by simpa using hbelow g le_rfl (by omega))]
      exact lowestFrom_one hi fuel (g + 1) (by omega) (by omega) fun j hj => hbelow j (by omega)

theorem lowestFree_one {top : Nat} (hi : i ∉ used) (htop : i < top) (hbelow : ∀ j, j < i → j ∈ used) : lowestFree 1 top used = [i] := by
  have hlen : i ≤ used.length := by
    have := (List.nodup_range (n := i)).subperm fun j hj => hbelow j (List.mem_range.1 hj)
    simpa using this.length_le
  rw [lowestFree, lowestFrom_one hi _ 0 (Nat.zero_le i) (by omega) fun j _ hj => hbelow j hj]
  simp [htop]

end

theorem freeIndex_eq {i : Nat} {d : Dev} (hwf : tabWf (fun _ => Flow.reset) d.path.flows = true) (hi : i < 32768) (hheld : (flow i d).held = false)
    (hfree : (flow i d).freeAt = none) (hbelow : ∀ j, j < i → (flow j d).held = true) : freeIndex d = some i := by
  refine congrArg List.head? (lowestFree_one ?_ hi fun j hj => ?_)
  · intro hmem
    obtain ⟨e, he, rfl⟩ := List.mem_map.1 hmem
    obtain ⟨hein, hused⟩ := List.mem_filter.1 he
    have hflow : flow e.1 d = e.2 := tabGet_of_mem hwf hein
    rw [hflow] at hheld hfree
    simp [hheld, hfree] at hused
  · have hne : flow j d ≠ Flow.reset := fun h => by
      have := hbelow j hj
      rw [h] at this
      exact absurd this (by decide)
    exact List.mem_map.2 ⟨(j, flow j d), List.mem_filter.2 ⟨mem_of_tabGet_ne hne, by simp [hbelow j hj]⟩, rfl⟩

/-! ### The commands of the flow window -/

section
variable {fn part op : Nat} {s : State} {cmd : Instr} {e : Dev}

/-- A flow operation of a window that is not BUSY. -/
theorem exec_flow {r : Nat} (hx : exec cmd s = onDev (fromWindow fn part 2 oFLW_OP (flwOp fn part op)) s) (hr : Reaches fn s.dev)
    (hp : winPart fn part < 1024) (halone : s.dev.twin.role = .alone) (hidle : bit (rg (kFlw (winPart fn part) oFLW_STATUS) s.dev) 31 = false)
    (h : flowRun op (winPart fn part) s.dev = (r, e)) : exec cmd s = .next { s with dev := setRgN (kFlw (winPart fn part) oFLW_STATUS) r e } :=
  hx.trans (onDev_fromWindow hr hp ((flwOp_of_idle hidle halone).trans (by rw [h])))

/-- A result reported in a register, and nothing else. -/
theorem result_reported {st n : Nat} (hn : n < 16) (run : exec cmd s = .next { s with dev := setRgN st n s.dev }) :
    ∃ t, exec cmd s = .next t ∧ OnlyRegisters [st] s t ∧ rgN st t.dev = n :=
  ⟨_, run, onlyRegisters_setRg st _ s, rgN_setRgN st n s.dev (by omega)⟩

/-- One entry of the table changed, and beside the status register only registers of `l`, which hold its index. -/
theorem flow_changed {st j : Nat} {l : List Nat} {F : Flow → Flow} (same : e = { modFlow j F s.dev with regs := e.regs })
    (regs : ∀ k, k ∉ l → rg k e = rg k s.dev) (index : ∀ k ∈ l, rgN k e = j) (hst : st ∉ l)
    (run : exec cmd s = .next { s with dev := setRgN st 0 e }) :
    ∃ t, exec cmd s = .next t ∧ t.pending = s.pending ∧
      t.dev = { s.dev with regs := t.dev.regs, path := { s.dev.path with flows := t.dev.path.flows } } ∧
      (∀ k, k ∉ st :: l → rg k t.dev = rg k s.dev) ∧
      rgN st t.dev = 0 ∧ (∀ k ∈ l, rgN k t.dev = j) ∧ flow j t.dev = F (flow j s.dev) ∧ ∀ k, k ≠ j → flow k t.dev = flow k s.dev := by
  have hflow (k : Nat) : flow k (setRgN st 0 e) = flow k (modFlow j F s.dev) := by
    show flow k e = _
    rw [same]
    rfl
  have hother {k : Nat} (hk : k ≠ st) : rg k (setRgN st 0 e) = rg k e := (rg_setRgN _ _ _ _).trans (if_neg hk)
  refine ⟨_, run, rfl, ?_, fun k hk => ?_, rgN_setRgN st 0 e (by decide), fun k hk => ?_, ?_, fun k hk => ?_⟩
  · have hpath : e.path = (modFlow j F s.dev).path := by rw [same]
    show setRgN st 0 e = { s.dev with regs := (setRgN st 0 e).regs, path := { s.dev.path with flows := e.path.flows } }
    rw [hpath]
    exact congrArg (setRgN st 0) same
  · rw [List.mem_cons, not_or] at hk
    exact (hother hk.1).trans (regs k hk.2)
  · exact (congrArg BitVec.toNat (hother fun h => hst (h ▸ hk))).trans (index k hk)
  · exact (hflow j).trans (by rw [flow_modFlow, if_pos rfl])
  · exact (hflow k).trans (by rw [flow_modFlow, if_neg hk])

/-- READ copies the words of the partition's entry into FLW_ENTRY (R156). -/
theorem exec_flwRead (hr : Reaches fn s.dev) (hp : winPart fn part < 1024) (halone : s.dev.twin.role = .alone)
    (hidle : bit (rg (kFlw (winPart fn part) oFLW_STATUS) s.dev) 31 = false)
    (hheld : (flow (flwIdx (winPart fn part) s.dev) s.dev).held = true)
    (hown : hPart (fHandle (flow (flwIdx (winPart fn part) s.dev) s.dev)) = winPart fn part) :
    ∃ t, exec (.flwRead fn part) s = .next t ∧ OnlyRegisters
        (kFlw (winPart fn part) oFLW_STATUS :: (List.range 16).map fun j => kFlw (winPart fn part) (oFLW_ENTRY + 4 * j)) s t ∧
      rgN (kFlw (winPart fn part) oFLW_STATUS) t.dev = 0 ∧
      ∀ j, j < 16 → rgN (kFlw (winPart fn part) (oFLW_ENTRY + 4 * j)) t.dev = (fw (flow (flwIdx (winPart fn part) s.dev) s.dev) j).toNat := by
  obtain ⟨e, hread, hsame, hval, hother⟩ := flwRead_of_own (namedFlow_of_own hheld hown)
  have hreg {k : Nat} (hk : k ≠ kFlw (winPart fn part) oFLW_STATUS) : rg k (setRgN (kFlw (winPart fn part) oFLW_STATUS) 0 e) = rg k e :=
    (rg_setRgN _ _ _ _).trans (if_neg hk)
  refine ⟨_, exec_flow (cmd := .flwRead fn part) rfl hr hp halone hidle hread,
    ⟨rfl, congrArg (setRgN (kFlw (winPart fn part) oFLW_STATUS) 0) hsame,
    fun k hk => ?_⟩, rgN_setRgN _ 0 e (by decide), fun j hj => ?_⟩
  · rw [List.mem_cons, not_or] at hk
    exact (hreg hk.1).trans (hother k fun j hj h => hk.2 (List.mem_map.2 ⟨j, List.mem_range.2 hj, h.symm⟩))
  · exact (congrArg BitVec.toNat (hreg (kEntry_ne_status _ j))).trans (hval j hj)

end

theorem flowOperations : FlowOperations := by
  intro s fn part i d p st f ws w0 new reports onlyFlow hr hp halone
  refine ⟨fun hbusy cmd hcmd => ?_, fun hidle => ?_⟩
  · obtain ⟨op, hx⟩ := exec_flow_of_mem hcmd s
    exact ⟨_, hx.trans (onDev_fromWindow hr hp (flwOp_of_busy hbusy)), rejected_of_reject⟩
  have report {cmd : Instr} {op n : Nat} (hn : n < 16) (hx : exec cmd s = onDev (fromWindow fn part 2 oFLW_OP (flwOp fn part op)) s)
      (h : flowRun op p d = (n, d)) : reports cmd n := result_reported hn (exec_flow hx hr hp halone hidle h)
  have change {cmd : Instr} {op j : Nat} (F : Flow → Flow) (hx : exec cmd s = onDev (fromWindow fn part 2 oFLW_OP (flwOp fn part op)) s)
      (h : flowRun op p d = (0, modFlow j F d)) : onlyFlow cmd j (F (flow j d)) [] :=
    flow_changed (e := modFlow j F d) rfl (fun _ _ => rfl) (by simp) (by simp) (exec_flow hx hr hp halone hidle h)
  have modified (hheld : f.held = true) (hown : hPart (fHandle f) = p) (hgood : badEntry { f with words := ws.set 0 w0 } = false)
      (hfix : FixedKept ws f) (hmode : fld w0 5 4 ≠ fld (fw f 0) 5 4) :=
    flwModify_of_valid (namedFlow_of_own hheld hown) hfix (by
      rw [badEntry_congr (g := { f with words := ws.set 0 w0 }) (by rw [modifiedFlow_of_newMode hmode])]
      exact hgood)
  have staged (hgood : badEntry new = false) (hpart : hPart (fHandle new) = p)
      (howner : ownerOf (bit w0 0) (fLocal new) (fLocalPort new) d = some p) : StagedOwn p d :=
    ⟨hgood, hpart, by rw [fw_newFlow_zero]; exact howner⟩
  refine ⟨fun cmd hcmd => ?_, fun hheld hown => ⟨?_, fun hu => ?_, fun hu => ?_, fun hfix => ?_, fun hgood hfix hmode => ⟨?_, ?_, ?_⟩⟩,
    fun hbad => ?_, fun hgood hpart => ?_, fun hgood hpart howner => ⟨?_, ?_⟩⟩
  · obtain ⟨op, hop, hx⟩ : ∃ op, op ≠ 2 ∧ exec cmd s = onDev (fromWindow fn part 2 oFLW_OP (flwOp fn part op)) s := by
      simp only [List.mem_cons, List.not_mem_nil, or_false] at hcmd
      rcases hcmd with rfl | rfl | rfl
      · exact ⟨1, by decide, rfl⟩
      · exact ⟨3, by decide, rfl⟩
      · exact ⟨4, by decide, rfl⟩
    refine ⟨fun hheld => ?_, fun hheld hown => ?_⟩
    · have hname : namedFlow p (flwIdx p d) d = 8 := namedFlow_of_empty hheld
      exact report (by decide) hx ((flowRun_of_notOwn hop (by rw [hname]; decide)).trans (by rw [hname]))
    · have hname : namedFlow p (flwIdx p d) d = 6 := namedFlow_of_foreign hheld hown
      exact report (by decide) hx ((flowRun_of_notOwn hop (by rw [hname]; decide)).trans (by rw [hname]))
  · exact exec_flwRead hr hp halone hidle hheld hown
  · exact report (by decide) rfl (flwRemove_of_inUse (namedFlow_of_own hheld hown) hu)
  · exact change _ rfl (flwRemove_of_free (namedFlow_of_own hheld hown) hu)
  · obtain ⟨j, hj, hne⟩ := hfix
    exact report (by decide) rfl (flwModify_of_fixed (namedFlow_of_own hheld hown) fun h => hne (h j hj))
  · intro howner
    exact report (by decide) rfl ((modified hheld hown hgood hfix hmode).trans (if_pos howner))
  · intro howner hstale
    refine report (by decide) rfl ((modified hheld hown hgood hfix hmode).trans ?_)
    rw [if_neg (not_not_intro howner), if_pos (by rw [hstale]; rfl)]
  · intro howner hleased
    have hrun := change (cmd := .flwModify fn part) (fun f => modifiedFlow ws f (now64 d)) rfl ((modified hheld hown hgood hfix hmode).trans (by
      rw [if_neg (not_not_intro howner), if_neg (by rw [hleased]; decide)]))
    rw [modifiedFlow_of_newMode hmode] at hrun
    exact hrun
  · exact report (by decide) rfl (flwAdd_of_badEntry hbad)
  · exact report (by decide) rfl (flwAdd_of_foreign hgood hpart)
  · intro hstale
    exact report (by decide) rfl (flwAdd_of_stale (staged hgood hpart howner) hstale)
  · intro hleased hopen hquota hroom
    obtain ⟨hdup, hadd⟩ := flwAdd_of_quota (staged hgood hpart howner) hleased ⟨hopen, hquota, hroom⟩
    refine ⟨fun h => report (by decide) rfl (hdup h), fun hnew hwf hi hheld hfree hbelow hoff => ?_⟩
    have hput := putFlow_of_disabled (i := i) (ws := ws) (d := d) (by rw [fw_newFlow_zero]; exact hoff)
    have hrun := exec_flow (cmd := .flwAdd fn part) rfl hr hp halone hidle (hadd i _ hnew (freeIndex_eq hwf hi hheld hfree hbelow) hput)
    refine flow_changed (F := fun _ => newFlow ws d) rfl (fun k hk => ?_) (fun k hk => ?_) ?_ hrun
    · rw [rg_setRgN, if_neg (by simpa using hk)]
      rfl
    · rw [List.mem_singleton.1 hk]
      exact rgN_setRgN _ _ _ (by omega)
    · simp only [List.mem_singleton, st, kFlw, kWin, oFLW_IDX, oFLW_STATUS]
      omega

/-! ### Key operations (R159, R162, R163) -/

section
variable {fn part op : Nat} {s : State} {d : Dev}

/-- The staging registers of a KEY window, in the order in which they are zeroed. -/
def stagedKeys (p : Nat) : List Nat :=
  [kKey p oKEY_MKI, kKey p oKEY_ROC] ++ ((List.range 8).map fun i => kKey p (oKEY_MASTER + 4 * i)) ++
    (List.range 4).map fun i => kKey p (oKEY_SALT + 4 * i)

theorem zeroStaging_eq (p : Nat) (d : Dev) : zeroStaging p d = (stagedKeys p).foldl (fun x k => setRgN k 0 x) d := by
  simp only [stagedKeys, List.foldl_append, List.foldl_map]
  rfl

theorem rg_zeroStaging (p q : Nat) (d : Dev) : rg q (zeroStaging p d) = if q ∈ stagedKeys p then 0 else rg q d := by
  rw [zeroStaging_eq, rg_foldl_zero]

/-- The handle KEY_SEL names. -/
def keySel (p : Nat) (d : Dev) : W32 := (rg (kKey p oKEY_SEL) d).extractLsb' 0 32
/-- The value of KEY_CTRL. -/
def keyCtrl (p : Nat) (d : Dev) : W32 := (rg (kKey p oKEY_CTRL) d).extractLsb' 0 32
/-- The staged words from an offset on. -/
def keyWords (p o n : Nat) (d : Dev) : List W32 := (List.range n).map fun i => (rg (kKey p (o + 4 * i)) d).extractLsb' 0 32
/-- The key slot that KEY_SEL and KEY_CTRL name. -/
def keySlot (p : Nat) (d : Dev) : Nat :=
  keyIdx (hSlot (keySel p d)) (fld (keyCtrl p d) 0 0) (fld (keyCtrl p d) 1 1) (fld (keyCtrl p d) 2 2)
/-- The suite of the leg they name. -/
def keySuite (p : Nat) (d : Dev) : Nat := legSuite (descNow (hSlot (keySel p d)) d) (fld (keyCtrl p d) 0 0)

/-- INSTALL has something to refuse: a leg without SRTP, or a length that does not fit the suite (R163). -/
abbrev KeyMisfit (p : Nat) (d : Dev) : Prop :=
  keySuite p d = 0 ∨ (!isRtp (descNow (hSlot (keySel p d)) d) (fld (keyCtrl p d) 0 0)) = true ∨ 4 < fld (keyCtrl p d) 5 3 ∨
    longer (keyWords p oKEY_MASTER 8 d) (keyBytes (keySuite p d)) = true ∨ longer (keyWords p oKEY_SALT 4 d) (saltBytes (keySuite p d)) = true

/-- The key slot as INSTALL loads it. -/
def stagedKey (p : Nat) (d : Dev) : Key :=
  { Key.reset with
    loaded := true, key := (keyWords p oKEY_MASTER 8 d).take (keyBytes (keySuite p d) / 4), salt := keyWords p oKEY_SALT 4 d
    mki := BitVec.ofNat 32 (((rg (kKey p oKEY_MKI) d).extractLsb' 0 32).toNat % 2 ^ (8 * fld (keyCtrl p d) 5 3)), mkiLen := fld (keyCtrl p d) 5 3
    roc := ((rg (kKey p oKEY_ROC) d).extractLsb' 0 32).toNat }

/-- The result of INSTALL (1) or ERASE (2) (R163). -/
def keyResult (op p : Nat) (d : Dev) : Nat :=
  if hPart (keySel p d) ≠ p then 6 else if !leased (keySel p d) d then 1 else if op = 1 ∧ KeyMisfit p d then 5 else 0

section
variable {p : Nat}

theorem keyResult_of_foreign (h : hPart (keySel p d) ≠ p) : keyResult op p d = 6 := if_pos h

variable (h : hPart (keySel p d) = p)
include h

theorem keyResult_of_stale (hl : leased (keySel p d) d = false) : keyResult op p d = 1 := by
  rw [keyResult, if_neg (not_not_intro h), hl]
  rfl

/-- The result for a leased handle of the partition. -/
theorem keyResult_of_leased (hl : leased (keySel p d) d = true) : keyResult op p d = if op = 1 ∧ KeyMisfit p d then 5 else 0 := by
  rw [keyResult, if_neg (not_not_intro h), hl]
  rfl

end

/-- The key slot as an operation with result 0 leaves it. -/
def keyLeft (op p : Nat) (d : Dev) : Key := if op = 1 then stagedKey p d else Key.reset

/-- The device at the end of a key operation with result `r` that left the key slots as in `e`. -/
def keyEnd (p r : Nat) (e : Dev) : Dev := setRgN (kKey p oKEY_STATUS) r (zeroStaging p e)

theorem keyOp_of_idle (hidle : bit (rg (kKey (winPart fn part) oKEY_STATUS) d) 31 = false) (halone : d.twin.role = .alone) :
    keyOp fn part op d = keyEnd (winPart fn part) (keyResult op (winPart fn part) d) (if keyResult op (winPart fn part) d ≠ 0 then d
      else modKey (keySlot (winPart fn part) d) (fun _ => keyLeft op (winPart fn part) d) d) := by
  have hload (p : Nat) : loadKey (hSlot (keySel p d)) (fld (keyCtrl p d) 0 0) (keyCtrl p d).toNat (keySuite p d) (keyWords p oKEY_MASTER 8 d)
      (keyWords p oKEY_SALT 4 d) ((rg (kKey p oKEY_MKI) d).extractLsb' 0 32) ((rg (kKey p oKEY_ROC) d).extractLsb' 0 32) d =
      modKey (keySlot p d) (fun _ => stagedKey p d) d := by
    rw [loadKey, BitVec.ofNat_toNat, BitVec.setWidth_eq]
    rfl
  have hleft (p : Nat) : modKey (keySlot p d) (fun _ => keyLeft op p d) d =
      if op = 1 then modKey (keySlot p d) (fun _ => stagedKey p d) d else modKey (keySlot p d) (fun _ => Key.reset) d := by
    unfold keyLeft
    split <;> rfl
  unfold keyOp
  dsimp only
  rw [if_neg (ne_true_of_eq_false hidle), notStandby_of_alone halone, if_neg fun hp => by
    rw [not_paired_of_alone halone] at hp
    exact absurd hp.2 (by decide), hleft, ← hload]
  rfl

@[simp] theorem keyOf_modKey (i j : Nat) (f : Key → Key) (d : Dev) : keyOf j (modKey i f d) = if j = i then f (keyOf i d) else keyOf j d := by
  simp [keyOf, modKey]

theorem status_not_staged (p : Nat) : kKey p oKEY_STATUS ∉ stagedKeys p := by
  simp only [stagedKeys, List.mem_append, List.mem_cons, List.mem_map, List.mem_range, List.not_mem_nil, or_false, kKey, kWin, oKEY_STATUS, oKEY_MKI,
    oKEY_ROC, oKEY_MASTER, oKEY_SALT]
  omega

theorem path_keyEnd (p r : Nat) (e : Dev) : (keyEnd p r e).path = e.path := by rw [keyEnd, setRgN_path, regsOnly_zeroStaging p e]

/-- The end of a key operation that changed at most key slots: its staging registers read 0, and its result is reported (R162, R163). -/
theorem keyEnd_spec {p r : Nat} {e : Dev} (hr : r < 16) (same : e = { d with path := { d.path with keys := e.path.keys } }) :
    keyEnd p r e = { d with regs := (keyEnd p r e).regs, path := { d.path with keys := (keyEnd p r e).path.keys } } ∧
      (∀ q ∈ stagedKeys p, rg q (keyEnd p r e) = 0) ∧ (∀ q, q ∉ kKey p oKEY_STATUS :: stagedKeys p → rg q (keyEnd p r e) = rg q d) ∧
      rgN (kKey p oKEY_STATUS) (keyEnd p r e) = r := by
  have hreg (q : Nat) : rg q (keyEnd p r e) = if q = kKey p oKEY_STATUS then BitVec.ofNat 64 r else if q ∈ stagedKeys p then 0 else rg q e := by
    rw [keyEnd, rg_setRgN, rg_zeroStaging]
  have hold (q : Nat) : rg q e = rg q d := by rw [same]; rfl
  refine ⟨?_, fun q hq => ?_, fun q hq => ?_, rgN_setRgN _ r _ (by omega)⟩
  · have hregs : RegsOnly e (keyEnd p r e) := (regsOnly_zeroStaging p e).trans (regsOnly_setRgN _ _ _)
    have hzero : keyEnd p r e = { e with regs := (keyEnd p r e).regs } := hregs
    rw [path_keyEnd]
    exact hzero.trans (congrArg (fun x : Dev => { x with regs := (keyEnd p r e).regs }) same)
  · have hne : q ≠ kKey p oKEY_STATUS := fun h => status_not_staged p (by rwa [h] at hq)
    rw [hreg, if_neg hne, if_pos hq]
  · rw [List.mem_cons, not_or] at hq
    rw [hreg, if_neg hq.1, if_neg hq.2, hold]

theorem keyOf_keyEnd (p r j : Nat) (e : Dev) : keyOf j (keyEnd p r e) = keyOf j e := by
  rw [keyOf, path_keyEnd]
  rfl

theorem longer_eq_false {ws : List W32} {n : Nat} (h : ∀ b, n ≤ b → b < 4 * ws.length → stagedByte ws b = 0) : longer ws n = false := by
  rw [longer, List.any_eq_false]
  intro b hb hlong
  rw [Bool.and_eq_true, decide_eq_true_eq, decide_eq_true_eq] at hlong
  exact hlong.2 (h b hlong.1 (List.mem_range.1 hb))

/-- Staged words that hold no byte beyond the suite's lengths, for a leg with SRTP, fit (R163). -/
theorem not_keyMisfit {p : Nat} (hsuite : keySuite p d ≠ 0) (hrtp : isRtp (descNow (hSlot (keySel p d)) d) (fld (keyCtrl p d) 0 0) = true)
    (hlen : fld (keyCtrl p d) 5 3 ≤ 4) (hkey : ∀ b, keyBytes (keySuite p d) ≤ b → b < 32 → stagedByte (keyWords p oKEY_MASTER 8 d) b = 0)
    (hsalt : ∀ b, saltBytes (keySuite p d) ≤ b → b < 16 → stagedByte (keyWords p oKEY_SALT 4 d) b = 0) : ¬ KeyMisfit p d := by
  have hlongKey : longer (keyWords p oKEY_MASTER 8 d) (keyBytes (keySuite p d)) = false :=
    longer_eq_false fun b hb hlt => hkey b hb (by simpa [keyWords] using hlt)
  have hlongSalt : longer (keyWords p oKEY_SALT 4 d) (saltBytes (keySuite p d)) = false :=
    longer_eq_false fun b hb hlt => hsalt b hb (by simpa [keyWords] using hlt)
  simp [KeyMisfit, hsuite, hrtp, hlen, hlongKey, hlongSalt]

theorem toNat_low (v : W64) : (v.extractLsb' 0 32).toNat = v.toNat % 2 ^ 32 := by rw [BitVec.extractLsb'_toNat, Nat.shiftRight_zero]

theorem keyWords_taken (s : Nat) : keyBytes s / 4 = if s = 4 then 8 else 4 := by
  unfold keyBytes
  split <;> rfl

/-- The MKI loaded is as long as KEY_CTRL says (R160). -/
theorem toNat_mki {p : Nat} (hlen : fld (keyCtrl p d) 5 3 ≤ 4) :
    (stagedKey p d).mki.toNat = rgN (kKey p oKEY_MKI) d % 2 ^ 32 % 2 ^ (8 * fld (keyCtrl p d) 5 3) := by
  have hpow : 2 ^ (8 * fld (keyCtrl p d) 5 3) ≤ 2 ^ 32 := Nat.pow_le_pow_right (by decide) (by omega)
  show (BitVec.ofNat 32 _).toNat = _
  rw [BitVec.toNat_ofNat, toNat_low]
  exact Nat.mod_eq_of_lt ((Nat.mod_lt _ (Nat.two_pow_pos _)).trans_le hpow)

end

theorem keyOperations : KeyOperations := by
  intro s fn part d p st h c staged words k leg suite i ended hr hp halone hidle
  have hstaged (q : Nat) : q ∈ staged ↔ q ∈ stagedKeys p := (((List.Perm.swap _ _ []).append_right _).append_right _).mem_iff
  have finish {cmd : Instr} {op n : Nat} {e : Dev} (hx : exec cmd s = onDev (fromWindow fn part 3 oKEY_OP (keyOp fn part op)) s)
      (hn : keyResult op p d = n) (h16 : n < 16) (he : (if n ≠ 0 then d else modKey (keySlot p d) (fun _ => keyLeft op p d) d) = e)
      (same : e = { d with path := { d.path with keys := e.path.keys } }) : ended cmd n { s with dev := keyEnd p n e } := by
    obtain ⟨hsame, hzero, hother, hres⟩ := keyEnd_spec (p := p) h16 same
    have hop := keyOp_of_idle (op := op) (fn := fn) (part := part) hidle halone
    rw [show keyResult op (winPart fn part) s.dev = n from hn, show (if n ≠ 0 then s.dev else _) = e from he] at hop
    refine ⟨hx.trans (onDev_fromWindow hr hp hop), rfl, hsame, fun q hq => hzero q ((hstaged q).1 hq), fun q hq => hother q fun hm => hq ?_, hres⟩
    rw [List.mem_cons] at hm ⊢
    exact hm.imp id (hstaged q).2
  refine ⟨fun cmd hcmd => ?_, fun hpart hl => ⟨?_, fun hmis => ?_, fun hsuite hrtp hlen hkey hsalt => ?_⟩⟩
  · obtain ⟨op, hx⟩ : ∃ op, exec cmd s = onDev (fromWindow fn part 3 oKEY_OP (keyOp fn part op)) s := by
      simp only [List.mem_cons, List.not_mem_nil, or_false] at hcmd
      rcases hcmd with rfl | rfl
      · exact ⟨1, rfl⟩
      · exact ⟨2, rfl⟩
    exact ⟨fun hpart => ⟨_, finish hx (keyResult_of_foreign hpart) (by decide) (if_pos (by decide)) rfl, path_keyEnd _ _ _⟩,
      fun hpart hl => ⟨_, finish hx (keyResult_of_stale hpart hl) (by decide) (if_pos (by decide)) rfl, path_keyEnd _ _ _⟩⟩
  · have hres : keyResult 2 p d = 0 := (keyResult_of_leased hpart hl).trans (if_neg fun h => absurd h.1 (by decide))
    refine ⟨_, finish (cmd := .keyErase fn part) rfl hres (by decide) (if_neg (not_not_intro rfl)) rfl, ?_, fun j hj => ?_⟩
    · exact (keyOf_keyEnd _ _ _ _).trans ((keyOf_modKey _ _ _ _).trans (if_pos rfl))
    · exact (keyOf_keyEnd _ _ _ _).trans ((keyOf_modKey _ _ _ _).trans (if_neg hj))
  · have hmisfit : KeyMisfit p d := hmis.imp id (Or.imp (Bool.not_eq_true' _).mpr Or.inl)
    have hres : keyResult 1 p d = 5 := (keyResult_of_leased hpart hl).trans (if_pos ⟨rfl, hmisfit⟩)
    exact ⟨_, finish (cmd := .keyInstall fn part) rfl hres (by decide) (if_pos (by decide)) rfl, path_keyEnd _ _ _⟩
  · have hfits : ¬ KeyMisfit p d := not_keyMisfit hsuite hrtp hlen hkey hsalt
    have hres : keyResult 1 p d = 0 := (keyResult_of_leased hpart hl).trans (if_neg fun h => hfits h.2)
    refine ⟨_, finish (cmd := .keyInstall fn part) rfl hres (by decide) (if_neg (not_not_intro rfl)) rfl, fun j hj => ?_, ?_⟩
    · exact (keyOf_keyEnd _ _ _ _).trans ((keyOf_modKey _ _ _ _).trans (if_neg hj))
    · dsimp only
      rw [keyOf_keyEnd, show keyOf i _ = stagedKey p d from (keyOf_modKey _ _ _ _).trans (if_pos rfl)]
      exact ⟨rfl, congrArg (fun n => List.take n _) (keyWords_taken suite), rfl, rfl, toNat_mki hlen, toNat_low _, rfl, rfl, rfl⟩

/-- Settles O22: `flowOperations` by what each operation makes of the table (`flowRun`), `keyOperations` by the result of each key operation
(`keyResult`). -/
theorem flowAndKeyOperations : Obligations.FlowAndKeyOperations := ⟨flowOperations, keyOperations⟩

end Sys2Proof.Machine
end

section
/-! PROOF. O23 fails in one clause, the launch of the head of Q6, at an instant half a turn of NT32 away. -/
namespace Sys2Proof.Machine

/-! ### O23: a head of Q6 half a turn of NT32 away (R22, R309) -/

/-- A packet with nothing in it. -/
def emptyPacket : TxPkt := ⟨0, 0, [], 0, 0, 64, false, 0, 0, false, 0, 0, 0, [], []⟩

/-- That packet, with its launch instant 2³¹ ns from instant 0: in the signed comparison of R22 each of the two lies 2³¹ ns before the other. -/
def halfTurnHead : Q6Ent := ⟨0x80000000, 0, 0, 1, 218, 0, some emptyPacket, none⟩

/-- A device at instant 0 that may launch, with that packet alone in Q6 of the idle port 0, and an egress window of 1,000 µs for its partition. -/
def halfTurnQueued : State :=
  { State.reset with dev := { State.reset.dev with
    regs := [(kMac 0 0 oMAC_STATUS, 1), (kPart 1 oPART_EGR, 0x03E80000)], twin := { State.reset.dev.twin with own := true }
    ports := [(0, { Port.reset with q6 := [halfTurnHead] })] } }

/-- The launch would start at once, which by R22 is past the end of the packet's window: it is dropped as late, and none is counted as sent. -/
theorem halfTurnQueued_not_sent : regAfter rEGR_CNT_TX (exec (.egressLaunch 0) halfTurnQueued) = 0 := by decide +kernel

/-- Refutes O23: that a head whose instant lies at most 20 ns ahead and at most 20 ns behind is sent fails where it lies half a turn of NT32
away. Both signed differences are then −2³¹, so the hypotheses hold; the statement takes the packet to start at its own instant, which ends
inside the window, but the model starts it now and drops it as late. -/
theorem not_bindingsAndLaunch : ¬ Obligations.BindingsAndLaunch := by
  intro h
  obtain ⟨-, -, -, -, -, hlaunch, -⟩ := h halfTurnQueued 0 0 0 0 halfTurnHead [] emptyPacket rfl
  have hahead : sdiff halfTurnHead.at_ (now halfTurnQueued.dev) ≤ 20 := by decide
  have hbehind : sdiff (now halfTurnQueued.dev) halfTurnHead.at_ ≤ 20 := by decide
  obtain ⟨t, ht, -, -, -, hcount, -⟩ :=
    hlaunch (by decide) rfl rfl rfl hahead hbehind (by decide) (by decide) (by decide) (by decide) rfl rfl (by decide)
  have hsent : regAfter rEGR_CNT_TX (exec (.egressLaunch 0) halfTurnQueued) = 1 := by
    rw [ht]
    exact hcount
  rw [halfTurnQueued_not_sent] at hsent
  exact absurd hsent (by decide)

end Sys2Proof.Machine
end

section
/-! PROOF. O16: what a channel job makes of two LINE legs with every optional stage off, and what a bus job makes of its contributions. -/
namespace Sys2Proof.Machine

/-! ### Signals (R11, R197) -/

theorem fit_of_length {n : Nat} {x : List (BitVec 18)} (h : x.length = n) : fit n x = x := List.take_left' h

theorem applyGain_zero (x : List (BitVec 18)) : applyGain 0 x = x := if_pos rfl

theorem gainIn_of_unity {l : List W32} (h : dw l 33 = 0) (leg : Nat) : gainIn l leg = 0 := by simp [gainIn, h]

theorem gainOut_of_unity {l : List W32} (h : dw l 33 = 0) (leg : Nat) : gainOut l leg = 0 := by simp [gainOut, h]

/-- The saturation of the media functions is that of the statements (R11, R217). -/
theorem sat18_eq_clipped (x : Int) : sat18 x = clipped 18 true x := by
  rw [sat18, clampInt, clipped, if_pos rfl, show (2 : Int) ^ (18 - 1) = 131072 from rfl]
  by_cases hlow : x < -131072
  · rw [if_pos hlow, if_neg (by omega), if_pos (by omega)]
  · rw [if_neg hlow]
    by_cases hhigh : 131071 < x
    · rw [if_pos hhigh, if_neg (by omega), if_neg (by omega)]
      rfl
    · rw [if_neg hhigh, if_pos (by omega)]

/-! ### A leg's input side (R191 steps 1 to 10) -/

/-- The stages of steps 3 to 9 of R191 are off on a leg: unity gain, no canceller, no tone detection, AGC or noise suppression (R194, R197). -/
structure StagesOff (l : List W32) (leg : Nat) : Prop where
  gain : dw l 33 = 0
  echo : ecTail l = 0
  tones : toneDet l leg = false
  agc : agcOn l leg = false
  noise : nsOn l leg = false

theorem legInput_line {l : List W32} {leg : Nat} (h : kind l leg = 2) (ctx : Nat) (x : List (BitVec 18)) (st : Nat) (nt : NT32) :
    legInput l leg ctx (.pcm x st) false nt = (fit (samplesPerPass l) x, false) := by simp [legInput, h]

/-- With its stages off, a leg hands on its input unchanged, to the tap PRE and to the tap POST (R191). -/
theorem legWork_of_stagesOff {j : Job} {leg : Nat} {x : List (BitVec 18)} (hoff : StagesOff j.snap.desc leg)
    (hin : (legInput j.snap.desc leg j.snap.ctx (if leg = 0 then j.inA else j.inB) (if leg = 0 then j.markA else j.markB) j.pass).1 = x)
    (ecOff : Bool) (e : EchoCan) : (legWork j leg false ecOff e).pre = x ∧ (legWork j leg false ecOff e).post = x := by
  obtain ⟨hgain, hecho, htones, hagc, hnoise⟩ := hoff
  constructor
  · simp [legWork, hin, gainIn_of_unity hgain, applyGain_zero]
  · simp [legWork, hin, gainIn_of_unity hgain, applyGain_zero, hecho, htones, hagc, hnoise]

/-! ### The output side (R191 steps 12 to 14) -/

theorem genStart_of_no_write (l : List W32) (g : ToneGen) : genStart l false g = g := by simp [genStart]

/-- An idle generator and no received event leave the signal toward a leg alone (R206, R208). -/
theorem genInto_of_idle {l : List W32} {g : ToneGen} {x : List (BitVec 18)} (hg : g.kind = 0) (hx : x.length = samplesPerPass l) (dst : Nat)
    (p : Int) : genInto l g dst [] p x = x := by
  have hevt (c : Bool) (t : Int) : (if c then none else evtAt [] t) = none := by cases c <;> rfl
  simp only [genInto, hevt, hg, OfNat.zero_ne_ofNat, zero_ne_one, or_self, decide_false, Bool.and_false, Bool.false_and, Bool.false_eq_true, if_false]
  exact List.map_snd_zip (by rw [hx, List.length_range])

theorem tenantRuns_of_no_program {j : Job} (h : progOn j.snap.desc = false) : tenantRuns j = false := by simp [tenantRuns, h]

/-- What a job makes of the processed input of leg `1 - dst` on its way toward leg `dst`, out of pass-through (R191 steps 12 to 14). -/
def outputSide (j : Job) (dst : Nat) (x : List (BitVec 18)) : List (BitVec 18) :=
  let s := j.snap
  let g := if 1 - dst = 0 then s.legA else s.legB
  applyGain (gainOut s.desc dst) (genInto s.desc (genStart s.desc (decide (s.genAt ≠ 0)) s.media.gen) dst
    (evtSpans s.desc (1 - dst) g j.nt64.toNat g.evts) j.nt64.toNat (fit (samplesPerPass s.desc) x))

/-- Unity gain, an idle generator and no received event leave the processed input alone (R197, R206, R208). -/
theorem outputSide_of_idle {j : Job} {x : List (BitVec 18)} (hgain : dw j.snap.desc 33 = 0) (hgen : j.snap.media.gen.kind = 0)
    (hat : j.snap.genAt = 0) (hA : j.snap.legA.evts = []) (hB : j.snap.legB.evts = []) (hx : x.length = samplesPerPass j.snap.desc)
    (dst : Nat) : outputSide j dst x = x := by
  have hevts : (if 1 - dst = 0 then j.snap.legA else j.snap.legB).evts = [] := by split <;> assumption
  have hwrote : decide (j.snap.genAt ≠ 0) = false := decide_eq_false (not_not_intro hat)
  rw [outputSide, hevts, hwrote, genStart_of_no_write, gainOut_of_unity hgain, applyGain_zero, fit_of_length hx]
  exact genInto_of_idle hgen hx dst _

/-- The input side of leg `leg` of a job out of pass-through, its canceller as R201 has the job find it. -/
def inputSide (j : Job) (leg : Nat) : LegWork :=
  legWork j leg false false (ecStart j.snap.desc (decide (j.snap.resetAt ≠ 0)) j.snap.media.ec)

/-- A job out of pass-through and without a tenant program sends the processed input of each leg toward the other (R191). -/
theorem channelOut_signals {j : Job} (hpt : j.snap.media.passThrough = false) (hprog : progOn j.snap.desc = false) (image data : List Word) :
    let o := channelOut image data j
    o.tapA = (inputSide j 0).pre ∧ o.tapB = (inputSide j 1).pre ∧ o.postA = (inputSide j 0).post ∧ o.postB = (inputSide j 1).post ∧
      o.toA = outputSide j 0 (inputSide j 1).post ∧ o.toB = outputSide j 1 (inputSide j 0).post := by
  have hten := tenantRuns_of_no_program hprog
  simp only [channelOut, hpt, hten, Bool.false_and]
  exact ⟨rfl, rfl, rfl, rfl, rfl, rfl⟩

/-- A LINE leg with its stages off and a pass of samples hands them on at its taps (R191). -/
theorem inputSide_line {j : Job} {leg st : Nat} {x : List (BitVec 18)} (hoff : StagesOff j.snap.desc leg) (hkind : kind j.snap.desc leg = 2)
    (hmark : (if leg = 0 then j.markA else j.markB) = false) (hin : (if leg = 0 then j.inA else j.inB) = .pcm x st)
    (hx : x.length = samplesPerPass j.snap.desc) : (inputSide j leg).pre = x ∧ (inputSide j leg).post = x := by
  refine legWork_of_stagesOff hoff ?_ false _
  rw [hmark, hin, legInput_line hkind, fit_of_length hx]

/-! ### Buses (R217) -/

/-- What member `k` gives to the mix: silence if it listens or contributed nothing (R110, R217). -/
def contribution (j : Job) (k : Nat × Bool) : List (BitVec 18) :=
  let n := if j.wb then 16 else 8
  if k.2 then quiet n else match j.contrib.find? fun c => decide (c.1 = k.1) with | some c => fit n c.2 | none => quiet n

/-- The sum of the members' contributions, without a limit (R217). -/
def contributionSum (j : Job) : List Int :=
  j.members.foldl (fun acc k => List.zipWith (fun a x => a + x.toInt) acc (contribution j k)) (List.replicate (if j.wb then 16 else 8) 0)

theorem busOut_mix (j : Job) :
    (busOut j).mix = j.members.map fun k => (k.1, List.zipWith (fun a x => sat18 (a - x.toInt)) (contributionSum j) (contribution j k)) := rfl

theorem contribution_of_found {j : Job} {m : Nat} {c : List (BitVec 18)} (hwb : j.wb = false)
    (h : j.contrib.find? (fun c => decide (c.1 = m)) = some (m, c)) (hlen : c.length = 8) : contribution j (m, false) = c := by
  simp [contribution, h, hwb, fit_of_length hlen]

/-- A conference of three without LISTEN: each member hears the sum of the other two, saturated (R217). -/
theorem busOut_mix_of_three {j : Job} {m0 m1 m2 : Nat} {a0 a1 a2 : BitVec 18} (hmem : j.members = [(m0, false), (m1, false), (m2, false)])
    (h01 : m0 ≠ m1) (h02 : m0 ≠ m2) (h12 : m1 ≠ m2) (hwb : j.wb = false)
    (hin : j.contrib = [(m0, List.replicate 8 a0), (m1, List.replicate 8 a1), (m2, List.replicate 8 a2)]) :
    (busOut j).mix = [(m0, List.replicate 8 (sat18 (a1.toInt + a2.toInt))), (m1, List.replicate 8 (sat18 (a0.toInt + a2.toInt))),
      (m2, List.replicate 8 (sat18 (a0.toInt + a1.toInt)))] := by
  have hc0 : contribution j (m0, false) = List.replicate 8 a0 := contribution_of_found hwb (by simp [hin]) rfl
  have hc1 : contribution j (m1, false) = List.replicate 8 a1 := contribution_of_found hwb (by simp [hin, h01]) rfl
  have hc2 : contribution j (m2, false) = List.replicate 8 a2 := contribution_of_found hwb (by simp [hin, h02, h12]) rfl
  have hsum : contributionSum j = List.replicate 8 (a0.toInt + a1.toInt + a2.toInt) := by
    simp [contributionSum, hmem, hwb, hc0, hc1, hc2]
  have hless (a : BitVec 18) : List.zipWith (fun (s : Int) (x : BitVec 18) => sat18 (s - x.toInt)) (contributionSum j) (List.replicate 8 a) =
      List.replicate 8 (sat18 (a0.toInt + a1.toInt + a2.toInt - a.toInt)) := by
    rw [hsum, List.zipWith_replicate, Nat.min_self]
  rw [busOut_mix, hmem, List.map_cons, List.map_cons, List.map_cons, List.map_nil, hc0, hc1, hc2, hless, hless, hless]
  rw [show a0.toInt + a1.toInt + a2.toInt - a0.toInt = a1.toInt + a2.toInt by ring,
    show a0.toInt + a1.toInt + a2.toInt - a1.toInt = a0.toInt + a2.toInt by ring, add_sub_cancel_right]

/-- Settles O16: each LINE leg's input passes its input side (`inputSide_line`) and its output side (`outputSide_of_idle`) unchanged, and a
bus takes from the sum each member's own contribution (`busOut_mix`). -/
theorem mediaOutputs : Obligations.MediaOutputs := by
  intro image data j x y
  refine ⟨fun hkA hkB hmA hmB hinA hinB hx hy hec htA htB hagA hagB hnsA hnsB hprog hgain hpt hgen hat hevA hevB => ?_,
    fun m0 m1 m2 hmem h01 h02 h12 hwb a0 a1 a2 hin => ?_⟩
  · obtain ⟨hpreA, hpostA⟩ := inputSide_line (leg := 0) ⟨hgain, hec, htA, hagA, hnsA⟩ hkA hmA hinA hx
    obtain ⟨hpreB, hpostB⟩ := inputSide_line (leg := 1) ⟨hgain, hec, htB, hagB, hnsB⟩ hkB hmB hinB hy
    obtain ⟨tapA, tapB, postA, postB, toA, toB⟩ := channelOut_signals hpt hprog image data
    rw [hpostB, outputSide_of_idle hgain hgen hat hevA hevB hy] at toA
    rw [hpostA, outputSide_of_idle hgain hgen hat hevA hevB hx] at toB
    exact ⟨toA, toB, tapA.trans hpreA, tapB.trans hpreB, postA.trans hpostA, postB.trans hpostB⟩
  · simp only [← sat18_eq_clipped]
    exact busOut_mix_of_three hmem h01 h02 h12 hwb hin

end Sys2Proof.Machine
end

section
/-! PROOF. O41, the core invariant after reset, and the refutations of O38 and O31. Both refuted statements quantify over every state that
meets their hypotheses; the states here meet them. -/
namespace Sys2Proof.Machine

theorem coreInv_of_reset_values {t : Tarn} (hslots : userMode t = true → ∀ p, t.slots = some p → p.kind ≠ 1 ∧ p.kind ≠ 2)
    (hwlo : tr 0x3A t = 0xC000) (hwhi : tr 0x3B t = 0xC000) (hst : tr 0x30 t = 0x180) : CoreInv t := by
  refine ⟨hslots, ?_, fun k hk => ?_⟩
  · rw [hwlo, hwhi]
    decide
  · rw [hst] at hk
    have bits : ∀ j < 64, bit (0x180 : W64) j = true → j ∈ [0, 1, 2, 3, 4, 7, 8, 14, 15] := by decide
    exact bits k (BitVec.lt_of_getLsbD hk) hk

theorem coreInvariantAtReset : CoreInvariantAtReset :=
  fun _ => coreInv_of_reset_values (t := Tarn.reset) (fun h => absurd h (by decide)) rfl rfl rfl

/-- Settles O41: every core reads as `Tarn.reset`, and every memory is empty (`reset_memoryWf`). -/
theorem invariantsAtReset : Obligations.InvariantsAtReset := ⟨coreInvariantAtReset, reset_memoryWf⟩

/-- The device after reset but for core 0. -/
def withCore0 (t : Tarn) : State := { State.reset with dev := { Dev.reset with tarns := [(0, t)] } }

/-! ### O38: a repeat in a delay slot of RETI -/

/-- A media core at a NOP that is repeated and stands, at once, in the last delay slot of a RETI that returns to user mode. No instruction of
the model puts a repeat into a delay slot; the core invariant does not exclude it. -/
def repeatInLastSlot : Tarn := { Tarn.reset with st := .running, rpt := some 2, slots := some ⟨1, 0, 1⟩, r := [(0x39, 0x8000)] }

/-- The repetition leaves the delay slots as they are while RETI takes its effect (R240, R243). -/
theorem nop_repeatInLastSlot (x : Tarn)
    (hx : x = tarn 0 (runTarn 0 .nop (fun _ t => .go t Use.none none) (withCore0 repeatInLastSlot).dev)) :
    userMode x = true ∧ x.slots = some ⟨1, 0, 1⟩ := by
  subst hx
  decide

/-- Refutes O38: from `repeatInLastSlot`, a NOP leads to a core in user mode with RETI in its delay slots. -/
theorem not_coreInvariantKept : ¬ Obligations.CoreInvariantKept := by
  intro h
  have hinv : CoreInv (tarn 0 (withCore0 repeatInLastSlot).dev) :=
    coreInv_of_reset_values (fun h => absurd h (by decide)) rfl rfl rfl
  obtain ⟨hkinds, -⟩ := h 0 (withCore0 repeatInLastSlot) _ (.nop 0) (.inl List.mem_cons_self) hinv rfl
  obtain ⟨huser, hslots⟩ := nop_repeatInLastSlot _ rfl
  exact (hkinds huser _ hslots).1 rfl

/-! ### O31: CALLU whose delay slots the image it loads replaces -/

/-- A running channel job whose program has number 0; its outputs are given, so that none is computed. -/
def jobOfProgram0 : Job where
  bus := false
  handle := 0
  pass := 0
  due := 0
  resv := 0
  markA := false
  markB := false
  bypass := false
  noProg := false
  epoch := 0
  st := .running
  replay := false
  faultCore := 0
  lostOperand := false
  spill := 0
  inA := .none
  inB := .none
  contrib := []
  members := []
  wb := false
  snap := { Slot.reset with desc := [0x8000] }
  nt64 := 0
  buf := 0
  ten := none
  out := some (JobOut.bus [])

/-- Core 0 with that job at a CALLU in the last word before the tenant slot. The image of the job's program is one word, an LDI with an
extension word, where program memory held a NOP. -/
def calluBeforeTenantSlot : State := { State.reset with dev := { Dev.reset with
  weir := { Weir.reset with lists := [(0, [jobOfProgram0])] }
  progs := [(0, ⟨true, [0x101000000], 1, [0], 1, false⟩)]
  basin := [(0xA800 * 1024, 0x101000000)]
  tarns := [(0, { Tarn.reset with st := .running, pc := 0x37FF, pm := [(0x37FF, 0x60A000000)], r := [(0x34, 0xFFFF)] })] } }

theorem calluBeforeTenantSlot_runs : Next 0 .callu (TI.of .callu) calluBeforeTenantSlot ∧
    headJob 0 calluBeforeTenantSlot.dev = some jobOfProgram0 ∧ tenantRuns jobOfProgram0 = true ∧
    1055 + 80 * (((jobImage jobOfProgram0 calluBeforeTenantSlot.dev).length + 1023) / 1024
      + (slot (hSlot jobOfProgram0.handle) calluBeforeTenantSlot.dev).tgranules.length)
      < (tr 0x34 (tarn 0 calluBeforeTenantSlot.dev)).toNat := by decide +kernel

/-- The return address is of the words the load left, whose first delay slot has an extension word; by the words before it, it is one
less (R255, R277). -/
theorem calluBeforeTenantSlot_returns :
    (tarn 0 (callUser 0 calluBeforeTenantSlot.dev)).slots = some ⟨2, 0x3803, 2⟩ ∧
    afterDelaySlots (issuing 0 calluBeforeTenantSlot) = 0x3802 := by decide +kernel

/-- Refutes O31: the return address of a CALLU just below the tenant slot is not that of the words its delay slots held before the load. -/
theorem not_branchResults : ¬ Obligations.BranchResults := by
  intro h
  obtain ⟨hnext, hhead, hruns, hwdog⟩ := calluBeforeTenantSlot_runs
  obtain ⟨hleft, hsaid⟩ := calluBeforeTenantSlot_returns
  obtain ⟨-, -, -, -, -, -, hcallu, -⟩ := h 0 (TI.of .callu) calluBeforeTenantSlot
  obtain ⟨t, ⟨ht, -, -, -, -, hslots, -⟩, -⟩ := hcallu jobOfProgram0 hnext hhead hruns rfl hwdog
  have hdev : t.dev = callUser 0 calluBeforeTenantSlot.dev := dev_of_onDev ht
  rw [hdev, hleft, hsaid] at hslots
  exact absurd hslots (by decide)

end Sys2Proof.Machine
end

section
/-! PROOF. What an instruction writes of its core, for O24 to O33. An operation writes registers and leaves notes of what consumers see until a
write comes into view (R229): `Writes` says which, with one lemma `Writes.<its name>` for each operation; a consumer sees a register as before
where neither it nor its place is among them. -/
namespace Sys2Proof.Machine

/-! ### Notes of hidden writes (R229) -/

/-- The writes of a place that its consumers do not see yet, the newest first. -/
def notesAt (p : Nat) (t : Tarn) : List Past := t.past.filter fun e => decide (e.place = p)

section
variable {p q n k : Nat} {v u : W64} {t x y z : Tarn} {l m ps qs : List Nat}

theorem seen_of_notesAt (h : notesAt p x = notesAt p y) : seen p v x = seen p v y := by
  unfold notesAt at h
  unfold seen
  rw [h]

theorem notesAt_ageAll : notesAt p (ageAll t) =
    ((notesAt p t).map fun e => { e with age := e.age + 1 }).filter fun e => decide (e.age ≤ e.need) := by
  simp only [notesAt, ageAll, List.filter_map, List.filter_filter, Function.comp_def, Bool.and_comm]

theorem notesAt_ageAll_congr (h : notesAt p x = notesAt p y) : notesAt p (ageAll x) = notesAt p (ageAll y) := by
  rw [notesAt_ageAll, notesAt_ageAll, h]

/-- Where no note of a place comes into view with the next instruction, its consumers see the same then. -/
theorem seen_ageAll_of_hidden (h : ∀ e ∈ notesAt p t, e.age < e.need) : seen p v (ageAll t) = seen p v t := by
  have hall : notesAt p (ageAll t) = (notesAt p t).map fun e => { e with age := e.age + 1 } := by
    rw [notesAt_ageAll, List.filter_eq_self]
    intro e he
    obtain ⟨a, ha, rfl⟩ := List.mem_map.1 he
    exact decide_eq_true (h a ha)
  unfold notesAt at hall
  unfold seen
  rw [hall, List.getLast?_map]
  cases (t.past.filter fun e => decide (e.place = p)).getLast? <;> rfl

theorem notesAt_hide : notesAt p (hide q v n t) = if q = p then ⟨q, v, n, 0⟩ :: notesAt p t else notesAt p t := by
  simp [notesAt, hide, List.filter_cons]

theorem notesAt_reveal : notesAt p (reveal q t) = if q = p then [] else notesAt p t := by
  simp only [notesAt, reveal, List.filter_filter]
  split
  · next h => simp [h]
  · next h =>
    refine List.filter_congr fun e _ => ?_
    by_cases he : e.place = p
    · simp [he, Ne.symm h]
    · simp [he]

/-! ### The value a consumer sees of a place, set (R229, R235) -/

section
variable {α : Type} {f : α → Bool} {g : α → α} {i : Nat}

theorem filter_modify_of_unmatched : ∀ {l : List α} {i : Nat}, (∀ a, l[i]? = some a → f a = false ∧ f (g a) = false) →
    (l.modify i g).filter f = l.filter f
  | [], _, _ => by simp
  | a :: l, 0, h => by
    obtain ⟨ha, hg⟩ := h a rfl
    simp [ha, hg]
  | a :: l, i + 1, h => by
    have ih := filter_modify_of_unmatched (l := l) (i := i) fun b hb => h b (by simpa using hb)
    simp [List.filter_cons, ih]

theorem find?_modify_findIdx? (hg : ∀ a, f (g a) = f a) : ∀ {l : List α} {i : Nat}, l.findIdx? f = some i →
    (l.modify i g).find? f = (l.find? f).map g
  | [], _, h => by simp at h
  | a :: l, i, h => by
    rw [List.findIdx?_cons] at h
    by_cases ha : f a
    · rw [if_pos ha] at h
      cases h
      simp [ha, hg]
    · rw [if_neg ha] at h
      obtain ⟨j, hj, rfl⟩ := Option.map_eq_some_iff.1 h
      simp [ha, find?_modify_findIdx? hg hj]

end

/-- The notes of a core but those of a place that come into view with the next instruction, the oldest first. -/
def staying (p : Nat) (t : Tarn) : List Past := (t.past.filter fun e => !(decide (e.place = p) && decide (e.need ≤ e.age))).reverse

theorem setSeen_noted {i : Nat} (h : ((staying p t).findIdx? fun e => decide (e.place = p)) = some i) :
    setSeen p n v t = { t with past := ((staying p t).modify i fun e => { e with old := v }).reverse } := by
  unfold setSeen
  unfold staying at h ⊢
  dsimp only
  rw [h]

theorem setSeen_unnoted (h : ((staying p t).findIdx? fun e => decide (e.place = p)) = none) :
    setSeen p n v t = setTr n v { t with past := (staying p t).reverse } := by
  unfold setSeen
  unfold staying at h ⊢
  dsimp only
  rw [h]

theorem mem_staying {e : Past} (h : e ∈ staying p t) (hp : e.place = p) : e.age < e.need := by
  obtain ⟨-, he⟩ := List.mem_filter.1 (List.mem_reverse.1 h)
  simpa [hp] using he

theorem filter_staying (h : q ≠ p) : ((staying p t).reverse.filter fun e => decide (e.place = q)) = notesAt q t := by
  rw [staying, List.reverse_reverse, List.filter_filter, notesAt]
  refine List.filter_congr fun e _ => ?_
  by_cases he : e.place = q
  · simp [he, h]
  · simp [he]

theorem notesAt_setSeen (h : q ≠ p) : notesAt q (setSeen p n v t) = notesAt q t := by
  refine Eq.trans ?_ (filter_staying h)
  cases hi : (staying p t).findIdx? fun e => decide (e.place = p) with
  | none =>
    rw [setSeen_unnoted hi]
    rfl
  | some i =>
    rw [setSeen_noted hi, notesAt, List.filter_reverse, List.filter_reverse]
    refine congrArg List.reverse (filter_modify_of_unmatched fun e he => ?_)
    obtain ⟨hlt, hplace, -⟩ := List.findIdx?_eq_some_iff_getElem.1 hi
    obtain ⟨-, rfl⟩ := List.getElem?_eq_some_iff.1 he
    have : (staying p t)[i].place ≠ q := fun hq => h (hq ▸ (of_decide_eq_true hplace))
    exact ⟨decide_eq_false this, decide_eq_false this⟩

/-- The next consumer of the place sees the value set. -/
theorem seen_setSeen : seen p (tr n (setSeen p n v t)) (ageAll (setSeen p n v t)) = v := by
  cases hi : (staying p t).findIdx? fun e => decide (e.place = p) with
  | none =>
    have hno : ∀ e ∈ staying p t, e.place ≠ p := by simpa using List.findIdx?_eq_none_iff.1 hi
    have hnone : notesAt p (setSeen p n v t) = [] := by
      rw [setSeen_unnoted hi]
      exact List.filter_eq_nil_iff.2 fun e he => by simpa using hno e (List.mem_reverse.1 he)
    rw [seen_ageAll_of_hidden (by simp [hnone])]
    unfold notesAt at hnone
    rw [seen, hnone, setSeen_unnoted hi]
    simp
  | some i =>
    have hold : notesAt p (setSeen p n v t) =
        (((staying p t).modify i fun e => { e with old := v }).filter fun e => decide (e.place = p)).reverse := by
      rw [setSeen_noted hi, notesAt, List.filter_reverse]
    have hfind := find?_modify_findIdx? (g := fun e : Past => { e with old := v }) (fun _ => rfl) hi
    rw [seen_ageAll_of_hidden]
    · unfold notesAt at hold
      rw [seen, hold, List.getLast?_reverse, List.head?_filter, hfind]
      obtain ⟨hlt, hplace, -⟩ := List.findIdx?_eq_some_iff_getElem.1 hi
      have hsome : ((staying p t).find? fun e => decide (e.place = p)).isSome := List.find?_isSome.2 ⟨_, List.getElem_mem hlt, hplace⟩
      obtain ⟨e, he⟩ := Option.isSome_iff_exists.1 hsome
      rw [he]
      rfl
    · intro e he
      rw [hold, List.mem_reverse, List.mem_filter] at he
      obtain ⟨hmem, hplace⟩ := he
      obtain ⟨j, hj, rfl⟩ := List.getElem_of_mem hmem
      have hstay := mem_staying (List.getElem_mem (l := staying p t) (n := j) (by simpa using hj))
      rw [List.getElem_modify] at hplace ⊢
      by_cases hij : i = j
      · rw [if_pos hij] at hplace ⊢
        exact hstay (of_decide_eq_true hplace)
      · rw [if_neg hij] at hplace ⊢
        exact hstay (of_decide_eq_true hplace)


/-! ### What an operation writes -/

/-- From `x` to `y` only registers of `l` were written and only places of `ps` noted; the rest of the core stands. -/
structure Writes (l ps : List Nat) (x y : Tarn) : Prop where
  rest : { y with r := [], past := [] } = { x with r := [], past := [] }
  regs : ∀ n, n ∉ l → tr n y = tr n x
  notes : ∀ p, p ∉ ps → notesAt p y = notesAt p x

protected theorem Writes.refl : Writes [] [] x x := ⟨rfl, fun _ _ => rfl, fun _ _ => rfl⟩

protected theorem Writes.trans (w : Writes l ps x y) (v : Writes m qs y z) : Writes (m ++ l) (qs ++ ps) x z where
  rest := v.rest.trans w.rest
  regs n hn := by
    rw [List.mem_append, not_or] at hn
    exact (v.regs n hn.1).trans (w.regs n hn.2)
  notes p hp := by
    rw [List.mem_append, not_or] at hp
    exact (v.notes p hp.1).trans (w.notes p hp.2)

protected theorem Writes.mono (w : Writes l ps x y) (hl : l ⊆ m) (hp : ps ⊆ qs) : Writes m qs x y :=
  ⟨w.rest, fun n hn => w.regs n fun h => hn (hl h), fun p hn => w.notes p fun h => hn (hp h)⟩

protected theorem Writes.dm (w : Writes l ps x y) : y.dm = x.dm := congrArg (fun t => t.dm) w.rest
protected theorem Writes.cs (w : Writes l ps x y) : y.cs = x.cs := congrArg (fun t => t.cs) w.rest
protected theorem Writes.pm (w : Writes l ps x y) : y.pm = x.pm := congrArg (fun t => t.pm) w.rest
protected theorem Writes.sb (w : Writes l ps x y) : y.sb = x.sb := congrArg (fun t => t.sb) w.rest
protected theorem Writes.st (w : Writes l ps x y) : y.st = x.st := congrArg (fun t => t.st) w.rest
protected theorem Writes.slots (w : Writes l ps x y) : y.slots = x.slots := congrArg (fun t => t.slots) w.rest

/-- A consumer sees what it saw of a register that is not written, at a place that is not noted. -/
protected theorem Writes.seen (w : Writes l ps x y) (hn : n ∉ l) (hp : p ∉ ps) : seen p (tr n y) y = seen p (tr n x) x := by
  rw [w.regs n hn, seen_of_notesAt (w.notes p hp)]

protected theorem Writes.userMode (w : Writes l ps x y) (h : 0x30 ∉ l) : userMode y = userMode x := by
  unfold Machine.userMode stOf
  rw [w.regs _ h]

protected theorem Writes.agReg (w : Writes l ps x y) (hn : n ∉ l) (hp : 0x80 + n ∉ ps) : agReg n y = agReg n x := by
  unfold Machine.agReg
  rw [w.seen hn hp]

/-- A D register reads as before. -/
protected theorem Writes.readReg {c : Nat} (w : Writes l ps x y) (hd : n < 16) (hn : n ∉ l) (hp : n ∉ ps) : readReg c n y = readReg c n x := by
  unfold Machine.readReg
  have hid : n ≠ 0x35 := by omega
  rw [if_neg hid, if_neg hid, if_pos hd, if_pos hd, w.seen hn hp]

protected theorem Writes.dmAddr {a : BitVec 16} (w : Writes l ps x y) (hst : 0x30 ∉ l) (hlo : 0x3A ∉ l) (hhi : 0x3B ∉ l) : dmAddr a y = dmAddr a x := by
  unfold Machine.dmAddr
  rw [w.userMode hst, w.regs _ hlo, w.regs _ hhi]

protected theorem Writes.hide (w : Writes l ps x y) : Writes l (q :: ps) x (hide q v n y) where
  rest := w.rest
  regs := w.regs
  notes p hp := by
    rw [List.mem_cons, not_or] at hp
    rw [notesAt_hide, if_neg (Ne.symm hp.1), w.notes p hp.2]

protected theorem Writes.reveal (w : Writes l ps x y) : Writes l (q :: ps) x (reveal q y) where
  rest := w.rest
  regs := w.regs
  notes p hp := by
    rw [List.mem_cons, not_or] at hp
    rw [notesAt_reveal, if_neg (Ne.symm hp.1), w.notes p hp.2]

protected theorem Writes.setTr (w : Writes l ps x y) : Writes (n :: l) ps x (setTr n v y) where
  rest := w.rest
  regs k hk := by
    rw [List.mem_cons, not_or] at hk
    rw [tr_setTr, if_neg hk.1, w.regs k hk.2]
  notes := w.notes

theorem setSeen_frame : { setSeen p n v t with r := [], past := [] } = { t with r := [], past := [] } := by
  cases hi : (staying p t).findIdx? fun e => decide (e.place = p) with
  | none => rw [setSeen_unnoted hi]; rfl
  | some i => rw [setSeen_noted hi]

protected theorem Writes.setSeen (w : Writes l ps x y) : Writes (n :: l) (q :: ps) x (setSeen q n v y) where
  rest := setSeen_frame.trans w.rest
  regs k hk := by
    rw [List.mem_cons, not_or] at hk
    rw [tr_setSeen _ _ _ _ _ hk.1, w.regs k hk.2]
  notes p hp := by
    rw [List.mem_cons, not_or] at hp
    rw [notesAt_setSeen hp.1, w.notes p hp.2]

/-- The places at which a write of register `n` is noted (R229). -/
def placesOf (n : Nat) : List Nat := if n = 0x30 then [0x102, 0x101, 0x100] else if n < 0x10 then [n] else [0x80 + n]

protected theorem Writes.writeReg {v : Word} {b : Bool} (w : Writes l ps x y) : Writes (n :: l) (placesOf n ++ ps) x (writeReg n v b y) := by
  have set (v : W64) : Writes (n :: l) (placesOf n ++ ps) x (Machine.setTr n v y) := w.setTr.mono (fun _ h => h) (by simp)
  unfold Machine.writeReg placesOf at *
  by_cases hst : n = 0x30
  · subst hst
    exact w.setTr.hide.hide.hide
  · simp only [if_neg hst] at set ⊢
    by_cases hd : n < 0x10
    · simp only [if_pos hd] at set ⊢
      split
      · exact w.setTr.hide
      · exact w.setTr.reveal
    · simp only [if_neg hd] at set ⊢
      split
      · exact w.setTr.hide
      · split
        · exact w.setTr.hide
        · split
          · exact set _
          · exact set _

protected theorem Writes.setFlags {nz : Option Word} {cy : Option Bool} {ov dz : Bool} (w : Writes l ps x y) :
    Writes (0x30 :: l) (0x101 :: 0x100 :: ps) x (setFlags nz cy ov dz y) := w.setTr.hide.hide

protected theorem Writes.setAccV {b : Bool} (w : Writes l ps x y) : Writes (0x30 :: l) (0x101 :: ps) x (setAccV b y) := by
  unfold Machine.setAccV
  split
  · exact w.setTr.hide
  · exact w.mono (List.subset_cons_self _ _) (List.subset_cons_self _ _)

protected theorem Writes.setAcc1 (w : Writes l ps x y) : Writes ((0x40 + 2 * n + k) :: l) ((0x40 + 2 * n + k) :: ps) x (setAcc1 n k v y) := w.setTr.hide

protected theorem Writes.setAcc (w : Writes l ps x y) : Writes ((0x40 + 2 * n + 1) :: (0x40 + 2 * n + 0) :: l)
    ((0x40 + 2 * n + 1) :: (0x40 + 2 * n + 0) :: ps) x (setAcc n v u y) := w.setAcc1.setAcc1

protected theorem Writes.postMod {i : Nat} {δ : Int} (w : Writes l ps x y) : Writes ((0x10 + i) :: l) ((0x90 + i) :: ps) x (postMod i δ y) := w.setSeen

end

/-! ### Where execution goes on -/

section
variable {c p : Nat} {i : TI} {was t y : Tarn} {u : Use} {skip : Option Nat} {d : Dev}

theorem notesAt_loopEnd {pc next : Nat} (h : p ≠ 0xB1) : notesAt p (loopEnd pc next was t).2 = notesAt p t := by
  unfold loopEnd
  extract_lets lc lsa lea
  split
  · rfl
  · split
    · exact notesAt_setSeen h
    · exact notesAt_setSeen h

theorem notesAt_advance (h : p ≠ 0xB1) : notesAt p (advance i was t skip) = notesAt p t := by
  unfold advance
  extract_lets pc t1 next l at_ _ t2 dest
  have h1 : notesAt p t1 = notesAt p t := by
    unfold t1
    split <;> rfl
  have h2 : notesAt p t2 = notesAt p t := by
    refine Eq.trans ?_ ((notesAt_loopEnd (pc := pc) (next := next) (was := was) h).trans h1)
    unfold t2
    split <;> rfl
  split
  · rfl
  · exact h2

/-- With no repeat, no delay slot and no loop in progress only the program counter moves. -/
theorem advance_of_plain (hr : was.rpt = none) (hs : was.slots = none) (hl : loopReg 0x31 was = 0) :
    advance i was t skip = { t with pc := BitVec.ofNat 14 (skip.getD (was.pc.toNat + 1 + b2n i.ext)) } := by
  simp [advance, hr, hs, hl, loopEnd, slotEnd]

theorem notesAt_landed (h : p ≠ 0xB1) : notesAt p (landed c i t u skip d) = notesAt p t := by
  refine (notesAt_advance h).trans ?_
  split <;> rfl

theorem landed_of_no_loop (hs : (tarn c d).slots = none) (hr : (tarn c d).rpt = none) (hl : loopReg 0x31 (ageAll (tarn c d)) = 0) :
    (landed c i t u skip d).past = t.past ∧ (landed c i t u skip d).cache = t.cache ∧ tr 0x31 (landed c i t u skip d) = tr 0x31 t := by
  unfold landed
  extract_lets was k gone t1 t2 x
  have hx : x = { t2 with pc := BitVec.ofNat 14 (skip.getD (was.pc.toNat + 1 + b2n i.ext)) } := advance_of_plain hr hs hl
  have ht : t2.past = t.past ∧ t2.cache = t.cache ∧ tr 0x31 t2 = tr 0x31 t := by
    unfold t2
    split
    · exact ⟨rfl, rfl, tr_setTr _ _ _ _⟩
    · exact ⟨rfl, rfl, rfl⟩
  rw [hx]
  exact ht

/-- An instruction of core `c` that nothing ends early has run: its operation left `y` of the core and asked for `stores`. -/
structure Issued (c : Nat) (i : TI) (y : Tarn) (stores : List PendStore) (skip : Option Nat) (s t : State) : Prop where
  only : OnlyCore c s t
  regs : ∀ n, n ≠ 0x31 → n ≠ 0x34 → n ≠ 0x3F → tr n (tarn c t.dev) = tr n y
  loads : loadsSee (tarn c t.dev) = drained ((tarn c s.dev).sb ++ stores) y.dm
  cs : (tarn c t.dev).cs = y.cs
  pm : (tarn c t.dev).pm = y.pm
  slots : (tarn c t.dev).slots = y.slots
  rpt : (tarn c t.dev).rpt = y.rpt
  notes : ∀ p, p ≠ 0xB1 → notesAt p (tarn c t.dev) = notesAt p y
  noLoop : loopReg 0x31 (issuing c s) = 0 → (tarn c t.dev).pc = BitVec.ofNat 14 (skip.getD ((issuing c s).pc.toNat + 1 + b2n i.ext)) ∧
    (tarn c t.dev).past = y.past ∧ (tarn c t.dev).cache = y.cache ∧ tr 0x31 (tarn c t.dev) = tr 0x31 y

/-- Of the core that has landed only WDOG counts on (R251). -/
theorem completeInstr_ticks (h : Steady c d) (hw : tr 0x34 y = tr 0x34 (tarn c d)) (hst : y.st = (tarn c d).st) :
    ∃ v, tarn c (completeInstr c i (.go y u skip) d) = landed c i y u skip d ∨
      tarn c (completeInstr c i (.go y u skip) d) = setTr 0x34 v (landed c i y u skip d) := by
  obtain ⟨hs, hr, hc⟩ := h
  obtain ⟨hregs, -, -, -, -, hland, -⟩ := landed_plain c i y u skip d hs hr
  have hle := costOf_le i (threeBus c d) (cacheError c (ageAll (tarn c d))) u (ageAll (tarn c d))
  rw [completeInstr_lands c i y u skip d hs (fun hu => by rw [if_pos hu] at hc; omega)]
  split
  · exact ⟨0, .inl (by simp)⟩
  · next hu =>
    rw [if_neg hu] at hc
    have hwdog : tr 0x34 (landed c i y u skip d) = tr 0x34 (tarn c d) := (hregs 0x34 (by decide) (by decide)).trans hw
    obtain ⟨v, hv⟩ := chargeWdog_rest c (costOf i (threeBus c d) (cacheError c (ageAll (tarn c d))) u (ageAll (tarn c d))).all
      (modTarn c (fun _ => landed c i y u skip d) d) (by
        rw [headJob_modTarn c _ d (hland.trans hst), tarn_modTarn, if_pos rfl, hwdog]
        exact hc.imp_right (Or.imp_right fun h => by omega))
    refine ⟨v, hv.imp (fun hv => ?_) (fun hv => ?_)⟩
    · rw [hv]
      simp
    · rw [hv]
      simp

/-- What `completeInstr_steady` says, with the notes and the loop. -/
theorem completeInstr_issued {s : State} (h : Steady c s.dev) (hw : tr 0x34 y = tr 0x34 (tarn c s.dev)) (hst : y.st = (tarn c s.dev).st) :
    Issued c i y u.stores skip s { s with dev := completeInstr c i (.go y u skip) s.dev } := by
  obtain ⟨hsame, hother, x, rfl, hregs, hloads, hcs, hpm, hslots, -, hrpt, -, hpc⟩ := completeInstr_steady c i y u skip s.dev h hw hst
  obtain ⟨v, hticks⟩ := completeInstr_ticks (i := i) (u := u) (skip := skip) h hw hst
  refine ⟨⟨rfl, hsame, hother⟩, hregs, hloads, hcs, hpm, hslots, hrpt, fun p hp => ?_, fun hloop => ⟨hpc hloop, ?_⟩⟩
  · rcases hticks with hx | hx
    · exact (congrArg (notesAt p) hx).trans (notesAt_landed hp)
    · exact (congrArg (notesAt p) hx).trans (notesAt_landed hp)
  · obtain ⟨hpast, hcache, hlc⟩ := landed_of_no_loop (i := i) (t := y) (u := u) (skip := skip) h.1 h.2.1 hloop
    dsimp only
    rcases hticks with hx | hx
    · rw [hx]
      exact ⟨hpast, hcache, hlc⟩
    · rw [hx, setTr_past, setTr_cache, tr_setTr]
      exact ⟨hpast, hcache, hlc⟩

/-- The instruction of a core that fetches it runs. -/
theorem exec_issued {op : TOp} {sem : TI → Tarn → Eff} {s : State} (h : Next c op i s) (hsem : sem i (issuing c s) = .go y u skip)
    (hw : tr 0x34 y = tr 0x34 (tarn c s.dev)) (hst : y.st = (tarn c s.dev).st) :
    ∃ t, onDev (runTarn c op sem) s = .next t ∧ Issued c i y u.stores skip s t :=
  ⟨_, onDev_eq (runTarn_go c op sem i y u skip s.dev h.1 hsem), completeInstr_issued h.2 hw hst⟩

/-- An instruction whose operation writes registers only. -/
theorem Issued.computes {l ps regs : List Nat} {s t : State} (h : Issued c i y [] skip s t) (w : Writes l ps (issuing c s) y)
    (hl : ∀ n ∈ l, n ∈ regs ∨ n = 0x31) : Computes c regs s t := by
  refine ⟨h.only, fun n hn h1 h2 h3 => ?_, fun a => ?_, h.cs.trans w.cs, h.pm.trans w.pm⟩
  · exact (h.regs n h1 h2 h3).trans (w.regs n fun hm => (hl n hm).elim hn h1)
  · rw [loadWord, h.loads, List.append_nil, w.dm]
    rfl

end

end Sys2Proof.Machine
end

section
/-! PROOF. What an instruction that a core fetches is known to be (R263 to R271), for O24 to O33 and O39. -/
namespace Sys2Proof.Machine

/-- The format of an operation's instructions (R266): 0 A, 1 I, 2 L, 3 M, 4 B. -/
def formatOf (op : TOp) : Nat :=
  match op with
  | .ldi | .ldih | .addi | .subi | .cmpi | .andi | .ori | .xori | .ashi | .lshi => 1
  | .ld | .st | .ldh | .sth | .ldd | .std | .sta => 2
  | .cmac | .cmacj | .dmac | .pmov => 3
  | .br | .bri | .call | .calli | .reti | .callu | .retu | .loop | .loopr | .rpt | .rptr | .done | .wait | .mbox | .strm | .dma => 4
  | _ => 0

/-- What decoding assures of an instruction, by its format. -/
structure Decoded (i : TI) : Prop where
  formatA : formatOf i.op = 0 → okA i.op i.rd i.rs i.rt i.acn i.p = true ∧ i.ext = false
  formatI : formatOf i.op = 1 → ∃ imm, okI i.op i.rd i.ext imm = true
  formatL : formatOf i.op = 2 → okL i.op i.sp i.rd = true ∧ i.mode ≤ 6 ∧ i.an < 8
  formatM : formatOf i.op = 3 → (i.mv1 < 128 ∧ i.mv2 < 128 ∧ (mvKind i.mv1 = 1 → mvKind i.mv2 = 1 → mvReg i.mv1 ≠ mvReg i.mv2)) ∧ i.acn < 4
  formatB : formatOf i.op = 4 → i.ext = false ∧ i.tgt < 16384 ∧ i.cnt ≤ 16384

theorem fld_lt {w : Nat} (v : BitVec w) (hi lo : Nat) : fld v hi lo < 2 ^ (hi + 1 - lo) := Nat.mod_lt _ (Nat.two_pow_pos _)

section
variable {n : Nat} {op : TOp}

theorem formatOf_fnA (h : fnA n = some op) : formatOf op = 0 := by
  unfold fnA at h
  split at h <;> cases h <;> rfl

theorem formatOf_fnI (h : fnI n = some op) : formatOf op = 1 := by
  unfold fnI at h
  split at h <;> cases h <;> rfl

theorem formatOf_fnL (h : fnL n = some op) : formatOf op = 2 := by
  unfold fnL at h
  split at h <;> cases h <;> rfl

theorem formatOf_fnB (h : fnB n = some op) : formatOf op = 4 := by
  unfold fnB at h
  split at h <;> cases h <;> rfl

end

section
variable {w e : Word} {i : TI}

/-- An operation has one format. -/
theorem other_format {op : TOp} {m n : Nat} {P : Prop} (h : formatOf op = m) (hn : m ≠ n) : formatOf op = n → P :=
  fun h' => absurd (h.symm.trans h') hn

theorem decoded_of_decodeA (h : decodeA w = some i) : Decoded i := by
  unfold decodeA at h
  split at h
  · cases h
  · next op hop =>
    have hf := formatOf_fnA hop
    extract_lets rd rs rt acn p at h
    obtain ⟨hok, h⟩ := Option.ite_none_right_eq_some.1 h
    cases h
    exact ⟨fun _ => ⟨hok.2, rfl⟩, other_format hf (by decide), other_format hf (by decide), other_format hf (by decide),
      other_format hf (by decide)⟩

theorem decoded_of_decodeI (h : decodeI w e = some i) : Decoded i := by
  unfold decodeI at h
  split at h
  · cases h
  · next op hop =>
    have hf := formatOf_fnI hop
    extract_lets x rd imm at h
    obtain ⟨hok, h⟩ := Option.ite_none_right_eq_some.1 h
    cases h
    exact ⟨other_format hf (by decide), fun _ => ⟨_, (Bool.and_eq_true_iff.1 hok).1⟩, other_format hf (by decide),
      other_format hf (by decide), other_format hf (by decide)⟩

theorem decoded_of_decodeL (h : decodeL w e = some i) : Decoded i := by
  unfold decodeL at h
  split at h
  · cases h
  · next op hop =>
    have hf := formatOf_fnL hop
    extract_lets sp mode an rd hh sz acn d8 x sta d at h
    obtain ⟨hok, h⟩ := Option.ite_none_right_eq_some.1 h
    cases h
    simp only [Bool.and_eq_true, decide_eq_true_eq] at hok
    obtain ⟨⟨⟨⟨⟨⟨hl, hmode⟩, -⟩, -⟩, -⟩, -⟩, -⟩ := hok
    exact ⟨other_format hf (by decide), other_format hf (by decide), fun _ => ⟨hl, hmode, fld_lt w 21 19⟩, other_format hf (by decide),
      other_format hf (by decide)⟩

theorem decoded_of_decodeM (h : decodeM w = some i) : Decoded i := by
  unfold decodeM at h
  extract_lets op sub f clr acn xs ys mv1 mv2 bare same at h
  obtain ⟨hok, h⟩ := Option.ite_none_right_eq_some.1 h
  cases h
  have hf : formatOf op = 3 := by
    unfold op
    split <;> rfl
  simp only [Bool.and_eq_true, Bool.not_eq_true'] at hok
  obtain ⟨⟨⟨-, hsame⟩, -⟩, -⟩ := hok
  exact ⟨other_format hf (by decide), other_format hf (by decide), other_format hf (by decide),
    fun _ => ⟨⟨fld_lt w 13 7, fld_lt w 6 0, fun h1 h2 h3 => by simp [same, h1, h2, h3] at hsame⟩, fld_lt w 26 25⟩, other_format hf (by decide)⟩

theorem decoded_of_decodeB (h : decodeB w = some i) : Decoded i := by
  unfold decodeB at h
  split at h
  · cases h
  · next op hop =>
    have hf := formatOf_fnB hop
    have htgt : fld w 13 0 < 16384 := fld_lt w 13 0
    have hcnt : fld w 24 14 ≤ 16384 := (fld_lt w 24 14).le.trans (by decide)
    have decoded {j : TI} (hj : j.op = op) (he : j.ext = false) (ht : j.tgt < 16384) (hc : j.cnt ≤ 16384) : Decoded j :=
      have hf := hj ▸ hf
      ⟨other_format hf (by decide), other_format hf (by decide), other_format hf (by decide), other_format hf (by decide),
        fun _ => ⟨he, ht, hc⟩⟩
    extract_lets cond an dn tgt at h
    split at h
    · split at h
      · cases h
        exact decoded rfl rfl htgt hcnt
      · split at h
        · cases h
          exact decoded rfl rfl (Nat.succ_pos _) htgt
        · cases h
          exact decoded rfl rfl htgt (Nat.zero_le _)
    · cases h

theorem decoded_of_decodeTarn (h : decodeTarn w e = some i) : Decoded i := by
  unfold decodeTarn at h
  split at h
  · exact decoded_of_decodeA h
  · exact decoded_of_decodeI h
  · exact decoded_of_decodeL h
  · exact decoded_of_decodeM h
  · exact decoded_of_decodeM h
  · exact decoded_of_decodeM h
  · exact decoded_of_decodeM h
  · exact decoded_of_decodeB h
  · cases h

end

section
variable {c : Nat} {op : TOp} {i : TI} {d : Dev}

/-- What a core is about to execute is an instruction of the operation named, decoded, and legal where it stands (R263, R264). -/
theorem fetchTarn_ok (h : fetchTarn c op d = .ok i) : i.op = op ∧ Decoded i ∧ badHere c i (ageAll (tarn c d)) = false := by
  unfold fetchTarn at h
  extract_lets t pc at h
  split at h
  · cases h
  · split at h
    · cases h
    · next j hj =>
      split at h
      · cases h
      · next hbad =>
        split at h
        · next hop =>
          cases h
          exact ⟨hop, decoded_of_decodeTarn hj, Bool.eq_false_iff.2 hbad⟩
        · cases h

/-- The accepted fields of a fetched instruction of format A; it has no extension word. -/
theorem okA_of_fetch (h : fetchTarn c op d = .ok i) (hf : formatOf op = 0) : okA op i.rd i.rs i.rt i.acn i.p = true ∧ i.ext = false := by
  obtain ⟨rfl, hd, -⟩ := fetchTarn_ok h
  exact hd.formatA hf

theorem okI_of_fetch (h : fetchTarn c op d = .ok i) (hf : formatOf op = 1) : ∃ imm, okI op i.rd i.ext imm = true := by
  obtain ⟨rfl, hd, -⟩ := fetchTarn_ok h
  exact hd.formatI hf

theorem okL_of_fetch (h : fetchTarn c op d = .ok i) (hf : formatOf op = 2) : okL op i.sp i.rd = true ∧ i.mode ≤ 6 ∧ i.an < 8 := by
  obtain ⟨rfl, hd, -⟩ := fetchTarn_ok h
  exact hd.formatL hf

theorem moves_of_fetch (h : fetchTarn c op d = .ok i) (hf : formatOf op = 3) :
    i.mv1 < 128 ∧ i.mv2 < 128 ∧ (mvKind i.mv1 = 1 → mvKind i.mv2 = 1 → mvReg i.mv1 ≠ mvReg i.mv2) := by
  obtain ⟨rfl, hd, -⟩ := fetchTarn_ok h
  exact (hd.formatM hf).1

theorem acn_of_fetch (h : fetchTarn c op d = .ok i) (hf : formatOf op = 3) : i.acn < 4 := by
  obtain ⟨rfl, hd, -⟩ := fetchTarn_ok h
  exact (hd.formatM hf).2

theorem formatB_of_fetch (h : fetchTarn c op d = .ok i) (hf : formatOf op = 4) : i.ext = false ∧ i.tgt < 16384 ∧ i.cnt ≤ 16384 := by
  obtain ⟨rfl, hd, -⟩ := fetchTarn_ok h
  exact hd.formatB hf

end

end Sys2Proof.Machine
end

section
/-! PROOF. The values of the Tarn's arithmetic (R236 to R239, R273), as the statements of O24 to O28 and O30 write them. -/
namespace Sys2Proof.Machine

/-! ### Results that fit a width (R237, R238) -/

section
variable {w : Nat} {sat : Bool}

theorem ofInt_bmod (x : Int) : BitVec.ofInt w (x.bmod (2 ^ w)) = BitVec.ofInt w x :=
  BitVec.eq_of_toInt_eq (by simp only [BitVec.toInt_ofInt, Int.bmod_bmod])

theorem fits_iff (x : Int) : (minOf w ≤ x ∧ x ≤ maxOf w) ↔ (-(2 ^ (w - 1)) ≤ x ∧ x < 2 ^ (w - 1)) := by
  unfold minOf maxOf
  omega

theorem ofInt_fitTo (x : Int) : BitVec.ofInt w (fitTo w sat x).1 = clipped w sat x := by
  unfold fitTo clipped
  rw [if_congr (fits_iff x) rfl rfl]
  split
  · rfl
  · next hx =>
    have hpos : (0 : Int) < 2 ^ (w - 1) := by positivity
    split
    · unfold clampInt minOf maxOf
      split
      · rw [if_pos (by omega)]
      · rw [if_pos (by omega), if_neg (by omega)]
    · exact ofInt_bmod x

theorem fitTo_leaves (x : Int) : (fitTo w sat x).2 = leaves w x := by
  unfold fitTo leaves
  rw [if_congr (fits_iff x) rfl rfl]
  split
  · next hx => simp [hx]
  · next hx =>
    rw [decide_eq_false hx]
    split <;> rfl

theorem toInt_fits (a : BitVec w) : -(2 ^ (w - 1)) ≤ a.toInt ∧ a.toInt < 2 ^ (w - 1) := ⟨BitVec.le_toInt a, BitVec.toInt_lt⟩

theorem clipped_of_fits {x : Int} (h : -(2 ^ (w - 1)) ≤ x ∧ x < 2 ^ (w - 1)) : clipped w sat x = BitVec.ofInt w x := if_pos h

theorem leaves_of_fits {x : Int} (h : -(2 ^ (w - 1)) ≤ x ∧ x < 2 ^ (w - 1)) : leaves w x = false := by
  unfold leaves
  rw [decide_eq_true h]
  rfl

theorem unsignedOf_toInt (a : BitVec w) : unsignedOf w a.toInt = a.toNat := by
  have hlt : (a.toNat : Int) < 2 ^ w := by exact_mod_cast a.isLt
  unfold unsignedOf
  rw [BitVec.toInt_eq_toNat_bmod]
  have := Int.bmod_emod (x := (a.toNat : Int)) (m := 2 ^ w)
  push_cast at this
  rw [this, Int.emod_eq_of_lt (by omega) hlt]

end

/-! ### Arithmetic (R238, R273) -/

section
variable {w : Nat} {sat : Bool}

/-- What an operation makes of values of a width is its exact result, fitted. -/
def IsExact (op : TOp) (sat : Bool) : Prop := ∀ {w : Nat} (a b : BitVec w),
  BitVec.ofInt w (partOp op w sat a.toInt b.toInt).val = clipped w sat (exactOf op a.toInt b.toInt) ∧
    (partOp op w sat a.toInt b.toInt).v = leaves w (exactOf op a.toInt b.toInt)

theorem isExact_of_fitted {op : TOp} (hval : ∀ w a b, (partOp op w sat a b).val = (fitTo w sat (exactOf op a b)).1)
    (hv : ∀ w a b, (partOp op w sat a b).v = (fitTo w sat (exactOf op a b)).2) : IsExact op sat :=
  fun a b => ⟨by rw [hval, ofInt_fitTo], by rw [hv, fitTo_leaves]⟩

theorem isExact_of_chosen {op : TOp} (hval : ∀ w a b, (partOp op w sat a b).val = exactOf op a b)
    (hv : ∀ w a b, (partOp op w sat a b).v = false) (hchosen : ∀ a b, exactOf op a b = a ∨ exactOf op a b = b) : IsExact op sat := by
  intro w a b
  have hfits : -(2 ^ (w - 1)) ≤ exactOf op a.toInt b.toInt ∧ exactOf op a.toInt b.toInt < 2 ^ (w - 1) := by
    rcases hchosen a.toInt b.toInt with h | h
    · rw [h]
      exact toInt_fits a
    · rw [h]
      exact toInt_fits b
  exact ⟨by rw [hval, clipped_of_fits hfits], by rw [hv, leaves_of_fits hfits]⟩

theorem isExact_add : IsExact .add sat := isExact_of_fitted (fun _ _ _ => rfl) fun _ _ _ => rfl
theorem isExact_sub : IsExact .sub sat := isExact_of_fitted (fun _ _ _ => rfl) fun _ _ _ => rfl
theorem isExact_neg : IsExact .neg sat := isExact_of_fitted (fun _ _ _ => rfl) fun _ _ _ => rfl
theorem isExact_abs : IsExact .abs sat := isExact_of_fitted (fun _ _ _ => rfl) fun _ _ _ => rfl
theorem isExact_min : IsExact .min sat := isExact_of_chosen (op := .min) (fun _ _ _ => rfl) (fun _ _ _ => rfl) fun a b => min_choice a b
theorem isExact_max : IsExact .max sat := isExact_of_chosen (op := .max) (fun _ _ _ => rfl) (fun _ _ _ => rfl) fun a b => max_choice a b

theorem partOp_add_c (a b : BitVec w) : some (partOp .add w sat a.toInt b.toInt).c = carryOf .add w a.toNat b.toNat := by
  show some (decide (2 ^ w ≤ unsignedOf w a.toInt + unsignedOf w b.toInt)) = some _
  rw [unsignedOf_toInt, unsignedOf_toInt]
  refine congrArg some (decide_eq_decide.2 ?_)
  exact_mod_cast Iff.rfl

theorem partOp_sub_c (a b : BitVec w) : some (partOp .sub w sat a.toInt b.toInt).c = carryOf .sub w a.toNat b.toNat := by
  show some (decide (unsignedOf w a.toInt < unsignedOf w b.toInt)) = some _
  rw [unsignedOf_toInt, unsignedOf_toInt]
  refine congrArg some (decide_eq_decide.2 ?_)
  exact_mod_cast Iff.rfl

variable {op : TOp} {p : Bool} {a b : Word}

theorem bothHalves_exact (h : IsExact op sat) : (bothHalves p (fun w x y => partOp op w sat x y) a b).1 = arithmetic op p sat a b ∧
    (bothHalves p (fun w x y => partOp op w sat x y) a b).2.2 = arithmeticV op p a b := by
  cases p with
  | false => exact h a b
  | true =>
    obtain ⟨hu, hvu⟩ := h (upper a) (upper b)
    obtain ⟨hl, hvl⟩ := h (lower a) (lower b)
    exact ⟨congrArg₂ (· ++ ·) hu hl, congrArg₂ (· || ·) hvu hvl⟩

theorem bothHalves_c (h : ∀ {w : Nat} (a b : BitVec w), some (partOp op w sat a.toInt b.toInt).c = carryOf op w a.toNat b.toNat) :
    some (bothHalves p (fun w x y => partOp op w sat x y) a b).2.1 = arithmeticC op p a b := by
  cases p with
  | false => exact h a b
  | true => exact h (upper a) (upper b)

/-- An ALU result from its halves: the value, the carry and the overflow of the exact result. -/
theorem aluOut_eq {r : Word × Bool × Bool} {v : Word} {c : Option Bool} {ov carry : Bool} (h : r.1 = v ∧ r.2.2 = ov)
    (hc : (if carry then some r.2.1 else none) = c) : (⟨r.1, if carry then some r.2.1 else none, r.2.2, false⟩ : AluOut) = ⟨v, c, ov, false⟩ := by
  rw [h.1, h.2, hc]

/-- The arithmetic operations (R273, R274). -/
theorem alu_arithmetic (h : op ∈ [TOp.add, .sub, .neg, .abs, .min, .max, .cmp, .addi, .subi, .cmpi]) :
    alu op p sat a b = ⟨arithmetic op p sat a b, arithmeticC op p a b, arithmeticV op p a b, false⟩ := by
  have add := aluOut_eq (carry := true) (bothHalves_exact (p := p) (a := a) (b := b) isExact_add) (bothHalves_c (sat := sat) partOp_add_c)
  have sub := aluOut_eq (carry := true) (bothHalves_exact (p := p) (a := a) (b := b) isExact_sub) (bothHalves_c (sat := sat) partOp_sub_c)
  have plain {o : TOp} (ho : IsExact o sat) (hc : ∀ w x y, carryOf o w x y = none) :=
    aluOut_eq (carry := false) (bothHalves_exact (p := p) (a := a) (b := b) ho) (c := arithmeticC o p a b) (by simp [arithmeticC, hc])
  simp only [List.mem_cons, List.not_mem_nil, or_false] at h
  rcases h with rfl | rfl | rfl | rfl | rfl | rfl | rfl | rfl | rfl | rfl
  · exact add
  · exact sub
  · exact plain isExact_neg fun _ _ _ => rfl
  · exact plain isExact_abs fun _ _ _ => rfl
  · exact plain isExact_min fun _ _ _ => rfl
  · exact plain isExact_max fun _ _ _ => rfl
  · exact sub
  · exact add
  · exact sub
  · exact sub

end

/-! ### Shifts (R239) -/

section
variable {w : Nat} {sat logical : Bool}

theorem testBit_unsignedOf (a : BitVec w) (k : Nat) : Nat.testBit (unsignedOf w a.toInt).toNat k = bit a k := by
  rw [unsignedOf_toInt, Int.toNat_natCast, BitVec.testBit_toNat]

theorem shiftPart_eq (a : BitVec w) (n : Int) : BitVec.ofInt w (shiftPart w logical sat a.toInt n).val = shiftResult logical sat a n ∧
    (shiftPart w logical sat a.toInt n).c = shiftC a n ∧ (shiftPart w logical sat a.toInt n).v = shiftV a n := by
  unfold shiftPart shiftResult shiftC shiftV shifted
  extract_lets u
  rcases lt_trichotomy 0 n with h | rfl | h
  · have hle : 0 ≤ n := by omega
    simp only [if_pos h, if_pos hle, decide_eq_true h, Bool.true_and]
    refine ⟨ofInt_fitTo _, ?_, fitTo_leaves _⟩
    rw [testBit_unsignedOf]
    by_cases hw : n.toNat ≤ w
    · rw [if_pos ⟨h, by omega⟩, decide_eq_true hw, Bool.true_and]
    · rw [if_neg (by omega), if_neg (by omega), decide_eq_false hw, Bool.false_and]
  · simp
  · have hle : ¬ 0 ≤ n := by omega
    have hlt : ¬ 0 < n := by omega
    simp only [if_neg hlt, if_pos h, if_neg hle, decide_eq_false hlt, Bool.false_and, and_true]
    refine ⟨?_, ?_⟩
    · cases logical with
      | false => exact congrArg (BitVec.ofInt w) (Int.shiftRight_eq_div_pow _ _)
      | true =>
        have hu : u = a.toNat := by rw [← Int.toNat_natCast a.toNat, ← unsignedOf_toInt]
        rw [← hu, ← Nat.shiftRight_eq_div_pow]
        exact ofInt_bmod _
    · rw [if_neg (by omega), testBit_unsignedOf]
      by_cases hw : (-n).toNat ≤ w
      · rw [if_pos ⟨h, by omega⟩, decide_eq_true hw, Bool.true_and]
      · rw [if_neg (by omega), decide_eq_false hw, Bool.false_and]

/-- A shift of the word, or of both halves by one amount. -/
theorem bothHalves_shift {p : Bool} {a b : Word} {n : Int} : bothHalves p (fun w x _ => shiftPart w logical sat x n) a b =
    (if p then shiftResult logical sat (upper a) n ++ shiftResult logical sat (lower a) n else shiftResult logical sat a n,
      if p then shiftC (upper a) n else shiftC a n, if p then shiftV (upper a) n || shiftV (lower a) n else shiftV a n) := by
  cases p with
  | false =>
    obtain ⟨hval, hc, hv⟩ := shiftPart_eq (sat := sat) (logical := logical) a n
    exact Prod.ext hval (Prod.ext hc hv)
  | true =>
    obtain ⟨hu, hcu, hvu⟩ := shiftPart_eq (sat := sat) (logical := logical) (upper a) n
    obtain ⟨hl, -, hvl⟩ := shiftPart_eq (sat := sat) (logical := logical) (lower a) n
    exact Prod.ext (congrArg₂ (· ++ ·) hu hl) (Prod.ext hcu (congrArg₂ (· || ·) hvu hvl))

end

/-! ### Accumulators (R236, R237) -/

section
variable {rnd sat : Bool}

theorem accWraps_eq (x : Int) : accWraps x = leaves 48 x := by
  unfold accWraps leaves minOf maxOf
  rw [← decide_not]
  refine decide_eq_decide.2 ?_
  omega

theorem roundAt18_eq (v : Int) : roundAt18 rnd v = kept18 rnd v := by
  unfold roundAt18 kept18
  extract_lets q r
  cases rnd with
  | false => simp
  | true =>
    simp only [true_and, Bool.true_eq_false, if_false]
    split_ifs <;> omega

theorem narrowWord_eq (v : Int) : narrowWord sat v = (clipped 36 sat v, leaves 36 v) := Prod.ext (ofInt_fitTo v) (fitTo_leaves v)

theorem ofInt_narrowHalf (v : Int) : BitVec.ofInt 18 (narrowHalf rnd sat v).1 = clipped 18 sat (kept18 rnd v) := by
  rw [narrowHalf, ofInt_fitTo, roundAt18_eq]

theorem narrowHalf_v (v : Int) : (narrowHalf rnd sat v).2 = leaves 18 (kept18 rnd v) := by rw [narrowHalf, fitTo_leaves, roundAt18_eq]

theorem narrowPair_eq (re im : Int) :
    narrowPair rnd sat re im = (pairKept rnd sat re im, leaves 18 (kept18 rnd re) || leaves 18 (kept18 rnd im)) :=
  Prod.ext (congrArg₂ (· ++ ·) (ofInt_narrowHalf re) (ofInt_narrowHalf im)) (congrArg₂ (· || ·) (narrowHalf_v re) (narrowHalf_v im))


end

/-! ### Halves of a word (R10) -/

section
variable {v : Word} {n : Nat}

theorem setFld_upper : setFld v 35 18 n = BitVec.ofNat 18 n ++ lower v := by
  refine BitVec.eq_of_getLsbD_eq fun k hk => (bit_setFld v 35 18 n k hk).trans ?_
  rw [BitVec.getLsbD_append, BitVec.getLsbD_ofNat, lower, BitVec.getLsbD_extractLsb']
  by_cases h : k < 18
  · have hlo : ¬ 18 ≤ k := by omega
    simp [h, hlo]
  · have hhi : 18 ≤ k := by omega
    have hlt : k - 18 < 18 := by omega
    simp [h, hhi, hlt, hk]

theorem setFld_lower : setFld v 17 0 n = upper v ++ BitVec.ofNat 18 n := by
  refine BitVec.eq_of_getLsbD_eq fun k hk => (bit_setFld v 17 0 n k hk).trans ?_
  rw [BitVec.getLsbD_append, BitVec.getLsbD_ofNat, upper, BitVec.getLsbD_extractLsb']
  by_cases h : k < 18
  · simp [h]
  · have hhi : 18 + (k - 18) = k := by omega
    have hlt : k - 18 < 18 := by omega
    simp [h, hhi, hlt]

theorem ofNat_fld_upper : BitVec.ofNat 18 (fld v 35 18) = upper v := by
  apply BitVec.eq_of_toNat_eq
  simp [fld, upper, BitVec.extractLsb'_toNat]

theorem ofNat_fld_lower : BitVec.ofNat 18 (fld v 17 0) = lower v := by
  apply BitVec.eq_of_toNat_eq
  simp [fld, lower, BitVec.extractLsb'_toNat]

theorem withHalf_upper (x : Int) : withHalf 0 x v = BitVec.ofInt 18 x ++ lower v := by
  rw [withHalf, if_pos rfl, setFld_upper, BitVec.ofNat_toNat, BitVec.setWidth_eq]

theorem withHalf_lower {h : Nat} (hh : h ≠ 0) (x : Int) : withHalf h x v = upper v ++ BitVec.ofInt 18 x := by
  rw [withHalf, if_neg hh, setFld_lower, BitVec.ofNat_toNat, BitVec.setWidth_eq]

end

end Sys2Proof.Machine
end

section
/-! PROOF. O24 and O25: what the ALU, move and immediate instructions leave of their core. -/
namespace Sys2Proof.Machine

/-! ### What a written register holds (R227, R265) -/

section
variable {n k : Nat} {v : Word} {load : Bool} {t x y : Tarn}

theorem zeroExtend_low (w : Nat) : BitVec.ofNat 64 (v.toNat % 2 ^ w) = (v.extractLsb' 0 w).zeroExtend 64 := by
  apply BitVec.eq_of_toNat_eq
  simp [BitVec.extractLsb'_toNat]

theorem tr_writeReg_d (h : n < 16) : tr n (writeReg n v load t) = v.zeroExtend 64 := by
  have hst : n ≠ 0x30 := by omega
  have hw : BitVec.ofNat 64 (v.toNat % 2 ^ regWidth n) = v.zeroExtend 64 := by
    rw [show regWidth n = 36 by simp [regWidth, h], zeroExtend_low 36, BitVec.extractLsb'_eq_self]
  unfold writeReg
  simp only [if_neg hst, if_pos h, hw]
  split
  · simp
  · simp

/-- A register written by number holds the low bits of its width, and WLO and WHI their bits [15:14]. -/
theorem tr_writeReg (hw : isWritable n = true) (hst : n ≠ 0x30) : tr n (writeReg n v load t) = heldAfter n v := by
  simp only [isWritable, isReg, Bool.and_eq_true, decide_eq_true_eq] at hw
  by_cases hd : n < 16
  · rw [tr_writeReg_d hd, heldAfter, if_pos hd]
  · by_cases ha : n < 0x30
    · have h14 : ¬ (n = 0x32 ∨ n = 0x33 ∨ n = 0x38 ∨ n = 0x3C) := by omega
      have hwin : ¬ (n = 0x3A ∨ n = 0x3B) := by omega
      simp only [writeReg, heldAfter, regWidth, hst, hd, ha, h14, hwin, if_true, if_false, tr_hide, tr_setTr]
      exact zeroExtend_low 16
    · have hn : n = 0x31 ∨ n = 0x32 ∨ n = 0x33 ∨ n = 0x38 ∨ n = 0x39 ∨ n = 0x3A ∨ n = 0x3B ∨ n = 0x3C ∨ n = 0x3E := by omega
      have low14 := zeroExtend_low (v := v) 14
      have low16 := zeroExtend_low (v := v) 16
      have window : BitVec.ofNat 64 (v.toNat % 2 ^ 16) ||| 0xC000 = ((v.extractLsb' 0 16) ||| 0xC000).zeroExtend 64 := by
        rw [low16]
        ext i hi
        simp
      rcases hn with rfl | rfl | rfl | rfl | rfl | rfl | rfl | rfl | rfl
      · exact (tr_setTr ..).trans low16
      · exact (tr_setTr ..).trans low14
      · exact (tr_setTr ..).trans low14
      · exact (tr_setTr ..).trans low14
      · exact (tr_setTr ..).trans low16
      · exact (tr_setTr ..).trans window
      · exact (tr_setTr ..).trans window
      · exact (tr_setTr ..).trans low14
      · exact (tr_setTr ..).trans low16

theorem bit_stMask (h : k < 64) : bit (stMask t) k = decide (k ∈ [0, 1, 2, 3, 4, 7, 8] ∨ (k = 14 ∧ userMode t = false)) := by
  have user : ∀ k < 64, bit (0x19F : W64) k = decide (k ∈ [0, 1, 2, 3, 4, 7, 8] ∨ (k = 14 ∧ true = false)) := by decide
  have supervisor : ∀ k < 64, bit (0x419F : W64) k = decide (k ∈ [0, 1, 2, 3, 4, 7, 8] ∨ (k = 14 ∧ false = false)) := by decide
  unfold stMask
  cases hu : userMode t with
  | false => exact supervisor k h
  | true => exact user k h

/-- ST written by number takes its writable bits (R227, R253). -/
theorem stWritten_of_writeReg (hx : tr 0x30 t = tr 0x30 x) (hy : tr 0x30 y = tr 0x30 (writeReg 0x30 v load t)) : StWritten v x y := by
  intro k
  have huser : userMode t = userMode x := by rw [userMode, stOf, hx, userMode, stOf]
  have hval : tr 0x30 y = (tr 0x30 x &&& ~~~stMask t) ||| (v.zeroExtend 64 &&& stMask t) := by
    rw [hy, ← hx]
    exact tr_setTr ..
  by_cases hk : k < 64
  · have hmask := bit_stMask (t := t) hk
    rw [huser] at hmask
    unfold bit at hmask ⊢
    rw [hval, BitVec.getLsbD_or, BitVec.getLsbD_and, BitVec.getLsbD_and, BitVec.getLsbD_not, hmask]
    by_cases hm : k ∈ [0, 1, 2, 3, 4, 7, 8] ∨ (k = 14 ∧ userMode x = false)
    · simp only [decide_eq_true hm, if_pos hm]
      simp [hk]
    · simp only [decide_eq_false hm, if_neg hm]
      simp [hk]
  · have hmem : ¬ (k ∈ [0, 1, 2, 3, 4, 7, 8] ∨ (k = 14 ∧ userMode x = false)) := by
      simp only [List.mem_cons, List.not_mem_nil, or_false]
      omega
    rw [if_neg hmem, bit, bit, BitVec.getLsbD_of_ge _ _ (by omega), BitVec.getLsbD_of_ge _ _ (by omega)]

/-- The flags an operation sets (R227, R238). -/
theorem flagsFrom_of_setFlags {c : Option Bool} {ov dz : Bool} (hx : tr 0x30 t = tr 0x30 x)
    (hy : tr 0x30 y = tr 0x30 (setFlags (some v) c ov dz t)) : FlagsFrom v c ov dz x y := by
  unfold FlagsFrom
  rw [hy, ← hx]
  refine ⟨bit_setFlags _ _ _ _ _ 2 (by decide), bit_setFlags _ _ _ _ _ 1 (by decide), bit_setFlags _ _ _ _ _ 0 (by decide),
    bit_setFlags _ _ _ _ _ 3 (by decide), bit_setFlags _ _ _ _ _ 4 (by decide), fun k hk => ?_⟩
  by_cases hlt : k < 64
  · rw [bit_setFlags _ _ _ _ _ k hlt, if_neg (by omega), if_neg (by omega), if_neg (by omega), if_neg (by omega), if_neg (by omega)]
  · rw [bit, bit, BitVec.getLsbD_of_ge _ _ (by omega), BitVec.getLsbD_of_ge _ _ (by omega)]

end

/-! ### ALU instructions -/

section
variable {c : Nat} {i : TI} {s : State} {op : TOp} {cmd : Instr}

/-- The core after an ALU operation with result `o`, which goes to RD where `wr`. -/
def aluLeaves (i : TI) (wr : Bool) (o : AluOut) (t : Tarn) : Tarn :=
  setFlags (some o.val) o.c o.v o.dz (if wr then writeReg i.rd o.val false t else t)

theorem issued_alu {sem : TI → Tarn → Eff} {wr : Bool} {o : AluOut} (h : Next c op i s) (hrd : i.rd < 16)
    (hcmd : exec cmd s = onDev (runTarn c op sem) s) (hsem : sem i (issuing c s) = .go (aluLeaves i wr o (issuing c s)) Use.none none) :
    ∃ t, exec cmd s = .next t ∧ Computes c (if wr then [i.rd, 0x30] else [0x30]) s t ∧
      (wr = true → tr i.rd (tarn c t.dev) = o.val.zeroExtend 64) ∧ FlagsFrom o.val o.c o.v o.dz (tarn c s.dev) (tarn c t.dev) := by
  rw [hcmd]
  cases wr with
  | false =>
    have w : Writes _ _ (issuing c s) (setFlags (some o.val) o.c o.v o.dz (issuing c s)) := Writes.refl.setFlags
    obtain ⟨t, ht, hi⟩ := exec_issued h hsem (w.regs _ (by decide)) w.st
    exact ⟨t, ht, hi.computes w (by simp), fun h => absurd h (by decide),
      flagsFrom_of_setFlags rfl (hi.regs _ (by decide) (by decide) (by decide))⟩
  | true =>
    have wreg : Writes _ _ (issuing c s) (writeReg i.rd o.val false (issuing c s)) := Writes.refl.writeReg
    have w : Writes _ _ (issuing c s) (setFlags (some o.val) o.c o.v o.dz (writeReg i.rd o.val false (issuing c s))) := wreg.setFlags
    have apart : ∀ n, 16 ≤ n → n ∉ [i.rd] := fun n hn => by
      rw [List.mem_singleton]
      omega
    obtain ⟨t, ht, hi⟩ := exec_issued h hsem (w.regs _ (by simp; omega)) w.st
    refine ⟨t, ht, hi.computes w (by simp), fun _ => ?_, flagsFrom_of_setFlags (wreg.regs _ (apart _ (by decide))) ?_⟩
    · exact (hi.regs _ (by omega) (by omega) (by omega)).trans ((tr_setFlags _ _ _ _ _ _ (by omega)).trans (tr_writeReg_d hrd))
    · exact hi.regs _ (by decide) (by decide) (by decide)

theorem aluSem_leaves (t : Tarn) : aluSem c op i t =
    .go (aluLeaves i (!decide (op = .cmp)) (alu op i.p (satOf t) (readReg c i.rs t) (readReg c i.rt t)) t) Use.none none := by
  unfold aluSem aluLeaves
  by_cases h : op = .cmp
  · simp [h]
  · simp [h]

theorem immSem_leaves (t : Tarn) (hrd : i.rd < 16) : immSem c op i t =
    .go (aluLeaves i (!decide (op = .cmpi)) (alu op false (satOf t) (readReg c i.rd t) i.imm) t) Use.none none := by
  unfold immSem aluLeaves
  by_cases h : op = .cmpi
  · simp [h, hrd]
  · simp [h, hrd]

theorem exec_registerAlu {o : AluOut} (hcmd : exec cmd s = onDev (runTarn c op (aluSem c op)) s) (h : Next c op i s) (hrd : i.rd < 16)
    (ho : alu op i.p (satOf (issuing c s)) (readReg c i.rs (issuing c s)) (readReg c i.rt (issuing c s)) = o) :
    ∃ t, exec cmd s = .next t ∧ Computes c (if !decide (op = .cmp) then [i.rd, 0x30] else [0x30]) s t ∧
      ((!decide (op = .cmp)) = true → tr i.rd (tarn c t.dev) = o.val.zeroExtend 64) ∧
      FlagsFrom o.val o.c o.v o.dz (tarn c s.dev) (tarn c t.dev) :=
  issued_alu h hrd hcmd (by rw [aluSem_leaves, ho])

theorem exec_immediateAlu {o : AluOut} (hcmd : exec cmd s = onDev (runTarn c op (immSem c op)) s) (h : Next c op i s) (hrd : i.rd < 16)
    (ho : alu op false (satOf (issuing c s)) (readReg c i.rd (issuing c s)) i.imm = o) :
    ∃ t, exec cmd s = .next t ∧ Computes c (if !decide (op = .cmpi) then [i.rd, 0x30] else [0x30]) s t ∧
      ((!decide (op = .cmpi)) = true → tr i.rd (tarn c t.dev) = o.val.zeroExtend 64) ∧
      FlagsFrom o.val o.c o.v o.dz (tarn c s.dev) (tarn c t.dev) :=
  issued_alu h hrd hcmd (by rw [immSem_leaves _ hrd, ho])

end

theorem arithmeticResults : ArithmeticResults := by
  intro c i s op cmd hop h hrd
  simp only [List.mem_cons, Prod.mk.injEq, List.not_mem_nil, or_false] at hop
  rcases hop with ⟨rfl, rfl⟩ | ⟨rfl, rfl⟩ | ⟨rfl, rfl⟩ | ⟨rfl, rfl⟩ | ⟨rfl, rfl⟩ | ⟨rfl, rfl⟩ | ⟨rfl, rfl⟩ | ⟨rfl, rfl⟩ | ⟨rfl, rfl⟩ | ⟨rfl, rfl⟩
  iterate 7 exact exec_registerAlu rfl h hrd (alu_arithmetic (by decide))
  iterate 3 exact exec_immediateAlu rfl h hrd (alu_arithmetic (by decide))

/-- An ALU instruction of format A that writes RD. -/
theorem exec_registerAlu_writes {c : Nat} {i : TI} {s : State} {op : TOp} {cmd : Instr} {v : Word} {cy : Option Bool} {ov : Bool}
    (hcmd : exec cmd s = onDev (runTarn c op (aluSem c op)) s) (h : Next c op i s) (hrd : i.rd < 16) (hop : op ≠ .cmp)
    (ho : alu op i.p (satOf (issuing c s)) (readReg c i.rs (issuing c s)) (readReg c i.rt (issuing c s)) = ⟨v, cy, ov, false⟩) :
    ∃ t, exec cmd s = .next t ∧ Computes c [i.rd, 0x30] s t ∧ tr i.rd (tarn c t.dev) = v.zeroExtend 64 ∧
      FlagsFrom v cy ov false (tarn c s.dev) (tarn c t.dev) := by
  obtain ⟨t, ht, hcomputes, hval, hflags⟩ := exec_registerAlu hcmd h hrd ho
  simp only [decide_eq_false hop, Bool.not_false, if_true] at hcomputes
  exact ⟨t, ht, hcomputes, hval (by simp [hop]), hflags⟩

/-- An ALU instruction of format I on a D register that writes it. -/
theorem exec_immediateAlu_writes {c : Nat} {i : TI} {s : State} {op : TOp} {cmd : Instr} {v : Word} {cy : Option Bool} {ov : Bool}
    (hcmd : exec cmd s = onDev (runTarn c op (immSem c op)) s) (h : Next c op i s) (hrd : i.rd < 16) (hop : op ≠ .cmpi)
    (ho : alu op false (satOf (issuing c s)) (readReg c i.rd (issuing c s)) i.imm = ⟨v, cy, ov, false⟩) :
    ∃ t, exec cmd s = .next t ∧ Computes c [i.rd, 0x30] s t ∧ tr i.rd (tarn c t.dev) = v.zeroExtend 64 ∧
      FlagsFrom v cy ov false (tarn c s.dev) (tarn c t.dev) := by
  obtain ⟨t, ht, hcomputes, hval, hflags⟩ := exec_immediateAlu hcmd h hrd ho
  simp only [decide_eq_false hop, Bool.not_false, if_true] at hcomputes
  exact ⟨t, ht, hcomputes, hval (by simp [hop]), hflags⟩

/-- A shift operation by what it makes of the word or of its halves. -/
theorem aluOut_shift {logical p sat : Bool} {a b : Word} : let r := bothHalves p (fun w x _ => shiftPart w logical sat x (shiftAmount b)) a b
    (⟨r.1, some r.2.1, r.2.2, false⟩ : AluOut) =
      let n : Int := (b.extractLsb' 0 7).toInt
      ⟨if p then shiftResult logical sat (upper a) n ++ shiftResult logical sat (lower a) n else shiftResult logical sat a n,
        some (if p then shiftC (upper a) n else shiftC a n), if p then shiftV (upper a) n || shiftV (lower a) n else shiftV a n, false⟩ := by
  intro r
  unfold r
  rw [bothHalves_shift]
  rfl

theorem shiftResults : ShiftResults := by
  intro c i s op cmd hop h hrd
  simp only [List.mem_cons, Prod.mk.injEq, List.not_mem_nil, or_false] at hop
  rcases hop with ⟨rfl, rfl⟩ | ⟨rfl, rfl⟩ | ⟨rfl, rfl⟩ | ⟨rfl, rfl⟩
  · exact exec_registerAlu_writes rfl h hrd (by decide) aluOut_shift
  · exact exec_registerAlu_writes rfl h hrd (by decide) aluOut_shift
  · exact exec_immediateAlu_writes rfl h hrd (by decide) aluOut_shift
  · exact exec_immediateAlu_writes rfl h hrd (by decide) aluOut_shift

/-- Settles O24: an ALU instruction leaves what `alu` gives (`issued_alu`), which is the exact result, fitted (`alu_arithmetic`), or the
shifted word (`aluOut_shift`). -/
theorem arithmeticAndShifts : Obligations.ArithmeticAndShifts := ⟨arithmeticResults, shiftResults⟩

/-! ### O25 -/

theorem logicResults : LogicResults := by
  intro c i s op cmd hop h hrd
  simp only [List.mem_cons, Prod.mk.injEq, List.not_mem_nil, or_false] at hop
  rcases hop with ⟨rfl, rfl⟩ | ⟨rfl, rfl⟩ | ⟨rfl, rfl⟩ | ⟨rfl, rfl⟩ | ⟨rfl, rfl⟩ | ⟨rfl, rfl⟩ | ⟨rfl, rfl⟩
  iterate 4 exact exec_registerAlu_writes rfl h hrd (by decide) rfl
  iterate 3 exact exec_immediateAlu_writes rfl h hrd (by decide) rfl

section
variable {c : Nat} {i : TI} {s : State} {op : TOp} {cmd : Instr} {v : Word}

theorem ne_of_isWritable {n : Nat} (h : isWritable n = true) : n ≠ 0x34 ∧ n ≠ 0x3F := by
  simp only [isWritable, Bool.and_eq_true, decide_eq_true_eq] at h
  omega

/-- A register that the operation wrote last took its value. -/
theorem took_of_issued {n : Nat} {load : Bool} {z : Tarn} {stores : List PendStore} {skip : Option Nat} {t : State}
    (hi : Issued c i (writeReg n v load z) stores skip s t) (hz : tr 0x30 z = tr 0x30 (issuing c s)) (hw : isWritable n = true) : Took c n v s t := by
  refine ⟨fun hst => ?_, fun hst hlc => ?_⟩
  · rw [hst] at hi
    exact stWritten_of_writeReg hz (hi.regs _ (by decide) (by decide) (by decide))
  · refine Eq.trans ?_ (tr_writeReg (load := load) (t := z) hw hst)
    by_cases h31 : n = 0x31
    · obtain ⟨-, -, -, hlc⟩ := hi.noLoop (hlc h31)
      rw [h31] at hlc ⊢
      exact hlc
    · obtain ⟨h34, h3F⟩ := ne_of_isWritable hw
      exact hi.regs _ h31 h34 h3F

/-- An instruction that writes one register by number. -/
theorem exec_writeReg {sem : TI → Tarn → Eff} (hcmd : exec cmd s = onDev (runTarn c op sem) s) (h : Next c op i s) (hw : isWritable i.rd = true)
    (hsem : sem i (issuing c s) = .go (writeReg i.rd v false (issuing c s)) Use.none none) :
    ∃ t, exec cmd s = .next t ∧ Computes c [i.rd] s t ∧ Took c i.rd v s t := by
  rw [hcmd]
  have w : Writes _ _ (issuing c s) (writeReg i.rd v false (issuing c s)) := Writes.refl.writeReg
  obtain ⟨t, ht, hi⟩ := exec_issued h hsem (w.regs _ (by simpa using (ne_of_isWritable hw).1.symm)) w.st
  exact ⟨t, ht, hi.computes w (by simp), took_of_issued hi rfl hw⟩

end

theorem isWritable_of_le {n : Nat} (h : n ≤ 0x30) : isWritable n = true := by
  simp only [isWritable, isReg, Bool.and_eq_true, decide_eq_true_eq]
  omega

theorem moveResults : MoveResults := by
  intro c i s
  refine ⟨fun h => ?_, fun h => ?_, fun h => ?_, fun h => ?_, fun op cmd v hrd hop h => ?_⟩
  · obtain ⟨t, ht, hi⟩ := exec_issued (sem := fun _ t => .go t Use.none none) h rfl rfl rfl
    exact ⟨t, ht, hi.computes Writes.refl (by simp)⟩
  · have hok := (okA_of_fetch h.1 rfl).1
    simp only [okA, Bool.and_eq_true] at hok
    exact exec_writeReg (sem := movSem c) rfl h hok.1.1.1.1 rfl
  · obtain ⟨imm, hok⟩ := okI_of_fetch h.1 rfl
    exact exec_writeReg (sem := ldiSem) rfl h hok rfl
  · obtain ⟨imm, hok⟩ := okI_of_fetch h.1 rfl
    simp only [okI, isD, Bool.and_eq_true, decide_eq_true_eq] at hok
    obtain ⟨t, ht, hcomputes, -, hval⟩ := exec_writeReg (cmd := .ldih c) (sem := ldihSem c) rfl h (isWritable_of_le (by omega)) rfl
    refine ⟨t, ht, hcomputes, (hval (by omega) (by omega)).trans ?_⟩
    rw [heldAfter, if_pos hok.1, setFld_upper, ofNat_fld_lower]
    rfl
  · have imm {op : TOp} {cmd : Instr} {v : Word} (hcmd : exec cmd s = onDev (runTarn c op (immSem c op)) s) (hf : formatOf op = 1)
        (hok : ∀ x n, okI op i.rd x n = true → i.rd ≤ 0x30)
        (hsem : immSem c op i (issuing c s) = .go (writeReg i.rd v false (issuing c s)) Use.none none) (h : Next c op i s) :
        ∃ t, exec cmd s = .next t ∧ Computes c [i.rd] s t ∧ Took c i.rd v s t := by
      obtain ⟨n, hn⟩ := okI_of_fetch h.1 hf
      exact exec_writeReg hcmd h (isWritable_of_le (hok _ n hn)) hsem
    have hsem (op : TOp) : immSem c op i (issuing c s) = _ := if_neg (by omega)
    simp only [List.mem_cons, Prod.mk.injEq, List.not_mem_nil, or_false] at hop
    rcases hop with ⟨rfl, rfl, rfl⟩ | ⟨rfl, rfl, rfl⟩ | ⟨rfl, rfl, rfl⟩ | ⟨rfl, rfl, rfl⟩ | ⟨rfl, rfl, rfl⟩
    iterate 5 exact imm rfl rfl (by simp [okI, isD]; omega) (hsem _) h

/-- Settles O25: `logicResults` by the ALU (`issued_alu`), `moveResults` by the one register written (`exec_writeReg`). -/
theorem logicAndMoves : Obligations.LogicAndMoves := ⟨logicResults, moveResults⟩

end Sys2Proof.Machine
end

section
/-! PROOF. O26 and O27: division, reads of an accumulator, and the instructions that write one (R236, R237, R239, R273). -/
namespace Sys2Proof.Machine

section
variable {c : Nat} {i : TI} {s : State}

/-! ### O26 -/

/-- Division by its edges (R239). -/
theorem divide_eq (sat : Bool) (a b : Word) : divide sat a b =
    (if b = 0 then (if a.toInt < 0 then 0x800000000 else 0x7FFFFFFFF) else clipped 36 sat (a.toInt.tdiv b.toInt),
      if b = 0 then a else BitVec.ofInt 36 (a.toInt.tmod b.toInt), decide (b ≠ 0) && leaves 36 (a.toInt.tdiv b.toInt), decide (b = 0)) := by
  unfold divide
  by_cases hb : b = 0
  · have hedge : BitVec.ofInt 36 (if a.toInt < 0 then minOf 36 else maxOf 36) = if a.toInt < 0 then 0x800000000 else 0x7FFFFFFFF := by
      split <;> rfl
    simp only [hb, hedge, if_true, ne_eq, not_true_eq_false, decide_false, Bool.false_and, decide_true]
  · simp only [if_false, ofInt_fitTo, fitTo_leaves, ne_eq, hb, not_false_eq_true, decide_true, Bool.true_and, decide_false]

theorem divResults (h : Next c .div i s) :
    let a := readReg c i.rs (issuing c s)
    let b := readReg c i.rt (issuing c s)
    let q : Word := if b = 0 then (if a.toInt < 0 then 0x800000000 else 0x7FFFFFFFF) else clipped 36 (satOf (issuing c s)) (a.toInt.tdiv b.toInt)
    let r : Word := if b = 0 then a else BitVec.ofInt 36 (a.toInt.tmod b.toInt)
    ∃ t, exec (.div c) s = .next t ∧ Computes c [i.rd, i.rd + 1, 0x30] s t ∧ tr i.rd (tarn c t.dev) = q.zeroExtend 64 ∧
      tr (i.rd + 1) (tarn c t.dev) = r.zeroExtend 64 ∧
      FlagsFrom q none (decide (b ≠ 0) && leaves 36 (a.toInt.tdiv b.toInt)) (decide (b = 0)) (tarn c s.dev) (tarn c t.dev) := by
  intro a b q r
  have hrd : i.rd + 1 < 16 := by
    have hok := (okA_of_fetch h.1 rfl).1
    simp only [okA, isD, Bool.and_eq_true, decide_eq_true_eq] at hok
    omega
  have hsem : divSem c i (issuing c s) = .go (setFlags (some q) none (decide (b ≠ 0) && leaves 36 (a.toInt.tdiv b.toInt)) (decide (b = 0))
      (writeReg (i.rd + 1) r false (writeReg i.rd q false (issuing c s)))) Use.none none := by
    unfold divSem
    rw [divide_eq]
  have wq : Writes _ _ (issuing c s) (writeReg i.rd q false (issuing c s)) := Writes.refl.writeReg
  have wr : Writes _ _ (writeReg i.rd q false (issuing c s)) (writeReg (i.rd + 1) r false (writeReg i.rd q false (issuing c s))) :=
    Writes.refl.writeReg
  have w := (wq.trans wr).setFlags (nz := some q) (cy := none) (ov := decide (b ≠ 0) && leaves 36 (a.toInt.tdiv b.toInt)) (dz := decide (b = 0))
  obtain ⟨t, ht, hi⟩ := exec_issued h hsem (w.regs _ (by simp; omega)) w.st
  have hflag : 0x30 ∉ [i.rd + 1] ++ [i.rd] := by simp; omega
  refine ⟨t, ht, hi.computes w (by simp), ?_, ?_, flagsFrom_of_setFlags ((wq.trans wr).regs _ hflag)
    (hi.regs _ (by decide) (by decide) (by decide))⟩
  · rw [hi.regs _ (by omega) (by omega) (by omega), tr_setFlags _ _ _ _ _ _ (by omega), wr.regs _ (by simp), tr_writeReg_d (by omega)]
  · rw [hi.regs _ (by omega) (by omega) (by omega), tr_setFlags _ _ _ _ _ _ (by omega), tr_writeReg_d hrd]

/-- What MVA narrows to (R237, R273). -/
def mvaGives (c : Nat) (i : TI) (x : Tarn) : Word :=
  let re := accSeenInt i.acn 0 x
  let im := accSeenInt i.acn 1 x
  let half := clipped 18 (satOf x) (kept18 (rndOf x) re)
  match i.rt with
  | 0 => clipped 36 (satOf x) re
  | 1 => clipped 36 (satOf x) im
  | 2 => pairKept (rndOf x) (satOf x) re im
  | 3 => half ++ lower (readReg c i.rd x)
  | _ => upper (readReg c i.rd x) ++ half

/-- V of MVA: what it narrows leaves the width (R237). -/
def mvaV (i : TI) (x : Tarn) : Bool :=
  let re := accSeenInt i.acn 0 x
  let im := accSeenInt i.acn 1 x
  match i.rt with
  | 0 => leaves 36 re
  | 1 => leaves 36 im
  | 2 => leaves 18 (kept18 (rndOf x) re) || leaves 18 (kept18 (rndOf x) im)
  | _ => leaves 18 (kept18 (rndOf x) re)

theorem mvaSem_leaves (x : Tarn) : mvaSem c i x =
    .go (aluLeaves i true ⟨mvaGives c i x, none, mvaV i x, false⟩ x) Use.none none := by
  unfold mvaSem mvaGives mvaV aluLeaves
  match i.rt with
  | 0 => simp only [narrowWord_eq, if_true]; rfl
  | 1 => simp only [narrowWord_eq, if_true]; rfl
  | 2 => simp only [narrowPair_eq, if_true]; rfl
  | 3 => simp only [withHalf_upper, ofInt_narrowHalf, narrowHalf_v, Nat.sub_self, if_true]; rfl
  | n + 4 =>
    have hn : n + 4 - 3 ≠ 0 := by omega
    simp only [withHalf_lower hn, ofInt_narrowHalf, narrowHalf_v, if_true]
    rfl

theorem mvaResults (h : Next c .mva i s) :
    ∃ t, exec (.mva c) s = .next t ∧ Computes c [i.rd, 0x30] s t ∧
      tr i.rd (tarn c t.dev) = (mvaGives c i (issuing c s)).zeroExtend 64 ∧
      FlagsFrom (mvaGives c i (issuing c s)) none (mvaV i (issuing c s)) false (tarn c s.dev) (tarn c t.dev) := by
  have hrd : i.rd < 16 := by
    have hok := (okA_of_fetch h.1 rfl).1
    simp only [okA, isD, Bool.and_eq_true, decide_eq_true_eq] at hok
    omega
  obtain ⟨t, ht, hcomputes, hval, hflags⟩ := issued_alu (cmd := .mva c) h hrd rfl (mvaSem_leaves _)
  exact ⟨t, ht, hcomputes, hval rfl, hflags⟩

/-- The bits of a component (R236) at and above bit 36. -/
theorem ofNat_fld_guards (re im : W64) : BitVec.ofNat 36 (fld re 47 36 * 4096 + fld im 47 36) =
    (0 : BitVec 12) ++ (re.extractLsb' 0 48).extractLsb' 36 12 ++ (im.extractLsb' 0 48).extractLsb' 36 12 := by
  have hre : fld re 47 36 < 4096 := fld_lt re 47 36
  have him : fld im 47 36 < 4096 := fld_lt im 47 36
  have field (v : W64) : ((v.extractLsb' 0 48).extractLsb' 36 12).toNat = fld v 47 36 := by
    rw [BitVec.extractLsb'_toNat, BitVec.extractLsb'_toNat, fld, Nat.shiftRight_zero, Nat.shiftRight_eq_div_pow, Nat.shiftRight_eq_div_pow]
    omega
  apply BitVec.eq_of_toNat_eq
  rw [BitVec.toNat_append, BitVec.toNat_append, field, field, BitVec.toNat_ofNat, ← Nat.shiftLeft_add_eq_or_of_lt him]
  simp [Nat.shiftLeft_eq]
  omega

theorem extractLsb'_low36 (v : W64) : (v.extractLsb' 0 48).extractLsb' 0 36 = v.extractLsb' 0 36 := by
  refine BitVec.eq_of_getLsbD_eq fun k hk => ?_
  simp [hk]

/-- The part of ACn that ACRD reads (R273). -/
def acrdGives (i : TI) (x : Tarn) : Word :=
  let re := (accSeen i.acn 0 x).extractLsb' 0 48
  let im := (accSeen i.acn 1 x).extractLsb' 0 48
  match i.rt with
  | 0 => re.extractLsb' 0 36
  | 1 => im.extractLsb' 0 36
  | _ => (0 : BitVec 12) ++ re.extractLsb' 36 12 ++ im.extractLsb' 36 12

theorem acrdSem_writes (x : Tarn) : acrdSem c i x = .go (writeReg i.rd (acrdGives i x) false x) Use.none none := by
  unfold acrdSem acrdGives
  match i.rt with
  | 0 => simp only [extractLsb'_low36]
  | 1 => simp only [extractLsb'_low36]
  | n + 2 => simp only [ofNat_fld_guards]

theorem acrdResults (h : Next c .acrd i s) : ∃ t, exec (.acrd c) s = .next t ∧ Computes c [i.rd] s t ∧
    tr i.rd (tarn c t.dev) = (acrdGives i (issuing c s)).zeroExtend 64 := by
  have hrd : i.rd < 16 := by
    have hok := (okA_of_fetch h.1 rfl).1
    simp only [okA, isD, Bool.and_eq_true, decide_eq_true_eq] at hok
    omega
  obtain ⟨t, ht, hcomputes, -, hval⟩ := exec_writeReg (cmd := .acrd c) rfl h (isWritable_of_le (by omega)) (acrdSem_writes _)
  exact ⟨t, ht, hcomputes, (hval (by omega) (by omega)).trans (if_pos hrd)⟩

end

/-- Settles O26: DIV by `divide_eq`, MVA as an ALU instruction whose value `mvaSem_leaves` gives, ACRD as a write of RD. -/
theorem divideAndReadAccumulator : Obligations.DivideAndReadAccumulator := by
  intro c i s
  exact ⟨divResults, mvaResults, acrdResults⟩

end Sys2Proof.Machine
end

section
/-! PROOF. O27: the instructions that write an accumulator (R236, R237, R239, R273). -/
namespace Sys2Proof.Machine

/-! ### The components written -/

section
variable {n k : Nat} {b c : Bool} {re im v : W64} {t x y : Tarn}

theorem tr_setAcc1 (m : Nat) : tr m (setAcc1 n k v t) = if m = 0x40 + 2 * n + k then v else tr m t := (tr_hide ..).trans (tr_setTr ..)

theorem tr_setAcc_re : tr (0x40 + 2 * n) (setAcc n re im t) = re := by
  rw [setAcc, tr_setAcc1, if_neg (by omega), tr_setAcc1, if_pos (by omega)]

theorem tr_setAcc_im : tr (0x41 + 2 * n) (setAcc n re im t) = im := by
  rw [setAcc, tr_setAcc1, if_pos (by omega)]

theorem tr_setAccV (h : k ≠ 0x30) : tr k (setAccV b t) = tr k t := by
  cases b with
  | false => rfl
  | true => exact (tr_hide ..).trans ((tr_setTr ..).trans (if_neg h))

theorem bit_setAccV : bit (tr 0x30 (setAccV b t)) k = if k = 3 then b || bit (tr 0x30 t) 3 else bit (tr 0x30 t) k := by
  cases b with
  | false =>
    have h30 : tr 0x30 (setAccV false t) = tr 0x30 t := rfl
    rw [h30, Bool.false_or]
    split
    · next h => rw [h]
    · rfl
  | true =>
    have h30 : tr 0x30 (setAccV true t) = setFld (tr 0x30 t) 3 3 1 := (tr_hide ..).trans ((tr_setTr ..).trans (if_pos rfl))
    rw [h30, Bool.true_or]
    by_cases hk : k < 64
    · rw [bit_setFld _ _ _ _ _ hk]
      by_cases h3 : k = 3
      · subst h3
        rfl
      · rw [if_neg (by omega), if_neg h3]
    · rw [if_neg (by omega), bit, bit, BitVec.getLsbD_of_ge _ _ (by omega), BitVec.getLsbD_of_ge _ _ (by omega)]

theorem onlyV_of_setAccV (hx : tr 0x30 t = tr 0x30 x) (hy : tr 0x30 y = tr 0x30 (setAccV b t)) : OnlyV b x y := by
  intro k
  rw [hy, bit_setAccV, hx]

/-- C of an operation that sets no other flag. -/
theorem bit_setFlags_carry : bit (tr 0x30 (setFlags none (some c) false false t)) k = if k = 0 then c else bit (tr 0x30 t) k := by
  have h30 : tr 0x30 (setFlags none (some c) false false t) = setFld (tr 0x30 t) 0 0 (b2n c) := (tr_setTr ..).trans (if_pos rfl)
  rw [h30]
  by_cases hk : k < 64
  · rw [bit_setFld _ _ _ _ _ hk]
    by_cases h0 : k = 0
    · subst h0
      cases c <;> rfl
    · rw [if_neg (by omega), if_neg h0]
  · rw [if_neg (by omega), bit, bit, BitVec.getLsbD_of_ge _ _ (by omega), BitVec.getLsbD_of_ge _ _ (by omega)]

end

/-! ### Parts of a component (R273) -/

section
variable {v : W64} {n : Nat}

theorem zeroExtend_component (h : v.toNat < 2 ^ 48) : v = (v.extractLsb' 0 48).zeroExtend 64 := by
  apply BitVec.eq_of_toNat_eq
  rw [BitVec.toNat_setWidth, BitVec.extractLsb'_toNat, Nat.shiftRight_zero, Nat.mod_eq_of_lt h, Nat.mod_eq_of_lt v.isLt]

theorem getLsbD_component (h : v.toNat < 2 ^ 48) {k : Nat} (hk : 48 ≤ k) : v.getLsbD k = false := by
  rw [zeroExtend_component h]
  simp [hk]

theorem setFld_low36 (h : v.toNat < 2 ^ 48) (a : Word) :
    setFld v 35 0 a.toNat = ((v.extractLsb' 0 48).extractLsb' 36 12 ++ a : BitVec 48).zeroExtend 64 := by
  refine BitVec.eq_of_getLsbD_eq fun k hk => (bit_setFld v 35 0 _ k hk).trans ?_
  rw [BitVec.getLsbD_setWidth, BitVec.getLsbD_append, BitVec.getLsbD_extractLsb', BitVec.getLsbD_extractLsb']
  by_cases hlow : k < 36
  · simp [hlow, hk, BitVec.testBit_toNat]
  · by_cases hin : k < 48
    · have hsum : 36 + (k - 36) = k := by omega
      have hlt : k - 36 < 12 := by omega
      simp [hlow, hk, hin, hsum, hlt, bit]
    · have hlt : ¬ k - 36 < 12 := by omega
      simp [hlow, hlt, bit, getLsbD_component h (Nat.le_of_not_lt hin)]

theorem setFld_guards (h : v.toNat < 2 ^ 48) :
    setFld v 47 36 n = (BitVec.ofNat 12 n ++ (v.extractLsb' 0 48).extractLsb' 0 36 : BitVec 48).zeroExtend 64 := by
  refine BitVec.eq_of_getLsbD_eq fun k hk => (bit_setFld v 47 36 n k hk).trans ?_
  rw [BitVec.getLsbD_setWidth, BitVec.getLsbD_append, BitVec.getLsbD_extractLsb', BitVec.getLsbD_extractLsb', BitVec.getLsbD_ofNat]
  by_cases hlow : k < 36
  · have hhi : ¬ 36 ≤ k := by omega
    have hin : k < 48 := by omega
    simp [hlow, hk, hhi, hin, bit]
  · by_cases hin : k < 48
    · have hhi : 36 ≤ k := by omega
      have hlt : k - 36 < 12 := by omega
      simp [hlow, hk, hin, hhi, hlt]
    · have hlt : ¬ k - 36 < 12 := by omega
      simp [hlow, hlt, hin, bit, getLsbD_component h (Nat.le_of_not_lt hin)]

theorem ofNat_fld_bits {w : Nat} (a : BitVec w) (lo : Nat) : BitVec.ofNat 12 (fld a (lo + 11) lo) = a.extractLsb' lo 12 := by
  have hw : lo + 11 + 1 - lo = 12 := by omega
  apply BitVec.eq_of_toNat_eq
  simp [fld, BitVec.extractLsb'_toNat, hw]

end

/-! ### O27 -/

section
variable {c : Nat} {i : TI} {s : State} {op : TOp} {cmd : Instr} {sem : TI → Tarn → Eff}

/-- An instruction that writes both components of ACn and no flag. -/
theorem exec_setAcc {v u : W64} (hcmd : exec cmd s = onDev (runTarn c op sem) s) (h : Next c op i s)
    (hsem : sem i (issuing c s) = .go (setAcc i.acn v u (issuing c s)) Use.none none) :
    ∃ t, exec cmd s = .next t ∧ Computes c [0x40 + 2 * i.acn, 0x41 + 2 * i.acn] s t ∧
      ∀ re im : BitVec 48, v = re.zeroExtend 64 → u = im.zeroExtend 64 → AccIs c i.acn re im t := by
  rw [hcmd]
  have w : Writes _ _ (issuing c s) (setAcc i.acn v u (issuing c s)) := Writes.refl.setAcc
  obtain ⟨t, ht, hi⟩ := exec_issued h hsem (w.regs _ (by simp; omega)) w.st
  refine ⟨t, ht, hi.computes w (by simp; omega), fun re im hre him => ⟨?_, ?_⟩⟩
  · rw [hi.regs _ (by omega) (by omega) (by omega), tr_setAcc_re, hre]
  · rw [hi.regs _ (by omega) (by omega) (by omega), tr_setAcc_im, him]

/-- One component of ACn written whole (R273). -/
theorem exec_setAcc1 {k : Nat} {v : W64} (hk : k < 2) (hcmd : exec cmd s = onDev (runTarn c op sem) s) (h : Next c op i s)
    (hsem : sem i (issuing c s) = .go (setAcc1 i.acn k v (issuing c s)) Use.none none) :
    ∃ t, exec cmd s = .next t ∧ Computes c [0x40 + 2 * i.acn, 0x41 + 2 * i.acn] s t ∧ ∀ re im : BitVec 48,
      (if k = 0 then v else accNow i.acn 0 (issuing c s)) = re.zeroExtend 64 →
      (if k = 1 then v else accNow i.acn 1 (issuing c s)) = im.zeroExtend 64 → AccIs c i.acn re im t := by
  rw [hcmd]
  have w : Writes _ _ (issuing c s) (setAcc1 i.acn k v (issuing c s)) := Writes.refl.setAcc1
  obtain ⟨t, ht, hi⟩ := exec_issued h hsem (w.regs _ (by simp; omega)) w.st
  refine ⟨t, ht, hi.computes w (by simp; omega), fun re im hre him => ⟨?_, ?_⟩⟩
  · rw [hi.regs _ (by omega) (by omega) (by omega), tr_setAcc1, ← hre]
    exact if_congr (by omega) rfl rfl
  · rw [hi.regs _ (by omega) (by omega) (by omega), tr_setAcc1, ← him, accNow, show 0x40 + 2 * i.acn + 1 = 0x41 + 2 * i.acn by omega]
    exact if_congr (by omega) rfl rfl

theorem acwrResults (h : Next c .acwr i s) :
    let x := issuing c s
    let a := readReg c i.rs x
    let re := (accNow i.acn 0 x).extractLsb' 0 48
    let im := (accNow i.acn 1 x).extractLsb' 0 48
    ∃ t, exec (.acwr c) s = .next t ∧ Computes c [0x40 + 2 * i.acn, 0x41 + 2 * i.acn] s t ∧
      ((accNow i.acn 0 x).toNat < 2 ^ 48 → (accNow i.acn 1 x).toNat < 2 ^ 48 → AccIs c i.acn
        (match i.rt with | 0 => re.extractLsb' 36 12 ++ a | 1 => re | _ => a.extractLsb' 12 12 ++ re.extractLsb' 0 36)
        (match i.rt with | 0 => im | 1 => im.extractLsb' 36 12 ++ a | _ => a.extractLsb' 0 12 ++ im.extractLsb' 0 36) t) := by
  intro x a re im
  match hrt : i.rt with
  | 0 =>
    obtain ⟨t, ht, hcomputes, hacc⟩ := exec_setAcc1 (cmd := .acwr c) (sem := acwrSem c) (k := 0)
      (v := setFld (accNow i.acn 0 x) 35 0 a.toNat) (by decide) rfl h (by rw [acwrSem, hrt]; rfl)
    exact ⟨t, ht, hcomputes, fun hre him => hacc _ _ (setFld_low36 hre a) (zeroExtend_component him)⟩
  | 1 =>
    obtain ⟨t, ht, hcomputes, hacc⟩ := exec_setAcc1 (cmd := .acwr c) (sem := acwrSem c) (k := 1)
      (v := setFld (accNow i.acn 1 x) 35 0 a.toNat) (by decide) rfl h (by rw [acwrSem, hrt]; rfl)
    exact ⟨t, ht, hcomputes, fun hre him => hacc _ _ (zeroExtend_component hre) (setFld_low36 him a)⟩
  | n + 2 =>
    obtain ⟨t, ht, hcomputes, hacc⟩ := exec_setAcc (cmd := .acwr c) (sem := acwrSem c)
      (v := setFld (accNow i.acn 0 x) 47 36 (fld a 23 12)) (u := setFld (accNow i.acn 1 x) 47 36 (fld a 11 0)) rfl h
      (by rw [acwrSem, hrt]; rfl)
    refine ⟨t, ht, hcomputes, fun hre him => hacc _ _ ((setFld_guards hre).trans ?_) ((setFld_guards him).trans ?_)⟩
    · rw [ofNat_fld_bits a 12]
      rfl
    · rw [ofNat_fld_bits a 0]
      rfl

/-- An instruction that rounds or shifts both components of ACn; the flags it leaves are those after `f`. -/
theorem exec_accInPlace {f : Tarn → Tarn} {ps : List Nat} {re im : BitVec 48} {ov : Bool} (hcmd : exec cmd s = onDev (runTarn c op sem) s)
    (h : Next c op i s) (hf : ∀ t, Writes [0x30] ps t (f t))
    (hsem : sem i (issuing c s) = .go (setAccV ov (f (setAcc i.acn (re.zeroExtend 64) (im.zeroExtend 64) (issuing c s)))) Use.none none) :
    ∃ t, exec cmd s = .next t ∧ Computes c (0x30 :: [0x40 + 2 * i.acn, 0x41 + 2 * i.acn]) s t ∧ AccIs c i.acn re im t ∧
      tr 0x30 (tarn c t.dev) = tr 0x30 (setAccV ov (f (setAcc i.acn (re.zeroExtend 64) (im.zeroExtend 64) (issuing c s)))) := by
  rw [hcmd]
  have hacc : Writes _ _ (issuing c s) (setAcc i.acn (re.zeroExtend 64) (im.zeroExtend 64) (issuing c s)) := Writes.refl.setAcc
  have w := (hacc.trans (hf _)).setAccV (b := ov)
  have hval (k : Nat) (hk : 0x40 ≤ k) : tr k (setAccV ov (f (setAcc i.acn (re.zeroExtend 64) (im.zeroExtend 64) (issuing c s)))) =
      tr k (setAcc i.acn (re.zeroExtend 64) (im.zeroExtend 64) (issuing c s)) :=
    (tr_setAccV (by omega)).trans ((hf _).regs _ (by simp; omega))
  obtain ⟨t, ht, hi⟩ := exec_issued h hsem (w.regs _ (by simp; omega)) w.st
  refine ⟨t, ht, hi.computes w (by simp; omega), ⟨?_, ?_⟩, hi.regs _ (by decide) (by decide) (by decide)⟩
  · rw [hi.regs _ (by omega) (by omega) (by omega), hval _ (by omega), tr_setAcc_re]
  · rw [hi.regs _ (by omega) (by omega) (by omega), hval _ (by omega), tr_setAcc_im]

theorem acrndResults (h : Next c .acrnd i s) :
    let x := issuing c s
    let re := kept18 (rndOf x) (accSeenInt i.acn 0 x) * 262144
    let im := kept18 (rndOf x) (accSeenInt i.acn 1 x) * 262144
    ∃ t, exec (.acrnd c) s = .next t ∧ Computes c (0x30 :: [0x40 + 2 * i.acn, 0x41 + 2 * i.acn]) s t ∧
      AccIs c i.acn (BitVec.ofInt 48 re) (BitVec.ofInt 48 im) t ∧ OnlyV (leaves 48 re || leaves 48 im) (tarn c s.dev) (tarn c t.dev) := by
  intro x re im
  obtain ⟨t, ht, hcomputes, hacc, hst⟩ := exec_accInPlace (cmd := .acrnd c) (sem := acrndSem) (f := id) (re := BitVec.ofInt 48 re)
    (im := BitVec.ofInt 48 im) (ov := leaves 48 re || leaves 48 im) (ps := []) rfl h (fun _ => Writes.refl.mono (by simp) (by simp))
    (by simp only [acrndSem, accWraps_eq, roundAt18_eq]; rfl)
  refine ⟨t, ht, hcomputes, hacc, onlyV_of_setAccV ?_ hst⟩
  have w : Writes _ _ (issuing c s) (setAcc i.acn ((BitVec.ofInt 48 re).zeroExtend 64) ((BitVec.ofInt 48 im).zeroExtend 64) (issuing c s)) :=
    Writes.refl.setAcc
  exact w.regs _ (by simp; omega)

theorem acshResults (h : Next c .acsh i s) :
    let x := issuing c s
    let n : Int := ((readReg c i.rs x).extractLsb' 0 7).toInt
    let re := (accSeen i.acn 0 x).extractLsb' 0 48
    let im := (accSeen i.acn 1 x).extractLsb' 0 48
    ∃ t, exec (.acsh c) s = .next t ∧ Computes c (0x30 :: [0x40 + 2 * i.acn, 0x41 + 2 * i.acn]) s t ∧
      AccIs c i.acn (shiftResult false (satOf x) re n) (shiftResult false (satOf x) im n) t ∧
      ∀ k, bit (tr 0x30 (tarn c t.dev)) k = if k = 0 then shiftC re n
        else if k = 3 then (shiftV re n || shiftV im n) || bit (tr 0x30 (tarn c s.dev)) 3 else bit (tr 0x30 (tarn c s.dev)) k := by
  intro x n re im
  obtain ⟨hre, hc, hvre⟩ := shiftPart_eq (sat := satOf x) (logical := false) re n
  obtain ⟨him, -, hvim⟩ := shiftPart_eq (sat := satOf x) (logical := false) im n
  obtain ⟨t, ht, hcomputes, hacc, hst⟩ := exec_accInPlace (cmd := .acsh c) (sem := acshSem c)
    (f := setFlags none (some (shiftC re n)) false false) (re := shiftResult false (satOf x) re n) (im := shiftResult false (satOf x) im n)
    (ov := shiftV re n || shiftV im n) rfl h (fun _ => Writes.refl.setFlags) (by rw [← hre, ← him, ← hc, ← hvre, ← hvim]; rfl)
  refine ⟨t, ht, hcomputes, hacc, fun k => ?_⟩
  have w : Writes _ _ (issuing c s) (setAcc i.acn ((shiftResult false (satOf x) re n).zeroExtend 64)
    ((shiftResult false (satOf x) im n).zeroExtend 64) (issuing c s)) := Writes.refl.setAcc
  have h30 : tr 0x30 (issuing c s) = tr 0x30 (tarn c s.dev) := rfl
  rw [hst, bit_setAccV, bit_setFlags_carry, bit_setFlags_carry, w.regs 0x30 (by simp; omega), h30]
  by_cases h0 : k = 0
  · subst h0
    rfl
  · rw [if_neg h0, if_neg h0, if_neg (by decide : (3 : Nat) ≠ 0)]

end

/-- Settles O27: ACSET, ACCLR and MPYL by the components they write, ACWR by `acwrResults`, ACRND and ACSH in place (`exec_accInPlace`). -/
theorem accumulatorResults : Obligations.AccumulatorResults := by
  intro c i s
  refine ⟨fun h => ?_, fun h => ?_, fun h => ?_, acwrResults, acrndResults, acshResults⟩
  · obtain ⟨t, ht, hcomputes, hacc⟩ := exec_setAcc (cmd := .acset c) (sem := acsetSem c) rfl h rfl
    exact ⟨t, ht, hcomputes, hacc _ _ rfl rfl⟩
  · obtain ⟨t, ht, hcomputes, hacc⟩ := exec_setAcc (cmd := .acclr c) (sem := acclrSem) rfl h rfl
    exact ⟨t, ht, hcomputes, hacc _ _ rfl rfl⟩
  · obtain ⟨t, ht, hcomputes, hacc⟩ := exec_setAcc (cmd := .mpyl c) (sem := mpylSem c) rfl h rfl
    refine ⟨t, ht, hcomputes, hacc _ _ rfl ?_⟩
    apply BitVec.eq_of_toNat_eq
    simp [mpylSum]
end Sys2Proof.Machine
end

section
/-! PROOF. O29: addresses, the words they read, and the loads (R234, R235, R269, R275). -/
namespace Sys2Proof.Machine

/-! ### Addressing (R234, R235) -/

section
variable {c n : Nat} {i : TI} {s t : State} {x y : Tarn} {δ : Int} {l ps : List Nat} {double : Bool}

/-- An address register as the next address generation sees it, where an operation neither wrote nor noted it. -/
theorem Writes.agReg_ageAll (w : Writes l ps x y) (hn : n ∉ l) (hp : 0x80 + n ∉ ps) : agReg n (ageAll y) = agReg n (ageAll x) := by
  unfold agReg
  rw [tr_ageAll, tr_ageAll, w.regs n hn, seen_of_notesAt (notesAt_ageAll_congr (w.notes _ hp))]

theorem agReg_postMod : agReg (0x10 + i.an) (ageAll (postMod i.an δ x)) =
    stepped (agReg (0x10 + i.an) x) (agReg (0x18 + i.an) x) (agReg (0x20 + i.an) x) δ := by
  have hplace : 0x80 + (0x10 + i.an) = 0x90 + i.an := by omega
  have low16 (v : BitVec 16) : (v.zeroExtend 64).extractLsb' 0 16 = v := by
    ext k hk
    simp [hk]
    omega
  rw [postMod, agReg, hplace, tr_ageAll, seen_setSeen, low16]
  rfl

/-- The place of the address register that the mode steps. -/
def steppedPlace (i : TI) : List Nat := if i.mode = 1 ∨ i.mode = 2 ∨ i.mode = 3 then [0x90 + i.an] else []

/-- A mode gives its address, and steps its register or leaves the core as it is (R234, R235). -/
structure Addressed (i : TI) (double : Bool) (x : Tarn) (e : BitVec 16 × Tarn) : Prop where
  addr : e.1 = address i x
  writes : Writes (steppedReg i) (steppedPlace i) x e.2
  steps : ∀ δ, stepOf i double x = some δ → agReg (0x10 + i.an) (ageAll e.2) =
    stepped (agReg (0x10 + i.an) x) (agReg (0x18 + i.an) x) (agReg (0x20 + i.an) x) δ

theorem addressed_of_step (hm : i.mode = 1 ∨ i.mode = 2 ∨ i.mode = 3) (haddr : address i x = agReg (0x10 + i.an) x)
    (hstep : stepOf i double x = some δ) : Addressed i double x (agReg (0x10 + i.an) x, postMod i.an δ x) := by
  refine ⟨haddr.symm, ?_, fun δ' h => ?_⟩
  · unfold steppedReg steppedPlace
    rw [if_pos hm, if_pos hm]
    exact Writes.refl.postMod
  · obtain rfl : δ = δ' := Option.some.inj (hstep.symm.trans h)
    exact agReg_postMod

theorem addressed_unstepped {a : BitVec 16} (hm : ¬ (i.mode = 1 ∨ i.mode = 2 ∨ i.mode = 3)) (haddr : address i x = a)
    (hstep : stepOf i double x = none) : Addressed i double x (a, x) := by
  refine ⟨haddr.symm, ?_, fun δ h => ?_⟩
  · unfold steppedReg steppedPlace
    rw [if_neg hm, if_neg hm]
    exact Writes.refl
  · rw [hstep] at h
    cases h

theorem addressed (hmode : i.mode ≤ 6) : Addressed i double x (modeEA i (if double then 2 else 1) x) := by
  unfold modeEA
  have cases : i.mode = 0 ∨ i.mode = 1 ∨ i.mode = 2 ∨ i.mode = 3 ∨ i.mode = 4 ∨ i.mode = 5 ∨ i.mode = 6 := by omega
  rcases cases with hm | hm | hm | hm | hm | hm | hm
  · rw [hm]
    exact addressed_unstepped (by omega) (by rw [address, hm]; rfl) (by rw [stepOf, hm]; rfl)
  · rw [hm]
    exact addressed_of_step (by omega) (by rw [address, hm]; rfl) (by rw [stepOf, hm]; rfl)
  · rw [hm]
    exact addressed_of_step (by omega) (by rw [address, hm]; rfl) (by rw [stepOf, hm]; cases double <;> rfl)
  · rw [hm]
    exact addressed_of_step (by omega) (by rw [address, hm]; rfl) (by rw [stepOf, hm]; rfl)
  · rw [hm]
    exact addressed_unstepped (by omega) (by rw [address, hm]; rfl) (by rw [stepOf, hm]; rfl)
  · rw [hm]
    exact addressed_unstepped (by omega) (by rw [address, hm]; rfl) (by rw [stepOf, hm]; rfl)
  · rw [hm]
    exact addressed_unstepped (by omega) (by rw [address, hm]; rfl) (by rw [stepOf, hm]; rfl)

theorem addressed_single (hmode : i.mode ≤ 6) : Addressed i false x (modeEA i 1 x) := addressed (double := false) hmode

theorem addressed_double (hmode : i.mode ≤ 6) : Addressed i true x (modeEA i 2 x) := addressed (double := true) hmode

theorem notMem_steppedReg (han : i.an < 8) (hn : n < 0x10 ∨ 0x18 ≤ n) : n ∉ steppedReg i := by
  unfold steppedReg
  split
  · rw [List.mem_singleton]
    omega
  · exact List.not_mem_nil

theorem notMem_steppedPlace (han : i.an < 8) (hn : n < 0x90 ∨ 0x98 ≤ n) : n ∉ steppedPlace i := by
  unfold steppedPlace
  split
  · rw [List.mem_singleton]
    omega
  · exact List.not_mem_nil

/-- What the next instruction sees of an address register after one that has run. -/
theorem Issued.agReg {stores : List PendStore} {skip : Option Nat} (h : Issued c i y stores skip s t) (hn : n < 0x30) :
    agReg n (issuing c t) = agReg n (ageAll y) := by
  unfold Machine.agReg issuing
  rw [tr_ageAll, tr_ageAll, h.regs n (by omega) (by omega) (by omega), seen_of_notesAt (notesAt_ageAll_congr (h.notes _ (by omega)))]

/-- The step stands in what follows it. -/
theorem Addressed.steppedBy {e : BitVec 16 × Tarn} {stores : List PendStore} {skip : Option Nat} (ha : Addressed i double (issuing c s) e) (han : i.an < 8)
    (w : Writes l ps e.2 y) (hl : 0x10 + i.an ∉ l) (hp : 0x90 + i.an ∉ ps) (h : Issued c i y stores skip s t) : SteppedBy c i double s t := by
  intro δ hδ
  rw [h.agReg (by omega), w.agReg_ageAll hl (by rwa [show 0x80 + (0x10 + i.an) = 0x90 + i.an by omega])]
  exact ha.steps δ hδ

end

/-! ### The word at an address (R225, R247, R253) -/

theorem readSpace_of_spaceWord {sp halves : Nat} {a : BitVec 16} {x : Tarn} {v : Word} (h : spaceWord sp a x = some v) :
    ∃ u : Use, readSpace sp a halves [] x = some (v, u) ∧ u.stores = [] := by
  unfold spaceWord at h
  unfold readSpace
  match sp with
  | 0 =>
    obtain ⟨p, hp, hv⟩ := Option.map_eq_some_iff.1 h
    refine ⟨⟨[halfWords p halves], [], false⟩, ?_, rfl⟩
    rw [hp, ← hv]
    simp only [dmWord, List.append_nil]
    rfl
  | 1 =>
    obtain rfl := Option.some.inj h
    exact ⟨Use.none, rfl, rfl⟩
  | n + 2 =>
    by_cases hw : userMode x && !inTenantSlot (a.toNat % 16384)
    · simp [hw] at h
    · simp only [hw] at h ⊢
      cases h
      refine ⟨⟨[], [], true⟩, ?_, rfl⟩
      simp [pmWord]

/-! ### O29 -/

section
variable {c : Nat} {i : TI} {s : State} {op : TOp} {cmd : Instr} {sem : TI → Tarn → Eff} {v w : Word} {double : Bool}

/-- A load: registers of `l` written after the address register is stepped. -/
theorem exec_load {f : Tarn → Tarn} {u : Use} {l ps : List Nat} (hcmd : exec cmd s = onDev (runTarn c op sem) s) (h : Next c op i s)
    (hmode : i.mode ≤ 6) (han : i.an < 8) (hf : ∀ t, Writes l ps t (f t)) (hl : 0x34 ∉ l) (hu : u.stores = [])
    (hsem : sem i (issuing c s) = .go (f (modeEA i (if double then 2 else 1) (issuing c s)).2) u none) :
    ∃ t, exec cmd s = .next t ∧ Computes c (l ++ steppedReg i) s t ∧ (0x10 + i.an ∉ l → 0x90 + i.an ∉ ps → SteppedBy c i double s t) ∧
      Issued c i (f (modeEA i (if double then 2 else 1) (issuing c s)).2) [] none s t := by
  have ha := addressed (double := double) (x := issuing c s) hmode
  have w := ha.writes.trans (hf _)
  have h34 : 0x34 ∉ l ++ steppedReg i := by
    rw [List.mem_append, not_or]
    exact ⟨hl, notMem_steppedReg han (by decide)⟩
  obtain ⟨t, ht, hi⟩ := exec_issued h hsem (w.regs _ h34) w.st
  rw [hu] at hi
  exact ⟨t, hcmd ▸ ht, hi.computes w fun n hn => .inl hn, fun hn hp => ha.steppedBy han (hf _) hn hp hi, hi⟩

theorem placesOf_an {n : Nat} (hn : n ≠ 0x10 + i.an) (han : i.an < 8) : 0x90 + i.an ∉ placesOf n := by
  unfold placesOf
  split
  · simp only [List.mem_cons, List.not_mem_nil, or_false]
    omega
  · split
    · rw [List.mem_singleton]
      omega
    · rw [List.mem_singleton]
      omega

theorem ldResults (h : Next c .ld i s) (hv : spaceWord i.sp (address i (issuing c s)) (issuing c s) = some v) :
    ∃ t, exec (.ld c) s = .next t ∧ Computes c (i.rd :: steppedReg i) s t ∧ Took c i.rd v s t ∧ (i.rd ≠ 0x10 + i.an → SteppedBy c i false s t) := by
  obtain ⟨hok, hmode, han⟩ := okL_of_fetch h.1 rfl
  simp only [okL, Bool.and_eq_true] at hok
  have hw := hok.2
  obtain ⟨u, hread, hu⟩ := readSpace_of_spaceWord (halves := 3) hv
  have hsem : ldSem i (issuing c s) = .go (writeReg i.rd v true (modeEA i 1 (issuing c s)).2) u none := by
    rw [ldSem, loadSem, (addressed_single hmode).addr, hread]
    rfl
  obtain ⟨t, ht, hcomputes, hstep, hi⟩ := exec_load (cmd := .ld c) (double := false) (f := writeReg i.rd v true) rfl h hmode han
    (fun _ => Writes.refl.writeReg) (by simpa using (ne_of_isWritable hw).1.symm) hu hsem
  have hst := (addressed_single (x := issuing c s) hmode).writes.regs 0x30 (notMem_steppedReg han (by decide))
  exact ⟨t, ht, hcomputes, took_of_issued hi hst hw, fun hrd => hstep (by simpa using Ne.symm hrd) (by simpa using placesOf_an hrd han)⟩

/-- A half of a word put into a register's word (R275). -/
theorem withHalf_of_half {h : Nat} {old : Word} : withHalf h (if h = 0 then hiHalf v else loHalf v) old =
    if h = 0 then upper v ++ lower old else upper old ++ lower v := by
  by_cases hh : h = 0
  · subst hh
    exact (withHalf_upper _).trans (congrArg (· ++ lower old) (BitVec.ofInt_toInt))
  · rw [if_neg hh, if_neg hh, withHalf_lower hh]
    exact congrArg (upper old ++ ·) BitVec.ofInt_toInt

theorem ldhResults (h : Next c .ldh i s) (hv : spaceWord i.sp (address i (issuing c s)) (issuing c s) = some v) :
    ∃ t, exec (.ldh c) s = .next t ∧ Computes c (i.rd :: steppedReg i) s t ∧ SteppedBy c i false s t ∧
      tr i.rd (tarn c t.dev) = (if i.h = 0 then upper v ++ lower (readReg c i.rd (issuing c s))
        else upper (readReg c i.rd (issuing c s)) ++ lower v : Word).zeroExtend 64 := by
  obtain ⟨hok, hmode, han⟩ := okL_of_fetch h.1 rfl
  simp only [okL, isD, Bool.and_eq_true, decide_eq_true_eq] at hok
  have hrd := hok.2
  have ha := addressed_single (x := issuing c s) hmode
  obtain ⟨u, hread, hu⟩ := readSpace_of_spaceWord (halves := halfOf i.h) hv
  have hold : readReg c i.rd (modeEA i 1 (issuing c s)).2 = readReg c i.rd (issuing c s) :=
    ha.writes.readReg hrd (notMem_steppedReg han (by omega)) (notMem_steppedPlace han (by omega))
  have hsem : ldhSem c i (issuing c s) = .go (writeReg i.rd (if i.h = 0 then upper v ++ lower (readReg c i.rd (issuing c s))
      else upper (readReg c i.rd (issuing c s)) ++ lower v) true (modeEA i 1 (issuing c s)).2) u none := by
    rw [ldhSem, loadSem, ha.addr, hread, ← withHalf_of_half]
    simp only [Option.map_some, orWindow, hold]
  obtain ⟨t, ht, hcomputes, hstep, hi⟩ := exec_load (cmd := .ldh c) (double := false) (f := writeReg i.rd _ true) rfl h hmode han
    (fun _ => Writes.refl.writeReg) (by simp; omega) hu hsem
  refine ⟨t, ht, hcomputes, hstep (by simp; omega) (by simpa using placesOf_an (by omega) han), ?_⟩
  exact (hi.regs _ (by omega) (by omega) (by omega)).trans (tr_writeReg_d hrd)

theorem lddResults (h : Next c .ldd i s) (hv : spaceWord i.sp (address i (issuing c s) &&& 0xFFFE) (issuing c s) = some v)
    (hw : spaceWord i.sp ((address i (issuing c s) &&& 0xFFFE) + 1) (issuing c s) = some w) :
    ∃ t, exec (.ldd c) s = .next t ∧ Computes c (i.rd :: (i.rd + 1) :: steppedReg i) s t ∧ SteppedBy c i true s t ∧
      tr i.rd (tarn c t.dev) = v.zeroExtend 64 ∧ tr (i.rd + 1) (tarn c t.dev) = w.zeroExtend 64 := by
  obtain ⟨hok, hmode, han⟩ := okL_of_fetch h.1 rfl
  simp only [okL, isD, Bool.and_eq_true, decide_eq_true_eq] at hok
  obtain ⟨⟨-, hrd⟩, heven⟩ := hok
  obtain ⟨uv, hreadv, huv⟩ := readSpace_of_spaceWord (halves := 3) hv
  obtain ⟨uw, hreadw, huw⟩ := readSpace_of_spaceWord (halves := 3) hw
  obtain ⟨u, hsem, hu⟩ : ∃ u : Use, lddSem i (issuing c s) =
      .go (writeReg (i.rd + 1) w true (writeReg i.rd v true (modeEA i 2 (issuing c s)).2)) u none ∧ u.stores = [] := by
    unfold lddSem
    simp only [(addressed_double hmode).addr, evenAddr, hreadv, hreadw]
    exact ⟨_, rfl, rfl⟩
  obtain ⟨t, ht, hcomputes, hstep, hi⟩ := exec_load (cmd := .ldd c) (double := true)
    (f := fun t => writeReg (i.rd + 1) w true (writeReg i.rd v true t)) (l := [i.rd, i.rd + 1]) rfl h hmode han
    (fun _ => Writes.refl.writeReg.writeReg.mono (by simp) fun _ h => h) (by simp; omega) hu hsem
  have hnext : Writes _ _ (writeReg i.rd v true (modeEA i 2 (issuing c s)).2) (writeReg (i.rd + 1) w true (writeReg i.rd v true (modeEA i 2 (issuing c s)).2)) :=
    Writes.refl.writeReg
  refine ⟨t, ht, hcomputes, hstep (by simp; omega) ?_, ?_, ?_⟩
  · simpa using ⟨placesOf_an (by omega) han, placesOf_an (by omega) han⟩
  · exact (hi.regs _ (by omega) (by omega) (by omega)).trans ((hnext.regs _ (by simp)).trans (tr_writeReg_d hrd))
  · exact (hi.regs _ (by omega) (by omega) (by omega)).trans (tr_writeReg_d (by omega))

end

/-- Settles O29: a load reads what `spaceWord` gives (`readSpace_of_spaceWord`) and steps its register (`addressed`). -/
theorem loadResults : Obligations.LoadResults := fun _ _ _ _ _ => ⟨ldResults, ldhResults, lddResults⟩

end Sys2Proof.Machine
end

section
/-! PROOF. O30: stores (R225, R233 to R237, R246, R253, R275). -/
namespace Sys2Proof.Machine

/-! ### What a store leaves of a memory (R246) -/

section
variable {a h p k : Nat} {v w : Word} {m : Tab Word}

theorem tabGet_putWord : tabGet (fun _ => 0) (putHalves a 3 v m) k = if k = a then v else tabGet (fun _ => 0) m k := by
  rw [putHalves, tabGet_tabMod, if_pos rfl]

theorem tabGet_putHalf : tabGet (fun _ => 0) (putHalves a (halfOf h) v m) k =
    if k = a then halfPut h v (tabGet (fun _ => 0) m a) else tabGet (fun _ => 0) m k := by
  rw [putHalves, tabGet_tabMod, halfOf, halfPut]
  by_cases hh : h = 0
  · simp [hh, setFld_upper, ofNat_fld_upper]
  · simp [hh, setFld_lower, ofNat_fld_lower]

end

/-! ### V raised by a move or store that narrows (R237) -/

/-- V set where a narrowed value left its width; branches see it at distance 2. -/
def raiseV (b : Bool) (t : Tarn) : Tarn := if b then setFlags none none true false t else t

section
variable {b : Bool} {k : Nat} {t x y : Tarn}

theorem writes_raiseV : Writes [0x30] [0x101, 0x100] t (raiseV b t) := by
  unfold raiseV
  split
  · exact Writes.refl.setFlags
  · exact Writes.refl.mono (by simp) (by simp)

theorem bit_raiseV : bit (tr 0x30 (raiseV b t)) k = if k = 3 then b || bit (tr 0x30 t) 3 else bit (tr 0x30 t) k := by
  cases b with
  | false =>
    have h30 : tr 0x30 (raiseV false t) = tr 0x30 t := rfl
    rw [h30, Bool.false_or]
    split
    · next h => rw [h]
    · rfl
  | true => exact (congrArg (bit · k) (show tr 0x30 (raiseV true t) = tr 0x30 (setAccV true t) from (tr_setTr ..).trans (tr_setTr ..).symm)).trans bit_setAccV

theorem onlyV_of_raiseV (hx : tr 0x30 t = tr 0x30 x) (hy : tr 0x30 y = tr 0x30 (raiseV b t)) : OnlyV b x y := by
  intro k
  rw [hy, bit_raiseV, hx]

end

/-! ### Stores into data memory -/

section
variable {c p : Nat} {i : TI} {s : State} {op : TOp} {cmd : Instr} {sem : TI → Tarn → Eff} {v : Word} {double : Bool}

/-- A store into data memory: its registers, its step, and its one entry retired (R246). -/
theorem exec_store {f : Tarn → Tarn} {e : PendStore} {l ps : List Nat} (hcmd : exec cmd s = onDev (runTarn c op sem) s) (h : Next c op i s)
    (hmode : i.mode ≤ 6) (han : i.an < 8) (hf : ∀ t, Writes l ps t (f t)) (hl : ∀ n ∈ l, n = 0x30) (hps : ∀ n ∈ ps, 0x100 ≤ n)
    (hsem : sem i (issuing c s) = .go (f (modeEA i (if double then 2 else 1) (issuing c s)).2) ⟨[], [e], false⟩ none) :
    ∃ t, exec cmd s = .next t ∧ OnlyCore c s t ∧ OnlyRegs (l ++ steppedReg i) (tarn c s.dev) (tarn c t.dev) ∧ SteppedBy c i double s t ∧
      (∀ k, loadWord (tarn c t.dev) k = tabGet (fun _ => 0) (retire e (loadsSee (tarn c s.dev))) k) ∧
      (tarn c t.dev).cs = (tarn c s.dev).cs ∧ (tarn c t.dev).pm = (tarn c s.dev).pm ∧
      tr 0x30 (tarn c t.dev) = tr 0x30 (f (modeEA i (if double then 2 else 1) (issuing c s)).2) := by
  have ha := addressed (double := double) (x := issuing c s) hmode
  have w := ha.writes.trans (hf _)
  have h34 : 0x34 ∉ l ++ steppedReg i := by
    rw [List.mem_append, not_or]
    exact ⟨fun hm => absurd (hl _ hm) (by decide), notMem_steppedReg han (by decide)⟩
  obtain ⟨t, ht, hi⟩ := exec_issued h hsem (w.regs _ h34) w.st
  refine ⟨t, hcmd ▸ ht, hi.only, fun n hn h1 h2 h3 => (hi.regs n h1 h2 h3).trans (w.regs n hn), ha.steppedBy han (hf _) ?_ ?_ hi, fun k => ?_,
    hi.cs.trans w.cs, hi.pm.trans w.pm, hi.regs _ (by decide) (by decide) (by decide)⟩
  · intro hm
    have := hl _ hm
    omega
  · intro hm
    have := hps _ hm
    omega
  · rw [loadWord, hi.loads, drained_append, w.dm]
    rfl

/-- What the semantics of a store into data memory comes to. -/
theorem storeSem_dm {halves : Nat} {f : Tarn → Tarn} {x : Tarn} (hmode : i.mode ≤ 6) (hsp : i.sp = 0) (hp : dmAddr (address i x) x = some p) :
    storeSem halves v f i x = .go (f (modeEA i 1 x).2) ⟨[], [⟨p, halves, v, none⟩], false⟩ none := by
  simp only [storeSem, hsp, (addressed_single hmode).addr, hp, Option.map_some, orWindow]

theorem storesAt_word {t : State} (hload : ∀ k, loadWord (tarn c t.dev) k = tabGet (fun _ => 0) (retire ⟨p, 3, v, none⟩ (loadsSee (tarn c s.dev))) k)
    (hcs : (tarn c t.dev).cs = (tarn c s.dev).cs) (hpm : (tarn c t.dev).pm = (tarn c s.dev).pm) : StoresAt c p none v s t :=
  ⟨fun k => (hload k).trans tabGet_putWord, hcs, hpm⟩

theorem storesAt_half {t : State} {h : Nat}
    (hload : ∀ k, loadWord (tarn c t.dev) k = tabGet (fun _ => 0) (retire ⟨p, halfOf h, v, none⟩ (loadsSee (tarn c s.dev))) k)
    (hcs : (tarn c t.dev).cs = (tarn c s.dev).cs) (hpm : (tarn c t.dev).pm = (tarn c s.dev).pm) : StoresAt c p (some h) v s t :=
  ⟨fun k => (hload k).trans tabGet_putHalf, hcs, hpm⟩

theorem stResults (h : Next c .st i s) (hsp : i.sp = 0) (hp : dmAddr (address i (issuing c s)) (issuing c s) = some p) :
    ∃ t, exec (.st c) s = .next t ∧ OnlyCore c s t ∧ OnlyRegs (steppedReg i) (tarn c s.dev) (tarn c t.dev) ∧ SteppedBy c i false s t ∧
      StoresAt c p none (readReg c i.rd (issuing c s)) s t := by
  obtain ⟨-, hmode, han⟩ := okL_of_fetch h.1 rfl
  obtain ⟨t, ht, honly, hregs, hstep, hload, hcs, hpm, -⟩ := exec_store (cmd := .st c) (double := false) (f := id) (l := []) (ps := []) rfl h hmode han
    (fun _ => Writes.refl) (by simp) (by simp) (storeSem_dm hmode hsp hp)
  exact ⟨t, ht, honly, hregs, hstep, storesAt_word hload hcs hpm⟩

theorem sthResults (h : Next c .sth i s) (hsp : i.sp = 0) (hp : dmAddr (address i (issuing c s)) (issuing c s) = some p) :
    ∃ t, exec (.sth c) s = .next t ∧ OnlyCore c s t ∧ OnlyRegs (steppedReg i) (tarn c s.dev) (tarn c t.dev) ∧ SteppedBy c i false s t ∧
      StoresAt c p (some i.h) (readReg c i.rd (issuing c s)) s t := by
  obtain ⟨-, hmode, han⟩ := okL_of_fetch h.1 rfl
  obtain ⟨t, ht, honly, hregs, hstep, hload, hcs, hpm, -⟩ := exec_store (cmd := .sth c) (double := false) (f := id) (l := []) (ps := []) rfl h hmode han
    (fun _ => Writes.refl) (by simp) (by simp) (storeSem_dm hmode hsp hp)
  exact ⟨t, ht, honly, hregs, hstep, storesAt_half hload hcs hpm⟩

theorem stdResults (h : Next c .std i s) (hsp : i.sp = 0) (hp : dmAddr (address i (issuing c s) &&& 0xFFFE) (issuing c s) = some p)
    (hp1 : dmAddr ((address i (issuing c s) &&& 0xFFFE) + 1) (issuing c s) ≠ none) :
    ∃ t, exec (.std c) s = .next t ∧ OnlyCore c s t ∧ OnlyRegs (steppedReg i) (tarn c s.dev) (tarn c t.dev) ∧ SteppedBy c i true s t ∧
      (∀ k, loadWord (tarn c t.dev) k = if k = (p + 1) % 65536 then readReg c (i.rd + 1) (issuing c s) else if k = p then readReg c i.rd (issuing c s)
        else loadWord (tarn c s.dev) k) ∧ (tarn c t.dev).cs = (tarn c s.dev).cs ∧ (tarn c t.dev).pm = (tarn c s.dev).pm := by
  obtain ⟨-, hmode, han⟩ := okL_of_fetch h.1 rfl
  obtain ⟨q, hq⟩ := Option.ne_none_iff_exists'.1 hp1
  have hsem : stdSem c i (issuing c s) = .go (modeEA i 2 (issuing c s)).2
      ⟨[], [⟨p, 3, readReg c i.rd (issuing c s), some (readReg c (i.rd + 1) (issuing c s))⟩], false⟩ none := by
    simp only [stdSem, hsp, (addressed_double hmode).addr, evenAddr, hp, hq, orWindow]
  obtain ⟨t, ht, honly, hregs, hstep, hload, hcs, hpm, -⟩ := exec_store (cmd := .std c) (double := true) (f := id) (l := []) (ps := []) rfl h hmode han
    (fun _ => Writes.refl) (by simp) (by simp) hsem
  refine ⟨t, ht, honly, hregs, hstep, fun k => (hload k).trans ?_, hcs, hpm⟩
  rw [retire, tabGet_putWord, tabGet_putWord]
  rfl

/-- What STA narrows ACn to (R237, R275). -/
def staGives (i : TI) (x : Tarn) : Word :=
  let re := accSeenInt i.acn 0 x
  let im := accSeenInt i.acn 1 x
  let half := clipped 18 (satOf x) (kept18 (rndOf x) re)
  match i.sz with
  | 0 => clipped 36 (satOf x) re
  | 1 => clipped 36 (satOf x) im
  | 2 => pairKept (rndOf x) (satOf x) re im
  | _ => half ++ half

/-- V of STA. -/
def staV (i : TI) (x : Tarn) : Bool :=
  let re := accSeenInt i.acn 0 x
  let im := accSeenInt i.acn 1 x
  match i.sz with
  | 0 => leaves 36 re
  | 1 => leaves 36 im
  | 2 => leaves 18 (kept18 (rndOf x) re) || leaves 18 (kept18 (rndOf x) im)
  | _ => leaves 18 (kept18 (rndOf x) re)

theorem staSem_stores (x : Tarn) : staSem i x = storeSem (if i.sz = 3 then halfOf i.h else 3) (staGives i x) (raiseV (staV i x)) i x := by
  unfold staSem staGives staV
  match i.sz with
  | 0 => simp only [narrowWord_eq]; rfl
  | 1 => simp only [narrowWord_eq]; rfl
  | 2 => simp only [narrowPair_eq]; rfl
  | n + 3 => simp only [pairOf, ofInt_narrowHalf, narrowHalf_v]; rfl

theorem staResults (h : Next c .sta i s) (hp : dmAddr (address i (issuing c s)) (issuing c s) = some p) :
    ∃ t, exec (.sta c) s = .next t ∧ OnlyCore c s t ∧ OnlyRegs (0x30 :: steppedReg i) (tarn c s.dev) (tarn c t.dev) ∧ SteppedBy c i false s t ∧
      StoresAt c p (if i.sz = 3 then some i.h else none) (staGives i (issuing c s)) s t ∧
      OnlyV (staV i (issuing c s)) (tarn c s.dev) (tarn c t.dev) := by
  obtain ⟨hok, hmode, han⟩ := okL_of_fetch h.1 rfl
  simp only [okL, Bool.and_eq_true, decide_eq_true_eq] at hok
  obtain ⟨t, ht, honly, hregs, hstep, hload, hcs, hpm, hst⟩ := exec_store (cmd := .sta c) (double := false) rfl h hmode han
    (fun _ => writes_raiseV) (by simp) (by simp) ((staSem_stores _).trans (storeSem_dm hmode hok.1 hp))
  have hst0 := (addressed_single (x := issuing c s) hmode).writes.regs 0x30 (notMem_steppedReg han (by decide))
  refine ⟨t, ht, honly, hregs, hstep, ?_, onlyV_of_raiseV hst0 hst⟩
  by_cases hsz : i.sz = 3
  · rw [if_pos hsz] at hload ⊢
    exact storesAt_half hload hcs hpm
  · rw [if_neg hsz] at hload ⊢
    exact storesAt_word hload hcs hpm

end

theorem storeResults : StoreResults := fun _ _ _ _ => ⟨stResults, sthResults, stdResults, staResults⟩

/-! ### Stores into the constant store and program memory -/

section
variable {c : Nat} {i : TI} {s : State} {op : TOp} {cmd : Instr} {sem : TI → Tarn → Eff} {v : Word} {double : Bool}

/-- A store outside data memory: `y` differs from the stepped core only in the stores. -/
theorem exec_storeApart {y : Tarn} (hcmd : exec cmd s = onDev (runTarn c op sem) s) (h : Next c op i s) (hmode : i.mode ≤ 6) (han : i.an < 8)
    (hsem : sem i (issuing c s) = .go y Use.none none) (hr : y.r = (modeEA i (if double then 2 else 1) (issuing c s)).2.r) (hdm : y.dm = (modeEA i (if double then 2 else 1) (issuing c s)).2.dm)
    (hst : y.st = (modeEA i (if double then 2 else 1) (issuing c s)).2.st) :
    ∃ t, exec cmd s = .next t ∧ (OnlyCore c s t ∧ OnlyRegs (steppedReg i) (tarn c s.dev) (tarn c t.dev) ∧
      ∀ k, loadWord (tarn c t.dev) k = loadWord (tarn c s.dev) k) ∧ Issued c i y [] none s t := by
  have w := (addressed (double := double) (x := issuing c s) hmode).writes
  have hregs (n : Nat) : tr n y = tr n (modeEA i (if double then 2 else 1) (issuing c s)).2 := by rw [tr, hr, tr]
  obtain ⟨t, ht, hi⟩ := exec_issued h hsem ((hregs _).trans (w.regs _ (notMem_steppedReg han (by decide)))) (hst.trans w.st)
  refine ⟨t, hcmd ▸ ht, ⟨hi.only, fun n hn h1 h2 h3 => (hi.regs n h1 h2 h3).trans ((hregs n).trans (w.regs n hn)), fun k => ?_⟩, hi⟩
  rw [loadWord, hi.loads, hdm, w.dm, Use.none, List.append_nil]
  rfl

theorem tabGet_csPut {a k : Nat} {t : Tarn} :
    tabGet (fun _ => 0) (csPut a v t).cs k = if k = a % 4096 then v else tabGet (fun _ => 0) t.cs k := tabGet_tabSet ..

/-- ST and STH into the constant store. -/
theorem storeSem_cs {halves : Nat} {x : Tarn} (hmode : i.mode ≤ 6) (hsp : i.sp = 1) : storeSem halves v id i x =
    .go (csPut (address i x).toNat (if halves = 3 then v else if halves = 2 then withHalf 0 (hiHalf v) (csWord (address i x) x)
      else withHalf 1 (loHalf v) (csWord (address i x) x)) (modeEA i 1 x).2) Use.none none := by
  simp only [storeSem, hsp, (addressed_single hmode).addr, orWindow, id]

/-- The word STH leaves in the constant store. -/
theorem halfStored {h : Nat} {old : Word} : (if halfOf h = 3 then v else if halfOf h = 2 then withHalf 0 (hiHalf v) old else withHalf 1 (loHalf v) old) =
    halfPut h v old := by
  unfold halfOf halfPut
  by_cases hh : h = 0
  · simp only [if_pos hh]
    exact (withHalf_upper _).trans (congrArg (· ++ lower old) BitVec.ofInt_toInt)
  · simp only [if_neg hh]
    exact (withHalf_lower one_ne_zero _).trans (congrArg (upper old ++ ·) BitVec.ofInt_toInt)

theorem st_csResults (h : Next c .st i s) (hsp : i.sp = 1) : ∃ t, exec (.st c) s = .next t ∧ (OnlyCore c s t ∧
      OnlyRegs (steppedReg i) (tarn c s.dev) (tarn c t.dev) ∧ ∀ k, loadWord (tarn c t.dev) k = loadWord (tarn c s.dev) k) ∧
    (tarn c t.dev).pm = (tarn c s.dev).pm ∧ ∀ k, tabGet (fun _ => 0) (tarn c t.dev).cs k =
      if k = (address i (issuing c s)).toNat % 4096 then readReg c i.rd (issuing c s) else tabGet (fun _ => 0) (tarn c s.dev).cs k := by
  obtain ⟨-, hmode, han⟩ := okL_of_fetch h.1 rfl
  have w := (addressed_single (x := issuing c s) hmode).writes
  obtain ⟨t, ht, honly, hi⟩ := exec_storeApart (cmd := .st c) (double := false) rfl h hmode han (storeSem_cs hmode hsp) rfl rfl rfl
  refine ⟨t, ht, honly, hi.pm.trans w.pm, fun k => ?_⟩
  rw [hi.cs, tabGet_csPut, w.cs]
  rfl

theorem sth_csResults (h : Next c .sth i s) (hsp : i.sp = 1) : ∃ t, exec (.sth c) s = .next t ∧ (OnlyCore c s t ∧
      OnlyRegs (steppedReg i) (tarn c s.dev) (tarn c t.dev) ∧ ∀ k, loadWord (tarn c t.dev) k = loadWord (tarn c s.dev) k) ∧
    (tarn c t.dev).pm = (tarn c s.dev).pm ∧ ∀ k, tabGet (fun _ => 0) (tarn c t.dev).cs k =
      if k = (address i (issuing c s)).toNat % 4096 then halfPut i.h (readReg c i.rd (issuing c s)) (tabGet (fun _ => 0) (tarn c s.dev).cs k)
      else tabGet (fun _ => 0) (tarn c s.dev).cs k := by
  obtain ⟨-, hmode, han⟩ := okL_of_fetch h.1 rfl
  have w := (addressed_single (x := issuing c s) hmode).writes
  obtain ⟨t, ht, honly, hi⟩ := exec_storeApart (cmd := .sth c) (double := false) rfl h hmode han (storeSem_cs hmode hsp) rfl rfl rfl
  refine ⟨t, ht, honly, hi.pm.trans w.pm, fun k => ?_⟩
  rw [hi.cs, tabGet_csPut, w.cs, halfStored]
  by_cases hk : k = (address i (issuing c s)).toNat % 4096
  · rw [if_pos hk, if_pos hk, hk]
    rfl
  · rw [if_neg hk, if_neg hk]
    rfl

theorem std_csResults (h : Next c .std i s) (hsp : i.sp = 1) : ∃ t, exec (.std c) s = .next t ∧ (OnlyCore c s t ∧
      OnlyRegs (steppedReg i) (tarn c s.dev) (tarn c t.dev) ∧ ∀ k, loadWord (tarn c t.dev) k = loadWord (tarn c s.dev) k) ∧
    (tarn c t.dev).pm = (tarn c s.dev).pm ∧ ∀ k, tabGet (fun _ => 0) (tarn c t.dev).cs k =
      if k = ((address i (issuing c s) &&& 0xFFFE).toNat + 1) % 4096 then readReg c (i.rd + 1) (issuing c s)
      else if k = (address i (issuing c s) &&& 0xFFFE).toNat % 4096 then readReg c i.rd (issuing c s) else tabGet (fun _ => 0) (tarn c s.dev).cs k := by
  obtain ⟨-, hmode, han⟩ := okL_of_fetch h.1 rfl
  have w := (addressed_double (x := issuing c s) hmode).writes
  have hsem : stdSem c i (issuing c s) = .go (csPut ((address i (issuing c s) &&& 0xFFFE).toNat + 1) (readReg c (i.rd + 1) (issuing c s))
      (csPut (address i (issuing c s) &&& 0xFFFE).toNat (readReg c i.rd (issuing c s)) (modeEA i 2 (issuing c s)).2)) Use.none none := by
    simp only [stdSem, hsp, (addressed_double hmode).addr, evenAddr, orWindow]
  obtain ⟨t, ht, honly, hi⟩ := exec_storeApart (cmd := .std c) (double := true) rfl h hmode han hsem rfl rfl rfl
  refine ⟨t, ht, honly, hi.pm.trans w.pm, fun k => ?_⟩
  rw [hi.cs, tabGet_csPut, tabGet_csPut, w.cs]
  rfl

theorem st_pmResults (h : Next c .st i s) (hsp : i.sp = 2) (hlc : loopReg 0x31 (issuing c s) = 0) : ∃ t, exec (.st c) s = .next t ∧
    (OnlyCore c s t ∧ OnlyRegs (steppedReg i) (tarn c s.dev) (tarn c t.dev) ∧ ∀ k, loadWord (tarn c t.dev) k = loadWord (tarn c s.dev) k) ∧
    (tarn c t.dev).cs = (tarn c s.dev).cs ∧ (tarn c t.dev).cache = none ∧ ∀ k, k < 16384 → pmWord k (tarn c t.dev) =
      if k = (address i (issuing c s)).toNat % 16384 then readReg c i.rd (issuing c s) else pmWord k (tarn c s.dev) := by
  obtain ⟨-, hmode, han⟩ := okL_of_fetch h.1 rfl
  have w := (addressed_single (x := issuing c s) hmode).writes
  have hsem : stSem c i (issuing c s) =
      .go (pmPut (address i (issuing c s)).toNat (readReg c i.rd (issuing c s)) (modeEA i 1 (issuing c s)).2) Use.none none := by
    simp only [stSem, storeSem, hsp, (addressed_single hmode).addr, orWindow, id]
  obtain ⟨t, ht, honly, hi⟩ := exec_storeApart (cmd := .st c) (double := false) rfl h hmode han hsem rfl rfl rfl
  obtain ⟨-, -, hcache, -⟩ := hi.noLoop hlc
  refine ⟨t, ht, honly, hi.cs.trans w.cs, hcache, fun k hk => ?_⟩
  rw [pmWord, hi.pm, Nat.mod_eq_of_lt hk, pmWord, Nat.mod_eq_of_lt hk, pmPut, tabGet_tabSet, w.pm]
  rfl

end

theorem supervisorStores : SupervisorStores := fun _ _ _ => ⟨st_csResults, sth_csResults, std_csResults, st_pmResults⟩

/-- Settles O30: a store retires one entry at the address of its mode (`exec_store`), or changes one word of a store apart (`exec_storeApart`). -/
theorem storesToEverySpace : Obligations.StoresToEverySpace := ⟨storeResults, supervisorStores⟩

end Sys2Proof.Machine
end

section
/-! PROOF. O28: multiply-accumulates and parallel moves (R236, R270, R276). -/
namespace Sys2Proof.Machine

/-! ### One part of a multiply-accumulate -/

/-- From `x` to `y` a part of an instruction of format M wrote registers of `l`, none of them ST or a window bound, and raised V where `v`. -/
structure MacStep (l ps : List Nat) (v : Bool) (x y : Tarn) : Prop where
  writes : Writes (0x30 :: l) (0x101 :: 0x100 :: ps) x y
  apart : ∀ n ∈ l, n < 0x30 ∨ 0x40 ≤ n
  onlyV : OnlyV v x y

section
variable {c n m : Nat} {l k ps qs : List Nat} {v u : Bool} {x y z t : Tarn}

theorem onlyV_refl (h : tr 0x30 y = tr 0x30 x) : OnlyV false x y := by
  intro k
  rw [h, Bool.false_or]
  split
  · next hk => rw [hk]
  · rfl

theorem onlyV_trans (h : OnlyV v x y) (g : OnlyV u y z) : OnlyV (v || u) x z := by
  intro k
  rw [g k, h 3, h k, if_pos rfl]
  split
  · rw [← Bool.or_assoc, Bool.or_comm u v]
  · rfl

theorem MacStep.refl : MacStep [] [] false x x := ⟨Writes.refl.mono (by simp) (by simp), by simp, onlyV_refl rfl⟩

theorem MacStep.trans (h : MacStep l ps v x y) (g : MacStep k qs u y z) : MacStep (l ++ k) (ps ++ qs) (v || u) x z where
  writes := (h.writes.trans g.writes).mono (by grind) (by grind)
  apart n hn := (List.mem_append.1 hn).elim (h.apart n) (g.apart n)
  onlyV := onlyV_trans h.onlyV g.onlyV

/-- A part that writes no flag. -/
theorem macStep_of_writes (w : Writes l ps x y) (hl : ∀ n ∈ l, n < 0x30 ∨ 0x40 ≤ n) : MacStep l ps false x y :=
  ⟨w.mono (List.subset_cons_self _ _) (by simp), hl, onlyV_refl (w.regs _ fun h => by have := hl _ h; omega)⟩

theorem macStep_raiseV : MacStep [] [] v x (raiseV v x) := ⟨writes_raiseV, by simp, onlyV_of_raiseV rfl rfl⟩

theorem MacStep.tr (h : MacStep l ps v x y) (hn : n ≠ 0x30) (hl : n ∉ l) : tr n y = tr n x :=
  h.writes.regs n (by rw [List.mem_cons, not_or]; exact ⟨hn, hl⟩)

theorem MacStep.userMode (h : MacStep l ps v x y) : userMode y = userMode x := by
  have := h.onlyV 15
  rwa [if_neg (by decide)] at this

theorem MacStep.agReg (h : MacStep l ps v x y) (hn : n < 0x30) (hl : n ∉ l) (hp : 0x80 + n ∉ ps) : agReg n y = agReg n x := by
  refine h.writes.agReg ?_ ?_
  · rw [List.mem_cons, not_or]
    exact ⟨by omega, hl⟩
  · rw [List.mem_cons, List.mem_cons, not_or, not_or]
    exact ⟨by omega, by omega, hp⟩

theorem MacStep.readReg (h : MacStep l ps v x y) (hn : n < 16) (hl : n ∉ l) (hp : n ∉ ps) : readReg c n y = readReg c n x := by
  refine h.writes.readReg hn ?_ ?_
  · rw [List.mem_cons, not_or]
    exact ⟨by omega, hl⟩
  · rw [List.mem_cons, List.mem_cons, not_or, not_or]
    exact ⟨by omega, by omega, hp⟩

theorem MacStep.dmAddr {a : BitVec 16} (h : MacStep l ps v x y) : dmAddr a y = dmAddr a x := by
  unfold Machine.dmAddr
  rw [h.userMode, h.tr (by decide) fun hm => by have := h.apart _ hm; omega, h.tr (by decide) fun hm => by have := h.apart _ hm; omega]

theorem MacStep.pointed (h : MacStep l ps v x y) (hn : n < 8) (hl : 0x10 + n ∉ l) (hp : 0x90 + n ∉ ps) : pointed n y = pointed n x := by
  have hplace : 0x80 + (0x10 + n) = 0x90 + n := by omega
  unfold Sys2Proof.pointed
  rw [h.agReg (by omega) hl (by rwa [hplace]), h.dmAddr]

theorem MacStep.loadsSee (h : MacStep l ps v x y) : loadsSee y = loadsSee x := by
  unfold Sys2Proof.loadsSee
  rw [h.writes.dm, h.writes.sb]

theorem MacStep.spaceWord {sp : Nat} {a : BitVec 16} (h : MacStep l ps v x y) : spaceWord sp a y = spaceWord sp a x := by
  unfold Sys2Proof.spaceWord loadWord csWord pmWord
  rw [h.dmAddr, h.userMode, h.loadsSee, h.writes.cs, h.writes.pm]

/-- An operand address and the step of its register (R270). -/
theorem macEA_step {code : Nat} (hn : n < 8) : (macEA n code x).1 = agReg (0x10 + n) x ∧ MacStep [0x10 + n] [0x90 + n] false x (macEA n code x).2 := by
  have step {δ : Int} : MacStep [0x10 + n] [0x90 + n] false x (postMod n δ x) :=
    macStep_of_writes Writes.refl.postMod fun m hm => .inl (by have := List.mem_singleton.1 hm; omega)
  unfold macEA
  split
  · exact ⟨rfl, macStep_of_writes (Writes.refl.mono (by simp) (by simp)) fun m hm => .inl (by have := List.mem_singleton.1 hm; omega)⟩
  · exact ⟨rfl, step⟩
  · exact ⟨rfl, step⟩
  · exact ⟨rfl, step⟩

end

/-! ### Operands (R270) -/

section
variable {c : Nat} {i : TI} {x y : Tarn} {vx vy : Word} {l ps : List Nat} {v : Bool}

/-- The address register, or the place of it, that X steps. -/
def xStepped (i : TI) (base : Nat) : List Nat := if i.xs < 16 then [base + i.xs / 8] else []
/-- The address register, or the place of it, that Y steps. -/
def yStepped (i : TI) (base : Nat) : List Nat := if ySpace i.ys = 0 then [] else [base + 4 + i.ys / 4 % 4]

theorem xOperand_reads (h : xWord c i x = some vx) :
    ∃ y u, xOperand c i.xs x = some (vx, y, u) ∧ u.stores = [] ∧ MacStep (xStepped i 0x10) (xStepped i 0x90) false x y := by
  unfold xWord at h
  unfold xOperand xStepped
  by_cases hx : 16 ≤ i.xs
  · rw [if_pos hx] at h
    obtain rfl := Option.some.inj h
    simp only [if_pos hx, if_neg (Nat.not_lt.2 hx)]
    exact ⟨x, Use.none, rfl, rfl, MacStep.refl⟩
  · rw [if_neg hx] at h
    obtain ⟨haddr, hstep⟩ := macEA_step (n := i.xs / 8) (code := i.xs / 2 % 4) (x := x) (by omega)
    obtain ⟨u, hread, hu⟩ := readSpace_of_spaceWord (sp := 0) (halves := 3) h
    simp only [if_neg hx, if_pos (Nat.lt_of_not_le hx), haddr, hread]
    exact ⟨_, u, rfl, hu, hstep⟩

/-- Y is read after X's register was stepped, which Y's are not among. -/
theorem yOperand_reads (hs : MacStep (xStepped i 0x10) (xStepped i 0x90) v x y) (h : yWord c i x = some vy) :
    ∃ z u, yOperand c i.ys y = some (vy, z, u) ∧ u.stores = [] ∧ MacStep (yStepped i 0x10) (yStepped i 0x90) false y z := by
  have hx {n base : Nat} (hn : n < base ∨ base + 2 ≤ n) : n ∉ xStepped i base := by
    unfold xStepped
    split
    · rw [List.mem_singleton]
      omega
    · simp
  unfold yWord at h
  unfold yOperand yStepped
  by_cases hy : ySpace i.ys = 0
  · simp only [hy] at h
    obtain rfl := Option.some.inj h
    simp only [if_pos hy]
    refine ⟨y, Use.none, ?_, rfl, MacStep.refl⟩
    rw [hs.readReg (Nat.mod_lt _ (by decide)) (hx (by omega)) (hx (by omega))]
  · have hn : 4 + i.ys / 4 % 4 < 8 := by omega
    have hword : spaceWord (ySpace i.ys - 1) (agReg (0x10 + (4 + i.ys / 4 % 4)) x) x = some vy := by
      rw [← h]
      match hspace : ySpace i.ys with
      | 0 => exact absurd hspace hy
      | 1 => rfl
      | 2 => rfl
      | k + 3 => rfl
    rw [← hs.spaceWord, ← hs.agReg (by omega) (hx (by omega)) (hx (by omega))] at hword
    obtain ⟨haddr, hstep⟩ := macEA_step (n := 4 + i.ys / 4 % 4) (code := i.ys % 4) (x := y) hn
    obtain ⟨u, hread, hu⟩ := readSpace_of_spaceWord (halves := 3) hword
    simp only [if_neg hy, haddr, hread]
    exact ⟨_, u, rfl, hu, by rwa [Nat.add_assoc, Nat.add_assoc]⟩

end

/-! ### Parallel moves (R276) -/

section
variable {c n m : Nat} {i : TI} {x y t : Tarn} {l ps : List Nat} {v : Bool} {more : List PendStore}

/-- The registers, or their places, of a parallel move through A`n`. -/
def moveWritten (m a : Nat) : List Nat := (if mvKind m = 0 then [] else [a]) ++ (if mvKind m = 1 then [mvReg m] else [])

theorem notMem_moveWritten {k a : Nat} (hk : 16 ≤ k) (ha : k ≠ a) : k ∉ moveWritten m a := by
  have hreg : mvReg m < 16 := Nat.mod_lt _ (by decide)
  unfold moveWritten
  rw [List.mem_append, not_or]
  refine ⟨?_, ?_⟩
  · split
    · simp
    · simpa using ha
  · split
    · rw [List.mem_singleton]
      omega
    · simp

theorem mvReg_lt : mvReg m < 16 := Nat.mod_lt _ (by decide)

theorem moveSource_eq (h : mvKind m = 3) : moveSource c m x =
    (pairKept (rndOf x) (satOf x) (accSeenInt (mvReg m) 0 x) (accSeenInt (mvReg m) 1 x), moveV m x) := by
  unfold moveSource moveV
  rw [if_neg (by omega), narrowPair_eq, h]
  rfl

theorem moveStores_load (h : mvKind m ≤ 1) : moveStores c n m x = [] := by
  unfold moveStores
  split
  · omega
  · omega
  · rfl

theorem moveStores_register {a : Nat} (h : mvKind m = 2) (ha : pointed n x = some a) : moveStores c n m x = [⟨a, 3, readReg c (mvReg m) x, none⟩] := by
  unfold moveStores
  rw [h, ha]
  rfl

theorem moveStores_acc {a : Nat} (h : mvKind m = 3) (ha : pointed n x = some a) : moveStores c n m x = [⟨a, 3, (moveSource c m x).1, none⟩] := by
  unfold moveStores
  rw [moveSource_eq h, h, ha]
  rfl

theorem moveV_of_ne (h : mvKind m ≠ 3) : moveV m x = false := by simp [moveV, h]

/-- A parallel move: what it reads it reads from the core before the instruction, but for the stores of the move before it. -/
theorem moveSem_moves (hm : m < 128) (hn : n < 8) (hs : MacStep l ps v x t) (hl : 0x10 + n ∉ l) (hp : 0x90 + n ∉ ps)
    (hpoint : mvKind m ≠ 0 → pointed n x ≠ none) :
    ∃ y u, moveSem c n m more x t = some (y, u) ∧ u.stores = moveStores c n m x ∧
      MacStep (moveWritten m (0x10 + n)) (moveWritten m (0x90 + n)) (moveV m x) t y ∧
      (mvKind m = 1 → ∀ a, pointed n x = some a → tr (mvReg m) y = (tabGet (fun _ => 0) (drained more (loadsSee x)) a).zeroExtend 64) := by
  have hreg := mvReg_lt (m := m)
  have hkind : mvKind m = 0 ∨ mvKind m = 1 ∨ mvKind m = 2 ∨ mvKind m = 3 := by
    unfold mvKind
    omega
  unfold moveSem moveWritten
  obtain hk | hk := Classical.em (mvKind m = 0)
  · rw [moveStores_load (by omega), moveV_of_ne (by omega)]
    simp only [hk]
    exact ⟨t, Use.none, rfl, rfl, MacStep.refl, fun h => absurd h (by decide)⟩
  · obtain ⟨a, ha⟩ := Option.ne_none_iff_exists'.1 (hpoint hk)
    obtain ⟨haddr, hstep⟩ := macEA_step (n := n) (code := if m % 2 = 0 then 1 else 3) (x := t) hn
    have hat : dmAddr (macEA n (if m % 2 = 0 then 1 else 3) t).1 t = some a := by
      rw [haddr]
      exact (hs.pointed hn hl hp).trans ha
    simp only [if_neg hk]
    rcases hkind.resolve_left hk with hk | hk | hk
    · have hword : dmWord a more t = tabGet (fun _ => 0) (drained more (loadsSee x)) a := by
        rw [← hs.loadsSee, dmWord, drained_append]
        rfl
      rw [moveStores_load (by omega), moveV_of_ne (by omega)]
      simp only [hk, readSpace, hat, Option.map_some, hword]
      refine ⟨_, _, rfl, rfl, hstep.trans (macStep_of_writes (Writes.refl.writeReg.mono (by simp) ?_) (by simp; omega)), fun _ b hb => ?_⟩
      · unfold placesOf
        rw [if_neg (by omega), if_pos hreg]
        simp
      · obtain rfl : a = b := Option.some.inj (ha.symm.trans hb)
        exact tr_writeReg_d hreg
    · rw [moveStores_register hk ha, moveV_of_ne (by omega)]
      simp only [hk, hat, moveSource]
      exact ⟨_, _, rfl, rfl, hstep, fun h => absurd h (by decide)⟩
    · rw [moveStores_acc hk ha]
      simp only [hk, hat, moveSource_eq hk]
      exact ⟨_, _, rfl, rfl, hstep.trans macStep_raiseV, fun h => absurd h (by decide)⟩

/-- Both moves, MV2 after MV1. -/
theorem movesSem_moves {u : Use} (h1 : i.mv1 < 128) (h2 : i.mv2 < 128) (hne : mvKind i.mv1 = 1 → mvKind i.mv2 = 1 → mvReg i.mv1 ≠ mvReg i.mv2)
    (hs : MacStep l ps v x t) (hl : ∀ k ∈ l, k ≠ 0x12 ∧ k ≠ 0x13) (hps : ∀ k ∈ ps, k ≠ 0x92 ∧ k ≠ 0x93)
    (hp1 : mvKind i.mv1 ≠ 0 → pointed 2 x ≠ none) (hp2 : mvKind i.mv2 ≠ 0 → pointed 3 x ≠ none) :
    ∃ y w, movesSem c i x t u = some (y, w) ∧ w.stores = u.stores ++ (moveStores c 2 i.mv1 x ++ moveStores c 3 i.mv2 x) ∧
      MacStep (moveWritten i.mv1 0x12 ++ moveWritten i.mv2 0x13) (moveWritten i.mv1 0x92 ++ moveWritten i.mv2 0x93) (moveV i.mv1 x || moveV i.mv2 x) t y ∧
      (mvKind i.mv1 = 1 → ∀ a, pointed 2 x = some a → tr (mvReg i.mv1) y = (loadWord x a).zeroExtend 64) ∧
      (mvKind i.mv2 = 1 → ∀ a, pointed 3 x = some a →
        tr (mvReg i.mv2) y = (tabGet (fun _ => 0) (drained (moveStores c 2 i.mv1 x) (loadsSee x)) a).zeroExtend 64) := by
  have hreg1 := mvReg_lt (m := i.mv1)
  obtain ⟨y1, u1, hy1, hu1, hs1, hload1⟩ := moveSem_moves (c := c) (n := 2) (more := []) h1 (by decide) hs
    (fun h => (hl _ h).1 rfl) (fun h => (hps _ h).1 rfl) hp1
  obtain ⟨y2, u2, hy2, hu2, hs2, hload2⟩ := moveSem_moves (c := c) (n := 3) (more := u1.stores) h2 (by decide) (hs.trans hs1)
    (by rw [List.mem_append, not_or]; exact ⟨fun h => (hl _ h).2 rfl, notMem_moveWritten (by decide) (by decide)⟩)
    (by rw [List.mem_append, not_or]; exact ⟨fun h => (hps _ h).2 rfl, notMem_moveWritten (by decide) (by decide)⟩) hp2
  refine ⟨y2, u.and (u1.and u2), by simp [movesSem, hy1, hy2], by simp [Use.and, hu1, hu2], hs1.trans hs2, fun hk a ha => ?_, fun hk a ha => ?_⟩
  · rw [hs2.tr (by omega) ?_, hload1 hk a ha]
    · rfl
    · unfold moveWritten
      rw [List.mem_append, not_or]
      refine ⟨?_, ?_⟩
      · split
        · simp
        · rw [List.mem_singleton]
          omega
      · split
        · next hk2 => simpa using hne hk hk2
        · simp
  · rw [hload2 hk a ha, hu1]

/-- Stores of one word each leave the other words. -/
theorem tabGet_drained_apart {a : Nat} : ∀ {l : List PendStore} {dm : Tab Word}, (∀ e ∈ l, e.addr ≠ a ∧ e.two = none ∧ e.halves = 3) →
    tabGet (fun _ => 0) (drained l dm) a = tabGet (fun _ => 0) dm a
  | [], _, _ => rfl
  | e :: l, dm, h => by
    obtain ⟨haddr, htwo, hhalves⟩ := h e (List.mem_cons_self ..)
    have ih := tabGet_drained_apart (l := l) (dm := retire e dm) fun e he => h e (List.mem_cons_of_mem _ he)
    refine ih.trans ?_
    simp only [retire, htwo, hhalves]
    rw [tabGet_putWord, if_neg (Ne.symm haddr)]

theorem moveStores_word {e : PendStore} (h : e ∈ moveStores c n m x) : e.two = none ∧ e.halves = 3 := by
  unfold moveStores at h
  split at h
  · rw [List.mem_singleton.1 h]
    exact ⟨rfl, rfl⟩
  · rw [List.mem_singleton.1 h]
    exact ⟨rfl, rfl⟩
  · cases h

end

/-! ### O28 -/

section
variable {c : Nat} {i : TI} {s : State} {op : TOp} {cmd : Instr} {sem : TI → Tarn → Eff}

/-- What an instruction of format M leaves: it wrote registers of `l`, raised V where `v`, and made its moves (R276). -/
structure MacLeaves (c : Nat) (i : TI) (l : List Nat) (v : Bool) (s t : State) : Prop where
  core : OnlyCore c s t
  regs : OnlyRegs l (tarn c s.dev) (tarn c t.dev)
  onlyV : OnlyV (v || moveV i.mv1 (issuing c s) || moveV i.mv2 (issuing c s)) (tarn c s.dev) (tarn c t.dev)
  load1 : mvKind i.mv1 = 1 → ∀ a, pointed 2 (issuing c s) = some a → tr (mvReg i.mv1) (tarn c t.dev) = (loadWord (issuing c s) a).zeroExtend 64
  load2 : mvKind i.mv2 = 1 → ∀ a, pointed 3 (issuing c s) = some a → tr (mvReg i.mv2) (tarn c t.dev) =
    (tabGet (fun _ => 0) (drained (moveStores c 2 i.mv1 (issuing c s)) (loadsSee (issuing c s))) a).zeroExtend 64
  mem : ∀ a, loadWord (tarn c t.dev) a = tabGet (fun _ => 0)
    (drained (moveStores c 2 i.mv1 (issuing c s) ++ moveStores c 3 i.mv2 (issuing c s)) (loadsSee (issuing c s))) a
  stores : (tarn c t.dev).cs = (tarn c s.dev).cs ∧ (tarn c t.dev).pm = (tarn c s.dev).pm

/-- The words that no move stores stand. -/
theorem MacLeaves.apart {l : List Nat} {v : Bool} {t : State} (h : MacLeaves c i l v s t) (a : Nat)
    (ha : ∀ e ∈ moveStores c 2 i.mv1 (issuing c s) ++ moveStores c 3 i.mv2 (issuing c s), e.addr ≠ a) :
    loadWord (tarn c t.dev) a = loadWord (tarn c s.dev) a := by
  refine (h.mem a).trans (tabGet_drained_apart fun e he => ⟨ha e he, ?_⟩)
  exact (List.mem_append.1 he).elim moveStores_word moveStores_word

/-- An instruction of format M once its parts before the moves have left `y`. -/
theorem exec_moves {l ps : List Nat} {v : Bool} {y : Tarn} {u : Use} (hcmd : exec cmd s = onDev (runTarn c op sem) s) (h : Next c op i s)
    (hf : formatOf op = 3) (hu : u.stores = []) (hs : MacStep l ps v (issuing c s) y)
    (hl : ∀ k ∈ l, k ≠ 0x12 ∧ k ≠ 0x13) (hps : ∀ k ∈ ps, k ≠ 0x92 ∧ k ≠ 0x93)
    (hp1 : mvKind i.mv1 ≠ 0 → pointed 2 (issuing c s) ≠ none) (hp2 : mvKind i.mv2 ≠ 0 → pointed 3 (issuing c s) ≠ none)
    (hsem : sem i (issuing c s) = orWindow (movesSem c i (issuing c s) y u)) :
    ∃ t, exec cmd s = .next t ∧ MacLeaves c i (0x30 :: (l ++ (moveWritten i.mv1 0x12 ++ moveWritten i.mv2 0x13))) v s t ∧
      ∀ n, 0x40 ≤ n → tr n (tarn c t.dev) = tr n y := by
  obtain ⟨h1, h2, hne⟩ := moves_of_fetch h.1 hf
  have hreg1 := mvReg_lt (m := i.mv1)
  have hreg2 := mvReg_lt (m := i.mv2)
  obtain ⟨z, w, hmoves, hw, hmoved, hload1, hload2⟩ := movesSem_moves (c := c) (u := u) h1 h2 hne hs hl hps hp1 hp2
  rw [hmoves, orWindow] at hsem
  have hall := hs.trans hmoved
  obtain ⟨t, ht, hi⟩ := exec_issued h hsem (hall.tr (by decide) fun hm => by have := hall.apart _ hm; omega) hall.writes.st
  refine ⟨t, hcmd ▸ ht, ⟨hi.only, fun n hn h1 h2 h3 => (hi.regs n h1 h2 h3).trans (hall.writes.regs n hn), fun k => ?_, fun hk a ha => ?_,
    fun hk a ha => ?_, fun a => ?_, hi.cs.trans hall.writes.cs, hi.pm.trans hall.writes.pm⟩, fun n hn => ?_⟩
  · rw [hi.regs _ (by decide) (by decide) (by decide), Bool.or_assoc v]
    exact hall.onlyV k
  · exact (hi.regs _ (by omega) (by omega) (by omega)).trans (hload1 hk a ha)
  · exact (hi.regs _ (by omega) (by omega) (by omega)).trans (hload2 hk a ha)
  · rw [loadWord, hi.loads, hall.writes.dm, hw, hu, List.nil_append, drained_append]
    rfl
  · refine (hi.regs n (by omega) (by omega) (by omega)).trans (hmoved.tr (by omega) ?_)
    rw [List.mem_append, not_or]
    exact ⟨notMem_moveWritten (by omega) (by omega), notMem_moveWritten (by omega) (by omega)⟩

theorem onlyRegs_mono {l k : List Nat} {x y : Tarn} (h : OnlyRegs l x y) (hl : l ⊆ k) : OnlyRegs k x y := fun n hn => h n fun hm => hn (hl hm)

theorem macSum_eq {sub f clr : Bool} {vx vy : Word} {re im : Int} (hop : op = .cmac ∨ op = .cmacj ∨ op = .dmac) :
    let p := sums op f vx vy
    let r := (if clr then 0 else re) + (if sub then -p.1 else p.1)
    let m := (if clr then 0 else im) + (if sub then -p.2 else p.2)
    macSum op sub f clr vx vy re im = (accVal r, accVal m, leaves 48 r || leaves 48 m) := by
  have hp : products op f vx vy = sums op f vx vy := by rcases hop with rfl | rfl | rfl <;> rfl
  intro p r m
  have added (z q : Int) : (if sub then z - q else z + q) = z + (if sub then -q else q) := by
    cases sub
    · rfl
    · exact Int.sub_eq_add_neg
  simp only [macSum, accWraps_eq, hp, added]
  rfl

theorem macStep_setAcc {n : Nat} {re im : W64} {x : Tarn} :
    MacStep [0x40 + 2 * n, 0x41 + 2 * n] [0x40 + 2 * n, 0x41 + 2 * n] false x (setAcc n re im x) :=
  macStep_of_writes (Writes.refl.setAcc.mono (by simp; omega) (by simp; omega)) (by simp; omega)

theorem macStep_setAccV {v : Bool} {x : Tarn} : MacStep [] [] v x (setAccV v x) :=
  ⟨Writes.refl.setAccV.mono (by simp) (by simp), by simp, onlyV_of_setAccV rfl rfl⟩

theorem mem_xStepped {n base : Nat} (h : n ∈ xStepped i base) : n = base ∨ n = base + 1 := by
  unfold xStepped at h
  split at h
  · rw [List.mem_singleton] at h
    omega
  · cases h

theorem mem_yStepped {n base : Nat} (h : n ∈ yStepped i base) : base + 4 ≤ n ∧ n < base + 8 := by
  unfold yStepped at h
  split at h
  · cases h
  · rw [List.mem_singleton] at h
    omega

/-- CMAC, CMACJ and DMAC: operands, then the accumulator, then the moves (R276). -/
theorem macSem_parts {vx vy : Word} {x : Tarn} {re im : Int} {ov : Bool}
    (hsum : macSum op i.sub i.f i.clr vx vy (accNowInt i.acn 0 x) (accNowInt i.acn 1 x) = (accVal re, accVal im, ov))
    (hx : xWord c i x = some vx) (hy : yWord c i x = some vy) :
    ∃ y u, macSem c op i x = orWindow (movesSem c i x (setAccV ov (setAcc i.acn (accVal re) (accVal im) y)) u) ∧ u.stores = [] ∧
      MacStep (xStepped i 0x10 ++ yStepped i 0x10) (xStepped i 0x90 ++ yStepped i 0x90) false x y := by
  obtain ⟨x1, ux, hx1, hux, hsx⟩ := xOperand_reads hx
  obtain ⟨y1, uy, hy1, huy, hsy⟩ := yOperand_reads hsx hy
  have hre : accInt (accNow i.acn 0 x) = accNowInt i.acn 0 x := rfl
  have him : accInt (accNow i.acn 1 x) = accNowInt i.acn 1 x := rfl
  refine ⟨y1, ux.and uy, ?_, ?_, hsx.trans hsy⟩
  · simp only [macSem, hx1, hy1, hre, him, Option.bind_eq_bind, Option.bind_some, hsum]
  · rw [Use.and, hux, huy]
    rfl

theorem macRegs_of_parts (hop : op ≠ .pmov) : 0x30 :: ((xStepped i 0x10 ++ yStepped i 0x10 ++ [0x40 + 2 * i.acn, 0x41 + 2 * i.acn]) ++
    (moveWritten i.mv1 0x12 ++ moveWritten i.mv2 0x13)) ⊆ macRegs op i := by
  intro n hn
  simp only [xStepped, yStepped, moveWritten, macRegs, if_neg hop, List.mem_cons, List.mem_append] at hn ⊢
  tauto

theorem exec_mac {vx vy : Word} (hop : op = .cmac ∨ op = .cmacj ∨ op = .dmac) (hcmd : exec cmd s = onDev (runTarn c op (macSem c op)) s)
    (h : Next c op i s) (hx : xWord c i (issuing c s) = some vx) (hy : yWord c i (issuing c s) = some vy)
    (hp1 : mvKind i.mv1 ≠ 0 → pointed 2 (issuing c s) ≠ none) (hp2 : mvKind i.mv2 ≠ 0 → pointed 3 (issuing c s) ≠ none) :
    let p := sums op i.f vx vy
    let re := (if i.clr then 0 else accNowInt i.acn 0 (issuing c s)) + (if i.sub then -p.1 else p.1)
    let im := (if i.clr then 0 else accNowInt i.acn 1 (issuing c s)) + (if i.sub then -p.2 else p.2)
    ∃ t, exec cmd s = .next t ∧ MacLeaves c i (macRegs op i) (leaves 48 re || leaves 48 im) s t ∧
      AccIs c i.acn (BitVec.ofInt 48 re) (BitVec.ofInt 48 im) t := by
  intro p re im
  have hf : formatOf op = 3 := by rcases hop with rfl | rfl | rfl <;> rfl
  have hop' : op ≠ .pmov := by rcases hop with rfl | rfl | rfl <;> decide
  have hacn := acn_of_fetch h.1 hf
  obtain ⟨y, u, hsem, hu, hs⟩ := macSem_parts (c := c) (x := issuing c s) (macSum_eq hop) hx hy
  have hacc : MacStep _ _ _ (issuing c s) (setAccV (leaves 48 re || leaves 48 im) (setAcc i.acn (accVal re) (accVal im) y)) :=
    (hs.trans macStep_setAcc).trans macStep_setAccV
  have stepped {base n : Nat} (h : n ∈ xStepped i base ++ yStepped i base) : n ≠ base + 2 ∧ n ≠ base + 3 := by
    rcases List.mem_append.1 h with h | h
    · have := mem_xStepped h
      omega
    · have := mem_yStepped h
      omega
  have apart {base n : Nat} (hb : 0x48 ≤ base ∨ base < 0x20)
      (h : n ∈ xStepped i base ++ yStepped i base ++ [0x40 + 2 * i.acn, 0x41 + 2 * i.acn] ++ []) : n ≠ base + 2 ∧ n ≠ base + 3 := by
    rw [List.append_nil, List.mem_append] at h
    rcases h with h | h
    · exact stepped h
    · simp only [List.mem_cons, List.not_mem_nil, or_false] at h
      omega
  obtain ⟨t, ht, hl, haccs⟩ := exec_moves (sem := macSem c op) hcmd h hf hu hacc (fun k hk => apart (by decide) hk) (fun k hk => apart (by decide) hk)
    hp1 hp2 hsem
  refine ⟨t, ht, ⟨hl.core, onlyRegs_mono hl.regs (by simpa using macRegs_of_parts hop'), hl.onlyV, hl.load1, hl.load2, hl.mem, hl.stores⟩, ?_, ?_⟩
  · rw [haccs _ (by omega), tr_setAccV (by omega), tr_setAcc_re]
    rfl
  · rw [haccs _ (by omega), tr_setAccV (by omega), tr_setAcc_im]
    rfl

theorem exec_pmov (h : Next c .pmov i s) (hp1 : mvKind i.mv1 ≠ 0 → pointed 2 (issuing c s) ≠ none)
    (hp2 : mvKind i.mv2 ≠ 0 → pointed 3 (issuing c s) ≠ none) : ∃ t, exec (.pmov c) s = .next t ∧ MacLeaves c i (macRegs .pmov i) false s t := by
  obtain ⟨t, ht, hl, -⟩ := exec_moves (cmd := .pmov c) (sem := pmovSem c) rfl h rfl (u := Use.none) rfl MacStep.refl (by simp) (by simp) hp1 hp2 rfl
  refine ⟨t, ht, hl.core, onlyRegs_mono hl.regs fun n hn => ?_, hl.onlyV, hl.load1, hl.load2, hl.mem, hl.stores⟩
  simp only [moveWritten, macRegs, List.nil_append, List.mem_cons, List.mem_append] at hn ⊢
  tauto

end

/-- Settles O28: the operands (`xOperand_reads`, `yOperand_reads`), the sums (`macSum_eq`), and the moves (`movesSem_moves`). -/
theorem macResults : Obligations.MacResults := by
  intro c i s op cmd vx vy hop h x hwords hp1 hp2 st p re im
  have mac (hop : op = .cmac ∨ op = .cmacj ∨ op = .dmac) (hcmd : exec cmd s = onDev (runTarn c op (macSem c op)) s) :
      ∃ t, exec cmd s = .next t ∧ MacLeaves c i (macRegs op i) (decide (op ≠ .pmov) && (leaves 48 re || leaves 48 im)) s t ∧
        (op ≠ .pmov → AccIs c i.acn (BitVec.ofInt 48 re) (BitVec.ofInt 48 im) t) := by
    have hop' : op ≠ .pmov := by rcases hop with rfl | rfl | rfl <;> decide
    obtain ⟨hx, hy⟩ := hwords hop'
    obtain ⟨t, ht, hl, hacc⟩ := exec_mac hop hcmd h hx hy hp1 hp2
    rw [decide_eq_true hop', Bool.true_and]
    exact ⟨t, ht, hl, fun _ => hacc⟩
  obtain ⟨t, ht, hl, hacc⟩ : ∃ t, exec cmd s = .next t ∧
      MacLeaves c i (macRegs op i) (decide (op ≠ .pmov) && (leaves 48 re || leaves 48 im)) s t ∧
      (op ≠ .pmov → AccIs c i.acn (BitVec.ofInt 48 re) (BitVec.ofInt 48 im) t) := by
    simp only [List.mem_cons, Prod.mk.injEq, List.not_mem_nil, or_false] at hop
    rcases hop with ⟨rfl, rfl⟩ | ⟨rfl, rfl⟩ | ⟨rfl, rfl⟩ | ⟨rfl, rfl⟩
    · exact mac (.inl rfl) rfl
    · exact mac (.inr (.inl rfl)) rfl
    · exact mac (.inr (.inr rfl)) rfl
    · obtain ⟨t, ht, hl⟩ := exec_pmov h hp1 hp2
      exact ⟨t, ht, hl, fun h => absurd rfl h⟩
  exact ⟨t, ht, hl.core, hl.regs, hacc, hl.onlyV, hl.load1, hl.load2, hl.mem, hl.apart, hl.stores⟩

end Sys2Proof.Machine
end

section
/-! PROOF. Where an instruction lands in any state, and O33: block loops and repeats (R240, R241, R277). -/
namespace Sys2Proof.Machine

/-! ### Landing with a repeat, a loop or delay slots in progress -/

/-- All of a core but its registers, what consumers see of them, and where execution stands. -/
def atRest (t : Tarn) : Tarn :=
  { t with r := [], past := [], pc := 0, slots := none, rpt := none, cache := none, fill := false, fetches := 0, refetched := false, cyc := 0, stall3 := 0, stallSb := 0 }

section
variable {c n : Nat} {i : TI} {was t : Tarn} {u : Use} {skip : Option Nat} {d : Dev}

theorem atRest_setSeen {p : Nat} {v : W64} : atRest (setSeen p n v t) = atRest t := by
  show atRest { setSeen p n v t with r := [], past := [] } = atRest { t with r := [], past := [] }
  rw [setSeen_frame]

theorem atRest_loopEnd {pc next : Nat} : atRest (loopEnd pc next was t).2 = atRest t := by
  unfold loopEnd
  extract_lets lc lsa lea
  split
  · rfl
  · split
    · exact atRest_setSeen
    · exact atRest_setSeen

theorem atRest_advance : atRest (advance i was t skip) = atRest t := by
  unfold advance
  extract_lets pc t1 next l at_ _ t2 dest
  have h1 : atRest t1 = atRest t := by
    unfold t1
    split <;> rfl
  have h2 : atRest t2 = atRest t := by
    refine Eq.trans ?_ ((atRest_loopEnd (pc := pc) (next := next) (was := was)).trans h1)
    unfold t2
    split <;> rfl
  split
  · rfl
  · exact h2

theorem tr_advance (h : n ≠ 0x31) : tr n (advance i was t skip) = tr n t := by
  unfold advance
  extract_lets pc t1 next l at_ _ t2 dest
  have h1 : tr n t1 = tr n t := by
    unfold t1
    split <;> rfl
  have h2 : tr n t2 = tr n t := by
    obtain ⟨-, -, -, -, -, -, -, -, hregs⟩ := loopEnd_rest pc next was t1
    refine Eq.trans ?_ ((hregs n h).trans h1)
    unfold t2
    split <;> rfl
  split
  · rfl
  · exact h2

/-- What an instruction costs its core (R272). -/
def spent (c : Nat) (i : TI) (u : Use) (d : Dev) : Cost := costOf i (threeBus c d) (cacheError c (ageAll (tarn c d))) u (ageAll (tarn c d))

/-- The core once the stores that retire with the instruction have retired. -/
def retired (c : Nat) (i : TI) (t : Tarn) (u : Use) (d : Dev) : Tarn :=
  { t with
    sb := (spent c i u d).sb
    dm := drained (((ageAll (tarn c d)).sb ++ u.stores).take ((ageAll (tarn c d)).sb.length + u.stores.length - (spent c i u d).sb.length)) t.dm }

/-- The core before the program counter moves: in user mode UCNT has counted. -/
def settled (c : Nat) (i : TI) (t : Tarn) (u : Use) (d : Dev) : Tarn :=
  if userMode (ageAll (tarn c d)) then setTr 0x3F (BitVec.ofNat 64 ((tr 0x3F (ageAll (tarn c d))).toNat - (spent c i u d).all)) (retired c i t u d)
  else retired c i t u d

theorem landed_eq : landed c i t u skip d = { advance i (ageAll (tarn c d)) (settled c i t u d) skip with
    fetches := (landed c i t u skip d).fetches, refetched := (landed c i t u skip d).refetched, cyc := (landed c i t u skip d).cyc
    stall3 := (landed c i t u skip d).stall3, stallSb := (landed c i t u skip d).stallSb } := by
  unfold landed settled retired spent
  rfl

theorem tr_settled (h : n ≠ 0x3F) : tr n (settled c i t u d) = tr n t := by
  unfold settled
  split
  · exact (tr_setTr ..).trans (if_neg h)
  · rfl

theorem settled_frame : (settled c i t u d).cs = t.cs ∧ (settled c i t u d).pm = t.pm ∧ (settled c i t u d).st = t.st ∧
    (settled c i t u d).slots = t.slots ∧ (settled c i t u d).pc = t.pc := by
  unfold settled
  split
  · exact ⟨rfl, rfl, rfl, rfl, rfl⟩
  · exact ⟨rfl, rfl, rfl, rfl, rfl⟩

/-- Where execution stands after landing. -/
theorem landed_stands : (landed c i t u skip d).pc = (advance i (ageAll (tarn c d)) (settled c i t u d) skip).pc ∧
    (landed c i t u skip d).rpt = (advance i (ageAll (tarn c d)) (settled c i t u d) skip).rpt ∧
    (landed c i t u skip d).slots = (advance i (ageAll (tarn c d)) (settled c i t u d) skip).slots ∧
    (landed c i t u skip d).past = (advance i (ageAll (tarn c d)) (settled c i t u d) skip).past ∧
    (landed c i t u skip d).r = (advance i (ageAll (tarn c d)) (settled c i t u d) skip).r := by
  rw [landed_eq]
  exact ⟨rfl, rfl, rfl, rfl, rfl⟩

theorem loadsSee_settled : loadsSee (settled c i t u d) = drained ((tarn c d).sb ++ u.stores) t.dm := by
  obtain ⟨g, hg, hgl⟩ := costOf_sb i (threeBus c d) (cacheError c (ageAll (tarn c d))) u (ageAll (tarn c d))
  have hspent : (spent c i u d).sb = ((tarn c d).sb ++ u.stores).drop g := hg
  have hretired : loadsSee (retired c i t u d) = drained ((tarn c d).sb ++ u.stores) t.dm := by
    have hgone : (ageAll (tarn c d)).sb.length + u.stores.length - (spent c i u d).sb.length = g := by
      have hlen : (ageAll (tarn c d)).sb.length = (tarn c d).sb.length := rfl
      rw [hspent, List.length_drop, List.length_append]
      rw [List.length_append] at hgl
      omega
    rw [retired, hgone, hspent]
    exact drained_split _ _ _
  unfold settled
  split
  · exact hretired
  · exact hretired

theorem tr_landed (h1 : n ≠ 0x31) (h2 : n ≠ 0x3F) : tr n (landed c i t u skip d) = tr n t := by
  rw [landed_eq]
  exact (tr_advance h1).trans (tr_settled h2)

theorem atRest_landed : atRest (landed c i t u skip d) = atRest (settled c i t u d) := by
  rw [landed_eq]
  exact atRest_advance

theorem loadsSee_of_atRest {x y : Tarn} (h : atRest x = atRest y) : loadsSee x = loadsSee y := by
  have hsb : x.sb = y.sb := congrArg (fun t => t.sb) h
  have hdm : x.dm = y.dm := congrArg (fun t => t.dm) h
  rw [loadsSee, loadsSee, hsb, hdm]

theorem loadsSee_landed : loadsSee (landed c i t u skip d) = drained ((tarn c d).sb ++ u.stores) t.dm :=
  (loadsSee_of_atRest atRest_landed).trans loadsSee_settled

theorem landed_frame : (landed c i t u skip d).cs = t.cs ∧ (landed c i t u skip d).pm = t.pm ∧ (landed c i t u skip d).st = t.st := by
  obtain ⟨hcs, hpm, hst, -⟩ := settled_frame (c := c) (i := i) (t := t) (u := u) (d := d)
  have h := atRest_landed (c := c) (i := i) (t := t) (u := u) (skip := skip) (d := d)
  exact ⟨(congrArg (fun t => t.cs) h).trans hcs, (congrArg (fun t => t.pm) h).trans hpm, (congrArg (fun t => t.st) h).trans hst⟩

end

/-! ### A NOP that completes -/

section
variable {c : Nat} {i : TI} {s : State}

/-- The core after a NOP of core `c`, before what stands behind delay slots. -/
def afterNop (c : Nat) (i : TI) (s : State) : Tarn := landed c i (issuing c s) Use.none none s.dev

theorem nop_cost (h : i.op = .nop) (three par : Bool) (u : Use) (t : Tarn) : (costOf i three par u t).all ≤ 30 := by
  have b (x : Bool) : b2n x ≤ 1 := by cases x <;> decide
  obtain ⟨x, y, w, hall⟩ := costOf_all i three par u t
  have h1 := b x
  have h2 := b y
  have h3 := b par
  have h4 := b i.ext
  rw [hall, h]
  show 1 + b2n i.ext + 0 + 2 * b2n par + b2n x + b2n y + min 6 w ≤ 30
  omega

theorem executes_modTarn {f : Tarn → Tarn} {d : Dev} (h : (f (tarn c d)).st = (tarn c d).st) : executes c (modTarn c f d) = executes c d := by
  simp [executes, h]

theorem chargeWdog_of_no_job {n : Nat} {d : Dev} (h : headJob c d = none) : chargeWdog c n d = d := by
  unfold chargeWdog
  simp [h]

/-- Of a core that has landed only LC, UCNT and where execution stands changed. -/
theorem computes_landed : Computes c [] s { s with dev := modTarn c (fun _ => afterNop c i s) s.dev } := by
  have hy : tarn c (modTarn c (fun _ => afterNop c i s) s.dev) = afterNop c i s := (tarn_modTarn ..).trans (if_pos rfl)
  obtain ⟨hcs, hpm, -⟩ := landed_frame (c := c) (i := i) (t := issuing c s) (u := Use.none) (skip := none) (d := s.dev)
  refine ⟨⟨rfl, rfl, fun k hk => (tarn_modTarn ..).trans (if_neg hk)⟩, fun n _ h1 _ h3 => ?_, fun a => ?_, ?_, ?_⟩
  · rw [hy]
    exact tr_landed h1 h3
  · rw [hy, loadWord, afterNop, loadsSee_landed, Use.none, List.append_nil]
    rfl
  · rw [hy]
    exact hcs
  · rw [hy]
    exact hpm

/-- The device once an instruction's cycles are counted against UCNT or WDOG. -/
def charged (c : Nat) (i : TI) (t : Tarn) (u : Use) (skip : Option Nat) (d : Dev) : Dev :=
  if userMode (tarn c d) then modTarn c (fun _ => landed c i t u skip d) d
  else chargeWdog c (spent c i u d).all (modTarn c (fun _ => landed c i t u skip d) d)

/-- An instruction that its budget covers (R228, R254). -/
theorem completeInstr_spent {t : Tarn} {u : Use} {skip : Option Nat} {d : Dev}
    (h : userMode (tarn c d) = true → (spent c i u d).all < (tr 0x3F (tarn c d)).toNat) :
    completeInstr c i (.go t u skip) d = if executes c (charged c i t u skip d) then afterSlots c (slotEnd (ageAll (tarn c d))) (charged c i t u skip d)
      else charged c i t u skip d := by
  unfold spent at h
  unfold completeInstr charged spent
  simp only
  rw [if_neg]
  · rfl
  · rintro ⟨hu, hle⟩
    exact absurd hle (Nat.not_le.2 (h hu))

/-- A NOP whose counter holds completes whatever is in progress. -/
theorem nop_completes (hf : fetchTarn c .nop s.dev = .ok i)
    (hc : if userMode (tarn c s.dev) then 30 < (tr 0x3F (tarn c s.dev)).toNat else headJob c s.dev = none) :
    exec (.nop c) s = .next { s with dev := afterSlots c (slotEnd (issuing c s)) (modTarn c (fun _ => afterNop c i s) s.dev) } := by
  obtain ⟨hop, -, -⟩ := fetchTarn_ok hf
  have hst : (afterNop c i s).st = (tarn c s.dev).st := landed_frame.2.2
  have hexec : executes c (modTarn c (fun _ => afterNop c i s) s.dev) = true := by
    rw [executes_modTarn hst]
    exact executes_of_fetch hf
  have hend : completeInstr c i (.go (issuing c s) Use.none none) s.dev =
      afterSlots c (slotEnd (issuing c s)) (modTarn c (fun _ => afterNop c i s) s.dev) := by
    have hcost : (spent c i Use.none s.dev).all ≤ 30 := nop_cost hop _ _ _ _
    have hcharged : charged c i (issuing c s) Use.none none s.dev = modTarn c (fun _ => afterNop c i s) s.dev := by
      unfold charged
      split
      · rfl
      · next hu =>
        rw [if_neg hu] at hc
        exact chargeWdog_of_no_job ((headJob_modTarn c _ s.dev hst).trans hc)
    rw [completeInstr_spent fun hu => by rw [if_pos hu] at hc; omega, hcharged, if_pos hexec]
    rfl
  exact onDev_eq ((runTarn_go c .nop _ i _ _ _ s.dev hf rfl).trans hend)

/-- A NOP with no delay slot in progress. -/
theorem nop_computes (hf : fetchTarn c .nop s.dev = .ok i) (hs : (tarn c s.dev).slots = none)
    (hc : if userMode (tarn c s.dev) then 30 < (tr 0x3F (tarn c s.dev)).toNat else headJob c s.dev = none) :
    ∃ t, exec (.nop c) s = .next t ∧ Computes c [] s t ∧ tarn c t.dev = afterNop c i s := by
  have hnone : slotEnd (issuing c s) = none := by
    have hslots : (issuing c s).slots = none := hs
    rw [slotEnd, hslots]
  refine ⟨_, nop_completes hf hc, ?_, ?_⟩
  · rw [hnone]
    exact computes_landed
  · rw [hnone]
    exact (tarn_modTarn ..).trans (if_pos rfl)

end

/-! ### Repeats and loop ends (R240, R241) -/

section
variable {c : Nat} {i : TI} {s : State} {was t : Tarn} {skip : Option Nat}

theorem advance_repeats {n : Nat} (h : was.rpt = some (n + 2)) : advance i was t skip = { t with rpt := some (n + 1) } := by
  unfold advance
  rw [h]

/-- The last repetition goes on. -/
theorem advance_last (hr : was.rpt = some 1) (hs : was.slots = none) (hl : loopReg 0x31 was = 0) :
    advance i was t none = { t with rpt := none, pc := BitVec.ofNat 14 (was.pc.toNat + 1 + b2n i.ext) } := by
  unfold advance
  simp [hr, hs, loopEnd, hl, slotEnd]

/-- At the loop's end LC counts down, and fetch goes on at LSA or falls through. -/
theorem advance_loops (hr : was.rpt = none) (hs : was.slots = none) (hext : i.ext = false) (hend : loopReg 0x33 was = was.pc.toNat)
    (hl : 1 ≤ loopReg 0x31 was) : ∃ y, advance i was t none =
      { setSeen 0xB1 0x31 (BitVec.ofNat 64 (loopReg 0x31 was - 1)) y with
        pc := BitVec.ofNat 14 (if loopReg 0x31 was = 1 then was.pc.toNat + 1 else loopReg 0x32 was) } := by
  have hne : loopReg 0x31 was ≠ 0 := by omega
  by_cases h1 : loopReg 0x31 was = 1
  · refine ⟨t, ?_⟩
    unfold advance
    simp [hr, hs, loopEnd, h1, hend, hext, b2n, slotEnd]
  · refine ⟨{ t with cache := if t.fill ∧ loopReg 0x33 was + 1 - loopReg 0x32 was ≤ 16 then some (loopReg 0x32 was, loopReg 0x33 was) else t.cache,
                     fill := true }, ?_⟩
    unfold advance
    simp [hr, hs, loopEnd, h1, hne, hend, hext, b2n, slotEnd]

theorem ofNat_pc_add {pc : BitVec 14} (n : Nat) : BitVec.ofNat 14 (pc.toNat + n) = pc + BitVec.ofNat 14 n := by
  apply BitVec.eq_of_toNat_eq
  simp

/-- What the loop-end test sees of LC after one more instruction. -/
theorem loopReg_setSeen {x y : Tarn} {v : W64} (hpast : x.past = (setSeen 0xB1 0x31 v y).past) (hr : x.r = (setSeen 0xB1 0x31 v y).r) :
    loopReg 0x31 (ageAll x) = v.toNat := by
  have hnotes : notesAt 0xB1 x = notesAt 0xB1 (setSeen 0xB1 0x31 v y) := by rw [notesAt, hpast, notesAt]
  have htr : tr 0x31 x = tr 0x31 (setSeen 0xB1 0x31 v y) := by rw [tr, hr, tr]
  show (seen 0xB1 (tr 0x31 x) (ageAll x)).toNat = v.toNat
  rw [htr, seen_of_notesAt (notesAt_ageAll_congr hnotes), seen_setSeen]

theorem repeatsAndLoopEnds : RepeatsAndLoopEnds := by
  intro c i s hf hs hc x
  obtain ⟨t, ht, hcomputes, htarn⟩ := nop_computes hf hs hc
  have hext : i.ext = false := (okA_of_fetch hf rfl).2
  have hlanded : landed c i (issuing c s) Use.none none s.dev = tarn c t.dev := htarn.symm
  obtain ⟨hpc, hrpt, -, hpast, hr⟩ := landed_stands (c := c) (i := i) (t := issuing c s) (u := Use.none) (skip := none) (d := s.dev)
  rw [hlanded] at hpc hrpt hpast hr
  refine ⟨fun n hn => ⟨t, ht, hcomputes, ?_⟩, fun hl hn => ⟨t, ht, hcomputes, ?_⟩, fun hn hend hl => ⟨t, ht, hcomputes, ?_⟩⟩
  · rw [advance_repeats (was := ageAll (tarn c s.dev)) (n := n) hn] at hpc hrpt
    obtain ⟨-, -, -, -, hstay⟩ := settled_frame (c := c) (i := i) (t := issuing c s) (u := Use.none) (d := s.dev)
    exact ⟨hrpt, hpc.trans hstay⟩
  · rw [advance_last (was := ageAll (tarn c s.dev)) hn hs hl, hext] at hpc hrpt
    exact ⟨hrpt, hpc.trans (ofNat_pc_add 1)⟩
  · obtain ⟨y, hy⟩ := advance_loops (was := ageAll (tarn c s.dev)) (t := settled c i (issuing c s) Use.none s.dev) hn hs hext hend hl
    rw [hy] at hpc hpast hr
    refine ⟨(loopReg_setSeen hpast hr).trans ?_, hpc.trans ?_⟩
    · exact (BitVec.toNat_ofNat ..).trans (Nat.mod_eq_of_lt ((Nat.sub_le _ _).trans_lt (BitVec.isLt _)))
    · by_cases h1 : loopReg 0x31 x = 1
      · rw [if_pos h1]
        exact (congrArg (BitVec.ofNat 14) (if_pos h1)).trans (ofNat_pc_add 1)
      · rw [if_neg h1]
        exact congrArg (BitVec.ofNat 14) (if_neg h1)

end

/-! ### LOOP, LOOPR, RPT and RPTR (R277) -/

section
variable {c n : Nat} {i : TI} {s : State} {op : TOp} {cmd : Instr} {sem : TI → Tarn → Eff}

/-- An operation that changes registers and where execution stands, and no memory. -/
theorem computes_of_issued {y : Tarn} {skip : Option Nat} {regs : List Nat} {t : State} (hi : Issued c i y [] skip s t)
    (hregs : ∀ n, n ∉ regs → n ≠ 0x31 → tr n y = tr n (issuing c s)) (hdm : y.dm = (issuing c s).dm) (hcs : y.cs = (issuing c s).cs)
    (hpm : y.pm = (issuing c s).pm) : Computes c regs s t := by
  refine ⟨hi.only, fun n hn h1 h2 h3 => (hi.regs n h1 h2 h3).trans (hregs n hn h1), fun a => ?_, hi.cs.trans hcs, hi.pm.trans hpm⟩
  rw [loadWord, hi.loads, List.append_nil, hdm]
  rfl

/-- The core after LOOP or LOOPR of `n` (R241). -/
def loopArmed (n : Nat) (i : TI) (t : Tarn) : Tarn :=
  armLoop 0x33 i.tgt (armLoop 0x32 ((t.pc.toNat + 1) % 16384) (armLoop 0x31 n { t with cache := none, fill := true }))

theorem tr_armLoop {k v : Nat} {t : Tarn} : tr k (armLoop n v t) = if k = n then BitVec.ofNat 64 v else tr k t := tr_setTr ..

theorem notesAt_armLoop {p v : Nat} {t : Tarn} : notesAt p (armLoop n v t) = if 0x80 + n = p then [] else notesAt p t := notesAt_reveal

/-- A loop register with no hidden write. -/
theorem loopReg_of_unnoted {x : Tarn} {v : Nat} (hnotes : notesAt (0x80 + n) x = []) (htr : tr n x = BitVec.ofNat 64 v) (hv : v < 2 ^ 64) :
    loopReg n (ageAll x) = v := by
  have hvisible : ∀ w, seen (0x80 + n) w x = w := fun w => by
    unfold notesAt at hnotes
    rw [seen, hnotes]
    rfl
  rw [loopReg, tr_ageAll, seen_ageAll_of_hidden (by simp [hnotes]), hvisible, htr, BitVec.toNat_ofNat, Nat.mod_eq_of_lt hv]

theorem exec_loop (hcmd : exec cmd s = onDev (runTarn c op sem) s) (h : Next c op i s) (hf : formatOf op = 4) (hn : n < 2 ^ 64)
    (hlc : loopReg 0x31 (issuing c s) = 0) (hsem : sem i (issuing c s) = loopSem n i (issuing c s)) :
    ∃ t, exec cmd s = .next t ∧ Computes c [0x32, 0x33] s t ∧ loopReg 0x31 (issuing c t) = n ∧
      loopReg 0x32 (issuing c t) = ((issuing c s).pc + 1).toNat ∧ loopReg 0x33 (issuing c t) = i.tgt ∧
      (tarn c t.dev).pc = (if n = 0 then BitVec.ofNat 14 (i.tgt + 1) else (issuing c s).pc + 1) := by
  obtain ⟨hext, htgt, -⟩ := formatB_of_fetch h.1 hf
  have hregs (k : Nat) (h1 : k ≠ 0x31) (h2 : k ≠ 0x32) (h3 : k ≠ 0x33) : tr k (loopArmed n i (issuing c s)) = tr k (issuing c s) := by
    rw [loopArmed, tr_armLoop, if_neg h3, tr_armLoop, if_neg h2, tr_armLoop, if_neg h1]
    rfl
  obtain ⟨t, ht, hi⟩ := exec_issued (y := loopArmed n i (issuing c s)) (u := Use.none) h hsem (hregs _ (by decide) (by decide) (by decide)) rfl
  obtain ⟨hpc, hpast, -, hcount⟩ := hi.noLoop hlc
  have hnotes (p : Nat) : notesAt p (tarn c t.dev) = notesAt p (loopArmed n i (issuing c s)) := by rw [notesAt, hpast, notesAt]
  refine ⟨t, hcmd ▸ ht, computes_of_issued hi (fun k hk h1 => ?_) rfl rfl rfl, loopReg_of_unnoted ?_ ?_ hn, ?_, loopReg_of_unnoted ?_ ?_ (by omega), ?_⟩
  · simp only [List.mem_cons, List.not_mem_nil, or_false, not_or] at hk
    exact hregs k h1 hk.1 hk.2
  · rw [hnotes, loopArmed, notesAt_armLoop, if_neg (by decide), notesAt_armLoop, if_neg (by decide), notesAt_armLoop, if_pos rfl]
  · rw [hcount, loopArmed, tr_armLoop, if_neg (by decide), tr_armLoop, if_neg (by decide), tr_armLoop, if_pos rfl]
  · rw [BitVec.toNat_add]
    refine loopReg_of_unnoted ?_ ?_ (by omega)
    · rw [hnotes, loopArmed, notesAt_armLoop, if_neg (by decide), notesAt_armLoop, if_pos rfl]
    · rw [hi.regs _ (by decide) (by decide) (by decide), loopArmed, tr_armLoop, if_neg (by decide), tr_armLoop, if_pos rfl]
      rfl
  · rw [hnotes, loopArmed, notesAt_armLoop, if_pos rfl]
  · rw [hi.regs _ (by decide) (by decide) (by decide), loopArmed, tr_armLoop, if_pos rfl]
  · rw [hpc, hext]
    by_cases h0 : n = 0
    · rw [if_pos h0, if_pos h0]
      rfl
    · rw [if_neg h0, if_neg h0]
      exact ofNat_pc_add 1

theorem exec_rpt (hcmd : exec cmd s = onDev (runTarn c op sem) s) (h : Next c op i s) (hf : formatOf op = 4)
    (hlc : loopReg 0x31 (issuing c s) = 0) (hfits : n ≤ 4096 ∧ (userMode (issuing c s) = true → n ≤ 1024))
    (hnext : n = 0 → ∃ j, decodeTarn (pmFetch ((issuing c s).pc.toNat + 1) (issuing c s)) (pmFetch ((issuing c s).pc.toNat + 2) (issuing c s)) = some j ∧
      repeatable j = true) (hsem : sem i (issuing c s) = rptSem n (issuing c s)) :
    ∃ t, exec cmd s = .next t ∧ Computes c [] s t ∧
      (1 ≤ n → (tarn c t.dev).rpt = some n ∧ (tarn c t.dev).pc = (issuing c s).pc + 1) ∧ (n = 0 → (tarn c t.dev).pc = (issuing c s).pc + 2) := by
  obtain ⟨hext, -, -⟩ := formatB_of_fetch h.1 hf
  have hlegal : ¬ (4096 < n ∨ (userMode (issuing c s) = true ∧ 1024 < n)) := by
    rintro (hlong | ⟨hu, hlong⟩)
    · omega
    · have := hfits.2 hu
      omega
  rw [rptSem, if_neg hlegal] at hsem
  by_cases h0 : n = 0
  · obtain ⟨j, hj, hrep⟩ := hnext h0
    rw [if_pos h0, hj] at hsem
    simp only [hrep, if_true] at hsem
    obtain ⟨t, ht, hi⟩ := exec_issued h hsem rfl rfl
    obtain ⟨hpc, -⟩ := hi.noLoop hlc
    exact ⟨t, hcmd ▸ ht, computes_of_issued hi (fun _ _ _ => rfl) rfl rfl rfl, fun h1 => by omega, fun _ => hpc.trans (ofNat_pc_add 2)⟩
  · rw [if_neg h0] at hsem
    obtain ⟨t, ht, hi⟩ := exec_issued h hsem rfl rfl
    obtain ⟨hpc, -⟩ := hi.noLoop hlc
    rw [hext] at hpc
    exact ⟨t, hcmd ▸ ht, computes_of_issued hi (fun _ _ _ => rfl) rfl rfl rfl, fun _ => ⟨hi.rpt, hpc.trans (ofNat_pc_add 1)⟩, fun h => absurd h h0⟩

end

theorem fld_low {w : Nat} (v : BitVec w) (hi : Nat) : fld v hi 0 = (v.extractLsb' 0 (hi + 1)).toNat := by
  simp [fld, BitVec.extractLsb'_toNat]

theorem loopResults : LoopResults := by
  intro c i s x loop rpt fits nextRepeats hlc
  refine ⟨fun h => ?_, fun h => ?_, fun h hfits hpos => ?_, fun h hfits hnext => ?_⟩
  · obtain ⟨-, -, hcnt⟩ := formatB_of_fetch h.1 rfl
    exact exec_loop rfl h rfl (by omega) hlc rfl
  · have hbound : ((readReg c i.dn x).extractLsb' 0 16).toNat < 2 ^ 16 := BitVec.isLt _
    exact exec_loop rfl h rfl (by omega) hlc (by rw [← fld_low])
  · exact exec_rpt rfl h rfl hlc hfits (fun h0 => by omega) rfl
  · exact exec_rpt rfl h rfl hlc hfits hnext (by rw [← fld_low])

/-- Settles O33: the loop registers by `exec_loop`, repeats by `exec_rpt`, and a NOP that is repeated or ends a loop by where it lands. -/
theorem loopsAndRepeats : Obligations.LoopsAndRepeats := ⟨loopResults, repeatsAndLoopEnds⟩

end Sys2Proof.Machine
end

section
/-! PROOF. O32: what stands behind the second delay slot, and entry to and exit from user mode (R230, R243, R252, R254, R256). -/
namespace Sys2Proof.Machine

/-! ### Entry and exit (R252, R254) -/

section
variable {c n cause : Nat} {v : W64} {t : Tarn} {d : Dev}

theorem tr_clearUser : tr n (clearUser t) = if n = 0x30 ∨ (0x34 ≤ n ∧ n < 0x40) then tr n t else tarnRegReset n := by
  refine (tabGet_tabFilter tarnRegReset (fun n => decide (0x30 = n) || (decide (0x34 ≤ n) && decide (n < 0x40))) n t.r).trans (if_congr ?_ rfl rfl)
  simp only [Bool.or_eq_true, Bool.and_eq_true, decide_eq_true_eq]
  omega

/-- Registers cleared stay so where only others are written. -/
theorem clearedUser_of {y : Tarn} (h : ∀ n, n ≠ 0x30 → ¬ (0x34 ≤ n ∧ n < 0x40) → tr n y = tr n (clearUser t)) : ClearedUser y := by
  have cleared (n : Nat) (h1 : n ≠ 0x30) (h2 : ¬ (0x34 ≤ n ∧ n < 0x40)) : tr n y = 0 := by
    rw [h n h1 h2, tr_clearUser, if_neg (by omega), tarnRegReset, if_neg h1, if_neg (by omega)]
  exact ⟨fun n hn => cleared n (by omega) (by omega), fun n hn _ => cleared n (by omega) (by omega), cleared _ (by decide) (by decide),
    cleared _ (by decide) (by decide), cleared _ (by decide) (by decide)⟩

/-- The core after an exit from user mode (R254). -/
def exited (cause : Nat) (t : Tarn) : Tarn :=
  { setTr 0x3D (BitVec.ofNat 64 cause) (setTr 0x30 (setFld (stOf t) 15 15 0) (clearUser t)) with
    pc := (tr 0x3C t).extractLsb' 0 14, slots := none, rpt := none }

theorem tr_exited : tr n (exited cause t) = if n = 0x3D then BitVec.ofNat 64 cause else if n = 0x30 then setFld (stOf t) 15 15 0 else tr n (clearUser t) :=
  (tr_setTr ..).trans (if_congr Iff.rfl rfl (tr_setTr ..))

theorem exited_cleared : ClearedUser (exited cause t) :=
  clearedUser_of (t := t) fun n h1 h2 => by rw [tr_exited, if_neg (by omega), if_neg h1]

theorem userMode_exited : userMode (exited cause t) = false := by
  rw [userMode, stOf, tr_exited, if_neg (by decide), if_pos rfl]
  exact (bit_setFld _ 15 15 0 15 (by decide)).trans ((if_pos (by decide)).trans (by decide))

/-- An exit that no job's stage turns on. -/
theorem userExit_returns (h : headJob c d = none) : userExit c 0 d = modTarn c (exited 0) d := by
  unfold userExit
  simp only [if_true]
  have hjob : headJob c (modTarn c (exited 0) d) = none := (headJob_modTarn c _ d rfl).trans h
  exact hjob ▸ rfl

end

/-! ### The last delay slot (R230) -/

section
variable {c k : Nat} {target : BitVec 14} {i : TI} {s : State}

/-- In the last slot the core lands with no slot left, at the target of a taken branch. -/
theorem afterNop_lastSlot (h : LastSlot c k target i s) (hlc : loopReg 0x31 (issuing c s) = 0) :
    (afterNop c i s).slots = none ∧ (k = 0 → (afterNop c i s).pc = target) := by
  obtain ⟨-, hs, hr, -⟩ := h
  have hs' : (issuing c s).slots = some ⟨k, target, 1⟩ := hs
  have hr' : (issuing c s).rpt = none := hr
  obtain ⟨hpc, -, hslots, -⟩ := landed_stands (c := c) (i := i) (t := issuing c s) (u := Use.none) (skip := none) (d := s.dev)
  have hadv : advance i (issuing c s) (settled c i (issuing c s) Use.none s.dev) none = { settled c i (issuing c s) Use.none s.dev with
      slots := none, pc := BitVec.ofNat 14 (if k = 0 then target.toNat else (issuing c s).pc.toNat + 1 + b2n i.ext) } := by
    unfold advance
    simp [hr', hs', loopEnd, hlc, slotEnd]
  have hwas : ageAll (tarn c s.dev) = issuing c s := rfl
  rw [hwas, hadv] at hpc hslots
  refine ⟨hslots, fun hk => hpc.trans ?_⟩
  subst hk
  exact BitVec.eq_of_toNat_eq (by simp)

/-- What a NOP in the last slot does. -/
theorem exec_lastSlot (h : LastSlot c k target i s) :
    exec (.nop c) s = .next { s with dev := afterSlots c (some ⟨k, target, 1⟩) (modTarn c (fun _ => afterNop c i s) s.dev) } := by
  obtain ⟨hf, hs, -, hc⟩ := h
  have hs' : (issuing c s).slots = some ⟨k, target, 1⟩ := hs
  rw [nop_completes hf hc, slotEnd, hs']
  rfl

/-- What follows the landing changes only the core. -/
theorem onlyCore_modTarn (f : Tarn → Tarn) (y : Tarn) : OnlyCore c s { s with dev := modTarn c f (modTarn c (fun _ => y) s.dev) } :=
  ⟨rfl, rfl, fun j hj => by simp [hj]⟩

theorem tarn_landed_modTarn (f : Tarn → Tarn) (y : Tarn) : tarn c (modTarn c f (modTarn c (fun _ => y) s.dev)) = f y := by simp

theorem loadWord_afterNop (a : Nat) : loadWord (afterNop c i s) a = loadWord (tarn c s.dev) a := by
  rw [loadWord, afterNop, loadsSee_landed, Use.none, List.append_nil]
  rfl

theorem tr_afterNop {n : Nat} (h1 : n ≠ 0x31) (h2 : n ≠ 0x3F) : tr n (afterNop c i s) = tr n (tarn c s.dev) := tr_landed h1 h2

theorem branch_takesEffect (h : LastSlot c 0 target i s) (hlc : loopReg 0x31 (issuing c s) = 0) :
    ∃ t, exec (.nop c) s = .next t ∧ Computes c [] s t ∧ (tarn c t.dev).slots = none ∧ (tarn c t.dev).pc = target := by
  obtain ⟨hslots, hpc⟩ := afterNop_lastSlot h hlc
  have hy : tarn c (modTarn c (fun _ => afterNop c i s) s.dev) = afterNop c i s := (tarn_modTarn ..).trans (if_pos rfl)
  refine ⟨_, exec_lastSlot h, computes_landed, ?_, ?_⟩
  · exact (congrArg (fun t => t.slots) hy).trans hslots
  · exact (congrArg (fun t => t.pc) hy).trans (hpc rfl)

/-- RETI restores PC and ST (R243). -/
theorem reti_takesEffect (h : LastSlot c 1 target i s) (hlc : loopReg 0x31 (issuing c s) = 0) :
    ∃ t, exec (.nop c) s = .next t ∧ Computes c [0x30] s t ∧ (tarn c t.dev).slots = none ∧
      (tarn c t.dev).pc = (tr 0x38 (tarn c s.dev)).extractLsb' 0 14 ∧
      tr 0x30 (tarn c t.dev) = tr 0x39 (tarn c s.dev) &&& (if c < 64 then 0xC19F else 0x419F) := by
  obtain ⟨hslots, -⟩ := afterNop_lastSlot h hlc
  obtain ⟨hcs, hpm, -⟩ := landed_frame (c := c) (i := i) (t := issuing c s) (u := Use.none) (skip := none) (d := s.dev)
  refine ⟨_, exec_lastSlot h, ⟨onlyCore_modTarn _ _, fun n hn h1 _ h3 => ?_, fun a => ?_, ?_, ?_⟩, ?_, ?_, ?_⟩
  all_goals simp only [afterSlots, tarn_landed_modTarn]
  · rw [← tr_afterNop (i := i) h1 h3]
    exact (tr_setTr ..).trans (if_neg (by simpa using hn))
  · exact loadWord_afterNop a
  · exact hcs
  · exact hpm
  · exact hslots
  · rw [tr_afterNop (by decide) (by decide)]
  · refine ((tr_setTr ..).trans (if_pos rfl)).trans ?_
    rw [tr_afterNop (by decide) (by decide), isControlCore]
    by_cases hc : c < 64
    · rw [if_pos hc, if_neg (by simpa using hc)]
    · rw [if_neg hc, if_pos (by simpa using hc)]

/-- CALLU enters user mode (R252). -/
theorem callu_takesEffect (h : LastSlot c 2 target i s) : ∃ t, exec (.nop c) s = .next t ∧ OnlyCore c s t ∧ ClearedUser (tarn c t.dev) ∧
    tr 0x30 (tarn c t.dev) = 0x8180 ∧ tr 0x3F (tarn c t.dev) = tr 0x3E (tarn c s.dev) ∧ tr 0x3C (tarn c t.dev) = target.zeroExtend 64 ∧
    (tarn c t.dev).pc = 0x3800 ∧ (tarn c t.dev).sb = [] ∧ ∀ a, loadWord (tarn c t.dev) a = loadWord (tarn c s.dev) a := by
  refine ⟨_, exec_lastSlot h, onlyCore_modTarn _ _, ?_, ?_, ?_, ?_, ?_, ?_, fun a => ?_⟩
  all_goals simp only [afterSlots, enterUser, tarn_landed_modTarn]
  · refine clearedUser_of (t := afterNop c i s) fun n h1 h2 => ?_
    exact (tr_setTr ..).trans ((if_neg (by omega)).trans ((tr_setTr ..).trans ((if_neg h1).trans ((tr_setTr ..).trans (if_neg (by omega))))))
  · exact (tr_setTr ..).trans ((if_neg (by decide)).trans ((tr_setTr ..).trans (if_pos rfl)))
  · refine ((tr_setTr ..).trans (if_pos rfl)).trans ?_
    rw [tr_clearUser, if_pos (by decide), tr_afterNop (by decide) (by decide)]
  · exact (tr_setTr ..).trans ((if_neg (by decide)).trans ((tr_setTr ..).trans ((if_neg (by decide)).trans ((tr_setTr ..).trans (if_pos rfl)))))
  · rfl
  · exact loadWord_afterNop a

/-- RETU leaves user mode (R252, R256). -/
theorem retu_takesEffect (h : LastSlot c 3 target i s) (hjob : headJob c s.dev = none) : ∃ t, exec (.nop c) s = .next t ∧ OnlyCore c s t ∧
    ClearedUser (tarn c t.dev) ∧ tr 0x3D (tarn c t.dev) = 0 ∧ userMode (tarn c t.dev) = false ∧
    (tarn c t.dev).pc = (tr 0x3C (tarn c s.dev)).extractLsb' 0 14 ∧ (tarn c t.dev).sb = [] ∧
    ∀ a, loadWord (tarn c t.dev) a = loadWord (tarn c s.dev) a := by
  have hst : (afterNop c i s).st = (tarn c s.dev).st := landed_frame.2.2
  have hexit := userExit_returns ((headJob_modTarn c (fun _ => afterNop c i s) s.dev hst).trans hjob)
  refine ⟨_, exec_lastSlot h, ?_⟩
  simp only [afterSlots, hexit, tarn_landed_modTarn]
  refine ⟨onlyCore_modTarn _ _, exited_cleared, (tr_exited ..).trans (if_pos rfl), userMode_exited, ?_, rfl, fun a => ?_⟩
  · exact congrArg (fun v : W64 => v.extractLsb' 0 14) (tr_afterNop (n := 0x3C) (by decide) (by decide))
  · exact loadWord_afterNop a

end

/-- Settles O32: a NOP in the last slot completes whatever the kind (`exec_lastSlot`), and what stands behind it is one change of the core. -/
theorem afterDelaySlots : Obligations.AfterDelaySlots := fun _ _ _ _ hlc =>
  ⟨fun h => branch_takesEffect h hlc, fun h _ => reti_takesEffect h hlc, fun h _ => callu_takesEffect h, fun h _ hjob => retu_takesEffect h hjob⟩

end Sys2Proof.Machine
end

section
/-! PROOF. O34: interrupt entry (R242, R243). -/
namespace Sys2Proof.Machine

section
variable {c n k : Nat} {debug : Bool} {v : BitVec 14} {t x : Tarn} {s : State} {d : Dev}

/-- What an entry to vector `v` saves and clears (R243). -/
def entered (v : BitVec 14) (t : Tarn) : Tarn :=
  { setTr 0x30 (setFld (setFld (stOf t) 14 14 0) 15 15 0) (setTr 0x39 (stOf t &&& 0xFFFF) (setTr 0x38 (t.pc.zeroExtend 64) t)) with
    pc := v, waiting := false, past := [], cache := none, fill := false }

/-- The interrupt whose entry it is leaves the pending ones (R242). -/
def acknowledged (t y : Tarn) : Tarn :=
  if t.dbg then { y with dbg := false }
  else match t.mail with
    | m :: ms => { y with mail := ms, msg := m }
    | [] => if t.job then { y with job := false } else { y with sout := false }

theorem acknowledged_frame {y : Tarn} : (∀ n, tr n (acknowledged t y) = tr n y) ∧ loadsSee (acknowledged t y) = loadsSee y ∧
    (acknowledged t y).cs = y.cs ∧ (acknowledged t y).pm = y.pm ∧ (acknowledged t y).pc = y.pc := by
  unfold acknowledged
  split
  · exact ⟨fun _ => rfl, rfl, rfl, rfl, rfl⟩
  · split
    · exact ⟨fun _ => rfl, rfl, rfl, rfl, rfl⟩
    · split
      · exact ⟨fun _ => rfl, rfl, rfl, rfl, rfl⟩
      · exact ⟨fun _ => rfl, rfl, rfl, rfl, rfl⟩

theorem tr_entered : tr n (entered v t) = if n = 0x30 then setFld (setFld (stOf t) 14 14 0) 15 15 0 else if n = 0x39 then stOf t &&& 0xFFFF
    else if n = 0x38 then t.pc.zeroExtend 64 else tr n t := by
  refine (tr_setTr ..).trans (if_congr Iff.rfl rfl ((tr_setTr ..).trans (if_congr Iff.rfl rfl ?_)))
  exact tr_setTr ..

/-- IE and U cleared. -/
theorem bit_cleared (w : W64) : bit (setFld (setFld w 14 14 0) 15 15 0) k = (bit w k && decide (k ≠ 14 ∧ k ≠ 15)) := by
  by_cases hk : k < 64
  · rw [bit_setFld _ _ _ _ _ hk, bit_setFld _ _ _ _ _ hk]
    by_cases h15 : k = 15
    · rw [if_pos (by omega)]
      simp [h15]
    · rw [if_neg (by omega)]
      by_cases h14 : k = 14
      · rw [if_pos (by omega)]
        simp [h14]
      · rw [if_neg (by omega)]
        simp [h14, h15]
  · have hw : bit w k = false := BitVec.getLsbD_of_ge _ _ (by omega)
    rw [hw, Bool.false_and]
    exact BitVec.getLsbD_of_ge _ _ (by omega)

/-- The core as its entry finds it: a debug request has come, or not. -/
def requested (debug : Bool) (x : Tarn) : Tarn := if debug then { x with dbg := true } else x

theorem requested_eq : requested debug x = { x with dbg := debug || x.dbg } := by cases debug <;> rfl

/-- The vector of the highest priority (R242). -/
theorem pendingVector_requested (h : debug = true ∨ x.dbg = true ∨ x.mail ≠ [] ∨ x.job = true ∨ x.sout = true) :
    pendingVector (requested debug x) = some (if debug || x.dbg then 0x20 else if x.mail ≠ [] then 8 else if x.job then 0x10 else 0x18) := by
  rw [requested_eq]
  unfold pendingVector
  dsimp only
  by_cases hd : (debug || x.dbg) = true
  · simp [hd]
  · by_cases hm : x.mail = []
    · by_cases hj : x.job = true
      · simp [hd, hm, hj]
      · have hs : x.sout = true := by
          simp only [Bool.or_eq_true, not_or] at hd
          simpa [hd, hm, hj] using h
        simp [hd, hm, hj, hs]
    · simp [hd, hm]

/-- The core after the entry to vector `v`. -/
def interrupted (debug : Bool) (v : BitVec 14) (x : Tarn) : Tarn := acknowledged (requested debug x) (entered v (requested debug x))

theorem interrupted_frame : (∀ n, tr n (interrupted debug v x) = if n = 0x30 then setFld (setFld (tr 0x30 x) 14 14 0) 15 15 0
      else if n = 0x39 then tr 0x30 x &&& 0xFFFF else if n = 0x38 then x.pc.zeroExtend 64 else tr n x) ∧
    loadsSee (interrupted debug v x) = loadsSee x ∧ (interrupted debug v x).cs = x.cs ∧ (interrupted debug v x).pm = x.pm ∧
    (interrupted debug v x).pc = v := by
  obtain ⟨hregs, hloads, hcs, hpm, hpc⟩ := acknowledged_frame (t := requested debug x) (y := entered v (requested debug x))
  have hr : requested debug x = { x with dbg := debug || x.dbg } := requested_eq
  refine ⟨fun n => (hregs n).trans ?_, hloads.trans ?_, hcs.trans ?_, hpm.trans ?_, hpc⟩
  · rw [tr_entered, hr]
    rfl
  · rw [hr]
    rfl
  · rw [hr]
    rfl
  · rw [hr]
    rfl

theorem interruptEntry_enters (hx : executes c d = true) (hie : bit (tr 0x30 (tarn c d)) 14 = true) (hr : (tarn c d).rpt = none)
    (hs : (tarn c d).slots = none) (hv : pendingVector (requested debug (tarn c d)) = some v) :
    ∃ e, interruptEntry c debug d = modTarn c (fun _ => interrupted debug v (tarn c d)) e ∧
      e = { d with tarns := e.tarns } ∧ ∀ k, k ≠ c → tarn k e = tarn k d := by
  have found : ∃ e, (if debug then modTarn c (fun t => { t with dbg := true }) d else d) = e ∧ tarn c e = requested debug (tarn c d) ∧
      e = { d with tarns := e.tarns } ∧ ∀ k, k ≠ c → tarn k e = tarn k d := by
    cases debug with
    | false => exact ⟨d, rfl, rfl, rfl, fun _ _ => rfl⟩
    | true => exact ⟨_, rfl, by simp [requested], rfl, fun k hk => by simp [hk]⟩
  obtain ⟨e, he, htarn, hdev, hother⟩ := found
  refine ⟨e, ?_, hdev, hother⟩
  have hex : executes c e = true := (executes_congr (by rw [htarn, requested_eq])).trans hx
  have hie' : bit (stOf (requested debug (tarn c d))) 14 = true := by rwa [requested_eq]
  have hr' : (requested debug (tarn c d)).rpt = none := by rwa [requested_eq]
  have hs' : (requested debug (tarn c d)).slots = none := by rwa [requested_eq]
  unfold interruptEntry
  simp only [he, htarn, hv, hex, hie', hr', hs']
  rfl

end

/-- Settles O34: the entry is one change of the core (`interruptEntry_enters`) to the vector of `pendingVector_requested`. -/
theorem interruptEntry_holds : Obligations.InterruptEntry := by
  intro c debug s
  refine ⟨rfl, fun hx hie hr hs hpending => ?_⟩
  obtain ⟨e, henter, hdev, hother⟩ := interruptEntry_enters hx hie hr hs (pendingVector_requested hpending)
  generalize hv : (if debug || (tarn c s.dev).dbg then 0x20 else if (tarn c s.dev).mail ≠ [] then 8 else if (tarn c s.dev).job then 0x10 else 0x18 : BitVec 14) = v at henter
  obtain ⟨hregs, hloads, hcs, hpm, hpc⟩ := interrupted_frame (debug := debug) (v := v) (x := tarn c s.dev)
  have htarn : tarn c (modTarn c (fun _ => interrupted debug v (tarn c s.dev)) e) = interrupted debug v (tarn c s.dev) := (tarn_modTarn ..).trans (if_pos rfl)
  refine ⟨_, onDev_eq (F := interruptEntry c debug) henter, ⟨rfl, ?_, fun k hk => ?_⟩, ?_⟩
  · exact congrArg (fun d : Dev => { d with tarns := (modTarn c (fun _ => interrupted debug v (tarn c s.dev)) e).tarns }) hdev
  · exact ((tarn_modTarn ..).trans (if_neg hk)).trans (hother k hk)
  simp only [htarn]
  refine ⟨fun n hn _ _ _ => ?_, ⟨fun a => ?_, hcs, hpm⟩, ?_, ?_, fun k => ?_, hpc⟩
  · simp only [List.mem_cons, List.not_mem_nil, or_false, not_or] at hn
    obtain ⟨h30, h38, h39⟩ := hn
    rw [hregs, if_neg h30, if_neg h39, if_neg h38]
  · rw [loadWord, hloads]
    rfl
  · rw [hregs, if_neg (by decide), if_neg (by decide), if_pos rfl]
  · rw [hregs, if_neg (by decide), if_pos rfl]
  · rw [hregs, if_pos rfl]
    exact bit_cleared _

end Sys2Proof.Machine
end

section
/-! PROOF. O37: copies, the budget's end and illegal instructions (R251, R254, R264, R278). -/
namespace Sys2Proof.Machine

/-! ### DRAM, byte by byte (R12) -/

section
variable {a n v j k : Nat} {d : Dev}

theorem dramPut_succ : dramPut a (n + 1) v d = dramWrite (a + n) (BitVec.ofNat 8 (v >>> (8 * n))) (dramPut a n v d) := by
  rw [dramPut, List.range_succ, List.foldl_append]
  rfl

theorem dramRead_dramPut : ∀ n, dramRead k (dramPut a n v d) = if a ≤ k ∧ k < a + n then BitVec.ofNat 8 (v >>> (8 * (k - a))) else dramRead k d
  | 0 => by
    rw [if_neg (by omega)]
    rfl
  | n + 1 => by
    rw [dramPut_succ, dramRead_dramWrite, dramRead_dramPut n]
    by_cases hk : k = a + n
    · rw [if_pos hk, if_pos (by omega), hk, Nat.add_sub_cancel_left]
    · rw [if_neg hk]
      exact if_congr (by omega) rfl rfl

theorem dramPut_frame : ∀ n, dramPut a n v d = { d with dram := (dramPut a n v d).dram }
  | 0 => rfl
  | n + 1 => by
    rw [dramPut_succ]
    exact congrArg (dramWrite (a + n) _) (dramPut_frame n)

theorem dramGet_succ : dramGet a (n + 1) d = dramGet a n d + (dramRead (a + n) d).toNat <<< (8 * n) := by
  rw [dramGet, List.range_succ, List.map_append, List.foldl_append]
  rfl

theorem dramGet_lt : ∀ n, dramGet a n d < 2 ^ (8 * n)
  | 0 => by simp [dramGet]
  | n + 1 => by
    have ih := dramGet_lt n
    have hbyte : (dramRead (a + n) d).toNat < 2 ^ 8 := BitVec.isLt _
    have hpow : 2 ^ (8 * (n + 1)) = 2 ^ 8 * 2 ^ (8 * n) := by rw [← Nat.pow_add]; congr 1; omega
    rw [dramGet_succ, Nat.shiftLeft_eq, hpow]
    have hmul : (dramRead (a + n) d).toNat * 2 ^ (8 * n) ≤ 255 * 2 ^ (8 * n) := Nat.mul_le_mul_right _ (by omega)
    omega

/-- A byte of what was read together. -/
theorem dramGet_byte : ∀ n, j < n → BitVec.ofNat 8 (dramGet a n d >>> (8 * j)) = dramRead (a + j) d
  | 0, h => absurd h (by omega)
  | n + 1, h => by
    have hlt := dramGet_lt (a := a) (d := d) n
    rw [dramGet_succ, Nat.add_comm, Nat.shiftLeft_add_eq_or_of_lt hlt]
    apply BitVec.eq_of_getLsbD_eq
    intro b hb
    rw [BitVec.getLsbD_ofNat, Nat.testBit_shiftRight, Nat.testBit_or, Nat.testBit_shiftLeft, decide_eq_true hb, Bool.true_and]
    by_cases hj : j = n
    · subst hj
      have hhigh : Nat.testBit (dramGet a j d) (8 * j + b) = false :=
        Nat.testBit_lt_two_pow (hlt.trans_le (Nat.pow_le_pow_right (by decide) (by omega)))
      rw [hhigh, Bool.or_false, decide_eq_true (by omega), Bool.true_and, Nat.add_sub_cancel_left, BitVec.testBit_toNat]
    · have ih := congrArg (fun x : Byte => x.getLsbD b) (dramGet_byte n (by omega))
      simp only [BitVec.getLsbD_ofNat, Nat.testBit_shiftRight, decide_eq_true hb, Bool.true_and] at ih
      rw [ih, decide_eq_false (by omega), Bool.false_and, Bool.false_or]

end

/-! ### A copy (R278) -/

section
variable {b : DmaBlock} {a k m : Nat} {c : Nat} {s : State} {d x : Dev}

theorem dramBytes_lt (d : Dev) : dramBytes d < 2 ^ 44 := by
  have h : fld (rg rDRAM_CFG d) 7 0 < 2 ^ 8 := fld_lt _ 7 0
  unfold dramBytes
  omega

/-- A container of DRAM in the far space. -/
theorem farPlace_dram (h : a + 8 ≤ dramBytes d) : farPlace a 8 d = .dram a := by
  have hlt := dramBytes_lt d
  rw [farPlace, if_pos (by omega), if_pos h]

/-- One container of a copy. -/
def copied (b : DmaBlock) (i : Nat) (x : Dev) : Dev := dramPut (b.dst + 8 * i) 8 (dramGet (b.src + 8 * i) 8 x) x

theorem dramRead_copied : dramRead k (copied b m d) =
    if b.dst + 8 * m ≤ k ∧ k < b.dst + 8 * m + 8 then dramRead (b.src + 8 * m + (k - (b.dst + 8 * m))) d else dramRead k d := by
  rw [copied, dramRead_dramPut]
  by_cases h : b.dst + 8 * m ≤ k ∧ k < b.dst + 8 * m + 8
  · rw [if_pos h, if_pos h, dramGet_byte 8 (by omega)]
  · rw [if_neg h, if_neg h]

/-- The first `m` containers of a copy whose two ends lie apart in DRAM. -/
theorem farCopy_begun (hsrc : b.src + b.len ≤ dramBytes d) (hdst : b.dst + b.len ≤ dramBytes d)
    (hapart : b.src + b.len ≤ b.dst ∨ b.dst + b.len ≤ b.src) : ∀ m, 8 * m ≤ b.len →
    let x := (List.range m).foldl (fun x i => let r := farRead (b.src + 8 * i) 8 x; farWrite (b.dst + 8 * i) 8 r.1 r.2) d
    x = { d with dram := x.dram } ∧ ∀ k, dramRead k x = if b.dst ≤ k ∧ k < b.dst + 8 * m then dramRead (b.src + (k - b.dst)) d else dramRead k d
  | 0, _ => ⟨rfl, fun k => by rw [if_neg (by omega)]; rfl⟩
  | m + 1, hm => by
    obtain ⟨hframe, hread⟩ := farCopy_begun hsrc hdst hapart m (by omega)
    dsimp only at hframe hread ⊢
    rw [List.range_succ, List.foldl_append, List.foldl_cons, List.foldl_nil]
    generalize (List.range m).foldl _ d = x at hframe hread ⊢
    have hbytes : dramBytes x = dramBytes d := by rw [hframe]; rfl
    have hstep : farWrite (b.dst + 8 * m) 8 (farRead (b.src + 8 * m) 8 x).1 (farRead (b.src + 8 * m) 8 x).2 = copied b m x := by
      have hs := farPlace_dram (a := b.src + 8 * m) (d := x) (by omega)
      have ht := farPlace_dram (a := b.dst + 8 * m) (d := x) (by omega)
      rw [farRead, hs]
      simp only [farWrite, ht]
      rfl
    rw [hstep]
    refine ⟨?_, fun k => ?_⟩
    · refine (dramPut_frame 8).trans ?_
      exact congrArg (fun y : Dev => { y with dram := (copied b m x).dram }) hframe
    · rw [dramRead_copied, hread, hread]
      by_cases hin : b.dst + 8 * m ≤ k ∧ k < b.dst + 8 * m + 8
      · rw [if_pos hin, if_neg (by omega), if_pos (by omega)]
        congr 1
        omega
      · rw [if_neg hin]
        exact if_congr (by omega) rfl rfl

theorem farCopy_copies (hlen : b.len % 8 = 0) (hsrc : b.src + b.len ≤ dramBytes d) (hdst : b.dst + b.len ≤ dramBytes d)
    (hapart : b.src + b.len ≤ b.dst ∨ b.dst + b.len ≤ b.src) : farCopy b d = { d with dram := (farCopy b d).dram } ∧
      ∀ k, dramRead k (farCopy b d) = if b.dst ≤ k ∧ k < b.dst + b.len then dramRead (b.src + (k - b.dst)) d else dramRead k d := by
  have hall : 8 * (b.len / 8) = b.len := by omega
  obtain ⟨hframe, hread⟩ := farCopy_begun hsrc hdst hapart (b.len / 8) hall.le
  rw [hall] at hread
  exact ⟨hframe, hread⟩

theorem fld_setFld_zero {w : Nat} (v : BitVec w) (hi lo : Nat) : fld (setFld v hi lo 0) hi lo = 0 := by
  refine Nat.eq_of_testBit_eq fun k => ?_
  rw [Nat.zero_testBit, fld, Nat.testBit_mod_two_pow, Nat.testBit_shiftRight]
  by_cases hk : k < hi + 1 - lo
  · by_cases hw : lo + k < w
    · have hbit := bit_setFld v hi lo 0 (lo + k) hw
      rw [if_pos (by omega), Nat.zero_testBit] at hbit
      rw [BitVec.testBit_toNat]
      unfold bit at hbit
      rw [hbit, Bool.and_false]
    · rw [BitVec.testBit_toNat, BitVec.getLsbD_of_ge _ _ (by omega), Bool.and_false]
  · rw [decide_eq_false hk, Bool.false_and]

theorem dma_completes {rest : List DmaBlock} (hq : (tarn c s.dev).dmaq = b :: rest) (hlen : b.len % 8 = 0) (hsrc : b.src + b.len ≤ dramBytes s.dev)
    (hdst : b.dst + b.len ≤ dramBytes s.dev) (hapart : b.src + b.len ≤ b.dst ∨ b.dst + b.len ≤ b.src) :
    ∃ t, exec (.dmaComplete c) s = .next t ∧ t.pending = s.pending ∧ (tarn c t.dev).dmaq = rest ∧
      (∀ k, dramRead k t.dev = if b.dst ≤ k ∧ k < b.dst + b.len then dramRead (b.src + (k - b.dst)) s.dev else dramRead k s.dev) ∧
      fld (tabGet (fun _ => 0) (tarn c t.dev).dm ((b.blk + 3) % 65536)) 35 12 = 0 ∧
      ∀ k, k ≠ (b.blk + 3) % 65536 → tabGet (fun _ => 0) (tarn c t.dev).dm k = tabGet (fun _ => 0) (tarn c s.dev).dm k := by
  obtain ⟨hframe, hread⟩ := farCopy_copies hlen hsrc hdst hapart
  have hdone : dmaDone c s.dev = modTarn c (fun t => { t with
      dmaq := rest, dm := tabMod (fun _ => 0) t.dm ((b.blk + 3) % 65536) fun w => setFld w 35 12 0 }) (farCopy b s.dev) := by
    rw [dmaDone, hq]
  have htarn : tarn c (farCopy b s.dev) = tarn c s.dev := by rw [hframe]; rfl
  refine ⟨_, onDev_eq (F := dmaDone c) hdone, rfl, ?_, hread, ?_, fun k hk => ?_⟩
  all_goals simp only [tarn_modTarn, if_true, tabGet_tabMod]
  · exact fld_setFld_zero _ _ _
  · rw [if_neg hk, htarn]

end

/-! ### Exits that are counted (R254) -/

section
variable {c cause : Nat} {s : State} {d : Dev}

theorem stageEnds_of_no_job {x : TenEnd} (h : headJob c d = none) : stageEnds c x d = d := by
  unfold stageEnds
  rw [h]

/-- An exit that no job's stage turns on, other than RETU. -/
theorem userExit_counts (h : headJob c d = none) (hc : cause ≠ 0) :
    userExit c cause d = incRg (kTarn c oTARN_UEXC) (modTarn c (exited cause) d) := by
  have hjob : headJob c (incRg (kTarn c oTARN_UEXC) (modTarn c (exited cause) d)) = none := (headJob_modTarn c (exited cause) d rfl).trans h
  unfold userExit
  rw [if_neg hc]
  exact stageEnds_of_no_job hjob

theorem budget_ends (hx : executes c s.dev = true) (hu : userMode (tarn c s.dev) = true) (hjob : headJob c s.dev = none) :
    ∃ t, exec (.budgetAbort c) s = .next t ∧ t.pending = s.pending ∧ ClearedUser (tarn c t.dev) ∧ tr 0x3D (tarn c t.dev) = 1 ∧
      tr 0x3F (tarn c t.dev) = 0 ∧ userMode (tarn c t.dev) = false ∧ (tarn c t.dev).pc = (tr 0x3C (tarn c s.dev)).extractLsb' 0 14 ∧
      t.dev = { s.dev with tarns := t.dev.tarns, regs := t.dev.regs } ∧
      rgN (kTarn c oTARN_UEXC) t.dev = (rgN (kTarn c oTARN_UEXC) s.dev + 1) % 2 ^ 32 := by
  have hends : budgetEnds c s.dev = incRg (kTarn c oTARN_UEXC) (modTarn c (exited 1) (modTarn c (setTr 0x3F 0) s.dev)) := by
    have hjob' : headJob c (modTarn c (setTr 0x3F 0) s.dev) = none := (headJob_modTarn c (setTr 0x3F 0) s.dev rfl).trans hjob
    rw [budgetEnds, hx, hu, ← userExit_counts hjob' (by decide)]
    rfl
  have htarn : tarn c (incRg (kTarn c oTARN_UEXC) (modTarn c (exited 1) (modTarn c (setTr 0x3F 0) s.dev))) = exited 1 (setTr 0x3F 0 (tarn c s.dev)) := by
    show tarn c (modTarn c (exited 1) (modTarn c (setTr 0x3F 0) s.dev)) = _
    simp
  refine ⟨_, onDev_eq (F := budgetEnds c) hends, rfl, ?_⟩
  rw [htarn]
  refine ⟨exited_cleared, (tr_exited ..).trans (if_pos rfl), ?_, userMode_exited, ?_, rfl, rgN_incRg _ _⟩
  · rw [tr_exited, if_neg (by decide), if_neg (by decide), tr_clearUser, if_pos (by decide)]
    exact (tr_setTr ..).trans (if_pos rfl)
  · exact congrArg (fun v : W64 => v.extractLsb' 0 14) ((tr_setTr ..).trans (if_neg (by decide)))

theorem copyCompletesAndBudgetEnds : CopyCompletesAndBudgetEnds := fun _ _ =>
  ⟨fun _ _ hq hlen hsrc hdst hapart => dma_completes hq hlen hsrc hdst hapart, budget_ends⟩

/-! ### Illegal instructions (R251, R254, R264) -/

theorem exec_illegal (h : fetchTarn c .add s.dev = .illegal) : exec (.add c) s = .next { s with dev := illegalAt c s.dev } := by
  refine onDev_eq (F := runTarn c .add (aluSem c .add)) ?_
  rw [runTarn, h]

theorem illegal_exits (h : fetchTarn c .add s.dev = .illegal) (hu : userMode (tarn c s.dev) = true) (hjob : headJob c s.dev = none) :
    ∃ t, exec (.add c) s = .next t ∧ t.pending = s.pending ∧ t.dev = { s.dev with tarns := t.dev.tarns, regs := t.dev.regs } ∧
      ClearedUser (tarn c t.dev) ∧ tr 0x3D (tarn c t.dev) = 2 ∧ userMode (tarn c t.dev) = false ∧
      (tarn c t.dev).pc = (tr 0x3C (tarn c s.dev)).extractLsb' 0 14 ∧ ∀ a, loadWord (tarn c t.dev) a = loadWord (tarn c s.dev) a := by
  have hexit : illegalAt c s.dev = incRg (kTarn c oTARN_UEXC) (modTarn c (exited 2) s.dev) := by
    rw [illegalAt, if_pos hu, userExit_counts hjob (by decide)]
  have htarn : tarn c (incRg (kTarn c oTARN_UEXC) (modTarn c (exited 2) s.dev)) = exited 2 (tarn c s.dev) := by
    show tarn c (modTarn c (exited 2) s.dev) = _
    simp
  refine ⟨_, exec_illegal h, rfl, ?_⟩
  rw [hexit, htarn]
  exact ⟨rfl, exited_cleared, (tr_exited ..).trans (if_pos rfl), userMode_exited, rfl, fun _ => rfl⟩

theorem setDevSt_keeps (st : DevSt) (d : Dev) : (setDevSt st d).tarns = d.tarns ∧ (setDevSt st d).weir = d.weir ∧
    ∀ k, k ≠ rPWR_STATE_TIME → rg k (setDevSt st d) = rg k d := by
  unfold setDevSt
  split
  · exact ⟨rfl, rfl, fun _ _ => rfl⟩
  · have ht := raise_touched 2 1 (setRgN rPWR_STATE_TIME (now d).toNat { d with pwr := { d.pwr with st := st } })
    refine ⟨by rw [ht]; rfl, ht.weir, fun k hk => (ht.rg k).trans ?_⟩
    rw [rg_setRgN, if_neg hk]
    rfl

theorem actLow_keeps (d : Dev) : (actLow d).tarns = d.tarns ∧ (actLow d).weir = d.weir ∧ (actLow d).regs = d.regs := by
  unfold actLow
  split
  · exact ⟨rfl, rfl, rfl⟩
  · exact ⟨rfl, rfl, rfl⟩

/-- The entry to FAULT leaves the cores and the Weir, and writes two registers of PWR (R445). -/
theorem enterFault_keeps (reason page : Nat) (d : Dev) : (enterFault reason page d).tarns = d.tarns ∧ (enterFault reason page d).weir = d.weir ∧
    ∀ k, k ≠ rPWR_STATE_TIME → k ≠ rPWR_FAULT → rg k (enterFault reason page d) = rg k d := by
  unfold enterFault
  split
  · exact ⟨rfl, rfl, fun _ _ _ => rfl⟩
  · extract_lets pf d1 twin d2
    obtain ⟨ht1, hw1, hr1⟩ := setDevSt_keeps .fault (setRgN rPWR_FAULT pf d)
    obtain ⟨ht2, hw2, hr2⟩ := actLow_keeps { d1 with twin := { twin with own := false } }
    have hrec := faultRec_touched ⟨0xF4, now d, 0, body [(12, 4, pf)]⟩ d2
    refine ⟨?_, ?_, fun k hst hf => (hrec.rg k).trans ?_⟩
    · rw [hrec]
      exact ht2.trans ht1
    · exact hrec.weir.trans (hw2.trans hw1)
    · refine (congrArg (fun r => tabGet regReset r k) hr2).trans ((hr1 k hst).trans ?_)
      rw [rg_setRgN, if_neg hf]

/-- The device once core `c` has stopped with `v` in TARN_FAULT, before the cause is raised (R251). -/
def stopped (c v : Nat) (d : Dev) : Dev :=
  statusFault (tarnPage c) true (modTarn c (fun t => { t with st := .faulted, waiting := false, slots := none, rpt := none })
    (setRgN (kTarn c oTARN_FAULT_TIME) (now d).toNat (setRgN (kTarn c oTARN_FAULT) v d)))

theorem tarn_stopped (c v k : Nat) (d : Dev) : tarn k (stopped c v d) =
    if k = c then { tarn c d with st := .faulted, waiting := false, slots := none, rpt := none } else tarn k d := by
  have h : (stopped c v d).tarns = (modTarn c (fun t => { t with st := .faulted, waiting := false, slots := none, rpt := none }) d).tarns := rfl
  rw [tarn_congr h, tarn_modTarn]

theorem regs_stopped (c v : Nat) (d : Dev) :
    (stopped c v d).regs = (setRgN (kTarn c oTARN_FAULT_TIME) (now d).toNat (setRgN (kTarn c oTARN_FAULT) v d)).regs := rfl

theorem fault_stopped (c v : Nat) (d : Dev) : rg (kTarn c oTARN_FAULT) (stopped c v d) = BitVec.ofNat 64 v := by
  have hne : kTarn c oTARN_FAULT ≠ kTarn c oTARN_FAULT_TIME := by simp [kTarn, oTARN_FAULT, oTARN_FAULT_TIME]
  rw [rg, regs_stopped, ← rg, rg_setRgN, if_neg hne, rg_setRgN, if_pos rfl]

theorem coreStops_eq (c src : Nat) (cs : Bool) (d : Dev) : coreStops c src cs d =
    raise (tarnPage c) 0 (stopped c (src * 2 ^ 28 + b2n (cs && decide (src = 2)) * 2 ^ 14 + (tarn c d).pc.toNat) d) := rfl

/-- A stopped core leaves the others and the Weir, and TARN_FAULT says why and where. -/
theorem stopped_raised (c v : Nat) (d : Dev) : (tarn c (raise (tarnPage c) 0 (stopped c v d))).st = .faulted ∧
    (∀ k, k ≠ c → tarn k (raise (tarnPage c) 0 (stopped c v d)) = tarn k d) ∧ (raise (tarnPage c) 0 (stopped c v d)).weir = d.weir ∧
    rg (kTarn c oTARN_FAULT) (raise (tarnPage c) 0 (stopped c v d)) = BitVec.ofNat 64 v := by
  have ht := raise_touched (tarnPage c) 0 (stopped c v d)
  have htarn (k : Nat) : tarn k (raise (tarnPage c) 0 (stopped c v d)) = tarn k (stopped c v d) := by rw [ht]; rfl
  refine ⟨?_, fun k hk => ?_, ht.weir.trans rfl, (ht.rg _).trans (fault_stopped c v d)⟩
  · rw [htarn, tarn_stopped, if_pos rfl]
  · rw [htarn, tarn_stopped, if_neg hk]

/-- A core stops (R251). -/
theorem coreStops_stops (c src : Nat) (cs : Bool) (d : Dev) : (tarn c (coreStops c src cs d)).st = .faulted ∧
    (∀ k, k ≠ c → tarn k (coreStops c src cs d) = tarn k d) ∧ (coreStops c src cs d).weir = d.weir ∧
    rg (kTarn c oTARN_FAULT) (coreStops c src cs d) =
      BitVec.ofNat 64 (src * 2 ^ 28 + b2n (cs && decide (src = 2)) * 2 ^ 14 + (tarn c d).pc.toNat) := by
  rw [coreStops_eq]
  exact stopped_raised c _ d

/-- A control core that runs and faults stops; the device may enter FAULT (R251, R445). -/
theorem faultCore_control (h64 : 64 ≤ c) (h68 : c < 68) (hst : (tarn c d).st ≠ .faulted) (src : Nat) (cs : Bool) :
    (tarn c (faultCore c src cs d)).st = .faulted ∧ (∀ k, k ≠ c → tarn k (faultCore c src cs d) = tarn k d) ∧
    (faultCore c src cs d).weir = d.weir ∧ rg (kTarn c oTARN_FAULT) (faultCore c src cs d) =
      BitVec.ofNat 64 (src * 2 ^ 28 + b2n (cs && decide (src = 2)) * 2 ^ 14 + (tarn c d).pc.toNat) := by
  have hstops := coreStops_stops c src cs d
  rw [faultCore, if_pos h64, if_neg (by rintro (h | h); exacts [absurd h (by omega), hst h])]
  extract_lets d1
  split
  · have ht := raise_touched 2 0 d1
    obtain ⟨htarns, hweir, hregs⟩ := enterFault_keeps 4 (tarnPage c) (raise 2 0 d1)
    have htarn (k : Nat) : tarn k (enterFault 4 (tarnPage c) (raise 2 0 d1)) = tarn k d1 :=
      (tarn_congr htarns k).trans (by rw [ht]; rfl)
    have hkey : kTarn c oTARN_FAULT ≠ rPWR_STATE_TIME ∧ kTarn c oTARN_FAULT ≠ rPWR_FAULT := by
      unfold kTarn tarnPage oTARN_FAULT rPWR_STATE_TIME rPWR_FAULT
      omega
    obtain ⟨hfault, hother, hw, hrg⟩ := hstops
    refine ⟨by rw [htarn]; exact hfault, fun k hk => (htarn k).trans (hother k hk), hweir.trans (ht.weir.trans hw), ?_⟩
    exact (hregs _ hkey.1 hkey.2).trans ((ht.rg _).trans hrg)
  · exact hstops

theorem fld_ofNat {n hi lo : Nat} (h : n < 2 ^ 64) : fld (BitVec.ofNat 64 n) hi lo = n / 2 ^ lo % 2 ^ (hi + 1 - lo) := by
  rw [fld, BitVec.toNat_ofNat, Nat.mod_eq_of_lt h, Nat.shiftRight_eq_div_pow]

theorem illegal_faults (h : fetchTarn c .add s.dev = .illegal) (hu : userMode (tarn c s.dev) = false) (h64 : 64 ≤ c)
    (hlate : s.dev.weir.lateFrom = none) : ∃ t, exec (.add c) s = .next t ∧ t.pending = s.pending ∧ (tarn c t.dev).st = .faulted ∧
      fld (rg (kTarn c oTARN_FAULT) t.dev) 31 28 = 4 ∧ fld (rg (kTarn c oTARN_FAULT) t.dev) 13 0 = (tarn c s.dev).pc.toNat ∧
      ∀ k, k ≠ c → tarn k t.dev = tarn k s.dev := by
  have hx : executes c s.dev = true := by
    by_contra hno
    rw [Bool.not_eq_true] at hno
    simp [fetchTarn, hno] at h
  simp only [executes, isControlCore, decide_eq_true h64, if_true, Bool.and_eq_true, decide_eq_true_eq] at hx
  obtain ⟨h68, hrun⟩ := hx
  obtain ⟨hfault, hother, hweir, hrg⟩ := faultCore_control h64 h68 (by rw [hrun]; decide) 4 false
  have hstop : illegalAt c s.dev = faultCore c 4 false s.dev := by
    rw [illegalAt, hu, if_neg (by decide)]
    exact releaseLate_none (hweir ▸ hlate)
  refine ⟨_, exec_illegal h, rfl, ?_⟩
  have hcs : b2n (false && decide (4 = 2)) = 0 := rfl
  rw [hstop, hrg, hcs]
  have hpc : (tarn c s.dev).pc.toNat < 2 ^ 14 := BitVec.isLt _
  refine ⟨hfault, ?_, ?_, hother⟩
  · rw [fld_ofNat (by omega)]
    omega
  · rw [fld_ofNat (by omega)]
    omega

end

/-- Settles O37: copies by `farCopy_copies`, exits by `userExit_counts`, a control core's fault by `faultCore_control`. -/
theorem copiesAndUserExits : Obligations.CopiesAndUserExits :=
  ⟨copyCompletesAndBudgetEnds, fun _ _ h => ⟨illegal_exits h, illegal_faults h⟩⟩

end Sys2Proof.Machine
end

section
/-! PROOF. O39: what a program in user mode can change (R253, R254). An instruction keeps its core's memories and asks for stores within the
window (`KeepsTo`); completing, exiting or aborting then changes nothing else (`Confined`). -/
namespace Sys2Proof.Machine

/-! ### Confinement -/

/-- From `d` to `e` data memory of core `c` changed within `lo` to `hi` only, and no other memory and no other core changed. -/
structure Confined (c lo hi : Nat) (d e : Dev) : Prop where
  window : ∀ a, a < lo ∨ hi < a → loadWord (tarn c e) a = loadWord (tarn c d) a
  cs : (tarn c e).cs = (tarn c d).cs
  pm : (tarn c e).pm = (tarn c d).pm
  basin : e.basin = d.basin
  dram : e.dram = d.dram
  others : ∀ k, k ≠ c → tarn k e = tarn k d

/-- The core's memories stand. -/
structure Kept (x y : Tarn) : Prop where
  dm : y.dm = x.dm
  cs : y.cs = x.cs
  pm : y.pm = x.pm

/-- The words a store of the buffer writes lie within `lo` to `hi`. -/
structure Within (lo hi : Nat) (e : PendStore) : Prop where
  first : lo ≤ e.addr ∧ e.addr ≤ hi
  second : e.two ≠ none → lo ≤ (e.addr + 1) % 65536 ∧ (e.addr + 1) % 65536 ≤ hi

/-- The operation keeps the memories and stores within `lo` to `hi`, or ends the instruction. -/
def KeepsTo (lo hi : Nat) (x : Tarn) : Eff → Prop
  | .stop _ => True
  | .go y u _ => Kept x y ∧ ∀ e ∈ u.stores, Within lo hi e

section
variable {c lo hi a : Nat} {d e f : Dev} {x y z : Tarn} {l ps : List Nat}

theorem Confined.refl : Confined c lo hi d d := ⟨fun _ _ => rfl, rfl, rfl, rfl, rfl, fun _ _ => rfl⟩

theorem Confined.trans (h : Confined c lo hi d e) (g : Confined c lo hi e f) : Confined c lo hi d f :=
  ⟨fun a ha => (g.window a ha).trans (h.window a ha), g.cs.trans h.cs, g.pm.trans h.pm, g.basin.trans h.basin, g.dram.trans h.dram,
    fun k hk => (g.others k hk).trans (h.others k hk)⟩

/-- A change of the core that loads do not see. -/
theorem confined_modTarn {g : Tarn → Tarn} (hloads : loadsSee (g (tarn c d)) = loadsSee (tarn c d)) (hcs : (g (tarn c d)).cs = (tarn c d).cs)
    (hpm : (g (tarn c d)).pm = (tarn c d).pm) : Confined c lo hi d (modTarn c g d) := by
  have htarn : tarn c (modTarn c g d) = g (tarn c d) := (tarn_modTarn ..).trans (if_pos rfl)
  refine ⟨fun a _ => ?_, ?_, ?_, rfl, rfl, fun k hk => (tarn_modTarn ..).trans (if_neg hk)⟩
  · rw [htarn, loadWord, hloads]
    rfl
  · rw [htarn, hcs]
  · rw [htarn, hpm]

/-- A change of the device that leaves its cores, the Basin and the DRAM. -/
theorem confined_of_eq (htarns : e.tarns = d.tarns) (hbasin : e.basin = d.basin) (hdram : e.dram = d.dram) : Confined c lo hi d e := by
  have htarn (k : Nat) : tarn k e = tarn k d := tarn_congr htarns k
  exact ⟨fun a _ => by rw [htarn], by rw [htarn], by rw [htarn], hbasin, hdram, fun k _ => htarn k⟩

/-! ### Exits from user mode (R254) -/

theorem confined_stageEnds {w : TenEnd} : Confined c lo hi d (stageEnds c w d) := by
  unfold stageEnds
  split
  · exact .refl
  · split
    · exact .refl
    · exact confined_of_eq rfl rfl rfl

theorem confined_userExit {cause : Nat} : Confined c lo hi d (userExit c cause d) := by
  have hexit : Confined c lo hi d (modTarn c (exited cause) d) := confined_modTarn rfl rfl rfl
  unfold userExit
  split
  · dsimp only
    split
    · exact hexit.trans confined_stageEnds
    · exact hexit
  · exact (hexit.trans (confined_of_eq (e := incRg (kTarn c oTARN_UEXC) (modTarn c (exited cause) d)) rfl rfl rfl)).trans confined_stageEnds

theorem confined_afterSlots {p : Option Slots} : Confined c lo hi d (afterSlots c p d) := by
  unfold afterSlots
  split
  · exact .refl
  · split
    · exact confined_modTarn rfl rfl rfl
    · exact confined_modTarn rfl rfl rfl
    · exact confined_userExit
    · exact .refl

theorem confined_illegalAt (hu : userMode (tarn c d) = true) : Confined c lo hi d (illegalAt c d) := by
  rw [illegalAt, if_pos hu]
  exact confined_userExit

/-! ### Completion -/

theorem tabGet_retire_outside {p : PendStore} {m : Tab Word} (hp : Within lo hi p) (ha : a < lo ∨ hi < a) :
    tabGet (fun _ => 0) (retire p m) a = tabGet (fun _ => 0) m a := by
  have hfirst : tabGet (fun _ => 0) (putHalves p.addr p.halves p.data m) a = tabGet (fun _ => 0) m a := by
    obtain ⟨h1, h2⟩ := hp.first
    exact (tabGet_tabMod ..).trans (if_neg (by omega))
  unfold retire
  cases htwo : p.two with
  | none => exact hfirst
  | some w =>
    obtain ⟨h1, h2⟩ := hp.second (by rw [htwo]; exact Option.some_ne_none w)
    exact ((tabGet_tabMod ..).trans (if_neg (by omega))).trans hfirst

theorem tabGet_drained_outside (ha : a < lo ∨ hi < a) : ∀ {l : List PendStore} {m : Tab Word}, (∀ p ∈ l, Within lo hi p) →
    tabGet (fun _ => 0) (drained l m) a = tabGet (fun _ => 0) m a
  | [], _, _ => rfl
  | p :: l, m, h => by
    have ih := tabGet_drained_outside ha (l := l) (m := retire p m) fun q hq => h q (List.mem_cons_of_mem _ hq)
    exact ih.trans (tabGet_retire_outside (h p (List.mem_cons_self ..)) ha)

theorem confined_landed {i : TI} {u : Use} {skip : Option Nat} (hk : Kept (ageAll (tarn c d)) y) (hs : ∀ p ∈ u.stores, Within lo hi p) :
    Confined c lo hi d (modTarn c (fun _ => landed c i y u skip d) d) := by
  have htarn : tarn c (modTarn c (fun _ => landed c i y u skip d) d) = landed c i y u skip d := (tarn_modTarn ..).trans (if_pos rfl)
  obtain ⟨hcs, hpm, -⟩ := landed_frame (c := c) (i := i) (t := y) (u := u) (skip := skip) (d := d)
  refine ⟨fun a ha => ?_, ?_, ?_, rfl, rfl, fun k hk => (tarn_modTarn ..).trans (if_neg hk)⟩
  · rw [htarn, loadWord, loadsSee_landed, drained_append, tabGet_drained_outside ha hs, hk.dm]
    rfl
  · rw [htarn, hcs, hk.cs]
    rfl
  · rw [htarn, hpm, hk.pm]
    rfl

/-- An instruction of a core in user mode that keeps to the window is confined to it, however it ends. -/
theorem confined_completeInstr {i : TI} {e : Eff} (hu : userMode (tarn c d) = true) (h : KeepsTo lo hi (ageAll (tarn c d)) e) :
    Confined c lo hi d (completeInstr c i e d) := by
  cases e with
  | stop cause =>
    unfold completeInstr
    dsimp only
    split
    · exact confined_illegalAt hu
    · exact confined_userExit
  | go y u skip =>
    obtain ⟨hkept, hstores⟩ := h
    by_cases hleft : (spent c i u d).all < (tr 0x3F (tarn c d)).toNat
    · have hcharged : charged c i y u skip d = modTarn c (fun _ => landed c i y u skip d) d := if_pos hu
      rw [completeInstr_spent fun _ => hleft, hcharged]
      split
      · exact (confined_landed hkept hstores).trans confined_afterSlots
      · exact confined_landed hkept hstores
    · unfold completeInstr
      unfold spent at hleft
      simp only
      rw [if_pos ⟨hu, Nat.le_of_not_lt hleft⟩]
      exact (confined_modTarn rfl rfl rfl).trans confined_userExit

theorem confined_runTarn {op : TOp} {sem : TI → Tarn → Eff} (hu : userMode (tarn c d) = true)
    (h : ∀ i, fetchTarn c op d = .ok i → KeepsTo lo hi (ageAll (tarn c d)) (sem i (ageAll (tarn c d)))) : Confined c lo hi d (runTarn c op sem d) := by
  unfold runTarn
  split
  · exact .refl
  · exact confined_illegalAt hu
  · next i hfetch => exact confined_completeInstr hu (h i hfetch)

end

/-! ### Operations that store nothing -/

section
variable {c lo hi : Nat} {i : TI} {x y z : Tarn} {l ps : List Nat} {skip : Option Nat}

theorem Writes.kept (w : Writes l ps x y) : Kept x y := ⟨w.dm, w.cs, w.pm⟩

theorem Kept.trans (h : Kept x y) (g : Kept y z) : Kept x z := ⟨g.dm.trans h.dm, g.cs.trans h.cs, g.pm.trans h.pm⟩

theorem keepsTo_of_kept {u : Use} (h : Kept x y) (hu : u.stores = []) : KeepsTo lo hi x (.go y u skip) :=
  ⟨h, by simp [hu]⟩

/-- An operation that writes registers only. -/
theorem keepsTo_of_writes (w : Writes l ps x y) : KeepsTo lo hi x (.go y Use.none skip) := keepsTo_of_kept w.kept rfl

theorem keepsTo_alu {op : TOp} : KeepsTo lo hi x (aluSem c op i x) := by
  unfold aluSem
  dsimp only
  split
  · exact keepsTo_of_writes Writes.refl.setFlags
  · exact keepsTo_of_writes Writes.refl.writeReg.setFlags

theorem keepsTo_imm {op : TOp} : KeepsTo lo hi x (immSem c op i x) := by
  by_cases hrd : i.rd < 16
  · rw [immSem_leaves x hrd, aluLeaves]
    split
    · exact keepsTo_of_writes Writes.refl.writeReg.setFlags
    · exact keepsTo_of_writes Writes.refl.setFlags
  · unfold immSem
    rw [if_neg hrd]
    exact keepsTo_of_writes Writes.refl.writeReg

theorem keepsTo_mva : KeepsTo lo hi x (mvaSem c i x) := keepsTo_of_writes Writes.refl.writeReg.setFlags

theorem keepsTo_acwr : KeepsTo lo hi x (acwrSem c i x) := by
  unfold acwrSem
  dsimp only
  split
  · exact keepsTo_of_writes Writes.refl.setAcc1
  · exact keepsTo_of_writes Writes.refl.setAcc1
  · exact keepsTo_of_writes Writes.refl.setAcc

theorem keepsTo_branchTo {k target : Nat} (h : Kept x y) : KeepsTo lo hi x (branchTo k target y) := keepsTo_of_kept ⟨h.dm, h.cs, h.pm⟩ rfl

theorem keepsTo_branch {link indirect : Bool} : KeepsTo lo hi x (branchSem link indirect i x) := by
  have hlink (v : Word) : Kept x (if link then writeReg 0x17 v false x else x) := by
    split
    · exact Writes.refl.writeReg.kept
    · exact ⟨rfl, rfl, rfl⟩
  unfold branchSem
  dsimp only
  split
  · exact keepsTo_branchTo (hlink _)
  · exact keepsTo_branchTo ⟨rfl, rfl, rfl⟩

theorem keepsTo_rpt {n : Nat} : KeepsTo lo hi x (rptSem n x) := by
  unfold rptSem
  dsimp only
  split
  · trivial
  · split
    · split
      · split
        · exact keepsTo_of_kept ⟨rfl, rfl, rfl⟩ rfl
        · trivial
      · trivial
    · exact keepsTo_of_kept ⟨rfl, rfl, rfl⟩ rfl

/-! ### Loads and stores -/

theorem kept_modeEA {step : Int} : Kept x (modeEA i step x).2 := by
  unfold modeEA
  dsimp only
  split
  · exact ⟨rfl, rfl, rfl⟩
  · exact Writes.refl.postMod.kept
  · exact Writes.refl.postMod.kept
  · exact Writes.refl.postMod.kept
  · exact ⟨rfl, rfl, rfl⟩
  · exact ⟨rfl, rfl, rfl⟩

theorem readSpace_stores {sp halves : Nat} {a : BitVec 16} {more : List PendStore} {r : Word × Use} (h : readSpace sp a halves more x = some r) :
    r.2.stores = [] := by
  unfold readSpace at h
  split at h
  · obtain ⟨p, -, rfl⟩ := Option.map_eq_some_iff.1 h
    rfl
  · cases h
    rfl
  · dsimp only at h
    split at h
    · cases h
    · cases h
      rfl

/-- What goes on has found its words in the window. -/
theorem keepsTo_orWindow {r : Option (Tarn × Use)} (h : ∀ y u, r = some (y, u) → Kept x y ∧ ∀ e ∈ u.stores, Within lo hi e) :
    KeepsTo lo hi x (orWindow r) := by
  cases r with
  | none => trivial
  | some p => exact h p.1 p.2 rfl

theorem keepsTo_load {halves : Nat} {f : Word → Tarn → Tarn} (hf : ∀ v t, Kept t (f v t)) : KeepsTo lo hi x (loadSem halves f i x) := by
  refine keepsTo_orWindow fun y u h => ?_
  obtain ⟨r, hr, hy⟩ := Option.map_eq_some_iff.1 h
  obtain ⟨rfl, rfl⟩ := Prod.mk.injEq .. ▸ hy
  exact ⟨kept_modeEA.trans (hf _ _), by simp [readSpace_stores hr]⟩

theorem keepsTo_ldd : KeepsTo lo hi x (lddSem i x) := by
  refine keepsTo_orWindow fun y u h => ?_
  split at h
  · cases h
    exact ⟨kept_modeEA.trans Writes.refl.writeReg.writeReg.kept, by simp⟩
  · cases h

/-- An address of a core in user mode lies in its window (R253). -/
theorem dmAddr_window {a : BitVec 16} {p : Nat} (hu : userMode x = true) (h16 : (tr 0x3B x).toNat < 65536)
    (hle : (tr 0x3A x).toNat ≤ (tr 0x3B x).toNat) (h : dmAddr a x = some p) :
    p = (tr 0x3A x).toNat + a.toNat ∧ (tr 0x3A x).toNat ≤ p ∧ p ≤ (tr 0x3B x).toNat := by
  rw [dmAddr, if_pos hu] at h
  obtain ⟨hin, hp⟩ := Option.ite_none_right_eq_some.1 h
  have hp := Option.some.inj hp
  omega

/-- A store of one word at an address of the window. -/
theorem within_store {a : BitVec 16} {p halves : Nat} {v : Word} (hu : userMode x = true) (h16 : (tr 0x3B x).toNat < 65536)
    (hle : (tr 0x3A x).toNat ≤ (tr 0x3B x).toNat) (h : dmAddr a x = some p) :
    Within (tr 0x3A x).toNat (tr 0x3B x).toNat ⟨p, halves, v, none⟩ :=
  ⟨(dmAddr_window hu h16 hle h).2, fun h => absurd rfl h⟩

theorem keepsTo_store {halves : Nat} {v : Word} {f : Tarn → Tarn} (hu : userMode x = true) (h16 : (tr 0x3B x).toNat < 65536)
    (hle : (tr 0x3A x).toNat ≤ (tr 0x3B x).toNat) (hsp : i.sp = 0) (hf : ∀ t, Kept t (f t)) :
    KeepsTo (tr 0x3A x).toNat (tr 0x3B x).toNat x (storeSem halves v f i x) := by
  refine keepsTo_orWindow fun y u h => ?_
  rw [hsp] at h
  obtain ⟨p, hp, hy⟩ := Option.map_eq_some_iff.1 h
  cases hy
  exact ⟨kept_modeEA.trans (hf _), by simpa using within_store hu h16 hle hp⟩

theorem kept_raiseV {b : Bool} : Kept x (raiseV b x) := writes_raiseV.kept

theorem evenAddr_succ (a : BitVec 16) : (evenAddr a + 1).toNat = (evenAddr a).toNat + 1 := by
  have heven : (evenAddr a).toNat % 2 = 0 := by
    have hbit : (evenAddr a).getLsbD 0 = false := by simp [evenAddr]
    rwa [← BitVec.testBit_toNat, Nat.testBit_zero, decide_eq_false_iff_not, Nat.mod_two_not_eq_one] at hbit
  have hlt : (evenAddr a).toNat < 65536 := BitVec.isLt _
  rw [BitVec.toNat_add]
  show ((evenAddr a).toNat + 1) % 65536 = _
  omega

theorem keepsTo_std (hu : userMode x = true) (h16 : (tr 0x3B x).toNat < 65536) (hle : (tr 0x3A x).toNat ≤ (tr 0x3B x).toNat) (hsp : i.sp = 0) :
    KeepsTo (tr 0x3A x).toNat (tr 0x3B x).toNat x (stdSem c i x) := by
  refine keepsTo_orWindow fun y u h => ?_
  simp only [hsp] at h
  split at h
  · next p q hp hq =>
    cases h
    obtain ⟨hfirst, hin⟩ := dmAddr_window hu h16 hle hp
    obtain ⟨hsecond, -, hq⟩ := dmAddr_window hu h16 hle hq
    rw [evenAddr_succ] at hsecond
    refine ⟨kept_modeEA, ?_⟩
    simp only [List.mem_singleton, forall_eq]
    exact ⟨hin, fun _ => by dsimp only; omega⟩
  · cases h

/-! ### Multiply-accumulates -/

/-- Parts of an instruction of format M have run from `x` to `y`. -/
def Ran (x y : Tarn) : Prop := ∃ l ps v, MacStep l ps v x y

theorem Ran.trans (h : Ran x y) (g : Ran y z) : Ran x z := by
  obtain ⟨_, _, _, h⟩ := h
  obtain ⟨_, _, _, g⟩ := g
  exact ⟨_, _, _, h.trans g⟩

theorem Ran.refl : Ran x x := ⟨_, _, _, MacStep.refl⟩

theorem Ran.kept (h : Ran x y) : Kept x y := by
  obtain ⟨_, _, _, h⟩ := h
  exact h.writes.kept

theorem ran_macEA {n code : Nat} (hn : n < 8) : Ran x (macEA n code x).2 := ⟨_, _, _, (macEA_step hn).2⟩

theorem ran_operand {sp n code : Nat} {r : Word × Tarn × Use} (hn : n < 8)
    (h : ((readSpace sp (macEA n code x).1 3 [] x).map fun q => (q.1, (macEA n code x).2, q.2)) = some r) : Ran x r.2.1 ∧ r.2.2.stores = [] := by
  obtain ⟨q, hq, rfl⟩ := Option.map_eq_some_iff.1 h
  exact ⟨ran_macEA hn, readSpace_stores hq⟩

theorem ran_xOperand {xs : Nat} {r : Word × Tarn × Use} (h : xOperand c xs x = some r) : Ran x r.2.1 ∧ r.2.2.stores = [] := by
  unfold xOperand at h
  split at h
  · cases h
    exact ⟨Ran.refl, rfl⟩
  · exact ran_operand (by omega) h

theorem ran_yOperand {ys : Nat} {r : Word × Tarn × Use} (h : yOperand c ys x = some r) : Ran x r.2.1 ∧ r.2.2.stores = [] := by
  unfold yOperand at h
  split at h
  · cases h
    exact ⟨Ran.refl, rfl⟩
  · exact ran_operand (by omega) h

theorem ran_move {n m : Nat} {more : List PendStore} {r : Tarn × Use} (hu : userMode x = true) (h16 : (tr 0x3B x).toNat < 65536)
    (hle : (tr 0x3A x).toNat ≤ (tr 0x3B x).toNat) (hn : n < 8) (hran : Ran x y) (h : moveSem c n m more x y = some r) :
    Ran y r.1 ∧ ∀ e ∈ r.2.stores, Within (tr 0x3A x).toNat (tr 0x3B x).toNat e := by
  unfold moveSem at h
  split at h
  · cases h
    exact ⟨Ran.refl, by simp [Use.none]⟩
  · dsimp only at h
    split at h
    · obtain ⟨q, hq, rfl⟩ := Option.map_eq_some_iff.1 h
      have hreg := mvReg_lt (m := m)
      refine ⟨(ran_macEA hn).trans ⟨_, _, _, macStep_of_writes Writes.refl.writeReg (by simp; omega)⟩, by simp [readSpace_stores hq]⟩
    · obtain ⟨p, hp, rfl⟩ := Option.map_eq_some_iff.1 h
      obtain ⟨_, _, _, hstep⟩ := hran
      rw [hstep.dmAddr] at hp
      exact ⟨(ran_macEA hn).trans ⟨_, _, _, macStep_raiseV⟩, by simpa using within_store hu h16 hle hp⟩

theorem keepsTo_moves {u : Use} (hu : userMode x = true) (h16 : (tr 0x3B x).toNat < 65536)
    (hle : (tr 0x3A x).toNat ≤ (tr 0x3B x).toNat) (hran : Ran x y) (hstores : u.stores = []) {r : Tarn × Use}
    (h : movesSem c i x y u = some r) : Kept x r.1 ∧ ∀ e ∈ r.2.stores, Within (tr 0x3A x).toNat (tr 0x3B x).toNat e := by
  obtain ⟨r1, h1, h⟩ := Option.bind_eq_some_iff.1 h
  obtain ⟨r2, h2, h⟩ := Option.bind_eq_some_iff.1 h
  cases h
  obtain ⟨hran1, hin1⟩ := ran_move hu h16 hle (by decide) hran h1
  obtain ⟨hran2, hin2⟩ := ran_move hu h16 hle (by decide) (hran.trans hran1) h2
  refine ⟨((hran.trans hran1).trans hran2).kept, fun e he => ?_⟩
  simp only [Use.and, hstores, List.nil_append, List.mem_append] at he
  exact he.elim (hin1 e) (hin2 e)

theorem keepsTo_pmov (hu : userMode x = true) (h16 : (tr 0x3B x).toNat < 65536) (hle : (tr 0x3A x).toNat ≤ (tr 0x3B x).toNat) :
    KeepsTo (tr 0x3A x).toNat (tr 0x3B x).toNat x (pmovSem c i x) :=
  keepsTo_orWindow fun _ _ h => keepsTo_moves hu h16 hle Ran.refl rfl h

theorem keepsTo_mac {op : TOp} (hu : userMode x = true) (h16 : (tr 0x3B x).toNat < 65536) (hle : (tr 0x3A x).toNat ≤ (tr 0x3B x).toNat) :
    KeepsTo (tr 0x3A x).toNat (tr 0x3B x).toNat x (macSem c op i x) := by
  refine keepsTo_orWindow fun y u h => ?_
  obtain ⟨rx, hx, h⟩ := Option.bind_eq_some_iff.1 h
  obtain ⟨ry, hy, h⟩ := Option.bind_eq_some_iff.1 h
  obtain ⟨hranx, hux⟩ := ran_xOperand hx
  obtain ⟨hrany, huy⟩ := ran_yOperand hy
  have hacc (re im : W64) (v : Bool) : Ran ry.2.1 (setAccV v (setAcc i.acn re im ry.2.1)) := ⟨_, _, _, macStep_setAcc.trans macStep_setAccV⟩
  exact keepsTo_moves hu h16 hle ((hranx.trans hrany).trans (hacc _ _ _)) (by simp [Use.and, hux, huy]) h

end

/-! ### Fetching in user mode (R253) -/

section
variable {c : Nat} {i : TI} {op : TOp} {d : Dev}

/-- What a core in user mode fetches is not refused there (R253). -/
theorem not_refused_of_fetch (hu : userMode (tarn c d) = true) (h : fetchTarn c op d = .ok i) : i.op = op ∧ userRefused i = false := by
  obtain ⟨hop, -, hbad⟩ := fetchTarn_ok h
  have hu' : userMode (ageAll (tarn c d)) = true := hu
  simp only [badHere, hu', Bool.true_and, Bool.or_eq_false_iff] at hbad
  exact ⟨hop, hbad.1.1.1.1.1⟩

theorem keepsTo_sta (hu : userMode (ageAll (tarn c d)) = true) (h16 : (tr 0x3B (tarn c d)).toNat < 65536)
    (hle : (tr 0x3A (tarn c d)).toNat ≤ (tr 0x3B (tarn c d)).toNat) (h : fetchTarn c .sta d = .ok i) :
    KeepsTo (tr 0x3A (tarn c d)).toNat (tr 0x3B (tarn c d)).toNat (ageAll (tarn c d)) (staSem i (ageAll (tarn c d))) := by
  obtain ⟨hok, -, -⟩ := okL_of_fetch h rfl
  simp only [okL, Bool.and_eq_true, decide_eq_true_eq] at hok
  rw [staSem_stores]
  exact keepsTo_store (x := ageAll (tarn c d)) hu h16 hle hok.1 fun _ => kept_raiseV

/-- An operation that user mode refuses. -/
theorem not_fetched_of_refused (hu : userMode (tarn c d) = true) (hop : op ∈ [TOp.fld, .fst, .reti, .callu, .done, .wait, .mbox, .strm, .dma]) :
    fetchTarn c op d ≠ .ok i := by
  intro h
  obtain ⟨rfl, hno⟩ := not_refused_of_fetch hu h
  unfold userRefused at hno
  simp only [List.mem_cons, List.not_mem_nil, or_false] at hop
  rcases hop with h | h | h | h | h | h | h | h | h
  all_goals simp [h] at hno

theorem sp_of_store (hu : userMode (tarn c d) = true) (hop : op ∈ [TOp.st, .sth, .std]) (h : fetchTarn c op d = .ok i) : i.sp = 0 := by
  obtain ⟨rfl, hno⟩ := not_refused_of_fetch hu h
  unfold userRefused at hno
  simp only [List.mem_cons, List.not_mem_nil, or_false] at hop
  rcases hop with h | h | h
  · simp only [h, Bool.or_eq_false_iff, decide_eq_false_iff_not, not_not] at hno
    exact hno.2
  · simpa [h] using hno
  · simpa [h] using hno

/-- A command whose instruction user mode refuses: nothing, or the exit. -/
theorem confined_refused {lo hi : Nat} {F : Dev → Dev} (hu : userMode (tarn c d) = true)
    (hop : op ∈ [TOp.fld, .fst, .reti, .callu, .done, .wait, .mbox, .strm, .dma]) (hidle : fetchTarn c op d = .idle → F d = d)
    (hillegal : fetchTarn c op d = .illegal → F d = illegalAt c d) : Confined c lo hi d (F d) := by
  cases hf : fetchTarn c op d with
  | idle =>
    rw [hidle hf]
    exact .refl
  | illegal =>
    rw [hillegal hf]
    exact confined_illegalAt hu
  | ok i => exact absurd hf (not_fetched_of_refused hu hop)

theorem confined_runSystem {lo hi : Nat} {f : TI → Dev → Bool × Dev} (hu : userMode (tarn c d) = true)
    (hop : op ∈ [TOp.fld, .fst, .reti, .callu, .done, .wait, .mbox, .strm, .dma]) : Confined c lo hi d (runSystem c op f d) :=
  confined_refused hu hop (fun h => by rw [runSystem, h]) fun h => by rw [runSystem, h]

end

theorem confined_exec {c : Nat} {s t : State} {cmd : Instr} (hcmd : CoreInstruction c cmd) (hu : userMode (tarn c s.dev) = true)
    (h16 : (tr 0x3B (tarn c s.dev)).toNat < 65536) (hle : (tr 0x3A (tarn c s.dev)).toNat ≤ (tr 0x3B (tarn c s.dev)).toNat)
    (ht : exec cmd s = .next t) : Confined c (tr 0x3A (tarn c s.dev)).toNat (tr 0x3B (tarn c s.dev)).toNat s.dev t.dev := by
  have device {F : Dev → Dev} (hF : exec cmd s = onDev F s)
      (h : Confined c (tr 0x3A (tarn c s.dev)).toNat (tr 0x3B (tarn c s.dev)).toNat s.dev (F s.dev)) :
      Confined c (tr 0x3A (tarn c s.dev)).toNat (tr 0x3B (tarn c s.dev)).toNat s.dev t.dev := by
    rw [dev_of_onDev (hF.symm.trans ht)]
    exact h
  have run {op : TOp} {sem : TI → Tarn → Eff} (hF : exec cmd s = onDev (runTarn c op sem) s)
      (h : ∀ i, fetchTarn c op s.dev = .ok i → KeepsTo (tr 0x3A (tarn c s.dev)).toNat (tr 0x3B (tarn c s.dev)).toNat (ageAll (tarn c s.dev))
        (sem i (ageAll (tarn c s.dev)))) : Confined c (tr 0x3A (tarn c s.dev)).toNat (tr 0x3B (tarn c s.dev)).toNat s.dev t.dev :=
    device hF (confined_runTarn hu h)
  have hu' : userMode (ageAll (tarn c s.dev)) = true := hu
  simp only [CoreInstruction, List.mem_cons, List.not_mem_nil, or_false] at hcmd
  rcases hcmd with rfl | rfl | rfl | rfl | rfl | rfl | rfl | rfl | rfl | rfl | rfl | rfl | rfl | rfl | rfl | rfl | rfl | rfl | rfl | rfl | rfl | rfl |
    rfl | rfl | rfl | rfl | rfl | rfl | rfl | rfl | rfl | rfl | rfl | rfl | rfl | rfl | rfl | rfl | rfl | rfl | rfl | rfl | rfl | rfl | rfl | rfl |
    rfl | rfl | rfl | rfl | rfl | rfl | rfl | rfl | rfl | rfl | rfl | rfl | rfl | rfl | rfl | rfl | rfl
  · exact run (sem := fun _ t => .go t Use.none none) rfl fun _ _ => keepsTo_of_writes Writes.refl
  iterate 13 exact run rfl fun _ _ => keepsTo_alu
  · exact run rfl fun _ _ => keepsTo_of_writes (Writes.refl.writeReg.writeReg.setFlags)
  · exact run rfl fun _ _ => keepsTo_of_writes Writes.refl.writeReg
  · exact run rfl fun _ _ => keepsTo_mva
  · exact run rfl fun _ _ => keepsTo_of_writes Writes.refl.writeReg
  · exact run rfl fun _ _ => keepsTo_acwr
  · exact run rfl fun _ _ => keepsTo_of_writes Writes.refl.setAcc
  · exact run rfl fun _ _ => keepsTo_of_writes Writes.refl.setAcc
  · exact run rfl fun _ _ => keepsTo_of_writes Writes.refl.setAcc.setFlags.setAccV
  · exact run rfl fun _ _ => keepsTo_of_writes Writes.refl.setAcc.setAccV
  · exact run rfl fun _ _ => keepsTo_of_writes Writes.refl.setAcc
  · exact device (F := farLoad c) rfl (confined_refused (op := .fld) hu (by decide) (fun h => by rw [farLoad, h]) fun h => by rw [farLoad, h])
  · exact device rfl (confined_runSystem hu (by decide))
  · exact run rfl fun _ _ => keepsTo_of_writes Writes.refl.writeReg
  · exact run rfl fun _ _ => keepsTo_of_writes Writes.refl.writeReg
  iterate 8 exact run rfl fun _ _ => keepsTo_imm
  · exact run rfl fun _ _ => keepsTo_load fun _ _ => Writes.refl.writeReg.kept
  · exact run rfl fun _ h => keepsTo_store hu' h16 hle (sp_of_store hu (by decide) h) fun _ => ⟨rfl, rfl, rfl⟩
  · exact run rfl fun _ _ => keepsTo_load fun _ _ => Writes.refl.writeReg.kept
  · exact run rfl fun _ h => keepsTo_store hu' h16 hle (sp_of_store hu (by decide) h) fun _ => ⟨rfl, rfl, rfl⟩
  · exact run rfl fun _ _ => keepsTo_ldd
  · exact run rfl fun _ h => keepsTo_std hu' h16 hle (sp_of_store hu (by decide) h)
  · exact run rfl fun _ h => keepsTo_sta hu' h16 hle h
  · exact run rfl fun _ _ => keepsTo_mac hu' h16 hle
  · exact run rfl fun _ _ => keepsTo_mac hu' h16 hle
  · exact run rfl fun _ _ => keepsTo_mac hu' h16 hle
  · exact run rfl fun _ _ => keepsTo_pmov hu' h16 hle
  iterate 4 exact run rfl fun _ _ => keepsTo_branch
  · exact run (sem := fun _ t => branchTo 1 0 t) rfl fun _ _ => keepsTo_branchTo ⟨rfl, rfl, rfl⟩
  · exact device (F := callUser c) rfl (confined_refused (op := .callu) hu (by decide) (fun h => by rw [callUser, h]) fun h => by rw [callUser, h])
  · exact run (sem := fun _ t => branchTo 3 0 t) rfl fun _ _ => keepsTo_branchTo ⟨rfl, rfl, rfl⟩
  · exact run (sem := fun i t => loopSem i.cnt i t) rfl fun _ _ => keepsTo_of_kept ⟨rfl, rfl, rfl⟩ rfl
  · exact run (sem := fun i t => loopSem (fld (readReg c i.dn t) 15 0) i t) rfl fun _ _ => keepsTo_of_kept ⟨rfl, rfl, rfl⟩ rfl
  · exact run (sem := fun i t => rptSem i.cnt t) rfl fun _ _ => keepsTo_rpt
  · exact run (sem := fun i t => rptSem (fld (readReg c i.dn t) 12 0) t) rfl fun _ _ => keepsTo_rpt
  · exact device (F := doneSem c) rfl (confined_refused (op := .done) hu (by decide) (fun h => by rw [doneSem, h]) fun h => by rw [doneSem, h])
  · exact device (F := waitSem c) rfl (confined_refused (op := .wait) hu (by decide) (fun h => by rw [waitSem, h]) fun h => by rw [waitSem, h])
  · exact device rfl (confined_runSystem hu (by decide))
  · exact device rfl (confined_runSystem hu (by decide))
  · exact device rfl (confined_runSystem hu (by decide))

/-- Settles O39: every instruction of a core in user mode is confined to its window (`confined_exec`). -/
theorem userModeConfines : Obligations.UserModeConfines := by
  intro c s t cmd hcmd hinv hu hle ht
  obtain ⟨-, ⟨-, h16, -⟩, -⟩ := hinv
  have h := confined_exec hcmd hu h16 hle ht
  exact ⟨h.window, h.cs, h.pm, h.basin, h.dram, h.others⟩

end Sys2Proof.Machine
end
